-- ==== Sys2Proof/Word.lean ====
section
/-! DEFINITION. The word types of the ILH-C832 and their plainest arithmetic (R7, R8, R12). -/
namespace Sys2Proof

/-- A register: 32 bits wide (R12). -/
abbrev Word := BitVec 32
/-- A byte. -/
abbrev Byte := BitVec 8
/-- An Anvil data word and an input, port or mantissa value (R28). -/
abbrev Word24 := BitVec 24
/-- A 64-bit quantity: a host address, a SEQ. -/
abbrev Word64 := BitVec 64
/-- One of the eight engine slices E0-E7 (R15). -/
abbrev Eng := Fin 8
/-- One of the five read-channel chains CH0-CH4 of an engine. -/
abbrev Chn := Fin 5
/-- One of the four read spots of an engine. -/
abbrev Spot := Fin 4

/-- A number limited to the range `lo` to `hi`. -/
def clampInt (lo hi x : Int) : Int := if x < lo then lo else if hi < x then hi else x

/-- A count that stops at `top`. -/
def satInc (top n : Nat) : Nat := if n < top then n + 1 else n

/-- A sum that stops at `top`. -/
def satAdd (top n d : Nat) : Nat := if n + d < top then n + d else top

end Sys2Proof
end

