-- ==== Sys2Proof/Syntax.lean ====
section
/-! DEFINITION. The commands of the ILH-C832: one constructor of `Instr` per row of the spec's table of operations and
events, with what that operation or event brings from outside the part (an address, a value, a measurement, the result
of decoding a cluster) as operands. -/
namespace Sys2Proof

/-- One 4 KiB block of data: a volume LBA, a DDR4 line, a sixteenth of a cluster. -/
abbrev Block := BitVec 32768
/-- The 65,536 bytes of user data of a cluster, as 16 blocks. -/
abbrev Cluster := Vector Block 16

/-- Who issues a register access: one of the 24 processors (R17), the host through BAR0 (R25-R27). -/
inductive Req
  | plc (c : Fin 4) | hst (c : Fin 2) | sup | sec | esq (e : Eng) | anv (e : Eng) | host
deriving DecidableEq, Repr

/-- A physical cluster address and layer, in the layout of DEC_ADDR. -/
structure ClAddr where
  cluster : BitVec 28
  layer : BitVec 3
deriving DecidableEq, Repr

/-- Mean levels of R141's asymmetry: positive and negative plateaus of 8T and 9T runs, and 2T runs. -/
structure Plateau where
  h : Int
  l : Int
  c : Int
deriving DecidableEq, Repr

/-- What decoding one cluster finds: the symbols in error of each of its 24 BIS and 304 LDC codewords, the EDC checks that fail,
the address of its BIS, the data, and the levels of R141. -/
structure Decoded where
  bis : List (List Nat)
  ldc : List (List Nat)
  edc : BitVec 32
  addr : Option ClAddr
  data : Cluster
  lv : Plateau
deriving DecidableEq, Repr

/-- One RF, wobble, servo, status or fill block of an upstream frame (R42-R48). -/
abbrev LinkBlock := BitVec 64

/-- What one Temper trial window measured: squared error, the mean positive and negative plateau of each slice in 1/64 LSB, the
signal's centre in 1/64 LSB, and, with the last window of run 2, the errors of the new set and of the session-start set in their
run-2 windows (R163, R166). -/
structure WindowResult where
  mse : BitVec 16
  newMse : BitVec 16
  oldMse : BitVec 16
  pos : Vector Int 10
  neg : Vector Int 10
  centre : Int
deriving DecidableEq, Repr

/-- How the pickup's loops fail while a loop command runs (R199). -/
inductive LoopLoss | focus | track
deriving DecidableEq, Repr

/-- What one PWM period of a spindle samples: the currents of phases U and V, in mA (R214). -/
structure SpnMeas where
  iu : Int
  iv : Int
deriving DecidableEq, Repr

/-- The head request of an arbiter group: its tier 1 (highest) to 5 (R21) and, in tier 3, whether it is C3 (R424). -/
structure ArbReq where
  tier : Nat
  c3 : Bool
deriving DecidableEq, Repr

/-- One access of a requester to a 4 KiB line through the stripe cache (R414-R418): a read, a write of the bytes of
`mask`, or the last of the marked writes that cover the whole line. -/
inductive Access
  | read | write (mask data : Block) | whole (data : Block)
deriving DecidableEq, Repr

/-- What the choice of a read source is asked (R263), with the time the engines' work queues give for each member (QTIME of R264). -/
structure ReadReq where
  ladder : Bool                       -- MODE
  cls : Nat
  run : Nat
  stripe : Nat
  need : Nat
  bytes : Nat
  deadlineMs : Option Nat
  remainMs : Nat
  qtimeUs : Vector Nat 8
deriving DecidableEq, Repr

/-- A disc waiting for choose_load, with the work pending for it (R267). -/
structure LoadCand where
  disc : Nat
  cls : Nat                           -- 0 admin, 1-4, 5 none
  deadlineMs : Option Nat
  kib : Nat
deriving DecidableEq, Repr

/-- What the media work of a row met: clusters handed on at rung 7 of the ladder, and written clusters that verify gave
a code other than OK (R137), both as (disc, layer, physical cluster); and stretches of BD-R found recorded before they were written, as
(disc, layer, first, last) (R496). -/
structure MediaEvents where
  bad : List (Nat × ClAddr) := []
  fails : List (Nat × ClAddr × Nat) := []
  recorded : List (Nat × Nat × Nat × Nat) := []
deriving DecidableEq, Repr

/-- A board configuration record (R440). -/
structure Bcr where
  ssvid : BitVec 16
  ssid : BitVec 16
  gib : Nat
  ranks2 : Bool
  density : Fin 4
  mram : Nat
  engines : BitVec 8
  axes : BitVec 4
  owner : BitVec 384                  -- SHA-384 of OKEY
  osigOwner : Bool                    -- OSIG verifies by OKEY
  osigVendor : Bool                   -- OSIG verifies by the Beyfoar key KEY_IDX
deriving DecidableEq, Repr

/-- A firmware image as its header page and the engine for hashes and signatures show it (R439, R441). -/
structure Img where
  magic : Bool                        -- MAGIC and FORMAT are correct
  version : Word
  svn : Nat
  keyIdx : Fin 4
  bodyLen : Nat
  sig : Bool                          -- SIG verifies
  hash : Bool                         -- BODY_HASH matches the body
  actSeq : Nat                        -- ACT_SEQ
  bcr : Bcr
deriving DecidableEq, Repr

/-- What a magazine slot holds when its disc is put into the home engine and read (R390, R496). -/
inductive Found
  | empty
  | unsupported
  | unfocusable
  | disc (medium layers capcode : Nat) (zone : Vector (Nat × Nat) 4) (radii : Vector Nat 4) (recorded : Vector Nat 4)
deriving DecidableEq, Repr

/-- Where DISC_RECOVERY finds a disc (R492). -/
inductive Place | engine | magazine | nowhere
deriving DecidableEq, Repr

/-- Who signed a debug unlock request, as SEC's engine finds (R444). -/
inductive Signer | owner | vendor | nobody
deriving DecidableEq, Repr

/-- A source of a warm reset or clock failure (R458). -/
inductive ClockSrc | core | ddr | ref | pcie | engine (e : Eng)
deriving DecidableEq, Repr

/-- What a mirror's device shows at boot (R331, R332): no answer, or its capacity in MiB. -/
abbrev MirrorSeen := Option Nat

/-- What a poisoned beat held (R403): cluster data not yet sent, journalled data, a sealed record not yet committed, host
data not yet sealed, a map structure, a reassembly slot, firmware, an event log entry. -/
inductive Poison
  | cluster (q : Fin 65) (tag : Nat) (sent : Bool)
  | journalled
  | sealed (seq : Nat)
  | unsealed (q : Fin 65) (tag : Nat)
  | map (page : Nat)
  | slot (e : Eng) (c : ClAddr) (spot : Nat)
  | firmware
  | event (seq : Nat)
deriving DecidableEq, Repr

/-- An ECC error of a DDR4 beat (R402). -/
inductive BeatErr | corrected | uncorrectable (p : Poison)
deriving DecidableEq, Repr

/-- The commands, one constructor per row of the table (293 rows). -/
inductive Instr
  -- registers, fabric, arbiter (01, 15)
  | registerWrite (rq : Req) (addr : BitVec 32) (be : BitVec 4) (v hw : Word) (same : BitVec 15)
  | coreAccessFault (core : Fin 16) (addr : BitVec 32) (write : Bool)
  | arbiterContest (reqs : Vector (Option ArbReq) 16)
  -- head link (02)
  | laneFrameReceived (e : Eng) (u : Spot) (marker : BitVec 64) (payload : List LinkBlock) (nextCrc : BitVec 7) (hdr : BitVec 16)
  | servoSetReceived (e : Eng) (blocks : List (LinkBlock × Bool)) (offset : Int)
  | f5StatusBlock (e : Eng) (blk : LinkBlock)
  | f5Silent (e : Eng)
  | laneLockLost (e : Eng) (u : Spot)
  | trainingFrameReceived (e : Eng) (u : Spot) (marker : BitVec 64) (payload : List LinkBlock) (hdr : BitVec 16) (at_ : Nat)
  | trainTimeout (e : Eng)
  | hlEnable (e : Eng)
  | hlDisable (e : Eng)
  | hlRetrain (e : Eng)
  | hlCntClr (e : Eng) (same : BitVec 15)
  | downstreamFrameSend (e : Eng)
  | lpwRepeat (e : Eng)
  -- read channel (03)
  | syncMarkDetected (e : Eng) (k : Chn) (pos : Nat) (mism : Nat) (frame : Fin 496) (level : Nat) (centre : Int)
  | syncWindowClose (e : Eng) (k : Chn) (pos : Nat) (addr : Option ClAddr)
  | clusterDecoded (e : Eng) (k : Chn) (d : Decoded)
  | chainEnable (e : Eng) (k : Chn)
  | chainDisable (e : Eng) (k : Chn)
  | chCntClr (e : Eng) (k : Chn) (same : BitVec 4)
  | rplCapArm (e : Eng) (k : Chn)
  | rplPlay (e : Eng)
  | replayPassDone (e : Eng) (d : Decoded)
  | rplAbort (e : Eng)
  | wpllLock (e : Eng) (fb : BitVec 24)
  | wpllLockLost (e : Eng)
  | wpllResume (e : Eng)
  | adipWordDecoded (e : Eng) (ahead : Option (Fin 2)) (addr : Option ClAddr) (level : BitVec 16)
  | capCtrlWrite (e : Eng) (v : Word)
  | capTrigger (e : Eng) (pos : BitVec 16)
  | capDone (e : Eng) (samples : List Int)
  -- seam and reassembly (04)
  | seamCrossing (e : Eng)
  | seamWindowClose (e : Eng) (sameStop : Bool)
  | seamSettled (e : Eng) (js : Nat)
  | seamLate (e : Eng) (js : Nat)
  | stitchDecoded (e : Eng) (d : Decoded)
  | seamRun (e : Eng)
  | seamClose (e : Eng)
  | seamCntClr (e : Eng) (same : BitVec 4)
  | rasFree (e : Eng) (slot : Fin 64)
  -- write path (05)
  | wrGo (e : Eng)
  | wrStop (e : Eng)
  | wrOpcGo (e : Eng)
  | wrCntClr (e : Eng) (same : BitVec 3)
  | laserEnWrite (e : Eng) (v : Bool)
  | wrProdWrite (e : Eng) (prod : BitVec 7)
  | wrDecisionPoint (e : Eng)
  | ilkOpening (e : Eng)
  | ilkHoldExpire (e : Eng)
  | ilkOpeningEnd (e : Eng)
  | opcDone (e : Eng) (steps : List Plateau)
  -- retry ladder and Temper (06)
  | ladderAttempt (e : Eng) (angle : Fin 3600) (first : ClAddr)
  | ladderSkip (e : Eng) (c : ClAddr)
  | temperPeriod (e : Eng)
  | tmpStart (e : Eng)
  | tmpAbort (e : Eng)
  | tmpCntClr (e : Eng) (same : BitVec 3)
  | temperRetryDelay (e : Eng)
  | temperMatch (e : Eng)
  | spotHandover (e : Eng) (claim : Bool)
  | temperConvLimit (e : Eng)
  | temperWindowDone (e : Eng) (w : WindowResult)
  | temperFreqMeasure (e : Eng) (count : Nat)
  | tmpAdcmapWrite (e : Eng) (a : Chn) (v : Word)
  | tmpAdctrimWrite (e : Eng) (a : Chn) (s : Fin 10) (v : Word)
  -- Anvil (07)
  | anvTickStale (e : Eng)
  | anvOverrun (e : Eng)
  | anvNop (e : Eng)
  | anvMpy (e : Eng) (d : Fin 4) (x y : BitVec 12)
  | anvMac (e : Eng) (d : Fin 4) (x y : BitVec 12)
  | anvMsu (e : Eng) (d : Fin 4) (x y : BitVec 12)
  | anvLda (e : Eng) (d : Fin 4) (x : BitVec 12)
  | anvAdd (e : Eng) (d : Fin 4) (x : BitVec 12)
  | anvSub (e : Eng) (d : Fin 4) (x : BitVec 12)
  | anvSt (e : Eng) (d : Fin 4) (x : BitVec 12)
  | anvInt (e : Eng) (d : Fin 4) (x : BitVec 12) (q : Fin 8)
  | anvOut (e : Eng) (d : Fin 4) (q : Fin 8)
  | anvExa (e : Eng) (k : Fin 16) (d : Fin 4)
  | anvShf (e : Eng) (d : Fin 4) (n : BitVec 6)
  | anvAcc (e : Eng) (d a : Fin 4)
  | anvMova (e : Eng) (d a : Fin 4)
  | anvClr (e : Eng) (d : Fin 4)
  | anvLdk (e : Eng) (d : Fin 4) (v : BitVec 16)
  | anvLdx (e : Eng) (k : Fin 16) (v : BitVec 5)
  | anvAdx (e : Eng) (k : Fin 16) (v : BitVec 5)
  | anvLdi (e : Eng) (i : Fin 4) (v : BitVec 11)
  | anvAdi (e : Eng) (i : Fin 4) (v : BitVec 11)
  | anvLdim (e : Eng) (i : Fin 4) (x : BitVec 12)
  | anvMov (e : Eng) (x y : BitVec 12)
  | anvRsc (e : Eng) (x : BitVec 12) (n : BitVec 7) (k : BitVec 4)
  | anvRpt (e : Eng) (n : BitVec 8)
  | anvBr (e : Eng) (c : BitVec 6) (t : BitVec 11)
  | anvBrn (e : Eng) (c : BitVec 6) (t : BitVec 11)
  | anvWait (e : Eng) (t : BitVec 11)
  | anvRinit (e : Eng) (m : BitVec 8)
  | illegalInstruction (e : Eng) (w : Word)
  | anvSatTrip (e : Eng)
  | anvRun (e : Eng)
  | anvStop (e : Eng)
  | anvBankWrite (e : Eng) (bank : Bool)
  | anvTripClr (e : Eng)
  | anvCntClr (e : Eng) (same : BitVec 3)
  | anvRampInit (e : Eng) (r : Fin 8) (v : Word)
  | anvPmWrite (e : Eng) (bank : Bool) (a : BitVec 11) (w : Word)
  | anvDmWrite (e : Eng) (a : BitVec 11) (v : Word)
  -- loop commands, seeks, gearing (08)
  | loopNop (e : Eng)
  | focusSearch (e : Eng) (arg : Int) (found : Bool) (lost : Bool)
  | trackOn (e : Eng) (loss : Option LoopLoss)
  | trackOff (e : Eng)
  | jump (e : Eng) (n : Int) (loss : Option LoopLoss)
  | layerJump (e : Eng) (n : Int) (found : Bool)
  | retract (e : Eng)
  | loopCmdTimeout (e : Eng)
  | focusLost (e : Eng)
  | trackLost (e : Eng)
  | staleTicksFault (e : Eng)
  | longSeek (e : Eng) (target : ClAddr) (mean : BitVec 24) (reads : List ClAddr)
  | sledPositionRecover (e : Eng) (homed : Bool) (address : Option (ClAddr × BitVec 24))
  | slgAngleStep (e : Eng)
  | slgLoad (e : Eng)
  | slgEnWrite (e : Eng) (v : Bool)
  -- spindle, buses, sled, axes (09)
  | spnPwmPeriod (e : Eng) (m : SpnMeas)
  | spnStart (e : Eng)
  | spnCoast (e : Eng)
  | spnDirWrite (e : Eng) (dir : Bool)
  | spnTargetWrite (e : Eng) (rpm : BitVec 14)
  | spnCatchDecide (e : Eng) (edges interval : Nat) (forward : Bool) (theta : Fin 1024)
  | spnAlignDone (e : Eng)
  | spnOpenHandover (e : Eng)
  | spnBrakeDone (e : Eng)
  | spnAtSpeed (e : Eng)
  | spnLossOfSync (e : Eng)
  | spnDriverFault (e : Eng)
  | brkSample (b : Fin 2) (vbus : Nat) (ibus ichop : Int)
  | busThresholdRelease (b : Fin 2) (level : Fin 2)
  | chopFault (b : Fin 2)
  | brkFaultClr (b : Fin 2) (rq : Req)
  | brkThresholdWrite (b : Fin 2) (which : Fin 3) (v : Word)
  | sldPwmPeriod (e : Eng) (enc : Int)
  | sldHoldCurrent (e : Eng)
  | sldMove (e : Eng)
  | sldHome (e : Eng)
  | sldStop (e : Eng)
  | sldPark (e : Eng)
  | sldParkDone (e : Eng)
  | sldPowerOn (e : Eng)
  | sldFault (e : Eng)
  | sldEncBad (e : Eng)
  | encIndex (enc : Fin 12)
  | encIllegalTransition (enc : Fin 12)
  | axMove (a : Fin 4)
  | axStop (a : Fin 4)
  | axEstop (a : Fin 4)
  | axGearSet (a : Fin 4)
  | axGearClear (a : Fin 4)
  | axMasterCount (a : Fin 4) (n : Fin 12) (up : Bool)
  | axStepPulse (a : Fin 4) (up : Bool) (last : Bool) (enc : Int)
  -- placement and policy (10)
  | policyCall (c : Fin 4)
  | chooseWriteGroup (vol : Fin 256) (stripes : Nat)
  | chooseReadSource (rq : ReadReq)
  | chooseLoad (e : Eng) (cur : LoadCand) (cands : List LoadCand)
  | chooseSpeed (e : Eng) (radius rc hostKbs fill size : Nat)
  | policyEcall (c : Fin 4)
  | policyBudgetExpire (c : Fin 4)
  | bpalloc (c : Fin 4) (rd rs1 rs2 : Fin 32)
  | bpfree (c : Fin 4) (rd rs1 rs2 : Fin 32)
  | bpshare (c : Fin 4) (rd rs1 rs2 : Fin 32)
  | gfmac8 (c : Fin 4) (rd rs1 rs2 : Fin 32)
  | plquery (c : Fin 4) (rd rs1 rs2 : Fin 32) (crcBad : Bool)
  | plcommit (c : Fin 4) (rd rs1 rs2 : Fin 32)
  | qput (c : Fin 4) (rd rs1 rs2 : Fin 32)
  | qget (c : Fin 4) (rd rs1 rs2 : Fin 32)
  | measurementSnapshot (work : Vector (Nat × Nat) 8)
  | poweredHour
  | agingMark
  | discRecovery (disc : Nat) (found : Place)
  -- redundancy (11)
  | gatherTimeout (vol : Fin 256) (m : MediaEvents)
  | groupCommit (vol : Fin 256)
  | runInitZero (run : Word) (m : MediaEvents)
  | destage (run stripe : Nat) (row : Fin 16) (j : Fin 8) (m : MediaEvents)
  | rowLockGrant
  | resync (m : MediaEvents)
  | headerBatchWrite (disc : Nat) (ok : Bool)
  | mapRebuild
  | clusterRepair (m : MediaEvents)
  | engGraceExpire (e : Eng)
  | rebuildTargetChoose (run : Nat) (j : Fin 8)
  | rebuildBatchDone (run : Nat) (j : Fin 8) (m : MediaEvents)
  | reshapeUnitCopy (vol : Fin 256) (m : MediaEvents)
  | scrub (disc : Nat) (m : MediaEvents)
  -- journal, Plinth, boot (12)
  | recordSeal (second : Bool)
  | recordWriteDone (b : Bool)
  | mirrorFail (b : Bool)
  | mapCheckpoint
  | journalResize
  | plinthFallbackWrite
  | pfailLatch (failed : BitVec 2) (dur : Nat)
  | brownoutReturn
  | por
  | pgFall
  | porRelease (pfailLow : Bool) (nor : Vector (Option Img) 2) (ddrOk : Bool) (a b : MirrorSeen) (nandBad : Bool) (gap : Option (Nat × Nat)) (ms : Nat)
  -- queues (13)
  | doorbellSq (q : Fin 65)
  | doorbellCq (q : Fin 65) (head : BitVec 16)
  | indexReadDone (q : Fin 65) (tail head : BitVec 16)
  | slotFetchDone (q : Fin 65) (slots : List (BitVec 512)) (segs : List (List (BitVec 128))) (estMs : Nat) (freeMs : Nat)
  | msixUnmask (v : Fin 129)
  | cqFullPoll (q : Fin 65) (head : BitVec 16)
  | hostMemoryError (q : Fin 65) (tag : Option (Fin 32))
  | interimDue (q : Fin 65) (tag : Fin 32) (eta : Word)
  | deadlinePass (q : Fin 65) (tag : Fin 32)
  | queueDisable (q : Fin 65) (same : Bool)
  | queueEnable (q : Fin 65) (tail head : Option (BitVec 16))
  | busMasterEnable (on : Bool)
  | cqiFrst
  | functionReset
  -- admin and I/O commands (14)
  | queueCreate (tag : Fin 32)
  | queueDelete (tag : Fin 32)
  | abort (tag : Fin 32)
  | getLog (tag : Fin 32)
  | setSettings (tag : Fin 32) (failed : BitVec 2)
  | getSettings (tag : Fin 32)
  | volCreate (tag : Fin 32)
  | volDelete (tag : Fin 32)
  | volSeal (tag : Fin 32) (m : MediaEvents)
  | volReshape (tag : Fin 32)
  | mediaLoad (tag : Fin 32) (found : Found)
  | mediaEject (tag : Fin 32)
  | discFail (tag : Fin 32)
  | discMigrate (tag : Fin 32)
  | keyLoad (tag : Fin 32) (failed : BitVec 2)
  | keyClear (tag : Fin 32) (failed : BitVec 2)
  | programLoad (tag : Fin 32) (image : List Byte)
  | calRestore (tag : Fin 32) (ents : List (Word × Word))
  | fwStage (tag : Fin 32) (hdr : Img)
  | fwActivate (tag : Fin 32)
  | fwHandover
  | activationTimeout (ready : Bool)
  | read (q : Fin 65) (tag : Fin 32) (m : MediaEvents)
  | write (q : Fin 65) (tag : Fin 32) (data : List Block) (m : MediaEvents)
  | verify (q : Fin 65) (tag : Fin 32) (m : MediaEvents)
  | flush (q : Fin 65) (tag : Fin 32) (m : MediaEvents)
  -- DDR4, pools, stripe cache, arbiter, cipher (15, 16)
  | ddrRefresh
  | ddrPatrolScrub (beat : BitVec 31) (err : Option BeatErr)
  | poolConfigWrite (p : Fin 4) (count : Bool) (v : Word)
  | poolMinReset (p : Fin 4)
  | strcAccess (g : Fin 16) (i : Fin 4) (line : BitVec 22) (a : Access) (sram : Option (BitVec 9 × BitVec 12 × Option Poison))
  | strcFillDone (line : BitVec 22) (err : Option (BitVec 31 × BeatErr))
  | strcWriteback
  | strcPrefetch (line : BitVec 22) (n : Fin 16)
  | strcInval
  | strcClean
  | strcCleanInval
  | strcLockfill
  | strcOpDone
  | strcEnable
  | strcDisable
  | strcDrainDone
  | strcInitDone
  | strcWindowWrite (way : Fin 16) (set : Fin 64) (mask data : Block)
  | strcPartWrite (i : Fin 8) (v : Word)
  | strcCntClr (same : BitVec 3)
  | arbSeedWrite (v : Word)
  | cipherJobReady (prio : Fin 4) (slot : BitVec 6) (blocks : Nat) (ending : BitVec 2) (owner : Option (Fin 65 × Fin 32))
  | cipherJobDone (u : Fin 2)
  -- debug, test, power, claims, timers, temperature (16, 17, 18)
  | dbgChallenge (nonce : BitVec 256)
  | dbgUnlock (level : Fin 256) (by_ : Signer)
  | fuseProg (field word : BitVec 8) (data : Word) (efuse : Bool) (failed busy : Bool)
  | jtagExtest
  | jtagHighz
  | jtagClamp
  | tapReset (inFrame : Bool)
  | pwrEngSleep (e : Eng)
  | esqWfi (e : Eng)
  | pwrEngWake (e : Eng)
  | engineWakeDone (e : Eng)
  | standbyEntry
  | standbyWake (src : Fin 4)
  | wakeTimer (i : Fin 2)
  | clockFailure (c : ClockSrc)
  | vddAonPowerUp
  | warmReset (cause : Nat)
  | watchdogExpire
  | wdtKick
  | xtal32Fail
  | claimWrite (rq : Req) (r : Fin 37) (v : Word)
  | timCapture (t : Fin 12) (falling : Bool) (cnt : Word)
  | timMatch (t : Fin 12)
  | thermWarn (temp : BitVec 16)
  | thermTrip (temp : BitVec 16)
  | thermRecover (temp : BitVec 16)
  | pfailHoldRelease (a b : MirrorSeen) (nandBad : Bool) (gap : Option (Nat × Nat)) (ms : Nat)
deriving DecidableEq, Repr

end Sys2Proof
end

