-- ==== Sys2Proof/Decode.lean ====
section
/-! DEFINITION. The decoder of the opcode table's words. The table gives no row any bits, since the part takes operations and
events and no instruction words: no word spells a command. -/
namespace Sys2Proof

/-- The command that the low `nbits` bits of `w` spell by the table's bits: none. -/
def decodeTableWord (_nbits _w : Nat) : Option Instr := none

end Sys2Proof
end

