-- ==== Sys2Proof/Config.lean ====
section
/-! DEFINITION. What the spec leaves open: free values, opaque so that no proof can see them. Each is named in the
assumption log. A constant that takes `n` gets the state's running number of free values, so that two uses differ. -/
namespace Sys2Proof.Config

/-- Log 11. A quotient the spec does not say how to round: true takes the ceiling, false the floor. -/
opaque roundUp : Int → Int → Bool

/-- Log 12. The interpolation filter of a coefficient bank (R99): bank, place between samples in 2^-22, eight samples. -/
opaque interp : Nat → Nat → List Int → Int

/-- Log 12. The timing error detector, 2^-22 of a bit: decision-directed or not, the equaliser outputs of the detector's window,
the last levels decided. -/
opaque timErr : Bool → List Int → List Bool → Int

/-- Log 77. The channel bits of a recorded cluster, as levels, from its run-in on (BIS, LDC, EDC, scrambling, 17PP and sync are the
disc standard's): address word, user data, channel bit. -/
opaque encode : BitVec 32 → Vector (BitVec 32768) 16 → Nat → Bool

/-- Log 77. The modulated test data of an OPC run, as levels by channel bit (R142). -/
opaque testBits : Nat → Bool

/-- Log 77. The channel bits of the run-in before the mark of frame 0. -/
opaque runIn : Nat

/-- Log 77. The bytes of a frame in recording order: first and last channel bit of a byte, counted from the frame's mark. -/
opaque byteSpan : Nat → Nat × Nat

/-- Log 77. Where the disc standard records a symbol: BIS or LDC, codeword, symbol; the answer is frame and byte. -/
opaque symPlace : Bool → Nat → Nat → Nat × Nat

/-- Log 78. Which of the erasures of one class the decoder drops first (R91): codeword, symbol. -/
opaque dropOrder : Nat → Nat → Nat

/-- Log 93. The EDC mask that goes out with the result word of a cluster in which sync was lost, and which is not decoded (R88). -/
opaque lostEdc : Nat → BitVec 32

/-- Log 100. Static sensitivity of an engine's tracking actuator, nm at full scale of port 1: mechanism data (R212). -/
opaque trackSens : Nat → Int

/-- Whether a layer runs inward, from the direction of the layer before a jump of so many layers (log 104). -/
opaque layerInward : Bool → Int → Bool

/-- Log 15. Which of the 45 maps of 8 slices trial windows 1 and 2 try (window 0 tries the map in force): window, map in force
(R165). -/
opaque sliceMap : Nat → BitVec 10 → Nat

/-- Log 16. The 24-bit value of an internal input whose quantity lies outside plus or minus full scale (R184). -/
opaque outside24 : Int → BitVec 24

/-- Log 17. What RSC leaves in a word beyond the block of its first word (R182): word address, what it held. -/
opaque rscBeyond : Nat → BitVec 24 → BitVec 24

/-- Log 18. The entries of the sine table of R215 in 2^-16: sin(2 pi j / 1,024) to a precision the spec does not state. -/
opaque sine : Nat → Int

/-- Log 18. atan2 of R215 and R219 in 2^-16 table units, to a precision the spec does not state: y, x. -/
opaque atan2 : Int → Int → Int

/-- Log 18. The lag of the observer's 4-period filter, to be added to the angle at a speed (R219): 2^-16 table units per period. -/
opaque filterLag : Int → Int

/-- Log 18. The phase-locked loop on the observer's angle (R219): angle now, angle before, speed before; the answer is the speed in
2^-16 table units per period. -/
opaque pll : Nat → Nat → Int → Int

/-- Log 27. Where firmware keeps what a policy call is given, in a PLC core's local memory: 0 snapshot buffer 0, 1 snapshot
buffer 1, 2 request, 3 answer area, 4 top of the stack, 5 start of the code (R256). -/
opaque polAddr : Nat → BitVec 32

/-- Log 101. Bits the host may write in a configuration dword whose fields the spec does not name, what they hold at first, and what the
dword's other bits read: as the PCI Express Base Specification has them. -/
opaque cfgMask : Nat → BitVec 32
opaque cfgReset : Nat → BitVec 32
opaque cfgBase : Nat → BitVec 32

/-- Log 102. The 1 KiB of the shared SRAM where memory-mapped accesses reach the message queues (R20): 16 bytes for each queue. -/
opaque mqBlock : Fin 2048
def mqWindow : BitVec 32 := BitVec.ofNat 32 (0x21000000 + 1024 * mqBlock.val)

/-- Log 103. The SRAM macro that holds a core address (R408). -/
opaque sramMacro : Nat → Nat

/-- Log 103. The row of its macro that holds a core address. -/
opaque sramRow : Nat → Nat

/-- Log 103. The check bits of a 64-bit SRAM word (R406), and what a read corrects a word to by its check bits: none, an uncorrectable
error. -/
opaque secded : BitVec 64 → BitVec 8
opaque secdedRead : BitVec 64 → BitVec 8 → Option (BitVec 64)

/-- Log 103. A byte of the boot ROM. -/
opaque rom : Nat → BitVec 8

/-- Log 28. A message queue holds one message and this many more (R272). -/
opaque mqMore : Nat → Nat
/-- A message queue of this length is full: queue, messages. -/
def mqFull (q n : Nat) : Bool := decide (mqMore q < n)

/-- Log 29. Contents of a new pool buffer (R410): number, line. -/
opaque newBuffer : Nat → Nat → BitVec 32768

/-- Log 37. The device unique identifier of the fuses (R444, R481), which the maker blows. -/
opaque deviceId : BitVec 128

/-- Log 37. Which bits of a fuse word took when its verify failed (R481). -/
opaque fuseTook : Nat → BitVec 32

/-- Log 38. The fault code of INTERNAL_FAULT, for Beyfoar support (R375). -/
opaque faultCode : Nat → BitVec 32

/-- Log 39. Severity byte of an event's log entry, by its CODE: the spec names three severities and gives no event its own (R397). -/
opaque eventSeverity : Nat → Fin 3

/-- Log 39. How an event's arguments lie in bytes 20-31 of its entry, by its CODE (R397). -/
opaque eventArgs : Nat → List Nat → BitVec 96

/-- Log 40. The identifier MEDIA_LOAD reports for a disc it does not register (R390). -/
opaque noDisc : Nat → BitVec 12

end Sys2Proof.Config
end

