-- ==== Sys2Proof/Machine/Arith.lean ====
section
/-! DEFINITION. Arithmetic the blocks share: rounding, bit fields, checks over bit strings (CRC-7 of R39, CRC-32C of
R136), and the sine table of R215 as an interface to real arithmetic the spec does not fix to the last bit. -/
namespace Sys2Proof.Machine

/-- A quotient whose rounding the spec leaves open: exact when it divides, else the floor or the ceiling (log 11). -/
def divFree (n d : Int) : Int :=
  if d = 0 then 0
  else if n % d = 0 then n / d
  else Int.fdiv n d + (if Config.roundUp n d then 1 else 0)

/-- Round to nearest; how a tie goes is open where the spec only says "round" (log 11). -/
def roundFree (n d : Int) : Int :=
  if (2 * n) % d = 0 ∧ n % d ≠ 0 then divFree n d else (2 * n + d) / (2 * d)

/-- Round to nearest, ties toward plus infinity: `n / 2^k` (R180). -/
def rshRound (n : Int) (k : Nat) : Int := if k = 0 then n else (n + 2 ^ (k - 1)) / 2 ^ k

/-- Multiply by a power of two that may be negative, rounding as R180 says. -/
def scale2 (n : Int) (k : Int) : Int := if 0 ≤ k then n * 2 ^ k.toNat else rshRound n (-k).toNat

/-- Bits `lo` and up of a bit vector, `w` of them, as a number. -/
def bits {n : Nat} (x : BitVec n) (lo w : Nat) : Nat := (x.toNat >>> lo) % 2 ^ w

/-- Bit `i` of a bit vector. -/
def bit {n : Nat} (x : BitVec n) (i : Nat) : Bool := x.getLsbD i

/-- A bit vector with bit `i` set to `v`. -/
def setBit {n : Nat} (x : BitVec n) (i : Nat) (v : Bool) : BitVec n :=
  if v then x ||| BitVec.twoPow n i else x &&& ~~~ BitVec.twoPow n i

/-- The signed number an `n`-bit field holds. -/
def signed (n v : Nat) : Int := (BitVec.ofNat n v).toInt

/-- The `n`-bit field that holds a signed number. -/
def unsigned (n : Nat) (v : Int) : Nat := (BitVec.ofInt n v).toNat

/-- One step of the CRC-7 register with polynomial x^7 + x^3 + 1 (R39). -/
def crc7Step (c : BitVec 7) (b : Bool) : BitVec 7 :=
  let fb := c.getLsbD 6 != b
  let sh := c <<< 1
  if fb then sh ^^^ 0x09#7 else sh

/-- CRC-7 over the `n` low bits of a word, bit 0 first. -/
def crc7Bits (c : BitVec 7) (x : BitVec 64) (n : Nat) : BitVec 7 :=
  (List.range n).foldl (fun c i => crc7Step c (x.getLsbD i)) c

/-- The CRC of a lane frame: bits [56:0] of its marker, then the payload of its data blocks (R39). -/
def frameCrc (marker : BitVec 64) (payload : List (BitVec 64)) : BitVec 7 :=
  payload.foldl (fun c b => crc7Bits c b 64) (crc7Bits 0x7F#7 marker 57)

/-- One bit of a reflected CRC-32C register. -/
def crc32cBit (c : Word) : Word := if c.getLsbD 0 then (c >>> 1) ^^^ 0x82F63B78#32 else c >>> 1

/-- One byte of CRC-32C. -/
def crc32cByte (c : Word) (b : BitVec 8) : Word :=
  let c := c ^^^ b.setWidth 32
  crc32cBit (crc32cBit (crc32cBit (crc32cBit (crc32cBit (crc32cBit (crc32cBit (crc32cBit c)))))))

/-- The bytes of a block, lowest address first (R8). -/
def blockBytes (b : BitVec 32768) : List (BitVec 8) := (List.range 4096).map fun i => b.extractLsb' (8 * i) 8

/-- CRC-32C of a list of bytes. -/
def crc32c (bs : List (BitVec 8)) : Word := ~~~ bs.foldl crc32cByte 0xFFFFFFFF#32

/-- How many of the low `n` bits of a number are set. -/
def popcount (n v : Nat) : Nat := ((List.range n).filter fun i => v.testBit i).length

/-- Insertion by an order. -/
def insertBy {α : Type} (lt : α → α → Bool) (x : α) : List α → List α
  | [] => [x]
  | y :: ys => if lt x y then x :: y :: ys else y :: insertBy lt x ys

/-- Sorting by an order. -/
def sortBy {α : Type} (lt : α → α → Bool) (xs : List α) : List α := xs.foldl (fun ys x => insertBy lt x ys) []

end Sys2Proof.Machine
end

