-- ==== Sys2Proof/Machine/Cells.lean ====
section
/-! DEFINITION. Sparse tables: a list of key and value pairs with keys strictly rising and no entry equal to what an
unlisted key reads as. The register file, the memories and the media contents are held this way. -/
namespace Sys2Proof.Machine

/-- The value at key `k`; `d` says what an unlisted key reads as. -/
def Cells.get {κ ν : Type} [DecidableEq κ] (d : κ → ν) : List (κ × ν) → κ → ν
  | [], k => d k
  | (k', v) :: rest, k => if k' = k then v else Cells.get d rest k

/-- Put `(k, v)` before the first entry that does not lie below `k`. -/
def Cells.insert {κ ν : Type} (lt : κ → κ → Bool) (k : κ) (v : ν) : List (κ × ν) → List (κ × ν)
  | [] => [(k, v)]
  | (k', v') :: rest => if lt k' k then (k', v') :: Cells.insert lt k v rest else (k, v) :: (k', v') :: rest

/-- The table without any entry for `k`. -/
def Cells.erase {κ ν : Type} [DecidableEq κ] (k : κ) : List (κ × ν) → List (κ × ν)
  | [] => []
  | (k', v') :: rest => if k' = k then Cells.erase k rest else (k', v') :: Cells.erase k rest

/-- Write `v` at `k`, keeping the canonical form: a value equal to the unlisted one removes the entry. -/
def Cells.set {κ ν : Type} [DecidableEq κ] [DecidableEq ν] (lt : κ → κ → Bool) (d : κ → ν)
    (m : List (κ × ν)) (k : κ) (v : ν) : List (κ × ν) :=
  if v = d k then Cells.erase k m else Cells.insert lt k v (Cells.erase k m)

/-- Every key of the table lies above `k`. -/
def Cells.above {κ ν : Type} (lt : κ → κ → Bool) (k : κ) (m : List (κ × ν)) : Bool := m.all fun e => lt k e.1

/-- The canonical form: keys strictly rising, no entry equal to the unlisted value. -/
def Cells.wf {κ ν : Type} [DecidableEq ν] (lt : κ → κ → Bool) (d : κ → ν) : List (κ × ν) → Bool
  | [] => true
  | (k, v) :: rest => Cells.above lt k rest && (v != d k) && Cells.wf lt d rest

/-- The order of addresses. -/
def Cells.natLt (a b : Nat) : Bool := decide (a < b)

end Sys2Proof.Machine
end

