-- ==== Sys2Proof/Machine/RegMap.lean ====
section
/-! DEFINITION. The register map: every register table of the spec as data (name, address, fields with place, type and
reset value), and one accessor name per register and per field. A register is named by its block (R15, R24, R25), the
engine, chain, axis, bus or queue, and its offset in that block. -/
namespace Sys2Proof.Machine

/-- The register blocks. `ch` is one chain CH0-CH4, `wob` the part of the chain blocks that holds one set of
registers per engine (wobble and capture, R100), `glb` the global registers with PWR, ARB, STRC, POOL and CLAIM. -/
inductive Blk | eng | ch | wob | glb | ax | brk | mot | cqi | qb
deriving DecidableEq, Repr

/-- The place of a block in the order of the register table. -/
def Blk.idx : Blk → Nat
  | .eng => 0 | .ch => 1 | .wob => 2 | .glb => 3 | .ax => 4 | .brk => 5 | .mot => 6 | .cqi => 7 | .qb => 8

/-- A register: `i` is the engine, axis, bus or queue, `k` the chain (0 elsewhere), `off` the offset in the block. -/
structure Reg where
  blk : Blk
  i : Nat
  k : Nat
  off : Nat
deriving DecidableEq, Repr

/-- The order of registers: block, instance, chain, offset. -/
def Reg.lt (a b : Reg) : Bool :=
  decide (a.blk.idx < b.blk.idx ∨ (a.blk.idx = b.blk.idx ∧ (a.i < b.i ∨ (a.i = b.i ∧ (a.k < b.k ∨ (a.k = b.k ∧ a.off < b.off))))))

/-- A field of a register: `w` bits from bit `lo` up. -/
structure Fld where
  reg : Reg
  lo : Nat
  w : Nat
deriving DecidableEq, Repr

/-- The register types of R9. -/
inductive RegTy | rw | ro | w1c | w1s | wo | rws
deriving DecidableEq, Repr

/-- One row of a register table; `hearth` marks a value held by the Hearth domain over every other reset. -/
structure FldInfo where
  lo : Nat
  w : Nat
  ty : RegTy
  reset : Nat
  hearth : Bool
deriving DecidableEq, Repr

/-- One register table: `n0` copies at `stride0`, and in each of them `n1` copies at `stride1`. -/
structure RegInfo where
  name : String
  base : Nat
  n0 : Nat
  stride0 : Nat
  n1 : Nat
  stride1 : Nat
  fields : List FldInfo
deriving DecidableEq, Repr

/-- The offset belongs to the register table. -/
def RegInfo.covers (t : RegInfo) (off : Nat) : Bool :=
  decide (t.base ≤ off) && decide ((off - t.base) / t.stride0 < t.n0) &&
    decide ((off - t.base) % t.stride0 / t.stride1 < t.n1) && decide ((off - t.base) % t.stride0 % t.stride1 = 0)

/-- Register tables of block eng, part 0 (R67 and on). -/
def engRegs0 : List RegInfo := [
    ⟨"HL_CTRL", 0x1000, 1, 4, 1, 4, [⟨0, 1, .rw, 0x0, false⟩, ⟨1, 1, .wo, 0x0, false⟩, ⟨2, 1, .wo, 0x0, false⟩, ⟨3, 1, .rw, 0x1, false⟩, ⟨4, 4, .rw, 0x0, false⟩]⟩,
    ⟨"HL_STAT", 0x1004, 1, 4, 1, 4, [⟨0, 3, .ro, 0x0, false⟩, ⟨4, 4, .ro, 0x0, false⟩, ⟨8, 2, .ro, 0x0, false⟩, ⟨10, 1, .ro, 0x0, false⟩, ⟨11, 1, .ro, 0x0, false⟩, ⟨12, 2, .ro, 0x0, false⟩]⟩,
    ⟨"HL_EVT", 0x1008, 1, 4, 1, 4, [⟨0, 1, .w1c, 0x0, false⟩, ⟨1, 1, .w1c, 0x0, false⟩, ⟨2, 1, .w1c, 0x0, false⟩, ⟨3, 1, .w1c, 0x0, false⟩, ⟨4, 1, .w1c, 0x0, false⟩, ⟨5, 1, .w1c, 0x0, false⟩, ⟨6, 1, .w1c, 0x0, false⟩, ⟨7, 1, .w1c, 0x0, false⟩]⟩,
    ⟨"HL_EVT_EN", 0x100c, 1, 4, 1, 4, [⟨0, 8, .rw, 0x0, false⟩]⟩,
    ⟨"HL_CFG", 0x1010, 1, 4, 1, 4, [⟨0, 8, .rw, 0x1e, false⟩, ⟨8, 2, .rw, 0x3, false⟩, ⟨16, 8, .rw, 0x10, false⟩, ⟨24, 4, .rw, 0x4, false⟩]⟩,
    ⟨"HL_RATE", 0x1014, 1, 4, 1, 4, [⟨0, 2, .rw, 0x0, false⟩, ⟨2, 1, .rw, 0x0, false⟩, ⟨4, 24, .ro, 0x800000, false⟩]⟩,
    ⟨"HL_F5STAT", 0x1018, 1, 4, 1, 4, [⟨0, 1, .ro, 0x0, false⟩, ⟨1, 1, .ro, 0x0, false⟩, ⟨2, 1, .ro, 0x0, false⟩, ⟨3, 1, .ro, 0x0, false⟩, ⟨4, 2, .ro, 0x0, false⟩, ⟨16, 16, .ro, 0x0, false⟩]⟩,
    ⟨"HL_LANE", 0x1020, 5, 4, 1, 4, [⟨0, 16, .ro, 0x0, false⟩, ⟨16, 12, .ro, 0x0, false⟩, ⟨28, 4, .ro, 0x0, false⟩]⟩,
    ⟨"SEAM_CTRL", 0x4000, 1, 4, 1, 4, [⟨0, 1, .rw, 0x0, false⟩, ⟨1, 1, .rw, 0x0, false⟩, ⟨2, 1, .wo, 0x0, false⟩]⟩,
    ⟨"SEAM_CFG", 0x4004, 1, 4, 1, 4, [⟨0, 12, .rw, 0x0, false⟩, ⟨12, 9, .rw, 0x78, false⟩, ⟨24, 4, .rw, 0x2, false⟩]⟩,
    ⟨"SEAM_SETTLE", 0x4008, 1, 4, 1, 4, [⟨0, 12, .rw, 0x80, false⟩, ⟨12, 4, .rw, 0x8, false⟩]⟩,
    ⟨"SEAM_STAT", 0x400c, 1, 4, 1, 4, [⟨0, 2, .ro, 0x0, false⟩, ⟨2, 1, .ro, 0x0, false⟩, ⟨3, 1, .ro, 0x0, false⟩, ⟨4, 12, .ro, 0x0, false⟩, ⟨16, 16, .ro, 0x0, false⟩]⟩]

/-- Register tables of block eng, part 1 (R122 and on). -/
def engRegs1 : List RegInfo := [
    ⟨"SEAM_JS", 0x4010, 1, 4, 1, 4, [⟨0, 12, .ro, 0x0, false⟩, ⟨12, 12, .ro, 0x0, false⟩]⟩,
    ⟨"SEAM_EVT", 0x4014, 1, 4, 1, 4, [⟨0, 1, .w1c, 0x0, false⟩, ⟨1, 1, .w1c, 0x0, false⟩, ⟨2, 1, .w1c, 0x0, false⟩, ⟨3, 1, .w1c, 0x0, false⟩, ⟨4, 1, .w1c, 0x0, false⟩, ⟨5, 1, .w1c, 0x0, false⟩]⟩,
    ⟨"SEAM_EVT_EN", 0x4018, 1, 4, 1, 4, [⟨0, 6, .rw, 0x0, false⟩]⟩,
    ⟨"RAS_BASE", 0x4020, 1, 4, 1, 4, [⟨3, 11, .rw, 0x0, false⟩]⟩,
    ⟨"RAS_CFG", 0x4024, 1, 4, 1, 4, [⟨0, 3, .rw, 0x2, false⟩, ⟨4, 6, .rw, 0x0, false⟩, ⟨10, 7, .rw, 0x20, false⟩]⟩,
    ⟨"RAS_STAT", 0x4028, 1, 4, 1, 4, [⟨0, 7, .ro, 0x0, false⟩, ⟨7, 1, .ro, 0x0, false⟩, ⟨8, 5, .ro, 0x0, false⟩, ⟨13, 1, .w1c, 0x0, false⟩]⟩,
    ⟨"RAS_NEXT", 0x402c, 1, 4, 1, 4, [⟨0, 28, .ro, 0x0, false⟩, ⟨28, 3, .ro, 0x0, false⟩, ⟨31, 1, .ro, 0x0, false⟩]⟩,
    ⟨"RAS_CNT", 0x4030, 1, 4, 1, 4, [⟨0, 8, .ro, 0x0, false⟩, ⟨8, 8, .ro, 0x0, false⟩, ⟨16, 8, .ro, 0x0, false⟩, ⟨24, 8, .ro, 0x0, false⟩]⟩,
    ⟨"RAS_FIRST", 0x4034, 1, 4, 1, 4, [⟨0, 28, .rw, 0x0, false⟩, ⟨28, 3, .rw, 0x0, false⟩]⟩,
    ⟨"RAS_LAST", 0x4038, 1, 4, 1, 4, [⟨0, 28, .rw, 0x0, false⟩, ⟨28, 3, .rw, 0x0, false⟩]⟩,
    ⟨"RAS_FREE", 0x403c, 1, 4, 1, 4, [⟨0, 6, .wo, 0x0, false⟩]⟩,
    ⟨"WR_CTRL", 0x5000, 1, 4, 1, 4, [⟨0, 1, .rw, 0x0, false⟩, ⟨1, 1, .wo, 0x0, false⟩, ⟨2, 1, .wo, 0x0, false⟩, ⟨3, 1, .wo, 0x0, false⟩, ⟨4, 1, .wo, 0x0, false⟩]⟩]

/-- Register tables of block eng, part 2 (R146 and on). -/
def engRegs2 : List RegInfo := [
    ⟨"WR_CFG", 0x5004, 1, 4, 1, 4, [⟨0, 1, .rw, 0x1, false⟩, ⟨1, 3, .rw, 0x3, false⟩, ⟨4, 6, .rw, 0x0, false⟩, ⟨12, 10, .rw, 0x0, false⟩]⟩,
    ⟨"WR_STAT", 0x5008, 1, 4, 1, 4, [⟨0, 3, .ro, 0x0, false⟩, ⟨3, 1, .ro, 0x0, false⟩, ⟨4, 1, .ro, 0x0, false⟩, ⟨5, 1, .ro, 0x1, false⟩, ⟨6, 2, .ro, 0x0, false⟩, ⟨8, 4, .ro, 0x0, false⟩, ⟨12, 7, .ro, 0x0, false⟩]⟩,
    ⟨"WR_EVT", 0x500c, 1, 4, 1, 4, [⟨0, 1, .w1c, 0x0, false⟩, ⟨1, 1, .w1c, 0x0, false⟩, ⟨2, 1, .w1c, 0x0, false⟩, ⟨3, 1, .w1c, 0x0, false⟩, ⟨4, 1, .w1c, 0x0, false⟩, ⟨5, 1, .w1c, 0x0, false⟩, ⟨6, 1, .w1c, 0x0, false⟩, ⟨7, 1, .w1c, 0x0, false⟩, ⟨8, 1, .w1c, 0x0, false⟩, ⟨9, 1, .w1c, 0x0, false⟩, ⟨10, 1, .w1c, 0x0, false⟩, ⟨11, 1, .w1c, 0x0, false⟩]⟩,
    ⟨"WR_EVT_EN", 0x5010, 1, 4, 1, 4, [⟨0, 12, .rw, 0x0, false⟩]⟩,
    ⟨"WR_PWR0", 0x5014, 1, 4, 1, 4, [⟨0, 12, .rw, 0x0, false⟩, ⟨16, 12, .rw, 0x0, false⟩]⟩,
    ⟨"WR_PWR1", 0x5018, 1, 4, 1, 4, [⟨0, 12, .rw, 0x0, false⟩, ⟨16, 12, .rw, 0x0, false⟩]⟩,
    ⟨"WR_VLIM", 0x501c, 1, 4, 1, 4, [⟨0, 6, .rw, 0x8, false⟩, ⟨8, 6, .rw, 0x6, false⟩]⟩,
    ⟨"WR_RING", 0x5020, 1, 4, 1, 4, [⟨0, 24, .rw, 0x0, false⟩]⟩,
    ⟨"WR_PROD", 0x5024, 1, 4, 1, 4, [⟨0, 7, .rw, 0x0, false⟩]⟩,
    ⟨"WR_CONS", 0x5028, 1, 4, 1, 4, [⟨0, 7, .ro, 0x0, false⟩, ⟨8, 7, .ro, 0x0, false⟩]⟩,
    ⟨"WR_WPOS", 0x502c, 1, 4, 1, 4, [⟨0, 31, .ro, 0x0, false⟩]⟩,
    ⟨"WR_ROPC", 0x5030, 1, 4, 1, 4, [⟨0, 1, .rw, 0x1, false⟩, ⟨1, 3, .rw, 0x4, false⟩, ⟨8, 8, .rw, 0x40, false⟩, ⟨16, 1, .rw, 0x1, false⟩, ⟨20, 4, .rw, 0x5, false⟩]⟩]

/-- Register tables of block eng, part 3 (R146 and on). -/
def engRegs3 : List RegInfo := [
    ⟨"WR_BETA", 0x5034, 1, 4, 1, 4, [⟨0, 16, .ro, 0x0, false⟩, ⟨16, 16, .ro, 0x0, false⟩]⟩,
    ⟨"WR_OPC_CFG", 0x5040, 1, 4, 1, 4, [⟨0, 12, .rw, 0x0, false⟩, ⟨12, 8, .rw, 0x10, false⟩, ⟨20, 4, .rw, 0xf, false⟩]⟩,
    ⟨"WR_OPC_TGT", 0x5044, 1, 4, 1, 4, [⟨0, 16, .rw, 0x0, false⟩]⟩,
    ⟨"WR_OPC_ADDR", 0x5048, 1, 4, 1, 4, [⟨0, 28, .rw, 0x0, false⟩, ⟨28, 3, .rw, 0x0, false⟩]⟩,
    ⟨"WR_OPC_RES", 0x504c, 1, 4, 1, 4, [⟨0, 12, .ro, 0x0, false⟩, ⟨12, 1, .ro, 0x0, false⟩, ⟨16, 16, .ro, 0x0, false⟩]⟩,
    ⟨"WR_OPC_BETA", 0x5050, 16, 4, 1, 4, [⟨0, 16, .ro, 0x0, false⟩, ⟨16, 1, .ro, 0x0, false⟩]⟩,
    ⟨"WR_AHEAD", 0x5090, 2, 4, 1, 4, [⟨0, 28, .ro, 0x0, false⟩, ⟨28, 3, .ro, 0x0, false⟩, ⟨31, 1, .ro, 0x0, false⟩]⟩,
    ⟨"WR_CNT", 0x50a0, 1, 4, 1, 4, [⟨0, 16, .ro, 0x0, false⟩, ⟨16, 8, .ro, 0x0, false⟩, ⟨24, 8, .ro, 0x0, false⟩]⟩,
    ⟨"WR_STRAT_LO", 0x5100, 8, 8, 1, 8, [⟨0, 32, .rw, 0x0, false⟩]⟩,
    ⟨"WR_STRAT_HI", 0x5104, 8, 8, 1, 8, [⟨0, 8, .rw, 0x0, false⟩]⟩,
    ⟨"TMP_CTRL", 0x6000, 1, 4, 1, 4, [⟨0, 1, .rw, 0x0, false⟩, ⟨1, 1, .wo, 0x0, false⟩, ⟨2, 1, .wo, 0x0, false⟩, ⟨3, 3, .rw, 0x0, false⟩, ⟨6, 1, .wo, 0x0, false⟩]⟩,
    ⟨"TMP_CFG", 0x6004, 1, 4, 1, 4, [⟨0, 8, .rw, 0x3c, false⟩, ⟨8, 4, .rw, 0x4, false⟩, ⟨12, 8, .rw, 0x10, false⟩, ⟨20, 4, .rw, 0xa, false⟩, ⟨24, 8, .rw, 0xa, false⟩]⟩]

/-- Register tables of block eng, part 4 (R170 and on). -/
def engRegs4 : List RegInfo := [
    ⟨"TMP_TOL", 0x6008, 1, 4, 1, 4, [⟨0, 8, .rw, 0x4, false⟩, ⟨8, 8, .rw, 0x10, false⟩, ⟨16, 6, .rw, 0x2, false⟩]⟩,
    ⟨"TMP_STAT", 0x600c, 1, 4, 1, 4, [⟨0, 4, .ro, 0x0, false⟩, ⟨4, 3, .ro, 0x0, false⟩, ⟨7, 3, .ro, 0x4, false⟩, ⟨10, 4, .ro, 0x0, false⟩, ⟨16, 8, .ro, 0x0, false⟩]⟩,
    ⟨"TMP_EVT", 0x6010, 1, 4, 1, 4, [⟨0, 1, .w1c, 0x0, false⟩, ⟨1, 1, .w1c, 0x0, false⟩, ⟨2, 1, .w1c, 0x0, false⟩, ⟨3, 1, .w1c, 0x0, false⟩, ⟨4, 1, .w1c, 0x0, false⟩, ⟨5, 1, .w1c, 0x0, false⟩, ⟨6, 1, .w1c, 0x0, false⟩]⟩,
    ⟨"TMP_EVT_EN", 0x6014, 1, 4, 1, 4, [⟨0, 7, .rw, 0x0, false⟩]⟩,
    ⟨"TMP_FREQ", 0x6018, 1, 4, 1, 4, [⟨0, 16, .ro, 0x0, false⟩, ⟨16, 1, .ro, 0x0, false⟩]⟩,
    ⟨"TMP_CNT", 0x601c, 1, 4, 1, 4, [⟨0, 16, .ro, 0x0, false⟩, ⟨16, 8, .ro, 0x0, false⟩, ⟨24, 8, .ro, 0x0, false⟩]⟩,
    ⟨"TMP_MSE", 0x6020, 5, 4, 1, 4, [⟨0, 16, .ro, 0x0, false⟩]⟩,
    ⟨"TMP_ADCMAP", 0x6100, 5, 4, 1, 4, [⟨0, 10, .rw, 0xff, false⟩]⟩,
    ⟨"TMP_ADCTRIM", 0x6200, 5, 64, 10, 4, [⟨0, 16, .rw, 0x0, false⟩, ⟨16, 16, .rw, 0x0, false⟩]⟩,
    ⟨"RTY_CFG", 0x6800, 1, 4, 1, 4, [⟨0, 7, .rw, 0x7f, false⟩, ⟨7, 3, .rw, 0x2, false⟩, ⟨10, 2, .rw, 0x1, false⟩, ⟨12, 7, .rw, 0x32, false⟩, ⟨19, 3, .rw, 0x4, false⟩]⟩,
    ⟨"RTY_OFFS", 0x6804, 1, 4, 1, 4, [⟨0, 12, .rw, 0x40, false⟩, ⟨12, 12, .rw, 0x30, false⟩]⟩,
    ⟨"RTY_STAT", 0x6808, 1, 4, 1, 4, [⟨0, 1, .ro, 0x0, false⟩, ⟨1, 3, .ro, 0x0, false⟩, ⟨4, 3, .ro, 0x0, false⟩, ⟨7, 8, .ro, 0x0, false⟩]⟩]

/-- Register tables of block eng, part 5 (R170 and on). -/
def engRegs5 : List RegInfo := [
    ⟨"RTY_CNT", 0x6810, 7, 4, 1, 4, [⟨0, 16, .ro, 0x0, false⟩]⟩,
    ⟨"ANV_CTRL", 0x8000, 1, 4, 1, 4, [⟨0, 1, .rw, 0x0, false⟩, ⟨1, 1, .rw, 0x0, false⟩, ⟨2, 1, .wo, 0x0, false⟩, ⟨3, 1, .wo, 0x0, false⟩]⟩,
    ⟨"ANV_STAT", 0x8004, 1, 4, 1, 4, [⟨0, 1, .ro, 0x0, false⟩, ⟨1, 1, .ro, 0x0, false⟩, ⟨2, 1, .ro, 0x0, false⟩, ⟨3, 1, .ro, 0x0, false⟩, ⟨4, 1, .ro, 0x0, false⟩, ⟨5, 1, .ro, 0x0, false⟩, ⟨8, 11, .ro, 0x0, false⟩]⟩,
    ⟨"ANV_TICK", 0x8008, 1, 4, 1, 4, [⟨0, 5, .rw, 0x4, false⟩]⟩,
    ⟨"ANV_START", 0x800c, 1, 4, 1, 4, [⟨0, 11, .rw, 0x0, false⟩, ⟨16, 11, .rw, 0x0, false⟩]⟩,
    ⟨"ANV_EVT", 0x8010, 1, 4, 1, 4, [⟨0, 1, .w1c, 0x0, false⟩, ⟨1, 1, .w1c, 0x0, false⟩, ⟨2, 1, .w1c, 0x0, false⟩, ⟨3, 1, .w1c, 0x0, false⟩, ⟨4, 1, .w1c, 0x0, false⟩, ⟨5, 1, .w1c, 0x0, false⟩, ⟨6, 1, .w1c, 0x0, false⟩, ⟨7, 1, .w1c, 0x0, false⟩, ⟨8, 1, .w1c, 0x0, false⟩]⟩,
    ⟨"ANV_EVT_EN", 0x8014, 1, 4, 1, 4, [⟨0, 9, .rw, 0x0, false⟩]⟩,
    ⟨"ANV_SUP", 0x8018, 1, 4, 1, 4, [⟨0, 8, .rw, 0x7, false⟩, ⟨8, 8, .rw, 0x1, false⟩, ⟨16, 16, .rw, 0x7d0, false⟩]⟩,
    ⟨"ANV_CNT", 0x801c, 1, 4, 1, 4, [⟨0, 16, .ro, 0x0, false⟩, ⟨16, 8, .ro, 0x0, false⟩, ⟨24, 8, .ro, 0x0, false⟩]⟩,
    ⟨"ANV_CYC", 0x8020, 1, 4, 1, 4, [⟨0, 16, .ro, 0x0, false⟩, ⟨16, 16, .ro, 0x0, false⟩]⟩,
    ⟨"ANV_FAULT", 0x8024, 1, 4, 1, 4, [⟨0, 11, .ro, 0x0, false⟩, ⟨11, 1, .ro, 0x0, false⟩, ⟨12, 2, .ro, 0x0, false⟩]⟩,
    ⟨"ANV_X", 0x8040, 16, 4, 1, 4, [⟨0, 5, .rw, 0x0, false⟩]⟩]

/-- Register tables of block eng, part 6 (R198 and on). -/
def engRegs6 : List RegInfo := [
    ⟨"ANV_CLAMP", 0x8080, 8, 8, 1, 8, [⟨0, 14, .rw, 0x2000, false⟩, ⟨16, 14, .rw, 0x1fff, false⟩]⟩,
    ⟨"ANV_SAFE", 0x8084, 8, 8, 1, 8, [⟨0, 14, .rw, 0x0, false⟩]⟩,
    ⟨"ANV_PORT", 0x80c0, 8, 4, 1, 4, [⟨0, 24, .ro, 0x0, false⟩, ⟨24, 1, .ro, 0x0, false⟩]⟩,
    ⟨"ANV_IN", 0x8100, 16, 4, 1, 4, [⟨0, 24, .ro, 0x0, false⟩]⟩,
    ⟨"ANV_RAMP_TGT", 0x8200, 8, 8, 1, 8, [⟨0, 24, .rw, 0x0, false⟩]⟩,
    ⟨"ANV_RAMP_CFG", 0x8204, 8, 8, 1, 8, [⟨0, 16, .rw, 0x100, false⟩, ⟨16, 4, .rw, 0x0, false⟩, ⟨20, 1, .wo, 0x0, false⟩, ⟨21, 1, .ro, 0x0, false⟩]⟩,
    ⟨"SLG_CTRL", 0x7c00, 1, 4, 1, 4, [⟨0, 1, .rw, 0x0, false⟩, ⟨1, 3, .rw, 0x1, false⟩, ⟨4, 1, .rw, 0x0, false⟩, ⟨5, 1, .wo, 0x0, false⟩]⟩,
    ⟨"SLG_STAT", 0x7c04, 1, 4, 1, 4, [⟨0, 4, .ro, 0x0, false⟩, ⟨4, 3, .ro, 0x1, false⟩, ⟨7, 1, .ro, 0x0, false⟩, ⟨8, 1, .ro, 0x0, false⟩]⟩,
    ⟨"SLG_REF", 0x7c08, 1, 4, 1, 4, [⟨0, 24, .ro, 0x0, false⟩]⟩,
    ⟨"SLG_POS", 0x7c40, 16, 8, 1, 8, [⟨0, 24, .rw, 0x0, false⟩]⟩,
    ⟨"SLG_MPT", 0x7c44, 16, 8, 1, 8, [⟨0, 20, .rw, 0x0, false⟩]⟩,
    ⟨"SPN_CTRL", 0x7000, 1, 4, 1, 4, [⟨0, 1, .rw, 0x0, false⟩, ⟨1, 1, .rw, 0x0, false⟩, ⟨2, 1, .rw, 0x1, false⟩, ⟨3, 1, .rw, 0x1, false⟩]⟩]

/-- Register tables of block eng, part 7 (R230 and on). -/
def engRegs7 : List RegInfo := [
    ⟨"SPN_SPD", 0x7004, 1, 4, 1, 4, [⟨0, 14, .rw, 0x0, false⟩, ⟨14, 9, .rw, 0x96, false⟩, ⟨23, 9, .rw, 0x96, false⟩]⟩,
    ⟨"SPN_STAT", 0x7008, 1, 4, 1, 4, [⟨0, 3, .ro, 0x0, false⟩, ⟨3, 1, .ro, 0x0, false⟩, ⟨4, 1, .ro, 0x0, false⟩, ⟨5, 1, .ro, 0x0, false⟩, ⟨6, 1, .ro, 0x0, false⟩, ⟨7, 1, .ro, 0x0, false⟩, ⟨8, 1, .ro, 0x0, false⟩, ⟨9, 3, .ro, 0x0, false⟩, ⟨12, 3, .ro, 0x0, false⟩, ⟨16, 4, .ro, 0x0, false⟩, ⟨20, 12, .ro, 0x0, false⟩]⟩,
    ⟨"SPN_SPEED", 0x700c, 1, 4, 1, 4, [⟨0, 16, .ro, 0x0, false⟩, ⟨16, 16, .ro, 0x0, false⟩]⟩,
    ⟨"SPN_EVT", 0x7010, 1, 4, 1, 4, [⟨0, 1, .w1c, 0x0, false⟩, ⟨1, 1, .w1c, 0x0, false⟩, ⟨2, 1, .w1c, 0x0, false⟩, ⟨3, 1, .w1c, 0x0, false⟩, ⟨4, 1, .w1c, 0x0, false⟩, ⟨5, 1, .w1c, 0x0, false⟩, ⟨6, 1, .w1c, 0x0, false⟩, ⟨7, 1, .w1c, 0x0, false⟩]⟩,
    ⟨"SPN_EVT_EN", 0x7014, 1, 4, 1, 4, [⟨0, 8, .rw, 0x0, false⟩]⟩,
    ⟨"SPN_MOTOR", 0x7018, 1, 4, 1, 4, [⟨0, 4, .rw, 0x4, false⟩, ⟨4, 12, .rw, 0x64, false⟩, ⟨16, 16, .rw, 0x64, false⟩]⟩,
    ⟨"SPN_SCALE", 0x701c, 1, 4, 1, 4, [⟨0, 16, .rw, 0x258, false⟩, ⟨16, 16, .rw, 0x1388, false⟩]⟩,
    ⟨"SPN_LIM", 0x7020, 1, 4, 1, 4, [⟨0, 16, .rw, 0xbb8, false⟩, ⟨16, 16, .rw, 0x7d0, false⟩]⟩,
    ⟨"SPN_START", 0x7024, 1, 4, 1, 4, [⟨0, 7, .rw, 0x28, false⟩, ⟨7, 6, .rw, 0xa, false⟩, ⟨13, 11, .rw, 0x12c, false⟩, ⟨24, 8, .rw, 0x32, false⟩]⟩,
    ⟨"SPN_OBS", 0x7028, 1, 4, 1, 4, [⟨0, 8, .rw, 0x10, false⟩, ⟨8, 8, .rw, 0x19, false⟩, ⟨16, 4, .rw, 0x8, false⟩, ⟨20, 4, .rw, 0x3, false⟩]⟩,
    ⟨"SPN_PI", 0x702c, 1, 4, 1, 4, [⟨0, 8, .rw, 0x20, false⟩, ⟨8, 8, .rw, 0x8, false⟩, ⟨16, 8, .rw, 0x40, false⟩, ⟨24, 8, .rw, 0x10, false⟩]⟩,
    ⟨"SLD_CTRL", 0x7800, 1, 4, 1, 4, [⟨0, 1, .wo, 0x0, false⟩, ⟨1, 1, .wo, 0x0, false⟩, ⟨2, 1, .wo, 0x0, false⟩, ⟨3, 1, .rw, 0x0, false⟩, ⟨4, 1, .wo, 0x0, false⟩]⟩]

/-- Register tables of block eng, part 8 (R237 and on). -/
def engRegs8 : List RegInfo := [
    ⟨"SLD_STAT", 0x7804, 1, 4, 1, 4, [⟨0, 1, .ro, 0x0, false⟩, ⟨1, 1, .ro, 0x0, false⟩, ⟨2, 1, .ro, 0x1, true⟩, ⟨3, 1, .ro, 0x1, true⟩, ⟨4, 1, .ro, 0x0, false⟩, ⟨5, 1, .ro, 0x0, false⟩, ⟨16, 10, .ro, 0x0, true⟩]⟩,
    ⟨"SLD_POS", 0x7808, 1, 4, 1, 4, [⟨0, 24, .rw, 0x0, true⟩]⟩,
    ⟨"SLD_TGT", 0x780c, 1, 4, 1, 4, [⟨0, 24, .rw, 0x0, false⟩]⟩,
    ⟨"SLD_PRF", 0x7810, 1, 4, 1, 4, [⟨0, 16, .rw, 0x3e80, false⟩, ⟨16, 16, .rw, 0x8235, false⟩]⟩,
    ⟨"SLD_CUR", 0x7814, 1, 4, 1, 4, [⟨0, 8, .rw, 0x32, false⟩, ⟨8, 8, .rw, 0x19, false⟩, ⟨16, 8, .rw, 0x14, false⟩]⟩,
    ⟨"SLD_CFG", 0x7818, 1, 4, 1, 4, [⟨0, 16, .rw, 0x249f, false⟩, ⟨16, 8, .rw, 0x14, false⟩, ⟨24, 8, .rw, 0x80, false⟩]⟩,
    ⟨"SLD_ENC", 0x781c, 1, 4, 1, 4, [⟨0, 16, .rw, 0x1b4f, false⟩, ⟨16, 1, .rw, 0x0, false⟩]⟩,
    ⟨"SLD_ENCPOS", 0x7820, 1, 4, 1, 4, [⟨0, 24, .ro, 0x0, false⟩, ⟨24, 1, .ro, 0x0, false⟩, ⟨25, 1, .ro, 0x0, false⟩, ⟨26, 1, .ro, 0x0, false⟩]⟩,
    ⟨"SLD_EVT", 0x7824, 1, 4, 1, 4, [⟨0, 1, .w1c, 0x0, false⟩, ⟨1, 1, .w1c, 0x0, false⟩, ⟨2, 1, .w1c, 0x0, false⟩, ⟨3, 1, .w1c, 0x0, false⟩, ⟨4, 1, .w1c, 0x0, false⟩, ⟨5, 1, .w1c, 0x0, false⟩]⟩,
    ⟨"SLD_EVT_EN", 0x7828, 1, 4, 1, 4, [⟨0, 6, .rw, 0x0, false⟩]⟩]

/-- All register tables of block eng. -/
def engRegs : List RegInfo := engRegs0 ++ engRegs1 ++ engRegs2 ++ engRegs3 ++ engRegs4 ++ engRegs5 ++ engRegs6 ++ engRegs7 ++ engRegs8

/-- Register tables of block ch, part 0 (R99 and on). -/
def chRegs0 : List RegInfo := [
    ⟨"CH_CTRL", 0x0, 1, 4, 1, 4, [⟨0, 1, .rw, 0x0, false⟩, ⟨1, 1, .rw, 0x0, false⟩, ⟨2, 1, .rw, 0x0, false⟩, ⟨3, 1, .rw, 0x1, false⟩, ⟨4, 1, .rw, 0x0, false⟩, ⟨5, 1, .rw, 0x0, false⟩, ⟨6, 1, .rw, 0x0, false⟩, ⟨7, 1, .rw, 0x0, false⟩, ⟨8, 3, .rw, 0x0, false⟩, ⟨11, 1, .wo, 0x0, false⟩]⟩,
    ⟨"CH_STAT", 0x4, 1, 4, 1, 4, [⟨0, 1, .ro, 0x0, false⟩, ⟨1, 1, .ro, 0x0, false⟩, ⟨2, 1, .ro, 0x0, false⟩, ⟨3, 2, .ro, 0x0, false⟩, ⟨5, 2, .ro, 0x0, false⟩, ⟨7, 1, .ro, 0x0, false⟩, ⟨8, 1, .ro, 0x0, false⟩]⟩,
    ⟨"CH_EVT", 0x8, 1, 4, 1, 4, [⟨0, 1, .w1c, 0x0, false⟩, ⟨1, 1, .w1c, 0x0, false⟩, ⟨2, 1, .w1c, 0x0, false⟩, ⟨3, 1, .w1c, 0x0, false⟩, ⟨4, 1, .w1c, 0x0, false⟩, ⟨5, 1, .w1c, 0x0, false⟩, ⟨6, 1, .w1c, 0x0, false⟩, ⟨7, 1, .w1c, 0x0, false⟩]⟩,
    ⟨"CH_EVT_EN", 0xc, 1, 4, 1, 4, [⟨0, 8, .rw, 0x0, false⟩]⟩,
    ⟨"AGC_CFG", 0x10, 1, 4, 1, 4, [⟨0, 8, .rw, 0x50, false⟩, ⟨8, 4, .rw, 0x4, false⟩, ⟨12, 4, .rw, 0x8, false⟩, ⟨16, 4, .rw, 0x6, false⟩]⟩,
    ⟨"AGC_GAIN", 0x14, 1, 4, 1, 4, [⟨0, 12, .rw, 0x100, false⟩]⟩,
    ⟨"AGC_OFFS", 0x18, 1, 4, 1, 4, [⟨0, 10, .rw, 0x0, false⟩]⟩,
    ⟨"TR_CFG", 0x20, 1, 4, 1, 4, [⟨0, 5, .rw, 0x6, false⟩, ⟨5, 5, .rw, 0xe, false⟩, ⟨10, 1, .rw, 0x1, false⟩]⟩,
    ⟨"TR_CFG_ALT", 0x24, 1, 4, 1, 4, [⟨0, 5, .rw, 0x4, false⟩, ⟨5, 5, .rw, 0xb, false⟩, ⟨10, 1, .rw, 0x1, false⟩]⟩,
    ⟨"TR_STAT", 0x28, 1, 4, 1, 4, [⟨0, 24, .ro, 0x400000, false⟩]⟩,
    ⟨"ADAPT_CFG", 0x30, 1, 4, 1, 4, [⟨0, 4, .rw, 0x9, false⟩, ⟨4, 4, .rw, 0xa, false⟩]⟩,
    ⟨"XT_TAP", 0x40, 4, 28, 7, 4, [⟨0, 14, .rw, 0x0, false⟩]⟩]

/-- Register tables of block ch, part 1 (R99 and on). -/
def chRegs1 : List RegInfo := [
    ⟨"EQ_TAP", 0xc0, 15, 4, 1, 4, [⟨0, 14, .rw, 0x0, false⟩]⟩,
    ⟨"EQ_ALT", 0x100, 15, 4, 1, 4, [⟨0, 14, .rw, 0x0, false⟩]⟩,
    ⟨"PR_CFG", 0x140, 1, 4, 1, 4, [⟨0, 2, .rw, 0x0, false⟩, ⟨2, 2, .rw, 0x1, false⟩, ⟨8, 6, .rw, 0x1, false⟩, ⟨16, 6, .rw, 0x2, false⟩, ⟨24, 6, .rw, 0x2, false⟩]⟩,
    ⟨"VIT_CFG", 0x144, 1, 4, 1, 4, [⟨0, 8, .rw, 0x10, false⟩, ⟨8, 1, .rw, 0x1, false⟩]⟩,
    ⟨"SYNC_CFG", 0x150, 1, 4, 1, 4, [⟨0, 3, .rw, 0x2, false⟩, ⟨3, 2, .rw, 0x2, false⟩, ⟨5, 1, .rw, 0x1, false⟩, ⟨6, 1, .rw, 0x0, false⟩]⟩,
    ⟨"SYNC_STAT", 0x154, 1, 4, 1, 4, [⟨0, 5, .ro, 0x0, false⟩, ⟨5, 4, .ro, 0x0, false⟩, ⟨12, 4, .ro, 0x0, false⟩]⟩,
    ⟨"SYNC_CNT", 0x158, 1, 4, 1, 4, [⟨0, 8, .ro, 0x0, false⟩, ⟨8, 8, .ro, 0x0, false⟩, ⟨16, 8, .ro, 0x0, false⟩, ⟨24, 8, .ro, 0x0, false⟩]⟩,
    ⟨"DEC_CFG", 0x160, 1, 4, 1, 4, [⟨0, 3, .rw, 0x1, false⟩, ⟨3, 3, .rw, 0x2, false⟩, ⟨8, 1, .rw, 0x1, false⟩]⟩,
    ⟨"DEC_STAT", 0x164, 1, 4, 1, 4, [⟨0, 1, .ro, 0x0, false⟩, ⟨1, 1, .ro, 0x0, false⟩, ⟨2, 1, .ro, 0x0, false⟩, ⟨3, 1, .ro, 0x0, false⟩, ⟨4, 1, .ro, 0x0, false⟩, ⟨5, 1, .ro, 0x0, false⟩, ⟨6, 1, .ro, 0x0, false⟩, ⟨7, 1, .ro, 0x0, false⟩, ⟨8, 1, .ro, 0x0, false⟩, ⟨9, 2, .ro, 0x0, false⟩, ⟨12, 6, .ro, 0x0, false⟩, ⟨18, 6, .ro, 0x0, false⟩]⟩,
    ⟨"DEC_SYM", 0x168, 1, 4, 1, 4, [⟨0, 16, .ro, 0x0, false⟩, ⟨16, 16, .ro, 0x0, false⟩]⟩,
    ⟨"DEC_EDC", 0x16c, 1, 4, 1, 4, [⟨0, 32, .ro, 0x0, false⟩]⟩,
    ⟨"DEC_ADDR", 0x170, 1, 4, 1, 4, [⟨0, 28, .ro, 0x0, false⟩, ⟨28, 3, .ro, 0x0, false⟩, ⟨31, 1, .ro, 0x0, false⟩]⟩]

/-- Register tables of block ch, part 2 (R99 and on). -/
def chRegs2 : List RegInfo := [
    ⟨"RED", 0x178, 1, 4, 1, 4, [⟨0, 2, .rw, 0x0, false⟩, ⟨2, 2, .rw, 0x0, false⟩]⟩,
    ⟨"RPL_CTRL", 0x180, 1, 4, 1, 4, [⟨0, 1, .rw, 0x0, false⟩, ⟨1, 1, .wo, 0x0, false⟩, ⟨2, 1, .wo, 0x0, false⟩, ⟨3, 1, .ro, 0x0, false⟩, ⟨4, 2, .ro, 0x0, false⟩]⟩,
    ⟨"RPL_BASE", 0x184, 1, 4, 1, 4, [⟨0, 14, .rw, 0x0, false⟩]⟩,
    ⟨"RPL_CLUSTER", 0x188, 1, 4, 1, 4, [⟨0, 28, .rw, 0x0, false⟩, ⟨28, 3, .rw, 0x0, false⟩]⟩]

/-- All register tables of block ch. -/
def chRegs : List RegInfo := chRegs0 ++ chRegs1 ++ chRegs2

/-- Register tables of block wob, part 0 (R100 and on). -/
def wobRegs0 : List RegInfo := [
    ⟨"WPLL_CTRL", 0x300, 1, 4, 1, 4, [⟨0, 1, .rw, 0x0, false⟩, ⟨1, 3, .rw, 0x3, false⟩, ⟨4, 1, .wo, 0x0, false⟩]⟩,
    ⟨"WPLL_STAT", 0x304, 1, 4, 1, 4, [⟨0, 1, .ro, 0x0, false⟩, ⟨1, 1, .ro, 0x0, false⟩, ⟨2, 1, .ro, 0x0, false⟩, ⟨8, 24, .ro, 0x0, false⟩]⟩,
    ⟨"ADIP_STAT", 0x308, 1, 4, 1, 4, [⟨0, 28, .ro, 0x0, false⟩, ⟨28, 3, .ro, 0x0, false⟩, ⟨31, 1, .ro, 0x0, false⟩]⟩,
    ⟨"WPLL_EVT", 0x30c, 1, 4, 1, 4, [⟨0, 1, .w1c, 0x0, false⟩, ⟨1, 1, .w1c, 0x0, false⟩, ⟨2, 1, .w1c, 0x0, false⟩]⟩,
    ⟨"WPLL_EVT_EN", 0x310, 1, 4, 1, 4, [⟨0, 3, .rw, 0x0, false⟩]⟩,
    ⟨"CAP_CTRL", 0x380, 1, 4, 1, 4, [⟨0, 1, .rw, 0x0, false⟩, ⟨1, 3, .rw, 0x0, false⟩, ⟨4, 3, .rw, 0x0, false⟩, ⟨8, 2, .rw, 0x0, false⟩, ⟨10, 6, .rw, 0x0, false⟩]⟩,
    ⟨"CAP_STAT", 0x384, 1, 4, 1, 4, [⟨0, 1, .ro, 0x0, false⟩, ⟨1, 1, .ro, 0x0, false⟩, ⟨2, 16, .ro, 0x0, false⟩]⟩]

/-- All register tables of block wob. -/
def wobRegs : List RegInfo := wobRegs0

/-- Register tables of block glb, part 0 (R6 and on). -/
def glbRegs0 : List RegInfo := [
    ⟨"GLB_ID", 0x0, 1, 4, 1, 4, [⟨16, 16, .ro, 0xc832, false⟩, ⟨12, 4, .ro, 0x1, false⟩, ⟨8, 4, .ro, 0x0, false⟩, ⟨4, 4, .ro, 0x0, false⟩]⟩,
    ⟨"GLB_DDRWIN", 0x100, 16, 4, 1, 4, [⟨0, 7, .rw, 0x0, false⟩]⟩,
    ⟨"GLB_POL_STAT", 0x800, 1, 4, 1, 4, [⟨0, 4, .ro, 0x0, false⟩, ⟨4, 4, .ro, 0x0, false⟩, ⟨8, 8, .ro, 0x0, false⟩]⟩,
    ⟨"GLB_POL_CNT", 0x810, 4, 4, 1, 4, [⟨0, 16, .ro, 0x0, false⟩, ⟨16, 8, .ro, 0x0, false⟩, ⟨24, 8, .ro, 0x0, false⟩]⟩,
    ⟨"GLB_MAP_HIT", 0x820, 1, 4, 1, 4, [⟨0, 32, .ro, 0x0, false⟩]⟩,
    ⟨"GLB_MAP_MISS", 0x824, 1, 4, 1, 4, [⟨0, 32, .ro, 0x0, false⟩]⟩,
    ⟨"GLB_MAP_LOAD", 0x828, 1, 4, 1, 4, [⟨0, 32, .ro, 0x0, false⟩]⟩,
    ⟨"GLB_JNL_STAT", 0x900, 1, 4, 1, 4, [⟨0, 2, .ro, 0x0, false⟩, ⟨2, 1, .ro, 0x0, false⟩, ⟨3, 1, .ro, 0x0, false⟩, ⟨4, 1, .ro, 0x0, false⟩, ⟨5, 1, .ro, 0x0, false⟩, ⟨8, 8, .ro, 0x0, false⟩]⟩,
    ⟨"GLB_JNL_CSEQ_LO", 0x904, 1, 4, 1, 4, [⟨0, 32, .ro, 0x0, false⟩]⟩,
    ⟨"GLB_JNL_CSEQ_HI", 0x908, 1, 4, 1, 4, [⟨0, 32, .ro, 0x0, false⟩]⟩,
    ⟨"GLB_PL_GEN", 0x90c, 1, 4, 1, 4, [⟨0, 32, .ro, 0x0, false⟩]⟩,
    ⟨"GLB_QUENCH", 0x910, 1, 4, 1, 4, [⟨0, 1, .ro, 0x0, false⟩, ⟨1, 1, .ro, 0x0, false⟩, ⟨2, 1, .ro, 0x0, false⟩, ⟨3, 1, .ro, 0x0, false⟩, ⟨16, 16, .ro, 0x0, false⟩]⟩]

/-- Register tables of block glb, part 1 (R342 and on). -/
def glbRegs1 : List RegInfo := [
    ⟨"GLB_BOOT", 0x914, 1, 4, 1, 4, [⟨0, 4, .ro, 0x0, false⟩, ⟨4, 1, .ro, 0x0, false⟩, ⟨5, 1, .ro, 0x0, false⟩, ⟨6, 1, .ro, 0x0, false⟩, ⟨7, 1, .ro, 0x0, false⟩, ⟨8, 1, .ro, 0x0, false⟩, ⟨9, 1, .ro, 0x0, false⟩, ⟨12, 4, .ro, 0x0, false⟩, ⟨16, 16, .ro, 0x0, false⟩]⟩,
    ⟨"GLB_DDR_CFG", 0xa00, 1, 4, 1, 4, [⟨0, 5, .ro, 0x0, false⟩, ⟨5, 1, .ro, 0x0, false⟩, ⟨6, 1, .rw, 0x1, false⟩, ⟨8, 8, .rw, 0x18, false⟩]⟩,
    ⟨"GLB_DDR_STAT", 0xa04, 1, 4, 1, 4, [⟨0, 2, .ro, 0x0, false⟩, ⟨2, 3, .ro, 0x0, false⟩, ⟨5, 3, .ro, 0x0, false⟩, ⟨8, 8, .ro, 0x0, false⟩]⟩,
    ⟨"GLB_DDR_ERR", 0xa08, 1, 4, 1, 4, [⟨0, 16, .ro, 0x0, false⟩, ⟨16, 16, .ro, 0x0, false⟩]⟩,
    ⟨"GLB_DDR_EADDR", 0xa0c, 1, 4, 1, 4, [⟨0, 31, .ro, 0x0, false⟩, ⟨31, 1, .ro, 0x0, false⟩]⟩,
    ⟨"GLB_SRAM_CTRL", 0xb00, 1, 4, 1, 4, [⟨0, 1, .rw, 0x0, false⟩, ⟨1, 9, .rw, 0x0, false⟩]⟩,
    ⟨"GLB_SRAM_TCHK", 0xb04, 1, 4, 1, 4, [⟨0, 8, .rw, 0x0, false⟩, ⟨8, 8, .ro, 0x0, false⟩]⟩,
    ⟨"GLB_SRAM_STAT", 0xb08, 1, 4, 1, 4, [⟨0, 16, .ro, 0x0, false⟩, ⟨16, 8, .ro, 0x0, false⟩, ⟨24, 1, .ro, 0x0, false⟩]⟩,
    ⟨"GLB_SRAM_EPOS", 0xb0c, 1, 4, 1, 4, [⟨0, 9, .ro, 0x0, false⟩, ⟨9, 12, .ro, 0x0, false⟩, ⟨21, 1, .ro, 0x0, false⟩]⟩,
    ⟨"ARB_TKT", 0x3000, 16, 4, 1, 4, [⟨0, 8, .rw, 0x20, false⟩]⟩,
    ⟨"ARB_CFG", 0x3040, 1, 4, 1, 4, [⟨0, 5, .rw, 0x10, false⟩]⟩,
    ⟨"ARB_SEED", 0x3044, 1, 4, 1, 4, [⟨0, 31, .rw, 0x5a5a5a5a, false⟩]⟩]

/-- Register tables of block glb, part 2 (R427 and on). -/
def glbRegs2 : List RegInfo := [
    ⟨"ARB_STAT", 0x3048, 1, 4, 1, 4, [⟨0, 16, .ro, 0x0, false⟩, ⟨16, 16, .ro, 0x0, false⟩]⟩,
    ⟨"STRC_CTRL", 0x4000, 1, 4, 1, 4, [⟨0, 1, .rw, 0x1, false⟩, ⟨1, 3, .wo, 0x0, false⟩, ⟨4, 4, .rw, 0x0, false⟩, ⟨8, 1, .wo, 0x0, false⟩]⟩,
    ⟨"STRC_STAT", 0x4004, 1, 4, 1, 4, [⟨0, 2, .ro, 0x3, false⟩, ⟨2, 1, .ro, 0x0, false⟩, ⟨3, 11, .ro, 0x0, false⟩, ⟨14, 4, .ro, 0x0, false⟩, ⟨18, 5, .ro, 0x0, false⟩]⟩,
    ⟨"STRC_LOCK", 0x4008, 1, 4, 1, 4, [⟨0, 16, .rw, 0x0, false⟩]⟩,
    ⟨"STRC_PART", 0x4010, 8, 4, 1, 4, [⟨0, 16, .rw, 0x0, false⟩, ⟨16, 1, .rw, 0x0, false⟩]⟩,
    ⟨"STRC_PMAP0", 0x4030, 1, 4, 1, 4, [⟨0, 4, .rw, 0x0, false⟩, ⟨4, 4, .rw, 0x0, false⟩, ⟨8, 4, .rw, 0x0, false⟩, ⟨12, 4, .rw, 0x0, false⟩, ⟨16, 4, .rw, 0x0, false⟩, ⟨20, 4, .rw, 0x0, false⟩, ⟨24, 4, .rw, 0x0, false⟩, ⟨28, 4, .rw, 0x0, false⟩]⟩,
    ⟨"STRC_PMAP1", 0x4034, 1, 4, 1, 4, [⟨0, 4, .rw, 0x0, false⟩, ⟨4, 4, .rw, 0x0, false⟩, ⟨8, 4, .rw, 0x0, false⟩, ⟨12, 4, .rw, 0x0, false⟩, ⟨16, 4, .rw, 0x0, false⟩, ⟨20, 4, .rw, 0x0, false⟩, ⟨24, 4, .rw, 0x0, false⟩, ⟨28, 4, .rw, 0x0, false⟩]⟩,
    ⟨"STRC_OPA", 0x4040, 1, 4, 1, 4, [⟨0, 22, .rw, 0x0, false⟩]⟩,
    ⟨"STRC_OPL", 0x4044, 1, 4, 1, 4, [⟨0, 23, .rw, 0x0, false⟩]⟩,
    ⟨"STRC_PF", 0x4048, 1, 4, 1, 4, [⟨0, 22, .wo, 0x0, false⟩, ⟨22, 4, .wo, 0x0, false⟩]⟩,
    ⟨"STRC_EVT", 0x404c, 1, 4, 1, 4, [⟨0, 1, .w1c, 0x0, false⟩, ⟨1, 1, .w1c, 0x0, false⟩, ⟨2, 1, .w1c, 0x0, false⟩, ⟨3, 1, .w1c, 0x0, false⟩, ⟨4, 1, .w1c, 0x0, false⟩, ⟨5, 1, .w1c, 0x0, false⟩]⟩,
    ⟨"STRC_HIT", 0x4050, 1, 4, 1, 4, [⟨0, 32, .ro, 0x0, false⟩]⟩]

/-- Register tables of block glb, part 3 (R427 and on). -/
def glbRegs3 : List RegInfo := [
    ⟨"STRC_MISS", 0x4054, 1, 4, 1, 4, [⟨0, 32, .ro, 0x0, false⟩]⟩,
    ⟨"STRC_LINV", 0x4058, 1, 4, 1, 4, [⟨0, 16, .ro, 0x0, false⟩]⟩,
    ⟨"POOL_BASE", 0x5000, 4, 16, 1, 16, [⟨0, 14, .rw, 0x0, false⟩]⟩,
    ⟨"POOL_NUM", 0x5004, 4, 16, 1, 16, [⟨0, 17, .rw, 0x0, false⟩]⟩,
    ⟨"POOL_FREE", 0x5008, 4, 16, 1, 16, [⟨0, 17, .ro, 0x0, false⟩, ⟨17, 15, .ro, 0x0, false⟩]⟩,
    ⟨"POOL_MIN", 0x500c, 4, 16, 1, 16, [⟨0, 17, .ro, 0x0, false⟩]⟩,
    ⟨"POOL_CFG", 0x5040, 1, 4, 1, 4, [⟨0, 3, .rw, 0x3, false⟩]⟩,
    ⟨"POOL_EVT", 0x5044, 1, 4, 1, 4, [⟨0, 4, .w1c, 0x0, false⟩, ⟨4, 1, .w1c, 0x0, false⟩, ⟨5, 1, .w1c, 0x0, false⟩, ⟨6, 1, .w1c, 0x0, false⟩, ⟨7, 1, .w1c, 0x0, false⟩]⟩,
    ⟨"POOL_ERR", 0x5048, 1, 4, 1, 4, [⟨0, 26, .ro, 0x0, false⟩]⟩,
    ⟨"GLB_SEC_STAT", 0xc00, 1, 4, 1, 4, [⟨0, 1, .ro, 0x0, false⟩, ⟨1, 1, .ro, 0x0, false⟩, ⟨2, 2, .ro, 0x0, false⟩, ⟨4, 1, .ro, 0x0, false⟩, ⟨5, 1, .ro, 0x0, false⟩, ⟨6, 2, .ro, 0x0, false⟩, ⟨8, 6, .ro, 0x0, false⟩]⟩,
    ⟨"GLB_FW_VER", 0xc04, 1, 4, 1, 4, [⟨0, 32, .ro, 0x0, false⟩]⟩,
    ⟨"GLB_FW_STAGED", 0xc08, 1, 4, 1, 4, [⟨0, 32, .ro, 0x0, false⟩]⟩]

/-- Register tables of block glb, part 4 (R448 and on). -/
def glbRegs4 : List RegInfo := [
    ⟨"GLB_KEY_MAP0", 0xc10, 1, 4, 1, 4, [⟨0, 32, .ro, 0x0, false⟩]⟩,
    ⟨"GLB_KEY_MAP1", 0xc14, 1, 4, 1, 4, [⟨0, 32, .ro, 0x0, false⟩]⟩,
    ⟨"GLB_CIPH_STAT", 0xc20, 1, 4, 1, 4, [⟨0, 16, .ro, 0x0, false⟩, ⟨16, 2, .ro, 0x0, false⟩]⟩,
    ⟨"PWR_STATE", 0x2000, 1, 4, 1, 4, [⟨0, 2, .ro, 0x0, false⟩]⟩,
    ⟨"PWR_ENG_CTRL", 0x2004, 1, 4, 1, 4, [⟨0, 8, .wo, 0x0, false⟩, ⟨8, 8, .wo, 0x0, false⟩]⟩,
    ⟨"PWR_ENG_STAT", 0x2008, 1, 4, 1, 4, [⟨0, 2, .ro, 0x0, false⟩, ⟨2, 2, .ro, 0x0, false⟩, ⟨4, 2, .ro, 0x0, false⟩, ⟨6, 2, .ro, 0x0, false⟩, ⟨8, 2, .ro, 0x0, false⟩, ⟨10, 2, .ro, 0x0, false⟩, ⟨12, 2, .ro, 0x0, false⟩, ⟨14, 2, .ro, 0x0, false⟩]⟩,
    ⟨"PWR_EVT", 0x200c, 1, 4, 1, 4, [⟨0, 8, .w1c, 0x0, false⟩, ⟨8, 1, .w1c, 0x0, false⟩, ⟨9, 1, .w1c, 0x0, false⟩, ⟨10, 1, .w1c, 0x0, false⟩, ⟨11, 1, .w1c, 0x0, false⟩, ⟨12, 2, .w1c, 0x0, false⟩]⟩,
    ⟨"PWR_RST", 0x2010, 1, 4, 1, 4, [⟨0, 1, .wo, 0x0, false⟩, ⟨4, 4, .wo, 0x0, false⟩, ⟨8, 4, .rws, 0x0, true⟩]⟩,
    ⟨"PWR_WDT", 0x2014, 1, 4, 1, 4, [⟨0, 1, .wo, 0x0, false⟩, ⟨1, 1, .rw, 0x1, false⟩, ⟨8, 8, .rw, 0x14, false⟩]⟩,
    ⟨"PWR_RTC_LO", 0x2020, 1, 4, 1, 4, [⟨0, 32, .ro, 0x0, true⟩]⟩,
    ⟨"PWR_RTC_HI", 0x2024, 1, 4, 1, 4, [⟨0, 8, .ro, 0x0, true⟩, ⟨8, 15, .ro, 0x0, true⟩, ⟨23, 1, .ro, 0x0, false⟩]⟩,
    ⟨"PWR_TMR", 0x2028, 2, 4, 1, 4, [⟨0, 32, .rw, 0x0, true⟩]⟩]

/-- Register tables of block glb, part 5 (R467 and on). -/
def glbRegs5 : List RegInfo := [
    ⟨"PWR_WAKE_EN", 0x2030, 1, 4, 1, 4, [⟨0, 4, .rw, 0x1, true⟩]⟩,
    ⟨"PWR_WAKE_SRC", 0x2034, 1, 4, 1, 4, [⟨0, 4, .ro, 0x0, true⟩]⟩,
    ⟨"PWR_STBY", 0x2038, 1, 4, 1, 4, [⟨0, 1, .rw, 0x0, false⟩]⟩,
    ⟨"PWR_HOURS", 0x203c, 1, 4, 1, 4, [⟨0, 24, .ro, 0x0, true⟩]⟩,
    ⟨"PWR_CLK_STAT", 0x2040, 1, 4, 1, 4, [⟨0, 8, .ro, 0x0, false⟩, ⟨8, 1, .ro, 0x0, false⟩, ⟨9, 1, .ro, 0x0, false⟩, ⟨10, 1, .ro, 0x0, false⟩, ⟨11, 1, .ro, 0x0, false⟩, ⟨12, 1, .ro, 0x0, false⟩]⟩,
    ⟨"CLAIM_RES", 0x1000, 37, 4, 1, 4, [⟨0, 6, .rw, 0x3f, false⟩, ⟨6, 1, .ro, 0x0, false⟩, ⟨7, 1, .wo, 0x0, false⟩, ⟨8, 8, .ro, 0x0, false⟩, ⟨16, 6, .ro, 0x3f, false⟩]⟩,
    ⟨"GPIO_CFG", 0x1100, 12, 4, 1, 4, [⟨0, 1, .rw, 0x0, false⟩, ⟨1, 1, .rw, 0x0, false⟩, ⟨2, 1, .ro, 0x0, false⟩, ⟨3, 1, .rw, 0x0, false⟩, ⟨4, 2, .rw, 0x1, false⟩, ⟨6, 2, .rw, 0x1, false⟩]⟩,
    ⟨"TIM_CTRL", 0x1200, 12, 16, 1, 16, [⟨0, 2, .rw, 0x0, false⟩, ⟨2, 4, .rw, 0x0, false⟩, ⟨6, 5, .rw, 0x0, false⟩, ⟨11, 2, .rw, 0x0, false⟩, ⟨13, 4, .rw, 0x0, false⟩, ⟨17, 1, .w1c, 0x0, false⟩]⟩,
    ⟨"TIM_CNT", 0x1204, 12, 16, 1, 16, [⟨0, 32, .rw, 0x0, false⟩]⟩,
    ⟨"TIM_CC", 0x1208, 12, 16, 1, 16, [⟨0, 32, .rw, 0x0, false⟩]⟩,
    ⟨"TMUX_SEL", 0x1400, 4, 4, 1, 4, [⟨0, 8, .rw, 0x0, false⟩, ⟨8, 3, .rw, 0x0, false⟩, ⟨11, 3, .rw, 0x0, false⟩, ⟨14, 1, .rw, 0x0, false⟩]⟩,
    ⟨"TDAC_SEL", 0x1410, 1, 4, 1, 4, [⟨0, 3, .rw, 0x0, false⟩, ⟨4, 3, .rw, 0x0, false⟩, ⟨7, 4, .rw, 0x0, false⟩]⟩]

/-- Register tables of block glb, part 6 (R478 and on). -/
def glbRegs6 : List RegInfo := [
    ⟨"TDAC_VAL", 0x1414, 1, 4, 1, 4, [⟨0, 10, .rw, 0x200, false⟩]⟩,
    ⟨"GLB_TEMP", 0xd00, 1, 4, 1, 4, [⟨0, 16, .ro, 0x0, false⟩, ⟨16, 16, .ro, 0x0, false⟩]⟩]

/-- All register tables of block glb. -/
def glbRegs : List RegInfo := glbRegs0 ++ glbRegs1 ++ glbRegs2 ++ glbRegs3 ++ glbRegs4 ++ glbRegs5 ++ glbRegs6

/-- Register tables of block ax, part 0 (R242 and on). -/
def axRegs0 : List RegInfo := [
    ⟨"AX_CTRL", 0x0, 1, 4, 1, 4, [⟨0, 1, .wo, 0x0, false⟩, ⟨1, 1, .wo, 0x0, false⟩, ⟨2, 1, .wo, 0x0, false⟩, ⟨3, 1, .rw, 0x0, false⟩, ⟨4, 1, .rw, 0x0, false⟩, ⟨5, 1, .rw, 0x0, false⟩, ⟨6, 1, .rw, 0x0, false⟩, ⟨7, 1, .rw, 0x0, false⟩, ⟨8, 4, .rw, 0x8, false⟩, ⟨12, 4, .rw, 0x4, false⟩]⟩,
    ⟨"AX_STAT", 0x4, 1, 4, 1, 4, [⟨0, 1, .ro, 0x0, false⟩, ⟨1, 1, .ro, 0x0, false⟩, ⟨2, 1, .ro, 0x1, false⟩, ⟨3, 1, .ro, 0x0, false⟩, ⟨4, 1, .ro, 0x0, false⟩, ⟨16, 16, .ro, 0x0, false⟩]⟩,
    ⟨"AX_POS", 0x8, 1, 4, 1, 4, [⟨0, 32, .rw, 0x0, false⟩]⟩,
    ⟨"AX_TGT", 0xc, 1, 4, 1, 4, [⟨0, 32, .rw, 0x0, false⟩]⟩,
    ⟨"AX_VMAX", 0x10, 1, 4, 1, 4, [⟨0, 21, .rw, 0xc350, false⟩, ⟨21, 11, .rw, 0x10, false⟩]⟩,
    ⟨"AX_ACC", 0x14, 1, 4, 1, 4, [⟨0, 16, .rw, 0x320, false⟩, ⟨16, 16, .rw, 0x64, false⟩]⟩,
    ⟨"AX_RATIO", 0x18, 1, 4, 1, 4, [⟨0, 24, .rw, 0x10000, false⟩]⟩,
    ⟨"AX_RATIO_NEXT", 0x1c, 1, 4, 1, 4, [⟨0, 24, .rw, 0x10000, false⟩]⟩,
    ⟨"AX_CHG_POS", 0x20, 1, 4, 1, 4, [⟨0, 32, .rw, 0x0, false⟩]⟩,
    ⟨"AX_ENC", 0x24, 1, 4, 1, 4, [⟨0, 16, .rw, 0x1000, false⟩, ⟨16, 16, .rw, 0x10, false⟩]⟩]

/-- All register tables of block ax. -/
def axRegs : List RegInfo := axRegs0

/-- Register tables of block brk, part 0 (R242 and on). -/
def brkRegs0 : List RegInfo := [
    ⟨"BRK_CTRL", 0x0, 1, 4, 1, 4, [⟨0, 1, .wo, 0x0, false⟩, ⟨16, 16, .rw, 0xc8, false⟩]⟩,
    ⟨"BRK_OV12", 0x4, 1, 4, 1, 4, [⟨0, 16, .rw, 0x3390, false⟩, ⟨16, 16, .rw, 0x36b0, false⟩]⟩,
    ⟨"BRK_OV3", 0x8, 1, 4, 1, 4, [⟨0, 16, .rw, 0x3a98, false⟩, ⟨16, 16, .rw, 0x3200, false⟩]⟩,
    ⟨"BRK_CFG", 0xc, 1, 4, 1, 4, [⟨0, 8, .rw, 0x14, false⟩, ⟨8, 16, .rw, 0x2710, false⟩, ⟨24, 8, .rw, 0xa, false⟩]⟩,
    ⟨"BRK_SCALE", 0x10, 1, 4, 1, 4, [⟨0, 16, .rw, 0x4e20, false⟩, ⟨16, 16, .rw, 0x2710, false⟩]⟩,
    ⟨"BRK_STAT", 0x14, 1, 4, 1, 4, [⟨0, 16, .ro, 0x0, false⟩, ⟨16, 1, .ro, 0x0, false⟩, ⟨17, 1, .ro, 0x0, false⟩, ⟨18, 1, .ro, 0x0, false⟩, ⟨19, 1, .ro, 0x0, false⟩, ⟨20, 1, .ro, 0x0, false⟩, ⟨21, 1, .ro, 0x0, false⟩]⟩,
    ⟨"BRK_PWR", 0x18, 1, 4, 1, 4, [⟨0, 16, .ro, 0x0, false⟩, ⟨16, 16, .ro, 0x0, false⟩]⟩]

/-- All register tables of block brk. -/
def brkRegs : List RegInfo := brkRegs0

/-- Register tables of block mot, part 0 (R242 and on). -/
def motRegs0 : List RegInfo := [
    ⟨"MOT_EVT", 0x2000, 1, 4, 1, 4, [⟨0, 4, .w1c, 0x0, false⟩, ⟨4, 4, .w1c, 0x0, false⟩, ⟨8, 4, .w1c, 0x0, false⟩, ⟨12, 4, .w1c, 0x0, false⟩, ⟨16, 6, .w1c, 0x0, false⟩, ⟨22, 6, .w1c, 0x0, false⟩]⟩,
    ⟨"MOT_EVT_EN", 0x2004, 1, 4, 1, 4, [⟨0, 28, .rw, 0x0, false⟩]⟩]

/-- All register tables of block mot. -/
def motRegs : List RegInfo := motRegs0

/-- Register tables of block cqi, part 0 (R374 and on). -/
def cqiRegs0 : List RegInfo := [
    ⟨"CQI_CAP", 0x0, 1, 4, 1, 4, [⟨0, 7, .ro, 0x40, false⟩, ⟨8, 6, .ro, 0x20, false⟩, ⟨16, 4, .ro, 0x8, false⟩, ⟨24, 8, .ro, 0x1, false⟩]⟩,
    ⟨"CQI_CTRL", 0x4, 1, 4, 1, 4, [⟨0, 1, .wo, 0x0, false⟩, ⟨1, 1, .rw, 0x0, false⟩]⟩,
    ⟨"CQI_STAT", 0x8, 1, 4, 1, 4, [⟨0, 1, .ro, 0x0, false⟩, ⟨1, 1, .ro, 0x0, false⟩, ⟨2, 1, .ro, 0x0, false⟩, ⟨3, 1, .ro, 0x0, false⟩, ⟨4, 7, .ro, 0x0, false⟩]⟩,
    ⟨"CQI_EVT", 0xc, 1, 4, 1, 4, [⟨0, 1, .w1c, 0x0, false⟩, ⟨1, 1, .w1c, 0x0, false⟩, ⟨2, 1, .w1c, 0x0, false⟩, ⟨3, 1, .w1c, 0x0, false⟩]⟩,
    ⟨"CQI_QERR0", 0x10, 1, 4, 1, 4, [⟨0, 32, .ro, 0x0, false⟩]⟩,
    ⟨"CQI_QERR1", 0x14, 1, 4, 1, 4, [⟨0, 32, .ro, 0x0, false⟩]⟩,
    ⟨"CQI_QERR2", 0x18, 1, 4, 1, 4, [⟨0, 32, .ro, 0x0, false⟩]⟩]

/-- All register tables of block cqi. -/
def cqiRegs : List RegInfo := cqiRegs0

/-- Register tables of block qb, part 0 (R374 and on). -/
def qbRegs0 : List RegInfo := [
    ⟨"QB_SQ_BASE_LO", 0x0, 1, 4, 1, 4, [⟨12, 20, .rw, 0x0, false⟩]⟩,
    ⟨"QB_SQ_BASE_HI", 0x4, 1, 4, 1, 4, [⟨0, 32, .rw, 0x0, false⟩]⟩,
    ⟨"QB_CQ_BASE_LO", 0x8, 1, 4, 1, 4, [⟨12, 20, .rw, 0x0, false⟩]⟩,
    ⟨"QB_CQ_BASE_HI", 0xc, 1, 4, 1, 4, [⟨0, 32, .rw, 0x0, false⟩]⟩,
    ⟨"QB_IDX_BASE_LO", 0x10, 1, 4, 1, 4, [⟨6, 26, .rw, 0x0, false⟩]⟩,
    ⟨"QB_IDX_BASE_HI", 0x14, 1, 4, 1, 4, [⟨0, 32, .rw, 0x0, false⟩]⟩,
    ⟨"QB_CFG", 0x18, 1, 4, 1, 4, [⟨0, 4, .rw, 0x0, false⟩, ⟨4, 4, .rw, 0x0, false⟩, ⟨8, 8, .rw, 0x0, false⟩, ⟨16, 3, .ro, 0x0, false⟩]⟩,
    ⟨"QB_CTRL", 0x1c, 1, 4, 1, 4, [⟨0, 1, .rw, 0x0, false⟩]⟩,
    ⟨"QB_STAT", 0x20, 1, 4, 1, 4, [⟨0, 2, .ro, 0x0, false⟩, ⟨2, 1, .ro, 0x0, false⟩, ⟨3, 1, .w1c, 0x0, false⟩, ⟨4, 1, .ro, 0x0, false⟩, ⟨5, 6, .ro, 0x0, false⟩]⟩,
    ⟨"QB_ERR", 0x24, 1, 4, 1, 4, [⟨0, 8, .ro, 0x0, false⟩, ⟨8, 4, .ro, 0x0, false⟩, ⟨12, 5, .ro, 0x0, false⟩]⟩,
    ⟨"QB_DB", 0x28, 1, 4, 1, 4, [⟨0, 1, .wo, 0x0, false⟩, ⟨1, 1, .wo, 0x0, false⟩]⟩,
    ⟨"QB_POS", 0x2c, 1, 4, 1, 4, [⟨0, 8, .ro, 0x0, false⟩, ⟨8, 10, .ro, 0x0, false⟩, ⟨18, 1, .ro, 0x1, false⟩]⟩]

/-- All register tables of block qb. -/
def qbRegs : List RegInfo := qbRegs0

/-- The register tables of a block. -/
def Blk.regs : Blk → List RegInfo
  | .eng => engRegs
  | .ch => chRegs
  | .wob => wobRegs
  | .glb => glbRegs
  | .ax => axRegs
  | .brk => brkRegs
  | .mot => motRegs
  | .cqi => cqiRegs
  | .qb => qbRegs

/-- How many instances a block has: 8 engines, 4 axes, 2 buses, 65 queues. -/
def Blk.count : Blk → Nat
  | .eng => 8 | .ch => 8 | .wob => 8 | .glb => 1 | .ax => 4 | .brk => 2 | .mot => 1 | .cqi => 1 | .qb => 65

/-- The register table of a register, if the offset is not reserved (R11). -/
def Reg.info (r : Reg) : Option RegInfo :=
  if r.i < r.blk.count ∧ r.k < (if r.blk = .ch then 5 else 1) then r.blk.regs.find? fun t => t.covers r.off else none

/-- The value of a register whose fields hold their reset values. -/
def RegInfo.resetValue (t : RegInfo) : Word :=
  t.fields.foldl (fun v f => v ||| (BitVec.ofNat 32 (f.reset % 2 ^ f.w) <<< f.lo)) 0#32

/-- GLB_ID (R6). -/
abbrev GLB_ID.reg : Reg := ⟨.glb, 0, 0, 0x0⟩
abbrev GLB_ID.PART : Fld := ⟨GLB_ID.reg, 16, 16⟩
abbrev GLB_ID.MAJOR_STEP : Fld := ⟨GLB_ID.reg, 12, 4⟩
abbrev GLB_ID.MINOR_STEP : Fld := ⟨GLB_ID.reg, 8, 4⟩
abbrev GLB_ID.PKG : Fld := ⟨GLB_ID.reg, 4, 4⟩
/-- GLB_DDRWIN (R24). -/
abbrev GLB_DDRWIN.reg (c : Nat) : Reg := ⟨.glb, 0, 0, 0x100 + 4 * c⟩
abbrev GLB_DDRWIN.BASE (c : Nat) : Fld := ⟨GLB_DDRWIN.reg c, 0, 7⟩
/-- HL_CTRL (R67). -/
abbrev HL_CTRL.reg (e : Nat) : Reg := ⟨.eng, e, 0, 0x1000⟩
abbrev HL_CTRL.ENABLE (e : Nat) : Fld := ⟨HL_CTRL.reg e, 0, 1⟩
abbrev HL_CTRL.RETRAIN (e : Nat) : Fld := ⟨HL_CTRL.reg e, 1, 1⟩
abbrev HL_CTRL.CNT_CLR (e : Nat) : Fld := ⟨HL_CTRL.reg e, 2, 1⟩
abbrev HL_CTRL.AUTO_DROP (e : Nat) : Fld := ⟨HL_CTRL.reg e, 3, 1⟩
abbrev HL_CTRL.LANE_EXCL (e : Nat) : Fld := ⟨HL_CTRL.reg e, 4, 4⟩
/-- HL_STAT (R67). -/
abbrev HL_STAT.reg (e : Nat) : Reg := ⟨.eng, e, 0, 0x1004⟩
abbrev HL_STAT.STATE (e : Nat) : Fld := ⟨HL_STAT.reg e, 0, 3⟩
abbrev HL_STAT.ACTIVE_MASK (e : Nat) : Fld := ⟨HL_STAT.reg e, 4, 4⟩
abbrev HL_STAT.CLK_LANE (e : Nat) : Fld := ⟨HL_STAT.reg e, 8, 2⟩
abbrev HL_STAT.SPARE_STREAM (e : Nat) : Fld := ⟨HL_STAT.reg e, 10, 1⟩
abbrev HL_STAT.RATE_CAP (e : Nat) : Fld := ⟨HL_STAT.reg e, 11, 1⟩
abbrev HL_STAT.ATTEMPT (e : Nat) : Fld := ⟨HL_STAT.reg e, 12, 2⟩
/-- HL_EVT (R67). -/
abbrev HL_EVT.reg (e : Nat) : Reg := ⟨.eng, e, 0, 0x1008⟩
abbrev HL_EVT.UP (e : Nat) : Fld := ⟨HL_EVT.reg e, 0, 1⟩
abbrev HL_EVT.LANE_DEGRADED (e : Nat) : Fld := ⟨HL_EVT.reg e, 1, 1⟩
abbrev HL_EVT.LINK_FAILED (e : Nat) : Fld := ⟨HL_EVT.reg e, 2, 1⟩
abbrev HL_EVT.CRC_THRESH (e : Nat) : Fld := ⟨HL_EVT.reg e, 3, 1⟩
abbrev HL_EVT.SERVO_STALE (e : Nat) : Fld := ⟨HL_EVT.reg e, 4, 1⟩
abbrev HL_EVT.FW_CLAMP (e : Nat) : Fld := ⟨HL_EVT.reg e, 5, 1⟩
abbrev HL_EVT.F5_SILENT (e : Nat) : Fld := ⟨HL_EVT.reg e, 6, 1⟩
abbrev HL_EVT.DS_LOST (e : Nat) : Fld := ⟨HL_EVT.reg e, 7, 1⟩
/-- HL_EVT_EN (R67). -/
abbrev HL_EVT_EN.reg (e : Nat) : Reg := ⟨.eng, e, 0, 0x100c⟩
abbrev HL_EVT_EN.EN (e : Nat) : Fld := ⟨HL_EVT_EN.reg e, 0, 8⟩
/-- HL_CFG (R68). -/
abbrev HL_CFG.reg (e : Nat) : Reg := ⟨.eng, e, 0, 0x1010⟩
abbrev HL_CFG.TRAIN_TO (e : Nat) : Fld := ⟨HL_CFG.reg e, 0, 8⟩
abbrev HL_CFG.MAX_ATTEMPT (e : Nat) : Fld := ⟨HL_CFG.reg e, 8, 2⟩
abbrev HL_CFG.CRC_LIMIT (e : Nat) : Fld := ⟨HL_CFG.reg e, 16, 8⟩
abbrev HL_CFG.CRC_WIN (e : Nat) : Fld := ⟨HL_CFG.reg e, 24, 4⟩
/-- HL_RATE (R68). -/
abbrev HL_RATE.reg (e : Nat) : Reg := ⟨.eng, e, 0, 0x1014⟩
abbrev HL_RATE.SR (e : Nat) : Fld := ⟨HL_RATE.reg e, 0, 2⟩
abbrev HL_RATE.STEERED (e : Nat) : Fld := ⟨HL_RATE.reg e, 2, 1⟩
abbrev HL_RATE.FW (e : Nat) : Fld := ⟨HL_RATE.reg e, 4, 24⟩
/-- HL_F5STAT (R68). -/
abbrev HL_F5STAT.reg (e : Nat) : Reg := ⟨.eng, e, 0, 0x1018⟩
abbrev HL_F5STAT.DS_LOCK (e : Nat) : Fld := ⟨HL_F5STAT.reg e, 0, 1⟩
abbrev HL_F5STAT.LASER_ON (e : Nat) : Fld := ⟨HL_F5STAT.reg e, 1, 1⟩
abbrev HL_F5STAT.WRITE_ACTIVE (e : Nat) : Fld := ⟨HL_F5STAT.reg e, 2, 1⟩
abbrev HL_F5STAT.SPARE_ON (e : Nat) : Fld := ⟨HL_F5STAT.reg e, 3, 1⟩
abbrev HL_F5STAT.SR (e : Nat) : Fld := ⟨HL_F5STAT.reg e, 4, 2⟩
abbrev HL_F5STAT.TEMP (e : Nat) : Fld := ⟨HL_F5STAT.reg e, 16, 16⟩
/-- HL_LANE (R69). -/
abbrev HL_LANE.reg (e : Nat) (u : Nat) : Reg := ⟨.eng, e, 0, 0x1020 + 4 * u⟩
abbrev HL_LANE.CRC_ERR (e : Nat) (u : Nat) : Fld := ⟨HL_LANE.reg e u, 0, 16⟩
abbrev HL_LANE.HDR_ERR (e : Nat) (u : Nat) : Fld := ⟨HL_LANE.reg e u, 16, 12⟩
abbrev HL_LANE.LOCK_LOSS (e : Nat) (u : Nat) : Fld := ⟨HL_LANE.reg e u, 28, 4⟩
/-- CH_CTRL (R99). -/
abbrev CH_CTRL.reg (e k : Nat) : Reg := ⟨.ch, e, k, 0x0⟩
abbrev CH_CTRL.ENABLE (e k : Nat) : Fld := ⟨CH_CTRL.reg e k, 0, 1⟩
abbrev CH_CTRL.TR_MODE (e k : Nat) : Fld := ⟨CH_CTRL.reg e k, 1, 1⟩
abbrev CH_CTRL.ALT (e k : Nat) : Fld := ⟨CH_CTRL.reg e k, 2, 1⟩
abbrev CH_CTRL.XT_EN (e k : Nat) : Fld := ⟨CH_CTRL.reg e k, 3, 1⟩
abbrev CH_CTRL.AGC_HOLD (e k : Nat) : Fld := ⟨CH_CTRL.reg e k, 4, 1⟩
abbrev CH_CTRL.XT_HOLD (e k : Nat) : Fld := ⟨CH_CTRL.reg e k, 5, 1⟩
abbrev CH_CTRL.EQ_HOLD (e k : Nat) : Fld := ⟨CH_CTRL.reg e k, 6, 1⟩
abbrev CH_CTRL.REPLAY (e k : Nat) : Fld := ⟨CH_CTRL.reg e k, 7, 1⟩
abbrev CH_CTRL.SPOT (e k : Nat) : Fld := ⟨CH_CTRL.reg e k, 8, 3⟩
abbrev CH_CTRL.CNT_CLR (e k : Nat) : Fld := ⟨CH_CTRL.reg e k, 11, 1⟩
/-- CH_STAT (R99). -/
abbrev CH_STAT.reg (e k : Nat) : Reg := ⟨.ch, e, k, 0x4⟩
abbrev CH_STAT.AGC_OK (e k : Nat) : Fld := ⟨CH_STAT.reg e k, 0, 1⟩
abbrev CH_STAT.TR_LOCK (e k : Nat) : Fld := ⟨CH_STAT.reg e k, 1, 1⟩
abbrev CH_STAT.FALLBACK (e k : Nat) : Fld := ⟨CH_STAT.reg e k, 2, 1⟩
abbrev CH_STAT.FLY_STATE (e k : Nat) : Fld := ⟨CH_STAT.reg e k, 3, 2⟩
abbrev CH_STAT.MISS_RUN (e k : Nat) : Fld := ⟨CH_STAT.reg e k, 5, 2⟩
abbrev CH_STAT.ALT_ACTIVE (e k : Nat) : Fld := ⟨CH_STAT.reg e k, 7, 1⟩
abbrev CH_STAT.REPLAY_BUSY (e k : Nat) : Fld := ⟨CH_STAT.reg e k, 8, 1⟩
/-- CH_EVT (R99). -/
abbrev CH_EVT.reg (e k : Nat) : Reg := ⟨.ch, e, k, 0x8⟩
abbrev CH_EVT.SYNC_ACQ (e k : Nat) : Fld := ⟨CH_EVT.reg e k, 0, 1⟩
abbrev CH_EVT.SYNC_LOST (e k : Nat) : Fld := ⟨CH_EVT.reg e k, 1, 1⟩
abbrev CH_EVT.CLUSTER_FAIL (e k : Nat) : Fld := ⟨CH_EVT.reg e k, 2, 1⟩
abbrev CH_EVT.FALLBACK (e k : Nat) : Fld := ⟨CH_EVT.reg e k, 3, 1⟩
abbrev CH_EVT.AGC_LIMIT (e k : Nat) : Fld := ⟨CH_EVT.reg e k, 4, 1⟩
abbrev CH_EVT.EQ_LIMIT (e k : Nat) : Fld := ⟨CH_EVT.reg e k, 5, 1⟩
abbrev CH_EVT.REPLAY_DONE (e k : Nat) : Fld := ⟨CH_EVT.reg e k, 6, 1⟩
abbrev CH_EVT.OUT_OVERRUN (e k : Nat) : Fld := ⟨CH_EVT.reg e k, 7, 1⟩
/-- CH_EVT_EN (R99). -/
abbrev CH_EVT_EN.reg (e k : Nat) : Reg := ⟨.ch, e, k, 0xc⟩
abbrev CH_EVT_EN.EN (e k : Nat) : Fld := ⟨CH_EVT_EN.reg e k, 0, 8⟩
/-- AGC_CFG (R99). -/
abbrev AGC_CFG.reg (e k : Nat) : Reg := ⟨.ch, e, k, 0x10⟩
abbrev AGC_CFG.TARGET (e k : Nat) : Fld := ⟨AGC_CFG.reg e k, 0, 8⟩
abbrev AGC_CFG.TC_ACQ (e k : Nat) : Fld := ⟨AGC_CFG.reg e k, 8, 4⟩
abbrev AGC_CFG.TC_TRK (e k : Nat) : Fld := ⟨AGC_CFG.reg e k, 12, 4⟩
abbrev AGC_CFG.DC_TC (e k : Nat) : Fld := ⟨AGC_CFG.reg e k, 16, 4⟩
/-- AGC_GAIN (R99). -/
abbrev AGC_GAIN.reg (e k : Nat) : Reg := ⟨.ch, e, k, 0x14⟩
abbrev AGC_GAIN.GAIN (e k : Nat) : Fld := ⟨AGC_GAIN.reg e k, 0, 12⟩
/-- AGC_OFFS (R99). -/
abbrev AGC_OFFS.reg (e k : Nat) : Reg := ⟨.ch, e, k, 0x18⟩
abbrev AGC_OFFS.OFFS (e k : Nat) : Fld := ⟨AGC_OFFS.reg e k, 0, 10⟩
/-- TR_CFG (R99). -/
abbrev TR_CFG.reg (e k : Nat) : Reg := ⟨.ch, e, k, 0x20⟩
abbrev TR_CFG.KP (e k : Nat) : Fld := ⟨TR_CFG.reg e k, 0, 5⟩
abbrev TR_CFG.KI (e k : Nat) : Fld := ⟨TR_CFG.reg e k, 5, 5⟩
abbrev TR_CFG.DD (e k : Nat) : Fld := ⟨TR_CFG.reg e k, 10, 1⟩
/-- TR_CFG_ALT (R99). -/
abbrev TR_CFG_ALT.reg (e k : Nat) : Reg := ⟨.ch, e, k, 0x24⟩
abbrev TR_CFG_ALT.KP (e k : Nat) : Fld := ⟨TR_CFG_ALT.reg e k, 0, 5⟩
abbrev TR_CFG_ALT.KI (e k : Nat) : Fld := ⟨TR_CFG_ALT.reg e k, 5, 5⟩
abbrev TR_CFG_ALT.DD (e k : Nat) : Fld := ⟨TR_CFG_ALT.reg e k, 10, 1⟩
/-- TR_STAT (R99). -/
abbrev TR_STAT.reg (e k : Nat) : Reg := ⟨.ch, e, k, 0x28⟩
abbrev TR_STAT.RATIO (e k : Nat) : Fld := ⟨TR_STAT.reg e k, 0, 24⟩
/-- ADAPT_CFG (R99). -/
abbrev ADAPT_CFG.reg (e k : Nat) : Reg := ⟨.ch, e, k, 0x30⟩
abbrev ADAPT_CFG.XT_MU (e k : Nat) : Fld := ⟨ADAPT_CFG.reg e k, 0, 4⟩
abbrev ADAPT_CFG.EQ_MU (e k : Nat) : Fld := ⟨ADAPT_CFG.reg e k, 4, 4⟩
/-- XT_TAP (R99). -/
abbrev XT_TAP.reg (e k : Nat) (j : Nat) (t : Nat) : Reg := ⟨.ch, e, k, 0x40 + 28 * j + 4 * t⟩
abbrev XT_TAP.TAP (e k : Nat) (j : Nat) (t : Nat) : Fld := ⟨XT_TAP.reg e k j t, 0, 14⟩
/-- EQ_TAP (R99). -/
abbrev EQ_TAP.reg (e k : Nat) (i : Nat) : Reg := ⟨.ch, e, k, 0xc0 + 4 * i⟩
abbrev EQ_TAP.TAP (e k : Nat) (i : Nat) : Fld := ⟨EQ_TAP.reg e k i, 0, 14⟩
/-- EQ_ALT (R99). -/
abbrev EQ_ALT.reg (e k : Nat) (i : Nat) : Reg := ⟨.ch, e, k, 0x100 + 4 * i⟩
abbrev EQ_ALT.TAP (e k : Nat) (i : Nat) : Fld := ⟨EQ_ALT.reg e k i, 0, 14⟩
/-- PR_CFG (R99). -/
abbrev PR_CFG.reg (e k : Nat) : Reg := ⟨.ch, e, k, 0x140⟩
abbrev PR_CFG.PR_SEL (e k : Nat) : Fld := ⟨PR_CFG.reg e k, 0, 2⟩
abbrev PR_CFG.PR_SEL_ALT (e k : Nat) : Fld := ⟨PR_CFG.reg e k, 2, 2⟩
abbrev PR_CFG.T0 (e k : Nat) : Fld := ⟨PR_CFG.reg e k, 8, 6⟩
abbrev PR_CFG.T1 (e k : Nat) : Fld := ⟨PR_CFG.reg e k, 16, 6⟩
abbrev PR_CFG.T2 (e k : Nat) : Fld := ⟨PR_CFG.reg e k, 24, 6⟩
/-- VIT_CFG (R99). -/
abbrev VIT_CFG.reg (e k : Nat) : Reg := ⟨.ch, e, k, 0x144⟩
abbrev VIT_CFG.REL_TH (e k : Nat) : Fld := ⟨VIT_CFG.reg e k, 0, 8⟩
abbrev VIT_CFG.REL_EN (e k : Nat) : Fld := ⟨VIT_CFG.reg e k, 8, 1⟩
/-- SYNC_CFG (R99). -/
abbrev SYNC_CFG.reg (e k : Nat) : Reg := ⟨.ch, e, k, 0x150⟩
abbrev SYNC_CFG.SYNC_TOL (e k : Nat) : Fld := ⟨SYNC_CFG.reg e k, 0, 3⟩
abbrev SYNC_CFG.LOCK_N (e k : Nat) : Fld := ⟨SYNC_CFG.reg e k, 3, 2⟩
abbrev SYNC_CFG.SLIP_FRAME (e k : Nat) : Fld := ⟨SYNC_CFG.reg e k, 5, 1⟩
abbrev SYNC_CFG.MISS_ERASE (e k : Nat) : Fld := ⟨SYNC_CFG.reg e k, 6, 1⟩
/-- SYNC_STAT (R99). -/
abbrev SYNC_STAT.reg (e k : Nat) : Reg := ⟨.ch, e, k, 0x154⟩
abbrev SYNC_STAT.FRAME (e k : Nat) : Fld := ⟨SYNC_STAT.reg e k, 0, 5⟩
abbrev SYNC_STAT.AU (e k : Nat) : Fld := ⟨SYNC_STAT.reg e k, 5, 4⟩
abbrev SYNC_STAT.LAST_E (e k : Nat) : Fld := ⟨SYNC_STAT.reg e k, 12, 4⟩
/-- SYNC_CNT (R99). -/
abbrev SYNC_CNT.reg (e k : Nat) : Reg := ⟨.ch, e, k, 0x158⟩
abbrev SYNC_CNT.KEPT (e k : Nat) : Fld := ⟨SYNC_CNT.reg e k, 0, 8⟩
abbrev SYNC_CNT.RESTORED (e k : Nat) : Fld := ⟨SYNC_CNT.reg e k, 8, 8⟩
abbrev SYNC_CNT.MISSED (e k : Nat) : Fld := ⟨SYNC_CNT.reg e k, 16, 8⟩
abbrev SYNC_CNT.LOST (e k : Nat) : Fld := ⟨SYNC_CNT.reg e k, 24, 8⟩
/-- DEC_CFG (R99). -/
abbrev DEC_CFG.reg (e k : Nat) : Reg := ⟨.ch, e, k, 0x160⟩
abbrev DEC_CFG.ITER_MAX (e k : Nat) : Fld := ⟨DEC_CFG.reg e k, 0, 3⟩
abbrev DEC_CFG.MARGIN (e k : Nat) : Fld := ⟨DEC_CFG.reg e k, 3, 3⟩
abbrev DEC_CFG.BURST_EN (e k : Nat) : Fld := ⟨DEC_CFG.reg e k, 8, 1⟩
/-- DEC_STAT (R99). -/
abbrev DEC_STAT.reg (e k : Nat) : Reg := ⟨.ch, e, k, 0x164⟩
abbrev DEC_STAT.OK (e k : Nat) : Fld := ⟨DEC_STAT.reg e k, 0, 1⟩
abbrev DEC_STAT.EDC_FAIL (e k : Nat) : Fld := ⟨DEC_STAT.reg e k, 1, 1⟩
abbrev DEC_STAT.LDC_FAIL (e k : Nat) : Fld := ⟨DEC_STAT.reg e k, 2, 1⟩
abbrev DEC_STAT.BIS_FAIL (e k : Nat) : Fld := ⟨DEC_STAT.reg e k, 3, 1⟩
abbrev DEC_STAT.SYNC_INS (e k : Nat) : Fld := ⟨DEC_STAT.reg e k, 4, 1⟩
abbrev DEC_STAT.SYNC_SLIP (e k : Nat) : Fld := ⟨DEC_STAT.reg e k, 5, 1⟩
abbrev DEC_STAT.SYNC_LOST (e k : Nat) : Fld := ⟨DEC_STAT.reg e k, 6, 1⟩
abbrev DEC_STAT.HL_ERASE (e k : Nat) : Fld := ⟨DEC_STAT.reg e k, 7, 1⟩
abbrev DEC_STAT.REPLAY (e k : Nat) : Fld := ⟨DEC_STAT.reg e k, 8, 1⟩
abbrev DEC_STAT.PASS (e k : Nat) : Fld := ⟨DEC_STAT.reg e k, 9, 2⟩
abbrev DEC_STAT.LDC_MAX (e k : Nat) : Fld := ⟨DEC_STAT.reg e k, 12, 6⟩
abbrev DEC_STAT.BIS_MAX (e k : Nat) : Fld := ⟨DEC_STAT.reg e k, 18, 6⟩
/-- DEC_SYM (R99). -/
abbrev DEC_SYM.reg (e k : Nat) : Reg := ⟨.ch, e, k, 0x168⟩
abbrev DEC_SYM.SYM (e k : Nat) : Fld := ⟨DEC_SYM.reg e k, 0, 16⟩
abbrev DEC_SYM.SYM2 (e k : Nat) : Fld := ⟨DEC_SYM.reg e k, 16, 16⟩
/-- DEC_EDC (R99). -/
abbrev DEC_EDC.reg (e k : Nat) : Reg := ⟨.ch, e, k, 0x16c⟩
abbrev DEC_EDC.FAIL (e k : Nat) : Fld := ⟨DEC_EDC.reg e k, 0, 32⟩
/-- DEC_ADDR (R99). -/
abbrev DEC_ADDR.reg (e k : Nat) : Reg := ⟨.ch, e, k, 0x170⟩
abbrev DEC_ADDR.CLUSTER (e k : Nat) : Fld := ⟨DEC_ADDR.reg e k, 0, 28⟩
abbrev DEC_ADDR.LAYER (e k : Nat) : Fld := ⟨DEC_ADDR.reg e k, 28, 3⟩
abbrev DEC_ADDR.VALID (e k : Nat) : Fld := ⟨DEC_ADDR.reg e k, 31, 1⟩
/-- RED (R99). -/
abbrev RED.reg (e k : Nat) : Reg := ⟨.ch, e, k, 0x178⟩
abbrev RED.IPH_SET (e k : Nat) : Fld := ⟨RED.reg e k, 0, 2⟩
abbrev RED.EQM_SET (e k : Nat) : Fld := ⟨RED.reg e k, 2, 2⟩
/-- RPL_CTRL (R99). -/
abbrev RPL_CTRL.reg (e k : Nat) : Reg := ⟨.ch, e, k, 0x180⟩
abbrev RPL_CTRL.CAP_ARM (e k : Nat) : Fld := ⟨RPL_CTRL.reg e k, 0, 1⟩
abbrev RPL_CTRL.PLAY (e k : Nat) : Fld := ⟨RPL_CTRL.reg e k, 1, 1⟩
abbrev RPL_CTRL.ABORT (e k : Nat) : Fld := ⟨RPL_CTRL.reg e k, 2, 1⟩
abbrev RPL_CTRL.CAPTURED (e k : Nat) : Fld := ⟨RPL_CTRL.reg e k, 3, 1⟩
abbrev RPL_CTRL.PASS (e k : Nat) : Fld := ⟨RPL_CTRL.reg e k, 4, 2⟩
/-- RPL_BASE (R99). -/
abbrev RPL_BASE.reg (e k : Nat) : Reg := ⟨.ch, e, k, 0x184⟩
abbrev RPL_BASE.BASE (e k : Nat) : Fld := ⟨RPL_BASE.reg e k, 0, 14⟩
/-- RPL_CLUSTER (R99). -/
abbrev RPL_CLUSTER.reg (e k : Nat) : Reg := ⟨.ch, e, k, 0x188⟩
abbrev RPL_CLUSTER.CLUSTER (e k : Nat) : Fld := ⟨RPL_CLUSTER.reg e k, 0, 28⟩
abbrev RPL_CLUSTER.LAYER (e k : Nat) : Fld := ⟨RPL_CLUSTER.reg e k, 28, 3⟩
/-- WPLL_CTRL (R100). -/
abbrev WPLL_CTRL.reg (e : Nat) : Reg := ⟨.wob, e, 0, 0x300⟩
abbrev WPLL_CTRL.ENABLE (e : Nat) : Fld := ⟨WPLL_CTRL.reg e, 0, 1⟩
abbrev WPLL_CTRL.BW (e : Nat) : Fld := ⟨WPLL_CTRL.reg e, 1, 3⟩
abbrev WPLL_CTRL.RESUME (e : Nat) : Fld := ⟨WPLL_CTRL.reg e, 4, 1⟩
/-- WPLL_STAT (R100). -/
abbrev WPLL_STAT.reg (e : Nat) : Reg := ⟨.wob, e, 0, 0x304⟩
abbrev WPLL_STAT.LOCK (e : Nat) : Fld := ⟨WPLL_STAT.reg e, 0, 1⟩
abbrev WPLL_STAT.HOLDOVER (e : Nat) : Fld := ⟨WPLL_STAT.reg e, 1, 1⟩
abbrev WPLL_STAT.STEER_SUSP (e : Nat) : Fld := ⟨WPLL_STAT.reg e, 2, 1⟩
abbrev WPLL_STAT.FB (e : Nat) : Fld := ⟨WPLL_STAT.reg e, 8, 24⟩
/-- ADIP_STAT (R100). -/
abbrev ADIP_STAT.reg (e : Nat) : Reg := ⟨.wob, e, 0, 0x308⟩
abbrev ADIP_STAT.ADDR (e : Nat) : Fld := ⟨ADIP_STAT.reg e, 0, 28⟩
abbrev ADIP_STAT.LAYER (e : Nat) : Fld := ⟨ADIP_STAT.reg e, 28, 3⟩
abbrev ADIP_STAT.VALID (e : Nat) : Fld := ⟨ADIP_STAT.reg e, 31, 1⟩
/-- WPLL_EVT (R100). -/
abbrev WPLL_EVT.reg (e : Nat) : Reg := ⟨.wob, e, 0, 0x30c⟩
abbrev WPLL_EVT.LOCK (e : Nat) : Fld := ⟨WPLL_EVT.reg e, 0, 1⟩
abbrev WPLL_EVT.LOCK_LOST (e : Nat) : Fld := ⟨WPLL_EVT.reg e, 1, 1⟩
abbrev WPLL_EVT.ADIP_ERR (e : Nat) : Fld := ⟨WPLL_EVT.reg e, 2, 1⟩
/-- WPLL_EVT_EN (R100). -/
abbrev WPLL_EVT_EN.reg (e : Nat) : Reg := ⟨.wob, e, 0, 0x310⟩
abbrev WPLL_EVT_EN.EN (e : Nat) : Fld := ⟨WPLL_EVT_EN.reg e, 0, 3⟩
/-- CAP_CTRL (R100). -/
abbrev CAP_CTRL.reg (e : Nat) : Reg := ⟨.wob, e, 0, 0x380⟩
abbrev CAP_CTRL.ARM (e : Nat) : Fld := ⟨CAP_CTRL.reg e, 0, 1⟩
abbrev CAP_CTRL.CHAIN (e : Nat) : Fld := ⟨CAP_CTRL.reg e, 1, 3⟩
abbrev CAP_CTRL.POINT (e : Nat) : Fld := ⟨CAP_CTRL.reg e, 4, 3⟩
abbrev CAP_CTRL.TRIG (e : Nat) : Fld := ⟨CAP_CTRL.reg e, 8, 2⟩
abbrev CAP_CTRL.PRE (e : Nat) : Fld := ⟨CAP_CTRL.reg e, 10, 6⟩
/-- CAP_STAT (R100). -/
abbrev CAP_STAT.reg (e : Nat) : Reg := ⟨.wob, e, 0, 0x384⟩
abbrev CAP_STAT.DONE (e : Nat) : Fld := ⟨CAP_STAT.reg e, 0, 1⟩
abbrev CAP_STAT.TRIGGERED (e : Nat) : Fld := ⟨CAP_STAT.reg e, 1, 1⟩
abbrev CAP_STAT.TRIG_POS (e : Nat) : Fld := ⟨CAP_STAT.reg e, 2, 16⟩
/-- SEAM_CTRL (R122). -/
abbrev SEAM_CTRL.reg (e : Nat) : Reg := ⟨.eng, e, 0, 0x4000⟩
abbrev SEAM_CTRL.RUN (e : Nat) : Fld := ⟨SEAM_CTRL.reg e, 0, 1⟩
abbrev SEAM_CTRL.DIR (e : Nat) : Fld := ⟨SEAM_CTRL.reg e, 1, 1⟩
abbrev SEAM_CTRL.CNT_CLR (e : Nat) : Fld := ⟨SEAM_CTRL.reg e, 2, 1⟩
/-- SEAM_CFG (R122). -/
abbrev SEAM_CFG.reg (e : Nat) : Reg := ⟨.eng, e, 0, 0x4004⟩
abbrev SEAM_CFG.ANGLE (e : Nat) : Fld := ⟨SEAM_CFG.reg e, 0, 12⟩
abbrev SEAM_CFG.WIN (e : Nat) : Fld := ⟨SEAM_CFG.reg e, 12, 9⟩
abbrev SEAM_CFG.TE_PORT (e : Nat) : Fld := ⟨SEAM_CFG.reg e, 24, 4⟩
/-- SEAM_SETTLE (R122). -/
abbrev SEAM_SETTLE.reg (e : Nat) : Reg := ⟨.eng, e, 0, 0x4008⟩
abbrev SEAM_SETTLE.TH (e : Nat) : Fld := ⟨SEAM_SETTLE.reg e, 0, 12⟩
abbrev SEAM_SETTLE.N (e : Nat) : Fld := ⟨SEAM_SETTLE.reg e, 12, 4⟩
/-- SEAM_STAT (R122). -/
abbrev SEAM_STAT.reg (e : Nat) : Reg := ⟨.eng, e, 0, 0x400c⟩
abbrev SEAM_STAT.STATE (e : Nat) : Fld := ⟨SEAM_STAT.reg e, 0, 2⟩
abbrev SEAM_STAT.IN_WIN (e : Nat) : Fld := ⟨SEAM_STAT.reg e, 2, 1⟩
abbrev SEAM_STAT.JUMPING (e : Nat) : Fld := ⟨SEAM_STAT.reg e, 3, 1⟩
abbrev SEAM_STAT.ANGLE_NOW (e : Nat) : Fld := ⟨SEAM_STAT.reg e, 4, 12⟩
abbrev SEAM_STAT.REV (e : Nat) : Fld := ⟨SEAM_STAT.reg e, 16, 16⟩
/-- SEAM_JS (R122). -/
abbrev SEAM_JS.reg (e : Nat) : Reg := ⟨.eng, e, 0, 0x4010⟩
abbrev SEAM_JS.LAST (e : Nat) : Fld := ⟨SEAM_JS.reg e, 0, 12⟩
abbrev SEAM_JS.MAX (e : Nat) : Fld := ⟨SEAM_JS.reg e, 12, 12⟩
/-- SEAM_EVT (R122). -/
abbrev SEAM_EVT.reg (e : Nat) : Reg := ⟨.eng, e, 0, 0x4014⟩
abbrev SEAM_EVT.OPENED (e : Nat) : Fld := ⟨SEAM_EVT.reg e, 0, 1⟩
abbrev SEAM_EVT.CLOSED (e : Nat) : Fld := ⟨SEAM_EVT.reg e, 1, 1⟩
abbrev SEAM_EVT.LATE (e : Nat) : Fld := ⟨SEAM_EVT.reg e, 2, 1⟩
abbrev SEAM_EVT.STITCH_GAP (e : Nat) : Fld := ⟨SEAM_EVT.reg e, 3, 1⟩
abbrev SEAM_EVT.RAS_FULL (e : Nat) : Fld := ⟨SEAM_EVT.reg e, 4, 1⟩
abbrev SEAM_EVT.MISSING (e : Nat) : Fld := ⟨SEAM_EVT.reg e, 5, 1⟩
/-- SEAM_EVT_EN (R122). -/
abbrev SEAM_EVT_EN.reg (e : Nat) : Reg := ⟨.eng, e, 0, 0x4018⟩
abbrev SEAM_EVT_EN.EN (e : Nat) : Fld := ⟨SEAM_EVT_EN.reg e, 0, 6⟩
/-- RAS_BASE (R122). -/
abbrev RAS_BASE.reg (e : Nat) : Reg := ⟨.eng, e, 0, 0x4020⟩
abbrev RAS_BASE.BASE (e : Nat) : Fld := ⟨RAS_BASE.reg e, 3, 11⟩
/-- RAS_CFG (R122). -/
abbrev RAS_CFG.reg (e : Nat) : Reg := ⟨.eng, e, 0, 0x4024⟩
abbrev RAS_CFG.MIN_OVL (e : Nat) : Fld := ⟨RAS_CFG.reg e, 0, 3⟩
abbrev RAS_CFG.MQ (e : Nat) : Fld := ⟨RAS_CFG.reg e, 4, 6⟩
abbrev RAS_CFG.AHEAD (e : Nat) : Fld := ⟨RAS_CFG.reg e, 10, 7⟩
/-- RAS_STAT (R122). -/
abbrev RAS_STAT.reg (e : Nat) : Reg := ⟨.eng, e, 0, 0x4028⟩
abbrev RAS_STAT.SLOTS_USED (e : Nat) : Fld := ⟨RAS_STAT.reg e, 0, 7⟩
abbrev RAS_STAT.FULL (e : Nat) : Fld := ⟨RAS_STAT.reg e, 7, 1⟩
abbrev RAS_STAT.STITCH_USED (e : Nat) : Fld := ⟨RAS_STAT.reg e, 8, 5⟩
abbrev RAS_STAT.BAD_FREE (e : Nat) : Fld := ⟨RAS_STAT.reg e, 13, 1⟩
/-- RAS_NEXT (R122). -/
abbrev RAS_NEXT.reg (e : Nat) : Reg := ⟨.eng, e, 0, 0x402c⟩
abbrev RAS_NEXT.CLUSTER (e : Nat) : Fld := ⟨RAS_NEXT.reg e, 0, 28⟩
abbrev RAS_NEXT.LAYER (e : Nat) : Fld := ⟨RAS_NEXT.reg e, 28, 3⟩
abbrev RAS_NEXT.VALID (e : Nat) : Fld := ⟨RAS_NEXT.reg e, 31, 1⟩
/-- RAS_CNT (R122). -/
abbrev RAS_CNT.reg (e : Nat) : Reg := ⟨.eng, e, 0, 0x4030⟩
abbrev RAS_CNT.DUP (e : Nat) : Fld := ⟨RAS_CNT.reg e, 0, 8⟩
abbrev RAS_CNT.STITCHED (e : Nat) : Fld := ⟨RAS_CNT.reg e, 8, 8⟩
abbrev RAS_CNT.MISSING (e : Nat) : Fld := ⟨RAS_CNT.reg e, 16, 8⟩
abbrev RAS_CNT.GAP (e : Nat) : Fld := ⟨RAS_CNT.reg e, 24, 8⟩
/-- RAS_FIRST (R122). -/
abbrev RAS_FIRST.reg (e : Nat) : Reg := ⟨.eng, e, 0, 0x4034⟩
abbrev RAS_FIRST.CLUSTER (e : Nat) : Fld := ⟨RAS_FIRST.reg e, 0, 28⟩
abbrev RAS_FIRST.LAYER (e : Nat) : Fld := ⟨RAS_FIRST.reg e, 28, 3⟩
/-- RAS_LAST (R122). -/
abbrev RAS_LAST.reg (e : Nat) : Reg := ⟨.eng, e, 0, 0x4038⟩
abbrev RAS_LAST.CLUSTER (e : Nat) : Fld := ⟨RAS_LAST.reg e, 0, 28⟩
abbrev RAS_LAST.LAYER (e : Nat) : Fld := ⟨RAS_LAST.reg e, 28, 3⟩
/-- RAS_FREE (R122). -/
abbrev RAS_FREE.reg (e : Nat) : Reg := ⟨.eng, e, 0, 0x403c⟩
abbrev RAS_FREE.SLOT (e : Nat) : Fld := ⟨RAS_FREE.reg e, 0, 6⟩
/-- WR_CTRL (R146). -/
abbrev WR_CTRL.reg (e : Nat) : Reg := ⟨.eng, e, 0, 0x5000⟩
abbrev WR_CTRL.LASER_EN (e : Nat) : Fld := ⟨WR_CTRL.reg e, 0, 1⟩
abbrev WR_CTRL.GO (e : Nat) : Fld := ⟨WR_CTRL.reg e, 1, 1⟩
abbrev WR_CTRL.STOP (e : Nat) : Fld := ⟨WR_CTRL.reg e, 2, 1⟩
abbrev WR_CTRL.OPC_GO (e : Nat) : Fld := ⟨WR_CTRL.reg e, 3, 1⟩
abbrev WR_CTRL.CNT_CLR (e : Nat) : Fld := ⟨WR_CTRL.reg e, 4, 1⟩
/-- WR_CFG (R146). -/
abbrev WR_CFG.reg (e : Nat) : Reg := ⟨.eng, e, 0, 0x5004⟩
abbrev WR_CFG.BLANK_CHK (e : Nat) : Fld := ⟨WR_CFG.reg e, 0, 1⟩
abbrev WR_CFG.VFAIL_RUN (e : Nat) : Fld := ⟨WR_CFG.reg e, 1, 3⟩
abbrev WR_CFG.MQ (e : Nat) : Fld := ⟨WR_CFG.reg e, 4, 6⟩
abbrev WR_CFG.WOFFS (e : Nat) : Fld := ⟨WR_CFG.reg e, 12, 10⟩
/-- WR_STAT (R146). -/
abbrev WR_STAT.reg (e : Nat) : Reg := ⟨.eng, e, 0, 0x5008⟩
abbrev WR_STAT.STATE (e : Nat) : Fld := ⟨WR_STAT.reg e, 0, 3⟩
abbrev WR_STAT.GATE (e : Nat) : Fld := ⟨WR_STAT.reg e, 3, 1⟩
abbrev WR_STAT.ILK_OPEN (e : Nat) : Fld := ⟨WR_STAT.reg e, 4, 1⟩
abbrev WR_STAT.ILK_HOLD (e : Nat) : Fld := ⟨WR_STAT.reg e, 5, 1⟩
abbrev WR_STAT.VER_SPOT (e : Nat) : Fld := ⟨WR_STAT.reg e, 6, 2⟩
abbrev WR_STAT.VFAIL_NOW (e : Nat) : Fld := ⟨WR_STAT.reg e, 8, 4⟩
abbrev WR_STAT.INFLIGHT (e : Nat) : Fld := ⟨WR_STAT.reg e, 12, 7⟩
/-- WR_EVT (R146). -/
abbrev WR_EVT.reg (e : Nat) : Reg := ⟨.eng, e, 0, 0x500c⟩
abbrev WR_EVT.DONE (e : Nat) : Fld := ⟨WR_EVT.reg e, 0, 1⟩
abbrev WR_EVT.VFAIL (e : Nat) : Fld := ⟨WR_EVT.reg e, 1, 1⟩
abbrev WR_EVT.VFAIL_STOP (e : Nat) : Fld := ⟨WR_EVT.reg e, 2, 1⟩
abbrev WR_EVT.ABORT (e : Nat) : Fld := ⟨WR_EVT.reg e, 3, 1⟩
abbrev WR_EVT.STARVED (e : Nat) : Fld := ⟨WR_EVT.reg e, 4, 1⟩
abbrev WR_EVT.NOT_BLANK (e : Nat) : Fld := ⟨WR_EVT.reg e, 5, 1⟩
abbrev WR_EVT.ADIP_MISMATCH (e : Nat) : Fld := ⟨WR_EVT.reg e, 6, 1⟩
abbrev WR_EVT.SEQ_ERR (e : Nat) : Fld := ⟨WR_EVT.reg e, 7, 1⟩
abbrev WR_EVT.ILK (e : Nat) : Fld := ⟨WR_EVT.reg e, 8, 1⟩
abbrev WR_EVT.OPC_DONE (e : Nat) : Fld := ⟨WR_EVT.reg e, 9, 1⟩
abbrev WR_EVT.GO_REJ (e : Nat) : Fld := ⟨WR_EVT.reg e, 10, 1⟩
abbrev WR_EVT.RING_ERR (e : Nat) : Fld := ⟨WR_EVT.reg e, 11, 1⟩
/-- WR_EVT_EN (R146). -/
abbrev WR_EVT_EN.reg (e : Nat) : Reg := ⟨.eng, e, 0, 0x5010⟩
abbrev WR_EVT_EN.EN (e : Nat) : Fld := ⟨WR_EVT_EN.reg e, 0, 12⟩
/-- WR_PWR0 (R146). -/
abbrev WR_PWR0.reg (e : Nat) : Reg := ⟨.eng, e, 0, 0x5014⟩
abbrev WR_PWR0.P_READ (e : Nat) : Fld := ⟨WR_PWR0.reg e, 0, 12⟩
abbrev WR_PWR0.P_ERASE (e : Nat) : Fld := ⟨WR_PWR0.reg e, 16, 12⟩
/-- WR_PWR1 (R146). -/
abbrev WR_PWR1.reg (e : Nat) : Reg := ⟨.eng, e, 0, 0x5018⟩
abbrev WR_PWR1.P_COOL (e : Nat) : Fld := ⟨WR_PWR1.reg e, 0, 12⟩
abbrev WR_PWR1.P_PEAK (e : Nat) : Fld := ⟨WR_PWR1.reg e, 16, 12⟩
/-- WR_VLIM (R146). -/
abbrev WR_VLIM.reg (e : Nat) : Reg := ⟨.eng, e, 0, 0x501c⟩
abbrev WR_VLIM.LDC_LIM (e : Nat) : Fld := ⟨WR_VLIM.reg e, 0, 6⟩
abbrev WR_VLIM.BIS_LIM (e : Nat) : Fld := ⟨WR_VLIM.reg e, 8, 6⟩
/-- WR_RING (R146). -/
abbrev WR_RING.reg (e : Nat) : Reg := ⟨.eng, e, 0, 0x5020⟩
abbrev WR_RING.BASE (e : Nat) : Fld := ⟨WR_RING.reg e, 0, 24⟩
/-- WR_PROD (R146). -/
abbrev WR_PROD.reg (e : Nat) : Reg := ⟨.eng, e, 0, 0x5024⟩
abbrev WR_PROD.PROD (e : Nat) : Fld := ⟨WR_PROD.reg e, 0, 7⟩
/-- WR_CONS (R146). -/
abbrev WR_CONS.reg (e : Nat) : Reg := ⟨.eng, e, 0, 0x5028⟩
abbrev WR_CONS.CONS (e : Nat) : Fld := ⟨WR_CONS.reg e, 0, 7⟩
abbrev WR_CONS.NEXT (e : Nat) : Fld := ⟨WR_CONS.reg e, 8, 7⟩
/-- WR_WPOS (R146). -/
abbrev WR_WPOS.reg (e : Nat) : Reg := ⟨.eng, e, 0, 0x502c⟩
abbrev WR_WPOS.WPOS (e : Nat) : Fld := ⟨WR_WPOS.reg e, 0, 31⟩
/-- WR_ROPC (R146). -/
abbrev WR_ROPC.reg (e : Nat) : Reg := ⟨.eng, e, 0, 0x5030⟩
abbrev WR_ROPC.EN (e : Nat) : Fld := ⟨WR_ROPC.reg e, 0, 1⟩
abbrev WR_ROPC.K (e : Nat) : Fld := ⟨WR_ROPC.reg e, 1, 3⟩
abbrev WR_ROPC.LIM (e : Nat) : Fld := ⟨WR_ROPC.reg e, 8, 8⟩
abbrev WR_ROPC.FF_EN (e : Nat) : Fld := ⟨WR_ROPC.reg e, 16, 1⟩
abbrev WR_ROPC.FF_LIM (e : Nat) : Fld := ⟨WR_ROPC.reg e, 20, 4⟩
/-- WR_BETA (R146). -/
abbrev WR_BETA.reg (e : Nat) : Reg := ⟨.eng, e, 0, 0x5034⟩
abbrev WR_BETA.BETA (e : Nat) : Fld := ⟨WR_BETA.reg e, 0, 16⟩
abbrev WR_BETA.LEVEL (e : Nat) : Fld := ⟨WR_BETA.reg e, 16, 16⟩
/-- WR_OPC_CFG (R146). -/
abbrev WR_OPC_CFG.reg (e : Nat) : Reg := ⟨.eng, e, 0, 0x5040⟩
abbrev WR_OPC_CFG.P_BASE (e : Nat) : Fld := ⟨WR_OPC_CFG.reg e, 0, 12⟩
abbrev WR_OPC_CFG.P_INC (e : Nat) : Fld := ⟨WR_OPC_CFG.reg e, 12, 8⟩
abbrev WR_OPC_CFG.STEPS (e : Nat) : Fld := ⟨WR_OPC_CFG.reg e, 20, 4⟩
/-- WR_OPC_TGT (R146). -/
abbrev WR_OPC_TGT.reg (e : Nat) : Reg := ⟨.eng, e, 0, 0x5044⟩
abbrev WR_OPC_TGT.BETA_TGT (e : Nat) : Fld := ⟨WR_OPC_TGT.reg e, 0, 16⟩
/-- WR_OPC_ADDR (R146). -/
abbrev WR_OPC_ADDR.reg (e : Nat) : Reg := ⟨.eng, e, 0, 0x5048⟩
abbrev WR_OPC_ADDR.CLUSTER (e : Nat) : Fld := ⟨WR_OPC_ADDR.reg e, 0, 28⟩
abbrev WR_OPC_ADDR.LAYER (e : Nat) : Fld := ⟨WR_OPC_ADDR.reg e, 28, 3⟩
/-- WR_OPC_RES (R146). -/
abbrev WR_OPC_RES.reg (e : Nat) : Reg := ⟨.eng, e, 0, 0x504c⟩
abbrev WR_OPC_RES.P_OPT (e : Nat) : Fld := ⟨WR_OPC_RES.reg e, 0, 12⟩
abbrev WR_OPC_RES.VALID (e : Nat) : Fld := ⟨WR_OPC_RES.reg e, 12, 1⟩
abbrev WR_OPC_RES.REFL (e : Nat) : Fld := ⟨WR_OPC_RES.reg e, 16, 16⟩
/-- WR_OPC_BETA (R146). -/
abbrev WR_OPC_BETA.reg (e : Nat) (s : Nat) : Reg := ⟨.eng, e, 0, 0x5050 + 4 * s⟩
abbrev WR_OPC_BETA.BETA (e : Nat) (s : Nat) : Fld := ⟨WR_OPC_BETA.reg e s, 0, 16⟩
abbrev WR_OPC_BETA.VALID (e : Nat) (s : Nat) : Fld := ⟨WR_OPC_BETA.reg e s, 16, 1⟩
/-- WR_AHEAD (R146). -/
abbrev WR_AHEAD.reg (e : Nat) (a : Nat) : Reg := ⟨.eng, e, 0, 0x5090 + 4 * a⟩
abbrev WR_AHEAD.ADDR (e : Nat) (a : Nat) : Fld := ⟨WR_AHEAD.reg e a, 0, 28⟩
abbrev WR_AHEAD.LAYER (e : Nat) (a : Nat) : Fld := ⟨WR_AHEAD.reg e a, 28, 3⟩
abbrev WR_AHEAD.VALID (e : Nat) (a : Nat) : Fld := ⟨WR_AHEAD.reg e a, 31, 1⟩
/-- WR_CNT (R146). -/
abbrev WR_CNT.reg (e : Nat) : Reg := ⟨.eng, e, 0, 0x50a0⟩
abbrev WR_CNT.PASSED (e : Nat) : Fld := ⟨WR_CNT.reg e, 0, 16⟩
abbrev WR_CNT.FAILED (e : Nat) : Fld := ⟨WR_CNT.reg e, 16, 8⟩
abbrev WR_CNT.ABORTS (e : Nat) : Fld := ⟨WR_CNT.reg e, 24, 8⟩
/-- WR_STRAT_LO (R146). -/
abbrev WR_STRAT_LO.reg (e : Nat) (L : Nat) : Reg := ⟨.eng, e, 0, 0x5100 + 8 * (L - 2)⟩
abbrev WR_STRAT_LO.SYM (e : Nat) (L : Nat) : Fld := ⟨WR_STRAT_LO.reg e L, 0, 32⟩
/-- WR_STRAT_HI (R146). -/
abbrev WR_STRAT_HI.reg (e : Nat) (L : Nat) : Reg := ⟨.eng, e, 0, 0x5104 + 8 * (L - 2)⟩
abbrev WR_STRAT_HI.SYM (e : Nat) (L : Nat) : Fld := ⟨WR_STRAT_HI.reg e L, 0, 8⟩
/-- TMP_CTRL (R170). -/
abbrev TMP_CTRL.reg (e : Nat) : Reg := ⟨.eng, e, 0, 0x6000⟩
abbrev TMP_CTRL.EN (e : Nat) : Fld := ⟨TMP_CTRL.reg e, 0, 1⟩
abbrev TMP_CTRL.START (e : Nat) : Fld := ⟨TMP_CTRL.reg e, 1, 1⟩
abbrev TMP_CTRL.ABORT (e : Nat) : Fld := ⟨TMP_CTRL.reg e, 2, 1⟩
abbrev TMP_CTRL.TARGET (e : Nat) : Fld := ⟨TMP_CTRL.reg e, 3, 3⟩
abbrev TMP_CTRL.CNT_CLR (e : Nat) : Fld := ⟨TMP_CTRL.reg e, 6, 1⟩
/-- TMP_CFG (R170). -/
abbrev TMP_CFG.reg (e : Nat) : Reg := ⟨.eng, e, 0, 0x6004⟩
abbrev TMP_CFG.PERIOD (e : Nat) : Fld := ⟨TMP_CFG.reg e, 0, 8⟩
abbrev TMP_CFG.MATCH_N (e : Nat) : Fld := ⟨TMP_CFG.reg e, 8, 4⟩
abbrev TMP_CFG.CONV_MAX (e : Nat) : Fld := ⟨TMP_CFG.reg e, 12, 8⟩
abbrev TMP_CFG.MEAS (e : Nat) : Fld := ⟨TMP_CFG.reg e, 20, 4⟩
abbrev TMP_CFG.RETRY_DLY (e : Nat) : Fld := ⟨TMP_CFG.reg e, 24, 8⟩
/-- TMP_TOL (R170). -/
abbrev TMP_TOL.reg (e : Nat) : Reg := ⟨.eng, e, 0, 0x6008⟩
abbrev TMP_TOL.OFFS (e : Nat) : Fld := ⟨TMP_TOL.reg e, 0, 8⟩
abbrev TMP_TOL.GAIN (e : Nat) : Fld := ⟨TMP_TOL.reg e, 8, 8⟩
abbrev TMP_TOL.MSE_MARGIN (e : Nat) : Fld := ⟨TMP_TOL.reg e, 16, 6⟩
/-- TMP_STAT (R170). -/
abbrev TMP_STAT.reg (e : Nat) : Reg := ⟨.eng, e, 0, 0x600c⟩
abbrev TMP_STAT.STATE (e : Nat) : Fld := ⟨TMP_STAT.reg e, 0, 4⟩
abbrev TMP_STAT.TARGET (e : Nat) : Fld := ⟨TMP_STAT.reg e, 4, 3⟩
abbrev TMP_STAT.DELIV (e : Nat) : Fld := ⟨TMP_STAT.reg e, 7, 3⟩
abbrev TMP_STAT.LAST_RES (e : Nat) : Fld := ⟨TMP_STAT.reg e, 10, 4⟩
abbrev TMP_STAT.GEN (e : Nat) : Fld := ⟨TMP_STAT.reg e, 16, 8⟩
/-- TMP_EVT (R170). -/
abbrev TMP_EVT.reg (e : Nat) : Reg := ⟨.eng, e, 0, 0x6010⟩
abbrev TMP_EVT.DONE (e : Nat) : Fld := ⟨TMP_EVT.reg e, 0, 1⟩
abbrev TMP_EVT.TAKEOVER (e : Nat) : Fld := ⟨TMP_EVT.reg e, 1, 1⟩
abbrev TMP_EVT.PREEMPT (e : Nat) : Fld := ⟨TMP_EVT.reg e, 2, 1⟩
abbrev TMP_EVT.START_REJ (e : Nat) : Fld := ⟨TMP_EVT.reg e, 3, 1⟩
abbrev TMP_EVT.STUCK (e : Nat) : Fld := ⟨TMP_EVT.reg e, 4, 1⟩
abbrev TMP_EVT.FREQ_ERR (e : Nat) : Fld := ⟨TMP_EVT.reg e, 5, 1⟩
abbrev TMP_EVT.BAD_WRITE (e : Nat) : Fld := ⟨TMP_EVT.reg e, 6, 1⟩
/-- TMP_EVT_EN (R170). -/
abbrev TMP_EVT_EN.reg (e : Nat) : Reg := ⟨.eng, e, 0, 0x6014⟩
abbrev TMP_EVT_EN.EN (e : Nat) : Fld := ⟨TMP_EVT_EN.reg e, 0, 7⟩
/-- TMP_FREQ (R170). -/
abbrev TMP_FREQ.reg (e : Nat) : Reg := ⟨.eng, e, 0, 0x6018⟩
abbrev TMP_FREQ.PPM (e : Nat) : Fld := ⟨TMP_FREQ.reg e, 0, 16⟩
abbrev TMP_FREQ.VALID (e : Nat) : Fld := ⟨TMP_FREQ.reg e, 16, 1⟩
/-- TMP_CNT (R170). -/
abbrev TMP_CNT.reg (e : Nat) : Reg := ⟨.eng, e, 0, 0x601c⟩
abbrev TMP_CNT.ACCEPTED (e : Nat) : Fld := ⟨TMP_CNT.reg e, 0, 16⟩
abbrev TMP_CNT.REJECTED (e : Nat) : Fld := ⟨TMP_CNT.reg e, 16, 8⟩
abbrev TMP_CNT.ENDED (e : Nat) : Fld := ⟨TMP_CNT.reg e, 24, 8⟩
/-- TMP_MSE (R170). -/
abbrev TMP_MSE.reg (e : Nat) (c : Nat) : Reg := ⟨.eng, e, 0, 0x6020 + 4 * c⟩
abbrev TMP_MSE.MSE (e : Nat) (c : Nat) : Fld := ⟨TMP_MSE.reg e c, 0, 16⟩
/-- TMP_ADCMAP (R170). -/
abbrev TMP_ADCMAP.reg (e : Nat) (a : Nat) : Reg := ⟨.eng, e, 0, 0x6100 + 4 * a⟩
abbrev TMP_ADCMAP.MAP (e : Nat) (a : Nat) : Fld := ⟨TMP_ADCMAP.reg e a, 0, 10⟩
/-- TMP_ADCTRIM (R170). -/
abbrev TMP_ADCTRIM.reg (e : Nat) (a : Nat) (s : Nat) : Reg := ⟨.eng, e, 0, 0x6200 + 64 * a + 4 * s⟩
abbrev TMP_ADCTRIM.OFFS (e : Nat) (a : Nat) (s : Nat) : Fld := ⟨TMP_ADCTRIM.reg e a s, 0, 16⟩
abbrev TMP_ADCTRIM.GAIN (e : Nat) (a : Nat) (s : Nat) : Fld := ⟨TMP_ADCTRIM.reg e a s, 16, 16⟩
/-- RTY_CFG (R170). -/
abbrev RTY_CFG.reg (e : Nat) : Reg := ⟨.eng, e, 0, 0x6800⟩
abbrev RTY_CFG.RUNG_EN (e : Nat) : Fld := ⟨RTY_CFG.reg e, 0, 7⟩
abbrev RTY_CFG.TRIES1 (e : Nat) : Fld := ⟨RTY_CFG.reg e, 7, 3⟩
abbrev RTY_CFG.ALT_TRIES (e : Nat) : Fld := ⟨RTY_CFG.reg e, 10, 2⟩
abbrev RTY_CFG.SLOW_PCT (e : Nat) : Fld := ⟨RTY_CFG.reg e, 12, 7⟩
abbrev RTY_CFG.ITER (e : Nat) : Fld := ⟨RTY_CFG.reg e, 19, 3⟩
/-- RTY_OFFS (R170). -/
abbrev RTY_OFFS.reg (e : Nat) : Reg := ⟨.eng, e, 0, 0x6804⟩
abbrev RTY_OFFS.TE_OFFS (e : Nat) : Fld := ⟨RTY_OFFS.reg e, 0, 12⟩
abbrev RTY_OFFS.FE_OFFS (e : Nat) : Fld := ⟨RTY_OFFS.reg e, 12, 12⟩
/-- RTY_STAT (R170). -/
abbrev RTY_STAT.reg (e : Nat) : Reg := ⟨.eng, e, 0, 0x6808⟩
abbrev RTY_STAT.ACTIVE (e : Nat) : Fld := ⟨RTY_STAT.reg e, 0, 1⟩
abbrev RTY_STAT.RUNG (e : Nat) : Fld := ⟨RTY_STAT.reg e, 1, 3⟩
abbrev RTY_STAT.ATTEMPT (e : Nat) : Fld := ⟨RTY_STAT.reg e, 4, 3⟩
abbrev RTY_STAT.QUEUED (e : Nat) : Fld := ⟨RTY_STAT.reg e, 7, 8⟩
/-- RTY_CNT (R170). -/
abbrev RTY_CNT.reg (e : Nat) (r : Nat) : Reg := ⟨.eng, e, 0, 0x6810 + 4 * (r - 1)⟩
abbrev RTY_CNT.COUNT (e : Nat) (r : Nat) : Fld := ⟨RTY_CNT.reg e r, 0, 16⟩
/-- ANV_CTRL (R198). -/
abbrev ANV_CTRL.reg (e : Nat) : Reg := ⟨.eng, e, 0, 0x8000⟩
abbrev ANV_CTRL.RUN (e : Nat) : Fld := ⟨ANV_CTRL.reg e, 0, 1⟩
abbrev ANV_CTRL.BANK (e : Nat) : Fld := ⟨ANV_CTRL.reg e, 1, 1⟩
abbrev ANV_CTRL.TRIP_CLR (e : Nat) : Fld := ⟨ANV_CTRL.reg e, 2, 1⟩
abbrev ANV_CTRL.CNT_CLR (e : Nat) : Fld := ⟨ANV_CTRL.reg e, 3, 1⟩
/-- ANV_STAT (R198). -/
abbrev ANV_STAT.reg (e : Nat) : Reg := ⟨.eng, e, 0, 0x8004⟩
abbrev ANV_STAT.RUNNING (e : Nat) : Fld := ⟨ANV_STAT.reg e, 0, 1⟩
abbrev ANV_STAT.BANK_ACT (e : Nat) : Fld := ⟨ANV_STAT.reg e, 1, 1⟩
abbrev ANV_STAT.SW_PEND (e : Nat) : Fld := ⟨ANV_STAT.reg e, 2, 1⟩
abbrev ANV_STAT.SAT_TRIP (e : Nat) : Fld := ⟨ANV_STAT.reg e, 3, 1⟩
abbrev ANV_STAT.FAULT_TRIP (e : Nat) : Fld := ⟨ANV_STAT.reg e, 4, 1⟩
abbrev ANV_STAT.STALE (e : Nat) : Fld := ⟨ANV_STAT.reg e, 5, 1⟩
abbrev ANV_STAT.PC (e : Nat) : Fld := ⟨ANV_STAT.reg e, 8, 11⟩
/-- ANV_TICK (R198). -/
abbrev ANV_TICK.reg (e : Nat) : Reg := ⟨.eng, e, 0, 0x8008⟩
abbrev ANV_TICK.TICK_N (e : Nat) : Fld := ⟨ANV_TICK.reg e, 0, 5⟩
/-- ANV_START (R198). -/
abbrev ANV_START.reg (e : Nat) : Reg := ⟨.eng, e, 0, 0x800c⟩
abbrev ANV_START.START0 (e : Nat) : Fld := ⟨ANV_START.reg e, 0, 11⟩
abbrev ANV_START.START1 (e : Nat) : Fld := ⟨ANV_START.reg e, 16, 11⟩
/-- ANV_EVT (R198). -/
abbrev ANV_EVT.reg (e : Nat) : Reg := ⟨.eng, e, 0, 0x8010⟩
abbrev ANV_EVT.OVERRUN (e : Nat) : Fld := ⟨ANV_EVT.reg e, 0, 1⟩
abbrev ANV_EVT.SAT_TRIP (e : Nat) : Fld := ⟨ANV_EVT.reg e, 1, 1⟩
abbrev ANV_EVT.FAULT (e : Nat) : Fld := ⟨ANV_EVT.reg e, 2, 1⟩
abbrev ANV_EVT.STALE (e : Nat) : Fld := ⟨ANV_EVT.reg e, 3, 1⟩
abbrev ANV_EVT.PM_REJ (e : Nat) : Fld := ⟨ANV_EVT.reg e, 4, 1⟩
abbrev ANV_EVT.SWITCHED (e : Nat) : Fld := ⟨ANV_EVT.reg e, 5, 1⟩
abbrev ANV_EVT.AOVF (e : Nat) : Fld := ⟨ANV_EVT.reg e, 6, 1⟩
abbrev ANV_EVT.BOVF (e : Nat) : Fld := ⟨ANV_EVT.reg e, 7, 1⟩
abbrev ANV_EVT.XOVF (e : Nat) : Fld := ⟨ANV_EVT.reg e, 8, 1⟩
/-- ANV_EVT_EN (R198). -/
abbrev ANV_EVT_EN.reg (e : Nat) : Reg := ⟨.eng, e, 0, 0x8014⟩
abbrev ANV_EVT_EN.EN (e : Nat) : Fld := ⟨ANV_EVT_EN.reg e, 0, 9⟩
/-- ANV_SUP (R198). -/
abbrev ANV_SUP.reg (e : Nat) : Reg := ⟨.eng, e, 0, 0x8018⟩
abbrev ANV_SUP.SAT_MASK (e : Nat) : Fld := ⟨ANV_SUP.reg e, 0, 8⟩
abbrev ANV_SUP.HOLD_MASK (e : Nat) : Fld := ⟨ANV_SUP.reg e, 8, 8⟩
abbrev ANV_SUP.LIM (e : Nat) : Fld := ⟨ANV_SUP.reg e, 16, 16⟩
/-- ANV_CNT (R198). -/
abbrev ANV_CNT.reg (e : Nat) : Reg := ⟨.eng, e, 0, 0x801c⟩
abbrev ANV_CNT.OVR (e : Nat) : Fld := ⟨ANV_CNT.reg e, 0, 16⟩
abbrev ANV_CNT.STALE (e : Nat) : Fld := ⟨ANV_CNT.reg e, 16, 8⟩
abbrev ANV_CNT.TRIPS (e : Nat) : Fld := ⟨ANV_CNT.reg e, 24, 8⟩
/-- ANV_CYC (R198). -/
abbrev ANV_CYC.reg (e : Nat) : Reg := ⟨.eng, e, 0, 0x8020⟩
abbrev ANV_CYC.LAST (e : Nat) : Fld := ⟨ANV_CYC.reg e, 0, 16⟩
abbrev ANV_CYC.MAX (e : Nat) : Fld := ⟨ANV_CYC.reg e, 16, 16⟩
/-- ANV_FAULT (R198). -/
abbrev ANV_FAULT.reg (e : Nat) : Reg := ⟨.eng, e, 0, 0x8024⟩
abbrev ANV_FAULT.PC (e : Nat) : Fld := ⟨ANV_FAULT.reg e, 0, 11⟩
abbrev ANV_FAULT.BANK (e : Nat) : Fld := ⟨ANV_FAULT.reg e, 11, 1⟩
abbrev ANV_FAULT.CAUSE (e : Nat) : Fld := ⟨ANV_FAULT.reg e, 12, 2⟩
/-- ANV_X (R198). -/
abbrev ANV_X.reg (e : Nat) (x : Nat) : Reg := ⟨.eng, e, 0, 0x8040 + 4 * x⟩
abbrev ANV_X.X (e : Nat) (x : Nat) : Fld := ⟨ANV_X.reg e x, 0, 5⟩
/-- ANV_CLAMP (R198). -/
abbrev ANV_CLAMP.reg (e : Nat) (q : Nat) : Reg := ⟨.eng, e, 0, 0x8080 + 8 * q⟩
abbrev ANV_CLAMP.LO (e : Nat) (q : Nat) : Fld := ⟨ANV_CLAMP.reg e q, 0, 14⟩
abbrev ANV_CLAMP.HI (e : Nat) (q : Nat) : Fld := ⟨ANV_CLAMP.reg e q, 16, 14⟩
/-- ANV_SAFE (R198). -/
abbrev ANV_SAFE.reg (e : Nat) (q : Nat) : Reg := ⟨.eng, e, 0, 0x8084 + 8 * q⟩
abbrev ANV_SAFE.SAFE (e : Nat) (q : Nat) : Fld := ⟨ANV_SAFE.reg e q, 0, 14⟩
/-- ANV_PORT (R198). -/
abbrev ANV_PORT.reg (e : Nat) (q : Nat) : Reg := ⟨.eng, e, 0, 0x80c0 + 4 * q⟩
abbrev ANV_PORT.VALUE (e : Nat) (q : Nat) : Fld := ⟨ANV_PORT.reg e q, 0, 24⟩
abbrev ANV_PORT.SAT (e : Nat) (q : Nat) : Fld := ⟨ANV_PORT.reg e q, 24, 1⟩
/-- ANV_IN (R198). -/
abbrev ANV_IN.reg (e : Nat) (p : Nat) : Reg := ⟨.eng, e, 0, 0x8100 + 4 * p⟩
abbrev ANV_IN.VALUE (e : Nat) (p : Nat) : Fld := ⟨ANV_IN.reg e p, 0, 24⟩
/-- ANV_RAMP_TGT (R198). -/
abbrev ANV_RAMP_TGT.reg (e : Nat) (r : Nat) : Reg := ⟨.eng, e, 0, 0x8200 + 8 * r⟩
abbrev ANV_RAMP_TGT.TARGET (e : Nat) (r : Nat) : Fld := ⟨ANV_RAMP_TGT.reg e r, 0, 24⟩
/-- ANV_RAMP_CFG (R198). -/
abbrev ANV_RAMP_CFG.reg (e : Nat) (r : Nat) : Reg := ⟨.eng, e, 0, 0x8204 + 8 * r⟩
abbrev ANV_RAMP_CFG.STEP (e : Nat) (r : Nat) : Fld := ⟨ANV_RAMP_CFG.reg e r, 0, 16⟩
abbrev ANV_RAMP_CFG.SRC (e : Nat) (r : Nat) : Fld := ⟨ANV_RAMP_CFG.reg e r, 16, 4⟩
abbrev ANV_RAMP_CFG.INIT (e : Nat) (r : Nat) : Fld := ⟨ANV_RAMP_CFG.reg e r, 20, 1⟩
abbrev ANV_RAMP_CFG.DONE (e : Nat) (r : Nat) : Fld := ⟨ANV_RAMP_CFG.reg e r, 21, 1⟩
/-- SLG_CTRL (R211). -/
abbrev SLG_CTRL.reg (e : Nat) : Reg := ⟨.eng, e, 0, 0x7c00⟩
abbrev SLG_CTRL.EN (e : Nat) : Fld := ⟨SLG_CTRL.reg e, 0, 1⟩
abbrev SLG_CTRL.TPR (e : Nat) : Fld := ⟨SLG_CTRL.reg e, 1, 3⟩
abbrev SLG_CTRL.DIR (e : Nat) : Fld := ⟨SLG_CTRL.reg e, 4, 1⟩
abbrev SLG_CTRL.LOAD (e : Nat) : Fld := ⟨SLG_CTRL.reg e, 5, 1⟩
/-- SLG_STAT (R211). -/
abbrev SLG_STAT.reg (e : Nat) : Reg := ⟨.eng, e, 0, 0x7c04⟩
abbrev SLG_STAT.ENTRY (e : Nat) : Fld := ⟨SLG_STAT.reg e, 0, 4⟩
abbrev SLG_STAT.TPR_ACT (e : Nat) : Fld := ⟨SLG_STAT.reg e, 4, 3⟩
abbrev SLG_STAT.DIR_ACT (e : Nat) : Fld := ⟨SLG_STAT.reg e, 7, 1⟩
abbrev SLG_STAT.PEND (e : Nat) : Fld := ⟨SLG_STAT.reg e, 8, 1⟩
/-- SLG_REF (R211). -/
abbrev SLG_REF.reg (e : Nat) : Reg := ⟨.eng, e, 0, 0x7c08⟩
abbrev SLG_REF.REF (e : Nat) : Fld := ⟨SLG_REF.reg e, 0, 24⟩
/-- SLG_POS (R211). -/
abbrev SLG_POS.reg (e : Nat) (i : Nat) : Reg := ⟨.eng, e, 0, 0x7c40 + 8 * i⟩
abbrev SLG_POS.POS (e : Nat) (i : Nat) : Fld := ⟨SLG_POS.reg e i, 0, 24⟩
/-- SLG_MPT (R211). -/
abbrev SLG_MPT.reg (e : Nat) (i : Nat) : Reg := ⟨.eng, e, 0, 0x7c44 + 8 * i⟩
abbrev SLG_MPT.MPT (e : Nat) (i : Nat) : Fld := ⟨SLG_MPT.reg e i, 0, 20⟩
/-- SPN_CTRL (R230). -/
abbrev SPN_CTRL.reg (e : Nat) : Reg := ⟨.eng, e, 0, 0x7000⟩
abbrev SPN_CTRL.EN (e : Nat) : Fld := ⟨SPN_CTRL.reg e, 0, 1⟩
abbrev SPN_CTRL.DIR (e : Nat) : Fld := ⟨SPN_CTRL.reg e, 1, 1⟩
abbrev SPN_CTRL.LOOP_SRC (e : Nat) : Fld := ⟨SPN_CTRL.reg e, 2, 1⟩
abbrev SPN_CTRL.RECATCH (e : Nat) : Fld := ⟨SPN_CTRL.reg e, 3, 1⟩
/-- SPN_SPD (R230). -/
abbrev SPN_SPD.reg (e : Nat) : Reg := ⟨.eng, e, 0, 0x7004⟩
abbrev SPN_SPD.TARGET (e : Nat) : Fld := ⟨SPN_SPD.reg e, 0, 14⟩
abbrev SPN_SPD.ACC (e : Nat) : Fld := ⟨SPN_SPD.reg e, 14, 9⟩
abbrev SPN_SPD.DEC (e : Nat) : Fld := ⟨SPN_SPD.reg e, 23, 9⟩
/-- SPN_STAT (R230). -/
abbrev SPN_STAT.reg (e : Nat) : Reg := ⟨.eng, e, 0, 0x7008⟩
abbrev SPN_STAT.STATE (e : Nat) : Fld := ⟨SPN_STAT.reg e, 0, 3⟩
abbrev SPN_STAT.VLIM (e : Nat) : Fld := ⟨SPN_STAT.reg e, 3, 1⟩
abbrev SPN_STAT.ILIM (e : Nat) : Fld := ⟨SPN_STAT.reg e, 4, 1⟩
abbrev SPN_STAT.REGEN_LIM (e : Nat) : Fld := ⟨SPN_STAT.reg e, 5, 1⟩
abbrev SPN_STAT.ZERO_VEC (e : Nat) : Fld := ⟨SPN_STAT.reg e, 6, 1⟩
abbrev SPN_STAT.ANG_VALID (e : Nat) : Fld := ⟨SPN_STAT.reg e, 7, 1⟩
abbrev SPN_STAT.AT_SPEED (e : Nat) : Fld := ⟨SPN_STAT.reg e, 8, 1⟩
abbrev SPN_STAT.CATCH (e : Nat) : Fld := ⟨SPN_STAT.reg e, 9, 3⟩
abbrev SPN_STAT.FCAUSE (e : Nat) : Fld := ⟨SPN_STAT.reg e, 12, 3⟩
abbrev SPN_STAT.ORIGIN_GEN (e : Nat) : Fld := ⟨SPN_STAT.reg e, 16, 4⟩
abbrev SPN_STAT.MANG (e : Nat) : Fld := ⟨SPN_STAT.reg e, 20, 12⟩
/-- SPN_SPEED (R230). -/
abbrev SPN_SPEED.reg (e : Nat) : Reg := ⟨.eng, e, 0, 0x700c⟩
abbrev SPN_SPEED.OBS (e : Nat) : Fld := ⟨SPN_SPEED.reg e, 0, 16⟩
abbrev SPN_SPEED.REF (e : Nat) : Fld := ⟨SPN_SPEED.reg e, 16, 16⟩
/-- SPN_EVT (R230). -/
abbrev SPN_EVT.reg (e : Nat) : Reg := ⟨.eng, e, 0, 0x7010⟩
abbrev SPN_EVT.AT_SPEED (e : Nat) : Fld := ⟨SPN_EVT.reg e, 0, 1⟩
abbrev SPN_EVT.LOS (e : Nat) : Fld := ⟨SPN_EVT.reg e, 1, 1⟩
abbrev SPN_EVT.FAULT (e : Nat) : Fld := ⟨SPN_EVT.reg e, 2, 1⟩
abbrev SPN_EVT.VLIM (e : Nat) : Fld := ⟨SPN_EVT.reg e, 3, 1⟩
abbrev SPN_EVT.REGEN_LIM (e : Nat) : Fld := ⟨SPN_EVT.reg e, 4, 1⟩
abbrev SPN_EVT.ZERO_VEC (e : Nat) : Fld := ⟨SPN_EVT.reg e, 5, 1⟩
abbrev SPN_EVT.CATCH (e : Nat) : Fld := ⟨SPN_EVT.reg e, 6, 1⟩
abbrev SPN_EVT.HALTED (e : Nat) : Fld := ⟨SPN_EVT.reg e, 7, 1⟩
/-- SPN_EVT_EN (R230). -/
abbrev SPN_EVT_EN.reg (e : Nat) : Reg := ⟨.eng, e, 0, 0x7014⟩
abbrev SPN_EVT_EN.EN (e : Nat) : Fld := ⟨SPN_EVT_EN.reg e, 0, 8⟩
/-- SPN_MOTOR (R230). -/
abbrev SPN_MOTOR.reg (e : Nat) : Reg := ⟨.eng, e, 0, 0x7018⟩
abbrev SPN_MOTOR.POLES (e : Nat) : Fld := ⟨SPN_MOTOR.reg e, 0, 4⟩
abbrev SPN_MOTOR.RS (e : Nat) : Fld := ⟨SPN_MOTOR.reg e, 4, 12⟩
abbrev SPN_MOTOR.LS (e : Nat) : Fld := ⟨SPN_MOTOR.reg e, 16, 16⟩
/-- SPN_SCALE (R230). -/
abbrev SPN_SCALE.reg (e : Nat) : Reg := ⟨.eng, e, 0, 0x701c⟩
abbrev SPN_SCALE.KE (e : Nat) : Fld := ⟨SPN_SCALE.reg e, 0, 16⟩
abbrev SPN_SCALE.ISCALE (e : Nat) : Fld := ⟨SPN_SCALE.reg e, 16, 16⟩
/-- SPN_LIM (R230). -/
abbrev SPN_LIM.reg (e : Nat) : Reg := ⟨.eng, e, 0, 0x7020⟩
abbrev SPN_LIM.IMAX (e : Nat) : Fld := ⟨SPN_LIM.reg e, 0, 16⟩
abbrev SPN_LIM.IBUS (e : Nat) : Fld := ⟨SPN_LIM.reg e, 16, 16⟩
/-- SPN_START (R230). -/
abbrev SPN_START.reg (e : Nat) : Reg := ⟨.eng, e, 0, 0x7024⟩
abbrev SPN_START.ALIGN_I (e : Nat) : Fld := ⟨SPN_START.reg e, 0, 7⟩
abbrev SPN_START.ALIGN_T (e : Nat) : Fld := ⟨SPN_START.reg e, 7, 6⟩
abbrev SPN_START.HAND_RPM (e : Nat) : Fld := ⟨SPN_START.reg e, 13, 11⟩
abbrev SPN_START.DT (e : Nat) : Fld := ⟨SPN_START.reg e, 24, 8⟩
/-- SPN_OBS (R230). -/
abbrev SPN_OBS.reg (e : Nat) : Reg := ⟨.eng, e, 0, 0x7028⟩
abbrev SPN_OBS.ANG_TOL (e : Nat) : Fld := ⟨SPN_OBS.reg e, 0, 8⟩
abbrev SPN_OBS.EMF_TOL (e : Nat) : Fld := ⟨SPN_OBS.reg e, 8, 8⟩
abbrev SPN_OBS.LOS_N (e : Nat) : Fld := ⟨SPN_OBS.reg e, 16, 4⟩
abbrev SPN_OBS.CATCH_EDGES (e : Nat) : Fld := ⟨SPN_OBS.reg e, 20, 4⟩
/-- SPN_PI (R230). -/
abbrev SPN_PI.reg (e : Nat) : Reg := ⟨.eng, e, 0, 0x702c⟩
abbrev SPN_PI.KP (e : Nat) : Fld := ⟨SPN_PI.reg e, 0, 8⟩
abbrev SPN_PI.KI (e : Nat) : Fld := ⟨SPN_PI.reg e, 8, 8⟩
abbrev SPN_PI.KPI (e : Nat) : Fld := ⟨SPN_PI.reg e, 16, 8⟩
abbrev SPN_PI.KII (e : Nat) : Fld := ⟨SPN_PI.reg e, 24, 8⟩
/-- SLD_CTRL (R237). -/
abbrev SLD_CTRL.reg (e : Nat) : Reg := ⟨.eng, e, 0, 0x7800⟩
abbrev SLD_CTRL.MOVE (e : Nat) : Fld := ⟨SLD_CTRL.reg e, 0, 1⟩
abbrev SLD_CTRL.STOP (e : Nat) : Fld := ⟨SLD_CTRL.reg e, 1, 1⟩
abbrev SLD_CTRL.HOME (e : Nat) : Fld := ⟨SLD_CTRL.reg e, 2, 1⟩
abbrev SLD_CTRL.PWR (e : Nat) : Fld := ⟨SLD_CTRL.reg e, 3, 1⟩
abbrev SLD_CTRL.ENC_BAD (e : Nat) : Fld := ⟨SLD_CTRL.reg e, 4, 1⟩
/-- SLD_STAT (R237). -/
abbrev SLD_STAT.reg (e : Nat) : Reg := ⟨.eng, e, 0, 0x7804⟩
abbrev SLD_STAT.MOVING (e : Nat) : Fld := ⟨SLD_STAT.reg e, 0, 1⟩
abbrev SLD_STAT.HOMING (e : Nat) : Fld := ⟨SLD_STAT.reg e, 1, 1⟩
abbrev SLD_STAT.LOST (e : Nat) : Fld := ⟨SLD_STAT.reg e, 2, 1⟩
abbrev SLD_STAT.PARKED (e : Nat) : Fld := ⟨SLD_STAT.reg e, 3, 1⟩
abbrev SLD_STAT.FAULT (e : Nat) : Fld := ⟨SLD_STAT.reg e, 4, 1⟩
abbrev SLD_STAT.HOLD (e : Nat) : Fld := ⟨SLD_STAT.reg e, 5, 1⟩
abbrev SLD_STAT.IDX (e : Nat) : Fld := ⟨SLD_STAT.reg e, 16, 10⟩
/-- SLD_POS (R237). -/
abbrev SLD_POS.reg (e : Nat) : Reg := ⟨.eng, e, 0, 0x7808⟩
abbrev SLD_POS.VALUE (e : Nat) : Fld := ⟨SLD_POS.reg e, 0, 24⟩
/-- SLD_TGT (R237). -/
abbrev SLD_TGT.reg (e : Nat) : Reg := ⟨.eng, e, 0, 0x780c⟩
abbrev SLD_TGT.VALUE (e : Nat) : Fld := ⟨SLD_TGT.reg e, 0, 24⟩
/-- SLD_PRF (R237). -/
abbrev SLD_PRF.reg (e : Nat) : Reg := ⟨.eng, e, 0, 0x7810⟩
abbrev SLD_PRF.VMAX (e : Nat) : Fld := ⟨SLD_PRF.reg e, 0, 16⟩
abbrev SLD_PRF.ACC (e : Nat) : Fld := ⟨SLD_PRF.reg e, 16, 16⟩
/-- SLD_CUR (R237). -/
abbrev SLD_CUR.reg (e : Nat) : Reg := ⟨.eng, e, 0, 0x7814⟩
abbrev SLD_CUR.I_RUN (e : Nat) : Fld := ⟨SLD_CUR.reg e, 0, 8⟩
abbrev SLD_CUR.I_HOLD (e : Nat) : Fld := ⟨SLD_CUR.reg e, 8, 8⟩
abbrev SLD_CUR.I_HOME (e : Nat) : Fld := ⟨SLD_CUR.reg e, 16, 8⟩
/-- SLD_CFG (R237). -/
abbrev SLD_CFG.reg (e : Nat) : Reg := ⟨.eng, e, 0, 0x7818⟩
abbrev SLD_CFG.STEP_LEN (e : Nat) : Fld := ⟨SLD_CFG.reg e, 0, 16⟩
abbrev SLD_CFG.V_SAFE (e : Nat) : Fld := ⟨SLD_CFG.reg e, 16, 8⟩
abbrev SLD_CFG.FF_RANGE (e : Nat) : Fld := ⟨SLD_CFG.reg e, 24, 8⟩
/-- SLD_ENC (R237). -/
abbrev SLD_ENC.reg (e : Nat) : Reg := ⟨.eng, e, 0, 0x781c⟩
abbrev SLD_ENC.RATIO (e : Nat) : Fld := ⟨SLD_ENC.reg e, 0, 16⟩
abbrev SLD_ENC.EN (e : Nat) : Fld := ⟨SLD_ENC.reg e, 16, 1⟩
/-- SLD_ENCPOS (R237). -/
abbrev SLD_ENCPOS.reg (e : Nat) : Reg := ⟨.eng, e, 0, 0x7820⟩
abbrev SLD_ENCPOS.POS (e : Nat) : Fld := ⟨SLD_ENCPOS.reg e, 0, 24⟩
abbrev SLD_ENCPOS.VALID (e : Nat) : Fld := ⟨SLD_ENCPOS.reg e, 24, 1⟩
abbrev SLD_ENCPOS.IDX_SEEN (e : Nat) : Fld := ⟨SLD_ENCPOS.reg e, 25, 1⟩
abbrev SLD_ENCPOS.FAULT (e : Nat) : Fld := ⟨SLD_ENCPOS.reg e, 26, 1⟩
/-- SLD_EVT (R237). -/
abbrev SLD_EVT.reg (e : Nat) : Reg := ⟨.eng, e, 0, 0x7824⟩
abbrev SLD_EVT.DONE (e : Nat) : Fld := ⟨SLD_EVT.reg e, 0, 1⟩
abbrev SLD_EVT.LOST (e : Nat) : Fld := ⟨SLD_EVT.reg e, 1, 1⟩
abbrev SLD_EVT.FAULT (e : Nat) : Fld := ⟨SLD_EVT.reg e, 2, 1⟩
abbrev SLD_EVT.REJ (e : Nat) : Fld := ⟨SLD_EVT.reg e, 3, 1⟩
abbrev SLD_EVT.PARKED (e : Nat) : Fld := ⟨SLD_EVT.reg e, 4, 1⟩
abbrev SLD_EVT.ENC_FAULT (e : Nat) : Fld := ⟨SLD_EVT.reg e, 5, 1⟩
/-- SLD_EVT_EN (R237). -/
abbrev SLD_EVT_EN.reg (e : Nat) : Reg := ⟨.eng, e, 0, 0x7828⟩
abbrev SLD_EVT_EN.EN (e : Nat) : Fld := ⟨SLD_EVT_EN.reg e, 0, 6⟩
/-- AX_CTRL (R242). -/
abbrev AX_CTRL.reg (a : Nat) : Reg := ⟨.ax, a, 0, 0x0⟩
abbrev AX_CTRL.MOVE (a : Nat) : Fld := ⟨AX_CTRL.reg a, 0, 1⟩
abbrev AX_CTRL.STOP (a : Nat) : Fld := ⟨AX_CTRL.reg a, 1, 1⟩
abbrev AX_CTRL.ESTOP (a : Nat) : Fld := ⟨AX_CTRL.reg a, 2, 1⟩
abbrev AX_CTRL.GEAR (a : Nat) : Fld := ⟨AX_CTRL.reg a, 3, 1⟩
abbrev AX_CTRL.CHG_ARM (a : Nat) : Fld := ⟨AX_CTRL.reg a, 4, 1⟩
abbrev AX_CTRL.SCURVE (a : Nat) : Fld := ⟨AX_CTRL.reg a, 5, 1⟩
abbrev AX_CTRL.ENC_CHK (a : Nat) : Fld := ⟨AX_CTRL.reg a, 6, 1⟩
abbrev AX_CTRL.DIR_INV (a : Nat) : Fld := ⟨AX_CTRL.reg a, 7, 1⟩
abbrev AX_CTRL.SRC (a : Nat) : Fld := ⟨AX_CTRL.reg a, 8, 4⟩
abbrev AX_CTRL.PW (a : Nat) : Fld := ⟨AX_CTRL.reg a, 12, 4⟩
/-- AX_STAT (R242). -/
abbrev AX_STAT.reg (a : Nat) : Reg := ⟨.ax, a, 0, 0x4⟩
abbrev AX_STAT.MOVING (a : Nat) : Fld := ⟨AX_STAT.reg a, 0, 1⟩
abbrev AX_STAT.GEARED (a : Nat) : Fld := ⟨AX_STAT.reg a, 1, 1⟩
abbrev AX_STAT.LOST (a : Nat) : Fld := ⟨AX_STAT.reg a, 2, 1⟩
abbrev AX_STAT.LAG_FAULT (a : Nat) : Fld := ⟨AX_STAT.reg a, 3, 1⟩
abbrev AX_STAT.ENC_ERR (a : Nat) : Fld := ⟨AX_STAT.reg a, 4, 1⟩
abbrev AX_STAT.LAG (a : Nat) : Fld := ⟨AX_STAT.reg a, 16, 16⟩
/-- AX_POS (R242). -/
abbrev AX_POS.reg (a : Nat) : Reg := ⟨.ax, a, 0, 0x8⟩
abbrev AX_POS.VALUE (a : Nat) : Fld := ⟨AX_POS.reg a, 0, 32⟩
/-- AX_TGT (R242). -/
abbrev AX_TGT.reg (a : Nat) : Reg := ⟨.ax, a, 0, 0xc⟩
abbrev AX_TGT.VALUE (a : Nat) : Fld := ⟨AX_TGT.reg a, 0, 32⟩
/-- AX_VMAX (R242). -/
abbrev AX_VMAX.reg (a : Nat) : Reg := ⟨.ax, a, 0, 0x10⟩
abbrev AX_VMAX.VMAX (a : Nat) : Fld := ⟨AX_VMAX.reg a, 0, 21⟩
abbrev AX_VMAX.LAG_MAX (a : Nat) : Fld := ⟨AX_VMAX.reg a, 21, 11⟩
/-- AX_ACC (R242). -/
abbrev AX_ACC.reg (a : Nat) : Reg := ⟨.ax, a, 0, 0x14⟩
abbrev AX_ACC.ACC (a : Nat) : Fld := ⟨AX_ACC.reg a, 0, 16⟩
abbrev AX_ACC.JERK (a : Nat) : Fld := ⟨AX_ACC.reg a, 16, 16⟩
/-- AX_RATIO (R242). -/
abbrev AX_RATIO.reg (a : Nat) : Reg := ⟨.ax, a, 0, 0x18⟩
abbrev AX_RATIO.RATIO (a : Nat) : Fld := ⟨AX_RATIO.reg a, 0, 24⟩
/-- AX_RATIO_NEXT (R242). -/
abbrev AX_RATIO_NEXT.reg (a : Nat) : Reg := ⟨.ax, a, 0, 0x1c⟩
abbrev AX_RATIO_NEXT.RATIO (a : Nat) : Fld := ⟨AX_RATIO_NEXT.reg a, 0, 24⟩
/-- AX_CHG_POS (R242). -/
abbrev AX_CHG_POS.reg (a : Nat) : Reg := ⟨.ax, a, 0, 0x20⟩
abbrev AX_CHG_POS.CHG_POS (a : Nat) : Fld := ⟨AX_CHG_POS.reg a, 0, 32⟩
/-- AX_ENC (R242). -/
abbrev AX_ENC.reg (a : Nat) : Reg := ⟨.ax, a, 0, 0x24⟩
abbrev AX_ENC.E_RATIO (a : Nat) : Fld := ⟨AX_ENC.reg a, 0, 16⟩
abbrev AX_ENC.TOL (a : Nat) : Fld := ⟨AX_ENC.reg a, 16, 16⟩
/-- BRK_CTRL (R242). -/
abbrev BRK_CTRL.reg (b : Nat) : Reg := ⟨.brk, b, 0, 0x0⟩
abbrev BRK_CTRL.FAULT_CLR (b : Nat) : Fld := ⟨BRK_CTRL.reg b, 0, 1⟩
abbrev BRK_CTRL.P_SINK (b : Nat) : Fld := ⟨BRK_CTRL.reg b, 16, 16⟩
/-- BRK_OV12 (R242). -/
abbrev BRK_OV12.reg (b : Nat) : Reg := ⟨.brk, b, 0, 0x4⟩
abbrev BRK_OV12.OV1 (b : Nat) : Fld := ⟨BRK_OV12.reg b, 0, 16⟩
abbrev BRK_OV12.OV2 (b : Nat) : Fld := ⟨BRK_OV12.reg b, 16, 16⟩
/-- BRK_OV3 (R242). -/
abbrev BRK_OV3.reg (b : Nat) : Reg := ⟨.brk, b, 0, 0x8⟩
abbrev BRK_OV3.OV3 (b : Nat) : Fld := ⟨BRK_OV3.reg b, 0, 16⟩
abbrev BRK_OV3.CHOP_ON (b : Nat) : Fld := ⟨BRK_OV3.reg b, 16, 16⟩
/-- BRK_CFG (R242). -/
abbrev BRK_CFG.reg (b : Nat) : Reg := ⟨.brk, b, 0, 0xc⟩
abbrev BRK_CFG.HYST (b : Nat) : Fld := ⟨BRK_CFG.reg b, 0, 8⟩
abbrev BRK_CFG.UV (b : Nat) : Fld := ⟨BRK_CFG.reg b, 8, 16⟩
abbrev BRK_CFG.CHOP_IMIN (b : Nat) : Fld := ⟨BRK_CFG.reg b, 24, 8⟩
/-- BRK_SCALE (R242). -/
abbrev BRK_SCALE.reg (b : Nat) : Reg := ⟨.brk, b, 0, 0x10⟩
abbrev BRK_SCALE.VSCALE (b : Nat) : Fld := ⟨BRK_SCALE.reg b, 0, 16⟩
abbrev BRK_SCALE.ISCALE (b : Nat) : Fld := ⟨BRK_SCALE.reg b, 16, 16⟩
/-- BRK_STAT (R242). -/
abbrev BRK_STAT.reg (b : Nat) : Reg := ⟨.brk, b, 0, 0x14⟩
abbrev BRK_STAT.VBUS (b : Nat) : Fld := ⟨BRK_STAT.reg b, 0, 16⟩
abbrev BRK_STAT.CHOP (b : Nat) : Fld := ⟨BRK_STAT.reg b, 16, 1⟩
abbrev BRK_STAT.OV1 (b : Nat) : Fld := ⟨BRK_STAT.reg b, 17, 1⟩
abbrev BRK_STAT.OV2 (b : Nat) : Fld := ⟨BRK_STAT.reg b, 18, 1⟩
abbrev BRK_STAT.OV3 (b : Nat) : Fld := ⟨BRK_STAT.reg b, 19, 1⟩
abbrev BRK_STAT.UV (b : Nat) : Fld := ⟨BRK_STAT.reg b, 20, 1⟩
abbrev BRK_STAT.CHOP_FAULT (b : Nat) : Fld := ⟨BRK_STAT.reg b, 21, 1⟩
/-- BRK_PWR (R242). -/
abbrev BRK_PWR.reg (b : Nat) : Reg := ⟨.brk, b, 0, 0x18⟩
abbrev BRK_PWR.IBUS (b : Nat) : Fld := ⟨BRK_PWR.reg b, 0, 16⟩
abbrev BRK_PWR.PBUS (b : Nat) : Fld := ⟨BRK_PWR.reg b, 16, 16⟩
/-- MOT_EVT (R242). -/
abbrev MOT_EVT.reg : Reg := ⟨.mot, 0, 0, 0x2000⟩
abbrev MOT_EVT.AX0 : Fld := ⟨MOT_EVT.reg, 0, 4⟩
abbrev MOT_EVT.AX1 : Fld := ⟨MOT_EVT.reg, 4, 4⟩
abbrev MOT_EVT.AX2 : Fld := ⟨MOT_EVT.reg, 8, 4⟩
abbrev MOT_EVT.AX3 : Fld := ⟨MOT_EVT.reg, 12, 4⟩
abbrev MOT_EVT.BRK0 : Fld := ⟨MOT_EVT.reg, 16, 6⟩
abbrev MOT_EVT.BRK1 : Fld := ⟨MOT_EVT.reg, 22, 6⟩
/-- MOT_EVT_EN (R242). -/
abbrev MOT_EVT_EN.reg : Reg := ⟨.mot, 0, 0, 0x2004⟩
abbrev MOT_EVT_EN.EN : Fld := ⟨MOT_EVT_EN.reg, 0, 28⟩
/-- GLB_POL_STAT (R274). -/
abbrev GLB_POL_STAT.reg : Reg := ⟨.glb, 0, 0, 0x800⟩
abbrev GLB_POL_STAT.LOADED : Fld := ⟨GLB_POL_STAT.reg, 0, 4⟩
abbrev GLB_POL_STAT.ACTIVE : Fld := ⟨GLB_POL_STAT.reg, 4, 4⟩
abbrev GLB_POL_STAT.GEN : Fld := ⟨GLB_POL_STAT.reg, 8, 8⟩
/-- GLB_POL_CNT (R274). -/
abbrev GLB_POL_CNT.reg (ep : Nat) : Reg := ⟨.glb, 0, 0, 0x810 + 4 * (ep - 1)⟩
abbrev GLB_POL_CNT.DEFAULTED (ep : Nat) : Fld := ⟨GLB_POL_CNT.reg ep, 0, 16⟩
abbrev GLB_POL_CNT.FAULTS (ep : Nat) : Fld := ⟨GLB_POL_CNT.reg ep, 16, 8⟩
abbrev GLB_POL_CNT.OVERRUNS (ep : Nat) : Fld := ⟨GLB_POL_CNT.reg ep, 24, 8⟩
/-- GLB_MAP_HIT (R274). -/
abbrev GLB_MAP_HIT.reg : Reg := ⟨.glb, 0, 0, 0x820⟩
abbrev GLB_MAP_HIT.COUNT : Fld := ⟨GLB_MAP_HIT.reg, 0, 32⟩
/-- GLB_MAP_MISS (R274). -/
abbrev GLB_MAP_MISS.reg : Reg := ⟨.glb, 0, 0, 0x824⟩
abbrev GLB_MAP_MISS.COUNT : Fld := ⟨GLB_MAP_MISS.reg, 0, 32⟩
/-- GLB_MAP_LOAD (R274). -/
abbrev GLB_MAP_LOAD.reg : Reg := ⟨.glb, 0, 0, 0x828⟩
abbrev GLB_MAP_LOAD.COUNT : Fld := ⟨GLB_MAP_LOAD.reg, 0, 32⟩
/-- GLB_JNL_STAT (R342). -/
abbrev GLB_JNL_STAT.reg : Reg := ⟨.glb, 0, 0, 0x900⟩
abbrev GLB_JNL_STAT.STATE : Fld := ⟨GLB_JNL_STAT.reg, 0, 2⟩
abbrev GLB_JNL_STAT.MRAM_A : Fld := ⟨GLB_JNL_STAT.reg, 2, 1⟩
abbrev GLB_JNL_STAT.MRAM_B : Fld := ⟨GLB_JNL_STAT.reg, 3, 1⟩
abbrev GLB_JNL_STAT.FULL : Fld := ⟨GLB_JNL_STAT.reg, 4, 1⟩
abbrev GLB_JNL_STAT.PL_ACTIVE : Fld := ⟨GLB_JNL_STAT.reg, 5, 1⟩
abbrev GLB_JNL_STAT.FILL : Fld := ⟨GLB_JNL_STAT.reg, 8, 8⟩
/-- GLB_JNL_CSEQ_LO (R342). -/
abbrev GLB_JNL_CSEQ_LO.reg : Reg := ⟨.glb, 0, 0, 0x904⟩
abbrev GLB_JNL_CSEQ_LO.CSEQ : Fld := ⟨GLB_JNL_CSEQ_LO.reg, 0, 32⟩
/-- GLB_JNL_CSEQ_HI (R342). -/
abbrev GLB_JNL_CSEQ_HI.reg : Reg := ⟨.glb, 0, 0, 0x908⟩
abbrev GLB_JNL_CSEQ_HI.CSEQ : Fld := ⟨GLB_JNL_CSEQ_HI.reg, 0, 32⟩
/-- GLB_PL_GEN (R342). -/
abbrev GLB_PL_GEN.reg : Reg := ⟨.glb, 0, 0, 0x90c⟩
abbrev GLB_PL_GEN.GEN : Fld := ⟨GLB_PL_GEN.reg, 0, 32⟩
/-- GLB_QUENCH (R342). -/
abbrev GLB_QUENCH.reg : Reg := ⟨.glb, 0, 0, 0x910⟩
abbrev GLB_QUENCH.VALID : Fld := ⟨GLB_QUENCH.reg, 0, 1⟩
abbrev GLB_QUENCH.DONE_A : Fld := ⟨GLB_QUENCH.reg, 1, 1⟩
abbrev GLB_QUENCH.DONE_B : Fld := ⟨GLB_QUENCH.reg, 2, 1⟩
abbrev GLB_QUENCH.BROWNOUT : Fld := ⟨GLB_QUENCH.reg, 3, 1⟩
abbrev GLB_QUENCH.DUR : Fld := ⟨GLB_QUENCH.reg, 16, 16⟩
/-- GLB_BOOT (R342). -/
abbrev GLB_BOOT.reg : Reg := ⟨.glb, 0, 0, 0x914⟩
abbrev GLB_BOOT.PHASE : Fld := ⟨GLB_BOOT.reg, 0, 4⟩
abbrev GLB_BOOT.SLOT : Fld := ⟨GLB_BOOT.reg, 4, 1⟩
abbrev GLB_BOOT.PL_FALLBACK : Fld := ⟨GLB_BOOT.reg, 5, 1⟩
abbrev GLB_BOOT.PL_DEFAULT : Fld := ⟨GLB_BOOT.reg, 6, 1⟩
abbrev GLB_BOOT.MAP_SCAN : Fld := ⟨GLB_BOOT.reg, 7, 1⟩
abbrev GLB_BOOT.GAP : Fld := ⟨GLB_BOOT.reg, 8, 1⟩
abbrev GLB_BOOT.RESILVER : Fld := ⟨GLB_BOOT.reg, 9, 1⟩
abbrev GLB_BOOT.BOOT_CNT : Fld := ⟨GLB_BOOT.reg, 12, 4⟩
abbrev GLB_BOOT.READY_MS : Fld := ⟨GLB_BOOT.reg, 16, 16⟩
/-- CQI_CAP (R374). -/
abbrev CQI_CAP.reg : Reg := ⟨.cqi, 0, 0, 0x0⟩
abbrev CQI_CAP.MAX_IOQ : Fld := ⟨CQI_CAP.reg, 0, 7⟩
abbrev CQI_CAP.MAX_TAGS : Fld := ⟨CQI_CAP.reg, 8, 6⟩
abbrev CQI_CAP.MAX_SLOTS : Fld := ⟨CQI_CAP.reg, 16, 4⟩
abbrev CQI_CAP.VERSION : Fld := ⟨CQI_CAP.reg, 24, 8⟩
/-- CQI_CTRL (R374). -/
abbrev CQI_CTRL.reg : Reg := ⟨.cqi, 0, 0, 0x4⟩
abbrev CQI_CTRL.FRST : Fld := ⟨CQI_CTRL.reg, 0, 1⟩
abbrev CQI_CTRL.EVT_INT : Fld := ⟨CQI_CTRL.reg, 1, 1⟩
/-- CQI_STAT (R374). -/
abbrev CQI_STAT.reg : Reg := ⟨.cqi, 0, 0, 0x8⟩
abbrev CQI_STAT.READY : Fld := ⟨CQI_STAT.reg, 0, 1⟩
abbrev CQI_STAT.RESETTING : Fld := ⟨CQI_STAT.reg, 1, 1⟩
abbrev CQI_STAT.MAP_SCAN : Fld := ⟨CQI_STAT.reg, 2, 1⟩
abbrev CQI_STAT.BME_WAIT : Fld := ⟨CQI_STAT.reg, 3, 1⟩
abbrev CQI_STAT.IOQ_N : Fld := ⟨CQI_STAT.reg, 4, 7⟩
/-- CQI_EVT (R374). -/
abbrev CQI_EVT.reg : Reg := ⟨.cqi, 0, 0, 0xc⟩
abbrev CQI_EVT.QERR : Fld := ⟨CQI_EVT.reg, 0, 1⟩
abbrev CQI_EVT.READY : Fld := ⟨CQI_EVT.reg, 1, 1⟩
abbrev CQI_EVT.LOG : Fld := ⟨CQI_EVT.reg, 2, 1⟩
abbrev CQI_EVT.DMA_ERR : Fld := ⟨CQI_EVT.reg, 3, 1⟩
/-- CQI_QERR0 (R374). -/
abbrev CQI_QERR0.reg : Reg := ⟨.cqi, 0, 0, 0x10⟩
abbrev CQI_QERR0.ERR : Fld := ⟨CQI_QERR0.reg, 0, 32⟩
/-- CQI_QERR1 (R374). -/
abbrev CQI_QERR1.reg : Reg := ⟨.cqi, 0, 0, 0x14⟩
abbrev CQI_QERR1.ERR : Fld := ⟨CQI_QERR1.reg, 0, 32⟩
/-- CQI_QERR2 (R374). -/
abbrev CQI_QERR2.reg : Reg := ⟨.cqi, 0, 0, 0x18⟩
abbrev CQI_QERR2.ERR : Fld := ⟨CQI_QERR2.reg, 0, 32⟩
/-- QB_SQ_BASE_LO (R374). -/
abbrev QB_SQ_BASE_LO.reg (q : Nat) : Reg := ⟨.qb, q, 0, 0x0⟩
abbrev QB_SQ_BASE_LO.ADDR (q : Nat) : Fld := ⟨QB_SQ_BASE_LO.reg q, 12, 20⟩
/-- QB_SQ_BASE_HI (R374). -/
abbrev QB_SQ_BASE_HI.reg (q : Nat) : Reg := ⟨.qb, q, 0, 0x4⟩
abbrev QB_SQ_BASE_HI.ADDR (q : Nat) : Fld := ⟨QB_SQ_BASE_HI.reg q, 0, 32⟩
/-- QB_CQ_BASE_LO (R374). -/
abbrev QB_CQ_BASE_LO.reg (q : Nat) : Reg := ⟨.qb, q, 0, 0x8⟩
abbrev QB_CQ_BASE_LO.ADDR (q : Nat) : Fld := ⟨QB_CQ_BASE_LO.reg q, 12, 20⟩
/-- QB_CQ_BASE_HI (R374). -/
abbrev QB_CQ_BASE_HI.reg (q : Nat) : Reg := ⟨.qb, q, 0, 0xc⟩
abbrev QB_CQ_BASE_HI.ADDR (q : Nat) : Fld := ⟨QB_CQ_BASE_HI.reg q, 0, 32⟩
/-- QB_IDX_BASE_LO (R374). -/
abbrev QB_IDX_BASE_LO.reg (q : Nat) : Reg := ⟨.qb, q, 0, 0x10⟩
abbrev QB_IDX_BASE_LO.ADDR (q : Nat) : Fld := ⟨QB_IDX_BASE_LO.reg q, 6, 26⟩
/-- QB_IDX_BASE_HI (R374). -/
abbrev QB_IDX_BASE_HI.reg (q : Nat) : Reg := ⟨.qb, q, 0, 0x14⟩
abbrev QB_IDX_BASE_HI.ADDR (q : Nat) : Fld := ⟨QB_IDX_BASE_HI.reg q, 0, 32⟩
/-- QB_CFG (R374). -/
abbrev QB_CFG.reg (q : Nat) : Reg := ⟨.qb, q, 0, 0x18⟩
abbrev QB_CFG.SQ_LOG2 (q : Nat) : Fld := ⟨QB_CFG.reg q, 0, 4⟩
abbrev QB_CFG.CQ_LOG2 (q : Nat) : Fld := ⟨QB_CFG.reg q, 4, 4⟩
abbrev QB_CFG.VECTOR (q : Nat) : Fld := ⟨QB_CFG.reg q, 8, 8⟩
abbrev QB_CFG.CLASS (q : Nat) : Fld := ⟨QB_CFG.reg q, 16, 3⟩
/-- QB_CTRL (R374). -/
abbrev QB_CTRL.reg (q : Nat) : Reg := ⟨.qb, q, 0, 0x1c⟩
abbrev QB_CTRL.EN (q : Nat) : Fld := ⟨QB_CTRL.reg q, 0, 1⟩
/-- QB_STAT (R374). -/
abbrev QB_STAT.reg (q : Nat) : Reg := ⟨.qb, q, 0, 0x20⟩
abbrev QB_STAT.STATE (q : Nat) : Fld := ⟨QB_STAT.reg q, 0, 2⟩
abbrev QB_STAT.IDLE (q : Nat) : Fld := ⟨QB_STAT.reg q, 2, 1⟩
abbrev QB_STAT.CFG_ERR (q : Nat) : Fld := ⟨QB_STAT.reg q, 3, 1⟩
abbrev QB_STAT.CQ_FULL (q : Nat) : Fld := ⟨QB_STAT.reg q, 4, 1⟩
abbrev QB_STAT.OUTSTANDING (q : Nat) : Fld := ⟨QB_STAT.reg q, 5, 6⟩
/-- QB_ERR (R374). -/
abbrev QB_ERR.reg (q : Nat) : Reg := ⟨.qb, q, 0, 0x24⟩
abbrev QB_ERR.SLOT (q : Nat) : Fld := ⟨QB_ERR.reg q, 0, 8⟩
abbrev QB_ERR.CAUSE (q : Nat) : Fld := ⟨QB_ERR.reg q, 8, 4⟩
abbrev QB_ERR.TAG (q : Nat) : Fld := ⟨QB_ERR.reg q, 12, 5⟩
/-- QB_DB (R374). -/
abbrev QB_DB.reg (q : Nat) : Reg := ⟨.qb, q, 0, 0x28⟩
abbrev QB_DB.SQ (q : Nat) : Fld := ⟨QB_DB.reg q, 0, 1⟩
abbrev QB_DB.CQ (q : Nat) : Fld := ⟨QB_DB.reg q, 1, 1⟩
/-- QB_POS (R374). -/
abbrev QB_POS.reg (q : Nat) : Reg := ⟨.qb, q, 0, 0x2c⟩
abbrev QB_POS.SQ_HEAD (q : Nat) : Fld := ⟨QB_POS.reg q, 0, 8⟩
abbrev QB_POS.CQ_TAIL (q : Nat) : Fld := ⟨QB_POS.reg q, 8, 10⟩
abbrev QB_POS.PHASE (q : Nat) : Fld := ⟨QB_POS.reg q, 18, 1⟩
/-- GLB_DDR_CFG (R427). -/
abbrev GLB_DDR_CFG.reg : Reg := ⟨.glb, 0, 0, 0xa00⟩
abbrev GLB_DDR_CFG.CAP : Fld := ⟨GLB_DDR_CFG.reg, 0, 5⟩
abbrev GLB_DDR_CFG.RANKS : Fld := ⟨GLB_DDR_CFG.reg, 5, 1⟩
abbrev GLB_DDR_CFG.PPR_EN : Fld := ⟨GLB_DDR_CFG.reg, 6, 1⟩
abbrev GLB_DDR_CFG.SCRUB_H : Fld := ⟨GLB_DDR_CFG.reg, 8, 8⟩
/-- GLB_DDR_STAT (R427). -/
abbrev GLB_DDR_STAT.reg : Reg := ⟨.glb, 0, 0, 0xa04⟩
abbrev GLB_DDR_STAT.STATE : Fld := ⟨GLB_DDR_STAT.reg, 0, 2⟩
abbrev GLB_DDR_STAT.PPR_DONE : Fld := ⟨GLB_DDR_STAT.reg, 2, 3⟩
abbrev GLB_DDR_STAT.PPR_LEFT : Fld := ⟨GLB_DDR_STAT.reg, 5, 3⟩
abbrev GLB_DDR_STAT.RETIRED : Fld := ⟨GLB_DDR_STAT.reg, 8, 8⟩
/-- GLB_DDR_ERR (R427). -/
abbrev GLB_DDR_ERR.reg : Reg := ⟨.glb, 0, 0, 0xa08⟩
abbrev GLB_DDR_ERR.CE : Fld := ⟨GLB_DDR_ERR.reg, 0, 16⟩
abbrev GLB_DDR_ERR.UE : Fld := ⟨GLB_DDR_ERR.reg, 16, 16⟩
/-- GLB_DDR_EADDR (R427). -/
abbrev GLB_DDR_EADDR.reg : Reg := ⟨.glb, 0, 0, 0xa0c⟩
abbrev GLB_DDR_EADDR.ADDR : Fld := ⟨GLB_DDR_EADDR.reg, 0, 31⟩
abbrev GLB_DDR_EADDR.VALID : Fld := ⟨GLB_DDR_EADDR.reg, 31, 1⟩
/-- GLB_SRAM_CTRL (R427). -/
abbrev GLB_SRAM_CTRL.reg : Reg := ⟨.glb, 0, 0, 0xb00⟩
abbrev GLB_SRAM_CTRL.TEST_EN : Fld := ⟨GLB_SRAM_CTRL.reg, 0, 1⟩
abbrev GLB_SRAM_CTRL.MACRO : Fld := ⟨GLB_SRAM_CTRL.reg, 1, 9⟩
/-- GLB_SRAM_TCHK (R427). -/
abbrev GLB_SRAM_TCHK.reg : Reg := ⟨.glb, 0, 0, 0xb04⟩
abbrev GLB_SRAM_TCHK.CHK : Fld := ⟨GLB_SRAM_TCHK.reg, 0, 8⟩
abbrev GLB_SRAM_TCHK.LAST_CHK : Fld := ⟨GLB_SRAM_TCHK.reg, 8, 8⟩
/-- GLB_SRAM_STAT (R427). -/
abbrev GLB_SRAM_STAT.reg : Reg := ⟨.glb, 0, 0, 0xb08⟩
abbrev GLB_SRAM_STAT.CE : Fld := ⟨GLB_SRAM_STAT.reg, 0, 16⟩
abbrev GLB_SRAM_STAT.UE : Fld := ⟨GLB_SRAM_STAT.reg, 16, 8⟩
abbrev GLB_SRAM_STAT.SPARE_OUT : Fld := ⟨GLB_SRAM_STAT.reg, 24, 1⟩
/-- GLB_SRAM_EPOS (R427). -/
abbrev GLB_SRAM_EPOS.reg : Reg := ⟨.glb, 0, 0, 0xb0c⟩
abbrev GLB_SRAM_EPOS.MACRO : Fld := ⟨GLB_SRAM_EPOS.reg, 0, 9⟩
abbrev GLB_SRAM_EPOS.ROW : Fld := ⟨GLB_SRAM_EPOS.reg, 9, 12⟩
abbrev GLB_SRAM_EPOS.UNCORR : Fld := ⟨GLB_SRAM_EPOS.reg, 21, 1⟩
/-- ARB_TKT (R427). -/
abbrev ARB_TKT.reg (r : Nat) : Reg := ⟨.glb, 0, 0, 0x3000 + 4 * r⟩
abbrev ARB_TKT.TICKETS (r : Nat) : Fld := ⟨ARB_TKT.reg r, 0, 8⟩
/-- ARB_CFG (R427). -/
abbrev ARB_CFG.reg : Reg := ⟨.glb, 0, 0, 0x3040⟩
abbrev ARB_CFG.STARVE_LIM : Fld := ⟨ARB_CFG.reg, 0, 5⟩
/-- ARB_SEED (R427). -/
abbrev ARB_SEED.reg : Reg := ⟨.glb, 0, 0, 0x3044⟩
abbrev ARB_SEED.LFSR : Fld := ⟨ARB_SEED.reg, 0, 31⟩
/-- ARB_STAT (R427). -/
abbrev ARB_STAT.reg : Reg := ⟨.glb, 0, 0, 0x3048⟩
abbrev ARB_STAT.MASK : Fld := ⟨ARB_STAT.reg, 0, 16⟩
abbrev ARB_STAT.FORCED : Fld := ⟨ARB_STAT.reg, 16, 16⟩
/-- STRC_CTRL (R427). -/
abbrev STRC_CTRL.reg : Reg := ⟨.glb, 0, 0, 0x4000⟩
abbrev STRC_CTRL.ENABLE : Fld := ⟨STRC_CTRL.reg, 0, 1⟩
abbrev STRC_CTRL.OP : Fld := ⟨STRC_CTRL.reg, 1, 3⟩
abbrev STRC_CTRL.OP_WAY : Fld := ⟨STRC_CTRL.reg, 4, 4⟩
abbrev STRC_CTRL.CNT_CLR : Fld := ⟨STRC_CTRL.reg, 8, 1⟩
/-- STRC_STAT (R427). -/
abbrev STRC_STAT.reg : Reg := ⟨.glb, 0, 0, 0x4004⟩
abbrev STRC_STAT.STATE : Fld := ⟨STRC_STAT.reg, 0, 2⟩
abbrev STRC_STAT.OP_BUSY : Fld := ⟨STRC_STAT.reg, 2, 1⟩
abbrev STRC_STAT.DIRTY : Fld := ⟨STRC_STAT.reg, 3, 11⟩
abbrev STRC_STAT.EVB : Fld := ⟨STRC_STAT.reg, 14, 4⟩
abbrev STRC_STAT.PFB : Fld := ⟨STRC_STAT.reg, 18, 5⟩
/-- STRC_LOCK (R427). -/
abbrev STRC_LOCK.reg : Reg := ⟨.glb, 0, 0, 0x4008⟩
abbrev STRC_LOCK.WAYS : Fld := ⟨STRC_LOCK.reg, 0, 16⟩
/-- STRC_PART (R427). -/
abbrev STRC_PART.reg (i : Nat) : Reg := ⟨.glb, 0, 0, 0x4010 + 4 * i⟩
abbrev STRC_PART.WAYS (i : Nat) : Fld := ⟨STRC_PART.reg i, 0, 16⟩
abbrev STRC_PART.VALID (i : Nat) : Fld := ⟨STRC_PART.reg i, 16, 1⟩
/-- STRC_PMAP0 (R427). -/
abbrev STRC_PMAP0.reg : Reg := ⟨.glb, 0, 0, 0x4030⟩
abbrev STRC_PMAP0.PART0 : Fld := ⟨STRC_PMAP0.reg, 0, 4⟩
abbrev STRC_PMAP0.PART1 : Fld := ⟨STRC_PMAP0.reg, 4, 4⟩
abbrev STRC_PMAP0.PART2 : Fld := ⟨STRC_PMAP0.reg, 8, 4⟩
abbrev STRC_PMAP0.PART3 : Fld := ⟨STRC_PMAP0.reg, 12, 4⟩
abbrev STRC_PMAP0.PART4 : Fld := ⟨STRC_PMAP0.reg, 16, 4⟩
abbrev STRC_PMAP0.PART5 : Fld := ⟨STRC_PMAP0.reg, 20, 4⟩
abbrev STRC_PMAP0.PART6 : Fld := ⟨STRC_PMAP0.reg, 24, 4⟩
abbrev STRC_PMAP0.PART7 : Fld := ⟨STRC_PMAP0.reg, 28, 4⟩
/-- STRC_PMAP1 (R427). -/
abbrev STRC_PMAP1.reg : Reg := ⟨.glb, 0, 0, 0x4034⟩
abbrev STRC_PMAP1.PART0 : Fld := ⟨STRC_PMAP1.reg, 0, 4⟩
abbrev STRC_PMAP1.PART1 : Fld := ⟨STRC_PMAP1.reg, 4, 4⟩
abbrev STRC_PMAP1.PART2 : Fld := ⟨STRC_PMAP1.reg, 8, 4⟩
abbrev STRC_PMAP1.PART3 : Fld := ⟨STRC_PMAP1.reg, 12, 4⟩
abbrev STRC_PMAP1.PART4 : Fld := ⟨STRC_PMAP1.reg, 16, 4⟩
abbrev STRC_PMAP1.PART5 : Fld := ⟨STRC_PMAP1.reg, 20, 4⟩
abbrev STRC_PMAP1.PART6 : Fld := ⟨STRC_PMAP1.reg, 24, 4⟩
abbrev STRC_PMAP1.PART7 : Fld := ⟨STRC_PMAP1.reg, 28, 4⟩
/-- STRC_OPA (R427). -/
abbrev STRC_OPA.reg : Reg := ⟨.glb, 0, 0, 0x4040⟩
abbrev STRC_OPA.LINE : Fld := ⟨STRC_OPA.reg, 0, 22⟩
/-- STRC_OPL (R427). -/
abbrev STRC_OPL.reg : Reg := ⟨.glb, 0, 0, 0x4044⟩
abbrev STRC_OPL.COUNT : Fld := ⟨STRC_OPL.reg, 0, 23⟩
/-- STRC_PF (R427). -/
abbrev STRC_PF.reg : Reg := ⟨.glb, 0, 0, 0x4048⟩
abbrev STRC_PF.LINE : Fld := ⟨STRC_PF.reg, 0, 22⟩
abbrev STRC_PF.N : Fld := ⟨STRC_PF.reg, 22, 4⟩
/-- STRC_EVT (R427). -/
abbrev STRC_EVT.reg : Reg := ⟨.glb, 0, 0, 0x404c⟩
abbrev STRC_EVT.OP_DONE : Fld := ⟨STRC_EVT.reg, 0, 1⟩
abbrev STRC_EVT.DISABLED : Fld := ⟨STRC_EVT.reg, 1, 1⟩
abbrev STRC_EVT.LOCKED_INVAL : Fld := ⟨STRC_EVT.reg, 2, 1⟩
abbrev STRC_EVT.OP_REJ : Fld := ⟨STRC_EVT.reg, 3, 1⟩
abbrev STRC_EVT.EN_REJ : Fld := ⟨STRC_EVT.reg, 4, 1⟩
abbrev STRC_EVT.CFG_REJ : Fld := ⟨STRC_EVT.reg, 5, 1⟩
/-- STRC_HIT (R427). -/
abbrev STRC_HIT.reg : Reg := ⟨.glb, 0, 0, 0x4050⟩
abbrev STRC_HIT.COUNT : Fld := ⟨STRC_HIT.reg, 0, 32⟩
/-- STRC_MISS (R427). -/
abbrev STRC_MISS.reg : Reg := ⟨.glb, 0, 0, 0x4054⟩
abbrev STRC_MISS.COUNT : Fld := ⟨STRC_MISS.reg, 0, 32⟩
/-- STRC_LINV (R427). -/
abbrev STRC_LINV.reg : Reg := ⟨.glb, 0, 0, 0x4058⟩
abbrev STRC_LINV.LOCKED_INVAL : Fld := ⟨STRC_LINV.reg, 0, 16⟩
/-- POOL_BASE (R427). -/
abbrev POOL_BASE.reg (p : Nat) : Reg := ⟨.glb, 0, 0, 0x5000 + 16 * p⟩
abbrev POOL_BASE.BASE (p : Nat) : Fld := ⟨POOL_BASE.reg p, 0, 14⟩
/-- POOL_NUM (R427). -/
abbrev POOL_NUM.reg (p : Nat) : Reg := ⟨.glb, 0, 0, 0x5004 + 16 * p⟩
abbrev POOL_NUM.COUNT (p : Nat) : Fld := ⟨POOL_NUM.reg p, 0, 17⟩
/-- POOL_FREE (R427). -/
abbrev POOL_FREE.reg (p : Nat) : Reg := ⟨.glb, 0, 0, 0x5008 + 16 * p⟩
abbrev POOL_FREE.FREE (p : Nat) : Fld := ⟨POOL_FREE.reg p, 0, 17⟩
abbrev POOL_FREE.QUAR (p : Nat) : Fld := ⟨POOL_FREE.reg p, 17, 15⟩
/-- POOL_MIN (R427). -/
abbrev POOL_MIN.reg (p : Nat) : Reg := ⟨.glb, 0, 0, 0x500c + 16 * p⟩
abbrev POOL_MIN.MIN_FREE (p : Nat) : Fld := ⟨POOL_MIN.reg p, 0, 17⟩
/-- POOL_CFG (R427). -/
abbrev POOL_CFG.reg : Reg := ⟨.glb, 0, 0, 0x5040⟩
abbrev POOL_CFG.SPILL : Fld := ⟨POOL_CFG.reg, 0, 3⟩
/-- POOL_EVT (R427). -/
abbrev POOL_EVT.reg : Reg := ⟨.glb, 0, 0, 0x5044⟩
abbrev POOL_EVT.EMPTY : Fld := ⟨POOL_EVT.reg, 0, 4⟩
abbrev POOL_EVT.DOUBLE_FREE : Fld := ⟨POOL_EVT.reg, 4, 1⟩
abbrev POOL_EVT.NOT_OWNER : Fld := ⟨POOL_EVT.reg, 5, 1⟩
abbrev POOL_EVT.BAD_ADDR : Fld := ⟨POOL_EVT.reg, 6, 1⟩
abbrev POOL_EVT.CFG_REJ : Fld := ⟨POOL_EVT.reg, 7, 1⟩
/-- POOL_ERR (R427). -/
abbrev POOL_ERR.reg : Reg := ⟨.glb, 0, 0, 0x5048⟩
abbrev POOL_ERR.ADDR : Fld := ⟨POOL_ERR.reg, 0, 26⟩
/-- GLB_SEC_STAT (R448). -/
abbrev GLB_SEC_STAT.reg : Reg := ⟨.glb, 0, 0, 0xc00⟩
abbrev GLB_SEC_STAT.DRK_PROV : Fld := ⟨GLB_SEC_STAT.reg, 0, 1⟩
abbrev GLB_SEC_STAT.OWNER_SET : Fld := ⟨GLB_SEC_STAT.reg, 1, 1⟩
abbrev GLB_SEC_STAT.DBG_LEVEL : Fld := ⟨GLB_SEC_STAT.reg, 2, 2⟩
abbrev GLB_SEC_STAT.STAGED : Fld := ⟨GLB_SEC_STAT.reg, 4, 1⟩
abbrev GLB_SEC_STAT.ACTIVATING : Fld := ⟨GLB_SEC_STAT.reg, 5, 1⟩
abbrev GLB_SEC_STAT.DBG_FAILS : Fld := ⟨GLB_SEC_STAT.reg, 6, 2⟩
abbrev GLB_SEC_STAT.FUSE_SVN : Fld := ⟨GLB_SEC_STAT.reg, 8, 6⟩
/-- GLB_FW_VER (R448). -/
abbrev GLB_FW_VER.reg : Reg := ⟨.glb, 0, 0, 0xc04⟩
abbrev GLB_FW_VER.VERSION : Fld := ⟨GLB_FW_VER.reg, 0, 32⟩
/-- GLB_FW_STAGED (R448). -/
abbrev GLB_FW_STAGED.reg : Reg := ⟨.glb, 0, 0, 0xc08⟩
abbrev GLB_FW_STAGED.VERSION : Fld := ⟨GLB_FW_STAGED.reg, 0, 32⟩
/-- GLB_KEY_MAP0 (R448). -/
abbrev GLB_KEY_MAP0.reg : Reg := ⟨.glb, 0, 0, 0xc10⟩
abbrev GLB_KEY_MAP0.LOADED : Fld := ⟨GLB_KEY_MAP0.reg, 0, 32⟩
/-- GLB_KEY_MAP1 (R448). -/
abbrev GLB_KEY_MAP1.reg : Reg := ⟨.glb, 0, 0, 0xc14⟩
abbrev GLB_KEY_MAP1.LOADED : Fld := ⟨GLB_KEY_MAP1.reg, 0, 32⟩
/-- GLB_CIPH_STAT (R448). -/
abbrev GLB_CIPH_STAT.reg : Reg := ⟨.glb, 0, 0, 0xc20⟩
abbrev GLB_CIPH_STAT.SUSP : Fld := ⟨GLB_CIPH_STAT.reg, 0, 16⟩
abbrev GLB_CIPH_STAT.BUSY : Fld := ⟨GLB_CIPH_STAT.reg, 16, 2⟩
/-- PWR_STATE (R467). -/
abbrev PWR_STATE.reg : Reg := ⟨.glb, 0, 0, 0x2000⟩
abbrev PWR_STATE.STATE : Fld := ⟨PWR_STATE.reg, 0, 2⟩
/-- PWR_ENG_CTRL (R467). -/
abbrev PWR_ENG_CTRL.reg : Reg := ⟨.glb, 0, 0, 0x2004⟩
abbrev PWR_ENG_CTRL.SLEEP : Fld := ⟨PWR_ENG_CTRL.reg, 0, 8⟩
abbrev PWR_ENG_CTRL.WAKE : Fld := ⟨PWR_ENG_CTRL.reg, 8, 8⟩
/-- PWR_ENG_STAT (R467). -/
abbrev PWR_ENG_STAT.reg : Reg := ⟨.glb, 0, 0, 0x2008⟩
abbrev PWR_ENG_STAT.ENG0 : Fld := ⟨PWR_ENG_STAT.reg, 0, 2⟩
abbrev PWR_ENG_STAT.ENG1 : Fld := ⟨PWR_ENG_STAT.reg, 2, 2⟩
abbrev PWR_ENG_STAT.ENG2 : Fld := ⟨PWR_ENG_STAT.reg, 4, 2⟩
abbrev PWR_ENG_STAT.ENG3 : Fld := ⟨PWR_ENG_STAT.reg, 6, 2⟩
abbrev PWR_ENG_STAT.ENG4 : Fld := ⟨PWR_ENG_STAT.reg, 8, 2⟩
abbrev PWR_ENG_STAT.ENG5 : Fld := ⟨PWR_ENG_STAT.reg, 10, 2⟩
abbrev PWR_ENG_STAT.ENG6 : Fld := ⟨PWR_ENG_STAT.reg, 12, 2⟩
abbrev PWR_ENG_STAT.ENG7 : Fld := ⟨PWR_ENG_STAT.reg, 14, 2⟩
/-- PWR_EVT (R467). -/
abbrev PWR_EVT.reg : Reg := ⟨.glb, 0, 0, 0x200c⟩
abbrev PWR_EVT.WAKE_DONE : Fld := ⟨PWR_EVT.reg, 0, 8⟩
abbrev PWR_EVT.SLEEP_REJ : Fld := ⟨PWR_EVT.reg, 8, 1⟩
abbrev PWR_EVT.SLEEP_CANCEL : Fld := ⟨PWR_EVT.reg, 9, 1⟩
abbrev PWR_EVT.PLL_FAIL : Fld := ⟨PWR_EVT.reg, 10, 1⟩
abbrev PWR_EVT.XTAL32_FAIL : Fld := ⟨PWR_EVT.reg, 11, 1⟩
abbrev PWR_EVT.TIMER : Fld := ⟨PWR_EVT.reg, 12, 2⟩
/-- PWR_RST (R467). -/
abbrev PWR_RST.reg : Reg := ⟨.glb, 0, 0, 0x2010⟩
abbrev PWR_RST.WARM : Fld := ⟨PWR_RST.reg, 0, 1⟩
abbrev PWR_RST.SW_CAUSE : Fld := ⟨PWR_RST.reg, 4, 4⟩
abbrev PWR_RST.LAST_CAUSE : Fld := ⟨PWR_RST.reg, 8, 4⟩
/-- PWR_WDT (R467). -/
abbrev PWR_WDT.reg : Reg := ⟨.glb, 0, 0, 0x2014⟩
abbrev PWR_WDT.KICK : Fld := ⟨PWR_WDT.reg, 0, 1⟩
abbrev PWR_WDT.EN : Fld := ⟨PWR_WDT.reg, 1, 1⟩
abbrev PWR_WDT.TIMEOUT : Fld := ⟨PWR_WDT.reg, 8, 8⟩
/-- PWR_RTC_LO (R467). -/
abbrev PWR_RTC_LO.reg : Reg := ⟨.glb, 0, 0, 0x2020⟩
abbrev PWR_RTC_LO.SEC : Fld := ⟨PWR_RTC_LO.reg, 0, 32⟩
/-- PWR_RTC_HI (R467). -/
abbrev PWR_RTC_HI.reg : Reg := ⟨.glb, 0, 0, 0x2024⟩
abbrev PWR_RTC_HI.SEC : Fld := ⟨PWR_RTC_HI.reg, 0, 8⟩
abbrev PWR_RTC_HI.SUB : Fld := ⟨PWR_RTC_HI.reg, 8, 15⟩
abbrev PWR_RTC_HI.STALL : Fld := ⟨PWR_RTC_HI.reg, 23, 1⟩
/-- PWR_TMR (R467). -/
abbrev PWR_TMR.reg (i : Nat) : Reg := ⟨.glb, 0, 0, 0x2028 + 4 * i⟩
abbrev PWR_TMR.AT (i : Nat) : Fld := ⟨PWR_TMR.reg i, 0, 32⟩
/-- PWR_WAKE_EN (R467). -/
abbrev PWR_WAKE_EN.reg : Reg := ⟨.glb, 0, 0, 0x2030⟩
abbrev PWR_WAKE_EN.SRC : Fld := ⟨PWR_WAKE_EN.reg, 0, 4⟩
/-- PWR_WAKE_SRC (R467). -/
abbrev PWR_WAKE_SRC.reg : Reg := ⟨.glb, 0, 0, 0x2034⟩
abbrev PWR_WAKE_SRC.SRC : Fld := ⟨PWR_WAKE_SRC.reg, 0, 4⟩
/-- PWR_STBY (R467). -/
abbrev PWR_STBY.reg : Reg := ⟨.glb, 0, 0, 0x2038⟩
abbrev PWR_STBY.EN : Fld := ⟨PWR_STBY.reg, 0, 1⟩
/-- PWR_HOURS (R467). -/
abbrev PWR_HOURS.reg : Reg := ⟨.glb, 0, 0, 0x203c⟩
abbrev PWR_HOURS.HOURS : Fld := ⟨PWR_HOURS.reg, 0, 24⟩
/-- PWR_CLK_STAT (R467). -/
abbrev PWR_CLK_STAT.reg : Reg := ⟨.glb, 0, 0, 0x2040⟩
abbrev PWR_CLK_STAT.ENG_LOCK : Fld := ⟨PWR_CLK_STAT.reg, 0, 8⟩
abbrev PWR_CLK_STAT.CORE_LOCK : Fld := ⟨PWR_CLK_STAT.reg, 8, 1⟩
abbrev PWR_CLK_STAT.DDR_LOCK : Fld := ⟨PWR_CLK_STAT.reg, 9, 1⟩
abbrev PWR_CLK_STAT.PCIE_LOCK : Fld := ⟨PWR_CLK_STAT.reg, 10, 1⟩
abbrev PWR_CLK_STAT.REF_OK : Fld := ⟨PWR_CLK_STAT.reg, 11, 1⟩
abbrev PWR_CLK_STAT.XTAL32_OK : Fld := ⟨PWR_CLK_STAT.reg, 12, 1⟩
/-- CLAIM_RES (R475). -/
abbrev CLAIM_RES.reg (r : Nat) : Reg := ⟨.glb, 0, 0, 0x1000 + 4 * r⟩
abbrev CLAIM_RES.OWNER (r : Nat) : Fld := ⟨CLAIM_RES.reg r, 0, 6⟩
abbrev CLAIM_RES.PEND (r : Nat) : Fld := ⟨CLAIM_RES.reg r, 6, 1⟩
abbrev CLAIM_RES.FORCE (r : Nat) : Fld := ⟨CLAIM_RES.reg r, 7, 1⟩
abbrev CLAIM_RES.DENIED (r : Nat) : Fld := ⟨CLAIM_RES.reg r, 8, 8⟩
abbrev CLAIM_RES.LAST_REQ (r : Nat) : Fld := ⟨CLAIM_RES.reg r, 16, 6⟩
/-- GPIO_CFG (R475). -/
abbrev GPIO_CFG.reg (g : Nat) : Reg := ⟨.glb, 0, 0, 0x1100 + 4 * g⟩
abbrev GPIO_CFG.OUT (g : Nat) : Fld := ⟨GPIO_CFG.reg g, 0, 1⟩
abbrev GPIO_CFG.OE (g : Nat) : Fld := ⟨GPIO_CFG.reg g, 1, 1⟩
abbrev GPIO_CFG.IN (g : Nat) : Fld := ⟨GPIO_CFG.reg g, 2, 1⟩
abbrev GPIO_CFG.FUNC (g : Nat) : Fld := ⟨GPIO_CFG.reg g, 3, 1⟩
abbrev GPIO_CFG.PULL (g : Nat) : Fld := ⟨GPIO_CFG.reg g, 4, 2⟩
abbrev GPIO_CFG.DRIVE (g : Nat) : Fld := ⟨GPIO_CFG.reg g, 6, 2⟩
/-- TIM_CTRL (R476). -/
abbrev TIM_CTRL.reg (t : Nat) : Reg := ⟨.glb, 0, 0, 0x1200 + 16 * t⟩
abbrev TIM_CTRL.MODE (t : Nat) : Fld := ⟨TIM_CTRL.reg t, 0, 2⟩
abbrev TIM_CTRL.PRE (t : Nat) : Fld := ⟨TIM_CTRL.reg t, 2, 4⟩
abbrev TIM_CTRL.SRC (t : Nat) : Fld := ⟨TIM_CTRL.reg t, 6, 5⟩
abbrev TIM_CTRL.EDGE (t : Nat) : Fld := ⟨TIM_CTRL.reg t, 11, 2⟩
abbrev TIM_CTRL.OUT (t : Nat) : Fld := ⟨TIM_CTRL.reg t, 13, 4⟩
abbrev TIM_CTRL.FLAG (t : Nat) : Fld := ⟨TIM_CTRL.reg t, 17, 1⟩
/-- TIM_CNT (R476). -/
abbrev TIM_CNT.reg (t : Nat) : Reg := ⟨.glb, 0, 0, 0x1204 + 16 * t⟩
abbrev TIM_CNT.VALUE (t : Nat) : Fld := ⟨TIM_CNT.reg t, 0, 32⟩
/-- TIM_CC (R476). -/
abbrev TIM_CC.reg (t : Nat) : Reg := ⟨.glb, 0, 0, 0x1208 + 16 * t⟩
abbrev TIM_CC.VALUE (t : Nat) : Fld := ⟨TIM_CC.reg t, 0, 32⟩
/-- TMUX_SEL (R478). -/
abbrev TMUX_SEL.reg (i : Nat) : Reg := ⟨.glb, 0, 0, 0x1400 + 4 * i⟩
abbrev TMUX_SEL.SRC (i : Nat) : Fld := ⟨TMUX_SEL.reg i, 0, 8⟩
abbrev TMUX_SEL.ENG (i : Nat) : Fld := ⟨TMUX_SEL.reg i, 8, 3⟩
abbrev TMUX_SEL.CH (i : Nat) : Fld := ⟨TMUX_SEL.reg i, 11, 3⟩
abbrev TMUX_SEL.INV (i : Nat) : Fld := ⟨TMUX_SEL.reg i, 14, 1⟩
/-- TDAC_SEL (R478). -/
abbrev TDAC_SEL.reg : Reg := ⟨.glb, 0, 0, 0x1410⟩
abbrev TDAC_SEL.SRC : Fld := ⟨TDAC_SEL.reg, 0, 3⟩
abbrev TDAC_SEL.ENG : Fld := ⟨TDAC_SEL.reg, 4, 3⟩
abbrev TDAC_SEL.IDX : Fld := ⟨TDAC_SEL.reg, 7, 4⟩
/-- TDAC_VAL (R478). -/
abbrev TDAC_VAL.reg : Reg := ⟨.glb, 0, 0, 0x1414⟩
abbrev TDAC_VAL.CODE : Fld := ⟨TDAC_VAL.reg, 0, 10⟩
/-- GLB_TEMP (R488). -/
abbrev GLB_TEMP.reg : Reg := ⟨.glb, 0, 0, 0xd00⟩
abbrev GLB_TEMP.TEMP : Fld := ⟨GLB_TEMP.reg, 0, 16⟩
abbrev GLB_TEMP.MAX : Fld := ⟨GLB_TEMP.reg, 16, 16⟩

end Sys2Proof.Machine
end

