-- ==== Sys2Proof/Machine/State.lean ====
section
/-! DEFINITION. What the ILH-C832 holds: its registers, the internal state of every unit the spec describes, the queue
of waiting commands, and the state after power-on reset. Plain data throughout. -/
namespace Sys2Proof.Machine

/-- The events SUP logs, with the codes of R397, R405, R447, R463, R488, R332 and R492. -/
inductive EvCode
  | journalDegraded | journalRefusing | policyFault | policyDisabled | discFailed | discUnfocusable | discMigrating
  | rebuildWaitTarget | rebuildDone | secondFailure | loss | lossListFull | parityMismatch | fdRelaxed | reshapeDone
  | noMedia | engineOut | linkState | chopFault | temperStuck | mapPageReload | mapScan | plinthDefault | accessFault
  | ddrUe | ddrRowRetired | sramUe | poolDoubleFree | drkUnprovisioned | debugUnlocked | fwActivated
  | bootSlotFallback | activationAborted | keyRestoreFail | reset | xtal32Fail | thermWarn | thermTrip
  | journalResized | discUnlocated
deriving DecidableEq, Repr

/-- The CODE of an event entry. -/
def EvCode.code : EvCode → Nat
  | .journalDegraded => 0x0001 | .journalRefusing => 0x0002 | .policyFault => 0x0003 | .policyDisabled => 0x0004
  | .discFailed => 0x0010 | .discUnfocusable => 0x0011 | .discMigrating => 0x0012 | .rebuildWaitTarget => 0x0013
  | .rebuildDone => 0x0014 | .secondFailure => 0x0015 | .loss => 0x0016 | .lossListFull => 0x0017
  | .parityMismatch => 0x0018 | .fdRelaxed => 0x0019 | .reshapeDone => 0x001A | .noMedia => 0x001B
  | .engineOut => 0x0020 | .linkState => 0x0021 | .chopFault => 0x0022 | .temperStuck => 0x0023
  | .mapPageReload => 0x0030 | .mapScan => 0x0031 | .plinthDefault => 0x0032 | .accessFault => 0x0033
  | .ddrUe => 0x0034 | .ddrRowRetired => 0x0035 | .sramUe => 0x0036 | .poolDoubleFree => 0x0037
  | .drkUnprovisioned => 0x0038 | .debugUnlocked => 0x0039 | .fwActivated => 0x003A | .bootSlotFallback => 0x003B
  | .activationAborted => 0x003C | .keyRestoreFail => 0x003D | .reset => 0x003E | .xtal32Fail => 0x003F
  | .thermWarn => 0x0040 | .thermTrip => 0x0041 | .journalResized => 0x0042 | .discUnlocated => 0x0043

/-- One entry of the event log (R397). -/
structure EventRec where
  seq : Nat
  us : Nat
  code : EvCode
  args : List Nat
deriving DecidableEq, Repr

/-- What a unit reports to SUP whatever its enable register holds (R68, R146, R165, R194, R225, R227, R242). -/
inductive SupEvt
  | hl (e : Eng) (bit : Nat) | wr (e : Eng) (bit : Nat) | anv (e : Eng) (bit : Nat) | temperStuck (e : Eng)
  | spn (e : Eng) (bit : Nat) | mot (bit : Nat) | unfocusable (e : Eng) | loopFailure (e : Eng)
deriving DecidableEq, Repr

/-- Link training phases as the training frames report them (R40). -/
inductive TPhase | locking | aligned | ready
deriving DecidableEq, Repr

/-- A frame of one upstream lane whose CRC has been checked: BTYPE, FSEQ and MAP of its marker (R37, R39). -/
structure RxFrame where
  btype : Nat
  fseq : Nat
  map : BitVec 45
  payload : List LinkBlock
  bad : Bool
deriving DecidableEq, Repr

/-- One lane of a head link at the receiver: the descrambler, block lock with the sync headers of the window under way (how many, how
many invalid), the marker last seen in training with its block time, and checked frames not yet passed on (R34, R39, R41). -/
structure RxLane where
  scr : BitVec 58 := 0#58
  lock : Bool := false
  cnt : Nat := 0
  inv : Nat := 0
  mark : Option (Nat × Nat) := none   -- FSEQ and block time of the last training marker
  q : List RxFrame := []
deriving DecidableEq, Repr

/-- A sample of an RF or wobble stream, or one the interpolator has made of them, with its erasure flag (R44, R56). -/
structure Smp where
  v : Int
  er : Bool
deriving DecidableEq, Repr

/-- A downstream word that is ready to be sent, one data block each but the two ACT halves, which travel together
(R49, R50). -/
inductive DsWord
  | laserOff                          -- LPW SUB 0x1
  | act (lo hi : BitVec 64)
  | lpw (b : BitVec 64)               -- LPW SUB 0x0 or 0x2
  | clk (b : BitVec 64)
  | wsym (b : BitVec 64)
  | trim (b : BitVec 64)
deriving DecidableEq, Repr

/-- Head link of one engine beyond its registers (R34-R70). -/
structure HlInt where
  phase : TPhase := .locking
  prev : Nat := 0                     -- HL_STAT.STATE before the training in progress
  since : Nat := 0                    -- start of the training attempt, us
  granted : BitVec 4 := 0#4           -- lanes granted by the Cloulin in training
  umask : BitVec 4 := 0xF#4           -- UMASK of the downstream markers (R38)
  umaskPend : Bool := false           -- a UMASK change has not taken effect yet (R66)
  rx : Vector RxLane 4 := Vector.replicate 4 {}
  fseq : Option Nat := none           -- FSEQ of the frame the lanes are passed on with next (R43)
  laneBad : BitVec 4 := 0#4           -- lanes whose last frame was bad (R56)
  winFrames : Vector Nat 5 := Vector.replicate 5 0   -- frames in the CRC window of U0-U3 and D0 (R57)
  winErrs : Vector Nat 5 := Vector.replicate 5 0
  dsCrc : BitVec 16 := 0#16           -- running downstream CRC count last reported (R58, R69)
  rfErase : Bool := false             -- RF samples flagged as erasures after a lane loss (R63)
  writeEn : Bool := false             -- WRITE_EN of the LPW SUB 0x0 block (R51)
  ready : List DsWord := []           -- downstream words ready, oldest first
  trims : List (BitVec 32) := []      -- TRIM entries ready, oldest first (R54)
  clkSent : BitVec 64 := 0#64         -- the CLK block last sent
  dsScr : BitVec 58 := 0#58           -- downstream scrambler (R34)
  dsLast : BitVec 7 := 0x7F#7         -- CRC-7 of the last downstream frame (R38)
  wobble : List Smp := []             -- samples of the last wobble blocks, oldest first (R42, R44)
  loopFault : Bool := false           -- a training without warning is to be treated as a loop fault (R61)
  wposRem : Nat := 0                  -- fraction of the write clock count (R128)
  syms : List (BitVec 4) := []        -- write-strategy symbols not yet filling a WSYM block (R53)
deriving DecidableEq, Repr

/-- How far a chain has observed the cluster it is in (R84, R107). -/
inductive ClObs
  | none          -- run-in not observed, nothing kept
  | whole         -- run-in observed in LOCKED
  | tail          -- first cluster after a landing, kept as a tail part
deriving DecidableEq, Repr

/-- A candidate mark in the flywheel's window (R85). -/
structure Cand where
  pos : Nat
  mism : Nat
  frame : Nat
deriving DecidableEq, Repr

/-- What the decoder is told of the bytes of a cluster: places of the accepted or inserted marks by frame, bits whose samples the
link erased, unreliable bits, and the flywheel's flags (R86-R89). Bit positions count the chain's channel bits. -/
structure ClFlags where
  at_ : List (Nat × Nat) := []        -- frame and bit position of its mark
  er : List Nat := []                 -- bits with an erased own-stream sample, newest first (class 1)
  unrel : List Nat := []              -- unreliable bits, newest first (class 3)
  whole2 : List Nat := []             -- frames all of whose bytes are class 2 (R86, R87)
  last2 : List Nat := []              -- frames whose last byte is class 2 (R86)
  insAt : List Nat := []              -- frames behind an inserted mark (R85, R87)
  slip : Bool := false                -- a new phase was kept
  drop : Bool := false                -- another chain's decoder has the cluster (R160)
deriving DecidableEq, Repr

/-- A detected channel bit: the level, the bit (a transition), its reliability and the erasure flag (R82, R89). -/
structure DetBit where
  level : Bool
  one : Bool
  unrel : Bool
  er : Bool
deriving DecidableEq, Repr

/-- The signal path of a chain (stages 1 to 5): samples of the four paths not yet used, timing, the lines of the canceller and
equaliser, the detector (R74-R82). AGC outputs are held in 2^-10 LSB, canceller outputs in 2^-22, equaliser outputs in 2^-34. -/
structure DspInt where
  inp : Vector (List Smp) 4 := Vector.replicate 4 []
  tph : Nat := 0                      -- next bit instant after the first sample held, 2^-22 sample
  ratio : Nat := 0x400000             -- fs/fb, 22 fraction bits
  tres : Int := 0                     -- residual loop of wobble-clock mode, 2^-22 sample per bit
  terr : Int := 0                     -- timing error of the last bit, 2^-22 of a bit
  tsq : Nat := 0                      -- sum of squared timing errors over the last bits, and how many
  tn : Nat := 0
  x : List (Vector Smp 4) := []       -- interpolated samples of the four paths, newest first
  y : List Smp := []                  -- canceller outputs, newest first
  z : List Smp := []                  -- equaliser outputs that wait for their decision, newest first
  vit : List (List Bool × Nat) := []  -- path metric of every trellis state before the oldest of them, 2^-68 LSB^2
  dec : List Bool := []               -- last decided levels, newest first
  pos : Nat := 0                      -- position of the next decided channel bit
  eq : List Byte := []                -- equaliser outputs as bytes, newest first, while a capture is armed (R94)
  out : Bool := false                 -- outside the limits of R72
deriving DecidableEq, Repr

/-- One read-channel chain beyond its registers (R71-R97). -/
structure ChInt where
  dsp : DspInt := {}
  mark : Nat := 0                     -- bit position of the previous mark
  frame : Nat := 0                    -- frame of the cluster that mark begins, 0-495
  acq : Nat := 0                      -- consecutive marks seen in SEARCH (R84)
  cands : List Cand := []
  provOld : Nat := 0                  -- the old prediction P while PROVISIONAL (R86)
  seamHold : Bool := false            -- seam hold (R106)
  writeHold : Bool := false           -- CH1 in a write run (R124)
  blank : Bool := false               -- blank mode (R124)
  stopped : Bool := false             -- unused chain of a write run (R124)
  landing : Bool := false             -- no mark accepted since the last landing (R107)
  obs : ClObs := .none
  marks : List Nat := []              -- frames of the current cluster whose mark was accepted
  addr : Option ClAddr := none        -- address the address units of the current cluster gave
  cur : ClFlags := {}                 -- flags of the current cluster
  bits : List (Nat × DetBit) := []    -- detected bits since the current cluster's run-in or the landing, newest first (R86, R107)
  entry : Option Nat := none          -- stitch entry of the tail part being read (R114)
  cap : Bool := false                 -- the armed capture covers the current cluster (R94)
  done : ClFlags := {}                -- the same of the cluster before, whose decode may still run
  doneObs : ClObs := .none
  doneCap : Bool := false
  capOf : ClFlags := {}               -- the flags of the cluster whose capture stands in the replay buffer (R94)
  known : List Nat := []              -- LDC codewords corrected in an earlier pass of a replay (R94)
  prevAddr : Option ClAddr := none    -- address decoded last in this stretch (R208)
  agcRun : Nat := 0                   -- sync marks in a row with the 9T level within 6 % (R74)
  redEff : BitVec 4 := 0#4            -- RED in effect (IPH_SET, EQM_SET)
deriving DecidableEq, Repr

/-- A part held in the stitch store (R107, R114). -/
structure StitchPart where
  entry : Nat                         -- stitch entry 0-15
  tail : Bool
  spot : Nat
  source : Nat                        -- chain that read it
  addr : Option ClAddr
  lo : Nat                            -- first and last frame present
  hi : Nat
  marks : List Nat                    -- frames present with an accepted mark
  flags : ClFlags
deriving DecidableEq, Repr

/-- A cluster waiting for the stitch decoder (R108, R110). -/
structure StitchJob where
  addr : ClAddr
  spot : Nat
  source : Nat
  joinFrame : Nat                     -- earliest frame accepted in both parts
  head : Nat
  tail : Nat
  hf : ClFlags                        -- flags of the head part and of the tail part
  tf : ClFlags
deriving DecidableEq, Repr

/-- A cluster held in a reassembly slot (R115). -/
structure RasSlot where
  slot : Nat
  addr : ClAddr
  ok : Bool
  result : Word
  edc : Word
  spot : Nat
  source : Nat
  passed : Bool                       -- the run has passed the cluster's last opportunity (R116)
  released : Bool                     -- its descriptor has been put; the slot waits for RAS_FREE (R118)
deriving DecidableEq, Repr

/-- Seam block and reassembly buffer of one engine beyond their registers (R102-R123). -/
structure SeamInt where
  openWin : Bool := false             -- a window is open (between crossing and its close)
  closeCross : Bool := false          -- a crossing has passed since CLOSING began (R112)
  late : Bool := false                -- 2 x W passed without settling (R113)
  inside : Nat := 0                   -- servo sets in a row with the tracking error inside the limit (R104)
  seen : List (ClAddr × Nat) := []    -- clusters of the run met by a spot, newest first: which spot (R150)
  parts : List StitchPart := []
  jobs : List StitchJob := []
  busy : List Nat := []               -- stitch entries in use
  held : List RasSlot := []           -- accepted clusters of the run not yet released
  used : List Nat := []               -- slots in use
  refused : List ClAddr := []         -- refused for lack of a slot
  gaps : List ClAddr := []            -- released MISSING after a failed join
  top : Nat := 0                      -- one above the highest cluster address delivered in the run
deriving DecidableEq, Repr

/-- A descriptor of the write ring (R129). -/
structure WrDesc where
  buf : Word
  addr : Word
  tag : Word
deriving DecidableEq, Repr

/-- Progress of a committed ring entry. -/
inductive WrPhase | committed | writing | written
deriving DecidableEq, Repr

/-- The verify result of a committed entry (R137). -/
structure WrResult where
  vr : Nat
  result : Word
  beta : BitVec 16
deriving DecidableEq, Repr

/-- A committed ring entry that has no posted result yet (R130, R132). -/
structure WrEntry where
  idx : Nat
  desc : WrDesc
  data : Cluster                      -- the bytes fetched from BUF
  phase : WrPhase
  res : Option WrResult
  endUs : Nat                         -- when its last channel bit was written, us
deriving DecidableEq, Repr

/-- Write path of one engine beyond its registers (R124-R145). -/
structure WrInt where
  entries : List WrEntry := []
  lastAddr : Option Word := none      -- ADDR of the descriptor before, in this run
  adipBad : Nat := 0                  -- ADIP words in a row that failed (R135)
  pOpt : Nat := 0                     -- P_OPT the running OPC refers to (R143)
  pBase : Int := 0                    -- P_PEAK by feedback, before feed-forward (R143)
  pErase : Nat := 0                   -- P_ERASE and P_PEAK at the start of the run, whose proportion is kept
  pPeak : Nat := 0
  levels : List (Word × BitVec 16) := []   -- blank-groove level per cluster address, one turn ahead (R143)
  gateAt : Nat := 0                   -- WPOS at which the gate opened
  wait : Nat := 0                     -- write-clock periods until the gate opens (R131)
  pos : Nat := 0                      -- channel bits of the run sent so far
  count : Nat := 0                    -- entries committed in this run
  closing : Bool := false             -- the gate closes at the run-out of the last committed cluster (R133)
  adip : Option ClAddr := none        -- address of the last ADIP word of spot 1, and which of its cluster's three it is (R135)
  adipIdx : Option Nat := none
  steps : List (BitVec 64) := []      -- LPW blocks of the OPC address units still to begin (R142)
  aborting : Bool := false            -- an abort waits for the verifying chain (R139)
deriving DecidableEq, Repr

/-- A cluster in the retry ladder (R147-R151). -/
structure LadderItem where
  addr : ClAddr
  spot : Nat
  rung : Nat
  attempt : Nat
  due : Option Nat := none            -- deadline named by Armature, us (R148)
deriving DecidableEq, Repr

/-- An attempt of the ladder in progress (R149, R153). -/
structure Attempt where
  item : LadderItem
  spot : Nat
  chain : Fin 5
  running : Bool                      -- its run is open; before that ramps or the spindle have still to settle
  replay : Bool                       -- its capture is being replayed
  read : List ClAddr                  -- clusters delivered with OK = 1
  skip : Bool                         -- Armature has answered SKIP
  undo : List (Fld × Nat)             -- fields the rung has changed, as they were
deriving DecidableEq, Repr

/-- Temper session of one engine beyond its registers (R156-R167). -/
structure TmpInt where
  rotation : Nat := 0                 -- next target of the periodic rotation (R164)
  run1 : List WindowResult := []
  run2 : List WindowResult := []
  saved : List (Reg × Word) := []     -- registers as they were at the session's start (R165)
  retry : Bool := false               -- a session waits for RETRY_DLY
  retryTarget : Nat := 0
  forced : Bool := false              -- a forced hand-over waits for a sync boundary (R160)
  straddle : Bool := false            -- CALIB waits for the straddling cluster
  outgoing : Option (Fin 5 × Nat) := none  -- chain and spot whose straddling cluster is not delivered yet (R160)
  incoming : Option (Fin 5 × Nat) := none  -- the chain that took over, and the frame from which it has the spot
deriving DecidableEq, Repr

/-- Anvil accumulator: 48-bit mantissa and exponent tag AE (R171, R180). -/
structure Acc where
  a : Int := 0
  ae : Int := 0
deriving DecidableEq, Repr

/-- Anvil loop engine beyond its registers (R171-R198). -/
structure AnvInt where
  pm : List (Nat × Word) := []        -- program memory: bank x 2048 + address; unlisted words are NOP
  dm : List (Nat × Word24) := []      -- data memory; unlisted words are 0
  acc : Vector Acc 4 := Vector.replicate 4 {}
  ix : Vector (BitVec 11) 4 := Vector.replicate 4 0#11
  port : Vector Word24 8 := Vector.replicate 8 0#24     -- value on the output port (read back)
  sat : BitVec 8 := 0#8               -- SAT<q>
  inp : Vector Word24 16 := Vector.replicate 16 0#24    -- servo input ports (R46)
  snap : Vector Word24 16 := Vector.replicate 16 0#24   -- servo inputs of this tick
  intn : Vector Word24 16 := Vector.replicate 16 0#24   -- internal inputs of this tick (R184)
  aovf : BitVec 4 := 0#4
  bhi : BitVec 16 := 0#16
  blo : BitVec 16 := 0#16
  bovf : BitVec 16 := 0#16
  sreq : Bool := false
  sedge : Bool := false
  sdir : Bool := false
  first : Bool := false
  late : Bool := false
  startPend : Bool := false           -- RUN = 1 written, start at the next tick start
  stopPend : Bool := false            -- RUN = 0 written, stop after the next WAIT
  waiting : Bool := true              -- the program has executed WAIT (or is stopped)
  due : Nat := 0                      -- tick starts that fell due before WAIT (R176)
  rpt : Option Nat := none            -- the next instruction runs this many times (R186)
  dueStale : Bool := false            -- the tick that waits for WAIT is stale
  cycles : Nat := 0                   -- cycles since the tick start
  quarters : Nat := 4500              -- length of the present tick, quarter cycles (R174, R198)
  lead : Int := 0                     -- quarter cycles from its grid point to its start (R174, R176)
  tseq : BitVec 6 := 0#6
  satCnt : Vector Nat 8 := Vector.replicate 8 0          -- saturation supervisor counters, quarter cycles (R192)
  ramp : Vector Word24 8 := Vector.replicate 8 0#24      -- CUR of the ramps
  rampInit : BitVec 8 := 0#8          -- INIT written, applies at the next tick start
deriving DecidableEq, Repr

/-- Servo sequencing of ESQ<n> (R199-R213). -/
structure LoopInt where
  searches : Nat := 0                 -- FOCUS_SEARCH attempts on the disc (R203)
  fails : List Nat := []              -- times of failed recoveries in us, newest first (R208)
  fault : Nat := 0                    -- rank of the fault being recovered: 1 strongest, 5 weakest, 0 none
  down : Bool := false                -- the engine is out of placement after a loop failure
  seekLost : Bool := false            -- a seek left the position to be treated as lost (R206, R213)
deriving DecidableEq, Repr

/-- Sled gearing beyond its registers (R210). -/
structure SlgInt where
  rem : Int := 0                      -- carried remainder, 1 / (65,536 x 3,600) microsteps
deriving DecidableEq, Repr

/-- Spindle block beyond its registers (R214-R230). -/
structure SpnInt where
  sumD : Int := 0                     -- integral sums of the current loops, 2^-16 of full scale
  sumQ : Int := 0
  sumS : Int := 0                     -- integral of the internal speed loop, 2^-28 of IMAX
  iqCmd : Int := 0                    -- current command iq*, mA
  iq : Int := 0                       -- measured iq, mA
  emf : Nat := 0                      -- EMF magnitude of the observer, uV
  omega : Int := 0                    -- angular speed of the observer's loop, 2^-16 table units per period (R219)
  uA : Int := 0                       -- voltage applied in the last period, alpha and beta, 2^-16 of Vbus
  uB : Int := 0
  iA : Int := 0                       -- currents of the last period, alpha and beta, mA
  iB : Int := 0
  bad : Nat := 0                      -- periods in a row that fail a plausibility test (R221)
  good : Nat := 0                     -- periods in a row that pass both (R223)
  tried : Nat := 0                    -- periods at HAND_RPM in OPEN (R223)
  aligned : Nat := 0                  -- periods of ALIGN (R223)
  forced : Nat := 0                   -- forced speed of OPEN, 1/2,000 rpm
  angFrac : Nat := 0                  -- fraction of the forced angle, 2^-16 table units
  port6 : Bool := false               -- the last iq* came from port 6 (R216)
  vlimOn : Nat := 0                   -- periods in a row at the limit
  vlimOff : Nat := 0                  -- periods in a row below 98 % of it
  losTimes : List Nat := []           -- times of losses of synchronism, us (R221)
  oc : Bool := false                  -- the last sample was above the overcurrent limit
  elRev : Int := 0                    -- electrical revolutions from the origin, c of R220
  theta : Nat := 0                    -- electrical angle, table units
  refFrac : Int := 0                  -- fraction of REF, 1/2,000 rpm
  gate : Nat := 0                     -- bridge: 0 off, 1 driving, 2 zero vector
  comp : Vector Nat 3 := Vector.replicate 3 0   -- compare values C_U, C_V, C_W of R215
  power : Int := 0                    -- 1.5 x Vbus x (ud id + uq iq), mW
  restart : Bool := false             -- a start follows the stop in progress (R222, R224)
  coastFrom : Nat := 0                -- speed at which the last coast began (R224)
  since : Option Nat := none          -- when the start in progress began, us
  took : Option Nat := none           -- the last spin-up as measured, ms: it replaces SPIN_MS (R254)
deriving DecidableEq, Repr

/-- Sled block beyond its registers (R231-R237). -/
structure SldInt where
  vel : Int := 0                      -- velocity, 1/50,000 microsteps/s
  frac : Int := 0                     -- fraction of a microstep carried, 1/2,500,000,000
  homeLeft : Nat := 0                 -- microsteps left of a homing move
  parking : Bool := false
  powered : Bool := false             -- bridges on
  encCount : Int := 0                 -- encoder counts since the index (R236)
deriving DecidableEq, Repr

/-- Everything one engine slice holds beyond its registers. -/
structure EngInt where
  hl : HlInt := {}
  ch : Vector ChInt 5 := Vector.replicate 5 {}
  cap : List (Nat × Byte) := []       -- capture buffer, 64 KiB (R101)
  capTrig : Bool := false             -- the selected trigger event of an armed capture has occurred (R100)
  seam : SeamInt := {}
  wr : WrInt := {}
  rty : List LadderItem := []
  att : Option Attempt := none
  slow : Option (Nat × List ClAddr) := none   -- speed commanded before rung 6; clusters of the zone still to be read at the lower
                                      -- speed (R154, R155)
  tmp : TmpInt := {}
  anv : AnvInt := {}
  loop : LoopInt := {}
  slg : SlgInt := {}
  spn : SpnInt := {}
  sld : SldInt := {}
  esqMem : List (Nat × Byte) := []    -- ESQ<n> memory, 64 KiB
  wfi : Bool := false                 -- ESQ<n> waits in WFI (R452)
  retained : Bool := true             -- retention storage holds the block (R453, R458)
  mechDue : Bool := true              -- mechanism data of Plinth waits until the engine is parked (R394)
deriving DecidableEq, Repr

/-- Changer axis beyond its registers (R238-R241). -/
structure AxInt where
  target : Int := 0                   -- commanded position while geared
  stopping : Bool := false            -- decelerating to rest
  rem : Int := 0                      -- remainder of the gear, 2^-16 steps
  count : Int := 0                    -- master counts from the engagement
  encBase : Int := 0                  -- POS last written
  encCount : Int := 0                 -- axis encoder counts since that write
deriving DecidableEq, Repr

/-- Bus and chopper beyond their registers (R226-R228). -/
structure BrkInt where
  samples : List Nat := []            -- last VBUS samples, newest first, mV
  power : List Int := []              -- bus power samples of the last ms, mW
  overs : Nat := 0                    -- samples in a row with the chopper gate on and VBUS above OV1 (R227)
  weak : Nat := 0                     -- samples in a row with the gate on and the chopper current below CHOP_IMIN
deriving DecidableEq, Repr

/-- What an engine tells Armature within a step; Armature takes it up before the step ends. -/
inductive ArmNote
  | erasure (e : Eng) (c : ClAddr)                        -- rung 7 hands the cluster to the redundancy layer (R155)
  | left (e : Eng) (c : ClAddr) (rung : Nat)              -- a cluster left the ladder at a rung (R155, R253)
  | decoded (e : Eng) (c : ClAddr) (ldc bis : Nat)        -- an OK cluster with its correction totals (R253)
  | verified (e : Eng) (tag : Word) (vr : Nat)            -- a write result (R137)
  | pca (e : Eng) (c : ClAddr)                            -- a cluster of the power calibration area is used (R142)
  | engineOut (e : Eng)                                   -- the engine is out of placement (R208, R270)
  | unfocusable (e : Eng)                                 -- three FOCUS_SEARCH attempts failed (R203)
deriving DecidableEq, Repr

/-- A ladder message to Armature: cluster, rung, estimated time to the end of the ladder in us (R155). -/
structure LadderMsg where
  e : Eng
  addr : ClAddr
  rung : Nat
  us : Nat
  got : Bool := false                 -- a result with OK = 1 came with a SKIP
deriving DecidableEq, Repr

/-- A 64-byte slot of a map page; records of 16 bytes lie in the low bits (R244-R249). -/
abbrev MRec := BitVec 512

/-- A part of a map record: `w` bits from bit `lo`. -/
structure MF where
  lo : Nat
  w : Nat

/-- The header of a map page: TYPE and GEN; PAGE is its number and CRC a function of its bytes (R244). -/
structure MapPage where
  typ : Nat
  gen : Nat
deriving DecidableEq, Repr

/-- A loss entry (R298). -/
structure LossEnt where
  run : Nat
  sFirst : Nat
  sLast : Nat
  vol : Nat
  members : BitVec 8
  rows : BitVec 16
  seq : Nat
  reason : Nat
  blocks : BitVec 16
deriving DecidableEq, Repr

/-- A set bit of the dirty-region bitmap, with the SEQ of the record that set it (R292). -/
structure DirtyBit where
  run : Nat
  g : Nat
  j : Nat
  seq : Nat
deriving DecidableEq, Repr

/-- The placement map and what is checkpointed with it (R243-R249, R336). Keys of `recs` are 256 x page + slot. -/
structure MapImg where
  pages : List (Nat × MapPage) := []
  recs : List (Nat × MRec) := []
  loss : List LossEnt := []
  dirty : List DirtyBit := []
  windows : List (Nat × Nat) := []    -- rung-7 hand-offs of a disc in the current window (R495)
deriving DecidableEq, Repr

/-- A map edit (R318), with the TYPE of its page. -/
structure Edit where
  page : Nat
  typ : Nat
  off : Nat
  len : Nat
  val : Nat
deriving DecidableEq, Repr

/-- The payload of a journal record (R317). -/
inductive JBody
  | data (vol lba : Nat) (blocks : List Block)
  | map (group : Nat) (edits : List Edit)
  | dirty (ents : List (Nat × Nat × Nat × Bool))       -- run, region, member, clear
  | retire (seqs : List Nat)
  | checkpoint (run kind boundary : Nat)
  | loss (remove : Bool) (ents : List LossEnt)
  | mapckpt (gen seqC : Nat)
  | quench (rtc bytes : Nat)
  | boot (cnt rtc glb : Nat)
  | pad (bytes : Nat)
deriving DecidableEq, Repr

/-- A record of the ring, from the head on (R315). -/
structure JRec where
  seq : Nat
  fin : Bool                          -- FLAGS.END
  body : JBody
  ofs : Nat
  size : Nat
  owner : List (Fin 65 × Nat)         -- queues and tags of the host commands that wait for it
  onA : Bool
  onB : Bool
  retired : Bool
  asked : Bool := false               -- its RETIRE is sealed or waits
deriving DecidableEq, Repr

/-- A seal that waits (R320). -/
structure SealReq where
  body : JBody
  fin : Bool
  owner : List (Fin 65 × Nat)
deriving DecidableEq, Repr

/-- A superblock slot (R314). -/
structure Super where
  useq : Nat
  plActive : Bool
  cap : Nat
  headSeq : Nat
  headOfs : Nat
  plGen : Nat
  jid : Nat
deriving DecidableEq, Repr

/-- A Plinth copy (R333). -/
structure PlCopy where
  gen : Nat
  ents : List (Nat × List Byte)
deriving DecidableEq, Repr

/-- One MRAM mirror beyond the records of its ring (R313). -/
structure Mirror where
  super : Vector (Option Super) 2 := Vector.replicate 2 none
  pl : Vector (Option PlCopy) 2 := Vector.replicate 2 none
deriving DecidableEq, Repr

/-- The boot NAND: the newest anchor with what it points at, and the Plinth fallback (R336, R337). -/
structure Nand where
  gen : Nat := 0
  seqC : Nat := 0
  anchor : Option MapImg := none
  pl : Option PlCopy := none
deriving DecidableEq, Repr

/-- A header record (R282). -/
structure HdrRec where
  typ : Nat
  vol : Nat
  seq : Nat
  group : Nat
  body : BitVec 896
deriving DecidableEq, Repr

/-- Journal and Plinth beyond their registers (R313-R337). -/
structure JrnInt where
  mir : Vector Mirror 2 := Vector.replicate 2 {}
  nand : Nand := {}
  recs : List JRec := []              -- oldest first, from the head of the ring
  tail : Nat := 0                     -- ring offset of the next record
  next : Nat := 1                     -- SEQ of the next record
  cseq : Nat := 0                     -- highest committed SEQ
  wait1 : List SealReq := []
  wait2 : List SealReq := []
  cap : Nat := 0                      -- standing CAP in MiB, 0 before the journal stands
  bcrCap : Nat := 0
  jid : Nat := 0                      -- JOURNAL_ID
  headAdv : Nat := 0                  -- ring bytes the head has passed since the last superblock write
  changed : List Nat := []            -- pages changed since the last committed checkpoint
  ckptC : Nat := 0                    -- SEQ_C of the latest committed MAPCKPT
  ckptRun : Bool := false             -- a checkpoint's MAPCKPT is not committed yet
  ckptDue : Bool := false             -- a checkpoint is to start (R320, R337)
  shelf : List JRec := []             -- records on mirrors that are not used this boot
  hdrDue : List (Nat × Nat × List HdrRec) := []   -- SEQ, disc, header records not yet verified on the disc (R323)
  ents : List (Nat × List Byte) := [] -- the active Plinth entries; an absent one takes its reset value
  plHigh : Nat := 0                   -- highest generation seen since boot (R334)
  plFallDue : Bool := false
deriving DecidableEq, Repr

/-- Where a disc is (R260, R492). -/
inductive DiscLoc | magazine | engine (e : Eng) | unknown
deriving DecidableEq, Repr

/-- What Armature holds about a disc beyond its record (R253, R252, R495, R496). -/
structure DiscInt where
  zone : Vector (Nat × Nat) 4 := Vector.replicate 4 (0, 0)
  radii : Vector Nat 4 := Vector.replicate 4 0    -- radius of the first cluster of each zone, um (r0 of R212)
  loc : DiscLoc := .magazine
  mL : Nat := 0
  mB : Nat := 0
  q : Nat := 0
  prev : Nat := 0x10000
  g : Nat := 0
  fresh : Bool := true                -- mL_PREV is still the placeholder
  wroteAt : Option Nat := none        -- last time PATINA went to the disc record
  scrub : Bool := false               -- to be scrubbed once before the next aging mark
  pOpt : Option Nat := none           -- first valid P_OPT after the registration (R252)
deriving DecidableEq, Repr

/-- A header cluster on a disc (R281). -/
structure HdrCl where
  disc : Nat
  layer : Nat
  cluster : Nat
  hseq : Nat
  recs : List HdrRec
deriving DecidableEq, Repr

/-- A stripe image being gathered (R285). -/
structure Image where
  vs : Nat
  old : Bool                          -- an image of the geometry a reshape is leaving (R307)
  blocks : List (Nat × Block)
  placed : Option (Nat × Nat × List Nat)   -- run and stripe it was written to and verified, and its lost LBAs (R299)
deriving DecidableEq, Repr

/-- The open commit group of a write-once volume (R286). -/
structure Group where
  vol : Nat
  images : List Image
  defects : List MRec
  cmds : List (Fin 65 × Nat)
  closed : Bool
deriving DecidableEq, Repr

/-- A rebuild or migration of a run's member (R302, R309): state 0 WAIT_TARGET, 1 RUNNING, 2 STALLED. -/
structure Rebuild where
  run : Nat
  j : Nat
  st : Nat
  target : Nat
  layer : Nat
  first : Nat
  b : Nat
  migrate : Bool
  oldRun : Nat                        -- run STATE to return to
  chosen : Bool                       -- the target's clusters are reserved
  last : Nat                          -- stripes in use when the target was reserved; later ones go to it directly
  ckpt : Nat                          -- B as the last committed CHECKPOINT has it
deriving DecidableEq, Repr

/-- A reshape (R306). -/
structure Reshape where
  vol : Nat
  k : Nat                             -- old geometry
  m : Nat
  live : Nat                          -- live boundary L
  ckpt : Nat                          -- checkpointed boundary
deriving DecidableEq, Repr

/-- A decision asked of the policy (R261, R263, R267, R268). -/
inductive Ask
  | group (vol stripes : Nat)
  | source (r : ReadReq)
  | load (e : Eng) (cur : LoadCand) (cands : List LoadCand)
  | speed (e : Eng) (radius rc hostKbs fill size : Nat)
deriving DecidableEq, Repr

/-- A decision (R263: `set` is a mask of members). -/
inductive Answer
  | group (members : Option (List Nat))
  | direct | reconstruct (set : BitVec 8) | skip (set : BitVec 8) | cont
  | load (disc : Option Nat)
  | speed (rpm : Nat)
deriving DecidableEq, Repr

/-- A PLC core: registers, mode, pc and local memory (R17, R18). -/
structure Plc where
  x : Vector Word 32 := Vector.replicate 32 0#32
  pc : Word := 0#32
  user : Bool := false
  mem : List (Nat × Byte) := []
  pmp : List (Nat × Nat × Bool) := [] -- what U mode may reach: address, length, writable (R18)
  call : Option (Ask × Nat) := none   -- the call in progress and the time it was entered
  queue : List Ask := []              -- calls waiting for this core
  view : List (Nat × MRec) := []      -- disc records as the call in progress found them (R259)
  mst : List Nat := []                -- and the states of the members it is asked about
  reload : Bool := false              -- a loaded image waits for the end of the call in progress (R392)
deriving DecidableEq, Repr

/-- Work that Armature has noted for itself. -/
inductive Todo
  | repair (run stripe row j : Nat)       -- rewrite a reconstructed cluster (R296)
  | zero (run stripe row j : Nat)         -- zeros for a lost cluster (R297)
  | parity (run stripe row : Nat)         -- encode the row's parity again
deriving DecidableEq, Repr

/-- Armature, redundancy and policy beyond their registers (R243-R312). -/
structure ArmInt where
  map : MapImg := {}
  gens : List Nat := []               -- pages from 71 up resident in DDR4
  cache : List Nat := []              -- cached pages, last used first (R251)
  discs : List (Nat × DiscInt) := []
  hdrs : List HdrCl := []             -- header areas of the discs
  media : List (Nat × Cluster) := []  -- clusters of the discs
  groups : List Group := []
  groupSeq : Nat := 1
  rebuilds : List Rebuild := []
  reshapes : List Reshape := []
  locks : List (Nat × Nat × Nat × Nat) := []      -- locked rows: run, stripe, row, member the lock is held for
  lockWait : List (Nat × Nat × Nat × Nat) := []   -- waiting destages: the same and member
  todo : List Todo := []
  incons : List (Nat × Nat × Nat) := []       -- inconsistent rows (R297)
  initB : List (Nat × Nat) := []              -- initialisation boundary of a run (R289)
  plc : Vector Plc 4 := Vector.replicate 4 {}
  image : List Byte := []             -- policy image loaded, header included
  faultAt : Vector (List Nat) 4 := Vector.replicate 4 []   -- times of policy faults per entry, newest first
  sources : List ((Nat × Nat × Nat) × BitVec 8) := []      -- RECONSTRUCT answers waiting for their read: run, stripe, member
  destaged : List (Nat × (Nat × Nat × Nat × Nat)) := []    -- DATA record, cluster (run, stripe, row, member) brought to media
  snapSeq : Nat := 0
  snap : Vector (List Byte) 2 := Vector.replicate 2 []     -- the two snapshot buffers
  snapCur : Fin 2 := 0
  tempStuck : BitVec 32 := 0#32
  hours : Nat := 0                    -- HOURS_TOTAL (R495)
  resync : List (Nat × Nat × Nat) := []       -- regions to resynchronise: run, region, member (R293)
  woWait : List (Nat × Nat × List (Fin 65 × Nat)) := []    -- REFUSING: SEQ, header clusters still needed, commands (R310)
  exchange : List (Nat × Nat) := []   -- discs in an exchange and the time it ends (R267, R492)
  forced : List Nat := []             -- discs a DISC_FAIL with REBUILD = 1 failed (R387)
  noGroup : List Nat := []            -- volumes whose latest choice of a write group found no media (R261, R381)
deriving DecidableEq, Repr

/-- A completion entry that is due, before its position, phase and SQ head are known (R358). -/
structure Cqe where
  tag : Nat
  status : Nat
  result : Nat
  detail : Nat
deriving DecidableEq, Repr

/-- An outstanding command of a queue. -/
structure Cmd where
  tag : Nat
  cap : List Byte                     -- the capsule
  origin : Nat                        -- us of the doorbell of R363
  order : Nat                         -- order of fetch over all queues
  ponr : Bool := false                -- past its point of no return (R365)
  interim : Bool := false
  running : Bool := false             -- its row has begun
  decided : Bool := false             -- its outcome is registered (R367)
  late : Bool := false                -- its deadline has passed after the point of no return (R365)
  key : Option (BitVec 512) := none   -- key bound at admission (R432)
  fin : Option Cqe := none            -- the entry it completes with once its record is committed
  segs : List (BitVec 128) := []      -- descriptors its segments hold (R377)
  upTo : Option Nat := none           -- FLUSH: the SEQ below which DATA records are to be retired (R383)
  tmpEn : Option Bool := none         -- CAL_RESTORE that waits: TMP_CTRL.EN as it stood (R393)
deriving DecidableEq, Repr

/-- A queue beyond its registers (R348-R370). -/
structure QInt where
  dbSq : Bool := false                -- a doorbell waits for an index read
  dbCq : Bool := false
  dbAt : Nat := 0                     -- time of the latest doorbell with SQ = 1
  idx : Option (Option Nat) := none   -- an index read is issued; the latest SQ doorbell it serves (R351, R363)
  fetch : List (Nat × Nat) := []      -- slots being fetched: how many, origin
  head : Nat := 0                     -- fetch head, which may lie beyond SQ_HEAD (R353)
  part : List (BitVec 512) := []      -- fetched slots of a command not yet whole
  cqHead : Nat := 0
  due : List Cqe := []                -- entries held back (R362, R346)
  cmds : List Cmd := []
  low : Vector Nat 3 := Vector.replicate 3 0      -- alignment bits of the bases of queue 0 as written: SQ, CQ, index area (R370)
  newRing : Bool := false             -- queue 0's completion ring changed while DISABLED (R369)
  last : Bool := false                -- disabled in the cycle of a doorbell, whose slots are still to be fetched (R367)
deriving DecidableEq, Repr

/-- The PCIe function beyond the registers of BAR0 (R343-R347, R491). -/
structure CqiInt where
  q : Vector QInt 65 := Vector.replicate 65 {}
  order : Nat := 0
  bme : Bool := false
  msixEn : Bool := false
  fmask : Bool := false
  mask : BitVec 129 := BitVec.allOnes 129
  pba : BitVec 129 := 0#129
  table : List (Nat × Word) := []     -- address and data words of the MSI-X table, by BAR2 word
  d3 : Bool := false
  cfg : List (Nat × Word) := []       -- configuration space as the host last wrote it, by dword (R491)
  paused : Bool := false              -- completions pause during an activation (R445)
  held : List Nat := []               -- vectors whose message waits for Bus Master Enable or the pause
deriving DecidableEq, Repr

/-- A buffer pool (R409-R411). -/
structure PoolInt where
  freed : List Nat := []              -- freed buffers, last freed first
  next : Nat := 0                     -- lowest buffer never handed out
  owners : List (Nat × List Byte) := []
  quar : List Nat := []
deriving DecidableEq, Repr

/-- A valid line of the stripe cache (R414). -/
structure SLine where
  line : Nat
  dirty : Bool
  data : Block
  used : Nat
deriving DecidableEq, Repr

/-- A fill in progress and the accesses it serves, oldest first (R415). -/
structure SFill where
  line : Nat
  way : Option Nat                    -- key 16 x set + way it goes to; none: the side buffer
  wait : List (Nat × Access)
deriving DecidableEq, Repr

/-- Stripe cache beyond its registers; line keys are 16 x set + way (R414-R423). -/
structure StrcInt where
  lines : List (Nat × SLine) := []
  evb : List (Nat × Block) := []      -- eviction buffer, oldest first
  side : List (Nat × Block) := []     -- side buffer, oldest first
  fills : List SFill := []
  wait : List (Nat × Nat × Access) := []   -- accesses that wait: requester, line
  pf : List Nat := []                 -- lines of a prefetch that wait for a fill slot
  raw : List (Nat × Block) := []      -- what the array holds where no line is valid (R420)
  stamp : Nat := 0
deriving DecidableEq, Repr

/-- Memory beyond its registers (R398-R427). -/
structure MemInt where
  pool : Vector PoolInt 4 := Vector.replicate 4 {}
  strc : StrcInt := {}
  losses : Vector Nat 16 := Vector.replicate 16 0
  sinceC4 : Nat := 0                  -- contests since a tier-4 win
  ceRows : List (Nat × Nat) := []     -- patrol passes with corrected errors, by row key
  badBlocks : List Nat := []          -- quarantined 128 KiB blocks
  ceSeen : List Nat := []             -- rows with corrected errors in the patrol pass in progress
  sramRows : List (Nat × List Nat) := []   -- powered hours with corrected errors, by macro and row (R407)
  spram : List (Nat × Byte) := []     -- shared SRAM
  core : List (Nat × Byte) := []      -- local memories of HST0, HST1, SUP and SEC, by core address (R17)
  chk : List (Nat × Option Byte) := []    -- check bits that test writes have stored, by core address / 8 (R408)
deriving DecidableEq, Repr

/-- A cipher job (R436). -/
structure CJob where
  prio : Nat
  slot : Nat
  blocks : Nat
deriving DecidableEq, Repr

/-- One cipher unit (R437). -/
structure CuInt where
  run : Option CJob := none
  susp : List CJob := []              -- highest priority first
  queue : List CJob := []             -- waiting, oldest first
deriving DecidableEq, Repr

/-- The fuses of R481 that the part's behaviour depends on. -/
structure Fuses where
  drk : BitVec 256 := 0#256
  drkLock : Bool := false
  ownerHash : BitVec 384 := 0#384
  ownerLock : Bool := false
  revoke : BitVec 4 := 0#4
  svn : BitVec 32 := 0#32
  dbgVendor : Bool := false
deriving DecidableEq, Repr

/-- Security unit, fuses and firmware beyond their registers (R428-R446, R481). -/
structure SecInt where
  blown : Fuses := {}                 -- as the fuses stand
  fuse : Fuses := {}                  -- as the last ROM boot read them (R481)
  keys : List (Nat × BitVec 512) := []
  mapKey : Option (BitVec 256) := none
  cu : Vector CuInt 2 := Vector.replicate 2 {}
  nor : Option (Vector (Option Img) 2) := none     -- none: as the part was delivered, not read yet
  bcr : Option Bcr := none
  staged : Option Img := none
  runSlot : Fin 2 := 0                -- slot of the running image: the one booted, or the one activated since (R395)
  hand : Option (Nat × Nat) := none   -- activation: queue tag and next processor step 0-15
  challenge : Option (BitVec 256) := none
deriving DecidableEq, Repr

/-- Who holds the boundary pins (R480). -/
inductive PinMode | normal | extest | highz | clamp
deriving DecidableEq, Repr

/-- What the part is doing between resets (R325-R340, R449, R459). -/
inductive Life
  | reset                             -- POR held or its release awaited
  | hold                              -- boot waits before the Plinth restore for PFAIL_N (R329)
  | running
  | stopped                           -- boot stopped: no image, DDR4 training failed, PFAIL_N during boot (R329, R340, R400)
  | quenched                          -- Quench has ended; the rails may fall (R326)
deriving DecidableEq, Repr

/-- Hearth, Bellows, fuses' access, pins (R325, R449-R482). -/
structure PwrInt where
  life : Life := .reset
  rtc : Nat := 0                      -- 1/32,768 s since VDD_AON power-up
  pfail : Bool := false               -- PFAIL latch (R325)
  latch : BitVec 20 := 0#20           -- VALID, DONE_A, DONE_B, BROWNOUT, DUR of the latch (R450)
  stbyDone : BitVec 2 := 0#2          -- DONE bits of the standby copy (R455)
  bootCnt : BitVec 4 := 0#4
  xtalFail : Bool := false
  hotOut : Bool := false              -- every engine is out of placement for its temperature (R488)
  pins : PinMode := .normal
  accFault : BitVec 16 := 0#16        -- cores whose first access fault of this boot is logged (R24)
  timOut : BitVec 12 := 0#12          -- level of each timer's output
  rtcHi : Word := 0#32                -- PWR_RTC_HI as the last read of PWR_RTC_LO latched it (R467)
  cseqHi : Word := 0#32               -- GLB_JNL_CSEQ_HI as the last read of GLB_JNL_CSEQ_LO latched it (R342)
  wdtUs : Nat := 0                    -- microseconds since the watchdog's count last restarted (R464)
deriving DecidableEq, Repr
/-- What leaves the part: words on the head links, pins, host memory, the changer, the debug port. -/
inductive Out
  | ds (e : Eng) (w : DsWord)                       -- a downstream word leaves, with the frame before it or at once (R49, R52)
  | frame (e : Eng) (blocks : List LinkBlock) (line : List LinkBlock)
                                                    -- a downstream lane frame: marker and data blocks, and the same scrambled (R36)
  | irq (f : Fld)                                   -- the interrupt an enabled event bit raises
  | axStep (a : Fin 4) (dir : Bool)                 -- a STEP pulse with the DIR pin's level (R238)
  | sup (x : SupEvt)                                -- an event reaches SUP
  | idxRead (q : Nat)                               -- read of an index area, bytes 0-3 (R349)
  | slotRead (q : Nat) (first n : Nat)              -- read of submission slots (R351)
  | sqHead (q : Nat) (v : Nat)                      -- SQ_HEAD written to the index area (R352)
  | cqe (q : Nat) (idx : Nat) (entry : BitVec 128)  -- a completion entry written to host memory (R358)
  | msix (v : Nat)                                  -- an MSI-X message (R345)
  | hostData (addr : Nat) (len : Nat) (v : Nat) (ro : Bool)
                                                    -- data of a command written to host memory, and Relaxed Ordering (R31)
  | aer                                             -- an error reported through AER (R347)
  | strcData (g : Nat) (line : Nat) (b : Block)     -- a read served by the stripe cache or DDR4, for requester 4 x group + place (R414)
  | strcDone (g : Nat) (line : Nat)                 -- a write accepted
  | grant (g : Nat)                                 -- the winner of an arbiter contest (R424)
  | load (e : Eng) (disc : Nat)                     -- the changer puts a disc into an engine
  | unload (e : Eng) (disc : Nat)                   -- the changer returns a disc to its slot
  | mailbox (bytes : List Byte)                     -- the debug mailbox answers (R482)
  | fuseResult (code : Nat)                         -- RESULT of FUSE_PROG (R481)
  | jobFailed (slot : Nat)                          -- a cipher job naming an empty slot (R429)
deriving DecidableEq, Repr

/-- What the machine holds. -/
structure State where
  pending : List Instr := []
  regs : List (Reg × Word) := []
  us : Nat := 0
  eng : Vector EngInt 8 := Vector.replicate 8 {}
  ax : Vector AxInt 4 := Vector.replicate 4 {}
  brk : Vector BrkInt 2 := Vector.replicate 2 {}
  mq : List (Nat × List (BitVec 128)) := []
  ddr : List (Nat × Block) := []
  events : List EventRec := []
  evSeq : Nat := 0
  encOffs : Vector Int 8 := Vector.replicate 8 0      -- sled encoder index offsets held in Plinth (R236)
  fresh : Nat := 0
  notes : List ArmNote := []
  ladderMsgs : List LadderMsg := []
  jrn : JrnInt := {}
  arm : ArmInt := {}
  cqi : CqiInt := {}
  mem : MemInt := {}
  sec : SecInt := {}
  pw : PwrInt := {}
  out : List Out := []
deriving DecidableEq, Repr

/-- Why a command would stop the part. The spec gives every command of its table an effect, so no meaning raises one. -/
inductive Fault
deriving DecidableEq, Repr

/-- Why the model has no answer. -/
inductive Refusal
  /-- Raised by an arm of `exec` whose command has no meaning yet. Safe: the model stops. -/
  | notModelled (mnemonic : String)
deriving DecidableEq, Repr

/-- The part in its first power-on reset: every register at its reset value (an unlisted one reads it, `Reg.reset`), every
store empty, every medium as a new part finds it, POR not yet released, no command waiting (R10, R460, log 1). -/
def State.reset : State := {}

/-- The answer of a meaning. -/
abbrev Outcome := Host.Outcome State Fault Refusal

end Sys2Proof.Machine
end

