-- ==== Sys2Proof/Machine/Ops.lean ====
section
/-! DEFINITION. Reading and writing registers and fields, memory, message queues, the event log, and the outputs:
the operations every unit is written over. -/
namespace Sys2Proof.Machine

/-- Resets the register tables do not give as one number: CTRL.SPOT of a chain, the self tap of a canceller path, the
centre tap of an equaliser, the lottery tickets per group, partition 0 of the stripe cache, a free claim (R99, R80,
R427, R475). -/
def Reg.special (r : Reg) : Option Word :=
  match r.blk with
  | .ch =>
    if r.off = 0x000 then some (0x8#32 ||| (BitVec.ofNat 32 r.k <<< 8))
    else if r.k < 4 ∧ r.off = 0x040 + 28 * r.k + 12 then some 0x1000#32
    else if r.off = 0x0C0 + 28 then some 0x1000#32
    else if r.off = 0x100 + 28 then some 0x1000#32
    else none
  | .glb =>
    if r.off = 0x4010 then some 0x1FFFF#32
    else if r.off = 0x3000 + 32 then some 64#32
    else if r.off = 0x3000 + 40 then some 48#32
    else if r.off = 0x3000 + 44 then some 16#32
    else if r.off = 0x3000 + 48 then some 16#32
    else if r.off = 0x3000 + 60 then some 4#32
    else none
  | _ => none

/-- The value of a register after power-on reset (R10); reserved offsets read 0 (R11). -/
def Reg.reset (r : Reg) : Word :=
  match r.special with
  | some v => v
  | none => match r.info with
    | some t => t.resetValue
    | none => 0#32

/-- The value of a register. -/
def State.rd (s : State) (r : Reg) : Word := Cells.get Reg.reset s.regs r

/-- Give a register a value. -/
def State.wr (s : State) (r : Reg) (v : Word) : State := { s with regs := Cells.set Reg.lt Reg.reset s.regs r v }

/-- The bits of a field. -/
def Fld.mask (f : Fld) : Word := (BitVec.ofNat 32 (2 ^ f.w - 1)) <<< f.lo

/-- The value of a field in a register word. -/
def Fld.of (f : Fld) (v : Word) : Nat := (v.toNat >>> f.lo) % 2 ^ f.w

/-- A register word with a field replaced. -/
def Fld.into (f : Fld) (v : Word) (x : Nat) : Word :=
  (v &&& ~~~ f.mask) ||| ((BitVec.ofNat 32 (x % 2 ^ f.w)) <<< f.lo)

/-- The value of a field. -/
def State.get (s : State) (f : Fld) : Nat := f.of (s.rd f.reg)

/-- The value of a field read as a two's-complement number. -/
def State.getInt (s : State) (f : Fld) : Int := signed f.w (s.get f)

/-- A one-bit field is set. -/
def State.isSet (s : State) (f : Fld) : Bool := s.get f != 0

/-- Give a field a value. -/
def State.put (s : State) (f : Fld) (x : Nat) : State := s.wr f.reg (f.into (s.rd f.reg) x)

/-- Give a field a two's-complement value. -/
def State.putInt (s : State) (f : Fld) (x : Int) : State := s.put f (unsigned f.w x)

/-- Give a one-bit field a truth value. -/
def State.putBool (s : State) (f : Fld) (b : Bool) : State := s.put f (if b then 1 else 0)

/-- A counter field rises by one and stops at its largest value. -/
def State.inc (s : State) (f : Fld) : State := s.put f (satInc (2 ^ f.w - 1) (s.get f))

/-- A counter field rises by `d` and stops at its largest value. -/
def State.incBy (s : State) (f : Fld) (d : Nat) : State := s.put f (satAdd (2 ^ f.w - 1) (s.get f) d)

/-- A counter field rises by one and wraps. -/
def State.incWrap (s : State) (f : Fld) : State := s.put f (s.get f + 1)

/-- Change what engine `e` holds beyond its registers. -/
def State.modEng (s : State) (e : Eng) (f : EngInt → EngInt) : State := { s with eng := s.eng.set e (f s.eng[e]) }

/-- Change the internal state of a chain. -/
def State.modCh (s : State) (e : Eng) (k : Chn) (f : ChInt → ChInt) : State :=
  s.modEng e fun g => { g with ch := g.ch.set k (f g.ch[k]) }

/-- Change the head link's internal state. -/
def State.modHl (s : State) (e : Eng) (f : HlInt → HlInt) : State := s.modEng e fun g => { g with hl := f g.hl }
/-- Change the seam block's internal state. -/
def State.modSeam (s : State) (e : Eng) (f : SeamInt → SeamInt) : State := s.modEng e fun g => { g with seam := f g.seam }
/-- Change the write path's internal state. -/
def State.modWr (s : State) (e : Eng) (f : WrInt → WrInt) : State := s.modEng e fun g => { g with wr := f g.wr }
/-- Change the Temper session's internal state. -/
def State.modTmp (s : State) (e : Eng) (f : TmpInt → TmpInt) : State := s.modEng e fun g => { g with tmp := f g.tmp }
/-- Change the Anvil engine's internal state. -/
def State.modAnv (s : State) (e : Eng) (f : AnvInt → AnvInt) : State := s.modEng e fun g => { g with anv := f g.anv }
/-- Change the servo sequencing state. -/
def State.modLoop (s : State) (e : Eng) (f : LoopInt → LoopInt) : State := s.modEng e fun g => { g with loop := f g.loop }
/-- Change the spindle's internal state. -/
def State.modSpn (s : State) (e : Eng) (f : SpnInt → SpnInt) : State := s.modEng e fun g => { g with spn := f g.spn }
/-- Change the sled's internal state. -/
def State.modSld (s : State) (e : Eng) (f : SldInt → SldInt) : State := s.modEng e fun g => { g with sld := f g.sld }

/-- An output leaves the part. -/
def State.emit (s : State) (o : Out) : State := { s with out := s.out ++ [o] }

/-- The enable bit of an event bit: the enable register follows its event register in every block (R67, R99, R146). -/
def Fld.enable (f : Fld) : Fld := { f with reg := { f.reg with off := f.reg.off + 4 } }

/-- The interrupt of an event bit is up: the bit and its enable bit are set. -/
def State.irqUp (s : State) (f : Fld) : Bool := s.isSet f && s.isSet f.enable

/-- An event occurs: its bit is set, and its interrupt goes out where the enable bit lets it (log 73). -/
def State.raise (s : State) (f : Fld) : State :=
  let s := s.put f 1
  if s.irqUp f then s.emit (.irq f) else s

/-- An event reaches SUP whatever the enable register holds. -/
def State.report (s : State) (x : SupEvt) : State := s.emit (.sup x)

/-- The next number for a free value. -/
def State.tickFresh (s : State) : State := { s with fresh := s.fresh + 1 }

/-- The part may issue memory requests to the host: Bus Master Enable is set, no reset of the function or latched PFAIL_N
stops them, and no activation pauses them (R327, R346, R372, R445). -/
def State.hostOpen (s : State) : Bool :=
  s.cqi.bme && !s.cqi.paused && !s.isSet CQI_STAT.RESETTING && !s.pw.pfail

/-- MSIX_MESSAGE: a message is requested on a vector. Nothing while MSI-X is disabled; the PBA bit while masked; a request
that cannot be issued yet waits, and a second one is merged into it (R345). -/
def State.msixReq (s : State) (v : Nat) : State :=
  if !s.cqi.msixEn || s.pw.pfail || s.isSet CQI_STAT.RESETTING then s
  else if s.cqi.fmask || s.cqi.mask.getLsbD v then
    { s with cqi := { s.cqi with pba := s.cqi.pba ||| BitVec.twoPow 129 v } }
  else if s.hostOpen then s.emit (.msix v)
  else if s.cqi.held.contains v then s
  else { s with cqi := { s.cqi with held := s.cqi.held ++ [v] } }

/-- A bit of CQI_EVT is set, with the message of vector 128 where EVT_INT enables it (R345, R374). -/
def State.cqiEvent (s : State) (f : Fld) : State :=
  let s := s.put f 1
  if s.isSet CQI_CTRL.EVT_INT then s.msixReq 128 else s

/-- SUP adds an entry to the event log, which holds the newest 4,096, and sets CQI_EVT.LOG (R397). -/
def State.logEvent (s : State) (c : EvCode) (args : List Nat) : State :=
  let s : State := { s with
    events := ({ seq := s.evSeq, us := s.us, code := c, args := args } :: s.events).take 4096
    evSeq := s.evSeq + 1 }
  s.cqiEvent CQI_EVT.LOG

/-- The messages waiting in a queue, oldest first (R20). -/
def State.mqGet (s : State) (q : Nat) : List (BitVec 128) := Cells.get (fun _ => []) s.mq q

/-- Put a message into a queue. -/
def State.mqPut (s : State) (q : Nat) (m : BitVec 128) : State :=
  { s with mq := Cells.set Cells.natLt (fun _ => []) s.mq q (s.mqGet q ++ [m]) }

/-- A 16-byte message from four words, lowest first (R8). -/
def msg4 (a b c d : Word) : BitVec 128 := d ++ c ++ b ++ a

/-- The canonical form of the DDR4 devices: lines strictly rising, none listed that reads 0. -/
abbrev Memory.wf (m : List (Nat × Block)) : Bool := Cells.wf Cells.natLt (fun _ => 0#32768) m

/-- A line of 4 KiB as the DDR4 devices hold it; a line nothing has written reads 0 (log 3). -/
def State.dramLine (s : State) (i : Nat) : Block := Cells.get (fun _ => 0#32768) s.ddr i

/-- Write a line of the DDR4 devices. -/
def State.dramSet (s : State) (i : Nat) (b : Block) : State :=
  { s with ddr := Cells.set Cells.natLt (fun _ => 0#32768) s.ddr i b }

/-- A line as every requester sees it: from the stripe cache or its eviction buffer where they hold it (R414, R416). -/
def State.ddrLine (s : State) (i : Nat) : Block :=
  match s.mem.strc.lines.find? (fun l => l.2.line = i) with
  | some l => l.2.data
  | none => match s.mem.strc.evb.find? (fun l => l.1 = i) with
    | some l => l.2
    | none => s.dramLine i

/-- Write a line: a cached line is updated and becomes dirty, a buffered one is updated, any other goes to the devices,
and a prefetched copy is dropped (R416-R418). -/
def State.ddrSetLine (s : State) (i : Nat) (b : Block) : State :=
  let c := s.mem.strc
  if c.lines.any (fun l => l.2.line = i) then
    let upd (l : Nat × SLine) : Nat × SLine := if l.2.line = i then (l.1, { l.2 with data := b, dirty := true }) else l
    { s with mem := { s.mem with strc := { c with lines := c.lines.map upd } } }
  else if c.evb.any (fun l => l.1 = i) then
    { s with mem := { s.mem with strc := { c with evb := c.evb.map fun l => if l.1 = i then (i, b) else l } } }
  else { s.dramSet i b with mem := { s.mem with strc := { c with side := c.side.filter fun l => l.1 != i } } }

/-- The `n` bytes of DDR4 from address `a`, which lie in one line, as a little-endian number (R8). -/
def State.ddrNum (s : State) (a n : Nat) : Nat := ((s.ddrLine (a / 4096)).toNat >>> (8 * (a % 4096))) % 2 ^ (8 * n)

/-- Write `n` bytes of DDR4 from address `a`, which lie in one line. -/
def State.ddrPut (s : State) (a n v : Nat) : State :=
  let b := s.ddrLine (a / 4096)
  let m : Block := (BitVec.ofNat 32768 (2 ^ (8 * n) - 1)) <<< (8 * (a % 4096))
  s.ddrSetLine (a / 4096) ((b &&& ~~~ m) ||| ((BitVec.ofNat 32768 v <<< (8 * (a % 4096))) &&& m))

/-- Write bytes to DDR4 from address `a` on. -/
def State.ddrPutBytes (s : State) : Nat → List Byte → State
  | _, [] => s
  | a, b :: bs => (s.ddrPut a 1 b.toNat).ddrPutBytes (a + 1) bs

/-- `n` bytes of DDR4 from address `a` on. -/
def State.ddrGetBytes (s : State) (a n : Nat) : List Byte := (List.range n).map fun i => BitVec.ofNat 8 (s.ddrNum (a + i) 1)

/-- The 64 KiB of DDR4 from line `i`. -/
def State.ddrCluster (s : State) (i : Nat) : Cluster := Vector.ofFn fun j : Fin 16 => s.ddrLine (i + j)

/-- Write 64 KiB of DDR4 from line `i`. -/
def State.ddrSetCluster (s : State) (i : Nat) (w : Cluster) : State :=
  (List.finRange 16).foldl (fun (s : State) (j : Fin 16) => s.ddrSetLine (i + j.val) w[j]) s

/-- The address word of a cluster in the layout of DEC_ADDR, with VALID. -/
def clWord (c : ClAddr) (valid : Bool) : Word := BitVec.ofBool valid ++ c.layer ++ c.cluster

/-- An answer that goes on. -/
def ok (s : State) : Outcome := .next s

end Sys2Proof.Machine
end

