-- ==== Sys2Proof/Machine/RegType.lean ====
section
/-! DEFINITION. What a write leaves in a register by the types of its fields, byte enables included (R12, R13), and the map of
an engine block (R23). -/
namespace Sys2Proof.Machine

/-- The bits of the enabled bytes. -/
def beMask (be : BitVec 4) : Word :=
  (List.range 4).foldl (fun (m : Word) i => if be.getLsbD i then m ||| (0xFF#32 <<< (8 * i)) else m) 0#32

/-- One field after a write of `v` under the mask `m`: RW and RWS take the bits, W1C clears and W1S sets where a 1 is written; RO
and WO fields keep what they hold. -/
def fieldWritten (r : Reg) (m v : Word) (w : Word) (f : FldInfo) : Word :=
  let g : Fld := ⟨r, f.lo, f.w⟩
  match f.ty with
  | .rw | .rws => (w &&& ~~~ (g.mask &&& m)) ||| (v &&& g.mask &&& m)
  | .w1c => w &&& ~~~ (v &&& g.mask &&& m)
  | .w1s => w ||| (v &&& g.mask &&& m)
  | .ro | .wo => w

/-- A register word after a write; a reserved offset keeps 0 (R11). -/
def wordWritten (r : Reg) (be : BitVec 4) (v w : Word) : Word :=
  match r.info with
  | some t => t.fields.foldl (fieldWritten r (beMask be) v) w
  | none => w

/-- A write by the field types alone. -/
def State.wrTyped (s : State) (r : Reg) (be : BitVec 4) (v : Word) : State := s.wr r (wordWritten r be v (s.rd r))

/-- The register at an offset of an engine block: chains at 0x2000 with the wobble registers in common, the rest (R23, R100). -/
def engReg (e : Eng) (off : Nat) : Reg :=
  if 0x2000 ≤ off ∧ off < 0x3400 then
    let x := (off - 0x2000) % 0x400
    if 0x300 ≤ x then ⟨.wob, e.val, 0, x⟩ else ⟨.ch, e.val, (off - 0x2000) / 0x400, x⟩
  else ⟨.eng, e.val, 0, off⟩

end Sys2Proof.Machine
end

