-- ==== Sys2Proof/Machine/Link.lean ====
section
/-! DEFINITION. The downstream lane of a head link: the words that go out, the laser-off request, rate clamping,
sampling-clock steering and ADC trims (R49-R55, R76, R128, R161, R162). -/
namespace Sys2Proof.Machine

/-- PWR_ENG_STAT of an engine: 0 ASLEEP, 1 WAKING, 2 AWAKE, 3 ENTERING_SLEEP (R452). -/
def engPower (e : Eng) : Fld := ⟨PWR_ENG_STAT.reg, 2 * e.val, 2⟩

/-- The engine domain runs. -/
def engRuns (s : State) (e : Eng) : Bool := 2 ≤ s.get (engPower e)

/-- One bit through the self-synchronous scrambler x^58 + x^39 + 1: the bits that left it last, newest in bit 0 (R34). -/
def scrambleBit (st : BitVec 58) (b : Bool) : Bool := b != (st.getLsbD 38 != st.getLsbD 57)

/-- A block's payload through the scrambler, or with `rx` through the descrambler, bit 0 first: the register takes the bits of the
line. -/
def scrambleBlock (rx : Bool) (st : BitVec 58) (x : LinkBlock) : BitVec 58 × LinkBlock :=
  (List.range 64).foldl (fun a i =>
    let o := scrambleBit a.1 (x.getLsbD i)
    ((a.1 <<< 1) ||| (BitVec.ofBool (if rx then x.getLsbD i else o)).setWidth 58, setBit a.2 i o)) (st, 0#64)

/-- Blocks through the scrambler (`rx` false) or the descrambler (`rx` true), in order. -/
def scrambleAll (rx : Bool) : BitVec 58 → List LinkBlock → BitVec 58 × List LinkBlock
  | st, [] => (st, [])
  | st, x :: xs =>
    let a := scrambleBlock rx st x
    let r := scrambleAll rx a.1 xs
    (r.1, a.2 :: r.2)

/-- HL_STAT.STATE codes (R67). -/
def hlOff : Nat := 0
def hlTraining : Nat := 1
def hlUp : Nat := 2
def hlDegraded : Nat := 3
def hlFailed : Nat := 4

/-- The link is UP or DEGRADED. -/
def linkUp (s : State) (e : Eng) : Bool := s.get (HL_STAT.STATE e) == hlUp || s.get (HL_STAT.STATE e) == hlDegraded

/-- Put a downstream word in line; a link that is not UP or DEGRADED carries none (R61). -/
def pushWord (e : Eng) (w : DsWord) (s : State) : State :=
  if linkUp s e then s.modHl e fun h => { h with ready := h.ready ++ [w] } else s

/-- LPW_LASER_OFF: LPW SUB 0x1 goes out (R52). -/
def laserOff (e : Eng) (s : State) : State :=
  if linkUp s e then s.modHl e fun h => { h with ready := h.ready ++ [.laserOff] } else s.emit (.ds e .laserOff)

/-- The LPW SUB 0x0 block of the power registers (R51). -/
def lpwLevels (s : State) (e : Eng) : BitVec 64 :=
  BitVec.ofNat 64 (s.get (WR_PWR0.P_READ e) * 2 ^ 4 + s.get (WR_PWR0.P_ERASE e) * 2 ^ 16 + s.get (WR_PWR1.P_COOL e) * 2 ^ 28
    + s.get (WR_PWR1.P_PEAK e) * 2 ^ 40 + s.get (WR_CTRL.LASER_EN e) * 2 ^ 52
    + (if s.eng[e].hl.writeEn then 1 else 0) * 2 ^ 53)

/-- The current power levels go out. -/
def sendLevels (e : Eng) (s : State) : State := pushWord e (.lpw (lpwLevels s e)) s

/-- An LPW SUB 0x2 block: the write gate opens or closes at a write-clock count (R51). -/
def lpwGate (isOpen : Bool) (wpos : Nat) : BitVec 64 :=
  BitVec.ofNat 64 (2 + (if isOpen then 1 else 0) * 2 ^ 4 + wpos % 2 ^ 31 * 2 ^ 5)

/-- FW of a fixed rate code: 864, 576, 432, 288 MS/s in units of 1,728 MHz / 2^24 (R55). -/
def fwOfSr (sr : Nat) : Nat :=
  match sr with
  | 0 => 0x800000
  | 1 => 0x555555
  | 2 => 0x400000
  | _ => 0x2AAAAA

/-- The rate code that caps the link: 0 = 864 MS/s, 1 = 576 MS/s (R55, R67). -/
def capCode (s : State) (e : Eng) : Nat := s.get (HL_STAT.RATE_CAP e)

/-- A CLK block goes out; HL_RATE.FW shows its rate (R55). -/
def pushClk (e : Eng) (b : BitVec 64) (fw : Nat) (s : State) : State :=
  if linkUp s e then (pushWord e (.clk b) (s.put (HL_RATE.FW e) fw)).modHl e fun h => { h with clkSent := b } else s

/-- A CLK block with MODE = 0 and a rate code no faster than the cap (R55, R67). -/
def sendSr (e : Eng) (sr : Nat) (s : State) : State :=
  let sr := max sr (capCode s e)
  pushClk e (BitVec.ofNat 64 (fwOfSr sr + sr * 2 ^ 41)) (fwOfSr sr) s

/-- A CLK block with MODE = 1, FW clamped to the cap, which sets FW_CLAMP, and a phase step (R55, R76). The spec does not say what SR
holds in such a block; it is 0 here (DESIGN CHOICE, log 79). -/
def sendFw (e : Eng) (fw : Nat) (ph : BitVec 16) (s : State) : State :=
  let top := fwOfSr (capCode s e)
  let s := if top < fw then s.raise (HL_EVT.FW_CLAMP e) else s
  let fw := min fw top
  pushClk e (BitVec.ofNat 64 (fw + ph.toNat * 2 ^ 24 + 2 ^ 40)) fw s

/-- The wobble PLL steers the sampling clock (R76, R77). -/
def steering (s : State) (e : Eng) : Bool :=
  s.isSet (HL_RATE.STEERED e) && s.isSet (WPLL_STAT.LOCK e) && !s.isSet (WPLL_STAT.STEER_SUSP e)

/-- A TRIM entry is put in line; with the link down it waits for the shadow of the next training (R54, R162). -/
def sendTrim (e : Eng) (adc idx : Nat) (val : Nat) (s : State) : State :=
  if linkUp s e then
    s.modHl e fun h => { h with trims := h.trims ++ [BitVec.ofNat 32 (adc + idx % 256 * 2 ^ 4 + val % 2 ^ 16 * 2 ^ 12)] }
  else s

/-- The spare source select: ADC4 onto a spot, or off with 4 (R54). -/
def sendSpare (e : Eng) (v : Nat) (s : State) : State := sendTrim e 4 0x00 v s

/-- SHADOW_RESEND: every ADC's slice map and trims go out after a training (R162). -/
def shadowResend (e : Eng) (s : State) : State :=
  (List.range 5).foldl (fun s a =>
    let s := sendTrim e a 0x01 (s.get (TMP_ADCMAP.MAP e a)) s
    (List.range 10).foldl (fun s i =>
      sendTrim e a (0x20 + i) (s.get (TMP_ADCTRIM.GAIN e a i)) (sendTrim e a (0x10 + i) (s.get (TMP_ADCTRIM.OFFS e a i)) s)) s) s

/-- Two TRIM entries a block, a null entry beside a single one (R54). -/
def packTrims : List (BitVec 32) → List DsWord
  | a :: b :: rest => .trim (b ++ a) :: packTrims rest
  | [a] => [.trim (0xF#32 ++ a)]
  | [] => []

/-- The priority of a downstream word (R49). -/
def DsWord.prio : DsWord → Nat
  | .laserOff => 1 | .act .. => 2 | .lpw _ => 3 | .clk _ => 4 | .wsym _ => 5 | .trim _ => 6

/-- How many data blocks a word takes. -/
def DsWord.blocks : DsWord → Nat
  | .act .. => 2
  | _ => 1

/-- The words in the order they are sent: by priority, and as they became ready within one (R49). -/
def byPrio (ws : List DsWord) : List DsWord :=
  (ws.filter (·.prio == 1)) ++ (ws.filter (·.prio == 2)) ++ (ws.filter (·.prio == 3)) ++ (ws.filter (·.prio == 4))
    ++ (ws.filter (·.prio == 5)) ++ (ws.filter (·.prio == 6))

/-- Fill a frame of `room` data blocks: the words sent and the words left; at most one CLK block a frame (R55). -/
def fillFrame (room : Nat) (clk : Bool) : List DsWord → List DsWord × List DsWord
  | [] => ([], [])
  | w :: ws =>
    if w.blocks ≤ room && !(w.prio == 4 && clk) then
      let r := fillFrame (room - w.blocks) (clk || w.prio == 4) ws
      (w :: r.1, r.2)
    else
      let r := fillFrame (if w.prio == 4 then room else 0) clk ws
      (r.1, w :: r.2)

/-- The write-strategy symbol at place `i` of the table of mark length `len` (R145). -/
def stratSym (s : State) (e : Eng) (len i : Nat) : BitVec 4 :=
  if i < 8 then BitVec.ofNat 4 (s.get (WR_STRAT_LO.SYM e len) >>> (4 * i))
  else BitVec.ofNat 4 (s.get (WR_STRAT_HI.SYM e len) >>> (4 * (i - 8)))

/-- How many bits in a row from `p` on, upward or downward, are marks, up to `n`. -/
def markLen (level : Int → Bool) (d : Int) : Nat → Int → Nat
  | 0, _ => 0
  | n + 1, p => if level p then 1 + markLen level d n (p + d) else 0

/-- The symbol of channel bit `p`: place in its mark, else the cooling symbol after a mark, else erase/bias (R145). -/
def bitSym (s : State) (e : Eng) (level : Int → Bool) (p : Int) : BitVec 4 :=
  let back := markLen level (-1) 9 (p - 1)
  if level p then stratSym s e (back + markLen level 1 (9 - back) p) back
  else if 0 < back then stratSym s e back back
  else 0x8#4

/-- Sixteen symbols a WSYM block, the rest kept for the next frame (R53). -/
def packSyms : Nat → List (BitVec 4) → List DsWord × List (BitVec 4)
  | 0, ss => ([], ss)
  | n + 1, ss =>
    if 16 ≤ ss.length then
      let b := (ss.take 16).foldr (fun y (acc : Nat) => acc * 16 + y.toNat) 0
      let r := packSyms n (ss.drop 16)
      (.wsym (BitVec.ofNat 64 b) :: r.1, r.2)
    else ([], ss)

/-- Write-clock periods of the next lane frame of 102.4 ns, and the fraction left over: FW x 1,728 MHz / 2^24 (R128). -/
def wposNext (s : State) (e : Eng) : Nat × Nat :=
  let t := s.eng[e].hl.wposRem + s.get (HL_RATE.FW e) * 1769472
  (t / (10000 * 2 ^ 24), t % (10000 * 2 ^ 24))

/-- The write clock counts the periods of a lane frame, modulo 2^31 (R128). -/
def wposStep (e : Eng) (s : State) : State :=
  let d := wposNext s e
  (s.put (WR_WPOS.WPOS e) (s.get (WR_WPOS.WPOS e) + d.1)).modHl e fun h => { h with wposRem := d.2 }

/-- CLK_BLOCK_SEND: while steering, FW follows the wobble PLL; a block goes out when FW or the phase moves (R76). -/
def clkSteer (e : Eng) (ph : BitVec 16) (s : State) : State :=
  if steering s e && (ph != 0#16 || min (s.get (WPLL_STAT.FB e)) (fwOfSr (capCode s e)) != s.get (HL_RATE.FW e)) then
    sendFw e (s.get (WPLL_STAT.FB e)) ph s
  else s

/-- The data blocks a word takes, with their downstream stream IDs (R49). -/
def DsWord.data : DsWord → List (Nat × LinkBlock)
  | .laserOff => [(1, 1#64)]
  | .act lo hi => [(0, lo), (0, hi)]
  | .lpw b => [(1, b)]
  | .clk b => [(4, b)]
  | .wsym b => [(2, b)]
  | .trim b => [(3, b)]

/-- The fifteen data blocks of a frame: the words, then fill with all bits 0 (R49). -/
def dsBlocks (ws : List DsWord) : List (Nat × LinkBlock) := ((ws.flatMap DsWord.data) ++ List.replicate 15 (7, 0#64)).take 15

/-- A downstream marker: BTYPE, UMASK, the map or the training fields, the CRC of the previous frame (R37, R38). -/
def dsMarker (btype : Nat) (umask : BitVec 4) (map : Nat) (crc : BitVec 7) : LinkBlock :=
  BitVec.ofNat 64 (btype + umask.toNat * 2 ^ 8 + map % 2 ^ 45 * 2 ^ 12 + crc.toNat * 2 ^ 57)

/-- The MAP field of data blocks 1 to 15 (R37). -/
def mapOf (ds : List (Nat × LinkBlock)) : Nat := ds.foldr (fun d n => n * 8 + d.1) 0

/-- A downstream lane frame leaves: its marker carries the CRC of the frame before it, and the line is scrambled (R34, R36, R38,
R39). -/
def sendFrame (e : Eng) (btype map : Nat) (payload : List LinkBlock) (s : State) : State :=
  let h := s.eng[e].hl
  let m := dsMarker btype h.umask map h.dsLast
  let sc := scrambleAll false h.dsScr (m :: payload)
  (s.emit (.frame e (m :: payload) sc.2)).modHl e fun h => { h with dsScr := sc.1, dsLast := frameCrc m payload }

/-- A data frame goes downstream: the ready words in priority order, write symbols `new` among them, then fill (R38, R49). -/
def sendDataFrame (e : Eng) (new : List (BitVec 4)) (s : State) : State :=
  let syms := s.eng[e].hl.syms ++ new
  let pk := packSyms (syms.length / 16) syms
  let fr := fillFrame 15 false (byPrio (s.eng[e].hl.ready ++ pk.1 ++ packTrims s.eng[e].hl.trims))
  let s := s.modHl e fun h => { h with ready := fr.2, trims := [], syms := pk.2 }
  let ds := dsBlocks fr.1
  let s := sendFrame e 0x78 (mapOf ds) (ds.map (·.2)) s
  fr.1.foldl (fun s w => s.emit (.ds e w)) s

/-- The training fields: TSTATE, LMASK, VER = 1 (R40). -/
def trainFields (t : TPhase) (lmask : BitVec 4) : Nat :=
  (match t with | .locking => 0 | .aligned => 1 | .ready => 2) + lmask.toNat * 2 ^ 2 + 2 ^ 6

/-- A training frame goes downstream, with fill blocks only; LMASK is all lanes but the excluded ones while LOCKING, then the granted
ones (R40, R59). -/
def sendTrainFrame (e : Eng) (s : State) : State :=
  let h := s.eng[e].hl
  let lm := match h.phase with
    | .locking => 0xF#4 &&& ~~~ BitVec.ofNat 4 (s.get (HL_CTRL.LANE_EXCL e))
    | _ => h.granted
  sendFrame e 0x33 (trainFields h.phase lm) (List.replicate 15 0#64) s

/-- LPW_REPEAT: the current SUB 0x0 block is repeated while the link is UP or DEGRADED (R52). -/
def execLpwRepeat (e : Eng) (s : State) : Outcome := ok (sendLevels e s)

/-- The ACT words of a tick: bits [23:10] of each port, in two halves with one TSEQ (R50). -/
def actBlock (half : Nat) (tseq : BitVec 6) (v : Fin 4 → Word24) : BitVec 64 :=
  BitVec.ofNat 64 (half + tseq.toNat * 2 ^ 2
    + ((List.finRange 4).foldl (fun n q => n + bits (v q) 10 14 * 2 ^ (14 * q.val + 8)) 0))

end Sys2Proof.Machine
end

