-- ==== Sys2Proof/Machine/Aes.lean ====
section
/-! DEFINITION. The arithmetic of GF(2^8) the code of R277 and GFMAC8 use, and the standard algorithms the cipher units and
SEC run: AES-256, XTS of IEEE 1619 (R434), the tag of GCM over an empty plaintext (R316, R435), the CMAC key derivation of
R430 and the key unwrap of R431. A block of 16 bytes is a number whose byte `i` lies at bits `8 i`. -/
namespace Sys2Proof.Machine

/-- Twice an element of GF(2^8) with the low polynomial bits `p`. -/
def gfTwice (p x : Byte) : Byte := if x.getLsbD 7 then (x <<< 1) ^^^ p else x <<< 1

/-- A product in GF(2^8). -/
def gfMul (p a b : Byte) : Byte :=
  ((List.range 8).foldl (fun (z : Byte × Byte) i => (if b.getLsbD i then z.1 ^^^ z.2 else z.1, gfTwice p z.2)) (0#8, a)).1

/-- The inverse in GF(2^8), as the power 254; 0 gives 0. -/
def gfInv (p a : Byte) : Byte :=
  ((List.range 7).foldl (fun (z : Byte × Byte) _ => (gfMul p z.1 (gfMul p z.2 z.2), gfMul p z.2 z.2)) (1#8, a)).1

/-- The bytes 0x01 of a 4 KiB block. -/
def ones : Block := BitVec.ofNat 32768 ((2 ^ 32768 - 1) / 255)

/-- Twice every byte of a block, in the field of R277. -/
def gfTwiceAll (b : Block) : Block :=
  let hi := (b >>> 7) &&& ones
  ((b &&& ~~~ (ones <<< 7)) <<< 1) ^^^ (hi ^^^ (hi <<< 2) ^^^ (hi <<< 3) ^^^ (hi <<< 4))

/-- A constant times every byte of a block (R277). -/
def gfScale (c : Byte) (b : Block) : Block :=
  ((List.range 8).foldl (fun (z : Block × Block) i => (if c.getLsbD i then z.1 ^^^ z.2 else z.1, gfTwiceAll z.2)) (0#32768, b)).1

/-- Byte `i` of a number. -/
def byteOf {n : Nat} (x : BitVec n) (i : Nat) : Byte := x.extractLsb' (8 * i) 8

/-- 16 bytes as one block. -/
def blkOf (f : Nat → Byte) : BitVec 128 :=
  (List.range 16).foldl (fun (z : BitVec 128) i => z ||| ((f i).setWidth 128 <<< (8 * i))) 0#128

/-- The affine map of the AES substitution. -/
def aesAffine (x : Byte) : Byte := x ^^^ x.rotateLeft 1 ^^^ x.rotateLeft 2 ^^^ x.rotateLeft 3 ^^^ x.rotateLeft 4 ^^^ 0x63#8

/-- The AES substitution. -/
def aesSub (x : Byte) : Byte := aesAffine (gfInv 0x1B#8 x)

/-- The inverse of the AES substitution. -/
def aesUnsub (x : Byte) : Byte := gfInv 0x1B#8 (x.rotateLeft 1 ^^^ x.rotateLeft 3 ^^^ x.rotateLeft 6 ^^^ 0x05#8)

/-- The next word of the key schedule: number, words so far newest first. -/
def aesNextWord (i : Nat) (ws : List Word) : Word :=
  let t := ws.headD 0#32
  let sub (w : Word) : Word := aesSub (byteOf w 3) ++ aesSub (byteOf w 2) ++ aesSub (byteOf w 1) ++ aesSub (byteOf w 0)
  let t := if i % 8 = 0 then sub (t.rotateRight 8) ^^^ BitVec.ofNat 32 (2 ^ (i / 8 - 1)) else if i % 8 = 4 then sub t else t
  (ws[7]?.getD 0#32) ^^^ t

/-- The 15 round keys of AES-256. -/
def aesKeys (key : BitVec 256) : List (BitVec 128) :=
  let ws0 := (List.range 8).map fun i => key.extractLsb' (32 * (7 - i)) 32
  let ws := ((List.range 52).foldl (fun ws i => aesNextWord (i + 8) ws :: ws) ws0).reverse
  (List.range 15).map fun r =>
    (ws[4 * r + 3]?.getD 0#32) ++ (ws[4 * r + 2]?.getD 0#32) ++ (ws[4 * r + 1]?.getD 0#32) ++ (ws[4 * r]?.getD 0#32)

/-- A column mix of AES by the row of constants `m`. -/
def aesMix (m : List Byte) (x : BitVec 128) : BitVec 128 :=
  blkOf fun i => (List.range 4).foldl
    (fun (z : Byte) k => z ^^^ gfMul 0x1B#8 (m[(k + 4 - i % 4) % 4]?.getD 0#8) (byteOf x (4 * (i / 4) + k))) 0#8

/-- Row shift with substitution, forward. -/
def aesSubShift (x : BitVec 128) : BitVec 128 := blkOf fun i => aesSub (byteOf x ((i + 4 * (i % 4)) % 16))

/-- Row shift with substitution, backward. -/
def aesUnsubShift (x : BitVec 128) : BitVec 128 := blkOf fun i => aesUnsub (byteOf x ((i + 16 - 4 * (i % 4)) % 16))

/-- AES-256 of one block. -/
def aesEnc (key : BitVec 256) (x : BitVec 128) : BitVec 128 :=
  match aesKeys key with
  | [] => x
  | k0 :: ks =>
    let last := ks.getLastD 0#128
    let y := ks.dropLast.foldl (fun y k => aesMix [2#8, 3#8, 1#8, 1#8] (aesSubShift y) ^^^ k) (x ^^^ k0)
    aesSubShift y ^^^ last

/-- The inverse of AES-256. -/
def aesDec (key : BitVec 256) (x : BitVec 128) : BitVec 128 :=
  match (aesKeys key).reverse with
  | [] => x
  | k0 :: ks =>
    let last := ks.getLastD 0#128
    let y := ks.dropLast.foldl (fun y k => aesMix [14#8, 11#8, 13#8, 9#8] (aesUnsubShift y ^^^ k)) (x ^^^ k0)
    aesUnsubShift y ^^^ last

/-- The tweak of the next block of a data unit. -/
def xtsNext (t : BitVec 128) : BitVec 128 := (t <<< 1) ^^^ (if t.getLsbD 127 then 0x87#128 else 0#128)

/-- AES-256-XTS over one volume LBA, the data unit of R434; `f` is `aesEnc` or `aesDec`. -/
def xts (f : BitVec 256 → BitVec 128 → BitVec 128) (key : BitVec 512) (lba : Nat) (b : Block) : Block :=
  let k1 := key.extractLsb' 0 256
  let t0 := aesEnc (key.extractLsb' 256 256) (BitVec.ofNat 128 lba)
  ((List.range 256).foldl (fun (z : Block × BitVec 128) i =>
    (z.1 ||| ((f k1 (b.extractLsb' (128 * i) 128 ^^^ z.2) ^^^ z.2).setWidth 32768 <<< (128 * i)), xtsNext z.2)) (0#32768, t0)).1

/-- The bytes of a block in the reverse order, which makes a big-endian number of it. -/
def bswap (x : BitVec 128) : BitVec 128 := blkOf fun i => byteOf x (15 - i)

/-- A product of GHASH; operands as big-endian numbers. -/
def ghashMul (x y : BitVec 128) : BitVec 128 :=
  ((List.range 128).foldl (fun (z : BitVec 128 × BitVec 128) i =>
    (if x.getLsbD (127 - i) then z.1 ^^^ z.2 else z.1,
      (z.2 >>> 1) ^^^ (if z.2.getLsbD 0 then 0xE1#128 <<< 120 else 0#128))) (0#128, y)).1

/-- A list of bytes cut into blocks, the last one filled with zeros. -/
def blocks16 : Nat → List Byte → List (BitVec 128)
  | 0, _ => []
  | _, [] => []
  | n + 1, bs => blkOf (fun i => bs[i]?.getD 0#8) :: blocks16 n (bs.drop 16)

/-- The AES-256-GCM tag over additional data alone (R316): key, 12 bytes of IV, data. -/
def gcmTag (key : BitVec 256) (iv : BitVec 96) (aad : List Byte) : BitVec 128 :=
  let h := bswap (aesEnc key 0#128)
  let y := (blocks16 aad.length aad).foldl (fun y b => ghashMul (y ^^^ bswap b) h) 0#128
  let y := ghashMul (y ^^^ (BitVec.ofNat 128 (8 * aad.length) <<< 64)) h
  bswap y ^^^ aesEnc key (0x01000000#32 ++ iv)

/-- Doubling of CMAC, on big-endian numbers. -/
def cmacTwice (x : BitVec 128) : BitVec 128 := (x <<< 1) ^^^ (if x.getLsbD 127 then 0x87#128 else 0#128)

/-- AES-CMAC of a message shorter than a block, given with its length in bytes. -/
def cmacShort (key : BitVec 256) (n : Nat) (m : BitVec 128) : BitVec 128 :=
  let k2 := bswap (cmacTwice (cmacTwice (bswap (aesEnc key 0#128))))
  aesEnc key (m ^^^ (0x80#128 <<< (8 * n)) ^^^ k2)

/-- The map record key (R430). -/
def mapRecordKey (drk : BitVec 256) : BitVec 256 :=
  let m (i : Nat) : BitVec 128 := blkOf fun b =>
    if b = 0 then BitVec.ofNat 8 i else ([0x43#8, 0x4C#8, 0x4E#8, 0x2D#8, 0x4D#8, 0x41#8, 0x50#8, 0#8, 1#8, 0#8])[b - 1]?.getD 0#8
  cmacShort drk 11 (m 2) ++ cmacShort drk 11 (m 1)

/-- 8 bytes with their order reversed. -/
def bswap64 (x : BitVec 64) : BitVec 64 := ((bswap (x.setWidth 128)) >>> 64).setWidth 64

/-- One step of the key unwrap of SP 800-38F: the register, the eight semiblocks, the step number. -/
def kwStep (key : BitVec 256) (z : BitVec 64 × Vector (BitVec 64) 8) (t : Nat) : BitVec 64 × Vector (BitVec 64) 8 :=
  let i := (t - 1) % 8
  let a := z.1 ^^^ bswap64 (BitVec.ofNat 64 t)
  let b := aesDec key ((z.2[i]?.getD 0#64) ++ a)
  (b.extractLsb' 0 64, z.2.setIfInBounds i (b.extractLsb' 64 64))

/-- Key unwrap of the 72 bytes of KEY_LOAD under the device root key, none where the check value fails (R431). -/
def kwUnwrap (drk : BitVec 256) (w : BitVec 576) : Option (BitVec 512) :=
  let z0 : BitVec 64 × Vector (BitVec 64) 8 := (w.extractLsb' 0 64, Vector.ofFn fun i : Fin 8 => w.extractLsb' (64 * (i.val + 1)) 64)
  let z := (List.range 48).foldl (fun z i => kwStep drk z (48 - i)) z0
  if z.1 = 0xA6A6A6A6A6A6A6A6#64 then
    some ((List.range 8).foldl (fun (k : BitVec 512) i => k ||| ((z.2[i]?.getD 0#64).setWidth 512 <<< (64 * i))) 0#512)
  else none

end Sys2Proof.Machine
end

