-- ==== Sys2Proof/Machine/Host.lean ====
section
/-! DEFINITION. What the part writes to host memory: completion entries and their messages, and the bookkeeping of the
outstanding commands of a queue (R31, R358-R362, R494). -/
namespace Sys2Proof.Machine

def qNone : Nat := 0
def qActive : Nat := 1
def qError : Nat := 2
def qDisabled : Nat := 3

/-- Change what a queue holds beyond its registers. -/
def State.modQ (s : State) (q : Fin 65) (f : QInt → QInt) : State :=
  { s with cqi := { s.cqi with q := s.cqi.q.set q (f s.cqi.q[q]) } }

/-- Entries of a completion ring. -/
def cqSize (s : State) (q : Fin 65) : Nat := 2 ^ s.get (QB_CFG.CQ_LOG2 q)
/-- Slots of a submission ring. -/
def sqSize (s : State) (q : Fin 65) : Nat := 2 ^ s.get (QB_CFG.SQ_LOG2 q)

/-- The completion ring is full: the tail is one entry behind CQ_HEAD (R362). -/
def cqFull (s : State) (q : Fin 65) : Bool :=
  (s.get (QB_POS.CQ_TAIL q) + 1) % cqSize s q == s.cqi.q[q].cqHead

/-- OUTSTANDING and IDLE follow from what the queue holds (R368, R374). -/
def qShow (q : Fin 65) (s : State) : State :=
  let i := s.cqi.q[q]
  let s := s.put (QB_STAT.OUTSTANDING q) i.cmds.length
  s.putBool (QB_STAT.IDLE q) (s.get (QB_STAT.STATE q) == qDisabled && i.cmds.isEmpty && i.due.isEmpty && !i.last)

/-- The 16 bytes of an entry (R358). -/
def cqeBits (s : State) (q : Fin 65) (c : Cqe) : BitVec 128 :=
  BitVec.ofNat 128 (c.result % 2 ^ 64 + s.get (QB_POS.SQ_HEAD q) * 2 ^ 64 + q.val * 2 ^ 80 + c.tag * 2 ^ 88 + c.status * 2 ^ 96
    + c.detail * 2 ^ 104 + s.get (QB_POS.PHASE q) * 2 ^ 120)

/-- Write the oldest entry that is due: the entry, the move of the tail with the phase, the message, and, for a final
completion, the release of its tag (R31, R345, R352, R359, R361). -/
def cqWrite (q : Fin 65) (c : Cqe) (s : State) : State :=
  let t := s.get (QB_POS.CQ_TAIL q)
  let s := s.emit (.cqe q t (cqeBits s q c))
  let s := if t + 1 = cqSize s q then (s.put (QB_POS.CQ_TAIL q) 0).put (QB_POS.PHASE q) (1 - s.get (QB_POS.PHASE q))
    else s.put (QB_POS.CQ_TAIL q) (t + 1)
  let s := s.modQ q fun i => { i with
    due := i.due.drop 1
    cmds := if c.status = 1 ∨ c.tag = 0xFF then i.cmds else i.cmds.filter fun x => x.tag != c.tag }
  s.msixReq (s.get (QB_CFG.VECTOR q))

/-- Entries due are written in order while the ring has room and the host can be reached (R362). -/
def cqDrain (q : Fin 65) : Nat → State → State
  | 0, s => qShow q s
  | n + 1, s =>
    let s := s.putBool (QB_STAT.CQ_FULL q) (cqFull s q)
    match s.cqi.q[q].due with
    | [] => qShow q s
    | c :: _ => if cqFull s q || !s.hostOpen then qShow q s else cqDrain q n (cqWrite q c s)

/-- Every entry of a queue that can be written is written. -/
def cqFlush (q : Fin 65) (s : State) : State := cqDrain q (s.cqi.q[q].due.length + 1) s

/-- COMPLETION_WRITE: an entry becomes due and is written when it can be (R494). -/
def cqPost (q : Fin 65) (c : Cqe) (s : State) : State := cqFlush q (s.modQ q fun i => { i with due := i.due ++ [c] })

/-- An outstanding command by its tag. -/
def State.cmd? (s : State) (q : Fin 65) (tag : Nat) : Option Cmd := s.cqi.q[q].cmds.find? fun c => c.tag = tag

/-- Change an outstanding command. -/
def State.modCmd (s : State) (q : Fin 65) (tag : Nat) (f : Cmd → Cmd) : State :=
  s.modQ q fun i => { i with cmds := i.cmds.map fun c => if c.tag = tag then f c else c }

/-- A little-endian number in a capsule. -/
def capNum (c : Cmd) (off n : Nat) : Nat :=
  (List.range n).foldr (fun i z => (c.cap[off + i]?.getD 0#8).toNat + 256 * z) 0

/-- DEADLINE_MS of a command (R355). -/
def capDeadline (c : Cmd) : Nat := capNum c 4 4

/-- The command's deadline has passed (R363). -/
def pastDeadline (s : State) (c : Cmd) : Bool := c.late || capDeadline c != 0 && decide (c.origin + 1000 * capDeadline c < s.us)

/-- The outcome of a command is registered: its one final completion becomes due, LATE past the deadline; `extra` holds the
other DETAIL bits (R358, R361, R365). -/
def finishD (q : Fin 65) (tag status result extra : Nat) (s : State) : State :=
  match s.cmd? q tag with
  | none => s
  | some c =>
    if c.decided then s
    else cqPost q { tag := tag, status := status, result := result, detail := (if c.ponr && pastDeadline s c then 1 else 0) + extra }
      (s.modCmd q tag fun c => { c with decided := true })

/-- A final completion without PREDICTED or DMA. -/
def finish (q : Fin 65) (tag status result : Nat) (s : State) : State := finishD q tag status result 0 s

/-- The entry a command completes with once its record is committed is fixed (R322). -/
def finishWith (q : Fin 65) (tag status result : Nat) (s : State) : State :=
  s.modCmd q tag fun c => { c with fin := some { tag := tag, status := status, result := result, detail := 0 } }

/-- A command whose record of SEQ `seq` is committed completes; a WRITE carries that SEQ in RESULT (R381). -/
def finishCommitted (seq : Nat) (o : Fin 65 × Nat) (s : State) : State :=
  match s.cmd? o.1 o.2 with
  | none => s
  | some c => match c.fin with
    | none => s
    | some f => finish o.1 o.2 f.status (if capNum c 0 1 = 0x41 then seq else f.result) s

/-- The admin queue. -/
def q0 : Fin 65 := 0

def stSuccess : Nat := 0x00
def stInterim : Nat := 0x01
def stAborted : Nat := 0x02
def stAbortMissed : Nat := 0x03
def stDeadline : Nat := 0x04
def stRefused : Nat := 0x05
def stLost : Nat := 0x06
def stReconstructed : Nat := 0x07
def stInvalid : Nat := 0x08
def stQueueError : Nat := 0x09
def stSealed : Nat := 0x0A
def stJournal : Nat := 0x0B
def stKeyEmpty : Nat := 0x0C
def stNotReady : Nat := 0x0D
def stInternal : Nat := 0x0E

/-- RESULT of INVALID_FIELD: byte offset of the field and command reason (R375). -/
def invalidAt (off reason : Nat) : Nat := off + reason * 2 ^ 16

end Sys2Proof.Machine
end

