-- ==== Sys2Proof/Machine/Map.lean ====
section
/-! DEFINITION. Plinth settings (R254, R312, R337, R394) and the placement map: its records, edits, and the resolution of a
volume address (R243-R250, R318). -/
namespace Sys2Proof.Machine

/-- A little-endian number of bytes. -/
def leNum (bs : List Byte) : Nat := bs.foldr (fun b z => b.toNat + 256 * z) 0

/-- The `n` bytes of a number, lowest first. -/
def leBytes (n v : Nat) : List Byte := (List.range n).map fun i => BitVec.ofNat 8 (v >>> (8 * i))

/-- Reset values of the settings (R254, R312, R337, R394). -/
def settingReset (i : Nat) : Nat :=
  match i with
  | 0x0001 => 16384 | 0x0002 => 24576 | 0x0003 => 40000 | 0x0004 => 200 | 0x0005 => 2000 | 0x0006 => 8000 | 0x0007 => 2000
  | 0x0010 => 500 | 0x0011 => 32 | 0x0012 => 4096 | 0x0013 => 60 | 0x0014 => 64 | 0x0015 => 3600 | 0x0016 => 1 | 0x0017 => 2
  | 0x0018 => 1024 | 0x0019 => 600 | 0x0021 => 128 | 0x0022 => 256 | 0x0023 => 512 | 0x0024 => 64 | 0x0025 => 96 | 0x0026 => 64
  | _ => if 0x0008 ≤ i ∧ i < 0x0010 then 3500 else if 0x0100 ≤ i ∧ i < 0x0108 then 22000 else 0

/-- The value of a setting; one absent from Plinth takes its reset value (R333). -/
def setting (s : State) (i : Nat) : Nat :=
  match s.jrn.ents.find? fun x => x.1 = i with
  | some x => leNum x.2
  | none => settingReset i

def patinaScrub (s : State) : Nat := setting s 0x0001
def patinaWrite (s : State) : Nat := setting s 0x0002
def patinaMigrate (s : State) : Nat := setting s 0x0003
def chgMs (s : State) : Nat := setting s 0x0006
def spdFloor (s : State) : Nat := setting s 0x0007
/-- SPIN_MS of an engine, which each measured spin-up replaces (R254). -/
def spinMs (s : State) (e : Eng) : Nat := s.eng[e].spn.took.getD (setting s (0x0008 + e.val))
def runStripes (s : State) : Nat := setting s 0x0012
def failClusters (s : State) : Nat := setting s 0x0014
def autoRebuild (s : State) : Bool := setting s 0x0016 != 0
def rebuildMax (s : State) : Nat := setting s 0x0017
def ckptPages (s : State) : Nat := setting s 0x0018

/-- The value of a part of a map record. -/
def MRec.get (r : MRec) (f : MF) : Nat := (r.toNat >>> f.lo) % 2 ^ f.w

/-- A map record with a part replaced. -/
def MRec.put (r : MRec) (f : MF) (v : Nat) : MRec :=
  (r &&& ~~~ (BitVec.ofNat 512 (2 ^ f.w - 1) <<< f.lo)) ||| (BitVec.ofNat 512 (v % 2 ^ f.w) <<< f.lo)

/-! Volume records (R245). -/
def Vol.STATE : MF := ⟨0, 8⟩
def Vol.CLASS : MF := ⟨8, 8⟩
def Vol.K : MF := ⟨16, 4⟩
def Vol.M : MF := ⟨20, 4⟩
def Vol.KEY : MF := ⟨24, 8⟩
def Vol.CAP : MF := ⟨32, 40⟩
def Vol.EXT_ROOT : MF := ⟨96, 32⟩
def Vol.EXT_N : MF := ⟨128, 32⟩
/-! Extent records (R246). -/
def Ext.VS : MF := ⟨0, 32⟩
def Ext.COUNT : MF := ⟨32, 32⟩
def Ext.RUN : MF := ⟨64, 32⟩
def Ext.OFS : MF := ⟨96, 32⟩
/-! Run records (R247). -/
def Run.RUN : MF := ⟨0, 32⟩
def Run.K : MF := ⟨32, 4⟩
def Run.M : MF := ⟨36, 4⟩
def Run.STATE : MF := ⟨40, 8⟩
def Run.RELAXED : MF := ⟨48, 1⟩
def Run.VOL : MF := ⟨56, 8⟩
def Run.STRIPES : MF := ⟨64, 32⟩
def Run.MEMBER (j : Nat) : MF := ⟨128 + 48 * j, 48⟩
def Run.DISC (j : Nat) : MF := ⟨128 + 48 * j, 12⟩
def Run.LAYER (j : Nat) : MF := ⟨140 + 48 * j, 3⟩
def Run.FIRST (j : Nat) : MF := ⟨144 + 48 * j, 28⟩
/-! Disc records (R248). -/
def Dsc.DISC : MF := ⟨0, 16⟩
def Dsc.MEDIUM : MF := ⟨16, 4⟩
def Dsc.LAYERS : MF := ⟨20, 4⟩
def Dsc.CAPCODE : MF := ⟨24, 8⟩
def Dsc.HOME : MF := ⟨32, 8⟩
def Dsc.MAG : MF := ⟨40, 8⟩
def Dsc.SLOT : MF := ⟨48, 16⟩
def Dsc.STATE : MF := ⟨64, 8⟩
def Dsc.PATINA : MF := ⟨80, 16⟩
def Dsc.FREE : MF := ⟨96, 32⟩
def Dsc.NEXT (l : Nat) : MF := ⟨128 + 32 * l, 32⟩
def Dsc.PAT (i : Nat) : MF := ⟨256 + 32 * i, 32⟩
def Dsc.DEF_HEAD : MF := ⟨384, 32⟩
def Dsc.PCA (l : Nat) : MF := ⟨416 + 8 * l, 8⟩
def Dsc.HSEQ_START : MF := ⟨448, 32⟩
def Dsc.HSEQ_NEXT : MF := ⟨480, 32⟩
/-! Defect records (R249). -/
def Def.DISC : MF := ⟨0, 16⟩
def Def.LAYER : MF := ⟨16, 8⟩
def Def.REASON : MF := ⟨24, 8⟩
def Def.OLD : MF := ⟨32, 32⟩
def Def.NEW : MF := ⟨64, 28⟩
def Def.NEWL : MF := ⟨92, 3⟩

def pgVol : Nat := 1
def pgExt : Nat := 2
def pgRun : Nat := 3
def pgDisc : Nat := 4
def pgDef : Nat := 5

/-- TYPE of a page before Armature allocates it: the volume and disc pages are fixed (R244). -/
def pageDflt (p : Nat) : MapPage := { typ := if p < 5 then pgVol else if p < 71 then pgDisc else 0, gen := 0 }

/-- Bytes of a record of a TYPE. -/
def slotSize (typ : Nat) : Nat := if typ = pgVol ∨ typ = pgRun ∨ typ = pgDisc then 64 else 16
/-- Records of a page of a TYPE. -/
def slotsOf (typ : Nat) : Nat := 4080 / slotSize typ

def MapImg.page (m : MapImg) (p : Nat) : MapPage := Cells.get pageDflt m.pages p
def MapImg.slot (m : MapImg) (k : Nat) : MRec := Cells.get (fun _ => 0#512) m.recs k
def MapImg.setRec (m : MapImg) (k : Nat) (r : MRec) : MapImg :=
  { m with recs := Cells.set Cells.natLt (fun _ => 0#512) m.recs k r }
def MapImg.setPage (m : MapImg) (p : Nat) (g : MapPage) : MapImg :=
  { m with pages := Cells.set Cells.natLt pageDflt m.pages p g }

/-- Keys and records of the pages of one TYPE. -/
def MapImg.all (m : MapImg) (typ : Nat) : List (Nat × MRec) := m.recs.filter fun x => (m.page (x.1 / 256)).typ = typ

def volKey (v : Nat) : Nat := 256 * (v / 63) + v % 63
def discKey (d : Nat) : Nat := 256 * (5 + d / 63) + d % 63

def MapImg.vol (m : MapImg) (v : Nat) : MRec := m.slot (volKey v)
def MapImg.disc (m : MapImg) (d : Nat) : MRec := m.slot (discKey d)
/-- A run by its identifier, with its key. -/
def MapImg.run? (m : MapImg) (r : Nat) : Option (Nat × MRec) := (m.all pgRun).find? fun x => x.2.get Run.RUN = r
def MapImg.run (m : MapImg) (r : Nat) : MRec := ((m.run? r).map Prod.snd).getD 0#512

/-- A member is in use. -/
def memberUsed (r : MRec) (j : Nat) : Bool := r.get (Run.MEMBER j) != 2 ^ 48 - 1
/-- Members of a run's group. -/
def runWidth (r : MRec) : Nat := r.get Run.K + r.get Run.M
/-- The member indices of a run. -/
def runMembers (r : MRec) : List Nat := List.range (runWidth r)
/-- A disc, layer and first cluster as MEMBER<j> holds them. -/
def memberVal (disc layer first : Nat) : Nat := disc + layer * 2 ^ 12 + first * 2 ^ 16

/-- Extents of a volume: those whose run belongs to it; `old` picks the runs a reshape is leaving (R246, R306). -/
def MapImg.exts (m : MapImg) (v : Nat) (old : Bool) : List (Nat × MRec) :=
  (m.all pgExt).filter fun x =>
    let r := m.run (x.2.get Ext.RUN)
    r.get Run.VOL = v && (r.get Run.STATE == 4) == old && x.2.get Ext.COUNT != 0

/-- The replacement of a cluster, where a defect record redirects it (R249, R250). -/
def MapImg.redirect (m : MapImg) (disc : Nat) (c : ClAddr) : ClAddr :=
  match (m.all pgDef).find? (fun x => x.2.get Def.DISC = disc ∧ x.2.get Def.LAYER = c.layer.toNat ∧ x.2.get Def.OLD = c.cluster.toNat) with
  | some x => { cluster := BitVec.ofNat 28 (x.2.get Def.NEW), layer := BitVec.ofNat 3 (x.2.get Def.NEWL) }
  | none => c

/-- The cluster of member `j`, stripe `i`, row `c` of a run before any redirection (R247). -/
def memberCluster (r : MRec) (j i c : Nat) : ClAddr :=
  { cluster := BitVec.ofNat 28 (r.get (Run.FIRST j) + 16 * i + c), layer := BitVec.ofNat 3 (r.get (Run.LAYER j)) }

/-- A key of the media table: disc, layer, physical cluster. -/
def mediaKey (disc : Nat) (c : ClAddr) : Nat := disc * 2 ^ 31 + c.layer.toNat * 2 ^ 28 + c.cluster.toNat

/-- Where a volume LBA lies: run record, stripe, data member, row, block (R250). -/
structure Spot250 where
  run : Nat
  stripe : Nat
  j : Nat
  row : Nat
  blk : Nat
deriving DecidableEq, Repr

/-- Resolution of an LBA by one geometry. -/
def MapImg.resolveBy (m : MapImg) (v k lba : Nat) (old : Bool) : Option Spot250 :=
  if k = 0 then none
  else
    let vs := lba / (256 * k)
    let o := lba % (256 * k)
    match (m.exts v old).find? fun x => x.2.get Ext.VS ≤ vs ∧ vs < x.2.get Ext.VS + x.2.get Ext.COUNT with
    | none => none
    | some x => some { run := x.2.get Ext.RUN, stripe := x.2.get Ext.OFS + vs - x.2.get Ext.VS, j := o / 256, row := o % 256 / 16, blk := o % 16 }

/-- Resolution of an LBA: below the live boundary of a reshape by the new geometry, above it by the old (R250, R306). -/
def resolve (s : State) (v lba : Nat) : Option Spot250 :=
  match s.arm.reshapes.find? fun r => r.vol = v with
  | some r => if lba < r.live then s.arm.map.resolveBy v ((s.arm.map.vol v).get Vol.K) lba false else s.arm.map.resolveBy v r.k lba true
  | none => s.arm.map.resolveBy v ((s.arm.map.vol v).get Vol.K) lba false

/-- Every place an LBA lies at: between the checkpointed and the live boundary of a reshape it has one in both geometries
(R307). -/
def spotsOf (s : State) (v lba : Nat) : List Spot250 :=
  (resolve s v lba).toList ++ match s.arm.reshapes.find? fun r => r.vol = v with
    | some r => if r.ckpt ≤ lba ∧ lba < r.live then (s.arm.map.resolveBy v r.k lba true).toList else []
    | none => []

/-! Changes of the map. A change is made on an image and gives the edits that a MAP record carries. -/
abbrev Tx := MapImg × List Edit

/-- Apply one edit: the bytes of the records it covers (R318). -/
def MapImg.edit (m : MapImg) (e : Edit) : MapImg :=
  let z := slotSize e.typ
  let m := if (m.page e.page).typ = e.typ then m else m.setPage e.page { (m.page e.page) with typ := e.typ }
  (List.range e.len).foldl (fun (m : MapImg) i =>
    let rel := e.off - 16 + i
    let k := 256 * e.page + rel / z
    m.setRec k ((m.slot k).put ⟨8 * (rel % z), 8⟩ ((e.val >>> (8 * i)) % 256))) m

/-- A page of no record is freed; every other page of a commit gets the next generation (R244). -/
def MapImg.bump (m : MapImg) (p : Nat) : MapImg :=
  if 71 ≤ p ∧ !m.recs.any (fun x => x.1 / 256 = p) then m.setPage p (pageDflt p)
  else m.setPage p { (m.page p) with gen := (m.page p).gen + 1 }

/-- The pages a list of edits changes. -/
def editPages (es : List Edit) : List Nat := (es.map Edit.page).eraseDups

/-- Apply the edits of one MAP record (R318). -/
def MapImg.apply (m : MapImg) (es : List Edit) : MapImg := (editPages es).foldl MapImg.bump (es.foldl MapImg.edit m)

/-- The edit that puts a whole record. -/
def slotEdit (key typ : Nat) (r : MRec) : Edit :=
  { page := key / 256, typ := typ, off := 16 + slotSize typ * (key % 256), len := slotSize typ, val := r.toNat }

/-- Put a record at its place. -/
def Tx.set (typ key : Nat) (r : MRec) (t : Tx) : Tx :=
  let m := if (t.1.page (key / 256)).typ = typ then t.1 else t.1.setPage (key / 256) { (t.1.page (key / 256)) with typ := typ }
  (m.setRec key r, t.2 ++ [slotEdit key typ r])

/-- The first free slot of a TYPE: in the lowest page of it with room, else in the lowest page that is not allocated. -/
def MapImg.freeKey (m : MapImg) (typ : Nat) : Nat :=
  let ps := (m.pages.filter fun p => p.2.typ = typ ∧ 71 ≤ p.1).map Prod.fst
  let free (p : Nat) : Option Nat := (List.range (slotsOf typ)).find? fun i => m.slot (256 * p + i) = 0#512
  match ps.findSome? (fun p => (free p).map (fun i => 256 * p + i)) with
  | some k => k
  | none => 256 * (((List.range (m.pages.length + 1)).map (· + 71)).find? (fun p => (m.page p).typ = 0)).getD 71

/-- Add a record. -/
def Tx.add (typ : Nat) (r : MRec) (t : Tx) : Tx := t.set typ (t.1.freeKey typ) r

/-- Delete a record. -/
def Tx.del (typ key : Nat) (t : Tx) : Tx := t.set typ key 0#512

def Tx.setVol (v : Nat) (r : MRec) (t : Tx) : Tx := t.set pgVol (volKey v) r
def Tx.setDisc (d : Nat) (r : MRec) (t : Tx) : Tx := t.set pgDisc (discKey d) r
/-- Change a run record where it stands. -/
def Tx.modRun (r : Nat) (f : MRec → MRec) (t : Tx) : Tx :=
  match t.1.run? r with
  | some x => t.set pgRun x.1 (f x.2)
  | none => t

/-- EXT_ROOT and EXT_N of a volume follow its extents (R245). -/
def Tx.extRoot (v : Nat) (t : Tx) : Tx :=
  let es := t.1.exts v false ++ t.1.exts v true
  t.setVol v (((t.1.vol v).put Vol.EXT_N es.length).put Vol.EXT_ROOT ((es.map fun x => x.1 / 256).min?.getD 0))

/-- DEF_HEAD of a disc follows its defect records (R248). -/
def Tx.defHead (d : Nat) (t : Tx) : Tx :=
  let ps := ((t.1.all pgDef).filter fun x => x.2.get Def.DISC = d).map fun x => x.1 / 256
  t.setDisc d ((t.1.disc d).put Dsc.DEF_HEAD (ps.min?.getD 0))

/-- A defect record of a cluster: the record that points at a retired replacement is updated instead (R249). -/
def Tx.defect (d reason : Nat) (old new : ClAddr) (t : Tx) : Tx :=
  let ds := (t.1.all pgDef).filter fun x => x.2.get Def.DISC = d
  let pt := ds.find? fun x => x.2.get Def.NEW = old.cluster.toNat ∧ x.2.get Def.NEWL = old.layer.toNat
  let put (r : MRec) : MRec := (r.put Def.NEW new.cluster.toNat).put Def.NEWL new.layer.toNat
  match pt with
  | some x => t.set pgDef x.1 (put x.2)
  | none =>
    match ds.find? (fun x => x.2.get Def.OLD = old.cluster.toNat ∧ x.2.get Def.LAYER = old.layer.toNat) with
    | some x => t.set pgDef x.1 (put (x.2.put Def.REASON reason))
    | none =>
      let r : MRec := (((MRec.put 0#512 Def.DISC d).put Def.LAYER old.layer.toNat).put Def.REASON reason).put Def.OLD old.cluster.toNat
      (t.add pgDef (put r)).defHead d

/-- The volume's next free run identifier: the lowest one above 0 that no run has (log 30). -/
def MapImg.newRun (m : MapImg) : Nat :=
  (((List.range ((m.all pgRun).length + 1)).map (· + 1)).find? fun r => (m.run? r).isNone).getD 1

/-- What Armature holds about a disc. -/
def State.discInt (s : State) (d : Nat) : DiscInt := ((s.arm.discs.find? fun x => x.1 = d).map Prod.snd).getD {}
/-- Change it. -/
def State.modDisc (s : State) (d : Nat) (f : DiscInt → DiscInt) : State :=
  let rest := s.arm.discs.filter fun x => x.1 != d
  { s with arm := { s.arm with discs := Cells.insert Cells.natLt d (f (s.discInt d)) rest } }

/-- Change what Armature holds. -/
def State.modArm (s : State) (f : ArmInt → ArmInt) : State := { s with arm := f s.arm }
/-- Change what the journal holds. -/
def State.modJrn (s : State) (f : JrnInt → JrnInt) : State := { s with jrn := f s.jrn }

end Sys2Proof.Machine
end

