-- ==== Sys2Proof/Machine/Geometry.lean ====
section
/-! DEFINITION. Where a cluster lies on its disc and where the sled stands for it (R212), the speed a radius allows (R72, R118, R264)
and the time a seek takes (R205, R206, R264). Lengths are in nm unless a name says otherwise. The precision of ESQ<n>'s arithmetic is
open: a root, a quotient by pi and a division may be rounded either way to a whole unit (log 100). -/
namespace Sys2Proof.Machine

/-- The bus an engine's spindle hangs on: A for E0-E3, B for E4-E7 (R226). -/
def busOf (e : Eng) : Fin 2 := if e.val < 4 then 0 else 1

/-- The disc an engine holds. -/
def loadedIn (s : State) (e : Eng) : Option Nat := (s.arm.discs.find? fun x => x.2.loc = .engine e).map Prod.fst

/-- The channel bit length of a capacity code, in 10 pm (the table of R118). -/
def bitLen (capcode : Nat) : Nat :=
  match capcode with
  | 0 => 7450
  | 1 => 5820
  | _ => 5587

/-- The root below `n`, bit by bit. -/
def rootGo (n : Nat) : Nat → Nat → Nat
  | 0, r => r
  | k + 1, r => rootGo n k (if (r + 2 ^ k) * (r + 2 ^ k) ≤ n then r + 2 ^ k else r)

/-- A square root in whole units, rounded either way unless it is exact (log 100). -/
def rootFree (n : Nat) : Nat :=
  let r := rootGo n 40 0
  if r * r = n then r else r + (if Config.roundUp n 0 then 1 else 0)

/-- A quotient by pi in whole units; the fraction is pi to fifty digits (log 100). -/
def piFree (n : Int) : Int := divFree (n * 10 ^ 49) 31415926535897932384626433832795028841971693993751

/-- The radius of the track that holds cluster `a` of a layer: r(a)^2 = r0^2 + (a - a0) x 962,136 x L x p / pi (R212). -/
def clRadius (s : State) (d : Nat) (c : ClAddr) : Nat :=
  let x := s.discInt d
  let r0 : Int := 1000 * (x.radii[c.layer.toNat]?.getD 0 : Nat)
  let a0 : Int := (x.zone[c.layer.toNat]?.getD (0, 0)).1
  rootFree (r0 * r0 + piFree ((c.cluster.toNat - a0) * 962136 * bitLen ((s.arm.map.disc d).get Dsc.CAPCODE) * 320 / 100)).toNat

/-- SLG_POS<i> as a number. -/
def gearPos (s : State) (e : Eng) (i : Nat) : Int := s.getInt (SLG_POS.POS e i)

/-- The entries of the gearing table: it ends before the first one that does not rise (R210). -/
def gearLen (s : State) (e : Eng) : Nat → Nat → Nat
  | 0, i => i
  | n + 1, i => if i < 16 ∧ gearPos s e (i - 1) < gearPos s e i then gearLen s e n (i + 1) else i

/-- How much of the way from microstep 0 to microstep `p` lies in entry `i` of `n`, signed. -/
def gearShare (s : State) (e : Eng) (n i : Nat) (p : Int) : Int :=
  let within (x : Int) : Int :=
    let x := if i = 0 then x else max x (gearPos s e i)
    if i + 1 < n then min x (gearPos s e (i + 1)) else x
  within p - within 0

/-- r(p): R_HOME at microstep 0, and a track pitch of 320 nm for each MPT / 65,536 microsteps from there (R210, R212). -/
def sledRadius (s : State) (e : Eng) (p : Int) : Int :=
  let n := gearLen s e 16 1
  (List.range n).foldl (fun r i => r + divFree (gearShare s e n i p * 320 * 65536) (s.get (SLG_MPT.MPT e i)))
    (1000 * setting s (0x0100 + e.val))

/-- The sled position that puts the tracking spot at radius `r` with the actuator displaced by `d`, from table entry `i` (R212). -/
def sledAtEntry (s : State) (e : Eng) (i : Nat) (r d : Int) : Int :=
  gearPos s e i + roundFree ((r - sledRadius s e (gearPos s e i) - d) * s.get (SLG_MPT.MPT e i)) (320 * 65536)

/-- The entry that contains the position: the highest one it does not lie below (R210, R212). -/
def sledEntry (s : State) (e : Eng) (r d : Int) : Nat → Nat
  | 0 => 0
  | i + 1 => if i + 1 < gearLen s e 16 1 ∧ gearPos s e (i + 1) ≤ sledAtEntry s e (i + 1) r d then i + 1 else sledEntry s e r d i

/-- S of R212. -/
def sledAt (s : State) (e : Eng) (r d : Int) : Int := sledAtEntry s e (sledEntry s e r d 15) r d

/-- The mean displacement of the tracking actuator: the mean port 1 output times the actuator's static sensitivity, which is mechanism
data in nm at full scale (R212, log 100). -/
def actDisp (e : Eng) (mean : BitVec 24) : Int := divFree (mean.toInt * Config.trackSens e.val) (2 ^ 23)

/-- The sled position for a cluster of the disc in the engine (R212). -/
def sledFor (s : State) (e : Eng) (c : ClAddr) (mean : BitVec 24) : Int :=
  match loadedIn s e with
  | some d => sledAt s e (clRadius s d c) (actDisp e mean)
  | none => s.getInt (SLD_POS.VALUE e)

/-- The distance from cluster `a` to cluster `c` in tracks, outward positive (R206, R212). -/
def tracksTo (s : State) (e : Eng) (a c : ClAddr) : Int :=
  match loadedIn s e with
  | some d => roundFree ((clRadius s d c : Int) - clRadius s d a) 320
  | none => 0

/-- rc of a disc: the radius of 12x at 10,000 rpm, 792 Mbit/s x L / 1,047.2 rad/s, in um (R118). -/
def discRc (s : State) (d : Nat) : Nat := (divFree (bitLen ((s.arm.map.disc d).get Dsc.CAPCODE) * 79200) 10472).toNat

/-- The highest speed within R72 at a radius in um: 10,000 x min(1, rc / radius), x 8/12 with the link DEGRADED (R72, R264, R268). -/
def rpmMax (s : State) (e : Eng) (radius rc : Nat) : Nat :=
  let n := if radius ≤ rc ∨ radius = 0 then 10000 else 10000 * rc / radius
  if s.get (HL_STAT.STATE e) = hlDegraded then n * 8 / 12 else n

/-- The speed ESQ<n> commands at a cluster of a disc (R118, R264). -/
def zoneRpm (s : State) (e : Eng) (d : Nat) (c : ClAddr) : Nat := rpmMax s e (clRadius s d c / 1000) (discRc s d)

/-- The speed ESQ<n> commands at a cluster of the disc in its engine. -/
def zoneSpeed (s : State) (e : Eng) (c : ClAddr) : Nat :=
  match loadedIn s e with
  | some d => zoneRpm s e d c
  | none => rpmMax s e 0 0

/-- Profile time of a sled move over `n` microsteps, in us (R206, R233). -/
def profileUs (s : State) (e : Eng) (n : Nat) : Nat :=
  let v := max 1 (16 * s.get (SLD_PRF.VMAX e))
  let a := max 1 (256 * s.get (SLD_PRF.ACC e))
  if n * a ≤ v * v then rootFree (4000000000000 * n / a) else (divFree (n * 1000000) v + divFree (v * 1000000) a).toNat

/-- Time of a seek over a radial distance: R205 below 513 tracks, else R206 with its profile time, in us (R264). -/
def seekUs (s : State) (e : Eng) (nm : Nat) : Nat :=
  let tracks := (roundFree nm 320).toNat
  if tracks = 0 then 0
  else if tracks ≤ 3 then 150
  else if tracks ≤ 512 then 500 + 6 * tracks
  else profileUs s e ((divFree (nm * 16) (max 1 (s.get (SLD_CFG.STEP_LEN e)))).toNat) + 9400

end Sys2Proof.Machine
end

