-- ==== Sys2Proof/Machine/Ladder.lean ====
section
/-! DEFINITION. The retry ladder's queue and messages (R147-R155). Attempts are in LadderRun. -/
namespace Sys2Proof.Machine

/-- RTY_CFG fields with the limits their descriptions state (R170). -/
def tries (s : State) (e : Eng) (rung : Nat) : Nat :=
  match rung with
  | 1 => max 1 (s.get (RTY_CFG.TRIES1 e))
  | 2 => 4
  | 3 => max 1 (s.get (RTY_CFG.ALT_TRIES e))
  | 5 => 3
  | _ => 1

/-- The rung is passed over: disabled, or rung 6 on a bus with CHOP_FAULT (R151, R227). Rung 7 never is. -/
def rungOff (s : State) (e : Eng) (rung : Nat) : Bool :=
  rung < 7 && (!(s.get (RTY_CFG.RUNG_EN e)).testBit (rung - 1) || (rung == 6 && s.isSet (BRK_STAT.CHOP_FAULT (busOf e))))

/-- The first rung from `r` on that is not passed over. -/
def firstRung (s : State) (e : Eng) : Nat → Nat → Nat
  | 0, _ => 7
  | n + 1, r => if r ≥ 7 then 7 else if rungOff s e r then firstRung s e n (r + 1) else r

/-- The cost of a rung at 10,000 rpm in us, without rung 6's speed changes (R151): two revolutions of 6.0 ms an
attempt, 1.15 ms a replay pass. -/
def rungCost (s : State) (e : Eng) (rung : Nat) : Int :=
  match rung with
  | 4 => 12000 + 1150 * (max 1 (min 4 (s.get (RTY_CFG.ITER e))) : Nat)
  | 6 => 24000 + 1150 * (max 1 (min 4 (s.get (RTY_CFG.ITER e))) : Nat)
  | 7 => 0
  | r => 12000 * (tries s e r : Nat)

/-- Rung 6's percentage of the speed in use, held to 25-90 (R170). -/
def slowPct (s : State) (e : Eng) : Nat := max 25 (min 90 (s.get (RTY_CFG.SLOW_PCT e)))

/-- Time to slow down and to speed up again at rung 6, each within |n2 - n1| / rate + 20 ms, in us (R151, R218). -/
def rung6Change (s : State) (e : Eng) (rpm : Nat) : Int :=
  let dn : Int := rpm - divFree (rpm * slowPct s e) 100
  divFree (dn * 1000000) (20 * max 1 (s.get (SPN_SPD.DEC e))) + 20000
    + divFree (dn * 1000000) (20 * max 1 (s.get (SPN_SPD.ACC e))) + 20000

/-- Estimated time from rung `r` to the end of the ladder, scaled to the commanded speed; in rung 6's speed changes that is the speed
before them (R155). -/
def ladderTime (s : State) (e : Eng) (r : Nat) (c : ClAddr) : Int :=
  let cmd := match s.eng[e].slow with | some x => x.1 | none => s.get (SPN_SPD.TARGET e)
  let rpm := if cmd = 0 then zoneSpeed s e c else cmd
  let rungs := (List.range 8).filter fun i => decide (r ≤ i) && decide (1 ≤ i) && !rungOff s e i
  let base := rungs.foldl (fun t i => t + rungCost s e i) 0
  divFree (base * 10000) (max 1 rpm) + (if rungs.contains 6 then rung6Change s e rpm else 0)

/-- LADDER_MESSAGE: ESQ puts cluster, rung and remaining time to Armature (R155). -/
def ladderMessage (e : Eng) (c : ClAddr) (r : Nat) (s : State) : State :=
  { s with ladderMsgs := s.ladderMsgs ++ [{ e := e, addr := c, rung := r, us := (ladderTime s e r c).toNat }] }

/-- A note for Armature. -/
def note (n : ArmNote) (s : State) : State := { s with notes := s.notes ++ [n] }

/-- Order of the queue: ascending address, layer first (R148). -/
def ladderInsert (i : LadderItem) : List LadderItem → List LadderItem
  | [] => [i]
  | j :: rest => if (clWord i.addr false).toNat < (clWord j.addr false).toNat then i :: j :: rest else j :: ladderInsert i rest

/-- Armature names a deadline for a cluster of the ladder (R148). -/
def ladderDue (e : Eng) (c : ClAddr) (us : Nat) (s : State) : State :=
  s.modEng e fun g => { g with rty := g.rty.map fun i => if i.addr = c then { i with due := some us } else i }

/-- The item to climb for next: at rung 6's lower speed one of those still to be read at it; then the earliest deadline, else the lowest
address (R148, R154). -/
def ladderNext (s : State) (e : Eng) : Option LadderItem :=
  let q := match s.eng[e].slow with
    | some x => s.eng[e].rty.filter fun (i : LadderItem) => x.2.contains i.addr
    | none => s.eng[e].rty
  match q.filter fun (i : LadderItem) => i.due.isSome with
  | [] => q.head?
  | i :: rest => some (rest.foldl (fun (a b : LadderItem) => if b.due.getD 0 < a.due.getD 0 then b else a) i)

/-- RTY_STAT.QUEUED shows the clusters waiting, saturating at 255. -/
def ladderShow (e : Eng) (s : State) : State := s.put (RTY_STAT.QUEUED e) (min 255 s.eng[e].rty.length)

/-- A cluster leaves the ladder at a rung, which RTY_CNT counts (R148, R155). -/
def ladderLeave (e : Eng) (c : ClAddr) (rung : Nat) (s : State) : State :=
  let s := s.modEng e fun g => { g with rty := g.rty.filter fun i => i.addr != c }
  note (.left e c rung) (ladderShow e (s.inc (RTY_CNT.COUNT e (min rung 7))))

/-- LADDER_RUNG7: the cluster is handed to the redundancy layer as an erasure (R155). -/
def ladderRung7 (e : Eng) (c : ClAddr) (s : State) : State := note (.erasure e c) (ladderLeave e c 7 s)

/-- LADDER_ENTER: a cluster enters at rung 1, or at the first rung enabled, unless it is there or the engine is out
of placement (R147, R148). -/
def ladderEnter (e : Eng) (c : ClAddr) (spot : Nat) (s : State) : State :=
  if s.eng[e].loop.down || s.eng[e].rty.any (fun i => i.addr == c) then s
  else
    let r := firstRung s e 7 1
    let s := s.modEng e fun g => { g with rty := ladderInsert { addr := c, spot := spot, rung := r, attempt := 0 } g.rty }
    let s := ladderMessage e c r (ladderShow e s)
    if r = 7 then ladderRung7 e c s else s

/-- An attempt at the item's rung failed: the next attempt, the next rung with a message, or rung 7 (R148, R151). -/
def ladderFail (e : Eng) (i : LadderItem) (s : State) : State :=
  if i.attempt + 1 < tries s e i.rung then
    s.modEng e fun g => { g with rty := g.rty.map fun j => if j.addr = i.addr then { j with attempt := i.attempt + 1 } else j }
  else
    let r := firstRung s e 7 (i.rung + 1)
    let s := s.modEng e fun g => { g with rty := g.rty.map fun j => if j.addr = i.addr then { j with rung := r, attempt := 0 } else j }
    let s := ladderMessage e i.addr r s
    if r = 7 then ladderRung7 e i.addr s else s

/-- Every cluster leaves the ladder unread when the engine goes out of placement; no rung 7, no message (R148). -/
def ladderDrop (e : Eng) (s : State) : State := ladderShow e (s.modEng e fun g => { g with rty := [] })

/-- The ladder pauses in TRAINING, FAILED or OFF and during loop-fault recovery (R148). -/
def ladderPaused (s : State) (e : Eng) : Bool := !linkUp s e || s.eng[e].loop.fault != 0

end Sys2Proof.Machine
end

