-- ==== Sys2Proof/Machine/Spindle.lean ====
section
/-! DEFINITION. The spindle drive: start, catch, run, stop, current loops, limits, angle, faults (R214-R230). -/
namespace Sys2Proof.Machine

/-- SPN_STAT.STATE codes (R230). -/
def spnOff : Nat := 0
def spnCatch : Nat := 1
def spnAlign : Nat := 2
def spnOpen : Nat := 3
def spnRun : Nat := 4
def spnBrake : Nat := 5
def spnHalted : Nat := 6
def spnFaultSt : Nat := 7

/-- The engines on a bus (R226). -/
def busEngines (b : Fin 2) : List Eng := (List.finRange 8).filter fun e => busOf e = b

/-- Bus voltage in mV as the engine's BRK port measures it (R214). -/
def vbusOf (s : State) (e : Eng) : Nat := s.get (BRK_STAT.VBUS (busOf e))

/-- Pole pairs: 0 is taken as 1 (R230). -/
def polePairs (s : State) (e : Eng) : Nat := max 1 (s.get (SPN_MOTOR.POLES e))

/-- A speed in rpm as 2^-16 table units per 25 us period, and back (R219). -/
def rpmOmega (s : State) (e : Eng) (rpm : Int) : Int := divFree (rpm * polePairs s e * 67108864) 2400000
def omegaRpm (s : State) (e : Eng) (w : Int) : Int := divFree (w * 2400000) (67108864 * polePairs s e)

/-- The bridge turns off; the angle is no longer valid (R220). -/
def spnGateOff (e : Eng) (s : State) : State :=
  let s := ((s.put (SPN_STAT.ANG_VALID e) 0).put (SPN_STAT.AT_SPEED e) 0).put (SPN_STAT.ZERO_VEC e) 0
  s.modSpn e fun p => { p with gate := 0, iqCmd := 0, power := 0, oc := false, uA := 0, uB := 0, bad := 0, good := 0 }

/-- A fault: bridge off, FAULT with its cause, events (R225). -/
def spnFault (e : Eng) (cause : Nat) (s : State) : State :=
  let s := spnGateOff e s
  let s := (s.put (SPN_STAT.STATE e) spnFaultSt).put (SPN_STAT.FCAUSE e) cause
  ((s.raise (SPN_EVT.FAULT e)).report (.spn e 2)).modSpn e fun p => { p with restart := false }

/-- The origin of the mechanical angle is set (R220). -/
def spnOrigin (e : Eng) (s : State) : State :=
  ((s.incWrap (SPN_STAT.ORIGIN_GEN e)).put (SPN_STAT.ANG_VALID e) 1).modSpn e fun p => { p with elRev := 0 }

/-- CATCH begins: the bridge floats (R222). -/
def spnEnterCatch (e : Eng) (s : State) : State := (spnGateOff e s).put (SPN_STAT.STATE e) spnCatch

/-- A spin-up begins: it is measured (R254). -/
def spnFrom (e : Eng) (s : State) : State := s.modSpn e fun p => { p with since := some s.us }

/-- SPN_START: EN = 1 in OFF starts through CATCH (R222). -/
def spnStartOp (e : Eng) (s : State) : State :=
  let s := s.put (SPN_CTRL.EN e) 1
  if s.get (SPN_STAT.STATE e) = spnOff then spnFrom e (spnEnterCatch e s) else s

/-- SPN_COAST: EN = 0 turns the bridge off at once, in every state, and ends FAULT (R224). -/
def spnCoastOp (e : Eng) (s : State) : State :=
  let v := (s.getInt (SPN_SPEED.OBS e)).natAbs
  let s := (spnGateOff e s).put (SPN_CTRL.EN e) 0
  (s.put (SPN_STAT.STATE e) spnOff).modSpn e fun p => { p with coastFrom := v, restart := false }

/-- Angle, speed and torque as they stand after phases V and W are exchanged (R214, R224). -/
def spnMirror (e : Eng) (s : State) : State :=
  let s := (s.putInt (SPN_SPEED.OBS e) (-s.getInt (SPN_SPEED.OBS e))).putInt (SPN_SPEED.REF e) (-s.getInt (SPN_SPEED.REF e))
  s.modSpn e fun p => { p with
    theta := (1024 - p.theta) % 1024, omega := -p.omega, elRev := -p.elRev, uB := -p.uB, iB := -p.iB, sumQ := -p.sumQ, sumS := -p.sumS
    iq := -p.iq, iqCmd := -p.iqCmd }

/-- SPN_DIR_WRITE: in RUN or BRAKE a stop followed by a start in the new direction (R224). -/
def spnDir (e : Eng) (dir : Bool) (s : State) : State :=
  let chg := s.isSet (SPN_CTRL.DIR e) != dir
  let s := s.putBool (SPN_CTRL.DIR e) dir
  let st := s.get (SPN_STAT.STATE e)
  if chg && (st == spnRun || st == spnBrake) then
    (spnMirror e (s.put (SPN_STAT.STATE e) spnBrake)).modSpn e fun p => { p with restart := true }
  else s

/-- SPN_TARGET_WRITE: the speed command, AT_SPEED cleared, a start from HALTED (R217, R222). -/
def spnTarget (e : Eng) (rpm : Nat) (s : State) : State :=
  let s := (s.put (SPN_SPD.TARGET e) (min rpm 10000)).put (SPN_STAT.AT_SPEED e) 0
  if s.get (SPN_STAT.STATE e) = spnHalted ∧ rpm ≠ 0 then spnFrom e (spnEnterCatch e s) else s

/-- With a chopper fault on the bus no speed below this one is commanded: the present one, and where the disc coasts that at which the
coast began (R224, R227). -/
def chopFloor (s : State) (e : Eng) : Nat :=
  if s.isSet (BRK_STAT.CHOP_FAULT (busOf e)) then
    max (s.get (SPN_SPD.TARGET e)) (if s.get (SPN_STAT.STATE e) = spnOff then s.eng[e].spn.coastFrom else 0)
  else 0

/-- A speed is set, not below the floor of a chopper fault (R224, R227, R268). -/
def takeSpeed (e : Eng) (rpm : Nat) (s : State) : State := if rpm < chopFloor s e then s else spnTarget e rpm s

/-- RUN or BRAKE begins at a speed: REF, the loops preset so that ud = 0 and uq is the EMF's share, bridge on, origin set (R220, R222). -/
def spnEngage (e : Eng) (rpm : Int) (s : State) : State :=
  let s := spnOrigin e (s.putInt (SPN_SPEED.REF e) rpm)
  s.modSpn e fun p => { p with sumD := 0, sumQ := 0, refFrac := 0, gate := 1, bad := 0, good := 0 }

/-- Synchronise: angle and speed are loaded from the last crossing and n (R222). -/
def spnSync (e : Eng) (rpm : Int) (theta : Nat) (s : State) : State :=
  let w := rpmOmega s e rpm
  spnEngage e rpm (s.modSpn e fun p => { p with theta := theta, omega := w })

/-- ALIGN begins: the current rises from 0 (R223). -/
def spnAlignStart (e : Eng) (s : State) : State :=
  (s.put (SPN_STAT.STATE e) spnAlign).modSpn e fun p => { p with gate := 1, aligned := 0, theta := 0, sumD := 0, sumQ := 0 }

/-- OPEN begins at a forced angle and speed (R222, R223). -/
def spnOpenFrom (e : Eng) (rpm theta : Nat) (s : State) : State :=
  (s.put (SPN_STAT.STATE e) spnOpen).modSpn e fun p => { p with
    gate := 1, forced := 2000 * rpm, theta := theta, angFrac := 0, tried := 0, good := 0 }

/-- The speed a mean crossing interval in MOT cycles of 10 ns gives: 60 / (6 x interval x POLES) rpm (R222). -/
def catchRpm (s : State) (e : Eng) (interval : Nat) : Nat := (divFree 1000000000 (max 1 (interval * polePairs s e))).toNat

/-- SPN_CATCH_DECIDE: the measurement at 20 ms decides; `interval` is the mean time between crossings in MOT cycles, `theta` the angle of
the last one (R222). -/
def spnCatchOp (e : Eng) (edges interval : Nat) (forward : Bool) (theta : Nat) (s : State) : State :=
  if s.get (SPN_STAT.STATE e) = spnCatch then
    let rpm := catchRpm s e interval
    let s := s.raise (SPN_EVT.CATCH e)
    if edges < max 3 (s.get (SPN_OBS.CATCH_EDGES e)) then
      spnAlignStart e ((s.put (SPN_STAT.CATCH e) 1).putInt (SPN_SPEED.OBS e) 0)
    else if forward then
      let s := s.putInt (SPN_SPEED.OBS e) rpm
      if rpm ≤ s.get (SPN_SPD.TARGET e) then
        let s := s.put (SPN_STAT.CATCH e) 2
        if rpm < s.get (SPN_START.HAND_RPM e) then spnOpenFrom e rpm theta s
        else spnSync e rpm theta (s.put (SPN_STAT.STATE e) spnRun)
      else spnSync e rpm theta ((s.put (SPN_STAT.CATCH e) 3).put (SPN_STAT.STATE e) spnRun)
    else
      let s := (s.putInt (SPN_SPEED.OBS e) (-(rpm : Int))).put (SPN_STAT.CATCH e) 4
      (spnSync e (-(rpm : Int)) theta (s.put (SPN_STAT.STATE e) spnBrake)).modSpn e fun p => { p with restart := true }
  else s

/-- SPN_OPEN_HANDOVER: at HAND_RPM both tests passed for 32 periods in a row give RUN; 64 periods without are a start failure (R223). -/
def spnHandover (e : Eng) (s : State) : State :=
  let p := s.eng[e].spn
  if s.get (SPN_STAT.STATE e) = spnOpen then
    if 32 ≤ p.good then spnEngage e (s.get (SPN_START.HAND_RPM e)) (s.put (SPN_STAT.STATE e) spnRun)
    else if 64 ≤ p.tried then spnFault e 5 s
    else s
  else s

/-- SPN_HALTED: a stop completes, the bridge turns off (R224). -/
def spnHalt (e : Eng) (s : State) : State :=
  ((spnGateOff e s).put (SPN_STAT.STATE e) spnHalted).raise (SPN_EVT.HALTED e)

/-- SPN_BRAKE_DONE: below 2 Hz the stop is complete, or the start in the commanded direction follows (R222-R224). -/
def spnBrakeOp (e : Eng) (s : State) : State :=
  if s.get (SPN_STAT.STATE e) = spnBrake then
    if s.eng[e].spn.restart then
      spnAlignStart e ((spnGateOff e s).modSpn e fun p => { p with restart := false })
    else spnHalt e s
  else s

/-- |observed - TARGET| within 0.5 % of TARGET, at least 10 rpm (R217). -/
def spnNear (s : State) (e : Eng) : Bool :=
  let d := (s.getInt (SPN_SPEED.OBS e) - s.get (SPN_SPD.TARGET e)).natAbs
  decide (d ≤ 10) || decide (d * 200 ≤ s.get (SPN_SPD.TARGET e))

/-- SPN_AT_SPEED: with REF = TARGET and the speed within tolerance for 16 ms; a spin-up ends and is measured (R217, R254). -/
def spnAtSpeedOp (e : Eng) (s : State) : State :=
  if s.get (SPN_STAT.STATE e) = spnRun ∧ s.getInt (SPN_SPEED.REF e) = s.get (SPN_SPD.TARGET e) ∧ spnNear s e = true then
    let s := s.modSpn e fun p => match p.since with
      | some t => { p with took := some (divFree (s.us - t : Nat) 1000).toNat, since := none }
      | none => p
    (s.put (SPN_STAT.AT_SPEED e) 1).raise (SPN_EVT.AT_SPEED e)
  else s

/-- SPN_LOSS_OF_SYNC: after LOS_N failing periods in a row; recatch with RECATCH = 1 and fewer than three losses in 10 s, else FAULT with cause 4 (R221). -/
def spnLos (e : Eng) (s : State) : State :=
  let st := s.get (SPN_STAT.STATE e)
  if (st = spnRun ∨ st = spnBrake) ∧ max 1 (s.get (SPN_OBS.LOS_N e)) ≤ s.eng[e].spn.bad then
    let s := ((spnGateOff e s).raise (SPN_EVT.LOS e)).report (.spn e 1)
    let recent := s.us :: (s.eng[e].spn.losTimes.filter fun t => decide (s.us < t + 10000000))
    let s := s.modSpn e fun p => { p with losTimes := recent, restart := false }
    if s.isSet (SPN_CTRL.RECATCH e) && decide (recent.length < 3) then s.put (SPN_STAT.STATE e) spnCatch else spnFault e 4 s
  else s

/-- The current command before limits: port 6 at WAIT, or the internal speed loop, whose sum is preset at a change of
source (R216). -/
def spnIqRaw (e : Eng) (speed : Int) (s : State) : Int × State :=
  let imax : Int := s.get (SPN_LIM.IMAX e)
  let held := (s.isSet (ANV_STAT.SAT_TRIP e) || s.isSet (ANV_STAT.FAULT_TRIP e)) && (s.get (ANV_SUP.HOLD_MASK e)).testBit 6
  if s.isSet (SPN_CTRL.LOOP_SRC e) && s.isSet (ANV_STAT.RUNNING e) && !held then
    (divFree (imax * s.getInt (ANV_PORT.VALUE e 6)) (2 ^ 23), s.modSpn e fun p => { p with port6 := true })
  else
    let p := s.eng[e].spn
    let d := s.getInt (SPN_SPEED.REF e) - speed
    let kp : Int := s.get (SPN_PI.KP e)
    let sum := if p.port6 then divFree (p.iqCmd * 2 ^ 28) imax - kp * d * 2 ^ 10 else p.sumS + s.get (SPN_PI.KI e) * d
    (divFree (imax * (kp * d * 2 ^ 10 + sum)) (2 ^ 28), s.modSpn e fun p => { p with port6 := false, sumS := sum })

/-- The regenerating spindles of a bus (R228). -/
def regenerating (s : State) (b : Fin 2) : List Eng := (busEngines b).filter fun e => decide (s.eng[e].spn.iqCmd < 0)

/-- P_ABS of a bus in mW: P_SINK and the positive drive powers (R228). -/
def pAbs (s : State) (b : Fin 2) : Int :=
  10 * s.get (BRK_CTRL.P_SINK b) + (busEngines b).foldl (fun t e => t + max 0 s.eng[e].spn.power) 0

/-- The limits of the current command in order: IMAX, motoring bus current, regeneration while OV1 holds (R216, R228). -/
def spnLimit (e : Eng) (emf : Nat) (iq : Int) (s : State) : Int × State :=
  let imax : Int := s.get (SPN_LIM.IMAX e)
  let q1 := clampInt (-imax) imax iq
  let top := if emf = 0 then imax else divFree (2000 * s.get (SPN_LIM.IBUS e) * vbusOf s e) (3 * emf)
  let q2 := if 0 < q1 ∧ top < q1 then top else q1
  let n := max 1 (regenerating s (busOf e)).length
  let bot := if emf = 0 then imax else divFree (2000000 * pAbs s (busOf e)) (3 * n * emf)
  let q3 := if q2 < 0 ∧ s.isSet (BRK_STAT.OV1 (busOf e)) = true ∧ q2 < -bot then -bot else q2
  let s := s.putBool (SPN_STAT.ILIM e) (q2 != iq)
  let s := if q3 ≠ q2 ∧ ¬ s.isSet (SPN_STAT.REGEN_LIM e) then s.raise (SPN_EVT.REGEN_LIM e) else s
  (q3, s.putBool (SPN_STAT.REGEN_LIM e) (q3 != q2))

/-- REF moves toward its goal by ACC or DEC x 25 us, or is held at the observed speed while a limit acts (R217, R228). -/
def spnRamp (e : Eng) (speed : Int) (s : State) : State :=
  if s.isSet (SPN_STAT.VLIM e) || s.isSet (SPN_STAT.ILIM e) || s.isSet (SPN_STAT.REGEN_LIM e) || s.isSet (SPN_STAT.ZERO_VEC e) then
    (s.putInt (SPN_SPEED.REF e) speed).modSpn e fun p => { p with refFrac := 0 }
  else
    let goal : Int := if s.get (SPN_STAT.STATE e) = spnRun then s.get (SPN_SPD.TARGET e) else 0
    let r := s.getInt (SPN_SPEED.REF e) * 2000 + s.eng[e].spn.refFrac
    let g := goal * 2000
    let rate : Int := if r.natAbs < g.natAbs then max 1 (s.get (SPN_SPD.ACC e)) else max 1 (s.get (SPN_SPD.DEC e))
    let r' := if r < g then min g (r + rate) else max g (r - rate)
    (s.putInt (SPN_SPEED.REF e) (r' / 2000)).modSpn e fun p => { p with refFrac := r' % 2000 }

/-- T of R215 at an angle in 2^-16 table units, by linear interpolation. -/
def sineAt (x : Int) : Int :=
  let j := (x / 65536 % 1024).toNat
  Config.sine j + divFree ((Config.sine ((j + 1) % 1024) - Config.sine j) * (x % 65536)) 65536

/-- T[theta] and T[theta + 256]. -/
def sinOf (theta : Nat) : Int := Config.sine (theta % 1024)
def cosOf (theta : Nat) : Int := Config.sine ((theta + 256) % 1024)

/-- The alpha and beta currents of a sample, with phases V and W exchanged for DIR = 1 (R214, R215); the root of 3 to 25 digits. -/
def alphaBeta (s : State) (e : Eng) (m : SpnMeas) : Int × Int :=
  let iv := if s.isSet (SPN_CTRL.DIR e) then -m.iu - m.iv else m.iv
  (m.iu, divFree ((m.iu + 2 * iv) * 10 ^ 25) 17320508075688772935274463)

/-- The d and q currents at an angle (R215). -/
def parkAt (theta : Nat) (i : Int × Int) : Int × Int :=
  (divFree (i.1 * cosOf theta + i.2 * sinOf theta) 65536, divFree (i.2 * cosOf theta - i.1 * sinOf theta) 65536)

/-- The voltage (ud, uq) on the gates: alpha and beta for the observer, and the compare values (R215). -/
def spnApply (e : Eng) (theta : Nat) (u : Int × Int) (s : State) : State :=
  let mag : Int := rootFree (u.1 * u.1 + u.2 * u.2).toNat
  let psi : Int := theta * 65536 + Config.atan2 u.2 u.1
  let cmp (x : Nat) : Nat := (roundFree (1250 * (2 ^ 31 + mag * sineAt (psi + 256 * 65536 - divFree (x * 1024 * 65536) 3))) (2 ^ 32)).toNat
  let swap := s.isSet (SPN_CTRL.DIR e)
  s.modSpn e fun p => { p with
    gate := 1
    uA := divFree (u.1 * cosOf theta - u.2 * sinOf theta) 65536
    uB := divFree (u.1 * sinOf theta + u.2 * cosOf theta) 65536
    comp := Vector.ofFn fun x : Fin 3 => cmp (if swap && x.val != 0 then 3 - x.val else x.val) }

/-- The current loops of one period at an angle, toward the currents `idRef` and `iq`, and what they put on the gates (R215). -/
def spnLoops (e : Eng) (theta : Nat) (i : Int × Int) (idRef iq : Int) (emf : Nat) (s : State) : State :=
  let p := s.eng[e].spn
  let imax : Int := max 1 (s.get (SPN_LIM.IMAX e))
  let dq := parkAt theta i
  let kpi : Int := s.get (SPN_PI.KPI e)
  let kii : Int := s.get (SPN_PI.KII e)
  let sd := p.sumD + divFree (kii * (idRef - dq.1)) imax
  let sq := p.sumQ + divFree (kii * (iq - dq.2)) imax
  let ud := divFree (kpi * 256 * (idRef - dq.1)) imax + sd
  let uq := divFree ((emf : Int) * 65536) (max 1 (1000 * vbusOf s e)) + divFree (kpi * 256 * (iq - dq.2)) imax + sq
  let mag := 1000000 * (ud * ud + uq * uq)
  let lim : Bool := decide ((475 * 65536) ^ 2 < mag)
  let root : Int := rootFree (ud * ud + uq * uq).toNat
  let u := if lim then (divFree (ud * 311296) (10 * root), divFree (uq * 311296) (10 * root)) else (ud, uq)
  let on := if lim then p.vlimOn + 1 else 0
  let off := if mag < (466 * 65536) ^ 2 then p.vlimOff + 1 else 0
  let s := s.modSpn e fun p => { p with
    sumD := if lim then p.sumD else sd
    sumQ := if lim then p.sumQ else sq
    iq := dq.2
    iqCmd := iq
    emf := emf
    vlimOn := on
    vlimOff := off
    power := divFree (3 * vbusOf s e * (u.1 * dq.1 + u.2 * dq.2)) (2 * 65536 * 1000) }
  let s := spnApply e theta u s
  let s := if on = 16 then (s.put (SPN_STAT.VLIM e) 1).raise (SPN_EVT.VLIM e) else s
  if 16 ≤ off then s.put (SPN_STAT.VLIM e) 0 else s

/-- The EMF in uV from the voltage of the last period, the resistance's and the inductance's drop: e = u x Vbus - RS x i - LS x di / 25 us
(R219). -/
def emfOf (s : State) (e : Eng) (u i last : Int) : Int :=
  divFree (10 * (100 * u * vbusOf s e - 65536 * s.get (SPN_MOTOR.RS e) * i - 262144 * s.get (SPN_MOTOR.LS e) * (i - last))) 65536

/-- What the observer gives in a period: angle, speed in 2^-16 table units per period, EMF magnitude in uV (R219). -/
structure Observed where
  theta : Nat
  omega : Int
  emf : Nat
deriving DecidableEq, Repr

/-- The observer of R219 on the currents of this period. -/
def observe (s : State) (e : Eng) (i : Int × Int) : Observed :=
  let p := s.eng[e].spn
  let ea := emfOf s e p.uA i.1 p.iA
  let eb := emfOf s e p.uB i.2 p.iB
  let theta := (divFree (Config.atan2 (-ea) eb + Config.filterLag p.omega) 65536 % 1024).toNat
  { theta := theta, omega := Config.pll theta p.theta p.omega, emf := rootFree (ea * ea + eb * eb).toNat }

/-- Both plausibility tests of R221: the angle step and the EMF. -/
def plausible (s : State) (e : Eng) (o : Observed) : Bool :=
  let step : Int := ((o.theta : Int) - s.eng[e].spn.theta + 512) % 1024 - 512
  let want : Int := s.get (SPN_SCALE.KE e) * (omegaRpm s e o.omega).natAbs
  decide ((step * 65536 - o.omega).natAbs ≤ 65536 * s.get (SPN_OBS.ANG_TOL e))
    && decide ((100 * ((o.emf : Int) - want)).natAbs ≤ (want * s.get (SPN_OBS.EMF_TOL e)).natAbs)

/-- The period's currents and the observer's values are kept, and its tests are counted (R219, R221, R223). -/
def observeStep (e : Eng) (i : Int × Int) (o : Observed) (tests : Bool) (s : State) : State :=
  let ok := plausible s e o
  s.modSpn e fun p => { p with
    iA := i.1
    iB := i.2
    omega := o.omega
    bad := if tests && !ok then p.bad + 1 else 0
    good := if tests && ok then p.good + 1 else 0 }

/-- The mechanical angle of R220, shown in MANG and to the seam block. -/
def spnAngle (e : Eng) (theta : Nat) (s : State) : State :=
  let p := s.eng[e].spn
  let c := if theta + 512 < p.theta then p.elRev + 1 else if p.theta + 512 < theta then p.elRev - 1 else p.elRev
  let s := s.modSpn e fun p => { p with elRev := c, theta := theta }
  if s.isSet (SPN_STAT.ANG_VALID e) then
    let poles := polePairs s e
    let mang := ((c % poles).toNat * 1024 + theta) * 3600 / (poles * 1024)
    (s.put (SPN_STAT.MANG e) mang).put (SEAM_STAT.ANGLE_NOW e) mang
  else s

/-- A sample is above the overcurrent limit: 1.25 x IMAX, or ISCALE in the zero vector (R225). -/
def overCurrent (s : State) (e : Eng) (m : SpnMeas) : Bool :=
  let top := max (max m.iu.natAbs m.iv.natAbs) (m.iu + m.iv).natAbs
  if s.eng[e].spn.gate = 2 then decide (s.get (SPN_SCALE.ISCALE e) < top) else decide (5 * s.get (SPN_LIM.IMAX e) < 4 * top)

/-- One period of ALIGN: a current vector at theta = 0 of ALIGN_I percent of IMAX, reached over the first 10 ms (R223). -/
def spnAlignStep (e : Eng) (i : Int × Int) (s : State) : State :=
  let n := s.eng[e].spn.aligned + 1
  let cur := divFree (s.get (SPN_LIM.IMAX e) * s.get (SPN_START.ALIGN_I e) * min n 400) 40000
  spnLoops e 0 i cur 0 0 (s.modSpn e fun p => { p with aligned := n, iA := i.1, iB := i.2 })

/-- One period of OPEN: the angle forced forward at a frequency that rises at ACC up to HAND_RPM, the same current on its q-axis, the
observer tested once HAND_RPM is reached (R223). -/
def spnOpenStep (e : Eng) (i : Int × Int) (s : State) : State :=
  let p := s.eng[e].spn
  let hand := 2000 * s.get (SPN_START.HAND_RPM e)
  let f := min (max hand p.forced) (p.forced + max 1 (s.get (SPN_SPD.ACC e)))
  let a := p.theta * 65536 + p.angFrac + (rpmOmega s e (f / 2000)).toNat
  let o := observe s e i
  let s := observeStep e i o (decide (hand ≤ p.forced)) s
  let cur := divFree (s.get (SPN_LIM.IMAX e) * s.get (SPN_START.ALIGN_I e)) 100
  let s := s.modSpn e fun p => { p with
    forced := f
    theta := a / 65536 % 1024
    angFrac := a % 65536
    tried := if hand ≤ p.forced then p.tried + 1 else 0 }
  spnLoops e (a / 65536 % 1024) i 0 cur 0 s

/-- The bridge applies the zero vector (R223, R228). -/
def spnZero (e : Eng) (s : State) : State := s.modSpn e fun p => { p with gate := 2, iqCmd := 0, power := 0, uA := 0, uB := 0 }

/-- One period of RUN or BRAKE: observer, angle, limits, loops, REF, the end of a stop's regenerative part (R215-R224). -/
def spnRunStep (e : Eng) (i : Int × Int) (s : State) : State :=
  let o := observe s e i
  let speed := omegaRpm s e o.omega
  let s := observeStep e i o (decide (s.get (SPN_START.HAND_RPM e) < speed.natAbs)) s
  let s := spnAngle e o.theta (s.putInt (SPN_SPEED.OBS e) speed)
  let s := if s.isSet (SPN_STAT.AT_SPEED e) && decide (s.get (SPN_SPD.TARGET e) < 50 * (speed - s.get (SPN_SPD.TARGET e)).natAbs) then
      s.put (SPN_STAT.AT_SPEED e) 0 else s
  let stopping := s.get (SPN_STAT.STATE e) = spnBrake ∨ s.get (SPN_SPD.TARGET e) = 0
  if stopping ∧ speed.natAbs ≤ s.get (SPN_START.HAND_RPM e) then spnZero e (s.put (SPN_STAT.STATE e) spnBrake)
  else if s.isSet (SPN_STAT.ZERO_VEC e) then spnRamp e speed (spnZero e s)
  else
    let r := spnIqRaw e speed s
    let q := spnLimit e o.emf r.1 r.2
    spnRamp e speed (spnLoops e o.theta i 0 q.1 o.emf q.2)

/-- SPN_PWM_PERIOD: overcurrent, and what the state does in a period; a stop's last part holds the zero vector (R215-R225). -/
def spnPwm (e : Eng) (m : SpnMeas) (s : State) : State :=
  let st := s.get (SPN_STAT.STATE e)
  let oc := overCurrent s e m
  let p := s.eng[e].spn
  if p.gate ≠ 0 ∧ oc = true ∧ p.oc = true then spnFault e 2 s
  else
    let s := s.modSpn e fun p => { p with oc := oc }
    let i := alphaBeta s e m
    if (st = spnAlign ∨ st = spnOpen) ∧ s.isSet (SPN_STAT.ZERO_VEC e) = true then spnZero e s
    else if st = spnAlign then spnAlignStep e i s
    else if st = spnOpen then spnOpenStep e i s
    else if st = spnRun ∨ (st = spnBrake ∧ (p.gate ≠ 2 ∨ s.isSet (SPN_STAT.ZERO_VEC e) = true)) then spnRunStep e i s
    else s

def execSpnPwmPeriod (e : Eng) (m : SpnMeas) (s : State) : Outcome := ok (spnPwm e m s)
def execSpnStart (e : Eng) (s : State) : Outcome := ok (spnStartOp e s)
def execSpnCoast (e : Eng) (s : State) : Outcome := ok (spnCoastOp e s)
def execSpnDirWrite (e : Eng) (dir : Bool) (s : State) : Outcome := ok (spnDir e dir s)
def execSpnTargetWrite (e : Eng) (rpm : BitVec 14) (s : State) : Outcome := ok (spnTarget e rpm.toNat s)
/-- SPN_ALIGN_DONE: ALIGN_T ends alignment and OPEN begins (R223). -/
def execSpnAlignDone (e : Eng) (s : State) : Outcome :=
  ok (if s.get (SPN_STAT.STATE e) = spnAlign then spnOpenFrom e 0 0 s else s)
def execSpnBrakeDone (e : Eng) (s : State) : Outcome := ok (spnBrakeOp e s)
def execSpnAtSpeed (e : Eng) (s : State) : Outcome := ok (spnAtSpeedOp e s)
def execSpnLossOfSync (e : Eng) (s : State) : Outcome := ok (spnLos e s)
/-- SPN_DRIVER_FAULT: cause 1 (R225). -/
def execSpnDriverFault (e : Eng) (s : State) : Outcome := ok (spnFault e 1 s)

end Sys2Proof.Machine
end

