-- ==== Sys2Proof/Machine/Brake.lean ====
section
/-! DEFINITION. Motor buses and brake choppers (R226-R229). -/
namespace Sys2Proof.Machine

/-- Set a bit of a bus in MOT_EVT: 0 OV1, 1 OV2, 2 OV3, 3 CHOP_FAULT, 4 UV, 5 CFG_REJ (R242). -/
def motBrk (b : Fin 2) (i : Nat) (s : State) : State :=
  let s := s.raise ⟨MOT_EVT.reg, 16 + 6 * b.val + i, 1⟩
  if 1 ≤ i ∧ i ≤ 4 then s.report (.mot (16 + 6 * b.val + i)) else s

/-- Set a bit of an axis in MOT_EVT: 0 DONE, 1 LOST, 2 LAG_FAULT, 3 ENC_ERR (R242). -/
def motAx (a : Fin 4) (i : Nat) (s : State) : State :=
  s.raise ⟨MOT_EVT.reg, 4 * a.val + i, 1⟩

/-- HYST in mV. -/
def hystMv (s : State) (b : Fin 2) : Nat := 10 * s.get (BRK_CFG.HYST b)

/-- The order the thresholds must keep, each step at least HYST (R226). -/
def brkOrder (uv chop ov1 ov2 ov3 hyst : Nat) : Bool :=
  decide (uv + hyst < chop) && decide (chop < ov1) && decide (ov1 < ov2) && decide (ov2 < ov3)
    && decide (chop + hyst ≤ ov1) && decide (ov1 + hyst ≤ ov2) && decide (ov2 + hyst ≤ ov3)

/-- A write by the field types to a threshold register: 0 OV12, 1 OV3, 2 CFG. -/
def brkPut (b : Fin 2) (which : Fin 3) (v : Word) (s : State) : State :=
  match which with
  | 0 => s.wr (BRK_OV12.reg b) (wordWritten (BRK_OV12.reg b) 0xF#4 v (s.rd (BRK_OV12.reg b)))
  | 1 => s.wr (BRK_OV3.reg b) (wordWritten (BRK_OV3.reg b) 0xF#4 v (s.rd (BRK_OV3.reg b)))
  | 2 => s.wr (BRK_CFG.reg b) (wordWritten (BRK_CFG.reg b) 0xF#4 v (s.rd (BRK_CFG.reg b)))

/-- BRK_THRESHOLD_WRITE: a write that breaks the order is discarded with CFG_REJ (R226). -/
def brkThreshold (b : Fin 2) (which : Fin 3) (v : Word) (s : State) : State :=
  let t := brkPut b which v s
  if brkOrder (t.get (BRK_CFG.UV b)) (t.get (BRK_OV3.CHOP_ON b)) (t.get (BRK_OV12.OV1 b)) (t.get (BRK_OV12.OV2 b))
      (t.get (BRK_OV3.OV3 b)) (hystMv t b) then t
  else motBrk b 5 s

/-- BUS_OV2: every bridge of the bus applies the zero vector (R228). -/
def busZero (b : Fin 2) (s : State) : State :=
  (busEngines b).foldl (fun (s : State) (e : Eng) =>
    if s.get (SPN_STAT.STATE e) = spnFaultSt then s
    else
      let s := if s.isSet (SPN_STAT.ZERO_VEC e) then s else s.raise (SPN_EVT.ZERO_VEC e)
      (s.put (SPN_STAT.ZERO_VEC e) 1).modSpn e fun p => { p with gate := 2, iqCmd := 0, power := 0 }) s

/-- BUS_OV3: all gates off, every spindle of the bus in FAULT with cause 3 (R228). -/
def busFault (b : Fin 2) (s : State) : State := (busEngines b).foldl (fun (s : State) (e : Eng) => spnFault e 3 s) s

/-- The mean of a list of samples. -/
def meanOf (xs : List Int) : Int := divFree (xs.foldl (· + ·) 0) xs.length

/-- The chopper's tests go on: microseconds with the gate on and VBUS above OV1, or with the gate on and the chopper current below
CHOP_IMIN; a chopper is faulty after 200 of the first or 20 of the second (R227). -/
def chopTest (b : Fin 2) (v : Nat) (ichop : Int) (s : State) : State :=
  let on := s.isSet (BRK_STAT.CHOP b)
  let x := s.brk[b]
  { s with brk := s.brk.set b { x with
    overs := if on && decide (s.get (BRK_OV12.OV1 b) < v ∨ (s.get (BRK_OV12.OV1 b) = v ∧ 0 < x.overs)) then x.overs + 1 else 0
    weak := if on && decide (ichop < 10 * s.get (BRK_CFG.CHOP_IMIN b)) then x.weak + 1 else 0 } }

/-- A chopper fails one of its tests (R227). -/
def chopFaulty (s : State) (b : Fin 2) : Bool := decide (200 ≤ s.brk[b].overs) || decide (20 ≤ s.brk[b].weak)

/-- BRK_SAMPLE: the mean of the last four samples decides on chopper, OV1, OV2, OV3 and UV; bus current and the mean power
of the last millisecond (1,000 samples) are shown; `ichop` is the chopper current in mA (R226-R228). -/
def brkSampleOp (b : Fin 2) (vbus : Nat) (ibus ichop : Int) (s : State) : State :=
  let x := s.brk[b]
  let xs := (vbus :: x.samples).take 4
  let ps := ((vbus : Int) * ibus :: x.power).take 1000
  let v := (meanOf (xs.map Int.ofNat)).toNat
  let s := { s with brk := s.brk.set b { x with samples := xs, power := ps } }
  let s := ((s.put (BRK_STAT.VBUS b) (min 0xFFFF v)).putInt (BRK_PWR.IBUS b) ibus).putInt (BRK_PWR.PBUS b) (divFree (meanOf ps) 10000)
  let h := hystMv s b
  let s := if s.get (BRK_OV3.CHOP_ON b) < v then s.put (BRK_STAT.CHOP b) 1
    else if v + h < s.get (BRK_OV3.CHOP_ON b) then s.put (BRK_STAT.CHOP b) 0 else s
  let s := chopTest b v ichop s
  let s := if s.get (BRK_OV12.OV1 b) < v then (if s.isSet (BRK_STAT.OV1 b) then s else motBrk b 0 s).put (BRK_STAT.OV1 b) 1 else s
  let s := if s.get (BRK_OV12.OV2 b) < v then
      busZero b ((if s.isSet (BRK_STAT.OV2 b) then s else motBrk b 1 s).put (BRK_STAT.OV2 b) 1) else s
  let s := if s.get (BRK_OV3.OV3 b) < v then
      busFault b ((if s.isSet (BRK_STAT.OV3 b) then s else motBrk b 2 s).put (BRK_STAT.OV3 b) 1)
    else if v + h < s.get (BRK_OV12.OV1 b) then s.put (BRK_STAT.OV3 b) 0 else s
  if v < s.get (BRK_CFG.UV b) then (if s.isSet (BRK_STAT.UV b) then s else motBrk b 4 s).put (BRK_STAT.UV b) 1
  else if s.get (BRK_CFG.UV b) + h < v then s.put (BRK_STAT.UV b) 0 else s

/-- BUS_THRESHOLD_RELEASE: VBUS below OV1 - HYST (0) or OV2 - HYST (1) for 1 ms ends that action; the current loops
resume (R228). -/
def busRelease (b : Fin 2) (level : Fin 2) (s : State) : State :=
  let v := s.get (BRK_STAT.VBUS b)
  if level.val = 0 then
    if v + hystMv s b < s.get (BRK_OV12.OV1 b) then
      (busEngines b).foldl (fun (s : State) (e : Eng) => s.put (SPN_STAT.REGEN_LIM e) 0) (s.put (BRK_STAT.OV1 b) 0)
    else s
  else if v + hystMv s b < s.get (BRK_OV12.OV2 b) then
    (busEngines b).foldl (fun (s : State) (e : Eng) =>
      if s.isSet (SPN_STAT.ZERO_VEC e) then
        let st := s.get (SPN_STAT.STATE e)
        (s.put (SPN_STAT.ZERO_VEC e) 0).modSpn e fun p => { p with
          gate := if st = spnRun ∨ st = spnBrake ∨ st = spnAlign ∨ st = spnOpen then 1 else 0, sumD := 0, sumQ := 0 }
      else s) (s.put (BRK_STAT.OV2 b) 0)
  else s

/-- CHOP_FAULT: a chopper that fails one of its tests is faulty; the bit stays until SUP clears it, which does not suppress a new
detection (R227). -/
def chopFaultOp (b : Fin 2) (s : State) : State :=
  if chopFaulty s b then
    let s := { s with brk := s.brk.set b { s.brk[b] with overs := 0, weak := 0 } }
    (motBrk b 3 (s.put (BRK_STAT.CHOP_FAULT b) 1)).logEvent .chopFault [b.val]
  else s

def execBrkSample (b : Fin 2) (vbus : Nat) (ibus ichop : Int) (s : State) : Outcome := ok (brkSampleOp b vbus ibus ichop s)
def execBusThresholdRelease (b : Fin 2) (level : Fin 2) (s : State) : Outcome := ok (busRelease b level s)
def execChopFault (b : Fin 2) (s : State) : Outcome := ok (chopFaultOp b s)
/-- BRK_FAULT_CLR: only SUP clears CHOP_FAULT (R227, R242). -/
def execBrkFaultClr (b : Fin 2) (rq : Req) (s : State) : Outcome :=
  ok (if rq = .sup then s.put (BRK_STAT.CHOP_FAULT b) 0 else s)
def execBrkThresholdWrite (b : Fin 2) (which : Fin 3) (v : Word) (s : State) : Outcome := ok (brkThreshold b which v s)

end Sys2Proof.Machine
end

