-- ==== Sys2Proof/Machine/Sled.lean ====
section
/-! DEFINITION. The sled drive and its gearing to the disc angle (R210, R211, R231-R237). The profile runs in units of
1/50,000 microstep per second for velocity and 1/2,500,000,000 microstep for position, in which one 20 us period adds the
velocity to the position and the acceleration to the velocity (log 19). -/
namespace Sys2Proof.Machine

/-- The position in microsteps. -/
def sldPos (s : State) (e : Eng) : Int := s.getInt (SLD_POS.VALUE e)

/-- The sled neither moves nor homes nor parks, and stands. -/
def sldRest (s : State) (e : Eng) : Bool :=
  !s.isSet (SLD_STAT.MOVING e) && !s.isSet (SLD_STAT.HOMING e) && !s.eng[e].sld.parking && s.eng[e].sld.vel == 0

/-- The position changes by `d` microsteps and the electrical index with it (R231). -/
def sldShift (e : Eng) (d : Int) (s : State) : State :=
  if d = 0 then s
  else
    let s := s.putInt (SLD_POS.VALUE e) (sldPos s e + d)
    (s.putInt (SLD_STAT.IDX e) (s.get (SLD_STAT.IDX e) + d)).put (SLD_STAT.HOLD e) 0

/-- ACC in the profile's units. -/
def sldAcc (s : State) (e : Eng) : Int := 256 * s.get (SLD_PRF.ACC e)

/-- The velocity of the next period on the way to a point `d` ahead: the largest of faster, same and slower from which
the sled can still stop there, within `vmax` (log 19). -/
def profileVel (vmax a v d : Int) : Int :=
  let fits (x : Int) : Bool := decide (x ≤ vmax) && decide (x * (x + a) ≤ 2 * a * d)
  if fits (v + a) then v + a
  else if fits vmax && decide (v ≤ vmax) && decide (vmax ≤ v + a) then vmax
  else if fits v then v
  else v - a

/-- One period of a trapezoidal profile toward a point `d` ahead: the distance covered and the new velocity; a velocity
within one step of rest at the point ends there (log 19). -/
def profileStep (vmax a v d : Int) : Int × Int :=
  if d.natAbs ≤ max a.natAbs v.natAbs ∧ v.natAbs ≤ 2 * a.natAbs then (d, 0)
  else if 0 ≤ d then
    let x := profileVel vmax a v d
    (x, x)
  else
    let x := profileVel vmax a (-v) (-d)
    (-x, -x)

/-- One period toward microstep `t` at most at `vmax` microsteps per second; whole microsteps reach the position. -/
def sldToward (e : Eng) (t : Int) (vmax : Nat) (s : State) : State :=
  let x := s.eng[e].sld
  let unit : Int := 2500000000
  let r := profileStep (50000 * vmax) (sldAcc s e) x.vel ((t - sldPos s e) * unit - x.frac)
  let p := x.frac + r.1
  sldShift e (p / unit) (s.modSld e fun x => { x with vel := r.2, frac := p % unit })

/-- VMAX in microsteps per second. -/
def sldVmax (s : State) (e : Eng) : Nat := 16 * s.get (SLD_PRF.VMAX e)

/-- The nearest position whose index is a multiple of 256, the lower one on a tie (R235). -/
def parkTarget (s : State) (e : Eng) : Int :=
  let m : Int := s.get (SLD_STAT.IDX e) % 256
  if m ≤ 128 then sldPos s e - m else sldPos s e + (256 - m)

/-- The geared target: SLG_REF plus the port 5 feed-forward (R232). -/
def gearTarget (s : State) (e : Eng) : Int :=
  s.getInt (SLG_REF.REF e) + roundFree (s.getInt (ANV_PORT.VALUE e 5) * s.get (SLD_CFG.FF_RANGE e)) (2 ^ 23)

/-- SLD_DONE: a move or a homing move ends (R233). -/
def sldDone (e : Eng) (s : State) : State :=
  (((s.put (SLD_STAT.MOVING e) 0).put (SLD_STAT.HOMING e) 0).raise (SLD_EVT.DONE e)).modSld e fun x => { x with vel := 0, frac := 0 }

/-- One period of homing: toward negative positions at VMAX / 8, then the position is 0 (R233). -/
def sldHomeStep (e : Eng) (s : State) : State :=
  let n := s.eng[e].sld.homeLeft
  let goal := sldPos s e - n
  let was := sldPos s e
  let s := sldToward e goal (sldVmax s e / 8) s
  let s := s.modSld e fun x => { x with homeLeft := n - (was - sldPos s e).toNat }
  if s.eng[e].sld.homeLeft = 0 then sldDone e (s.put (SLD_POS.VALUE e) 0) else s

/-- The encoder is marked faulty until its next index (R236). -/
def encFault (e : Eng) (s : State) : State :=
  ((s.put (SLD_ENCPOS.FAULT e) 1).put (SLD_ENCPOS.VALID e) 0).raise (SLD_EVT.ENC_FAULT e)

/-- Encoder counts of a period: ENCPOS = count x RATIO / 4,096; a rate above 25 M counts/s is a fault (R236). -/
def encCounts (e : Eng) (d : Int) (s : State) : State :=
  if s.isSet (SLD_ENC.EN e) then
    let n := s.eng[e].sld.encCount + d
    let s := s.modSld e fun x => { x with encCount := n }
    let s := s.putInt (SLD_ENCPOS.POS e) (divFree (n * s.get (SLD_ENC.RATIO e)) 4096)
    if 500 < d.natAbs then encFault e s else s
  else s

/-- SLD_PWM_PERIOD: the position follows homing, parking, the gear or the profile; `enc` are the encoder counts of the
period (R231, R232). -/
def sldPwm (e : Eng) (enc : Int) (s : State) : State :=
  let s := encCounts e enc s
  if s.eng[e].sld.powered = false then s
  else if s.isSet (SLD_STAT.HOMING e) then sldHomeStep e s
  else if s.eng[e].sld.parking then sldToward e (parkTarget s e) (sldVmax s e / 8) s
  else if s.isSet (SLG_CTRL.EN e) then sldToward e (gearTarget s e) (sldVmax s e) s
  else if s.isSet (SLD_STAT.MOVING e) then
    let s := sldToward e (s.getInt (SLD_TGT.VALUE e)) (sldVmax s e) s
    if sldPos s e = s.getInt (SLD_TGT.VALUE e) ∧ s.eng[e].sld.vel = 0 then sldDone e s else s
  else if s.eng[e].sld.vel = 0 then s
  else sldToward e (sldPos s e) (sldVmax s e) s

/-- The phase currents in 2^-16 of 10 mA: I_RUN, I_HOLD or I_HOME at the electrical index; none with the bridges off (R231). -/
def sldCurrents (s : State) (e : Eng) : Int × Int :=
  let i := s.get (SLD_STAT.IDX e)
  let a := if s.eng[e].sld.powered = false then 0
    else if s.isSet (SLD_STAT.HOMING e) then s.get (SLD_CUR.I_HOME e)
    else if s.isSet (SLD_STAT.HOLD e) then s.get (SLD_CUR.I_HOLD e)
    else s.get (SLD_CUR.I_RUN e)
  (a * cosOf i, a * sinOf i)

/-- SLD_HOLD_CURRENT: 100 ms after the last change the current is I_HOLD (R231). -/
def sldHold (e : Eng) (s : State) : State :=
  if s.eng[e].sld.powered && sldRest s e then s.put (SLD_STAT.HOLD e) 1 else s

/-- MOVE and HOME are rejected (R233). -/
def sldReject (s : State) (e : Eng) : Bool :=
  s.isSet (SLG_CTRL.EN e) || !s.isSet (SLD_CTRL.PWR e) || s.isSet (SLD_STAT.FAULT e) || s.isSet (SLD_STAT.HOMING e)

/-- SLD_MOVE: a profile to SLD_TGT from the present velocity (R233). -/
def sldMove (e : Eng) (s : State) : State :=
  if sldReject s e then s.raise (SLD_EVT.REJ e) else (s.put (SLD_STAT.MOVING e) 1).put (SLD_STAT.HOLD e) 0

/-- SLD_HOME: |SLD_TGT| microsteps toward negative positions (R233). -/
def sldHome (e : Eng) (s : State) : State :=
  if sldReject s e then s.raise (SLD_EVT.REJ e)
  else
    let n := (s.getInt (SLD_TGT.VALUE e)).natAbs
    let s := ((s.put (SLD_STAT.HOMING e) 1).put (SLD_STAT.MOVING e) 0).put (SLD_STAT.HOLD e) 0
    s.modSld e fun x => { x with homeLeft := n }

/-- The position is marked lost. -/
def sldLose (e : Eng) (s : State) : State := (s.put (SLD_STAT.LOST e) 1).raise (SLD_EVT.LOST e)

/-- SLD_STOP: position changes end at once; LOST if a move or homing ran or the speed exceeded V_SAFE (R234). -/
def sldStop (e : Eng) (s : State) : State :=
  let lost := s.isSet (SLD_STAT.MOVING e) || s.isSet (SLD_STAT.HOMING e)
    || decide (s.get (SLD_CFG.V_SAFE e) * 100 * 50000 < s.eng[e].sld.vel.natAbs)
  let s := ((s.put (SLD_STAT.MOVING e) 0).put (SLD_STAT.HOMING e) 0).put (SLD_STAT.HOLD e) 0
  let s := s.modSld e fun x => { x with vel := 0, homeLeft := 0 }
  if lost then sldLose e s else s

/-- SLD_FAULT: bridges off, FAULT and LOST (R234). -/
def sldFaultOp (e : Eng) (s : State) : State :=
  let s := ((s.put (SLD_STAT.MOVING e) 0).put (SLD_STAT.HOMING e) 0).put (SLD_STAT.HOLD e) 0
  let s := (s.put (SLD_STAT.FAULT e) 1).raise (SLD_EVT.FAULT e)
  sldLose e (s.modSld e fun x => { x with vel := 0, homeLeft := 0, parking := false, powered := false })

/-- SLD_PARK: PWR = 0 at rest with the gearing off parks the sled, and ends FAULT (R234, R235). -/
def sldParkOp (e : Eng) (s : State) : State :=
  if sldRest s e && !s.isSet (SLG_CTRL.EN e) then
    let s := s.put (SLD_CTRL.PWR e) 0
    if s.isSet (SLD_STAT.FAULT e) then s.put (SLD_STAT.FAULT e) 0
    else if s.eng[e].sld.powered then s.modSld e fun x => { x with parking := true }
    else s
  else s.raise (SLD_EVT.REJ e)

/-- SLD_PARK_DONE: at an index multiple of 256 the current has ramped to 0; bridges off, PARKED (R235). -/
def sldParked (e : Eng) (s : State) : State :=
  let x := s.eng[e].sld
  if x.parking && x.vel == 0 && s.get (SLD_STAT.IDX e) % 256 == 0 then
    let s := ((s.put (SLD_STAT.PARKED e) 1).raise (SLD_EVT.PARKED e)).put (SLD_STAT.HOLD e) 0
    s.modSld e fun x => { x with parking := false, powered := false }
  else s

/-- SLD_POWER_ON: PWR = 1 powers the bridges at the index; in FAULT they stay off until PWR is written 0 (R234, R235). -/
def sldPowerOn (e : Eng) (s : State) : State :=
  let s := s.put (SLD_CTRL.PWR e) 1
  if s.isSet (SLD_STAT.FAULT e) then s
  else (s.put (SLD_STAT.PARKED e) 0).modSld e fun x => { x with powered := true, parking := false }

/-- A write to SLD_POS: discarded while moving or homing; at rest it clears LOST; the index stays (R231, R234, R237). -/
def sldSetPos (e : Eng) (v : Int) (s : State) : State :=
  if s.isSet (SLD_STAT.MOVING e) || s.isSet (SLD_STAT.HOMING e) then s
  else
    let rest := sldRest s e
    let s := s.putInt (SLD_POS.VALUE e) v
    if rest then (s.put (SLD_STAT.LOST e) 0).modSld e fun x => { x with frac := 0 } else s

/-- Driver power is lost: a moving sled is LOST, one at rest that is not parked stands at the nearest full step (R235). -/
def sldPowerLoss (e : Eng) (s : State) : State :=
  let s := if !sldRest s e then sldLose e s
    else if s.isSet (SLD_STAT.PARKED e) then s
    else
      let i : Int := s.get (SLD_STAT.IDX e)
      sldShift e (256 * roundFree i 256 - i) s
  let s := ((s.put (SLD_STAT.MOVING e) 0).put (SLD_STAT.HOMING e) 0).put (SLD_STAT.HOLD e) 0
  s.modSld e fun x => { x with vel := 0, homeLeft := 0, parking := false, powered := false }

/-- ENC_INDEX: an index of SENC0-SENC7 zeroes the sled's count and ends a fault (R236). -/
def encIndexOp (n : Fin 12) (s : State) : State :=
  if h : n.val < 8 then
    let e : Eng := ⟨n.val, h⟩
    if s.isSet (SLD_ENC.EN e) then
      let s := (((s.put (SLD_ENCPOS.POS e) 0).put (SLD_ENCPOS.VALID e) 1).put (SLD_ENCPOS.IDX_SEEN e) 1).put (SLD_ENCPOS.FAULT e) 0
      s.modSld e fun x => { x with encCount := 0 }
    else s
  else s

/-- ENC_ILLEGAL_TRANSITION on SENC0-SENC7 marks the sled's encoder faulty (R236). -/
def encIllegal (n : Fin 12) (s : State) : State :=
  if h : n.val < 8 then
    if s.isSet (SLD_ENC.EN (⟨n.val, h⟩ : Eng)) then encFault ⟨n.val, h⟩ s else s
  else s

/-- The gear entry for the present reference: the highest entry that starts at or below it, in a table that ends before
the first entry that does not rise; entry 0 below the second (R210). -/
def slgPick (s : State) (e : Eng) : Nat → Nat → Nat
  | 0, i => i
  | n + 1, i =>
    let next := s.getInt (SLG_POS.POS e (i + 1))
    if i + 1 < 16 ∧ s.getInt (SLG_POS.POS e i) < next ∧ next ≤ s.getInt (SLG_REF.REF e) then slgPick s e n (i + 1) else i

/-- SLG_ENTRY_SELECT. -/
def slgSelect (e : Eng) (s : State) : State := s.put (SLG_STAT.ENTRY e) (slgPick s e 15 0)

/-- TPR and DIR written take effect (R210). -/
def slgTake (e : Eng) (s : State) : State :=
  ((s.put (SLG_STAT.TPR_ACT e) (s.get (SLG_CTRL.TPR e))).put (SLG_STAT.DIR_ACT e) (s.get (SLG_CTRL.DIR e))).put (SLG_STAT.PEND e) 0

/-- The crossing of SEAM_CFG.ANGLE for the gear: entry, pending TPR and DIR, whatever the seam state (R210). -/
def slgCross (e : Eng) (s : State) : State :=
  let s := slgSelect e s
  if s.isSet (SLG_STAT.PEND e) then slgTake e s else s

/-- A write of TPR and DIR: pending while EN = 1, else at once (R210). -/
def slgRates (e : Eng) (tpr : Nat) (dir : Bool) (s : State) : State :=
  let s := (s.put (SLG_CTRL.TPR e) tpr).putBool (SLG_CTRL.DIR e) dir
  if s.isSet (SLG_CTRL.EN e) then s.put (SLG_STAT.PEND e) 1 else slgTake e s

/-- ESQ<n> writes TPR, the turns per revolution of the gear (R210). -/
def slgTurns (e : Eng) (tpr : Nat) (s : State) : State :=
  if s.get (SLG_CTRL.TPR e) = tpr then s else slgRates e tpr (s.isSet (SLG_CTRL.DIR e)) s

/-- SLG_ANGLE_STEP: 1/3,600 of TPR x MPT x 2^-16 microsteps, the remainder carried; angle steps occur while the
angle is valid (R210, R220). -/
def slgStep (e : Eng) (s : State) : State :=
  if s.isSet (SLG_CTRL.EN e) && s.isSet (SPN_STAT.ANG_VALID e) then
    let d : Int := s.get (SLG_STAT.TPR_ACT e) * s.get (SLG_MPT.MPT e (s.get (SLG_STAT.ENTRY e)))
    let r := s.eng[e].slg.rem + (if s.isSet (SLG_STAT.DIR_ACT e) then -d else d)
    let unit : Int := 65536 * 3600
    let s := s.putInt (SLG_REF.REF e) (s.getInt (SLG_REF.REF e) + r / unit)
    s.modEng e fun g => { g with slg := { g.slg with rem := r % unit } }
  else s

/-- SLG_LOAD: the reference is the sled's position, without remainder (R210). -/
def slgLoadOp (e : Eng) (s : State) : State :=
  slgSelect e ((s.putInt (SLG_REF.REF e) (sldPos s e)).modEng e fun g => { g with slg := { g.slg with rem := 0 } })

/-- SLG_EN_WRITE: a 1 is discarded while the position is lost (R211). -/
def slgEn (e : Eng) (v : Bool) (s : State) : State :=
  if v && s.isSet (SLD_STAT.LOST e) then s else s.putBool (SLG_CTRL.EN e) v

def execSldPwmPeriod (e : Eng) (enc : Int) (s : State) : Outcome := ok (sldPwm e enc s)
def execSldHoldCurrent (e : Eng) (s : State) : Outcome := ok (sldHold e s)
def execSldMove (e : Eng) (s : State) : Outcome := ok (sldMove e s)
def execSldHome (e : Eng) (s : State) : Outcome := ok (sldHome e s)
def execSldStop (e : Eng) (s : State) : Outcome := ok (sldStop e s)
def execSldPark (e : Eng) (s : State) : Outcome := ok (sldParkOp e s)
def execSldParkDone (e : Eng) (s : State) : Outcome := ok (sldParked e s)
def execSldPowerOn (e : Eng) (s : State) : Outcome := ok (sldPowerOn e s)
def execSldFault (e : Eng) (s : State) : Outcome := ok (sldFaultOp e s)
/-- SLD_ENC_BAD: a write of ENC_BAD (R236). -/
def execSldEncBad (e : Eng) (s : State) : Outcome := ok (encFault e s)
def execEncIndex (n : Fin 12) (s : State) : Outcome := ok (encIndexOp n s)
def execEncIllegalTransition (n : Fin 12) (s : State) : Outcome := ok (encIllegal n s)
def execSlgAngleStep (e : Eng) (s : State) : Outcome := ok (slgStep e s)
def execSlgLoad (e : Eng) (s : State) : Outcome := ok (slgLoadOp e s)
def execSlgEnWrite (e : Eng) (v : Bool) (s : State) : Outcome := ok (slgEn e v s)

end Sys2Proof.Machine
end

