-- ==== Sys2Proof/Machine/Axes.lean ====
section
/-! DEFINITION. The changer axes (R238-R241). When a pulse leaves is the profile generator's timing; each pulse is an event
(log 20). -/
namespace Sys2Proof.Machine

/-- Change the internal state of an axis. -/
def State.modAx (s : State) (a : Fin 4) (f : AxInt → AxInt) : State := { s with ax := s.ax.set a (f s.ax[a]) }

/-- The axis issues no steps and is not coupled to a master. -/
def axRest (s : State) (a : Fin 4) : Bool := !s.isSet (AX_STAT.MOVING a) && !s.isSet (AX_STAT.GEARED a)

/-- The profile ends: MOVING cleared, DONE set (R239). -/
def axDone (a : Fin 4) (s : State) : State :=
  motAx a 0 ((s.put (AX_STAT.MOVING a) 0).modAx a fun x => { x with stopping := false })

/-- AX_STOP: the axis decelerates to rest, keeps the position and sets DONE, at once when it is at rest (R239). -/
def axStop (a : Fin 4) (s : State) : State :=
  if s.isSet (AX_STAT.MOVING a) then s.modAx a fun x => { x with stopping := true } else axDone a s

/-- AX_ESTOP: pulses end at once, LOST if the axis was moving; the coupling ends with them (R239, log 21). -/
def axEstop (a : Fin 4) (s : State) : State :=
  let moving := s.isSet (AX_STAT.MOVING a)
  let s := ((s.put (AX_STAT.MOVING a) 0).put (AX_CTRL.GEAR a) 0).put (AX_STAT.GEARED a) 0
  let s := s.modAx a fun x => { x with stopping := false }
  if moving then motAx a 1 (s.put (AX_STAT.LOST a) 1) else s

/-- AX_MOVE: a profile to TGT; discarded while GEAR = 1 (R239). -/
def axMove (a : Fin 4) (s : State) : State :=
  if s.isSet (AX_CTRL.GEAR a) then s
  else
    let s := s.modAx a fun x => { x with stopping := false }
    if s.isSet (AX_STAT.MOVING a) || s.get (AX_POS.VALUE a) != s.get (AX_TGT.VALUE a) then s.put (AX_STAT.MOVING a) 1
    else axDone a s

/-- AX_GEAR_SET: at rest the axis is coupled to its master; LAG_FAULT is cleared (R240, R242). -/
def axGear (a : Fin 4) (s : State) : State :=
  if axRest s a then
    let s := ((s.put (AX_CTRL.GEAR a) 1).put (AX_STAT.GEARED a) 1).put (AX_STAT.LAG_FAULT a) 0
    let p := s.getInt (AX_POS.VALUE a)
    (s.put (AX_STAT.LAG a) 0).modAx a fun x => { x with target := p, rem := 0, count := 0, stopping := false }
  else s

/-- The coupling ends and the axis stops as under STOP (R240). -/
def axUngear (a : Fin 4) (s : State) : State :=
  if s.isSet (AX_CTRL.GEAR a) then axStop a ((s.put (AX_CTRL.GEAR a) 0).put (AX_STAT.GEARED a) 0) else s

/-- LAG, saturating, and AX_LAG_FAULT above LAG_MAX (R240). -/
def axLag (a : Fin 4) (s : State) : State :=
  let d := s.ax[a].target - s.getInt (AX_POS.VALUE a)
  let s := s.putInt (AX_STAT.LAG a) (clampInt (-32768) 32767 d)
  if 64 * s.get (AX_VMAX.LAG_MAX a) < d.natAbs then
    motAx a 2 (axUngear a (s.put (AX_STAT.LAG_FAULT a) 1))
  else s

/-- AX_RATIO_CHANGE: with CHG_ARM = 1 a count away from CHG_POS takes RATIO_NEXT from then on (R240). -/
def axRatioChange (a : Fin 4) (s : State) : State :=
  if s.isSet (AX_CTRL.CHG_ARM a) && s.ax[a].count == s.getInt (AX_CHG_POS.CHG_POS a) then
    (s.put (AX_RATIO.RATIO a) (s.get (AX_RATIO_NEXT.RATIO a))).put (AX_CTRL.CHG_ARM a) 0
  else s

/-- AX_MASTER_COUNT: a count adds RATIO steps to the commanded position, the remainder carried (R240). -/
def axCount (a : Fin 4) (up : Bool) (s : State) : State :=
  if s.isSet (AX_STAT.GEARED a) then
    let s := axRatioChange a s
    let r := s.getInt (AX_RATIO.RATIO a)
    let t := s.ax[a].rem + (if up then r else -r)
    let s := s.modAx a fun x => { x with
      count := if up then x.count + 1 else x.count - 1
      rem := t % 65536
      target := x.target + t / 65536 }
    let s := s.putBool (AX_STAT.MOVING a) (s.ax[a].target != s.getInt (AX_POS.VALUE a))
    axLag a s
  else s

/-- AX_ENC_ERR: with ENC_CHK = 1 a position off the encoder's by more than TOL acts as ESTOP (R241). -/
def axEncCheck (a : Fin 4) (s : State) : State :=
  let x := s.ax[a]
  let e := x.encBase + divFree (x.encCount * s.get (AX_ENC.E_RATIO a)) 4096
  if s.isSet (AX_CTRL.ENC_CHK a) && decide (s.get (AX_ENC.TOL a) < (s.getInt (AX_POS.VALUE a) - e).natAbs) then
    motAx a 3 (axEstop a (s.put (AX_STAT.ENC_ERR a) 1))
  else s

/-- AX_STEP_PULSE: a pulse up or down; `last` ends the profile, at TGT or in a stop; `enc` are the axis encoder's counts since the pulse before
(R238-R241). -/
def axPulse (a : Fin 4) (up last : Bool) (enc : Int) (s : State) : State :=
  let s := s.modAx a fun x => { x with encCount := x.encCount + enc }
  if s.isSet (AX_STAT.MOVING a) then
    let s := s.emit (.axStep a (up != s.isSet (AX_CTRL.DIR_INV a)))
    let s := s.putInt (AX_POS.VALUE a) (s.getInt (AX_POS.VALUE a) + (if up then 1 else -1))
    let s := if s.isSet (AX_STAT.GEARED a) then
        axLag a (s.putBool (AX_STAT.MOVING a) (s.ax[a].target != s.getInt (AX_POS.VALUE a)))
      else if last && (s.ax[a].stopping || s.get (AX_POS.VALUE a) == s.get (AX_TGT.VALUE a)) then axDone a s else s
    axEncCheck a s
  else axEncCheck a s

/-- A write to POS: discarded while moving or geared; it clears LOST and ENC_ERR (R239, R242). -/
def axSetPos (a : Fin 4) (v : Word) (s : State) : State :=
  if axRest s a then
    let s := ((s.wr (AX_POS.reg a) v).put (AX_STAT.LOST a) 0).put (AX_STAT.ENC_ERR a) 0
    s.modAx a fun x => { x with encBase := v.toInt, encCount := 0 }
  else s

def execAxMove (a : Fin 4) (s : State) : Outcome := ok (axMove a s)
def execAxStop (a : Fin 4) (s : State) : Outcome := ok (axStop a s)
def execAxEstop (a : Fin 4) (s : State) : Outcome := ok (axEstop a s)
def execAxGearSet (a : Fin 4) (s : State) : Outcome := ok (axGear a s)
def execAxGearClear (a : Fin 4) (s : State) : Outcome := ok (axUngear a s)
/-- AX_MASTER_COUNT: encoder `n` counts; an axis follows the one SRC selects (R240). -/
def execAxMasterCount (a : Fin 4) (n : Fin 12) (up : Bool) (s : State) : Outcome :=
  ok (if s.get (AX_CTRL.SRC a) = n.val then axCount a up s else s)
def execAxStepPulse (a : Fin 4) (up last : Bool) (enc : Int) (s : State) : Outcome := ok (axPulse a up last enc s)

end Sys2Proof.Machine
end

