-- ==== Sys2Proof/Machine/Flags.lean ====
section
/-! DEFINITION. Anvil's number format: saturation, the per-tick flags of accumulators and blocks, and the branch
conditions (R179-R182, R187). -/
namespace Sys2Proof.Machine

/-- The exponent register of DM block `b`. -/
def anvX (s : State) (e : Eng) (b : Nat) : Int := s.getInt (ANV_X.X e b)

/-- X(a) of a data-memory address: 0 for the ramp words, else its block's exponent (R179). -/
def dmExp (s : State) (e : Eng) (a : Nat) : Int := if 0x7F0 ≤ a ∧ a ≤ 0x7F7 then 0 else anvX s e (a / 128)

/-- A data-memory word; memory nothing has written holds 0 (R173). -/
def dmGet (s : State) (e : Eng) (a : Nat) : Word24 := Cells.get (fun _ => 0#24) s.eng[e].anv.dm a

/-- Write a data-memory word. -/
def dmSet (e : Eng) (a : Nat) (v : Word24) (s : State) : State :=
  s.modAnv e fun n => { n with dm := Cells.set Cells.natLt (fun _ => 0#24) n.dm a v }

/-- The range of a 24-bit mantissa, of a 48-bit accumulator and of an exponent. -/
def top24 : Int := 2 ^ 23 - 1
def bot24 : Int := -(2 ^ 23)
def top48 : Int := 2 ^ 47 - 1
def bot48 : Int := -(2 ^ 47)

/-- Give an accumulator a value: a sum outside 48 bits saturates and sets AOVF<d> and ANV_EVT.AOVF (R180). -/
def accSet (e : Eng) (d : Fin 4) (a ae : Int) (s : State) : State :=
  let v := clampInt bot48 top48 a
  let s := s.modAnv e fun n => { n with acc := n.acc.set d ⟨v, ae⟩ }
  if v = a then s
  else (s.modAnv e fun n => { n with aovf := setBit n.aovf d.val true }).raise (ANV_EVT.AOVF e)

/-- The mantissa of an accumulator at exponent `x`, before saturation (R181). -/
def accMant (c : Acc) (x : Int) : Int := scale2 c.a (c.ae - x - 17)

/-- A program's write of mantissa `m` to word `a`, saturated, with BOVF, BHI and BLO of its block; writes to the ramp
words are discarded whole (R172, R181). `over`: a conversion before it saturated. -/
def dmStore (e : Eng) (a : Nat) (m : Int) (ov : Bool) (s : State) : State :=
  let v := clampInt bot24 top24 m
  let o := ov || v != m
  let b := a / 128
  if 0x7F0 ≤ a ∧ a ≤ 0x7F7 then s else
  let s := dmSet e a (BitVec.ofInt 24 v) s
  let s := s.modAnv e fun n => { n with
    bovf := if o then setBit n.bovf b true else n.bovf
    bhi := if o || decide (2 ^ 22 ≤ v.natAbs) then setBit n.bhi b true else n.bhi
    blo := if 2 ^ 20 ≤ v.natAbs then setBit n.blo b false else n.blo }
  if o then s.raise (ANV_EVT.BOVF e) else s

/-- Set a block exponent, saturating at -16 and +15 with XOVF (R182). -/
def expSet (e : Eng) (k : Fin 16) (x : Int) (s : State) : State :=
  let v := clampInt (-16) 15 x
  let s := s.putInt (ANV_X.X e k.val) v
  if v = x then s else s.raise (ANV_EVT.XOVF e)

/-- A trip of either supervisor is in force. -/
def anvTripped (s : State) (e : Eng) : Bool := s.isSet (ANV_STAT.SAT_TRIP e) || s.isSet (ANV_STAT.FAULT_TRIP e)

/-- A trip holds port `q` (R194). -/
def portHeld (s : State) (e : Eng) (q : Nat) : Bool := anvTripped s e && (s.get (ANV_SUP.HOLD_MASK e)).testBit q

/-- The condition of BR and BRN (R187). -/
def anvCond (s : State) (e : Eng) (c : BitVec 6) : Bool :=
  let n := s.eng[e].anv
  let v := c.toNat
  if v = 0x00 then true
  else if v = 0x01 then n.sreq
  else if v = 0x02 then n.sedge
  else if v = 0x03 then n.sdir
  else if v = 0x04 then s.isSet (ANV_STAT.STALE e)
  else if v = 0x05 then n.first
  else if v = 0x06 then anvTripped s e && s.get (ANV_SUP.HOLD_MASK e) != 0
  else if v = 0x07 then n.late
  else if h : 0x10 ≤ v ∧ v ≤ 0x13 then decide ((n.acc[v - 0x10]'(by omega)).a < 0)
  else if h : 0x14 ≤ v ∧ v ≤ 0x17 then decide ((n.acc[v - 0x14]'(by omega)).a = 0)
  else if 0x18 ≤ v ∧ v ≤ 0x1B then bit n.aovf (v - 0x18)
  else if 0x20 ≤ v ∧ v ≤ 0x2F then bit n.bhi (v - 0x20)
  else if 0x30 ≤ v then bit n.blo (v - 0x30)
  else false

end Sys2Proof.Machine
end

