-- ==== Sys2Proof/Machine/Seam.lean ====
section
/-! DEFINITION. The seam block, the stitch store and the reassembly buffer (R102-R123). -/
namespace Sys2Proof.Machine

/-- SEAM_STAT.STATE codes (R122). -/
def seamIdle : Nat := 0
def seamOpening : Nat := 1
def seamRunning : Nat := 2
def seamClosing : Nat := 3

/-- CH.STAT.FLY_STATE codes (R99). -/
def flySearch : Nat := 0
def flyLocked : Nat := 1
def flyProv : Nat := 2

/-- A change of CTRL.ALT takes effect at once in SEARCH (R96). -/
def altNow (e : Eng) (k : Chn) (s : State) : State :=
  if s.get (CH_STAT.FLY_STATE e k) = flySearch then s.put (CH_STAT.ALT_ACTIVE e k) (s.get (CH_CTRL.ALT e k)) else s

/-- Installed DDR4 in bytes (GLB_DDR_CFG.CAP, R427). -/
def ddrBytes (s : State) : Nat := s.get GLB_DDR_CFG.CAP * 2 ^ 30

/-- RAS_CFG.AHEAD, 8 at least; MIN_OVL, 1 at least (R122). -/
def rasAhead (s : State) (e : Eng) : Nat := max 8 (s.get (RAS_CFG.AHEAD e))
def rasMinOvl (s : State) (e : Eng) : Nat := max 1 (s.get (RAS_CFG.MIN_OVL e))

/-- The DDR4 line at which the reassembly region starts: 8 MiB units (R114). -/
def rasLine (s : State) (e : Eng) : Nat := s.get (RAS_BASE.BASE e) * 2048

/-- The chain that delivers spot `j` of an engine: CH4 while a Temper session holds the spot, else its own (R103, R158). -/
def delivering (s : State) (e : Eng) (j : Spot) : Chn :=
  if s.get (TMP_STAT.DELIV e) = j.val then 4 else ⟨j.val, by omega⟩

/-- The spot a chain serves: its own number, or CH4's SPOT field, 4 for none (R73). -/
def spotOf (s : State) (e : Eng) (k : Chn) : Nat := if k.val < 4 then k.val else s.get (CH_CTRL.SPOT e 4)

/-- The chain's output goes on: it is the delivering chain of its spot (R103, R158). -/
def isDelivering (s : State) (e : Eng) (k : Chn) : Bool :=
  if k.val < 4 then s.get (TMP_STAT.DELIV e) != k.val
  else s.get (TMP_STAT.DELIV e) < 4 && s.get (TMP_STAT.DELIV e) == s.get (CH_CTRL.SPOT e 4)

/-- RAS_STAT shows slots and stitch entries in use (R122). -/
def rasShow (e : Eng) (s : State) : State :=
  let g := s.eng[e].seam
  let s := s.put (RAS_STAT.SLOTS_USED e) g.used.length
  let s := s.put (RAS_STAT.STITCH_USED e) g.busy.length
  if g.used.length < 64 then s.put (RAS_STAT.FULL e) 0 else s.put (RAS_STAT.FULL e) 1

/-- The lowest number below `n` that is not in the list. -/
def freeOf (n : Nat) (used : List Nat) : Option Nat := (List.range n).find? fun i => !used.contains i

/-- The descriptor of a release (R117). SRC of a MISSING release, for which the spec names no spot or source, is 0 (DESIGN CHOICE,
log 81). -/
def rasDescriptor (c : ClAddr) (h : Option RasSlot) : BitVec 128 :=
  match h with
  | some x => msg4 (clWord c false) x.result x.edc
      (BitVec.ofNat 32 (x.slot + (x.spot + x.source * 16) * 2 ^ 16))
  | none => msg4 (clWord c false) 0#32 0xFFFFFFFF#32 (BitVec.ofNat 32 (0xFFFF + 1 * 2 ^ 24))

/-- The spot whose turn held the run-in of a cluster that no chain delivered: the one that met it, else the one that met the nearest
lower address of the run (R150, log 82). -/
def missingSpot (s : State) (e : Eng) (c : ClAddr) : Nat :=
  let seen := s.eng[e].seam.seen
  match seen.find? fun x => x.1 == c with
  | some x => x.2
  | none =>
    let below := seen.filter fun x => decide (x.1.cluster.toNat < c.cluster.toNat)
    match below with
    | [] => 0
    | x :: rest => (rest.foldl (fun m y => if m.1.cluster.toNat < y.1.cluster.toNat then y else m) x).2

/-- One release: descriptor, counters, and the ladder for a cluster that is not OK (R116-R118, R147). -/
def rasReleaseOne (e : Eng) (c : ClAddr) (h : Option RasSlot) (s : State) : State :=
  let s := s.mqPut (s.get (RAS_CFG.MQ e)) (rasDescriptor c h)
  let s := match h with
    | some x => s.modSeam e fun g => { g with held := g.held.map fun y => if y.slot = x.slot then { y with released := true } else y }
    | none => (s.raise (SEAM_EVT.MISSING e)).inc (RAS_CNT.MISSING e)
  let s := match h with
    | some x => if x.ok then s else ladderEnter e c x.spot s
    | none => ladderEnter e c (missingSpot s e c) s
  if s.get (RAS_LAST.CLUSTER e) ≤ c.cluster.toNat then s.put (RAS_NEXT.VALID e) 0
  else s.put (RAS_NEXT.CLUSTER e) (c.cluster.toNat + 1)

/-- What RAS_NEXT's cluster is released with, if it is due: some (copy or none for MISSING) (R116). -/
def rasDue (s : State) (e : Eng) (flush : Bool) (c : ClAddr) : Option (Option RasSlot) :=
  let g := s.eng[e].seam
  match g.held.find? fun x => x.addr == c && !x.released with
  | some x => if x.ok || x.passed || flush then some (some x) else none
  | none =>
    if g.refused.contains c || g.gaps.contains c || flush then some none
    else if !(g.parts.any fun p => p.addr == some c) && !(g.jobs.any fun j => j.addr == c)
        && !(s.eng[e].ch.any fun h => h.entry.isSome && h.addr == some c) && decide (c.cluster.toNat + rasAhead s e < g.top) then some none
    else none

/-- RAS_RELEASE: release in ascending order while the next cluster is due (R116). -/
def rasReleaseLoop (e : Eng) (flush : Bool) : Nat → State → State
  | 0, s => s
  | n + 1, s =>
    if s.isSet (RAS_NEXT.VALID e) then
      let c : ClAddr := { cluster := BitVec.ofNat 28 (s.get (RAS_NEXT.CLUSTER e)), layer := BitVec.ofNat 3 (s.get (RAS_NEXT.LAYER e)) }
      match rasDue s e flush c with
      | some h => rasReleaseLoop e flush n (rasReleaseOne e c h s)
      | none => s
    else s

/-- Release every cluster that is due, or with `flush` every cluster left (R112, R116). -/
def rasRelease (e : Eng) (flush : Bool) (s : State) : State :=
  rasShow e (rasReleaseLoop e flush (s.get (RAS_LAST.CLUSTER e) + 1 - s.get (RAS_NEXT.CLUSTER e)) s)

/-- A delivery: cluster address, whether OK, its words, its data (none after a loss of sync, R88), the spot and the source (4 = CH4,
5 = stitch). -/
structure Delivery where
  addr : ClAddr
  ok : Bool
  result : Word
  edc : Word
  data : Option Cluster
  spot : Nat
  source : Nat

/-- The data of a delivery goes to slot `i` (R114). -/
def slotData (e : Eng) (i : Nat) (d : Option Cluster) (s : State) : State :=
  match d with
  | some w => s.ddrSetCluster (rasLine s e + 16 * i) w
  | none => s

/-- The chain's side of a refusal: OUT_OVERRUN, and the cluster goes to the ladder (R93). -/
def rasRefuse (e : Eng) (d : Delivery) (s : State) : State :=
  let s := (s.put (RAS_STAT.FULL e) 1).raise (SEAM_EVT.RAS_FULL e)
  let s := s.modSeam e fun g => { g with refused := g.refused ++ [d.addr] }
  let s := if d.source < 5 then s.raise (CH_EVT.OUT_OVERRUN e d.source) else s
  ladderEnter e d.addr d.spot s

/-- Hold a delivered cluster in slot `i`. The window that could stitch a stitched cluster has closed, so the run has passed it (R116). -/
def rasHold (e : Eng) (d : Delivery) (i : Nat) (s : State) : State :=
  let x : RasSlot := ⟨i, d.addr, d.ok, d.result, d.edc, d.spot, d.source, d.source == 5, false⟩
  let s := s.modSeam e fun g => { g with used := g.used ++ [i], held := g.held ++ [x] }
  slotData e i d.data s

/-- RAS_ACCEPT: the reassembly buffer accepts, replaces, discards or refuses a delivery, then releases (R115, R116). The spec does not
say what becomes of a delivery for an address of the range that is already released and freed, below RAS_NEXT or with VALID = 0, or
of one in IDLE: it is discarded here without a count (DESIGN CHOICE, log 83). -/
def rasAccept (e : Eng) (d : Delivery) (s : State) : State :=
  let a := d.addr.cluster.toNat
  let s := s.modSeam e fun g => { g with top := max g.top (a + 1), seen := (d.addr, d.spot) :: g.seen }
  let s := if d.ok then s.modEng e fun g => { g with att := g.att.map fun x => { x with read := d.addr :: x.read } } else s
  let s :=
    if s.get (SEAM_STAT.STATE e) = seamIdle ∨ a < s.get (RAS_FIRST.CLUSTER e) ∨ s.get (RAS_LAST.CLUSTER e) < a
        ∨ d.addr.layer.toNat ≠ s.get (RAS_FIRST.LAYER e) then s
    else match s.eng[e].seam.held.find? fun x => x.addr == d.addr with
      | some x =>
        if x.ok then s.inc (RAS_CNT.DUP e)
        else if d.ok then
          let s := s.modSeam e fun g => { g with held := g.held.map fun y =>
            if y.slot = x.slot then { y with ok := true, result := d.result, edc := d.edc, spot := d.spot, source := d.source } else y }
          slotData e x.slot d.data s
        else s
      | none =>
        if decide (a < s.get (RAS_NEXT.CLUSTER e)) || !s.isSet (RAS_NEXT.VALID e) then s
        else match freeOf 64 s.eng[e].seam.used with
          | some i => rasHold e d i s
          | none => rasRefuse e d s
  rasRelease e false s

/-- STITCH_GAP: a join fails; the cluster is released as MISSING (R109). -/
def stitchGap (e : Eng) (c : Option ClAddr) (s : State) : State :=
  let s := (s.raise (SEAM_EVT.STITCH_GAP e)).inc (RAS_CNT.GAP e)
  match c with
  | some c => s.modSeam e fun g => { g with gaps := g.gaps ++ [c] }
  | none => s

/-- The earliest frame whose mark is accepted in both parts, if at least `n` frames are present in both (R108, R109). -/
def joinAt (n : Nat) (head tail : StitchPart) : Option Nat :=
  if min head.hi tail.hi + 1 < max head.lo tail.lo + n then none
  else (head.marks.filter fun i => tail.marks.contains i).foldl
    (fun m i => match m with | none => some i | some j => some (min i j)) none

/-- Stitch entries become free (R114). -/
def stitchDrop (e : Eng) (s : State) (es : List Nat) : State :=
  s.modSeam e fun g => { g with busy := g.busy.filter fun i => !es.contains i }

/-- A part under way that is not kept gives its entry back (R114). -/
def partDrop (e : Eng) (k : Chn) (s : State) : State :=
  match s.eng[e].ch[k].entry with
  | some i => stitchDrop e (s.modCh e k fun c => { c with entry := none, obs := .none }) [i]
  | none => s

/-- STITCH_JOIN: a head part meets its held tail part (R108, R109). -/
def stitchJoin (e : Eng) (head : StitchPart) (s : State) : State :=
  match head.addr with
  | none => stitchDrop e (stitchGap e none s) [head.entry]
  | some c =>
    match s.eng[e].seam.parts.find? fun p => p.tail && p.addr == some c with
    | none => stitchDrop e (stitchGap e (some c) s) [head.entry]
    | some t =>
      let s := s.modSeam e fun g => { g with parts := g.parts.filter fun p => p.entry != t.entry }
      match joinAt (rasMinOvl s e) head t with
      | none => stitchDrop e (stitchGap e (some c) s) [head.entry, t.entry]
      | some f =>
        let j : StitchJob := ⟨c, head.spot, head.source, f, head.entry, t.entry, head.flags, t.flags⟩
        s.modSeam e fun g => { g with jobs := g.jobs ++ [j] }

/-- Channel bits as a stitch entry holds them: two bits each, the bit below its unreliable flag, four to a byte, earliest lowest
(Reassembly buffer, log 84). -/
def partBytes : Nat → List DetBit → List Byte
  | 0, _ => []
  | n + 1, bs =>
    match bs with
    | [] => []
    | _ => BitVec.ofNat 8 ((bs.take 4).foldr (fun b (v : Nat) => v * 4 + (if b.one then 1 else 0) + (if b.unrel then 2 else 0)) 0)
        :: partBytes n (bs.drop 4)

/-- A part's bits go to its stitch entry in DDR4 (R107, R114). -/
def storePart (e : Eng) (i : Nat) (bs : List (Nat × DetBit)) (s : State) : State :=
  s.ddrPutBytes (rasLine s e * 4096 + 0x400000 + 0x40000 * i) (partBytes bs.length (bs.reverse.map (·.2)))

/-- The chain of spot `j` ends the cluster it is reading as a head part, if it observed the run-in (R107). The spec does not say whether
the frame under way at the close counts as present in the head part: it does here (DESIGN CHOICE, log 85). -/
def endHead (e : Eng) (j : Spot) (s : State) : State :=
  let k := delivering s e j
  let c := s.eng[e].ch[k]
  if c.obs = .whole then
    let s := s.modCh e k fun c => { c with obs := .none, marks := [] }
    let s := s.modTmp e fun x => { x with outgoing := if x.outgoing.any (·.2 == j.val) then none else x.outgoing }
    let s := match c.addr with
      | some a => s.modSeam e fun g => { g with seen := (a, j.val) :: g.seen }
      | none => s
    match freeOf 16 s.eng[e].seam.busy with
    | none => stitchGap e c.addr s
    | some i =>
      let s := storePart e i c.bits (s.modSeam e fun g => { g with busy := g.busy ++ [i] })
      stitchJoin e { entry := i, tail := false, spot := j.val, source := k.val, addr := c.addr, lo := 0, hi := c.frame,
                     marks := c.marks, flags := c.cur } s
  else partDrop e k s

/-- Tail parts still held after their head's window has closed fail (R109). -/
def dropTails (e : Eng) (s : State) : State :=
  let ts := s.eng[e].seam.parts
  let s := ts.foldl (fun s t => stitchGap e t.addr s) s
  s.modSeam e fun g => { g with parts := [], busy := g.busy.filter fun i => !(ts.any fun t => t.entry == i) }

/-- The four delivering chains end their head parts, and what stays unmatched fails (R107-R109). -/
def endHeads (e : Eng) (s : State) : State :=
  dropTails e ((List.finRange 4).foldl (fun s j => endHead e j s) s)

/-- Copies that are not OK have passed their last opportunity at the close of a window (R116). -/
def passCopies (e : Eng) (s : State) : State :=
  s.modSeam e fun g => { g with held := g.held.map fun x => { x with passed := true } }

/-- Seam hold of a chain begins, or ends in SEARCH with the adaptive values intact (R106). -/
def chainHold (e : Eng) (k : Chn) (on : Bool) (s : State) : State :=
  let s := s.modCh e k fun c => { c with seamHold := on, landing := c.landing || !on, acq := if on then c.acq else 0, cands := [] }
  if on then s else altNow e k ((s.put (CH_STAT.FLY_STATE e k) flySearch).put (CH_STAT.MISS_RUN e k) 0)

/-- Seam hold of the four delivering chains begins or ends (R106). -/
def setHold (e : Eng) (on : Bool) (s : State) : State :=
  (List.finRange 4).foldl (fun s j => chainHold e (delivering s e j) on s) s

/-- The hold goes with the delivery: where the delivering chain of a spot changes during seam hold, the new one is held and the old one
released (R103, R106). -/
def holdMove (e : Eng) (old new : Chn) (s : State) : State :=
  if s.eng[e].ch[old].seamHold then chainHold e new true (chainHold e old false s) else s

/-- The run ends: IDLE, CLOSED, held tails and every cluster left are released (R112, R116). -/
def seamEnd (e : Eng) (s : State) : State :=
  let s := (s.put (SEAM_STAT.STATE e) seamIdle).raise (SEAM_EVT.CLOSED e)
  let s := s.put (SEAM_CTRL.RUN e) 0
  let s := dropTails e s
  let s := rasRelease e true s
  s.modSeam e fun g => { g with refused := [], gaps := [], openWin := false, closeCross := false }

/-- SEAM_CROSSING: the spots pass the seam angle and the window opens; the angle must be valid. At
OPENED ESQ<n> gears the sled to four turns per revolution, from the next crossing on (R104, R111, R112, R210, R220). -/
def seamCross (e : Eng) (s : State) : State :=
  if s.get (SEAM_STAT.STATE e) = seamIdle ∨ ¬ s.isSet (SPN_STAT.ANG_VALID e) then s
  else
    let s := if s.get (SEAM_STAT.STATE e) = seamOpening then slgTurns e 4 (s.raise (SEAM_EVT.OPENED e)) else s
    let s := (s.put (SEAM_STAT.IN_WIN e) 1).incWrap (SEAM_STAT.REV e)
    let closing := s.get (SEAM_STAT.STATE e) = seamClosing
    s.modSeam e fun g => { g with openWin := true, late := false, closeCross := g.closeCross || decide closing }

/-- SEAM_WINDOW_CLOSE (R104, R106, R107, R111, R112). `sameStop`: a write of RUN = 0 registers in this cycle and takes
effect at this close (R23). -/
def seamWindow (e : Eng) (sameStop : Bool) (s : State) : State :=
  if s.eng[e].seam.openWin = false then s
  else
    let st := s.get (SEAM_STAT.STATE e)
    let s := s.modSeam e fun g => { g with openWin := false }
    let s := passCopies e s
    if sameStop ∧ (st = seamRunning ∨ st = seamOpening) then
      rasRelease e false (((s.put (SEAM_CTRL.RUN e) 0).put (SEAM_STAT.STATE e) seamClosing).put (SEAM_STAT.IN_WIN e) 0)
    else if st = seamOpening then
      rasRelease e false ((s.put (SEAM_STAT.STATE e) seamRunning).put (SEAM_STAT.IN_WIN e) 0)
    else if st = seamRunning then
      let s := endHeads e s
      let s := setHold e true ((s.put (SEAM_STAT.JUMPING e) 1).modSeam e fun g => { g with inside := 0 })
      rasRelease e false s
    else if st = seamClosing ∧ s.eng[e].seam.closeCross = true then
      seamEnd e (endHeads e (s.put (SEAM_STAT.IN_WIN e) 0))
    else rasRelease e false (s.put (SEAM_STAT.IN_WIN e) 0)

/-- SEAM_JS records a jump-and-settle time, saturated (R104, R113). -/
def recordJs (e : Eng) (js : Nat) (s : State) : State :=
  let v := min js 0xFFF
  (s.put (SEAM_JS.LAST e) v).put (SEAM_JS.MAX e) (max v (s.get (SEAM_JS.MAX e)))

/-- A servo set arrives during the jump: the tracking error on port TE_PORT lies inside plus or minus TH, or the count starts again
(R104). `word`: the 12-bit word of a port. -/
def seamServo (e : Eng) (word : Fin 16 → Int) (s : State) : State :=
  let p : Fin 16 := ⟨s.get (SEAM_CFG.TE_PORT e) % 16, Nat.mod_lt _ (by decide)⟩
  if s.isSet (SEAM_STAT.JUMPING e) then
    s.modSeam e fun g => { g with inside := if (word p).natAbs ≤ s.get (SEAM_SETTLE.TH e) then g.inside + 1 else 0 }
  else s

/-- The tracking error has stayed inside the limit for N sets, N = 0 taken as 1 (R104, R122). -/
def seamQuiet (s : State) (e : Eng) : Bool := decide (max 1 (s.get (SEAM_SETTLE.N e)) ≤ s.eng[e].seam.inside)

/-- SEAM_SETTLED: with the settle criterion met the jump ends and the chains are released from seam hold in SEARCH (R104, R106). -/
def seamSettle (e : Eng) (js : Nat) (s : State) : State :=
  if s.isSet (SEAM_STAT.JUMPING e) && seamQuiet s e then
    let s := (s.put (SEAM_STAT.JUMPING e) 0).put (SEAM_STAT.IN_WIN e) 0
    setHold e false (recordJs e js s)
  else s

/-- SEAM_LATE: not settled by 2 x W; the chains stay in seam hold (R113). -/
def seamLateOp (e : Eng) (js : Nat) (s : State) : State :=
  if s.isSet (SEAM_STAT.JUMPING e) then
    recordJs e js ((s.raise (SEAM_EVT.LATE e)).modSeam e fun g => { g with late := true })
  else s

/-- The checks of R123 on a write of RUN = 1. -/
def seamRunOk (s : State) (e : Eng) : Bool :=
  decide (s.get (RAS_FIRST.CLUSTER e) ≤ s.get (RAS_LAST.CLUSTER e)) && (s.get (RAS_FIRST.LAYER e) == s.get (RAS_LAST.LAYER e))
    && decide ((s.get (RAS_BASE.BASE e) + 1) * 2 ^ 23 ≤ ddrBytes s)

/-- SEAM_RUN: RUN = 1 in IDLE opens a run unless R123 discards it (R111). -/
def seamStart (e : Eng) (s : State) : State :=
  if s.get (SEAM_STAT.STATE e) = seamIdle ∧ seamRunOk s e = true then
    let s := (s.put (SEAM_CTRL.RUN e) 1).put (SEAM_STAT.STATE e) seamOpening
    let s := (s.put (RAS_NEXT.CLUSTER e) (s.get (RAS_FIRST.CLUSTER e))).put (RAS_NEXT.LAYER e) (s.get (RAS_FIRST.LAYER e))
    let s := slgTurns e 1 ((s.put (RAS_NEXT.VALID e) 1).put (SEAM_STAT.REV e) 0)
    s.modSeam e fun g => { g with refused := [], gaps := [], seen := [], top := 0, openWin := false, closeCross := false, late := false, held := g.held.filter fun x => !x.released }
  else s

/-- SEAM_CFG as a write leaves it: ANGLE above 3,599 as 3,599, WIN held to 60-300; ANGLE and WIN only in IDLE (R105, R122). -/
def seamCfgWrite (e : Eng) (v : Word) (s : State) : State :=
  let s := s.put (SEAM_CFG.TE_PORT e) ((SEAM_CFG.TE_PORT e).of v)
  if s.get (SEAM_STAT.STATE e) = seamIdle then
    (s.put (SEAM_CFG.ANGLE e) (min 3599 ((SEAM_CFG.ANGLE e).of v))).put (SEAM_CFG.WIN e) (max 60 (min 300 ((SEAM_CFG.WIN e).of v)))
  else s

/-- SEAM_CLOSE: RUN = 0 in OPENING or RUNNING enters CLOSING; ESQ<n> writes TPR = 1 with it (R112, R210). -/
def seamStop (e : Eng) (s : State) : State :=
  let s := s.put (SEAM_CTRL.RUN e) 0
  if s.get (SEAM_STAT.STATE e) = seamOpening ∨ s.get (SEAM_STAT.STATE e) = seamRunning then
    slgTurns e 1 ((s.put (SEAM_STAT.STATE e) seamClosing).modSeam e fun g => { g with closeCross := false })
  else s

/-- SEAM_CNT_CLR: RAS_CNT and SEAM_JS.MAX are cleared; an increment of the same cycle (DUP, STITCHED, MISSING, GAP) is
kept (R122). -/
def seamCntClear (e : Eng) (same : BitVec 4) (s : State) : State :=
  let s := s.wr (RAS_CNT.reg e) 0#32
  let s := s.put (SEAM_JS.MAX e) 0
  let s := s.put (RAS_CNT.DUP e) (bits same 0 1)
  let s := s.put (RAS_CNT.STITCHED e) (bits same 1 1)
  let s := s.put (RAS_CNT.MISSING e) (bits same 2 1)
  s.put (RAS_CNT.GAP e) (bits same 3 1)

/-- RAS_FREE: the slot is free again; a slot not in use sets BAD_FREE (R118). -/
def rasFreeSlot (e : Eng) (i : Nat) (s : State) : State :=
  if s.eng[e].seam.used.contains i then
    rasShow e (s.modSeam e fun g => { g with used := g.used.filter (· != i), held := g.held.filter fun x => x.slot != i })
  else s.put (RAS_STAT.BAD_FREE e) 1

def execSeamSettled (e : Eng) (js : Nat) (s : State) : Outcome := ok (seamSettle e js s)
def execSeamLate (e : Eng) (js : Nat) (s : State) : Outcome := ok (seamLateOp e js s)
def execSeamRun (e : Eng) (s : State) : Outcome := ok (seamStart e s)
def execSeamClose (e : Eng) (s : State) : Outcome := ok (seamStop e s)
def execSeamCntClr (e : Eng) (same : BitVec 4) (s : State) : Outcome := ok (seamCntClear e same s)
def execRasFree (e : Eng) (slot : Fin 64) (s : State) : Outcome := ok (rasFreeSlot e slot.val s)

end Sys2Proof.Machine
end

