-- ==== Sys2Proof/Machine/Dsp.lean ====
section
/-! DEFINITION. The signal path of a read-channel chain: AGC output, interpolation, crosstalk canceller, equaliser,
partial-response target, Viterbi detector, timing loop and tap adaptation (R71-R82, R125). AGC outputs are in 2^-10 LSB,
canceller outputs in 2^-22 LSB, equaliser outputs in 2^-34 LSB, path metrics in 2^-68 LSB². -/
namespace Sys2Proof.Machine

/-- The adaptive coefficients of a chain, 12 fraction bits: canceller taps by path and place, the equaliser set in use. -/
structure Taps where
  xt : Vector (Vector Int 7) 4
  eq : Vector Int 15
deriving DecidableEq, Repr

/-- What the registers fix of a chain's signal path for one stretch of samples. -/
structure DspCfg where
  own : Option (Fin 4)                -- the self path; none on CH4 with SPOT = 4
  bank : Nat                          -- interpolator coefficient bank
  xtEn : Bool
  xtAdapt : Bool
  eqAdapt : Bool
  frozen : Bool                       -- the timing loop holds its last frequency
  xtMu : Nat
  eqMu : Nat
  h : List Nat                        -- target coefficients
  tgt : Nat                           -- its largest level, LSB
  rel : Option Nat                    -- REL_TH while REL_EN = 1
  kp : Nat
  ki : Nat
  base : Option Nat                   -- fs/fb by the wobble PLL, 22 fraction bits; none on the chain's own loop
  dd : Bool                           -- decision-directed timing error detector

/-- Target coefficients of a code; code 3 with all of T0-T2 equal to 0 is taken as code 0 (R81). -/
def prTarget (code t0 t1 t2 : Nat) : List Nat :=
  if code = 1 then [1, 2, 2, 1]
  else if code = 2 then [1, 2, 1]
  else if code = 3 ∧ ¬ (t0 = 0 ∧ t1 = 0 ∧ t2 = 0) then [t0, t1, t2, t1, t0]
  else [1, 2, 2, 2, 1]

/-- The response of the target to levels, newest first: coefficient times +1 or -1. -/
def prSum (h : List Nat) (levels : List Bool) : Int :=
  (h.zip levels).foldl (fun t x => if x.2 then t + x.1 else t - x.1) 0

/-- The largest level of the target before it is scaled: that of a run of equal levels. -/
def prTop (h : List Nat) : Int := h.foldl (fun t (c : Nat) => t + c) 0

/-- Equaliser output minus the scaled target response, 2^-34 LSB; the scaled response of the largest level is TARGET (R81, log 11). -/
def prError (c : DspCfg) (levels : List Bool) (z : Int) : Int :=
  divFree (z * prTop c.h - c.tgt * prSum c.h levels * 2 ^ 34) (prTop c.h)

/-- No run of one bit: where the two newest levels differ, the newer is the first of its run, so the one before repeats (d = 1,
R82). -/
def runOk : List Bool → Bool
  | a :: b :: c :: _ => a == b || b == c
  | _ => true

/-- Level sequences of a length without a run of one bit inside: the states of the trellis (R81). -/
def trellis : Nat → List (List Bool)
  | 0 => [[]]
  | n + 1 => (trellis n).flatMap fun l => [false :: l, true :: l].filter runOk

/-- Keep the better path into a state; the one found first on a tie (log 74). -/
def keepBest (ms : List (List Bool × Nat)) (x : List Bool × Nat) : List (List Bool × Nat) :=
  if ms.any fun m => m.1 == x.1 then ms.map fun m => if m.1 == x.1 && decide (x.2 < m.2) then x else m
  else ms ++ [x]

/-- One step of the trellis on an equaliser output, over the levels that `ok` allows. -/
def vitStep (c : DspCfg) (ok : Bool → Bool) (z : Int) (ms : List (List Bool × Nat)) : List (List Bool × Nat) :=
  let ext := ms.flatMap fun m => ([false, true].filter fun b => runOk (b :: m.1) && ok b).map fun b =>
    ((b :: m.1).take (max 2 (c.h.length - 1)), m.2 + (prError c (b :: m.1) z).natAbs ^ 2)
  ext.foldl keepBest []

/-- The least path metric after a window of equaliser outputs, oldest first, when the first bit has level `b`. -/
def vitBest (c : DspCfg) (b : Bool) (ms : List (List Bool × Nat)) : List Int → Option Nat
  | [] => none
  | z :: zs => ((zs.foldl (fun ms z => vitStep c (fun _ => true) z ms) (vitStep c (· == b) z ms)).map (·.2)).min?

/-- The level of the oldest bit of a window, and the path-metric margin between the best path and the best one with that bit
inverted; equal metrics give the level 0 (R82, log 74). -/
def vitDecide (c : DspCfg) (ms : List (List Bool × Nat)) (w : List Int) : Bool × Option Nat :=
  match vitBest c false ms w, vitBest c true ms w with
  | some m0, some m1 => (decide (m1 < m0), some (if m1 < m0 then m0 - m1 else m1 - m0))
  | none, some _ => (true, none)
  | _, none => (false, none)

/-- The states before a window: those the detector holds, or every state of the target at equal metric when its length has
changed (log 74). -/
def vitStart (c : DspCfg) (ms : List (List Bool × Nat)) : List (List Bool × Nat) :=
  let n := max 2 (c.h.length - 1)
  if ms.any fun m => m.1.length == n then ms else (trellis n).map fun l => (l, 0)

/-- One sample per channel bit of a path: eight samples around the bit instant (R79, log 12). -/
def interpAt (bank tph : Nat) (xs : List Smp) : Smp :=
  let w := (xs.drop (tph / 2 ^ 22)).take 8
  { v := Config.interp bank (tph % 2 ^ 22) (w.map Smp.v), er := w.any (·.er) }

/-- The sample of path `j` that tap `t` of the canceller takes; `x` newest first, the newest at t = 6. -/
def xAt (x : List (Vector Smp 4)) (j : Fin 4) (i : Nat) : Smp :=
  match x[i]? with
  | some v => v[j]
  | none => ⟨0, false⟩

/-- The canceller output: the sum over paths and taps; an erased sample of a neighbour contributes 0; with XT_EN = 0 the self
path's sample at tap 3 (R77, R79). -/
def cancel (c : DspCfg) (t : Taps) (x : List (Vector Smp 4)) : Smp :=
  let mine (i : Nat) : Smp := match c.own with | some j => xAt x j i | none => ⟨0, false⟩
  if c.xtEn then
    { v := (List.finRange 4).foldl (fun n j => (List.finRange 7).foldl (fun n (i : Fin 7) =>
        let s := xAt x j (6 - i.val)
        if s.er && c.own != some j then n else n + t.xt[j][i] * s.v) n) 0
      er := (List.range 7).any fun i => (mine i).er }
  else { v := (mine 3).v * 2 ^ 12, er := (mine 3).er }

/-- The equaliser output: 15 taps about tap 7 (R80, log 75). -/
def equalise (t : Taps) (y : List Smp) : Smp :=
  { v := (List.finRange 15).foldl (fun n (i : Fin 15) => n + t.eq[i] * ((y[14 - i.val]?).map Smp.v).getD 0) 0
    er := (y.take 15).any (·.er) }

/-- Plus or minus one by sign, 0 for 0. -/
def sgn (x : Int) : Int := if x < 0 then -1 else if x = 0 then 0 else 1

/-- A tap after a step of 2^-mu against the error times the sign of its datum, held at its range; whether it reached the end
(R78, R80, log 12). -/
def lmsTap (tap err data : Int) (mu : Nat) : Int × Bool :=
  let x := tap - divFree (err * sgn data) (2 ^ (22 + mu))
  let v := clampInt (-8192) 8191 x
  (v, v != x)

/-- Canceller and equaliser taps adapt on the error of the oldest equaliser output of the detector's window; a path with an
erased sample does not, nor does any tap on an erased output (R78, R79, log 12). -/
def lmsStep (c : DspCfg) (err : Int) (erased : Bool) (x : List (Vector Smp 4)) (y : List Smp) (t : Taps) : Taps × Bool :=
  let xo := c.xtEn && c.xtAdapt && !erased
  let eo := c.eqAdapt && !erased
  let xt (j : Fin 4) (i : Fin 7) : Int × Bool :=
    if xo && !((List.range 7).any fun i => (xAt x j (76 - i)).er) then lmsTap t.xt[j][i] err (xAt x j (76 - i.val)).v c.xtMu
    else (t.xt[j][i], false)
  let eq (i : Fin 15) : Int × Bool :=
    if eo then lmsTap t.eq[i] err (((y[77 - i.val]?).map Smp.v).getD 0) c.eqMu else (t.eq[i], false)
  ({ xt := Vector.ofFn fun j => Vector.ofFn fun i => (xt j i).1, eq := Vector.ofFn fun i => (eq i).1 },
    ((List.finRange 4).any fun j => (List.finRange 7).any fun i => (xt j i).2) || (List.finRange 15).any fun i => (eq i).2)

/-- The timing loop after a bit with timing error `err`, both in 2^-22 of a bit: the second-order loop on its own, or the small
residual about the wobble PLL's rate; a frozen loop keeps its rate (Timing recovery, R75, R106, log 12). -/
def timeStep (c : DspCfg) (err : Int) (d : DspInt) : DspInt :=
  let i := if c.frozen then 0 else divFree err (2 ^ c.ki)
  let p := if c.frozen then 0 else divFree err (2 ^ c.kp)
  let tres := match c.base with | some _ => d.tres + i | none => 0
  let ratio : Nat := match c.base with | some b => ((b : Int) + tres).toNat | none => ((d.ratio : Int) + i).toNat
  { d with terr := err, tres := tres, ratio := ratio, tph := ((d.tph : Int) + ratio + p).toNat, tsq := d.tsq + err.natAbs ^ 2, tn := d.tn + 1 }

/-- An equaliser output as a byte of a capture, saturated to 8 bits (R94). -/
def eqByte (z : Int) : Byte := BitVec.ofInt 8 (clampInt (-128) 127 (rshRound z 34))

/-- A stretch of bits under way: the signal path, its taps, whether a tap reached its range, and the bits decided, newest first. -/
structure DspRun where
  d : DspInt
  t : Taps
  lim : Bool := false
  out : List (Nat × DetBit) := []
  eqs : List Byte := []               -- their equaliser outputs as bytes, newest first

/-- The oldest bit of a full window of 64 is decided, the taps adapt, and the window moves on (R78, R82, R89). -/
def dspDecide (c : DspCfg) (force : Nat → Option Bool) (r : DspRun) : DspRun :=
  let d := r.d
  let w := d.z.reverse
  match w with
  | [] => r
  | z0 :: _ =>
    if w.length < 64 then r
    else
      let ms := vitStart c d.vit
      let dv := match force d.pos with
        | some b => (b, none)
        | none => vitDecide c ms (w.map Smp.v)
      let dec := (dv.1 :: d.dec).take 8
      let unrel := match c.rel, dv.2 with
        | some th, some m => decide (16 * m < th * 2 ^ 68)
        | _, _ => false
      let b : DetBit := { level := dv.1, one := d.dec.head? == some (!dv.1), unrel := unrel, er := (w.take c.h.length).any (·.er) }
      let a := lmsStep c (prError c dec z0.v) z0.er d.x d.y r.t
      let ms := vitStep c (match force d.pos with | some b => (· == b) | none => fun _ => true) z0.v ms
      let low := ((ms.map (·.2)).min?).getD 0
      let d := timeStep c (Config.timErr c.dd (w.map Smp.v) dec) d
      { d := { d with z := d.z.dropLast, vit := ms.map (fun m => (m.1, m.2 - low)), dec := dec, pos := d.pos + 1 }
        t := a.1, lim := r.lim || a.2, out := (d.pos, b) :: r.out, eqs := eqByte z0.v :: r.eqs }

/-- Whole samples before the next bit instant are used up. -/
def dropUsed (d : DspInt) : DspInt :=
  { d with inp := d.inp.map (·.drop (d.tph / 2 ^ 22)), tph := d.tph % 2 ^ 22 }

/-- One channel bit, when all four paths hold the samples it needs: interpolation, canceller, equaliser, detector. Before the
detector's window is full the loop runs on at its rate. -/
def dspBit (c : DspCfg) (r : DspRun) : Option DspRun :=
  let d := r.d
  if d.inp.toList.all fun q => decide (d.tph / 2 ^ 22 + 8 ≤ q.length) then
    let x := ((Vector.ofFn fun j : Fin 4 => interpAt c.bank d.tph d.inp[j]) :: d.x).take 84
    let y := (cancel c r.t x :: d.y).take 78
    let z := equalise r.t y
    let d := { d with x := x, y := y, z := z :: d.z }
    let n := dspDecide c (fun _ => none) { r with d := d }
    some { n with d := dropUsed (if d.z.length < 64 then { n.d with tph := n.d.tph + n.d.ratio } else n.d) }
  else none

/-- Bits until a path runs short of samples. -/
def dspRun (c : DspCfg) : Nat → DspRun → DspRun
  | 0, r => r
  | n + 1, r => match dspBit c r with
    | some r => dspRun c n r
    | none => r

/-- The upstream stream that path `j` of a chain takes: a chain's own stream on its self path, stream 4 for the spot CH4 delivers,
else stream `j`; on CH4 the self path takes stream 4 (R73, R78, R158). -/
def pathStream (s : State) (e : Eng) (k : Chn) (j : Fin 4) : Nat :=
  if k.val = 4 then (if s.get (CH_CTRL.SPOT e 4) = j.val then 4 else j.val)
  else if j.val = k.val then j.val
  else if s.get (TMP_STAT.DELIV e) = j.val then 4 else j.val

/-- Another chain treats a stream as erased: spot 1's while the write gate is open, and that of a blank or unused spot (R125). -/
def streamDead (s : State) (e : Eng) (i : Nat) : Bool :=
  (i == 1 && s.isSet (WR_STAT.GATE e)) ||
    (if h : i < 5 then s.eng[e].ch[i].blank || s.eng[e].ch[i].stopped else false)

/-- The eight samples of an RF or wobble block, earliest first (R44). -/
def blockSamples (b : LinkBlock) (er : Bool) : List Smp := (List.range 8).map fun i => ⟨signed 8 (bits b (8 * i) 8), er⟩

/-- The AGC output of a sample of stream `i`, by the gain and offset of the chain that takes that stream as its own; a gain below
0x040 is taken as 0x040 (R74, R99). -/
def agcOut (s : State) (e : Eng) (i : Nat) (x : Smp) : Smp :=
  { x with v := (4 * x.v - s.getInt (AGC_OFFS.OFFS e i)) * max 0x40 (s.get (AGC_GAIN.GAIN e i)) }

/-- The chain takes samples: it runs and its input is a stream (R73, R99, R124). -/
def dspOn (s : State) (e : Eng) (k : Chn) : Bool :=
  s.isSet (CH_CTRL.ENABLE e k) && !s.eng[e].ch[k].stopped && !(k == 4 && s.isSet (CH_CTRL.REPLAY e k))

/-- Samples of stream `i` enter every path that takes them (R77, R78, R125). -/
def feedStream (e : Eng) (i : Nat) (xs : List Smp) (s : State) : State :=
  (List.finRange 5).foldl (fun (s : State) (k : Fin 5) =>
    if dspOn s e k then
      (List.finRange 4).foldl (fun (s : State) (j : Fin 4) =>
        if pathStream s e k j = i then
          let dead := decide (i ≠ k.val) && streamDead s e i
          let ys := xs.map fun x => let a := agcOut s e i x; { a with er := a.er || dead }
          s.modCh e k fun c => { c with dsp := { c.dsp with inp := c.dsp.inp.set j (c.dsp.inp[j] ++ ys) } }
        else s) s
    else s) s

/-- The self path of a chain. -/
def ownPath (s : State) (e : Eng) (k : Chn) : Option (Fin 4) :=
  let j := spotOf s e k
  if h : j < 4 then some ⟨j, h⟩ else none

/-- fs/fb as the wobble PLL gives it, 22 fraction bits (R75, R76, log 11). -/
def wobbleRatio (s : State) (e : Eng) : Option Nat :=
  if s.get (WPLL_STAT.FB e) = 0 then none
  else some (divFree (s.get (HL_RATE.FW e) * 2 ^ 22) (s.get (WPLL_STAT.FB e))).toNat

/-- The disc in the engine is a BD-ROM, which has no wobble (R98). -/
def romIn (s : State) (e : Eng) : Bool :=
  s.arm.discs.any fun x => decide (x.2.loc = .engine e) && (s.arm.map.disc x.1).get Dsc.MEDIUM == 3

/-- Adaptation of the chain is frozen: seam hold, or write hold (R106, R124). -/
def chHeld (s : State) (e : Eng) (k : Chn) : Bool := s.eng[e].ch[k].seamHold || s.eng[e].ch[k].writeHold

/-- What the registers fix of a chain's signal path now. -/
def dspCfg (s : State) (e : Eng) (k : Chn) : DspCfg :=
  let alt := s.isSet (CH_STAT.ALT_ACTIVE e k)
  let held := chHeld s e k
  { own := ownPath s e k
    bank := bits s.eng[e].ch[k].redEff 0 2
    xtEn := s.isSet (CH_CTRL.XT_EN e k)
    xtAdapt := !held && !s.isSet (CH_CTRL.XT_HOLD e k)
    eqAdapt := !held && !s.isSet (CH_CTRL.EQ_HOLD e k)
    frozen := held
    xtMu := s.get (ADAPT_CFG.XT_MU e k)
    eqMu := s.get (ADAPT_CFG.EQ_MU e k)
    h := prTarget (if alt then s.get (PR_CFG.PR_SEL_ALT e k) else s.get (PR_CFG.PR_SEL e k))
      (s.get (PR_CFG.T0 e k)) (s.get (PR_CFG.T1 e k)) (s.get (PR_CFG.T2 e k))
    tgt := s.get (AGC_CFG.TARGET e k)
    rel := if s.isSet (VIT_CFG.REL_EN e k) then some (s.get (VIT_CFG.REL_TH e k)) else none
    kp := if alt then s.get (TR_CFG_ALT.KP e k) else s.get (TR_CFG.KP e k)
    ki := if alt then s.get (TR_CFG_ALT.KI e k) else s.get (TR_CFG.KI e k)
    base := if s.isSet (CH_CTRL.TR_MODE e k) && !s.isSet (CH_STAT.FALLBACK e k) && !romIn s e then wobbleRatio s e else none
    dd := (if alt then s.isSet (TR_CFG_ALT.DD e k) else s.isSet (TR_CFG.DD e k)) && s.get (CH_STAT.FLY_STATE e k) != flySearch }

/-- The register of an equaliser tap of the set in use (R80, R96). -/
def eqReg (s : State) (e : Eng) (k : Chn) (i : Nat) : Fld :=
  if s.isSet (CH_STAT.ALT_ACTIVE e k) then EQ_ALT.TAP e k i else EQ_TAP.TAP e k i

/-- The taps as the registers hold them. -/
def loadTaps (s : State) (e : Eng) (k : Chn) : Taps :=
  { xt := Vector.ofFn fun j : Fin 4 => Vector.ofFn fun i : Fin 7 => s.getInt (XT_TAP.TAP e k j i)
    eq := Vector.ofFn fun i : Fin 15 => s.getInt (eqReg s e k i) }

/-- Adapted taps go back to their registers. -/
def storeTaps (e : Eng) (k : Chn) (t : Taps) (s : State) : State :=
  let s := (List.finRange 4).foldl (fun (s : State) (j : Fin 4) =>
    (List.finRange 7).foldl (fun (s : State) (i : Fin 7) => s.putInt (XT_TAP.TAP e k j i) t.xt[j][i]) s) s
  if s.isSet (CH_STAT.ALT_ACTIVE e k) then (List.finRange 15).foldl (fun (s : State) (i : Fin 15) => s.putInt (EQ_ALT.TAP e k i) t.eq[i]) s
  else (List.finRange 15).foldl (fun (s : State) (i : Fin 15) => s.putInt (EQ_TAP.TAP e k i) t.eq[i]) s

/-- Outside the limits of R72: fb above 792 Mbit/s, or 528 Mbit/s on a degraded link, or fs below 0.99 fb. `ratio` is fs/fb with 22
fraction bits, `fw` fs in units of 1,728 MHz / 2^24. -/
def outOfLimits (cap fw ratio : Nat) : Bool :=
  decide (100 * ratio < 99 * 2 ^ 22) || decide ((if cap = 0 then 11 * ratio < 6 * fw else 11 * ratio < 9 * fw))

/-- TR_STAT.RATIO and STAT.TR_LOCK: an RMS timing error below 0.1 T over 1,024 bits, taken bit by bit in blocks of 1,024 (R99, log
76); outside R72 the lock is lost. -/
def timingShow (e : Eng) (k : Chn) (s : State) : State :=
  let d := s.eng[e].ch[k].dsp
  let out := outOfLimits (s.get (HL_STAT.RATE_CAP e)) (s.get (HL_RATE.FW e)) d.ratio
  let s := s.put (TR_STAT.RATIO e k) (min 0xFFFFFF d.ratio)
  let s := if 1024 ≤ d.tn then s.putBool (CH_STAT.TR_LOCK e k) (decide (100 * d.tsq < d.tn * 2 ^ 44)) else s
  let s := if out then s.put (CH_STAT.TR_LOCK e k) 0 else s
  s.modCh e k fun c => { c with dsp := { c.dsp with
    out := out, tsq := if 1024 ≤ d.tn then 0 else d.tsq, tn := if 1024 ≤ d.tn then 0 else d.tn } }

/-- The bits decided go to the cluster's flags and to the bits kept, their equaliser outputs too with `keep` (R86, R89, R94, R107). -/
def takeBits (keep : Bool) (out : List (Nat × DetBit)) (eqs : List Byte) (c : ChInt) : ChInt :=
  { c with
    bits := out ++ c.bits
    cur := { c.cur with
      er := (out.filter (·.2.er)).map (·.1) ++ c.cur.er
      unrel := (out.filter (·.2.unrel)).map (·.1) ++ c.cur.unrel }
    dsp := { c.dsp with eq := if keep || c.cap then eqs ++ c.dsp.eq else [] } }

/-- A chain works off the samples its paths hold: bits, taps, timing, EQ_LIMIT (R71-R82). -/
def chainBits (e : Eng) (k : Chn) (s : State) : State :=
  if dspOn s e k then
    let c := dspCfg s e k
    let d := s.eng[e].ch[k].dsp
    let n := 2 * (d.inp.toList.map (·.length)).foldl max 0
    let r := dspRun c n { d := d, t := loadTaps s e k }
    let s := s.modCh e k fun x => takeBits (s.isSet (RPL_CTRL.CAP_ARM e k)) r.out r.eqs { x with dsp := r.d }
    let s := storeTaps e k r.t s
    let s := if r.lim then s.raise (CH_EVT.EQ_LIMIT e k) else s
    timingShow e k s
  else s

/-- The flags of the cluster whose capture stands in CH4's replay buffer: that of a chain with the same RPL_BASE (R94). -/
def replayFlags (s : State) (e : Eng) : ClFlags :=
  match (List.finRange 5).find? fun (k : Fin 5) => s.isSet (RPL_CTRL.CAPTURED e k) && s.get (RPL_BASE.BASE e k) == s.get (RPL_BASE.BASE e 4) with
  | some k => s.eng[e].ch[k].capOf
  | none => {}

/-- RPL_PLAY: CH4 in replay mode with no pass running begins pass 1; nothing is known yet (R94). -/
def replayPlay (e : Eng) (s : State) : State :=
  if s.isSet (CH_CTRL.REPLAY e 4) && !s.isSet (CH_STAT.REPLAY_BUSY e 4) then
    ((s.put (CH_STAT.REPLAY_BUSY e 4) 1).put (RPL_CTRL.PASS e 4) 0).modCh e 4 fun c => { c with known := [], cur := replayFlags s e }
  else s

/-- A chain register takes a value: AGC_GAIN below 0x040 as 0x040; RED of a stopped chain is in effect at once (R99). -/
def chValue (e : Eng) (k : Chn) (r : Reg) (v : Word) (s : State) : State :=
  let v := if r = AGC_GAIN.reg e k ∧ (AGC_GAIN.GAIN e k).of v < 0x40 then (AGC_GAIN.GAIN e k).into v 0x40 else v
  let s := s.wrTyped r 0xF#4 v
  if r = RED.reg e k ∧ s.isSet (CH_CTRL.ENABLE e k) = false then s.modCh e k fun c => { c with redEff := BitVec.ofNat 4 (bits (s.rd r) 0 4) } else s

/-- RPL_CAP_ARM: armed, CAPTURED cleared (R94, R99). -/
def capArm (e : Eng) (k : Chn) (s : State) : State := (s.put (RPL_CTRL.CAP_ARM e k) 1).put (RPL_CTRL.CAPTURED e k) 0

/-- The flywheel is in SEARCH: nothing is kept of the cluster under way (R84, R99, R106). -/
def chainSearch (e : Eng) (k : Chn) (s : State) : State :=
  (altNow e k (((partDrop e k s).put (CH_STAT.FLY_STATE e k) flySearch).put (CH_STAT.MISS_RUN e k) 0)).modCh e k fun c => { c with
    acq := 0, cands := [], obs := .none, marks := [], prevAddr := none, addr := none }

/-- The stopped chain: flywheel in SEARCH, signal path empty; adaptive values stay. The spec names only the flywheel; MISS_RUN, TR_LOCK
and REPLAY_BUSY are cleared with it (R99; DESIGN CHOICE, log 86). -/
def chainReset (e : Eng) (k : Chn) (s : State) : State :=
  let s := ((chainSearch e k s).put (CH_STAT.TR_LOCK e k) 0).put (CH_STAT.REPLAY_BUSY e k) 0
  s.modCh e k fun c => { c with dsp := { ratio := c.dsp.ratio, pos := c.dsp.pos } }

end Sys2Proof.Machine
end

