-- ==== Sys2Proof/Machine/WritePath.lean ====
section
/-! DEFINITION. The write path: runs, the descriptor ring, verify, aborts, the laser interlock and power control
(R124-R146). -/
namespace Sys2Proof.Machine

/-- WR_STAT.STATE codes (R146). -/
def wrIdle : Nat := 0
def wrArmed : Nat := 1
def wrWriting : Nat := 2
def wrDraining : Nat := 3
def wrOpc : Nat := 4

/-- The chain that verifies: CH0 on layers written outward, CH2 inward (R124). -/
def verChain (s : State) (e : Eng) : Chn := if s.get (WR_STAT.VER_SPOT e) = 2 then 2 else 0

/-- Entries between CONS and PROD (R130). -/
def ringFill (s : State) (e : Eng) (prod : Nat) : Nat := (prod + 128 - s.get (WR_CONS.CONS e)) % 128

/-- The next entry to be committed is available (R130, R132). -/
def ringHas (s : State) (e : Eng) : Bool := s.get (WR_CONS.NEXT e) != s.get (WR_PROD.PROD e)

/-- The descriptor of ring entry `i` in DDR4 (R129). -/
def ringDesc (s : State) (e : Eng) (i : Nat) : WrDesc :=
  let n := s.ddrNum (s.get (WR_RING.BASE e) * 1024 + 16 * (i % 64)) 16
  { buf := BitVec.ofNat 32 n, addr := BitVec.ofNat 32 (n >>> 32), tag := BitVec.ofNat 32 (n >>> 64) }

/-- The physical address a descriptor names. -/
def descAddr (d : WrDesc) : ClAddr := { cluster := d.addr.extractLsb' 0 28, layer := d.addr.extractLsb' 28 3 }

/-- Asymmetry beta in units of 2^-14 (R141). -/
def beta (p : Plateau) : Int := divFree ((p.h + p.l - 2 * p.c) * 2 ^ 14) (p.h - p.l)

/-- The roles of the chains in a write run, and their end: CH1 in write hold and afterwards in SEARCH, the unused chain stopped as by
ENABLE = 0 (R106, R124). -/
def wrRoles (e : Eng) (on : Bool) (s : State) : State :=
  let inward := s.isSet (SEAM_CTRL.DIR e)
  let s := if s.eng[e].ch[(1 : Fin 5)].writeHold && !on then chainSearch e 1 s else s
  let s := s.modCh e 1 fun c => { c with writeHold := on }
  let s := s.modCh e 2 fun c => { c with blank := on && !inward }
  let s := s.modCh e 3 fun c => { c with blank := on && !inward, stopped := on && inward }
  let s := if on && inward then chainReset e 3 s else s
  s.modCh e 0 fun c => { c with blank := on && inward }

/-- The write path is IDLE again: roles end, gate and WRITE_EN are off. -/
def wrToIdle (e : Eng) (s : State) : State :=
  let s := ((s.put (WR_STAT.STATE e) wrIdle).put (WR_STAT.GATE e) 0).put (WR_STAT.INFLIGHT e) 0
  let s := s.modHl e fun h => { h with writeEn := false, syms := [] }
  wrRoles e false (s.modWr e fun w => { w with
    entries := [], lastAddr := none, adipBad := 0, aborting := false, levels := [], wait := 0, pos := 0, count := 0, closing := false, steps := [] })

/-- The conditions of a run but the ring's (R127). -/
def wrGoOk (s : State) (e : Eng) : Bool :=
  s.get (WR_STAT.STATE e) == wrIdle && s.isSet (WR_CTRL.LASER_EN e) && linkUp s e && s.isSet (HL_RATE.STEERED e)
    && s.isSet (WPLL_STAT.LOCK e) && s.get (SEAM_STAT.STATE e) == seamIdle && s.get (TMP_STAT.STATE e) == 0

/-- A run or an OPC run begins: roles by SEAM_CTRL.DIR, VER_SPOT, one turn per revolution (R124, R127, R210). The spec does not say about which P_OPT running OPC is
limited while WR_OPC_RES.VALID = 0: it is P_PEAK at the start of the run here (R143; DESIGN CHOICE, log 87). -/
def wrBegin (e : Eng) (st : Nat) (s : State) : State :=
  let s := (s.put (WR_STAT.STATE e) st).put (WR_STAT.VER_SPOT e) (if s.isSet (SEAM_CTRL.DIR e) then 2 else 0)
  let s := slgTurns e 1 (wrRoles e true s)
  s.modWr e fun w => { w with
    entries := [], lastAddr := none, adipBad := 0, aborting := false, levels := [], wait := 0, pos := 0, count := 0, closing := false, steps := []
    pOpt := if s.isSet (WR_OPC_RES.VALID e) then s.get (WR_OPC_RES.P_OPT e) else s.get (WR_PWR1.P_PEAK e)
    pBase := s.get (WR_PWR1.P_PEAK e), pErase := s.get (WR_PWR0.P_ERASE e), pPeak := s.get (WR_PWR1.P_PEAK e) }

/-- WR_GO (R127). -/
def wrGo (e : Eng) (s : State) : State :=
  if wrGoOk s e && decide (1 ≤ ringFill s e (s.get (WR_PROD.PROD e))) then wrBegin e wrArmed s
  else s.raise (WR_EVT.GO_REJ e)

/-- WR_OPC_GO (R142). -/
def wrOpcStart (e : Eng) (s : State) : State :=
  if wrGoOk s e then wrBegin e wrOpc s else s.raise (WR_EVT.GO_REJ e)

/-- The message of a posted result (R137). -/
def wrMessage (x : WrEntry) (r : WrResult) : BitVec 128 :=
  msg4 x.desc.addr r.result x.desc.tag (BitVec.ofNat 32 (r.vr + x.idx % 64 * 2 ^ 8 + r.beta.toNat * 2 ^ 16))

/-- Results are posted in ring order; CONS advances with each (R130, R137). -/
def wrPost (e : Eng) : Nat → State → State
  | 0, s => s
  | n + 1, s =>
    match s.eng[e].wr.entries with
    | x :: rest =>
      match x.res with
      | some r =>
        let s := s.mqPut (s.get (WR_CFG.MQ e)) (wrMessage x r)
        let s := s.put (WR_CONS.CONS e) (s.get (WR_CONS.CONS e) + 1)
        let s := s.put (WR_STAT.INFLIGHT e) rest.length
        let s := s.modWr e fun w => { w with entries := rest }
        wrPost e n (note (.verified e x.desc.tag r.vr) s)
      | none => s
    | [] => s

/-- WR_DRAIN_DONE: with every result delivered the write path is IDLE; DONE unless the run was aborted (R134, R139). -/
def wrDrain (e : Eng) (s : State) : State :=
  let s := wrPost e s.eng[e].wr.entries.length s
  if s.get (WR_STAT.STATE e) = wrDraining ∧ s.eng[e].wr.entries = [] then
    let s := if s.eng[e].wr.aborting then s else s.raise (WR_EVT.DONE e)
    wrToIdle e s
  else s

/-- Written clusters without a result become UNVERIFIED and go to the retry ladder (R139, R147). -/
def wrUnverify (e : Eng) (s : State) : State :=
  let lost := s.eng[e].wr.entries.filter fun x => x.res.isNone
  let s := s.modWr e fun w => { w with entries := w.entries.map fun x => if x.res.isNone then { x with res := some ⟨5, 0#32, 0#16⟩ } else x }
  let s := lost.foldl (fun s x => ladderEnter e (descAddr x.desc) 1 s) s
  wrDrain e s

/-- The gate closes at a write-clock count, and WRITE_EN falls (R51). -/
def gateClose (e : Eng) (wpos : Nat) (s : State) : State :=
  let s := pushWord e (.lpw (lpwGate false wpos)) s
  let s := (s.put (WR_STAT.GATE e) 0).modHl e fun h => { h with writeEn := false }
  sendLevels e s

/-- Channel bits of a cluster, run-in and run-out included (Frame sync). -/
def clusterBits : Nat := 962136

/-- WR_ABORT (R139). `hard`: the first row of its table, where the caller has sent laser-off and LASER_EN is cleared;
otherwise the gate closes at the
current count and the laser stays at read power. Nothing happens in IDLE. -/
def wrAbort (e : Eng) (hard : Bool) (s : State) : State :=
  if s.get (WR_STAT.STATE e) = wrIdle then s
  else
    let s := if hard then s.put (WR_CTRL.LASER_EN e) 0 else gateClose e (s.get (WR_WPOS.WPOS e)) s
    let s := (s.put (WR_STAT.GATE e) 0).modHl e fun h => { h with writeEn := false }
    let s := ((s.raise (WR_EVT.ABORT e)).inc (WR_CNT.ABORTS e)).report (.wr e 3)
    let s := s.modWr e fun w => { w with
      aborting := true
      entries := w.entries.map fun x => if x.res.isNone && x.phase != .written then { x with res := some ⟨4, 0#32, 0#16⟩ } else x }
    if s.get (WR_STAT.STATE e) = wrOpc then wrToIdle e s
    else
      let s := s.put (WR_STAT.STATE e) wrDraining
      if hard then wrUnverify e s else wrDrain e s

/-- The end of writing at a cluster boundary: the gate is to close at the run-out of the last committed cluster (R133). The block goes
out at once and names the count (R51). -/
def wrEnd (e : Eng) (s : State) : State :=
  let s := pushWord e (.lpw (lpwGate false (s.eng[e].wr.gateAt + clusterBits * s.eng[e].wr.count))) s
  s.modWr e fun w => { w with closing := true }

/-- WR_STOP (R133). -/
def wrStop (e : Eng) (s : State) : State :=
  if s.get (WR_STAT.STATE e) = wrWriting then (if s.eng[e].wr.closing then s else wrEnd e s)
  else if s.get (WR_STAT.STATE e) = wrArmed then wrToIdle e (s.raise (WR_EVT.DONE e))
  else s

/-- NOT_BLANK: a read-ahead chain has found recorded data; `turn` is its WR_AHEAD number (R144). -/
def wrNotBlank (e : Eng) (turn : Nat) (s : State) : State :=
  if s.isSet (WR_CFG.BLANK_CHK e) then
    let s := s.raise (WR_EVT.NOT_BLANK e)
    let at_ := s.get (WR_AHEAD.ADDR e turn) + s.get (WR_AHEAD.LAYER e turn) * 2 ^ 28
    if s.get (WR_STAT.STATE e) = wrWriting ∧ (s.eng[e].wr.entries.any fun x => x.desc.addr.toNat % 2 ^ 31 == at_) = true then
      wrAbort e false s
    else wrStop e s
  else s

/-- Commit ring entry NEXT, whose data is fetched from BUF (R130, R132). -/
def wrCommit (e : Eng) (ph : WrPhase) (s : State) : State :=
  let i := s.get (WR_CONS.NEXT e)
  let d := ringDesc s e i
  let x : WrEntry := ⟨i % 64, d, s.ddrCluster (bits d.buf 0 18 * 16), ph, none, 0⟩
  let s := s.put (WR_CONS.NEXT e) (i + 1)
  let s := s.modWr e fun w => { w with entries := w.entries ++ [x], lastAddr := some d.addr, count := w.count + 1 }
  s.put (WR_STAT.INFLIGHT e) s.eng[e].wr.entries.length

/-- A cluster boundary of writing: the committed next cluster is now the one being written, and the one before it is written. -/
def wrAdvance (e : Eng) (s : State) : State :=
  s.modWr e fun w => { w with entries := w.entries.map fun x =>
    match x.phase with
    | .committed => { x with phase := .writing }
    | .writing => { x with phase := .written, endUs := s.us }
    | .written => x }

/-- Running OPC's levels for the cluster at `addr`: feedback base times feed-forward factor, held to P_OPT +- LIM,
P_ERASE in proportion, sent in an LPW SUB 0x0 block; only with EN = 1 (R143). -/
def ropcApply (e : Eng) (addr : Word) (s : State) : State :=
  if s.isSet (WR_ROPC.EN e) then
    let w := s.eng[e].wr
    let refl : Int := s.get (WR_OPC_RES.REFL e)
    let p : Int :=
      if s.isSet (WR_ROPC.FF_EN e) then
        match w.levels.find? fun x => x.1 == addr with
        | some (_, lvl) =>
          let lim : Int := s.get (WR_ROPC.FF_LIM e)
          let lo := divFree (w.pBase * (100 - lim)) 100
          let hi := divFree (w.pBase * (100 + lim)) 100
          clampInt lo hi (if lvl = 0#16 then w.pBase else divFree (w.pBase * refl) lvl.toNat)
        | none => w.pBase
      else w.pBase
    let lim : Int := s.get (WR_ROPC.LIM e)
    let p := clampInt 0 0xFFF (clampInt ((w.pOpt : Int) - lim) ((w.pOpt : Int) + lim) p)
    let s := s.put (WR_PWR1.P_PEAK e) p.toNat
    let s := if w.pPeak = 0 then s else s.put (WR_PWR0.P_ERASE e) (min 0xFFF (divFree (p * w.pErase) w.pPeak).toNat)
    sendLevels e s
  else s

/-- Running OPC's feedback after a verify result with a beta: round(P_PEAK x (BETA_TGT - beta) x 2^-K) (R143). -/
def ropcFeedback (e : Eng) (b : Option Int) (s : State) : State :=
  match b with
  | some b =>
    if s.isSet (WR_ROPC.EN e) then
      let d := (s.get (WR_PWR1.P_PEAK e) : Int) * (s.getInt (WR_OPC_TGT.BETA_TGT e) - b)
      s.modWr e fun w => { w with pBase := w.pBase + roundFree d (2 ^ (14 + s.get (WR_ROPC.K e))) }
    else s
  | none => s

/-- The gate opens at the ADIP word boundary, offset by WOFFS channel bits, modulo 2^31; a negative offset has passed, so writing begins at
once (R51, R131, log 88). -/
def gateOpen (e : Eng) (s : State) : State :=
  let s := s.modHl e fun h => { h with writeEn := true }
  let o := s.getInt (WR_CFG.WOFFS e)
  let w := (((s.get (WR_WPOS.WPOS e) : Int) + o) % 2 ^ 31).toNat
  let s := pushWord e (.lpw (lpwGate true w)) (sendLevels e s)
  (s.modWr e fun x => { x with gateAt := w, wait := o.toNat, pos := 0 }).put (WR_STAT.GATE e) 1

/-- WRITING begins: the first entry is committed, its levels go out, the gate opens (R131, R143). -/
def wrGateOpen (e : Eng) (s : State) : State :=
  let a := (ringDesc s e (s.get (WR_CONS.NEXT e))).addr
  (gateOpen e (ropcApply e a (wrCommit e .writing s))).put (WR_STAT.STATE e) wrWriting

/-- WR_DECISION_POINT: commit the next cluster, or end the run: STARVED without a descriptor, SEQ_ERR when its address
is not one above the last on the same layer (R130, R132). A run that is ending, or that has committed its next cluster, decides no
more. -/
def wrDecide (e : Eng) (s : State) : State :=
  let w := s.eng[e].wr
  if s.get (WR_STAT.STATE e) = wrWriting ∧ w.closing = false ∧ (w.entries.any fun x => x.phase == .committed) = false then
    if ringHas s e then
      let d := ringDesc s e (s.get (WR_CONS.NEXT e))
      if s.eng[e].wr.lastAddr = some (d.addr - 1#32) ∧ d.addr.extractLsb' 28 4 = (d.addr - 1#32).extractLsb' 28 4 then
        wrCommit e .committed s
      else wrEnd e (s.raise (WR_EVT.SEQ_ERR e))
    else wrEnd e (s.raise (WR_EVT.STARVED e))
  else s

/-- P_PEAK of OPC step `i`. -/
def opcPower (s : State) (e : Eng) (i : Nat) : Int := s.get (WR_OPC_CFG.P_BASE e) + i * s.get (WR_OPC_CFG.P_INC e)

/-- The LPW SUB 0x0 block of OPC step `i`: P_ERASE and P_COOL scaled by the ratio of WR_PWR to P_PEAK (R142, log 11). -/
def opcBlock (s : State) (e : Eng) (i : Nat) : BitVec 64 :=
  let peak := s.get (WR_PWR1.P_PEAK e)
  let p := (opcPower s e i).toNat
  let sc (x : Nat) : Nat := (divFree ((x : Int) * p) peak).toNat
  BitVec.ofNat 64 (s.get (WR_PWR0.P_READ e) * 2 ^ 4 + sc (s.get (WR_PWR0.P_ERASE e)) % 4096 * 2 ^ 16
    + sc (s.get (WR_PWR1.P_COOL e)) % 4096 * 2 ^ 28 + p % 4096 * 2 ^ 40 + s.get (WR_CTRL.LASER_EN e) * 2 ^ 52 + 2 ^ 53)

/-- The laser power block of the first OPC step goes out. -/
def opcFirst (e : Eng) (bs : List LinkBlock) (s : State) : State :=
  match bs with
  | b :: _ => pushWord e (.lpw b) s
  | [] => s

/-- The OPC test cluster begins: the gate opens with step 0, the other steps wait for their address units, and the cluster counts as used
(R142). -/
def opcStart (e : Eng) (c : ClAddr) (s : State) : State :=
  let s := gateOpen e s
  let bs := (List.range (s.get (WR_OPC_CFG.STEPS e) + 1)).map (opcBlock s e)
  note (.pca e c) ((opcFirst e bs s).modWr e fun w => { w with steps := bs.tail })

/-- The level of channel bit `p` of a run: a committed cluster as the disc standard encodes it, or the test data of an OPC run; nothing
before the run-in (R132, R142, log 77). -/
def wrLevel (s : State) (e : Eng) (p : Int) : Bool :=
  if p < 0 then false
  else if s.get (WR_STAT.STATE e) = wrOpc then Config.testBits p.toNat
  else
    let w := s.eng[e].wr
    match w.entries[p.toNat / clusterBits + w.entries.length - w.count]? with
    | some x => Config.encode x.desc.addr x.data (p.toNat % clusterBits)
    | none => false

/-- Channel bits that may be sent: the committed clusters, or the one of an OPC run. -/
def wrTotal (s : State) (e : Eng) : Nat := clusterBits * (if s.get (WR_STAT.STATE e) = wrOpc then 1 else s.eng[e].wr.count)

/-- How many channel bits of the run the next `n` write-clock periods carry. -/
def wrShare (s : State) (e : Eng) (n : Nat) : Nat :=
  let w := s.eng[e].wr
  if s.isSet (WR_STAT.GATE e) then min (n - w.wait) (wrTotal s e - w.pos) else 0

/-- The write-strategy symbols of the next `n` write-clock periods (R145). -/
def wrSyms (s : State) (e : Eng) (n : Nat) : List (BitVec 4) :=
  (List.range (wrShare s e n)).map fun i => bitSym s e (wrLevel s e) ((s.eng[e].wr.pos + i : Nat) : Int)

/-- Channel bits before address unit `i` of a cluster (R142, log 77). -/
def auStart (i : Nat) : Nat := Config.runIn + i * 31 * 1932

/-- The next OPC step's levels go out when its address unit begins (R142). -/
def opcNext (e : Eng) (s : State) : State :=
  let w := s.eng[e].wr
  match w.steps with
  | b :: rest =>
    if auStart (s.get (WR_OPC_CFG.STEPS e) + 1 - w.steps.length) ≤ w.pos then pushWord e (.lpw b) (s.modWr e fun w => { w with steps := rest })
    else s
  | [] => s

/-- The last run-out ends: gate closed, spot 1 at read power; a run drains, an OPC run waits for its revolution (R133, R134, R142). -/
def wrRunOut (e : Eng) (s : State) : State :=
  let s := (s.put (WR_STAT.GATE e) 0).modHl e fun h => { h with writeEn := false }
  let s := if s.get (WR_STAT.STATE e) = wrOpc then pushWord e (.lpw (lpwGate false (s.eng[e].wr.gateAt + clusterBits))) s else s
  let s := sendLevels e s
  if s.get (WR_STAT.STATE e) = wrWriting then wrDrain e (s.put (WR_STAT.STATE e) wrDraining) else s

/-- The write clock runs on by `n` periods: the run's bits go out, cluster boundaries bring running OPC's levels, and the last run-out ends
writing (R132, R133, R143). -/
def wrClock (e : Eng) (n : Nat) (s : State) : State :=
  if s.isSet (WR_STAT.GATE e) then
    let m := wrShare s e n
    let old := s.eng[e].wr.pos
    let s := s.modWr e fun w => { w with wait := w.wait - n, pos := w.pos + m }
    if s.get (WR_STAT.STATE e) = wrOpc then
      let s := opcNext e s
      if clusterBits ≤ s.eng[e].wr.pos then wrRunOut e s else s
    else
      let s := if old / clusterBits < s.eng[e].wr.pos / clusterBits then
          let s := wrAdvance e s
          match s.eng[e].wr.entries.find? fun x => x.phase == .writing with
          | some x => ropcApply e x.desc.addr s
          | none => s
        else s
      if wrTotal s e ≤ s.eng[e].wr.pos then wrRunOut e s else s
  else s

/-- The cluster and the place among its three words of the ADIP word after (c, i) (R135). -/
def adipNext (c : ClAddr) (i : Nat) : ClAddr × Nat :=
  if i < 2 then (c, i + 1) else ({ c with cluster := c.cluster + 1#28 }, 0)

/-- The place of an ADIP word of spot 1 is followed: by counting three words to a cluster, and at a change of address (R131, R135,
log 89). -/
def adipTrack (e : Eng) (a : Option ClAddr) (s : State) : State :=
  s.modWr e fun w =>
    match a, w.adip, w.adipIdx with
    | some c, some l, some i => if (adipNext l i).1 = c then { w with adip := some c, adipIdx := some (adipNext l i).2 } else
        { w with adip := some c, adipIdx := if l = c then none else some 0 }
    | some c, some l, none => { w with adip := some c, adipIdx := if l = c then none else some 0 }
    | some c, none, _ => { w with adip := some c, adipIdx := none }
    | none, some l, some i => { w with adip := some (adipNext l i).1, adipIdx := some (adipNext l i).2 }
    | none, _, _ => { w with adip := none, adipIdx := none }

/-- An ADIP word of spot 1 in a run: start at the word that begins the target cluster, sequence, mismatch (R131, R135, R142). -/
def wrAdip (e : Eng) (a : Option ClAddr) (s : State) : State :=
  let st := s.get (WR_STAT.STATE e)
  let was := s.eng[e].wr
  let s := adipTrack e a s
  let begins := s.eng[e].wr.adipIdx == some 0
  if st = wrArmed then
    match a with
    | some c =>
      let t := ringDesc s e (s.get (WR_CONS.NEXT e))
      if clWord c false = t.addr then (if begins then wrGateOpen e s else s)
      else if c.layer = (descAddr t).layer ∧ (descAddr t).cluster.toNat < c.cluster.toNat then
        let s := ((s.raise (WR_EVT.ADIP_MISMATCH e)).raise (WR_EVT.ABORT e)).inc (WR_CNT.ABORTS e)
        wrToIdle e (gateClose e (s.get (WR_WPOS.WPOS e)) (s.report (.wr e 3)))
      else s
    | none => s
  else if st = wrWriting then
    match a with
    | some c =>
      let s := s.modWr e fun w => { w with adipBad := 0 }
      match was.adip, was.adipIdx with
      | some l, some i => if (adipNext l i).1 = c then s else wrAbort e false (s.raise (WR_EVT.ADIP_MISMATCH e))
      | _, _ => s
    | none =>
      let n := s.eng[e].wr.adipBad + 1
      let s := s.modWr e fun w => { w with adipBad := n }
      if 4 ≤ n then wrAbort e false (s.raise (WR_EVT.ADIP_MISMATCH e)) else s
  else if st = wrOpc ∧ s.eng[e].wr.pos = 0 ∧ ¬ s.isSet (WR_STAT.GATE e) then
    match a with
    | some c =>
      if c.cluster.toNat = s.get (WR_OPC_ADDR.CLUSTER e) ∧ c.layer.toNat = s.get (WR_OPC_ADDR.LAYER e) ∧ begins then opcStart e c s else s
    | none => s
  else s

/-- The chain that reads `a` + 1 turns ahead, in blank mode: CH2 and CH3 outward, CH0 inward (R124, R144). -/
def aheadChain (s : State) (e : Eng) (a : Fin 2) : Chn := if s.isSet (SEAM_CTRL.DIR e) then 0 else if a = 0 then 2 else 3

/-- ADIP_WORD_DECODED: `ahead` none for spot 1, whose decoder runs with the wobble PLL enabled, else the read-ahead number, whose chain is
in blank mode; `addr` none when the word failed (R100, R124, R131, R135, R144). -/
def adipWord (e : Eng) (ahead : Option (Fin 2)) (addr : Option ClAddr) (level : BitVec 16) (s : State) : State :=
  match ahead with
  | none =>
    if s.isSet (WPLL_CTRL.ENABLE e) then
      let s := match addr with
        | some c => ((s.put (ADIP_STAT.ADDR e) c.cluster.toNat).put (ADIP_STAT.LAYER e) c.layer.toNat).put (ADIP_STAT.VALID e) 1
        | none => (s.put (ADIP_STAT.VALID e) 0).raise (WPLL_EVT.ADIP_ERR e)
      wrAdip e addr s
    else s
  | some a =>
    if s.eng[e].ch[aheadChain s e a].blank && !(a == 1 && s.isSet (SEAM_CTRL.DIR e)) then
      let s := match addr with
        | some c => ((s.put (WR_AHEAD.ADDR e a) c.cluster.toNat).put (WR_AHEAD.LAYER e a) c.layer.toNat).put (WR_AHEAD.VALID e a) 1
        | none => s.put (WR_AHEAD.VALID e a) 0
      if a.val = 0 then
        let s := s.put (WR_BETA.LEVEL e) level.toNat
        match addr with
        | some c => s.modWr e fun w => { w with levels := (clWord c false, level) :: w.levels.filter fun x => x.1 != clWord c false }
        | none => s
      else s
    else s

/-- ILK_OPENING: laser off, LASER_EN cleared, ILK_OPEN and the event set, any run aborted (R140). -/
def ilkOpen (e : Eng) (s : State) : State :=
  let s := (laserOff e s).put (WR_CTRL.LASER_EN e) 0
  let s := ((s.put (WR_STAT.ILK_OPEN e) 1).raise (WR_EVT.ILK e)).report (.wr e 8)
  wrAbort e true s

/-- LASER_EN_WRITE: a 1 is discarded while the interlock is open or its hold runs; a 0 turns the laser off and ends a run
(R140, R209). -/
def laserEn (e : Eng) (v : Bool) (s : State) : State :=
  if v then
    if s.isSet (WR_STAT.ILK_OPEN e) || s.isSet (WR_STAT.ILK_HOLD e) then s else sendLevels e (s.put (WR_CTRL.LASER_EN e) 1)
  else wrAbort e true (laserOff e (s.put (WR_CTRL.LASER_EN e) 0))

/-- WR_PROD_WRITE: entries are added, or withdrawn while IDLE; otherwise RING_ERR (R130). -/
def wrProd (e : Eng) (prod : Nat) (s : State) : State :=
  let n := ringFill s e prod
  let cur := ringFill s e (s.get (WR_PROD.PROD e))
  if 64 < n ∨ (n < cur ∧ s.get (WR_STAT.STATE e) ≠ wrIdle) then s.raise (WR_EVT.RING_ERR e)
  else s.put (WR_PROD.PROD e) prod

/-- The first pair of steps on either side of the target, interpolated linearly (R142). -/
def opcFind (s : State) (e : Eng) (tgt : Int) : Nat → List Int → Option Int
  | i, b0 :: b1 :: rest =>
    if (b0 ≤ tgt ∧ tgt ≤ b1) ∨ (b1 ≤ tgt ∧ tgt ≤ b0) then
      some (if b0 = b1 then opcPower s e i else opcPower s e i + divFree ((tgt - b0) * s.get (WR_OPC_CFG.P_INC e)) (b1 - b0))
    else opcFind s e tgt (i + 1) (b1 :: rest)
  | _, _ => none

/-- OPC_DONE, one revolution after the test cluster: beta per step, P_OPT interpolated, REFL as the read-ahead spot measured it before
writing; the write path is IDLE (R142). -/
def opcFinish (e : Eng) (steps : List Plateau) (s : State) : State :=
  if s.get (WR_STAT.STATE e) = wrOpc ∧ clusterBits ≤ s.eng[e].wr.pos then
    let bs := (steps.take (s.get (WR_OPC_CFG.STEPS e) + 1)).map beta
    let s := (List.finRange 16).foldl (fun (s : State) (i : Fin 16) =>
      match bs[i.val]? with
      | some b => (s.putInt (WR_OPC_BETA.BETA e i) b).put (WR_OPC_BETA.VALID e i) 1
      | none => s.put (WR_OPC_BETA.VALID e i) 0) s
    let c : ClAddr := ⟨BitVec.ofNat 28 (s.get (WR_OPC_ADDR.CLUSTER e)), BitVec.ofNat 3 (s.get (WR_OPC_ADDR.LAYER e))⟩
    let s := match s.eng[e].wr.levels.find? fun x => x.1 == clWord c false with
      | some x => s.put (WR_OPC_RES.REFL e) x.2.toNat
      | none => s
    let s := match opcFind s e (s.getInt (WR_OPC_TGT.BETA_TGT e)) 0 bs with
      | some p => (s.put (WR_OPC_RES.P_OPT e) (min 0xFFF p.toNat)).put (WR_OPC_RES.VALID e) 1
      | none => s.put (WR_OPC_RES.VALID e) 0
    wrToIdle e (s.raise (WR_EVT.OPC_DONE e))
  else s

/-- WR_CNT_CLR: WR_CNT is cleared; an increment of the same cycle (PASSED, FAILED, ABORTS) is kept (R146). -/
def wrCntClear (e : Eng) (same : BitVec 3) (s : State) : State :=
  let s := s.wr (WR_CNT.reg e) 0#32
  ((s.put (WR_CNT.PASSED e) (bits same 0 1)).put (WR_CNT.FAILED e) (bits same 1 1)).put (WR_CNT.ABORTS e) (bits same 2 1)

/-- What the verifying chain's decode of a cluster shows (R136). -/
structure VerifyIn where
  ok : Bool
  result : Word
  addr : Option ClAddr
  ldcMax : Nat
  bisMax : Nat
  data : Cluster
  beta : Option Int                   -- none where the cluster gave no levels (R141)

/-- The verify code of a written cluster: the lowest that applies (R136, R137). -/
def verifyCode (s : State) (e : Eng) (x : WrEntry) (v : VerifyIn) : Nat :=
  if !v.ok then 1
  else if s.get (WR_VLIM.LDC_LIM e) < v.ldcMax ∨ s.get (WR_VLIM.BIS_LIM e) < v.bisMax then 2
  else if v.data ≠ x.data ∧ crc32c (v.data.toList.flatMap blockBytes) ≠ crc32c (x.data.toList.flatMap blockBytes) then 3
  else if v.addr ≠ some (descAddr x.desc) then 6
  else 0

/-- The spindle's revolution in us, at the speed that is fixed for a run (R128). -/
def revUs (s : State) (e : Eng) : Nat := if s.get (SPN_SPEED.OBS e) = 0 then 0 else 60000000 / s.get (SPN_SPEED.OBS e)

/-- The verifying spot has passed a written cluster when it decodes that cluster's address, or a revolution has gone by since its last
channel bit (R137, log 90). -/
def verifyDue (s : State) (e : Eng) (a : Option ClAddr) (x : WrEntry) : Bool :=
  x.phase == .written && x.res.isNone && (a == some (descAddr x.desc) || decide (x.endUs + revUs s e ≤ s.us))

/-- VERIFY_RESULT: the oldest written cluster that the verifying spot has passed and that has no result takes this decode; counters,
VFAIL_STOP, running OPC, posting and the end of draining follow (R136-R138, R143). -/
def verifyResult (e : Eng) (v : VerifyIn) (s : State) : State :=
  match s.eng[e].wr.entries.find? (verifyDue s e v.addr) with
  | none => s
  | some x =>
    let vr := verifyCode s e x v
    let b : BitVec 16 := BitVec.ofInt 16 (v.beta.getD 0)
    let s := s.modWr e fun w => { w with entries := w.entries.map fun y => if y.idx = x.idx then { y with res := some ⟨vr, v.result, b⟩ } else y }
    let s := if v.beta.isSome then s.put (WR_BETA.BETA e) b.toNat else s
    let s :=
      if vr = 0 then (s.put (WR_STAT.VFAIL_NOW e) 0).inc (WR_CNT.PASSED e)
      else ((s.raise (WR_EVT.VFAIL e)).inc (WR_STAT.VFAIL_NOW e)).inc (WR_CNT.FAILED e)
    let s := ropcFeedback e v.beta s
    let s :=
      if vr ≠ 0 ∧ max 1 (s.get (WR_CFG.VFAIL_RUN e)) ≤ s.get (WR_STAT.VFAIL_NOW e) then
        wrStop e (s.raise (WR_EVT.VFAIL_STOP e))
      else s
    wrDrain e s

def execWrGo (e : Eng) (s : State) : Outcome := ok (wrGo e s)
def execWrOpcGo (e : Eng) (s : State) : Outcome := ok (wrOpcStart e s)
def execWrCntClr (e : Eng) (same : BitVec 3) (s : State) : Outcome := ok (wrCntClear e same s)
def execWrProdWrite (e : Eng) (prod : BitVec 7) (s : State) : Outcome := ok (wrProd e prod.toNat s)
def execOpcDone (e : Eng) (steps : List Plateau) (s : State) : Outcome := ok (opcFinish e steps s)
/-- ILK_HOLD_EXPIRE: 100 ms high clear ILK_HOLD; it cannot happen in an opening (R140). -/
def execIlkHoldExpire (e : Eng) (s : State) : Outcome :=
  ok (if s.isSet (WR_STAT.ILK_OPEN e) then s else s.put (WR_STAT.ILK_HOLD e) 0)
/-- ILK_OPENING_END: ILK returns high, ILK_OPEN clears and the 100 ms hold begins (R140). -/
def execIlkOpeningEnd (e : Eng) (s : State) : Outcome :=
  ok (if s.isSet (WR_STAT.ILK_OPEN e) then (s.put (WR_STAT.ILK_OPEN e) 0).put (WR_STAT.ILK_HOLD e) 1 else s)

end Sys2Proof.Machine
end

