-- ==== Sys2Proof/Machine/Temper.lean ====
section
/-! DEFINITION. Temper sessions, the spare chain's claim, hand-over and the trim shadow (R156-R170). -/
namespace Sys2Proof.Machine

/-- TMP_STAT.STATE codes (R170). -/
def tmpIdle : Nat := 0
def tmpShadow : Nat := 2
def tmpTakeover : Nat := 3
def tmpCalib : Nat := 4
def tmpRepeat : Nat := 5
def tmpVerify : Nat := 6
def tmpRestore : Nat := 7
def tmpHandback : Nat := 8
def tmpAbandon : Nat := 9
def tmpStuck : Nat := 10

/-- The claim register of the engine's spare chain and its two owners (R472). -/
def spareRes (e : Eng) : Fin 37 := ⟨29 + e.val, by omega⟩
def idTemper (e : Eng) : Nat := 0x18 + e.val
def idEsq (e : Eng) : Nat := 0x08 + e.val

/-- A session is in progress. -/
def tmpActive (s : State) (e : Eng) : Bool := s.get (TMP_STAT.STATE e) != tmpIdle

/-- The chain a target calibrates: CH<k>, or CH4 for the spare. -/
def targetChain (t : Nat) : Chn := if h : t < 4 then ⟨t, by omega⟩ else 4

/-- The calibration registers of a chain (R168). -/
def calRegs (e : Eng) (c : Nat) : List Reg :=
  [AGC_GAIN.reg e c, AGC_OFFS.reg e c, RED.reg e c]
    ++ ((List.range 4).flatMap fun j => (List.range 7).map fun t => XT_TAP.reg e c j t)
    ++ ((List.range 15).map fun i => EQ_TAP.reg e c i) ++ ((List.range 15).map fun i => EQ_ALT.reg e c i)

/-- The shadow registers of an ADC (R162). -/
def adcRegs (e : Eng) (a : Nat) : List Reg := TMP_ADCMAP.reg e a :: (List.range 10).map fun i => TMP_ADCTRIM.reg e a i

/-- What a session saves: the target's chain, its ADC, and CH4 with its timing loop (R165). -/
def savedRegs (e : Eng) (t : Nat) : List Reg :=
  calRegs e (targetChain t) ++ [TR_CFG.reg e (targetChain t)] ++ adcRegs e (targetChain t)
    ++ (if t < 4 then calRegs e 4 ++ [TR_CFG.reg e 4] else [])

/-- AGC, XT_TAP, EQ_TAP, TR_CFG and RED of one chain are copied into CH4 (R165). -/
def copyToSpare (e : Eng) (c : Nat) (s : State) : State :=
  let s := (s.wr (AGC_GAIN.reg e 4) (s.rd (AGC_GAIN.reg e c))).wr (AGC_OFFS.reg e 4) (s.rd (AGC_OFFS.reg e c))
  let s := (s.wr (RED.reg e 4) (s.rd (RED.reg e c))).wr (TR_CFG.reg e 4) (s.rd (TR_CFG.reg e c))
  let s := (List.range 4).foldl (fun s j => (List.range 7).foldl (fun s t => s.wr (XT_TAP.reg e 4 j t) (s.rd (XT_TAP.reg e c j t))) s) s
  (List.range 15).foldl (fun s i => s.wr (EQ_TAP.reg e 4 i) (s.rd (EQ_TAP.reg e c i))) s

/-- The shadow of one ADC goes to the ILH-F5 (R162). -/
def sendAdc (e : Eng) (a : Nat) (s : State) : State :=
  let s := sendTrim e a 0x01 (s.get (TMP_ADCMAP.MAP e a)) s
  (List.range 10).foldl (fun s i =>
    sendTrim e a (0x20 + i) (s.get (TMP_ADCTRIM.GAIN e a i)) (sendTrim e a (0x10 + i) (s.get (TMP_ADCTRIM.OFFS e a i)) s)) s

/-- A register a session can save: gain, offset, TR_CFG, taps and RED of the engine's chains, and its ADC shadow (R162, R165). -/
def savable (e : Eng) (r : Reg) : Bool :=
  decide (r.i = e.val)
    && ((r.blk == .ch && (decide (0x14 ≤ r.off ∧ r.off < 0x24) || decide (0x40 ≤ r.off ∧ r.off < 0x140) || r.off == 0x178))
      || (r.blk == .eng && decide (0x6100 ≤ r.off) && decide (r.off < 0x6800)))

/-- The session-start values are put back, here and at the ILH-F5 (R65, R156, R165). -/
def tmpPutBack (e : Eng) (s : State) : State :=
  let s := s.eng[e].tmp.saved.foldl (fun s x => if savable e x.1 then s.wr x.1 x.2 else s) s
  sendAdc e (targetChain (s.get (TMP_STAT.TARGET e))) s

/-- The claim of the spare chain passes to a waiting ladder, or is free (R156, R473). -/
def spareRelease (e : Eng) (s : State) : State :=
  let s := s.put (CLAIM_RES.OWNER (spareRes e)) (if s.isSet (CLAIM_RES.PEND (spareRes e)) then idEsq e else 0x3F)
  s.put (CLAIM_RES.PEND (spareRes e)) 0

/-- DELIV names another spot, or none: the seam hold goes with the delivery (R106, R158). -/
def delivSet (e : Eng) (v : Nat) (s : State) : State :=
  let d := s.get (TMP_STAT.DELIV e)
  let s := if d < 4 then holdMove e 4 (targetChain d) s else s
  let s := if v < 4 then holdMove e (targetChain v) 4 s else s
  s.put (TMP_STAT.DELIV e) v

/-- The session ends: DELIV = 4, ADC4 off, CH4.SPOT = 4, the claim released, IDLE (R165). -/
def tmpFinish (e : Eng) (s : State) : State :=
  let s := (delivSet e 4 s).put (CH_CTRL.SPOT e 4) 4
  let s := spareRelease e (sendSpare e 4 s)
  (s.put (TMP_STAT.STATE e) tmpIdle).modTmp e fun t => { t with run1 := [], run2 := [], saved := [], forced := false, straddle := false }

/-- A session ends in ABANDON with a result code: values put back, and a forced hand-back at the next sync boundary if
CH4 delivers a spot, at once in seam hold or with `now`; a session that is ending already waits on (R156, R160, R165). -/
def tmpAbandonWith (e : Eng) (res : Nat) (now : Bool) (s : State) : State :=
  if s.get (TMP_STAT.STATE e) = tmpAbandon then (if now then tmpFinish e s else s)
  else if tmpActive s e then
    let s := (s.inc (TMP_CNT.ENDED e)).put (TMP_STAT.LAST_RES e) res
    let s := tmpPutBack e s
    if s.get (TMP_STAT.DELIV e) = 4 ∨ now = true ∨ s.eng[e].ch[(4 : Fin 5)].seamHold = true then tmpFinish e s
    else (s.put (TMP_STAT.STATE e) tmpAbandon).modTmp e fun t => { t with forced := true }
  else s

/-- The claim of the spare chain by the Temper block: granted when free, else counted as denied (R156, R473). -/
def spareFree (s : State) (e : Eng) : Bool := s.get (CLAIM_RES.OWNER (spareRes e)) == 0x3F

/-- A denied claim (R473). -/
def claimDeny (r : Fin 37) (id : Nat) (s : State) : State := (s.inc (CLAIM_RES.DENIED r)).put (CLAIM_RES.LAST_REQ r) id

/-- The conditions of a session but the claim's (R164). -/
def tmpStartOk (s : State) (e : Eng) (t : Nat) : Bool :=
  let k : Nat := if t < 4 then t else 0
  s.get (HL_STAT.STATE e) == hlUp && s.get (WR_STAT.STATE e) == wrIdle && s.get (CH_STAT.FLY_STATE e k) == 1
    && s.isSet (CH_STAT.AGC_OK e k)

/-- CLAIM and SHADOW: values saved and copied, ADC4 switched on, CH4 placed (R165). -/
def tmpBegin (e : Eng) (t : Nat) (s : State) : State :=
  let s := (s.put (CLAIM_RES.OWNER (spareRes e)) (idTemper e)).put (TMP_STAT.TARGET e) t
  let s := s.modTmp e fun x => { x with saved := (savedRegs e t).map fun r => (r, s.rd r), run1 := [], run2 := [], forced := false
                                        retry := false, straddle := false }
  let k := if t < 4 then t else 0
  let s := copyToSpare e k s
  let s := (sendSpare e k s).put (CH_CTRL.SPOT e 4) k
  s.put (TMP_STAT.STATE e) tmpShadow

/-- A start on a target: discarded in a session; refused with START_REJ if R164 fails or the claim is denied; a periodic
one is then retried (R156, R164, R167). -/
def tmpTry (e : Eng) (t : Nat) (periodic : Bool) (s : State) : State :=
  if tmpActive s e then s
  else if tmpStartOk s e t && spareFree s e then
    let s := if periodic then s.modTmp e fun x => { x with rotation := (t + 1) % 5 } else s
    tmpBegin e t s
  else
    let s := if tmpStartOk s e t then claimDeny (spareRes e) (idTemper e) s else s
    let s := s.raise (TMP_EVT.START_REJ e)
    if periodic || (tmpStartOk s e t) then s.modTmp e fun x => { x with retry := true, retryTarget := t } else s

/-- TMP_CTRL.TARGET, 5-7 taken as 4 (R170). -/
def tmpTarget (s : State) (e : Eng) : Nat := min 4 (s.get (TMP_CTRL.TARGET e))

/-- The slice maps with exactly 8 of the 10 slices in use (R161). -/
def sliceMaps : List Nat := (List.range 1024).filter fun m => popcount 10 m == 8

/-- The slice map of trial 0, the map in force, 1 or 2 (R161, R165, log 15). -/
def trialMap (cur : BitVec 10) (i : Nat) : BitVec 10 :=
  if i = 0 then cur else BitVec.ofNat 10 (sliceMaps[Config.sliceMap i cur % sliceMaps.length]?.getD cur.toNat)

/-- A trial window begins: windows 0-2 try a slice map at the ILH-F5, 3-6 an IPH_SET, 7-10 an EQM_SET (R162, R165). -/
def trialOn (e : Eng) (w : Nat) (s : State) : State :=
  let a := targetChain (s.get (TMP_STAT.TARGET e))
  if w < 3 then sendTrim e a 0x01 (trialMap (BitVec.ofNat 10 (s.get (TMP_ADCMAP.MAP e a))) w).toNat s
  else if w < 7 then s.put (RED.IPH_SET e a) (w - 3)
  else s.put (RED.EQM_SET e a) (w - 7)

/-- A trial window ends: the working set is back, at the ILH-F5 and in RED (R162, R165). -/
def trialOff (e : Eng) (w : Nat) (s : State) : State :=
  let a := targetChain (s.get (TMP_STAT.TARGET e))
  if w < 3 then sendTrim e a 0x01 (s.get (TMP_ADCMAP.MAP e a)) s
  else match s.eng[e].tmp.saved.find? fun x => x.1 == RED.reg e a with
    | some x => s.wr (RED.reg e a) x.2
    | none => s

/-- CALIB begins with the first trial window (R165). -/
def calibStart (e : Eng) (s : State) : State := trialOn e 0 (s.put (TMP_STAT.STATE e) tmpCalib)

/-- TEMPER_MATCH: MATCH_N identical frames advance the session (R160, R165). -/
def tmpMatch (e : Eng) (s : State) : State :=
  let st := s.get (TMP_STAT.STATE e)
  let t := s.get (TMP_STAT.TARGET e)
  if st = tmpShadow then (if t < 4 then s.put (TMP_STAT.STATE e) tmpTakeover else calibStart e s)
  else if st = tmpVerify ∨ st = tmpRestore then
    if t < 4 then s.put (TMP_STAT.STATE e) tmpHandback
    else tmpFinish e (s.raise (TMP_EVT.DONE e))
  else s

/-- A sync boundary of two chains: both LOCKED on an accepted mark of the same frame, outside seam hold (R159). -/
def syncBoundary (s : State) (e : Eng) (a b : Chn) : Bool :=
  let x := s.eng[e].ch[a]
  let y := s.eng[e].ch[b]
  s.get (CH_STAT.FLY_STATE e a) == flyLocked && s.get (CH_STAT.FLY_STATE e b) == flyLocked && !x.seamHold && !y.seamHold
    && x.frame == y.frame && x.marks.getLast? == some x.frame && y.marks.getLast? == some y.frame

/-- Flags of a cluster of which another chain has the frames before `f`: `po` and `pi` are the positions of that frame's mark in the two
chains (R160). -/
def splice (o i : ClFlags) (f po pi : Nat) : ClFlags :=
  let low (xs : List Nat) : List Nat := (xs.filter fun x => decide (x < po)).map fun x => x + pi - po
  let high (xs : List Nat) : List Nat := xs.filter fun x => decide (pi ≤ x)
  let frames (a b : List Nat) : List Nat := (a.filter fun x => decide (x < f)) ++ b.filter fun x => decide (f ≤ x)
  { at_ := ((o.at_.filter fun x => decide (x.1 < f)).map fun x => (x.1, x.2 + pi - po)) ++ i.at_.filter fun x => decide (f ≤ x.1)
    er := high i.er ++ low o.er, unrel := high i.unrel ++ low o.unrel
    whole2 := frames o.whole2 i.whole2, last2 := frames o.last2 i.last2, insAt := frames o.insAt i.insAt
    slip := o.slip || i.slip, drop := i.drop }

/-- The delivery of spot `j` passes from chain `a` to chain `b` at this mark: a whole cluster that straddles it stays with `a`, and `b`
does not deliver it; a part of one goes on with what `a` has of it (R160). -/
def straddle (e : Eng) (a b : Chn) (j : Nat) (s : State) : State :=
  let x := s.eng[e].ch[a]
  let whole := decide (x.obs = .whole ∧ x.frame ≠ 0)
  let s := if whole then s.modTmp e fun t => { t with outgoing := some (a, j), incoming := some (b, x.frame) } else s
  let s := s.modCh e b fun c => { c with
    cur := { splice x.cur c.cur x.frame x.mark c.mark with drop := whole }
    obs := x.obs, marks := x.marks, addr := x.addr, entry := x.entry
    bits := (c.bits.filter fun y => decide (c.mark ≤ y.1)) ++ (x.bits.filter fun y => decide (y.1 < x.mark)).map fun y => (y.1 + c.mark - x.mark, y.2) }
  s.modCh e a fun c => { c with entry := none, obs := if c.obs = .tail then .none else c.obs }

/-- SPOT_HANDOVER: at a sync boundary the delivering chain changes: take-over, hand-back, or a forced hand-back (R159, R160, R165).
`claim`: a ladder claim of the spare chain registers in the same cycle (R157). -/
def tmpHandover (e : Eng) (claim : Bool) (s : State) : State :=
  let st := s.get (TMP_STAT.STATE e)
  let t := s.get (TMP_STAT.TARGET e)
  let k := targetChain t
  if syncBoundary s e k 4 = false then s
  else if st = tmpTakeover ∧ s.get (TMP_STAT.DELIV e) = 4 then
    let s := straddle e k 4 t ((delivSet e t s).raise (TMP_EVT.TAKEOVER e))
    if s.eng[e].tmp.outgoing.isSome then s.modTmp e fun x => { x with straddle := true } else calibStart e s
  else if st = tmpHandback then
    let s := if claim then s.put (CLAIM_RES.PEND (spareRes e)) 1 else s
    tmpFinish e (straddle e 4 k t (s.raise (TMP_EVT.DONE e)))
  else if s.eng[e].tmp.forced then tmpFinish e (straddle e 4 k t s)
  else s

/-- The straddling cluster has been delivered: CALIB (R165). -/
def tmpStraddleDone (e : Eng) (k : Chn) (s : State) : State :=
  if s.eng[e].tmp.straddle && s.eng[e].tmp.outgoing.isNone && decide (k = targetChain (s.get (TMP_STAT.TARGET e)))
      && s.get (TMP_STAT.STATE e) == tmpTakeover then
    (calibStart e s).modTmp e fun x => { x with straddle := false }
  else s

/-- TEMPER_CONV_LIMIT: CONV_MAX frames without a match abandon, restore or enter STUCK (R165). -/
def tmpConvLimit (e : Eng) (s : State) : State :=
  let st := s.get (TMP_STAT.STATE e)
  if st = tmpShadow then tmpAbandonWith e 5 false s
  else if st = tmpVerify then (tmpPutBack e s).put (TMP_STAT.STATE e) tmpRestore
  else if st = tmpRestore then
    let s := ((s.put (TMP_STAT.STATE e) tmpStuck).put (TMP_STAT.LAST_RES e) 8).raise (TMP_EVT.STUCK e)
    (s.report (.temperStuck e)).logEvent .temperStuck [e.val, s.get (TMP_STAT.TARGET e)]
  else s

/-- The number of the first trial with the least error. -/
def bestTrial (ws : List WindowResult) : Nat :=
  (ws.foldl (fun (acc : Nat × Nat × Nat) w =>
    if w.mse.toNat < acc.2.1 then (acc.2.2, w.mse.toNat, acc.2.2 + 1) else (acc.1, acc.2.1, acc.2.2 + 1)) (0, 65536, 0)).1

/-- The choice of a run: slice-map trial, IPH_SET, EQM_SET (R165). -/
def runChoice (ws : List WindowResult) : Nat × Nat × Nat :=
  (bestTrial (ws.take 3), bestTrial ((ws.drop 3).take 4), bestTrial ((ws.drop 7).take 4))

/-- The offset of a slice: the mean of its plateaus against the signal's centre, 1/64 LSB (R163, log 91). -/
def sliceOffs (w : WindowResult) (i : Fin 10) : BitVec 16 :=
  BitVec.ofInt 16 (clampInt (-32768) 32767 (divFree (w.pos[i] + w.neg[i] - 2 * w.centre) 2))

/-- The gain of a slice: its plateau-to-plateau span against the mean over the slices in use, as a deviation from 1.0 in 2^-14 (R163,
log 91). -/
def sliceGain (map : BitVec 10) (w : WindowResult) (i : Fin 10) : BitVec 16 :=
  let sum := (List.finRange 10).foldl (fun (n : Int) (j : Fin 10) => if map.getLsbD j.val then n + (w.pos[j] - w.neg[j]) else n) 0
  let n : Int := popcount 10 map.toNat
  BitVec.ofInt 16 (clampInt (-32768) 32767 (divFree ((w.pos[i] - w.neg[i]) * n * 2 ^ 14) sum - 2 ^ 14))

/-- Two measured numbers differ by at most a tolerance. -/
def within (a b : BitVec 16) (tol : Nat) : Bool := decide ((a.toInt - b.toInt).natAbs ≤ tol)

/-- The first two tests of R166: the same choice, and offsets and gains that agree for every slice of the map. -/
def runsAgree (s : State) (e : Eng) (a : Nat) (r1 r2 : List WindowResult) : Bool :=
  let c := runChoice r1
  let map := trialMap (BitVec.ofNat 10 (s.get (TMP_ADCMAP.MAP e a))) c.1
  c == runChoice r2 &&
    match r1[c.1]?, r2[c.1]? with
    | some w1, some w2 => (List.finRange 10).all fun i =>
        !map.getLsbD i.val
          || (within (sliceOffs w1 i) (sliceOffs w2 i) (s.get (TMP_TOL.OFFS e)) && within (sliceGain map w1 i) (sliceGain map w2 i) (s.get (TMP_TOL.GAIN e)))
    | _, _ => false

/-- The third test: the new set's error is at most (1 + MSE_MARGIN / 64) times the session-start set's (R166). -/
def notWorse (s : State) (e : Eng) (w : WindowResult) : Bool :=
  decide (w.newMse.toNat * 64 ≤ (64 + s.get (TMP_TOL.MSE_MARGIN e)) * w.oldMse.toNat)

/-- An accepted result is applied: selections, the mean of the runs' trims, RED, TMP_MSE, GEN (R166). -/
def tmpApply (e : Eng) (a : Chn) (r1 r2 : List WindowResult) (last : WindowResult) (s : State) : State :=
  let c := runChoice r1
  let map := trialMap (BitVec.ofNat 10 (s.get (TMP_ADCMAP.MAP e a))) c.1
  let s := s.put (TMP_ADCMAP.MAP e a) map.toNat
  let s := match r1[c.1]?, r2[c.1]? with
    | some w1, some w2 => (List.finRange 10).foldl (fun (s : State) (i : Fin 10) =>
        if map.getLsbD i.val then
          (s.putInt (TMP_ADCTRIM.OFFS e a i) (divFree ((sliceOffs w1 i).toInt + (sliceOffs w2 i).toInt) 2)).putInt (TMP_ADCTRIM.GAIN e a i)
            (divFree ((sliceGain map w1 i).toInt + (sliceGain map w2 i).toInt) 2)
        else s) s
    | _, _ => s
  let s := (s.put (RED.IPH_SET e a) c.2.1).put (RED.EQM_SET e a) c.2.2
  let s := (s.put (TMP_MSE.MSE e a) last.newMse.toNat).incWrap (TMP_STAT.GEN e)
  sendAdc e a ((s.inc (TMP_CNT.ACCEPTED e)).put (TMP_STAT.LAST_RES e) 1)

/-- TEMPER_ACCEPT: after run 2 the result is accepted or rejected (R166). -/
def tmpAccept (e : Eng) (last : WindowResult) (s : State) : State :=
  let a := targetChain (s.get (TMP_STAT.TARGET e))
  let x := s.eng[e].tmp
  if runsAgree s e a x.run1 x.run2 && notWorse s e last then
    (tmpApply e a x.run1 x.run2 last s).put (TMP_STAT.STATE e) tmpVerify
  else
    let res := if runsAgree s e a x.run1 x.run2 then 3 else 2
    let s := (s.put (TMP_STAT.LAST_RES e) res).inc (TMP_CNT.REJECTED e)
    (tmpPutBack e s).put (TMP_STAT.STATE e) tmpRestore

/-- TEMPER_WINDOW_DONE: a trial window ends, the working set is back, and the next trial, run or decision follows (R165). -/
def tmpWindow (e : Eng) (w : WindowResult) (s : State) : State :=
  let st := s.get (TMP_STAT.STATE e)
  if st = tmpCalib then
    let n := s.eng[e].tmp.run1.length
    let s := (trialOff e n s).modTmp e fun x => { x with run1 := x.run1 ++ [w] }
    if 11 ≤ n + 1 then trialOn e 0 (s.put (TMP_STAT.STATE e) tmpRepeat) else trialOn e (n + 1) s
  else if st = tmpRepeat then
    let n := s.eng[e].tmp.run2.length
    let s := (trialOff e n s).modTmp e fun x => { x with run2 := x.run2 ++ [w] }
    if 11 ≤ n + 1 then tmpAccept e w s else trialOn e (n + 1) s
  else s

/-- TMP_ABORT: ABANDON with ABORTED, or out of STUCK by a forced hand-back (R165). -/
def tmpAbortOp (e : Eng) (s : State) : State := tmpAbandonWith e 7 false s

/-- A ladder claim preempts Temper; the claim waits in PEND until the hand-back, once (R156, R473). -/
def tmpPreempt (e : Eng) (s : State) : State :=
  if s.isSet (CLAIM_RES.PEND (spareRes e)) then s else
  let t := s.get (TMP_STAT.TARGET e)
  let s := (s.put (CLAIM_RES.PEND (spareRes e)) 1).raise (TMP_EVT.PREEMPT e)
  let s := s.modTmp e fun x => { x with retry := true, retryTarget := t }
  tmpAbandonWith e 4 false s

/-- The spare chain is the ladder's after its claim: granted when free or already its own, else Temper is preempted and the
claim waits for the hand-back (R153, R156, R473). -/
def spareClaim (e : Eng) (s : State) : State :=
  let o := s.get (CLAIM_RES.OWNER (spareRes e))
  if o = idEsq e then s
  else if o = 0x3F then s.put (CLAIM_RES.OWNER (spareRes e)) (idEsq e)
  else if o = idTemper e then tmpPreempt e s
  else claimDeny (spareRes e) (idEsq e) s

/-- A hand-over and a ladder claim of the same cycle: a hand-back that completes a session comes first, and any other claim is taken up
after the hand-over (R156, R157). -/
def handoverClaim (e : Eng) (claim : Bool) (s : State) : State :=
  let st := s.get (TMP_STAT.STATE e)
  let t := tmpHandover e claim s
  if claim && !(st == tmpHandback && t.get (TMP_STAT.STATE e) == tmpIdle) then spareClaim e t else t

/-- TEMPER_FREQ_MEASURE: samples counted over 2^20 cycles of 25 MHz, against the rate last sent, in 1/16 ppm (R163). -/
def tmpFreq (e : Eng) (count : Nat) (s : State) : State :=
  let nom : Int := s.get (HL_RATE.FW e) * 1728
  let v := divFree (((count : Int) * 400 - nom) * 16000000) nom
  let s := (s.putInt (TMP_FREQ.PPM e) (clampInt (-32768) 32767 v)).put (TMP_FREQ.VALID e) 1
  if 1600 < v.natAbs then s.raise (TMP_EVT.FREQ_ERR e) else s

/-- TMP_ADCMAP_WRITE: exactly 8 slices, no session active; sent as a TRIM entry (R161, R162, R167, R169). -/
def adcMapWrite (e : Eng) (a : Chn) (v : Word) (s : State) : State :=
  if tmpActive s e then s
  else if popcount 10 v.toNat = 8 then sendTrim e a 0x01 (v.toNat % 1024) (s.put (TMP_ADCMAP.MAP e a) v.toNat)
  else s.raise (TMP_EVT.BAD_WRITE e)

/-- TMP_ADCTRIM_WRITE: no session active; sent as TRIM entries (R161, R162, R167). -/
def adcTrimWrite (e : Eng) (a : Chn) (i : Fin 10) (v : Word) (s : State) : State :=
  if tmpActive s e then s
  else sendTrim e a (0x20 + i) (bits v 16 16) (sendTrim e a (0x10 + i) (bits v 0 16) (s.wr (TMP_ADCTRIM.reg e a i) v))

/-- TMP_CNT_CLR: TMP_CNT is cleared, an increment of the same cycle (ACCEPTED, REJECTED, ENDED) is kept (R170). -/
def tmpCntClear (e : Eng) (same : BitVec 3) (s : State) : State :=
  let s := s.wr (TMP_CNT.reg e) 0#32
  ((s.put (TMP_CNT.ACCEPTED e) (bits same 0 1)).put (TMP_CNT.REJECTED e) (bits same 1 1)).put (TMP_CNT.ENDED e) (bits same 2 1)

/-- TEMPER_PERIOD: with EN = 1 a session starts on the next target of the rotation (R164). -/
def execTemperPeriod (e : Eng) (s : State) : Outcome :=
  ok (if s.isSet (TMP_CTRL.EN e) then tmpTry e s.eng[e].tmp.rotation true s else s)
def execTmpStart (e : Eng) (s : State) : Outcome := ok (tmpTry e (tmpTarget s e) false s)
def execTmpAbort (e : Eng) (s : State) : Outcome := ok (tmpAbortOp e s)
def execTmpCntClr (e : Eng) (same : BitVec 3) (s : State) : Outcome := ok (tmpCntClear e same s)
/-- TEMPER_RETRY_DELAY: a preempted or refused session is tried again (R156, R164). -/
def execTemperRetryDelay (e : Eng) (s : State) : Outcome :=
  ok (if s.eng[e].tmp.retry then
        tmpTry e s.eng[e].tmp.retryTarget true (s.modTmp e fun x => { x with retry := false })
      else s)
def execTemperMatch (e : Eng) (s : State) : Outcome := ok (tmpMatch e s)
def execSpotHandover (e : Eng) (claim : Bool) (s : State) : Outcome := ok (handoverClaim e claim s)
def execTemperConvLimit (e : Eng) (s : State) : Outcome := ok (tmpConvLimit e s)
def execTemperWindowDone (e : Eng) (w : WindowResult) (s : State) : Outcome := ok (tmpWindow e w s)
def execTemperFreqMeasure (e : Eng) (count : Nat) (s : State) : Outcome := ok (tmpFreq e count s)
def execTmpAdcmapWrite (e : Eng) (a : Chn) (v : Word) (s : State) : Outcome := ok (adcMapWrite e a v s)
def execTmpAdctrimWrite (e : Eng) (a : Chn) (i : Fin 10) (v : Word) (s : State) : Outcome := ok (adcTrimWrite e a i v s)

end Sys2Proof.Machine
end

