-- ==== Sys2Proof/Machine/LadderRun.lean ====
section
/-! DEFINITION. Attempts of the retry ladder: what a rung changes, the run, the replay, the end of the attempt, SKIP (R149-R156). -/
namespace Sys2Proof.Machine

/-- The other spots, nearest to `j` first, lower number first on a tie (R151). -/
def otherSpots (j : Nat) : List Nat :=
  match j with
  | 0 => [1, 2, 3]
  | 1 => [0, 2, 3]
  | 2 => [1, 3, 0]
  | _ => [2, 1, 0]

/-- The spot of an attempt: at rung 5 the other spots in turn, else the original one (R150, R151). -/
def attemptSpot (i : LadderItem) : Nat := if i.rung = 5 then (otherSpots i.spot)[i.attempt]?.getD i.spot else i.spot

/-- The rung uses the spare chain (R151). -/
def rungSpare (r : Nat) : Bool := r == 4 || r == 6

/-- ADC4 off, CH4 on no spot and out of replay mode, the claim released (R153). -/
def spareDone (e : Eng) (s : State) : State :=
  let s := ((sendSpare e 4 s).put (CH_CTRL.SPOT e 4) 4).put (CH_CTRL.REPLAY e 4) 0
  spareRelease e s

/-- A ramp's target, with DONE (R189). -/
def rampTarget (e : Eng) (r : Fin 8) (v : Int) (s : State) : State :=
  let s := s.putInt (ANV_RAMP_TGT.TARGET e r.val) v
  s.putBool (ANV_RAMP_CFG.DONE e r.val) (s.eng[e].anv.ramp[r].toNat == s.get (ANV_RAMP_TGT.TARGET e r.val))

/-- Rung 2: attempts at tracking set-point + and - TE_OFFS, then focus + and - FE_OFFS, as targets of ramps 1 and 0; a servo-word LSB is
2^12 of a port value (R46, R151, R152, R189). -/
def rungOffsets (e : Eng) (attempt : Nat) (s : State) : State :=
  let te : Int := s.get (RTY_OFFS.TE_OFFS e) * 4096
  let fe : Int := s.get (RTY_OFFS.FE_OFFS e) * 4096
  match attempt with
  | 0 => rampTarget e 1 te s
  | 1 => rampTarget e 1 (-te) s
  | 2 => rampTarget e 0 fe s
  | _ => rampTarget e 0 (-fe) s

/-- Rung 6 slows the spindle to SLOW_PCT of the speed in use, and notes the other waiting clusters of the zone, which are read at it too;
a zone is where ESQ<n> commands one speed (R151, R154, log 14). -/
def rungSlow (e : Eng) (c : ClAddr) (s : State) : State :=
  match s.eng[e].slow with
  | some _ => s
  | none =>
    let rpm := s.get (SPN_SPD.TARGET e)
    let same := s.eng[e].rty.filter fun i => i.addr.layer == c.layer && zoneSpeed s e i.addr == zoneSpeed s e c
    let s := s.modEng e fun g => { g with slow := some (rpm, same.map (·.addr)) }
    spnTarget e (divFree (rpm * slowPct s e) 100).toNat s

/-- The spare chain is set up for the capture's replay, and the capture armed on the reading chain (R153). -/
def spareSetup (e : Eng) (k : Chn) (c : ClAddr) (spot : Nat) (s : State) : State :=
  let s := (sendSpare e spot s).put (CH_CTRL.SPOT e 4) spot
  let s := (s.put (CH_CTRL.REPLAY e 4) 1).put (DEC_CFG.ITER_MAX e 4) (s.get (RTY_CFG.ITER e))
  capArm e k ((s.put (RPL_CLUSTER.CLUSTER e k) c.cluster.toNat).put (RPL_CLUSTER.LAYER e k) c.layer.toNat)

/-- The rung's change is made, and the attempt waits for its run (R151-R154). -/
def attemptBegin (e : Eng) (i : LadderItem) (s : State) : State :=
  let spot := attemptSpot i
  let k := delivering s e ⟨spot % 4, Nat.mod_lt _ (by decide)⟩
  let undo : List (Fld × Nat) :=
    if i.rung = 3 then [(CH_CTRL.ALT e k, s.get (CH_CTRL.ALT e k))]
    else if rungSpare i.rung then [(DEC_CFG.ITER_MAX e 4, s.get (DEC_CFG.ITER_MAX e 4))]
    else []
  let s := (s.put (RTY_STAT.RUNG e) i.rung).put (RTY_STAT.ATTEMPT e) i.attempt
  let s :=
    if i.rung = 2 then rungOffsets e i.attempt s
    else if i.rung = 3 then altNow e k (s.put (CH_CTRL.ALT e k) 1)
    else if rungSpare i.rung then spareSetup e k i.addr spot s
    else s
  let s := if i.rung = 6 then rungSlow e i.addr s else s
  s.modEng e fun g => { g with att := some ⟨i, spot, k, false, false, [], false, undo⟩ }

/-- The run may open: the pickup is on track and its position known, the ramps have ended at rung 2, the spindle has its speed after a change (R111, R152, R154, R213). -/
def attemptReady (s : State) (e : Eng) (a : Attempt) : Bool :=
  dmGet s e 0x7E5 == 3#24 && !s.isSet (SLD_STAT.LOST e) && !s.eng[e].loop.seekLost &&
  (a.item.rung != 2 || (s.isSet (ANV_RAMP_CFG.DONE e 0) && s.isSet (ANV_RAMP_CFG.DONE e 1)))
    && (s.eng[e].slow.isNone || s.isSet (SPN_STAT.AT_SPEED e))

/-- The run from RAS_FIRST to c opens: θS is the disc angle of c's run-in less 1.0°; for spot 0 c is the first cluster whose run-in
follows it on its own turn (R149). -/
def attemptOpen (e : Eng) (a : Attempt) (angle : Nat) (first : ClAddr) (s : State) : State :=
  let c := a.item.addr
  let first := if a.spot = 0 then c else first
  let s := s.put (SEAM_CFG.ANGLE e) ((angle + 3590) % 3600)
  let s := (s.put (RAS_FIRST.CLUSTER e) first.cluster.toNat).put (RAS_FIRST.LAYER e) first.layer.toNat
  let s := (s.put (RAS_LAST.CLUSTER e) c.cluster.toNat).put (RAS_LAST.LAYER e) c.layer.toNat
  if seamRunOk s e then
    ((seamStart e s).put (RTY_STAT.ACTIVE e) 1).modEng e fun g => { g with att := some { a with running := true } }
  else s

/-- LADDER_ATTEMPT: ESQ<n> attempts the next laddered cluster at its rung, once runs are idle and the ladder is not paused; a rung that
needs the spare chain claims it first, and waits for a preempted Temper session to hand back (R148, R149, R153). -/
def ladderAttemptOp (e : Eng) (angle : Nat) (first : ClAddr) (s : State) : State :=
  if ladderPaused s e || s.get (SEAM_STAT.STATE e) != seamIdle || s.get (WR_STAT.STATE e) != wrIdle then s
  else
    let s := match s.eng[e].att, ladderNext s e with
      | none, some i =>
        let s := if rungSpare i.rung then spareClaim e s else s
        if rungSpare i.rung && s.get (CLAIM_RES.OWNER (spareRes e)) != idEsq e then s else attemptBegin e i s
      | _, _ => s
    match s.eng[e].att with
    | some a => if !a.running && !a.replay && attemptReady s e a then attemptOpen e a angle first s else s
    | none => s

/-- What the rung changed is put back: offsets to 0, fields as they were, the capture disarmed, the spare chain released (R151-R153). -/
def attemptUndo (e : Eng) (a : Attempt) (s : State) : State :=
  let s := if a.item.rung = 2 then rampTarget e 0 0 (rampTarget e 1 0 s) else s
  let s := a.undo.foldl (fun (s : State) x =>
    if x.1 = CH_CTRL.ALT e a.chain then s.put (CH_CTRL.ALT e a.chain) x.2
    else if x.1 = DEC_CFG.ITER_MAX e 4 then s.put (DEC_CFG.ITER_MAX e 4) x.2 else s) s
  let s := if a.item.rung = 3 then altNow e a.chain s else s
  let s := if rungSpare a.item.rung then spareDone e (s.put (RPL_CTRL.CAP_ARM e a.chain) 0) else s
  (s.put (RTY_STAT.ACTIVE e) 0).modEng e fun g => { g with att := none }

/-- The speed of before rung 6 is restored once the clusters of the zone have been read at the lower one (R154). -/
def speedBack (e : Eng) (c : ClAddr) (s : State) : State :=
  match s.eng[e].slow with
  | none => s
  | some x =>
    let rest := x.2.filter fun a => a != c && s.eng[e].rty.any fun i => i.addr == a
    if rest = [] then spnTarget e x.1 (s.modEng e fun g => { g with slow := none })
    else s.modEng e fun g => { g with slow := some (x.1, rest) }

/-- The attempt has ended, with a result or without: an OK result wins over a SKIP, and its message records it; a SKIP sends the cluster
to rung 7; otherwise the ladder goes on (R148, R151, R155). -/
def attemptEnd (e : Eng) (a : Attempt) (got : Bool) (s : State) : State :=
  let c := a.item.addr
  let s := attemptUndo e a s
  let s :=
    if got then
      let s := if a.skip then { s with ladderMsgs := s.ladderMsgs ++ [{ e := e, addr := c, rung := a.item.rung, us := 0, got := true }] } else s
      ladderLeave e c a.item.rung s
    else if a.skip then ladderRung7 e c (ladderMessage e c 7 s)
    else ladderFail e a.item s
  speedBack e c s

/-- The run of an attempt has ended: other laddered clusters it read leave at their rung; a capture of a cluster it did not get is replayed
(R148, R149, R153). -/
def attemptRunEnd (e : Eng) (a : Attempt) (s : State) : State :=
  let got := a.read.contains a.item.addr
  let s := (s.eng[e].rty.filter fun j => j.addr != a.item.addr && a.read.contains j.addr).foldl (fun s j => ladderLeave e j.addr j.rung s) s
  if rungSpare a.item.rung && !got && !a.skip && s.isSet (RPL_CTRL.CAPTURED e a.chain) then
    (replayPlay e s).modEng e fun g => { g with att := some { a with running := false, replay := true } }
  else attemptEnd e a got s

/-- What an attempt does as its run proceeds: RUN = 0 when the run has opened; its end; the end of its replay (R149, R153). -/
def attemptFollow (e : Eng) (s : State) : State :=
  match s.eng[e].att with
  | none => s
  | some a =>
    if a.replay then
      if s.isSet (CH_STAT.REPLAY_BUSY e 4) then s
      else attemptEnd e a (s.isSet (DEC_STAT.OK e 4) && s.rd (DEC_ADDR.reg e 4) == clWord a.item.addr true) s
    else if a.running then
      if s.get (SEAM_STAT.STATE e) = seamIdle then attemptRunEnd e a s
      else if s.get (SEAM_STAT.STATE e) = seamOpening ∧ s.isSet (SEAM_EVT.OPENED e) ∧ s.isSet (SEAM_STAT.IN_WIN e) then seamStop e s
      else s
    else s

/-- A pause of the ladder: the attempt in progress ends without a result and is repeated later (R148). -/
def attemptVoid (e : Eng) (s : State) : State :=
  match s.eng[e].att with
  | none => s
  | some a => attemptUndo e a ((seamStop e s).put (CH_STAT.REPLAY_BUSY e 4) (if a.replay then 0 else s.get (CH_STAT.REPLAY_BUSY e 4)))

/-- LADDER_SKIP: at the end of the attempt in progress, or at once, a cluster of the ladder goes to rung 7 (R155). -/
def ladderSkipOp (e : Eng) (c : ClAddr) (s : State) : State :=
  if s.eng[e].rty.any fun i => i.addr == c then
    match s.eng[e].att with
    | some a => if a.item.addr = c then s.modEng e fun g => { g with att := some { a with skip := true } }
      else ladderRung7 e c (ladderMessage e c 7 s)
    | none => ladderRung7 e c (ladderMessage e c 7 s)
  else s

end Sys2Proof.Machine
end

