-- ==== Sys2Proof/Machine/Operands.lean ====
section
/-! DEFINITION. The operand forms of Anvil instructions: direct, indexed with post-increment, port (R183). -/
namespace Sys2Proof.Machine

/-- A decoded 12-bit operand. -/
inductive AnvOp
  | mem (a : Nat)                       -- direct
  | idx (i : Fin 4) (post : Bool) (off : Nat)
  | servo (p : Fin 16)
  | readback (q : Fin 8)
  | internal (p : Fin 16)
  | none                                -- class 3, reads 0
deriving DecidableEq, Repr

/-- The operand a field spells (R183). -/
def anvOp (f : BitVec 12) : AnvOp :=
  if f.getLsbD 11 = false then .mem (bits f 0 11)
  else if f.getLsbD 10 = false then .idx ⟨bits f 8 2, Nat.mod_lt _ (by decide)⟩ (f.getLsbD 7) (bits f 0 7)
  else match bits f 4 2 with
    | 0 => .servo ⟨bits f 0 4, Nat.mod_lt _ (by decide)⟩
    | 1 => .readback ⟨bits f 0 3, Nat.mod_lt _ (by decide)⟩
    | 2 => .internal ⟨bits f 0 4, Nat.mod_lt _ (by decide)⟩
    | _ => .none

/-- The data-memory address of an operand, none for a port. -/
def opAddr (s : State) (e : Eng) (f : BitVec 12) : Option Nat :=
  match anvOp f with
  | .mem a => some a
  | .idx i _ off => some ((s.eng[e].anv.ix[i].toNat + off) % 2048)
  | _ => .none

/-- The mantissa of an operand. -/
def opMant (s : State) (e : Eng) (f : BitVec 12) : Int :=
  match anvOp f with
  | .mem a => (dmGet s e a).toInt
  | .idx i _ off => (dmGet s e ((s.eng[e].anv.ix[i].toNat + off) % 2048)).toInt
  | .servo p => s.eng[e].anv.snap[p].toInt
  | .readback q => s.eng[e].anv.port[q].toInt
  | .internal p => s.eng[e].anv.intn[p].toInt
  | .none => 0

/-- The exponent of an operand: 0 for every port (R179). -/
def opExp (s : State) (e : Eng) (f : BitVec 12) : Int :=
  match opAddr s e f with
  | some a => dmExp s e a
  | none => 0

/-- Post-increment of an operand's index register (R183). -/
def opBump (e : Eng) (f : BitVec 12) (s : State) : State :=
  match anvOp f with
  | .idx i true _ => s.modAnv e fun n => { n with ix := n.ix.set i (n.ix[i] + 1#11) }
  | _ => s

/-- The operand names a port, which no instruction may have as its destination (R183). -/
def opIsPort (f : BitVec 12) : Bool :=
  match anvOp f with
  | .mem _ => false
  | .idx .. => false
  | _ => true

end Sys2Proof.Machine
end

