-- ==== Sys2Proof/Machine/Servo.lean ====
section
/-! DEFINITION. Focus, tracking, jumps and seeks: the loop command words and the answers of a Beyfoar loop program, loop faults
and their recovery, a lost sled position (R199-R209, R212, R213). -/
namespace Sys2Proof.Machine

/-- A command word in data memory (R199). -/
def loopWord (s : State) (e : Eng) (a : Nat) : Int := (dmGet s e a).toInt

/-- LOOP_ST as the program shows it. -/
def loopSt (s : State) (e : Eng) : Nat := (dmGet s e 0x7E5).toNat

/-- The program's LOOP_ST. -/
def loopSetSt (e : Eng) (v : Nat) (s : State) : State := dmSet e 0x7E5 (BitVec.ofNat 24 v) s

/-- ESQ<n> writes CMD_OP, CMD_ARG, then CMD_SEQ = ACK_SEQ + 1 (R200). -/
def loopIssue (e : Eng) (op : Nat) (arg : Int) (s : State) : State :=
  dmSet e 0x7E0 (dmGet s e 0x7E3 + 1#24) (dmSet e 0x7E2 (BitVec.ofInt 24 arg) (dmSet e 0x7E1 (BitVec.ofNat 24 op) s))

/-- The program finishes: ACK_RES, then ACK_SEQ (R200). -/
def loopAck (e : Eng) (res : Nat) (s : State) : State :=
  dmSet e 0x7E3 (dmGet s e 0x7E0) (dmSet e 0x7E4 (BitVec.ofNat 24 res) s)

/-- ESQ<n> may write a command: the last one is answered, and the seam block and the write path are idle (R200, R202). -/
def loopMay (s : State) (e : Eng) : Bool :=
  dmGet s e 0x7E0 == dmGet s e 0x7E3 && s.get (SEAM_STAT.STATE e) == seamIdle && s.get (WR_STAT.STATE e) == wrIdle

/-- The program's value on a port, as the actuator words carry it. -/
def portPut (e : Eng) (q : Fin 8) (v : Word24) (s : State) : State :=
  (s.modAnv e fun n => { n with port := n.port.set q v }).put (ANV_PORT.VALUE e q.val) v.toNat

/-- Port 0 at the focus SAFE value (R199, R201). -/
def focusSafe (e : Eng) (s : State) : State := portPut e 0 (BitVec.ofNat 24 (s.get (ANV_SAFE.SAFE e 0) * 1024)) s

/-- The element of spherical aberration moves to SA_TGT on port 3 (R203, R207). -/
def saMove (e : Eng) (s : State) : State := portPut e 3 (dmGet s e 0x7D8) s

/-- A ramp's current value, shown in data memory, with DONE (R189). -/
def rampPut (e : Eng) (r : Fin 8) (v : Word24) (s : State) : State :=
  let s := s.modAnv e fun n => { n with ramp := n.ramp.set r v }
  (dmSet e (0x7F0 + r.val) v s).putBool (ANV_RAMP_CFG.DONE e r.val) (v.toNat == s.get (ANV_RAMP_TGT.TARGET e r.val))

/-- RINIT of a ramp: CUR is this tick's snapshot of input SRC (R189). -/
def rampRestart (e : Eng) (r : Fin 8) (s : State) : State :=
  let p : Fin 16 := ⟨s.get (ANV_RAMP_CFG.SRC e r.val) % 16, Nat.mod_lt _ (by decide)⟩
  rampPut e r s.eng[e].anv.snap[p] s

/-- ESQ<n> sets a ramp, before the command, to start at input `src` and run to 0 (R203, R204). -/
def closeRamp (e : Eng) (r : Fin 8) (src : Nat) (s : State) : State := rampTarget e r 0 (s.put (ANV_RAMP_CFG.SRC e r.val) src)

/-- The program's answer to a command it does not accept: REJECTED with SREQ = 1, a bad argument or a wrong state (R202). -/
def loopReject (e : Eng) (s : State) : State := loopAck e 1 s

/-- RETRACT: accepted in every state, with SREQ = 1 as well, ends a command in progress (R201, R202, log 80). -/
def loopRetract (e : Eng) (s : State) : State :=
  let s := loopIssue e 6 0 s
  if s.isSet (ANV_STAT.RUNNING e) then loopAck e 0 (loopSetSt e 0 (focusSafe e s)) else s

/-- A write or OPC run is under way. -/
def writing (s : State) (e : Eng) : Bool := s.get (WR_STAT.STATE e) != wrIdle

/-- ENGINE_LOOP_FAILURE: focus retracted, spindle stopped (coasting with CHOP_FAULT), sled parked, the engine out of
placement, the ladder emptied (R148, R208, R270). -/
def engineFail (e : Eng) (s : State) : State :=
  let s := loopRetract e s
  let s := if s.isSet (BRK_STAT.CHOP_FAULT (busOf e)) then spnCoastOp e s else spnTarget e 0 s
  let s := slgEn e false s
  let s := if sldRest s e then s else sldStop e s
  let s := sldParkOp e s
  let s := s.modLoop e fun l => { l with down := true, fault := 0, fails := [] }
  let s := ladderDrop e (attemptVoid e s)
  note (.engineOut e) (s.report (.loopFailure e))

/-- A recovery failed: three within 10 s take the engine down (R208). -/
def recoveryFailed (e : Eng) (s : State) : State :=
  let fs := s.us :: s.eng[e].loop.fails.filter fun t => decide (s.us < t + 10000000)
  let s := s.modLoop e fun l => { l with fails := fs }
  if 3 ≤ fs.length then engineFail e s else s

/-- A loop fault of a rank (1 strongest): any run is closed, a write ended by a laser-off request, and a recovery under way
fails; the stronger fault is recovered, and the ladder pauses (R148, R208, R209). -/
def loopFault (e : Eng) (rank : Nat) (s : State) : State :=
  let s := attemptVoid e (seamStop e s)
  let s := if writing s e then wrAbort e true (laserOff e s) else s
  let old := s.eng[e].loop.fault
  let s := s.modLoop e fun l => { l with fault := if old = 0 then rank else min old rank }
  if old = 0 then s else recoveryFailed e s

/-- The program loses focus: FOCUS_LOST, tracking open, port 0 to SAFE (R208). -/
def focusLostOp (e : Eng) (rank : Nat) (s : State) : State := loopFault e rank (loopSetSt e 6 (focusSafe e s))

/-- The program loses tracking: TRACK_LOST, focus kept (R208). -/
def trackLostOp (e : Eng) (s : State) : State := loopFault e 4 (loopSetSt e 7 s)

/-- A command ended by a loss answers FOCUS_LOST or TRACK_LOST (R199). -/
def loopLoss (e : Eng) (l : LoopLoss) (s : State) : State :=
  match l with
  | .focus => focusLostOp e 3 (loopAck e 3 s)
  | .track => trackLostOp e (loopAck e 4 s)

/-- A command goes to the program, which answers while it runs: `accept` says whether it takes it, `run` what it does. -/
def loopCommand (e : Eng) (op : Nat) (arg : Int) (accept : Bool) (run : State → State) (s : State) : State :=
  let s := loopIssue e op arg s
  if s.isSet (ANV_STAT.RUNNING e) then
    if accept && !s.eng[e].anv.sreq then run s else loopReject e s
  else s

/-- FOCUS_SEARCH is permitted: link, laser, spindle within 5 % of its commanded speed, and at most three attempts that fail on one disc;
the count starts again with a disc, a search that finds its layer, or the sled at its end stop (R203, R213). -/
def searchMay (s : State) (e : Eng) : Bool :=
  loopMay s e && linkUp s e && s.isSet (WR_CTRL.LASER_EN e) && decide (s.eng[e].loop.searches < 3)
    && decide (20 * (s.getInt (SPN_SPEED.OBS e) - s.get (SPN_SPD.TARGET e)).natAbs ≤ s.get (SPN_SPD.TARGET e))

/-- NOT_FOUND: port 0 back to SAFE; the third on a disc reports it as unfocusable (R203). -/
def searchNotFound (e : Eng) (s : State) : State :=
  let n := s.eng[e].loop.searches + 1
  let s := loopAck e 2 (loopSetSt e 0 (focusSafe e s))
  let s := s.modLoop e fun l => { l with searches := n }
  let s := if s.eng[e].loop.fault = 0 then s else recoveryFailed e s
  if n = 3 then note (.unfocusable e) (s.report (.unfocusable e)) else s

/-- FOCUS_SEARCH: sweep, count, close on the layer (R203). -/
def focusSearchOp (e : Eng) (arg : Int) (found lost : Bool) (s : State) : State :=
  if searchMay s e then
    loopCommand e 1 arg (decide (0 ≤ arg ∧ arg ≤ 3) && loopSt s e == 0) (fun s =>
      let s := saMove e s
      if lost then loopLoss e .focus s
      else if found then loopAck e 0 (loopSetSt e 2 (rampRestart e 0 (s.modLoop e fun l => { l with searches := 0 })))
      else searchNotFound e s) (closeRamp e 0 0 s)
  else s

/-- TRACK_ON: from FOCUS_ON, or after a tracking loss (R202, R204, R208); it completes a recovery. -/
def trackOnOp (e : Eng) (loss : Option LoopLoss) (s : State) : State :=
  if loopMay s e then
    loopCommand e 2 0 (loopSt s e == 2 || loopSt s e == 7) (fun s =>
      match loss with
      | some l => loopLoss e l s
      | none => loopAck e 0 (loopSetSt e 3 (rampRestart e 1 (s.modLoop e fun l => { l with fault := 0 })))) (closeRamp e 1 2 s)
  else s

/-- TRACK_OFF: only in TRACK_ON (R202). -/
def trackOffOp (e : Eng) (s : State) : State :=
  if loopMay s e then loopCommand e 3 0 (loopSt s e == 3) (fun s => loopAck e 0 (loopSetSt e 2 s)) s else s

/-- JUMP of N tracks: only in TRACK_ON; XCOUNT = N (R199, R202, R205). -/
def jumpOp (e : Eng) (n : Int) (loss : Option LoopLoss) (s : State) : State :=
  if loopMay s e then
    loopCommand e 4 n (decide (n ≠ 0 ∧ n.natAbs ≤ 512) && loopSt s e == 3) (fun s =>
      match loss with
      | some l => loopLoss e l s
      | none => loopAck e 0 (dmSet e 0x7E6 (BitVec.ofInt 24 n) s)) s
  else s

/-- ESQ<n> sets SLG_CTRL.DIR and SEAM_CTRL.DIR for the direction of the layer that a jump of `n` layers reached; which way a layer runs
stands in the disc's own information (R120, R207, log 104). -/
def layerTurn (e : Eng) (n : Int) (s : State) : State :=
  let inward := Config.layerInward (s.isSet (SEAM_CTRL.DIR e)) n
  slgRates e (s.get (SLG_CTRL.TPR e)) inward (s.putBool (SEAM_CTRL.DIR e) inward)

/-- LAYER_JUMP: in FOCUS_ON or TRACK_ON; it leaves FOCUS_ON (R202, R207). -/
def layerJumpOp (e : Eng) (n : Int) (found : Bool) (s : State) : State :=
  if loopMay s e then
    loopCommand e 5 n (decide (n ≠ 0 ∧ n.natAbs ≤ 3) && (loopSt s e == 2 || loopSt s e == 3)) (fun s =>
      let s := saMove e s
      if found then layerTurn e n (loopAck e 0 (loopSetSt e 2 (rampRestart e 0 s))) else loopLoss e .focus s) (closeRamp e 0 0 s)
  else s

/-- LOOP_NOP: answered DONE with no other effect (R199). -/
def loopNopOp (e : Eng) (s : State) : State :=
  if dmGet s e 0x7E0 = dmGet s e 0x7E3 then loopCommand e 0 0 true (loopAck e 0) s else s

/-- LOOP_CMD_TIMEOUT: a command that ACK_SEQ shows has finished; otherwise RETRACT and a loop fault (R201). -/
def loopTimeout (e : Eng) (s : State) : State :=
  if dmGet s e 0x7E0 = dmGet s e 0x7E3 then s else loopFault e 3 (loopRetract e s)

/-- LONG_SEEK's sled step: TRACK_OFF, the sled at `target`, LOAD and gearing on, TRACK_ON (R206). -/
def seekStep (e : Eng) (target : Int) (s : State) : State :=
  let s := slgEn e false (trackOffOp e s)
  let s := sldShift e (target - sldPos s e) (s.putInt (SLD_TGT.VALUE e) target)
  let s := sldDone e s
  trackOnOp e none (slgEn e true (slgLoadOp e s))

/-- LONG_SEEK: sled steps until at most 512 tracks remain, which a correction jump covers; after two repeats the position is treated
as lost. `reads` holds the address read after each step; a repeat moves the sled by what remains, as R212 converts it (R206, log 100). -/
def seekLoop (e : Eng) (c : ClAddr) : Nat → Int → List ClAddr → State → State
  | 0, _, _, s => s.modLoop e fun l => { l with seekLost := true }
  | n + 1, target, reads, s =>
    let s := seekStep e target s
    match reads with
    | [] => s
    | a :: rest =>
      let r := tracksTo s e a c
      if r = 0 then s
      else if r.natAbs ≤ 512 then jumpOp e r none s
      else seekLoop e c n (target + sledFor s e c 0#24 - sledFor s e a 0#24) rest s

/-- LONG_SEEK to a cluster: only in TRACK_ON with runs idle, the sled able to move and its position known; the zone speed of the target
is commanded and the sled's target computed by R212. `mean` is the mean port 1 output over a revolution (R206, R212, R213, R233). -/
def longSeekOp (e : Eng) (c : ClAddr) (mean : BitVec 24) (reads : List ClAddr) (s : State) : State :=
  if loopMay s e && loopSt s e == 3 && s.isSet (ANV_STAT.RUNNING e) && !s.isSet (SLD_STAT.LOST e) && !s.eng[e].loop.seekLost
      && s.eng[e].sld.powered && !s.isSet (SLD_STAT.FAULT e) && !s.isSet (SLD_STAT.HOMING e) then
    seekLoop e c 3 (sledFor s e c mean) reads (takeSpeed e (zoneSpeed s e c) s)
  else s

/-- SLED_POSITION_RECOVER: an encoder without a fault gives the position at once, unless an address is read as well from whose position by
R212 it is more than 64 microsteps off: then the encoder is marked faulty and the address stands; without an encoder the address
gives it. `homed`: the end stop was used, which defines microstep 0 (R212, R213). -/
def sledRecover (e : Eng) (homed : Bool) (address : Option (ClAddr × BitVec 24)) (s : State) : State :=
  let s := if homed then (s.put (SLD_POS.VALUE e) 0).modLoop e fun l => { l with searches := 0 } else s
  let enc := s.isSet (SLD_ENC.EN e) && s.isSet (SLD_ENCPOS.VALID e)
  let encPos := s.encOffs[e] + s.getInt (SLD_ENCPOS.POS e)
  let known (s : State) : State := s.modLoop e fun l => { l with seekLost := false }
  match address with
  | some a =>
    let p := sledFor s e a.1 a.2
    let off := decide (64 < (encPos - p).natAbs)
    let s := if enc && off then encFault e s else s
    known (slgLoadOp e (sldSetPos e (if enc && !off then encPos else p) s))
  | none => if enc then known (sldSetPos e encPos s) else s

end Sys2Proof.Machine
end

