-- ==== Sys2Proof/Machine/Anvil.lean ====
section
/-! DEFINITION. The Anvil loop engine: ticks, trips, and its instructions (R171-R195). An instruction command is the issue
of that instruction at the program counter; it acts while the program runs (log 22). -/
namespace Sys2Proof.Machine

/-- The lists of ports, ramps and accumulators. -/
def fins (n : Nat) : List (Fin n) := List.finRange n

/-- SAT<q>, shown in ANV_PORT (R188). -/
def satPut (e : Eng) (q : Fin 8) (v : Bool) (s : State) : State :=
  (s.modAnv e fun n => { n with sat := setBit n.sat q.val v }).putBool (ANV_PORT.SAT e q.val) v

/-- Both halves of the actuator words with one TSEQ (R50). -/
def actSend (e : Eng) (s : State) : State :=
  let n := s.eng[e].anv
  let lo := actBlock 0 n.tseq fun q => n.port[q.val]'(by omega)
  let hi := actBlock 1 n.tseq fun q => n.port[q.val + 4]'(by omega)
  (pushWord e (.act lo hi) s).modAnv e fun n => { n with tseq := n.tseq + 1#6 }

/-- A trip holds the ports of HOLD_MASK at SAFE with SAT set; the saturation counters stand at 0 (R192, R194). -/
def holdPorts (e : Eng) (s : State) : State :=
  let s := s.modAnv e fun n => { n with satCnt := Vector.replicate 8 0 }
  (fins 8).foldl (fun (s : State) (q : Fin 8) =>
    if (s.get (ANV_SUP.HOLD_MASK e)).testBit q.val then
      satPut e q true (portPut e q (BitVec.ofNat 24 (s.get (ANV_SAFE.SAFE e q.val) * 1024)) s)
    else s) s

/-- ANV_FAULT_TRIP: the program halts with PC and cause, the ports are held, laser off (R193, R194, R208). -/
def faultTrip (e : Eng) (cause : Nat) (s : State) : State :=
  let s := ((s.put (ANV_FAULT.PC e) (s.get (ANV_STAT.PC e))).put (ANV_FAULT.BANK e) (s.get (ANV_STAT.BANK_ACT e))).put (ANV_FAULT.CAUSE e) cause
  let s := ((s.put (ANV_STAT.RUNNING e) 0).put (ANV_CTRL.RUN e) 0).put (ANV_STAT.FAULT_TRIP e) 1
  let s := ((s.raise (ANV_EVT.FAULT e)).inc (ANV_CNT.TRIPS e)).report (.anv e 2)
  let s := s.modAnv e fun n => { n with startPend := false, stopPend := false, waiting := true, due := 0, rpt := none }
  let s := actSend e (holdPorts e s)
  loopFault e 1 (wrAbort e true (laserOff e s))

/-- ANV_SAT_TRIP's effects: the ports held, a laser-off request in a write or OPC run or with the gate open; with
the program stopped, no WAIT would send the held values, and they go out now (R177, R194, R208). -/
def satTrip (e : Eng) (s : State) : State :=
  let s := (s.put (ANV_STAT.SAT_TRIP e) 1).raise (ANV_EVT.SAT_TRIP e)
  let s := (s.inc (ANV_CNT.TRIPS e)).report (.anv e 1)
  let s := holdPorts e s
  let s := if s.isSet (ANV_STAT.RUNNING e) then s else actSend e s
  let s := if writing s e || s.isSet (WR_STAT.GATE e) then wrAbort e true (laserOff e s) else s
  loopFault e 1 s

/-- The limit of the saturation counters in quarter cycles: LIM us of 432 cycles, LIM at least 100 (R192, R198). -/
def satLimit (s : State) (e : Eng) : Nat := max 100 (s.get (ANV_SUP.LIM e)) * 1728

/-- The length of a tick in quarter cycles: TICK_N servo sets of 281.25 cycles, TICK_N held to 4-16 (R174, R198). -/
def tickQuarters (s : State) (e : Eng) : Nat := max 4 (min 16 (s.get (ANV_TICK.TICK_N e))) * 1125

/-- The saturation counters at a tick start, `q` quarter cycles after the one before (R192). -/
def satCount (e : Eng) (q : Nat) (s : State) : State :=
  let mask := s.get (ANV_SUP.SAT_MASK e)
  let off := anvTripped s e
  s.modAnv e fun n => { n with satCnt := Vector.ofFn fun p : Fin 8 =>
    if (Nat.testBit mask p.val) && n.sat.getLsbD p.val && !off then n.satCnt[p] + q else 0 }

/-- ANV_SAT_TRIP: a watched port has been saturated for LIM us (R192). -/
def satTripOp (e : Eng) (s : State) : State :=
  if (fins 8).any fun q => decide (satLimit s e ≤ s.eng[e].anv.satCnt[q]) then satTrip e s else s

/-- An internal input's 24-bit value (R184, log 16). -/
def inputWord (v : Int) : Word24 := if v < bot24 ∨ top24 < v then Config.outside24 v else BitVec.ofInt 24 v

/-- The internal inputs: SPD_ERR (REF minus the observed speed), SPD, SLD_ERR; the others read 0 (R184, R217). -/
def internalIn (s : State) (e : Eng) : Vector Word24 16 := Vector.ofFn fun i : Fin 16 =>
  match i.val with
  | 0 => inputWord ((s.getInt (SPN_SPEED.REF e) - s.getInt (SPN_SPEED.OBS e)) * 2048)
  | 1 => inputWord (s.getInt (SPN_SPEED.OBS e) * 512)
  | 2 => inputWord (divFree ((sldPos s e - s.getInt (SLG_REF.REF e)) * s.get (SLD_CFG.STEP_LEN e) * 64) 125)
  | _ => 0#24

/-- RAMP_ADVANCE: INIT from the snapshot, else toward TARGET by at most STEP x 256 (R189). -/
def rampStep (e : Eng) (r : Fin 8) (s : State) : State :=
  let n := s.eng[e].anv
  if n.rampInit.getLsbD r.val then
    (rampRestart e r s).modAnv e fun n => { n with rampInit := setBit n.rampInit r.val false }
  else
    let t := s.getInt (ANV_RAMP_TGT.TARGET e r.val)
    let c := n.ramp[r].toInt
    let d : Int := 256 * s.get (ANV_RAMP_CFG.STEP e r.val)
    rampPut e r (BitVec.ofInt 24 (c + clampInt (-d) d (t - c))) s

/-- The start address of a bank. -/
def startOf (s : State) (e : Eng) (bank : Nat) : Nat := if bank = 0 then s.get (ANV_START.START0 e) else s.get (ANV_START.START1 e)

/-- ANV_BANK_SWITCH at a tick start (R197). -/
def bankSwitch (e : Eng) (s : State) : State :=
  if s.isSet (ANV_STAT.SW_PEND e) then
    let b := s.get (ANV_CTRL.BANK e)
    let s := ((s.put (ANV_STAT.BANK_ACT e) b).put (ANV_STAT.SW_PEND e) 0).raise (ANV_EVT.SWITCHED e)
    (s.put (ANV_STAT.PC e) (startOf s e b)).modAnv e fun n => { n with first := true, rpt := none }
  else s

/-- A pending start at a tick start (R178). -/
def progStart (e : Eng) (s : State) : State :=
  if s.eng[e].anv.startPend then
    let s := s.put (ANV_STAT.RUNNING e) 1
    (s.put (ANV_STAT.PC e) (startOf s e (s.get (ANV_STAT.BANK_ACT e)))).modAnv e fun n => { n with
      startPend := false, first := true, rpt := none
      acc := Vector.replicate 4 {}, ix := Vector.replicate 4 0#11 }
  else s

/-- ANV_TICK_START: snapshot, flags, ramps, start or switch, resume (R175). The tick starts `gone` quarter cycles after the one before and
`lead` after its grid point; its own length is that of TICK_N now (R198). -/
def tickStart (e : Eng) (stale late : Bool) (gone lead : Int) (s : State) : State :=
  let s := satCount e gone.toNat s
  let len := tickQuarters s e
  let inn := internalIn s e
  let sreq := s.isSet (SEAM_STAT.JUMPING e)
  let sdir := s.isSet (SEAM_CTRL.DIR e)
  let s := s.modAnv e fun n => { n with
    snap := n.inp, intn := inn, aovf := 0#4, bhi := 0#16, bovf := 0#16, blo := 0xFFFF#16
    sreq := sreq, sedge := sreq && !n.sreq, sdir := sdir, first := false, late := late, due := 0, cycles := 8, quarters := len, lead := lead }
  let s := (fins 16).foldl (fun (s : State) (p : Fin 16) => s.put (ANV_IN.VALUE e p.val) s.eng[e].anv.snap[p].toNat) s
  let s := s.putBool (ANV_STAT.STALE e) stale
  let s := if stale then (s.raise (ANV_EVT.STALE e)).inc (ANV_CNT.STALE e) else s
  let s := (fins 8).foldl (fun (s : State) (r : Fin 8) => rampStep e r s) s
  let s := progStart e (bankSwitch e s)
  let running := s.isSet (ANV_STAT.RUNNING e)
  s.modAnv e fun n => { n with waiting := !running }

/-- A tick start falls due, with the engine's clock running (R33): at once when the program waits, after its WAIT when it does not; the second one due trips the
fault supervisor (R176, R193). A servo set `offset` cycles from the predicted start moves the grid to itself; a stale tick starts 16 cycles
after its grid point, which stays (R174). -/
def tickDue (e : Eng) (stale : Bool) (offset : Int) (s : State) : State :=
  let n := s.eng[e].anv
  if !engRuns s e then s
  else if s.isSet (ANV_STAT.RUNNING e) && !n.waiting then
    if n.due = 0 then
      ((s.raise (ANV_EVT.OVERRUN e)).inc (ANV_CNT.OVR e)).modAnv e fun n => { n with due := 1, dueStale := stale }
    else faultTrip e 2 s
  else tickStart e stale false (n.quarters - n.lead + 4 * (if stale then 16 else offset)) (if stale then 64 else 0) s

/-- The blocks of a servo set are complete: BIDX 0-3 in order, one SSEQ, no bad frame (R46). -/
def setComplete (blocks : List (LinkBlock × Bool)) : Bool :=
  match blocks with
  | [a, b, c, d] =>
    !(a.2 || b.2 || c.2 || d.2) && bits a.1 0 2 == 0 && bits b.1 0 2 == 1 && bits c.1 0 2 == 2 && bits d.1 0 2 == 3
      && bits a.1 2 2 == bits b.1 2 2 && bits a.1 2 2 == bits c.1 2 2 && bits a.1 2 2 == bits d.1 2 2
  | _ => false

/-- Signal `p` of a set in bits [23:12] of its port (R45, R46). -/
def servoWord (blocks : List (LinkBlock × Bool)) (p : Fin 16) : Word24 :=
  match blocks[p.val / 5]? with
  | some b => BitVec.ofNat 24 (bits b.1 (12 * (p.val % 5) + 4) 12 * 4096)
  | none => 0#24

/-- SERVO_SET_RECEIVED: a complete set refreshes the ports, and starts the tick when it arrives within 16 cycles of the
predicted start, and the seam block tests its tracking error in a jump; an incomplete one sets SERVO_STALE (R46, R104, R174). No set
arrives with the link down. -/
def servoSet (e : Eng) (blocks : List (LinkBlock × Bool)) (offset : Int) (s : State) : State :=
  if !linkUp s e then s
  else if setComplete blocks then
    let s := s.modAnv e fun n => { n with inp := Vector.ofFn fun p => servoWord blocks p }
    let s := seamServo e (fun p => (servoWord blocks p).toInt / 4096) s
    if offset.natAbs ≤ 16 then tickDue e false offset s else s
  else s.raise (HL_EVT.SERVO_STALE e)

/-- Apply an instruction's operation `n` times. -/
def repeatN (n : Nat) (f : State → State) (s : State) : State :=
  match n with
  | 0 => s
  | k + 1 => repeatN k f (f s)

/-- An instruction issues at PC: misuse under RPT and illegal forms trip; under RPT it runs that many times; then PC moves to
`next` (R185, R186, R193). `noRpt`: the instruction must not follow RPT. -/
def anvIssue (e : Eng) (noRpt illegal : Bool) (cyc : Nat) (next : Nat) (f : State → State) (s : State) : State :=
  let n := s.eng[e].anv
  if !s.isSet (ANV_STAT.RUNNING e) || n.waiting then s
  else if n.rpt.isSome && noRpt then faultTrip e 3 s
  else if illegal then faultTrip e 1 s
  else
    let k := n.rpt.getD 1
    let s := s.modAnv e fun n => { n with rpt := none, cycles := n.cycles + k * cyc }
    repeatN k f (s.put (ANV_STAT.PC e) next)

/-- The address after PC, in the bank of 2,048 words. -/
def pcNext (s : State) (e : Eng) : Nat := (s.get (ANV_STAT.PC e) + 1) % 2048

/-- An instruction without control flow. -/
def anvStep (e : Eng) (illegal : Bool) (f : State → State) (s : State) : State := anvIssue e false illegal 1 (pcNext s e) f s

/-- The accumulator `d`. -/
def accOf (s : State) (e : Eng) (d : Fin 4) : Acc := s.eng[e].anv.acc[d]

/-- MPY, MAC, MSU: the product enters the accumulator (R180). `sign` 0 loads, 1 adds, -1 subtracts. -/
def accProduct (e : Eng) (d : Fin 4) (x y : BitVec 12) (sign : Int) (s : State) : State :=
  let p := opMant s e x * opMant s e y
  let ex := opExp s e x + opExp s e y
  let c := accOf s e d
  let s := if sign = 0 then accSet e d (scale2 p (-6)) ex s
    else accSet e d (c.a + sign * scale2 p (ex - c.ae - 6)) c.ae s
  opBump e y (opBump e x s)

/-- LDA, ADD, SUB (R180). -/
def accLoad (e : Eng) (d : Fin 4) (x : BitVec 12) (sign : Int) (s : State) : State :=
  let m := opMant s e x
  let ex := opExp s e x
  let c := accOf s e d
  let s := if sign = 0 then accSet e d (m * 2 ^ 17) ex s
    else accSet e d (c.a + sign * scale2 m (17 + ex - c.ae)) c.ae s
  opBump e x s

/-- ST: the accumulator at the destination's exponent (R181). -/
def accStore (e : Eng) (d : Fin 4) (x : BitVec 12) (s : State) : State :=
  match opAddr s e x with
  | some a => opBump e x (dmStore e a (accMant (accOf s e d) (dmExp s e a)) false s)
  | none => s

/-- INT: integrate unless the port is saturated (R181, R188). -/
def accIntegrate (e : Eng) (d : Fin 4) (x : BitVec 12) (q : Fin 8) (s : State) : State :=
  match opAddr s e x with
  | some a =>
    let s1 :=
      if s.eng[e].anv.sat.getLsbD q.val then s
      else
        let m := accMant (accOf s e d) (dmExp s e a)
        let c := clampInt bot24 top24 m
        dmStore e a ((dmGet s e a).toInt + c) (c != m) s
    opBump e x s1
  | none => s

/-- The clamp of a port: the converted value and whether the clamp acted; LO wins with LO > HI (R191). -/
def portClamp (s : State) (e : Eng) (q : Fin 8) (v : Int) : Int × Bool :=
  let lo := s.getInt (ANV_CLAMP.LO e q.val)
  let hi := s.getInt (ANV_CLAMP.HI e q.val)
  let t := Int.fdiv v 1024
  if t < lo ∨ hi < lo then (lo * 1024, true)
  else if hi < t then (hi * 1024, true)
  else (v, false)

/-- OUT: convert, clamp, SAT; a held port keeps its value and is saturated (R188, R191, R194). -/
def portOut (e : Eng) (d : Fin 4) (q : Fin 8) (s : State) : State :=
  if portHeld s e q.val then satPut e q true s
  else
    let m := accMant (accOf s e d) 0
    let c := clampInt bot24 top24 m
    let r := portClamp s e q c
    satPut e q (c != m || r.2) (s.modAnv e fun n => { n with port := n.port.set q (BitVec.ofInt 24 r.1) })

/-- The smallest exponent at which the mantissa stays below 2^22 (R182). -/
def bestExp (c : Acc) : Option Int := ((List.range 32).map fun (i : Nat) => (i : Int) - 16).find? fun x => decide ((accMant c x).natAbs < 2 ^ 22)

/-- EXA (R182). -/
def expFromAcc (e : Eng) (k : Fin 16) (d : Fin 4) (s : State) : State :=
  match bestExp (accOf s e d) with
  | some x => expSet e k x s
  | none => (s.putInt (ANV_X.X e k.val) 15).raise (ANV_EVT.XOVF e)

/-- How many words RSC rescales: 0 means 128. -/
def rscCount (n : BitVec 7) : Nat := if n = 0#7 then 128 else n.toNat

/-- RSC: n words by 2^-k, the block's exponent by +k; outside the exponent's range nothing changes but XOVF. A word beyond
the block is not covered by the rule (R182, log 17). -/
def rescale (e : Eng) (x : BitVec 12) (n : BitVec 7) (k : BitVec 4) (s : State) : State :=
  match opAddr s e x with
  | some a =>
    let b := a / 128
    let nx := anvX s e b + k.toInt
    let s1 :=
      if nx < -16 ∨ 15 < nx then s.raise (ANV_EVT.XOVF e)
      else
        let s := (List.range (rscCount n)).foldl (fun s i =>
          let w := (a + i) % 2048
          if w / 128 = b then dmStore e w (scale2 (dmGet s e w).toInt (-k.toInt)) false s
          else dmStore e w (Config.rscBeyond w (dmGet s e w)).toInt false s) s
        s.putInt (ANV_X.X e b) nx
    opBump e x s1
  | none => s

/-- RPT (R186): an RPT in the last word of the bank is a misuse. -/
def rptSet (e : Eng) (n : BitVec 8) (s : State) : State :=
  if s.isSet (ANV_STAT.RUNNING e) && !s.eng[e].anv.waiting && s.get (ANV_STAT.PC e) == 2047 then faultTrip e 3 s
  else anvIssue e true false 1 (pcNext s e) (fun s => s.modAnv e fun a => { a with rpt := some (if n = 0#8 then 256 else n.toNat) }) s

/-- WAIT's work: cycle record, port values as sent, actuator words, a pending stop (R50, R176-R178). -/
def waitEnd (e : Eng) (s : State) : State :=
  let c := min 0xFFFF s.eng[e].anv.cycles
  let s := (s.put (ANV_CYC.LAST e) c).put (ANV_CYC.MAX e) (max c (s.get (ANV_CYC.MAX e)))
  let s := (fins 8).foldl (fun (s : State) (q : Fin 8) => s.put (ANV_PORT.VALUE e q.val) s.eng[e].anv.port[q].toNat) s
  let s := actSend e s
  let s := s.modAnv e fun n => { n with waiting := true }
  if s.eng[e].anv.stopPend then (s.put (ANV_STAT.RUNNING e) 0).modAnv e fun n => { n with stopPend := false } else s

/-- WAIT: the tick ends; a tick start that fell due begins now, late (R176, R185). -/
def anvWaitOp (e : Eng) (t : BitVec 11) (s : State) : State :=
  anvIssue e true false 1 t.toNat (fun s =>
    let s := waitEnd e s
    let n := s.eng[e].anv
    if n.due = 0 then s else tickStart e n.dueStale true (4 * n.cycles) (4 * n.cycles + n.lead - n.quarters) s) s

/-- RINIT of the ramps in a mask (R189). -/
def rampInitMask (e : Eng) (m : BitVec 8) (s : State) : State :=
  (fins 8).foldl (fun (s : State) (r : Fin 8) => if m.getLsbD r.val then rampRestart e r s else s) s

/-- A word no instruction stands for, or with a port as its destination (R183, R185). -/
def anvIllegal (w : Word) : Bool :=
  let op := bits w 26 6
  let x : BitVec 12 := w.extractLsb' 0 12
  decide (0x1C ≤ op) || ((op == 0x07 || op == 0x08 || op == 0x15 || op == 0x16) && opIsPort x)

/-- The opcode must not follow RPT: RSC, RPT, BR, BRN, WAIT (R186). -/
def noRptOp (op : Nat) : Bool := decide (0x16 ≤ op ∧ op ≤ 0x1A)

/-- ILLEGAL_INSTRUCTION: an illegal word, or a misuse of RPT, trips the fault supervisor (R193). -/
def illegalOp (e : Eng) (w : Word) (s : State) : State :=
  let op := bits w 26 6
  if !s.isSet (ANV_STAT.RUNNING e) || s.eng[e].anv.waiting then s
  else if (s.eng[e].anv.rpt.isSome && noRptOp op) || (op == 0x17 && s.get (ANV_STAT.PC e) == 2047) then faultTrip e 3 s
  else if anvIllegal w then faultTrip e 1 s
  else s

end Sys2Proof.Machine
end

