-- ==== Sys2Proof/Machine/AnvilCtl.lean ====
section
/-! DEFINITION. Control of an Anvil engine from outside its program: run, stop, bank, trip and counter clears, ramps,
program and data memory (R171, R172, R178, R189, R195-R198). -/
namespace Sys2Proof.Machine

/-- ANV_RUN: a start at the next tick start while not running (R178); while running it withdraws a stop (log 22). -/
def anvRunOp (e : Eng) (s : State) : State :=
  let s := s.put (ANV_CTRL.RUN e) 1
  if s.isSet (ANV_STAT.RUNNING e) then s.modAnv e fun n => { n with stopPend := false }
  else s.modAnv e fun n => { n with startPend := true }

/-- ANV_STOP: the program stops after its next WAIT (R178). A program that already waits has no WAIT before the next tick. -/
def anvStopOp (e : Eng) (s : State) : State :=
  let s := s.put (ANV_CTRL.RUN e) 0
  let running := s.isSet (ANV_STAT.RUNNING e)
  s.modAnv e fun n => { n with startPend := false, stopPend := running }

/-- ANV_BANK_WRITE: a bank other than the active one is pending; the active one cancels it (R197). -/
def anvBank (e : Eng) (bank : Bool) (s : State) : State :=
  let s := s.putBool (ANV_CTRL.BANK e) bank
  s.putBool (ANV_STAT.SW_PEND e) (bank != s.isSet (ANV_STAT.BANK_ACT e))

/-- ANV_TRIP_CLR: the trip ends, holds are released, the counters are cleared; a held port keeps SAFE until its next OUT
(R195). -/
def anvTripClear (e : Eng) (s : State) : State :=
  let s := (s.put (ANV_STAT.SAT_TRIP e) 0).put (ANV_STAT.FAULT_TRIP e) 0
  s.modAnv e fun n => { n with satCnt := Vector.replicate 8 0 }

/-- ANV_CNT_CLR: ANV_CNT and ANV_CYC.MAX are cleared; an increment of the same cycle (OVR, STALE, TRIPS) is kept (R198). -/
def anvCntClear (e : Eng) (same : BitVec 3) (s : State) : State :=
  let s := (s.wr (ANV_CNT.reg e) 0#32).put (ANV_CYC.MAX e) 0
  ((s.put (ANV_CNT.OVR e) (bits same 0 1)).put (ANV_CNT.STALE e) (bits same 1 1)).put (ANV_CNT.TRIPS e) (bits same 2 1)

/-- ANV_RAMP_INIT: a write of ANV_RAMP_CFG: STEP, SRC, and with INIT the ramp starts from its input at the next tick start
(R189). -/
def anvRampCfg (e : Eng) (r : Fin 8) (v : Word) (s : State) : State :=
  let s := (s.put (ANV_RAMP_CFG.STEP e r.val) (bits v 0 16)).put (ANV_RAMP_CFG.SRC e r.val) (bits v 16 4)
  if v.getLsbD 20 then s.modAnv e fun n => { n with rampInit := setBit n.rampInit r.val true } else s

/-- A program-memory word; memory nothing has written holds NOP (R173). -/
def pmGet (s : State) (e : Eng) (bank : Bool) (a : Nat) : Word :=
  Cells.get (fun _ => 0#32) s.eng[e].anv.pm ((if bank then 2048 else 0) + a)

/-- Write a program-memory word. -/
def pmSet (e : Eng) (bank : Bool) (a : Nat) (w : Word) (s : State) : State :=
  s.modAnv e fun n => { n with pm := Cells.set Cells.natLt (fun _ => 0#32) n.pm ((if bank then 2048 else 0) + a) w }

/-- ANV_PM_WRITE: only to a bank that is neither active nor pending, else PM_REJ (R171, R197). -/
def anvPm (e : Eng) (bank : Bool) (a : Nat) (w : Word) (s : State) : State :=
  if bank = s.isSet (ANV_STAT.BANK_ACT e) ∨ (s.isSet (ANV_STAT.SW_PEND e) = true ∧ bank = s.isSet (ANV_CTRL.BANK e)) then
    s.raise (ANV_EVT.PM_REJ e)
  else pmSet e bank a w s

/-- ANV_DM_WRITE: one word, whatever the program does (R172, R196). -/
def anvDm (e : Eng) (a : Nat) (v : Word) (s : State) : State := dmSet e a (v.setWidth 24) s

def execAnvRun (e : Eng) (s : State) : Outcome := ok (anvRunOp e s)
def execAnvStop (e : Eng) (s : State) : Outcome := ok (anvStopOp e s)
def execAnvBankWrite (e : Eng) (bank : Bool) (s : State) : Outcome := ok (anvBank e bank s)
def execAnvTripClr (e : Eng) (s : State) : Outcome := ok (anvTripClear e s)
def execAnvCntClr (e : Eng) (same : BitVec 3) (s : State) : Outcome := ok (anvCntClear e same s)
def execAnvRampInit (e : Eng) (r : Fin 8) (v : Word) (s : State) : Outcome := ok (anvRampCfg e r v s)
def execAnvPmWrite (e : Eng) (bank : Bool) (a : BitVec 11) (w : Word) (s : State) : Outcome := ok (anvPm e bank a.toNat w s)
def execAnvDmWrite (e : Eng) (a : BitVec 11) (v : Word) (s : State) : Outcome := ok (anvDm e a.toNat v s)

end Sys2Proof.Machine
end

