-- ==== Sys2Proof/Machine/Channel.lean ====
section
/-! DEFINITION. The read-channel chains: gain, flywheel, decoding and delivery, replay, wobble PLL and capture buffer (R71-R101). The
signal path is in Dsp. -/
namespace Sys2Proof.Machine

/-- Channel bits of a recording frame. -/
def frameBits : Nat := 1932

/-- The chain's flywheel runs: enabled, on its stream and in no hold (R73, R84, R106, R124). -/
def chRuns (s : State) (e : Eng) (k : Chn) : Bool :=
  let c := s.eng[e].ch[k]
  s.isSet (CH_CTRL.ENABLE e k) && !c.seamHold && !c.writeHold && !c.stopped && !(k == 4 && s.isSet (CH_CTRL.REPLAY e k))

/-- AGC and DC adaptation of the chain may move (R74, R106, R124). -/
def agcMoves (s : State) (e : Eng) (k : Chn) : Bool := !chHeld s e k && !s.isSet (CH_CTRL.AGC_HOLD e k)

/-- One measurement of a level: the gain moves by 2^-tc of what would bring the level to TARGET, held to its range; either end sets
AGC_LIMIT (R74, log 12). -/
def agcGain (e : Eng) (k : Chn) (level tc : Nat) (s : State) : State :=
  let g : Int := max 0x40 (s.get (AGC_GAIN.GAIN e k))
  let v := clampInt 0x040 0xFFF (g + divFree (g * ((s.get (AGC_CFG.TARGET e k) : Int) - level)) (level * 2 ^ tc))
  let s := s.put (AGC_GAIN.GAIN e k) v.toNat
  if v = 0x040 ∨ v = 0xFFF then s.raise (CH_EVT.AGC_LIMIT e k) else s

/-- The running estimate of the signal centre moves by 2^-DC_TC towards the centre measured, both in 1/4 LSB (R74, log 12). -/
def agcOffs (e : Eng) (k : Chn) (centre : Int) (s : State) : State :=
  let o := s.getInt (AGC_OFFS.OFFS e k)
  s.putInt (AGC_OFFS.OFFS e k) (clampInt (-512) 511 (o + divFree (centre - o) (2 ^ s.get (AGC_CFG.DC_TC e k))))

/-- A sync mark's measurement: the 9T level in LSB after the AGC, and the signal's centre in 1/4 LSB. Out of SEARCH the gain follows the
level; AGC_OK after 64 marks within 6 % (R74). -/
def agcMeasure (e : Eng) (k : Chn) (level : Nat) (centre : Int) (s : State) : State :=
  let tgt := s.get (AGC_CFG.TARGET e k)
  let near := decide (100 * ((level : Int) - tgt).natAbs ≤ 6 * tgt)
  let run := if near then s.eng[e].ch[k].agcRun + 1 else 0
  let s := (s.modCh e k fun c => { c with agcRun := min 64 run }).putBool (CH_STAT.AGC_OK e k) (decide (64 ≤ run))
  if agcMoves s e k then
    let s := agcOffs e k centre s
    if s.get (CH_STAT.FLY_STATE e k) = flySearch then s else agcGain e k level (s.get (AGC_CFG.TC_TRK e k)) s
  else s

/-- The 99th-percentile peak-to-peak value of samples, in their units: the span without the outermost 1 %, half of it at each end (log
12). -/
def peakSpan (xs : List Int) : Nat :=
  let ys := sortBy (fun a b => decide (a < b)) xs
  let cut := ys.length / 200
  let zs := (ys.drop cut).take (ys.length - 2 * cut)
  match zs.head?, zs.getLast? with
  | some a, some b => (b - a).toNat
  | _, _ => 0

/-- In SEARCH the gain follows the 99th-percentile peak-to-peak level of the samples of a lane frame, whose half stands for the 9T level
(R74, log 12). -/
def agcSearch (e : Eng) (k : Chn) (xs : List Smp) (s : State) : State :=
  if dspOn s e k && agcMoves s e k && s.get (CH_STAT.FLY_STATE e k) == flySearch then
    match (xs.filter fun x => !x.er).map fun x => (agcOut s e k x).v with
    | [] => s
    | ys => agcGain e k (peakSpan ys / 2048) (s.get (AGC_CFG.TC_ACQ e k)) s
  else s

/-- ALT_SWITCH and RED: at an accepted or inserted mark the requested sets take effect (R96, R99). -/
def markSwitch (e : Eng) (k : Chn) (s : State) : State :=
  let red := BitVec.ofNat 4 (s.get (RED.IPH_SET e k) + 4 * s.get (RED.EQM_SET e k))
  (s.put (CH_STAT.ALT_ACTIVE e k) (s.get (CH_CTRL.ALT e k))).modCh e k fun c => { c with redEff := red }

/-- The event a capture waits for: 1 sync lost, 2 cluster failed, 3 accepted mark of its chain (R100). -/
def capSee (e : Eng) (k : Chn) (event : Nat) (s : State) : State :=
  if s.isSet (CAP_CTRL.ARM e) && s.get (CAP_CTRL.CHAIN e) == k.val && s.get (CAP_CTRL.TRIG e) == event then
    s.modEng e fun g => { g with capTrig := true }
  else s

/-- The frame position of a mark in SYNC_STAT. -/
def showFrame (e : Eng) (k : Chn) (f : Nat) (s : State) : State :=
  (s.put (SYNC_STAT.FRAME e k) (f % 31)).put (SYNC_STAT.AU e k) (f / 31)

/-- Where the mark of a frame stands. -/
def ClFlags.markAt (c : ClFlags) (f : Nat) : Option Nat := (c.at_.find? fun x => x.1 == f).map Prod.snd

/-- Where the run-in of a cluster begins. -/
def ClFlags.start (c : ClFlags) : Nat := (c.markAt 0).getD 0 - Config.runIn

/-- Bit positions counted from the run-in. -/
def ClFlags.rebase (c : ClFlags) : ClFlags :=
  let p := c.start
  { c with at_ := c.at_.map fun x => (x.1, x.2 - p), er := c.er.map (· - p), unrel := c.unrel.map (· - p) }

/-- The chain's first cluster after a landing ends at its run-out, before bit `p`, and is kept as a tail part in its entry (R107,
R114). -/
def keepTail (e : Eng) (k : Chn) (p : Nat) (s : State) : State :=
  let c := s.eng[e].ch[k]
  match c.entry with
  | some i =>
    let t : StitchPart := { entry := i, tail := true, spot := spotOf s e k, source := k.val, addr := c.addr,
                            lo := c.marks.foldl min 495, hi := 495, marks := c.marks, flags := c.cur }
    let from_ := (c.cur.at_.map Prod.snd).foldl min p
    let s := storePart e i (c.bits.filter fun b => decide (from_ ≤ b.1) && decide (b.1 < p)) s
    rasShow e ((s.modCh e k fun c => { c with entry := none }).modSeam e fun g => { g with parts := g.parts ++ [t] })
  | none => s

/-- The captured equaliser outputs of the cluster with flags `f` go to the replay buffer (R94). -/
def capStore (e : Eng) (k : Chn) (f : ClFlags) (s : State) : State :=
  let d := s.eng[e].ch[k].dsp
  s.ddrPutBytes (s.get (RPL_BASE.BASE e k) * 2 ^ 20) (((d.eq.take (d.pos - f.start)).reverse).take clusterBits)

/-- A new cluster begins with its run-in observed: the flags of the one before are kept for its decode (R84, R94). -/
def newCluster (e : Eng) (k : Chn) (pos : Nat) (s : State) : State :=
  let armed := s.isSet (RPL_CTRL.CAP_ARM e k)
  let p := pos - Config.runIn
  let s := keepTail e k p s
  let s := if s.eng[e].ch[k].cap then capStore e k s.eng[e].ch[k].cur s else s
  s.modCh e k fun c => { c with
    obs := .whole, marks := [], addr := none
    done := { c.cur with er := c.cur.er.filter (· < p), unrel := c.cur.unrel.filter (· < p) }
    doneObs := c.obs, doneCap := c.cap
    cur := { er := c.cur.er.filter (p ≤ ·), unrel := c.cur.unrel.filter (p ≤ ·) }
    bits := c.bits.filter fun b => decide (p ≤ b.1)
    dsp := { c.dsp with eq := c.dsp.eq.take (c.dsp.pos - p) }
    cap := armed }

/-- A mark of frame `f` is taken at `pos` (R84-R86): frame 0 begins a cluster. `real`: not inserted. -/
def takeMark (e : Eng) (k : Chn) (pos f : Nat) (real : Bool) (s : State) : State :=
  let s := if f = 0 ∧ s.eng[e].ch[k].frame ≠ 0 then newCluster e k pos s else s
  let s := s.modCh e k fun c => { c with
    mark := pos, frame := f, cands := [], marks := if real then c.marks ++ [f] else c.marks
    cur := { c.cur with at_ := (f, pos) :: c.cur.at_ } }
  markSwitch e k (showFrame e k f (if real then capSee e k 3 s else s))

/-- The read-ahead number of a blank chain: one turn ahead CH2 outward and CH0 inward, two turns CH3 (R144). -/
def aheadOf (k : Chn) : Nat := if k.val = 3 then 1 else 0

/-- A tail part takes a stitch entry (R114). -/
def entryTake (e : Eng) (entry : Option Nat) (s : State) : State :=
  match entry with
  | some i => rasShow e (s.modSeam e fun g => { g with busy := g.busy ++ [i] })
  | none => s

/-- SYNC_ACQ: the flywheel is LOCKED; after a landing the cluster in progress becomes a tail part, which takes a stitch entry; a blank
chain has found recorded data (R84, R107, R114, R144). -/
def syncAcquired (e : Eng) (k : Chn) (s : State) : State :=
  let s := ((s.put (CH_STAT.FLY_STATE e k) flyLocked).put (CH_STAT.MISS_RUN e k) 0).raise (CH_EVT.SYNC_ACQ e k)
  let entry := if s.eng[e].ch[k].landing ∧ isDelivering s e k = true ∧ s.get (SEAM_STAT.STATE e) ≠ seamIdle then freeOf 16 s.eng[e].seam.busy
    else none
  let s := s.modCh e k fun c => { c with
    obs := if entry.isSome then .tail else .none
    marks := (List.range c.acq).map fun i => c.frame - i
    cur := { c.cur with at_ := (List.range c.acq).map fun i => (c.frame - i, c.mark - frameBits * i), whole2 := [], last2 := [], insAt := []
                        slip := false, drop := false }
    entry := entry, landing := false, acq := 0, prevAddr := none, addr := none }
  let s := entryTake e entry s
  if s.eng[e].ch[k].blank then wrNotBlank e (aheadOf k) s else s

/-- A mark in SEARCH: consecutive when 1,932 bits on with the next frame number; LOCK_N of them lock (R84). -/
def searchMark (e : Eng) (k : Chn) (pos frame : Nat) (s : State) : State :=
  let c := s.eng[e].ch[k]
  let n := if 0 < c.acq ∧ pos = c.mark + frameBits ∧ frame = c.frame + 1 then c.acq + 1 else 1
  let s := capSee e k 3 (s.modCh e k fun c => { c with mark := pos, frame := frame, acq := n })
  let s := markSwitch e k (showFrame e k frame s)
  if max 1 (s.get (SYNC_CFG.LOCK_N e k)) ≤ n then syncAcquired e k s else s

/-- A mark in LOCKED is a candidate when it lies in the window P - 3 to P + 3 (R85). -/
def lockedMark (e : Eng) (k : Chn) (pos mism frame : Nat) (s : State) : State :=
  let p := s.eng[e].ch[k].mark + frameBits
  if p ≤ pos + 3 ∧ pos ≤ p + 3 then s.modCh e k fun c => { c with cands := c.cands ++ [⟨pos, mism, frame⟩] } else s

/-- The old phase is restored: the kept frame lies at the old place (R86). -/
def phaseRestore (e : Eng) (k : Chn) (s : State) : State :=
  ((s.put (CH_STAT.FLY_STATE e k) flyLocked).inc (SYNC_CNT.RESTORED e k)).modCh e k fun c => { c with
    mark := c.provOld
    cur := { c.cur with at_ := c.cur.at_.map fun x => if x.1 = c.frame then (x.1, c.provOld) else x } }

/-- A mark in PROVISIONAL: exactly at the new prediction it confirms the new phase; at the old one, past the new, it restores
the old phase; otherwise it is a candidate of the old window (R86). -/
def provMark (e : Eng) (k : Chn) (pos mism frame : Nat) (s : State) : State :=
  let c := s.eng[e].ch[k]
  if pos = c.mark + frameBits then
    let s := (s.put (CH_STAT.FLY_STATE e k) flyLocked).inc (SYNC_CNT.KEPT e k)
    let slip := s.isSet (SYNC_CFG.SLIP_FRAME e k) && decide (0 < c.frame)
    let s := s.modCh e k fun c => { c with
      cur := { c.cur with slip := true, whole2 := if slip then (c.frame - 1) :: c.cur.whole2 else c.cur.whole2 } }
    takeMark e k pos frame true s
  else
    let old := c.provOld + frameBits
    let s := if pos = old ∧ c.mark < c.provOld then phaseRestore e k s else s
    if old ≤ pos + 3 ∧ pos ≤ old + 3 then s.modCh e k fun c => { c with cands := c.cands ++ [⟨pos, mism, frame⟩] } else s

/-- SYNC_MARK_DETECTED: outside R72 no mark is found (R72, R74, R83-R86). -/
def syncMark (e : Eng) (k : Chn) (pos mism frame level : Nat) (centre : Int) (s : State) : State :=
  if chRuns s e k && decide (mism ≤ s.get (SYNC_CFG.SYNC_TOL e k)) && !s.eng[e].ch[k].dsp.out then
    let s := agcMeasure e k level centre s
    if s.get (CH_STAT.FLY_STATE e k) = flySearch then searchMark e k pos frame s
    else if s.get (CH_STAT.FLY_STATE e k) = flyLocked then lockedMark e k pos mism frame s
    else provMark e k pos mism frame s
  else s

/-- The better of two candidates off P: fewer mismatches, nearer P, earlier (R85). -/
def betterCand (p : Nat) (a b : Cand) : Cand :=
  let da := ((a.pos : Int) - p).natAbs
  let db := ((b.pos : Int) - p).natAbs
  if b.mism < a.mism then b
  else if a.mism < b.mism then a
  else if db < da then b
  else if da < db then a
  else if b.pos < a.pos then b else a

/-- The window's choice: a mark at P, else the best candidate, else none (R85). -/
def chooseCand (p : Nat) (cs : List Cand) : Option Cand :=
  match cs.find? fun c => c.pos = p with
  | some c => some c
  | none => match cs with
    | [] => none
    | c :: rest => some (rest.foldl (betterCand p) c)

/-- The address of the cluster a chain is in: as its address units gave it, else the one after the last decoded (R84, R88). -/
def curAddr (c : ChInt) : Option ClAddr :=
  match c.addr, c.prevAddr with
  | some a, _ => some a
  | none, some p => some { p with cluster := p.cluster + 1#28 }
  | none, none => none

/-- A failed cluster is reported, save in seam hold (R99, R106). -/
def clusterFail (e : Eng) (k : Chn) (s : State) : State :=
  if s.eng[e].ch[k].seamHold then s else capSee e k 2 (s.raise (CH_EVT.CLUSTER_FAIL e k))

/-- The spot a decoded cluster of a chain counts for, when the chain delivers it: its own, or the one it has handed over with a
straddling cluster still to come (R158, R160). -/
def deliverSpot (s : State) (e : Eng) (k : Chn) : Option Nat :=
  match s.eng[e].tmp.outgoing with
  | some (c, j) => if c = k then some j else if isDelivering s e k then some (spotOf s e k) else none
  | none => if isDelivering s e k then some (spotOf s e k) else none

/-- The chain holds the straddling cluster of a hand-over (R160). -/
def isOutgoing (s : State) (e : Eng) (k : Chn) : Bool :=
  match s.eng[e].tmp.outgoing with
  | some x => x.1 == k
  | none => false

/-- The straddling cluster of a hand-over has been delivered (R160). -/
def straddleClear (e : Eng) (k : Chn) (s : State) : State :=
  if isOutgoing s e k then s.modTmp e fun x => { x with outgoing := none, incoming := none } else s

/-- SYNC_LOST: the third miss in a row. The cluster's result word goes out failed and without data, to the reassembly buffer, whose
release sends it to the ladder, or to the verify comparator; outside a run ESQ<n> sends it to the ladder. What its EDC mask holds is open
(R88, R92, R137, R147, log 93). -/
def syncLost (e : Eng) (k : Chn) (s : State) : State :=
  let c := s.eng[e].ch[k]
  let s := (s.raise (CH_EVT.SYNC_LOST e k)).inc (SYNC_CNT.LOST e k)
  let s := chainSearch e k (capSee e k 1 s)
  if c.obs = .whole then
    let w : Word := BitVec.ofNat 32 (0x40 + (if c.cur.insAt != [] then 0x10 else 0) + (if c.cur.slip then 0x20 else 0)
      + (if c.cur.er != [] then 0x80 else 0))
    let s := clusterFail e k (s.wr (DEC_STAT.reg e k) w)
    let s := match c.addr with
      | some a => s.wr (DEC_ADDR.reg e k) (clWord a true)
      | none => s.put (DEC_ADDR.VALID e k) 0
    if writing s e && k == verChain s e then
      verifyResult e { ok := false, result := w, addr := curAddr c, ldcMax := 0, bisMax := 0, data := Vector.replicate 16 0#32768, beta := none } s
    else match deliverSpot s e k, curAddr c with
      | some j, some a =>
        if c.cur.drop && !isOutgoing s e k then s
        else
          let s := straddleClear e k s
          if s.get (SEAM_STAT.STATE e) = seamIdle then ladderEnter e a j s
          else rasAccept e { addr := a, ok := false, result := w, edc := Config.lostEdc s.fresh, data := none, spot := j, source := k.val } s.tickFresh
      | _, _ => s
  else s

/-- MARK_INSERTED: no candidate; a miss is counted, the third declares sync lost (R85, R87, R88). The two frame lengths of
run-out and run-in after frame 495 count as 496 and 497 (log 23). -/
def insertMark (e : Eng) (k : Chn) (p : Nat) (s : State) : State :=
  let m := s.get (CH_STAT.MISS_RUN e k) + 1
  let f := (s.eng[e].ch[k].frame + 1) % 498
  let s := takeMark e k p f false (s.inc (SYNC_CNT.MISSED e k))
  let er := s.isSet (SYNC_CFG.MISS_ERASE e k)
  let s := s.modCh e k fun c => { c with cur := { c.cur with
    insAt := if f < 496 then f :: c.cur.insAt else c.cur.insAt
    whole2 := if er && decide (f < 496) then f :: c.cur.whole2 else c.cur.whole2 } }
  if 3 ≤ m then syncLost e k s else s.put (CH_STAT.MISS_RUN e k) m

/-- The decision at the window's close (R85, R86). -/
def decideWindow (e : Eng) (k : Chn) (p : Nat) (s : State) : State :=
  match chooseCand p s.eng[e].ch[k].cands with
  | none => insertMark e k p s
  | some c =>
    let s := takeMark e k c.pos c.frame true (s.put (CH_STAT.MISS_RUN e k) 0)
    if c.pos = p then s
    else
      let s := (s.put (CH_STAT.FLY_STATE e k) flyProv).putInt (SYNC_STAT.LAST_E e k) ((c.pos : Int) - p)
      s.modCh e k fun x => { x with
        provOld := p
        cur := { x.cur with last2 := if 0 < x.frame then (x.frame - 1) :: x.cur.last2 else x.cur.last2 } }

/-- SYNC_WINDOW_CLOSE at P + 3: in PROVISIONAL the old phase is restored first (R85, R86). `addr`: what the address units of
the cluster have given. -/
def syncWindow (e : Eng) (k : Chn) (pos : Nat) (addr : Option ClAddr) (s : State) : State :=
  if chRuns s e k then
    let c := s.eng[e].ch[k]
    let st := s.get (CH_STAT.FLY_STATE e k)
    let p := (if st = flyProv then c.provOld else c.mark) + frameBits
    if st ≠ flySearch ∧ pos = p + 3 then
      let s := s.modCh e k fun c => { c with addr := match addr with | some a => some a | none => c.addr }
      decideWindow e k p (if st = flyProv then phaseRestore e k s else s)
    else s
  else s

/-! ### Erasures and decoding (R89-R92) -/

/-- Channel bits of a byte whose frame begins at bit `m` that a list of bits meets. -/
def hits (m b : Nat) (xs : List Nat) : Bool :=
  xs.any fun x => decide (m + (Config.byteSpan b).1 ≤ x) && decide (x ≤ m + (Config.byteSpan b).2)

/-- The erasure class of byte `b` of frame `f`, 0 for none: 1 an erased sample, 2 flagged by the flywheel, 3 an unreliable bit. A frame
has 155 bytes: 24 x 62 + 304 x 248 symbols in 496 frames (R86-R89). -/
def byteClass (c : ClFlags) (f b : Nat) : Nat :=
  let m := (c.markAt f).getD 0
  if hits m b c.er then 1
  else if c.whole2.contains f || (c.last2.contains f && b == 154) then 2
  else if hits m b c.unrel then 3 else 0

/-- The erasure class of a symbol, by the flags of its frame (R89). -/
def symClass (fl : Nat → ClFlags) (bis : Bool) (w i : Nat) : Nat :=
  let x := Config.symPlace bis w i
  byteClass (fl x.1) x.1 x.2

/-- Symbols of a codeword of length `n` that carry a class. -/
def ofClass (cls : Nat → Nat) (n c : Nat) : List Nat := (List.range n).filter fun i => cls i == c

/-- Errors that are not among the erasures. -/
def errsOff (errs er : List Nat) : Nat := (errs.filter fun i => !er.contains i).length

/-- A BIS codeword is corrected when 2e + f is at most 32 (R90). -/
def bisOk (cls : Nat → Nat) (errs : List Nat) : Bool :=
  let er := (List.range 62).filter fun i => cls i != 0
  decide (2 * errsOff errs er + er.length ≤ 32)

/-- The erasures of an LDC codeword that the decoder uses: class 3, then class 2, are dropped down to the limit, never class 1 (R91, log
78). -/
def ldcKeep (lim w : Nat) (cls : Nat → Nat) : List Nat :=
  let one := ofClass cls 248 1
  let by_ (c : Nat) : List Nat := sortBy (fun a b => decide (Config.dropOrder w b < Config.dropOrder w a)) (ofClass cls 248 c)
  one ++ (by_ 2 ++ by_ 3).take (lim - one.length)

/-- An LDC codeword is corrected when 2e + f is at most 32 - MARGIN; more class-1 erasures than that fail it (R91). -/
def ldcOk (margin w : Nat) (cls : Nat → Nat) (errs : List Nat) : Bool :=
  let lim := 32 - margin
  let er := ldcKeep lim w cls
  decide ((ofClass cls 248 1).length ≤ lim) && decide (2 * errsOff errs er + er.length ≤ lim)

/-- The place of a symbol in recording order. -/
def symOrder (bis : Bool) (w i : Nat) : Nat := (Config.symPlace bis w i).1 * 155 + (Config.symPlace bis w i).2

/-- A byte lies between two BIS bytes that follow each other in recording order and are both in error (R90). -/
def inBurst (all bad : List Nat) (p : Nat) : Bool :=
  match (all.filter (· < p)).max?, (all.filter (p < ·)).min? with
  | some a, some b => bad.contains a && bad.contains b
  | _, _ => false

/-- Codewords by number. -/
def numbered (ws : List (List Nat)) : List (Nat × List Nat) := (List.range ws.length).zip ws

/-- What a decode shows: OK, the result word, and the symbols corrected in each corrected codeword, by number (R92, R99). -/
structure DecodeView where
  ok : Bool
  word : Word
  ldc : List (Nat × List Nat)
  bis : List (Nat × List Nat)

/-- Most symbols corrected in one codeword, and in all. -/
def corrMax (ws : List (Nat × List Nat)) : Nat := ws.foldl (fun m w => max m w.2.length) 0
def corrSum (ws : List (Nat × List Nat)) : Nat := ws.foldl (fun t w => t + w.2.length) 0

/-- What the decoder takes from its chain and from the passes before (R89-R94). -/
structure DecodeIn where
  fl : Nat → ClFlags                  -- the flags by frame
  known : List Nat                    -- LDC codewords known from earlier passes
  feed : Bool                         -- a later pass: frames with the inserted-sync flag are erased
  lost : Bool                         -- outside R72
  replay : Option Nat                 -- pass of a replay

/-- The class of an LDC symbol after BIS decoding: the flywheel's, a burst's, none in a known codeword (R89, R90, R94). -/
def ldcClass (x : DecodeIn) (burst : Bool) (all bad : List Nat) (w i : Nat) : Nat :=
  let c := symClass x.fl false w i
  let p := Config.symPlace false w i
  if x.known.contains w then 0
  else if c = 1 then 1
  else if (burst && inBurst all bad (symOrder false w i)) || (x.feed && (x.fl p.1).insAt.contains p.1) then 2
  else c

/-- The result word of a decode (R89-R92, R99). -/
def decodeView (s : State) (e : Eng) (k : Chn) (d : Decoded) (x : DecodeIn) : DecodeView :=
  let bisAll := numbered d.bis
  let bis := bisAll.filter fun w => bisOk (symClass x.fl true w.1) w.2
  let order := (List.range 24).flatMap fun w => (List.range 62).map (symOrder true w)
  let bad := bis.flatMap fun w => w.2.map (symOrder true w.1)
  let cls := ldcClass x (s.isSet (DEC_CFG.BURST_EN e k)) order bad
  let ldcAll := numbered d.ldc
  let ldc := ldcAll.filter fun w => x.known.contains w.1 || ldcOk (s.get (DEC_CFG.MARGIN e k)) w.1 (cls w.1) w.2
  let bisBad := decide (bis.length < bisAll.length)
  let ldcBad := decide (ldc.length < ldcAll.length)
  let ok := !bisBad && !ldcBad && d.edc == 0#32 && !x.lost
  let b (x : Bool) (i : Nat) : Nat := if x then 2 ^ i else 0
  let ins := (List.range 496).any fun f => (x.fl f).insAt.contains f
  let er := (bisAll.any fun w => ofClass (symClass x.fl true w.1) 62 1 != []) || ldcAll.any fun w => ofClass (symClass x.fl false w.1) 248 1 != []
  { ok := ok, ldc := ldc, bis := bis
    word := BitVec.ofNat 32 (b ok 0 + b (d.edc != 0#32) 1 + b ldcBad 2 + b bisBad 3 + b ins 4 + b ((x.fl 0).slip || (x.fl 495).slip) 5
      + b er 7 + b x.replay.isSome 8
      + x.replay.getD 0 % 4 * 2 ^ 9 + min 63 (corrMax ldc) * 2 ^ 12 + min 63 (corrMax bis) * 2 ^ 18) }

/-- The chain's registers of the last cluster (R99). -/
def decodeShow (e : Eng) (k : Chn) (d : Decoded) (v : DecodeView) (s : State) : State :=
  let s := (s.wr (DEC_STAT.reg e k) v.word).wr (DEC_EDC.reg e k) d.edc
  let s := s.wr (DEC_SYM.reg e k) (BitVec.ofNat 32 (min 0xFFFF (corrSum v.ldc) + min 0xFFFF (corrSum v.bis) * 2 ^ 16))
  let s := match d.addr with
    | some a => s.wr (DEC_ADDR.reg e k) (clWord a true)
    | none => s.put (DEC_ADDR.VALID e k) 0
  if v.ok then s else clusterFail e k s

/-- REPLAY_CAPTURE_DONE: with a matching address the capture stands in the replay buffer; otherwise it is discarded and stays armed
(R94). -/
def captureEnd (e : Eng) (k : Chn) (d : Decoded) (f : ClFlags) (s : State) : State :=
  if d.addr = some { cluster := BitVec.ofNat 28 (s.get (RPL_CLUSTER.CLUSTER e k)), layer := BitVec.ofNat 3 (s.get (RPL_CLUSTER.LAYER e k)) } then
    let s := (s.put (RPL_CTRL.CAP_ARM e k) 0).put (RPL_CTRL.CAPTURED e k) 1
    s.modCh e k fun c => { c with cap := false, capOf := f.rebase }
  else s

/-- The decoded address is out of sequence for the run: another layer, or not the one above the last of this stretch (R208,
log 24). -/
def wrongAddr (s : State) (e : Eng) (k : Chn) (a : ClAddr) : Bool :=
  a.layer.toNat != s.get (RAS_FIRST.LAYER e) || (match s.eng[e].ch[k].prevAddr with
    | some p => a.cluster != p.cluster + 1#28
    | none => false)

/-- The flags the decoder of chain `k` takes, by frame: its own, and from the boundary of a hand-over on those of the chain that took
over (R160). -/
def flagsOf (s : State) (e : Eng) (k : Chn) (own : ClFlags) : Nat → ClFlags :=
  match s.eng[e].tmp.incoming with
  | some (b, f) =>
    let g := if s.eng[e].ch[b].cur.drop then s.eng[e].ch[b].cur else s.eng[e].ch[b].done
    if isOutgoing s e k then fun n => if n < f then own else g else fun _ => own
  | none => fun _ => own

/-- The address a decoded cluster is delivered under: that of its BIS, else the one in sequence (R92). -/
def givenAddr (s : State) (e : Eng) (k : Chn) (d : Decoded) : Option ClAddr :=
  match d.addr with
  | some a => some a
  | none => curAddr { s.eng[e].ch[k] with addr := none }

/-- Armature hears of a cluster decoded with OK = 1; one that is not in the ladder has not needed it, one that is counts when it leaves
(R253). -/
def patNote (e : Eng) (c : ClAddr) (ldc bis : Nat) (s : State) : State :=
  let s := note (.decoded e c ldc bis) s
  if s.eng[e].rty.any fun i => i.addr == c then s else note (.left e c 0) s

/-- Where a decoded cluster goes: the verify comparator, or the reassembly buffer for a delivering chain (R92, R124, R158). -/
def decodeRoute (e : Eng) (k : Chn) (d : Decoded) (v : DecodeView) (s : State) : State :=
  if writing s e then
    if k = verChain s e then
      verifyResult e { ok := v.ok, result := v.word, addr := d.addr, ldcMax := corrMax v.ldc, bisMax := corrMax v.bis, data := d.data
                       beta := some (beta d.lv) } s
    else s
  else match deliverSpot s e k with
  | none => s
  | some j =>
    let s := straddleClear e k s
    match givenAddr s e k d with
    | none => s
    | some a =>
      let wrong := v.ok && s.get (SEAM_STAT.STATE e) == seamRunning && wrongAddr s e k a
      let s := s.modCh e k fun c => { c with prevAddr := some a }
      let s := if v.ok then patNote e a (corrSum v.ldc) (corrSum v.bis) s else s
      let s := rasAccept e { addr := a, ok := v.ok, result := v.word, edc := d.edc, data := some d.data, spot := j, source := k.val } s
      if wrong then loopFault e 5 s else s

/-- The chain decodes: it runs on its stream, in no write hold and no blank mode (R73, R99, R124). -/
def decodes (s : State) (e : Eng) (k : Chn) : Bool :=
  let c := s.eng[e].ch[k]
  s.isSet (CH_CTRL.ENABLE e k) && !c.stopped && !c.writeHold && !c.blank && !(k == 4 && s.isSet (CH_CTRL.REPLAY e k))

/-- A chain finishes decoding a cluster with flags `f`. -/
def decodeOne (e : Eng) (k : Chn) (d : Decoded) (f : ClFlags) (cap : Bool) (s : State) : State :=
  let v := decodeView s e k d { fl := flagsOf s e k f, known := [], feed := false, lost := s.eng[e].ch[k].dsp.out, replay := none }
  let s := decodeShow e k d v s
  let s := if cap && s.isSet (RPL_CTRL.CAP_ARM e k) then captureEnd e k d f s else s
  tmpStraddleDone e k (if f.drop && !isOutgoing s e k then s else decodeRoute e k d v s)

/-- CLUSTER_DECODED: the decoder works on clusters whose run-in the chain observed in LOCKED: the one in progress once its last frame
has begun, else the one before it (R84, R89-R93). -/
def clusterDecode (e : Eng) (k : Chn) (d : Decoded) (s : State) : State :=
  let c := s.eng[e].ch[k]
  if decodes s e k then
    if 495 ≤ c.frame then
      if c.obs = .whole then
        let s := if c.cap then capStore e k c.cur s else s
        decodeOne e k d c.cur c.cap (s.modCh e k fun c => { c with obs := .none })
      else s
    else if c.doneObs = .whole then decodeOne e k d c.done c.doneCap (s.modCh e k fun c => { c with doneObs := .none })
    else s
  else s

/-- CHAIN_ENABLE; CH4's CTRL takes no write in a session (R99, R167). -/
def chainOn (e : Eng) (k : Chn) (s : State) : State :=
  if tmpActive s e && k == 4 then s else s.put (CH_CTRL.ENABLE e k) 1

/-- CHAIN_DISABLE: the chain stops; a Temper session on it ends with ABORTED (R99, R165, R167). -/
def chainOff (e : Eng) (k : Chn) (s : State) : State :=
  let s := chainReset e k (s.put (CH_CTRL.ENABLE e k) 0)
  if tmpActive s e && (k == 4 || k == targetChain (s.get (TMP_STAT.TARGET e))) then tmpAbandonWith e 7 (k == 4) s else s

/-- CH_CNT_CLR: SYNC_CNT is cleared; an increment of the same cycle (KEPT, RESTORED, MISSED, LOST) is kept; CH4's CTRL takes no write in
a session (R99, R167). -/
def chCntClear (e : Eng) (k : Chn) (same : BitVec 4) (s : State) : State :=
  if tmpActive s e && k == 4 then s
  else
    let s := s.wr (SYNC_CNT.reg e k) 0#32
    (((s.put (SYNC_CNT.KEPT e k) (bits same 0 1)).put (SYNC_CNT.RESTORED e k) (bits same 1 1)).put (SYNC_CNT.MISSED e k) (bits same 2 1)).put
      (SYNC_CNT.LOST e k) (bits same 3 1)

/-! ### Replay (R94, R95) -/

/-- ITER_MAX, 0 as 1 and above 4 as 4 (R99). -/
def iterMax (s : State) (e : Eng) : Nat := max 1 (min 4 (s.get (DEC_CFG.ITER_MAX e 4)))

/-- A bit of the replayed cluster lies in a byte of a known codeword. -/
def bitKnown (f : ClFlags) (known : List Nat) (p : Nat) : Bool :=
  known.any fun w => (List.range 248).any fun i =>
    let x := Config.symPlace false w i
    hits ((f.markAt x.1).getD 0) x.2 [p]

/-- The level the detector is forced to at a bit: that of a known byte (R94, log 77). -/
def forcedAt (f : ClFlags) (known : List Nat) (d : Decoded) (p : Nat) : Option Bool :=
  match d.addr with
  | some a => if bitKnown f known p then some (Config.encode (clWord a false) d.data p) else none
  | none => none

/-- One pass of the detector over the replay buffer (R94): the bits of the cluster, newest first. Zeros follow the last byte until its
decision is due. -/
def replayBits (s : State) (e : Eng) (force : Nat → Option Bool) : List (Nat × DetBit) :=
  let c := dspCfg s e 4
  let zs := (s.ddrGetBytes (s.get (RPL_BASE.BASE e 4) * 2 ^ 20) clusterBits).map fun b => (b.toInt * 2 ^ 34 : Int)
  let r0 : DspRun := { d := {}, t := loadTaps s e 4 }
  ((zs ++ List.replicate 63 0).foldl (fun (r : DspRun) z => dspDecide c force { r with d := { r.d with z := ⟨z, false⟩ :: r.d.z } }) r0).out

/-- A pass: pass 1 finds the unreliable bits; later passes keep their erasures and force the known bits (R94). -/
def replayDetect (e : Eng) (d : Decoded) (s : State) : State :=
  let c := s.eng[e].ch[(4 : Fin 5)]
  let bs := replayBits s e (forcedAt c.cur c.known d)
  s.modCh e 4 fun c => { c with
    bits := bs
    cur := if s.get (RPL_CTRL.PASS e 4) = 0 then { c.cur with unrel := (bs.filter (·.2.unrel)).map Prod.fst } else c.cur }

/-- A replay result for a cluster the run has already released: OK, it takes a slot and a descriptor of its own; otherwise the
reassembly buffer takes it like any delivery (R94, R115, R117, log 25). -/
def rasReplay (e : Eng) (x : Delivery) (s : State) : State :=
  let a := x.addr.cluster.toNat
  let inRun := decide (s.get (RAS_FIRST.CLUSTER e) ≤ a) && decide (a ≤ s.get (RAS_LAST.CLUSTER e)) && x.addr.layer.toNat == s.get (RAS_FIRST.LAYER e)
  let gone := !s.isSet (RAS_NEXT.VALID e) || decide (a < s.get (RAS_NEXT.CLUSTER e))
  if inRun && gone then
    if x.ok then
      match freeOf 64 s.eng[e].seam.used with
      | some i =>
        let h : RasSlot := ⟨i, x.addr, true, x.result, x.edc, x.spot, x.source, true, true⟩
        let s := s.modSeam e fun g => { g with used := g.used ++ [i], held := g.held ++ [h] }
        let s := slotData e i x.data s
        rasShow e (s.mqPut (s.get (RAS_CFG.MQ e)) (rasDescriptor x.addr (some h)))
      | none => rasRefuse e x s
    else s
  else rasAccept e x s

/-- A replay result goes out as a cluster of spot `spot` (R94). -/
def replayDeliver (e : Eng) (spot : Nat) (d : Decoded) (v : DecodeView) (s : State) : State :=
  match d.addr with
  | some a =>
    let s := if v.ok then patNote e a (corrSum v.ldc) (corrSum v.bis) s else s
    rasReplay e { addr := a, ok := v.ok, result := v.word, edc := d.edc, data := some d.data, spot := spot, source := 4 } s
  | none => s

/-- REPLAY_PASS_DONE: the pass's decode, fed with what the earlier ones corrected; then the next pass, or the end: OK or ITER_MAX passes;
the result goes out as a cluster of spot SPOT (R94). -/
def replayPass (e : Eng) (d : Decoded) (s : State) : State :=
  if s.isSet (CH_STAT.REPLAY_BUSY e 4) then
    let n := s.get (RPL_CTRL.PASS e 4)
    let s := replayDetect e d s
    let c := s.eng[e].ch[(4 : Fin 5)]
    let v := decodeView s e 4 d { fl := fun _ => c.cur, known := c.known, feed := decide (0 < n), lost := false, replay := some n }
    let s := s.modCh e 4 fun c => { c with known := v.ldc.map Prod.fst }
    if v.ok || decide (iterMax s e ≤ n + 1) then
      let s := decodeShow e 4 d v ((s.put (CH_STAT.REPLAY_BUSY e 4) 0).raise (CH_EVT.REPLAY_DONE e 4))
      if s.get (CH_CTRL.SPOT e 4) < 4 then replayDeliver e (s.get (CH_CTRL.SPOT e 4)) d v s else s
    else s.put (RPL_CTRL.PASS e 4) (n + 1)
  else s

/-! ### The stitch decoder (R109, R110) -/

/-- The flags of a joined cluster by frame: the head part's before the join, the tail part's from it on (R108, R109). -/
def jobFlags (j : StitchJob) (f : Nat) : ClFlags := if f < j.joinFrame then { j.hf with slip := j.hf.slip || j.tf.slip } else j.tf

/-- STITCH_DECODED: the stitch decoder delivers the cluster whose head part came first; its entries are free (R109, R110). -/
def stitchDone (e : Eng) (d : Decoded) (s : State) : State :=
  match s.eng[e].seam.jobs with
  | [] => s
  | j :: rest =>
    let v := decodeView s e (targetChain j.source) d { fl := jobFlags j, known := [], feed := false, lost := false, replay := none }
    let s := s.modSeam e fun g => { g with jobs := rest }
    let s := stitchDrop e (s.inc (RAS_CNT.STITCHED e)) [j.head, j.tail]
    let s := if v.ok then patNote e j.addr (corrSum v.ldc) (corrSum v.bis) s else s
    rasAccept e { addr := j.addr, ok := v.ok, result := v.word ||| 0x800#32, edc := d.edc, data := some d.data, spot := j.spot, source := 5 } s

/-! ### Wobble PLL (R75-R77, R100) -/

/-- WPLL_LOCK; never on a BD-ROM. The spec does not say when HOLDOVER ends: here when the PLL locks again (R75, R77, R98; DESIGN CHOICE,
log 92). -/
def wpllLocked (e : Eng) (fb : Nat) (s : State) : State :=
  if s.isSet (WPLL_CTRL.ENABLE e) && !romIn s e then
    (((s.put (WPLL_STAT.LOCK e) 1).put (WPLL_STAT.HOLDOVER e) 0).put (WPLL_STAT.FB e) fb).raise (WPLL_EVT.LOCK e)
  else s

/-- WPLL_LOCK_LOST: holdover, fallback of wobble-clocked chains, steering suspended at the cap's fixed rate, a write run aborted
(R77, R139). -/
def wpllLost (e : Eng) (s : State) : State :=
  if s.isSet (WPLL_STAT.LOCK e) then
    let s := ((s.put (WPLL_STAT.LOCK e) 0).put (WPLL_STAT.HOLDOVER e) 1).raise (WPLL_EVT.LOCK_LOST e)
    let s := (List.finRange 5).foldl (fun (s : State) (k : Fin 5) =>
      if s.isSet (CH_CTRL.TR_MODE e k) then (s.put (CH_STAT.FALLBACK e k) 1).raise (CH_EVT.FALLBACK e k) else s) s
    let s := if s.isSet (HL_RATE.STEERED e) then sendSr e (capCode s e) (s.put (WPLL_STAT.STEER_SUSP e) 1) else s
    wrAbort e false s
  else s

/-- WPLL_RESUME: with the PLL locked, fallback and suspension end (R77). -/
def wpllResumed (e : Eng) (s : State) : State :=
  if s.isSet (WPLL_STAT.LOCK e) then
    (List.finRange 5).foldl (fun (s : State) (k : Fin 5) => s.put (CH_STAT.FALLBACK e k) 0) (s.put (WPLL_STAT.STEER_SUSP e) 0)
  else s

/-! ### Capture buffer (R100, R101) -/

/-- CAP_CTRL_WRITE: a capture under way is stopped and discarded first; ARM = 1 starts one, whose immediate trigger is there at once
(R100, R101). -/
def capWrite (e : Eng) (v : Word) (s : State) : State :=
  let s := if s.isSet (CAP_CTRL.ARM e) then s.modEng e fun g => { g with cap := [] } else s
  let s := ((((s.put (CAP_CTRL.ARM e) (bits v 0 1)).put (CAP_CTRL.CHAIN e) (bits v 1 3)).put (CAP_CTRL.POINT e) (bits v 4 3)).put
    (CAP_CTRL.TRIG e) (bits v 8 2)).put (CAP_CTRL.PRE e) (bits v 10 6)
  let s := s.modEng e fun g => { g with capTrig := v.getLsbD 0 && bits v 8 2 == 0 }
  if v.getLsbD 0 then s.wr (CAP_STAT.reg e) 0#32 else s

/-- CAP_TRIGGER: the selected event has occurred, and the capture takes it at a byte of the buffer (R100, R101). -/
def capTrig (e : Eng) (pos : Nat) (s : State) : State :=
  if s.isSet (CAP_CTRL.ARM e) && s.eng[e].capTrig && !s.isSet (CAP_STAT.TRIGGERED e) then
    (s.put (CAP_STAT.TRIGGERED e) 1).put (CAP_STAT.TRIG_POS e) pos
  else s

/-- A sample as stored: 8 bits, saturated; detected bits (POINT 5) are stored as they are (R101). -/
def capByte (point : Nat) (x : Int) : Byte := if point = 5 then BitVec.ofInt 8 x else BitVec.ofInt 8 (clampInt (-128) 127 x)

/-- The bytes of a capture as a table. -/
def capCells (point : Nat) : Nat → List Int → List (Nat × Byte)
  | _, [] => []
  | i, x :: xs => if capByte point x = 0#8 then capCells point (i + 1) xs else (i, capByte point x) :: capCells point (i + 1) xs

/-- CAP_DONE: (64 - PRE) KiB past the trigger, DONE is set and ARM cleared (R101). -/
def capFinish (e : Eng) (samples : List Int) (s : State) : State :=
  if s.isSet (CAP_CTRL.ARM e) && s.isSet (CAP_STAT.TRIGGERED e) then
    let p := s.get (CAP_CTRL.POINT e)
    ((s.put (CAP_STAT.DONE e) 1).put (CAP_CTRL.ARM e) 0).modEng e fun g => { g with cap := capCells p 0 (samples.take 65536), capTrig := false }
  else s

/-- CHAIN_ENABLE (R99). -/
def execChainEnable (e : Eng) (k : Chn) (s : State) : Outcome := ok (chainOn e k s)
def execChainDisable (e : Eng) (k : Chn) (s : State) : Outcome := ok (chainOff e k s)
def execChCntClr (e : Eng) (k : Chn) (same : BitVec 4) (s : State) : Outcome := ok (chCntClear e k same s)
/-- RPL_CAP_ARM: armed, CAPTURED cleared (R94, R99). -/
def execRplCapArm (e : Eng) (k : Chn) (s : State) : Outcome := ok (capArm e k s)
def execRplPlay (e : Eng) (s : State) : Outcome := ok (replayPlay e s)
/-- RPL_ABORT: a running pass stops without a result (R95). -/
def execRplAbort (e : Eng) (s : State) : Outcome := ok (s.put (CH_STAT.REPLAY_BUSY e 4) 0)
def execWpllLock (e : Eng) (fb : BitVec 24) (s : State) : Outcome := ok (wpllLocked e fb.toNat s)
def execWpllResume (e : Eng) (s : State) : Outcome := ok (wpllResumed e s)
def execCapCtrlWrite (e : Eng) (v : Word) (s : State) : Outcome := ok (capWrite e v s)
def execCapTrigger (e : Eng) (pos : BitVec 16) (s : State) : Outcome := ok (capTrig e pos.toNat s)
def execCapDone (e : Eng) (samples : List Int) (s : State) : Outcome := ok (capFinish e samples s)

end Sys2Proof.Machine
end

