-- ==== Sys2Proof/Machine/HeadLink.lean ====
section
/-! DEFINITION. The head link: upstream frames, training, lane loss, three-lane operation, status of the ILH-F5, downstream frames
(R34-R48, R56-R70, R76). -/
namespace Sys2Proof.Machine

/-- The lowest lane of a set (R35). -/
def lowLane (m : Nat) : Nat := ((List.range 4).find? fun u => m.testBit u).getD 0

/-- The active lanes of the link. -/
def setLanes (e : Eng) (m : Nat) (s : State) : State := (s.put (HL_STAT.ACTIVE_MASK e) m).put (HL_STAT.CLK_LANE e) (lowLane m)

/-- SUP logs LINK_STATE with the state entered (R68). -/
def linkLog (e : Eng) (s : State) : State := s.logEvent .linkState [e.val, s.get (HL_STAT.STATE e)]

/-- Change what the receiver holds of a lane. -/
def State.modLane (s : State) (e : Eng) (u : Fin 4) (f : RxLane → RxLane) : State := s.modHl e fun h => { h with rx := h.rx.set u (f h.rx[u]) }

/-- The link leaves UP or DEGRADED: laser off, nothing left in line, a write run, a Temper session and an attempt of the ladder ended
(R52, R61, R65, R139, R148). -/
def linkLeave (e : Eng) (s : State) : State :=
  let s := wrAbort e true (s.emit (.ds e .laserOff))
  let s := attemptVoid e (tmpAbandonWith e 6 true s)
  (s.put (HL_STAT.SPARE_STREAM e) 0).modHl e fun h => { h with
    ready := [], trims := [], syms := [], writeEn := false, rx := h.rx.map fun r => { r with q := [] }, fseq := none
    rfErase := false, umaskPend := false }

/-- The pickup's loops have lost their samples: a loop fault unless focus is retracted (R61, R208). -/
def linkFault (e : Eng) (s : State) : State := if loopSt s e = 0 then s else focusLostOp e 2 s

/-- LINK_FAILED: the link enters FAILED; logged unless the training came from OFF (R59, R66, R68). -/
def linkFail (e : Eng) (log : Bool) (s : State) : State :=
  let s := ((s.put (HL_STAT.STATE e) hlFailed).raise (HL_EVT.LINK_FAILED e)).report (.hl e 2)
  let s := setLanes e 0 s
  linkFault e (if log then linkLog e s else s)

/-- A training attempt begins: nothing is granted, no lane in lock (R59). -/
def attemptStart (e : Eng) (s : State) : State :=
  s.modHl e fun h => { h with
    phase := .locking, granted := 0#4, since := s.us
    rx := h.rx.map fun r => { r with lock := false, cnt := 0, inv := 0, mark := none, q := [] } }

/-- A full training starts (R59); TMP_FREQ counts as measured no longer (R170). -/
def trainStart (e : Eng) (s : State) : State :=
  let prev := s.get (HL_STAT.STATE e)
  let s := if linkUp s e then linkLeave e s else s.emit (.ds e .laserOff)
  let s := setLanes e 0 ((s.put (HL_STAT.STATE e) hlTraining).put (HL_STAT.ATTEMPT e) 1)
  let s := s.put (TMP_FREQ.VALID e) 0
  attemptStart e (s.modHl e fun h => { h with prev := if prev = hlTraining then h.prev else prev, umask := 0xF#4 })

/-- TRAINING_COMPLETE: UP with four lanes, DEGRADED with three; the write clock counts from the first data frame; the trim shadow is
sent again (R59, R67, R68, R128, R162). -/
def trainDone (e : Eng) (s : State) : State :=
  let h := s.eng[e].hl
  let up := h.granted == 0xF#4
  let s := setLanes e h.granted.toNat ((s.put (HL_STAT.STATE e) (if up then hlUp else hlDegraded)).raise (HL_EVT.UP e))
  let s := (s.putBool (HL_STAT.RATE_CAP e) (!up)).putBool (HL_STAT.SPARE_STREAM e) up
  let s := if up then s else (s.raise (HL_EVT.LANE_DEGRADED e)).report (.hl e 1)
  let s := if h.prev = hlFailed ∨ h.prev = hlDegraded ∨ (!up ∧ h.prev ≠ hlOff) then linkLog e s else s
  let s := (s.put (WR_WPOS.WPOS e) 0).modHl e fun h => { h with
    umask := h.granted, laneBad := 0#4, winFrames := Vector.replicate 5 0, winErrs := Vector.replicate 5 0, wposRem := 0, fseq := none }
  let s := if steering s e then sendFw e (s.get (WPLL_STAT.FB e)) 0#16 s else sendSr e (s.get (HL_RATE.SR e)) s
  sendLevels e (shadowResend e s)

/-! ### Block lock and deskew (R34, R41) -/

/-- One sync header: out of lock 64 valid ones in a row gain it; in lock windows of 64 count, and 16 invalid ones lose it (R34). -/
def hdrStep (r : RxLane) (bad : Bool) : RxLane :=
  let cnt := r.cnt + 1
  let inv := r.inv + (if bad then 1 else 0)
  if r.lock then
    if 16 ≤ inv then { r with lock := false, cnt := 0, inv := 0 }
    else if 64 ≤ cnt then { r with cnt := 0, inv := 0 }
    else { r with cnt := cnt, inv := inv }
  else if bad then { r with cnt := 0, inv := 0 }
  else if 64 ≤ cnt then { r with lock := true, cnt := 0, inv := 0 }
  else { r with cnt := cnt }

/-- The sync headers of a frame, block 0 first: bit `i` says that block `i`'s is invalid, or 10 where a data block stands (R34, R36). -/
def hdrSteps (r : RxLane) (hdr : BitVec 16) : RxLane := (List.range 16).foldl (fun r i => hdrStep r (hdr.getLsbD i)) r

/-- Two lanes' markers, by FSEQ and block time, lie within 8 blocks (R41). -/
def skewOk (a b : Nat × Nat) : Bool :=
  let d := ((a.2 : Int) - 16 * a.1 - (b.2 - 16 * b.1)) % 64
  decide (d ≤ 8) || decide (56 ≤ d)

/-- A set of lanes that are all in block lock and within the skew tolerance of each other (R41). -/
def lanesFit (rx : Vector RxLane 4) (m : Nat) : Bool :=
  (List.finRange 4).all fun u => !m.testBit u.val || (rx[u].lock && (List.finRange 4).all fun v => !m.testBit v.val ||
    (match rx[u].mark, rx[v].mark with
      | some a, some b => skewOk a b
      | _, _ => false))

/-- The largest set of lanes of `m` that fits; of several the one with the lowest lanes (R41, log 94). -/
def bestLanes (rx : Vector RxLane 4) (m : Nat) : Nat :=
  ((List.range 16).filter fun x => x &&& m == x && lanesFit rx x).foldl (fun b x => if popcount 4 b < popcount 4 x then x else b) 0

/-- TRAINING_FRAME_RECEIVED on lane `u`, as it came over the line, its marker at block time `at_`: lock and deskew; LOCKING to ALIGNED
once every lane the ILH-F5 drives and no exclusion bars is aligned, or three are after 1,800 us; ALIGNED to READY on the ILH-F5's READY,
which the next downstream frame answers (R34, R40, R41, R59, log 94). -/
def trainFrame (e : Eng) (u : Fin 4) (marker : BitVec 64) (payload : List LinkBlock) (hdr : BitVec 16) (at_ : Nat) (s : State) : State :=
  let l := s.eng[e].hl.rx[u]
  let d := scrambleAll true l.scr (marker :: payload)
  let m := d.2.headD 0#64
  if s.get (HL_STAT.STATE e) = hlTraining then
    let s := s.incBy (HL_LANE.HDR_ERR e u) (popcount 16 hdr.toNat)
    let s := s.modLane e u fun r => { hdrSteps r hdr with scr := d.1 }
    if bits m 0 8 = 0x33 ∧ bits m 8 2 = u.val ∧ bits m 18 4 = 1 then
      let s := s.modLane e u fun r => { r with mark := some (bits m 10 2, at_) }
      match s.eng[e].hl.phase with
      | .locking =>
        let want := bits m 14 4 &&& (0xF#4 &&& ~~~ BitVec.ofNat 4 (s.get (HL_CTRL.LANE_EXCL e))).toNat
        let g := bestLanes s.eng[e].hl.rx want
        if 3 ≤ popcount 4 g ∧ (g = want ∨ s.eng[e].hl.since + 1800 ≤ s.us) then
          s.modHl e fun h => { h with phase := .aligned, granted := BitVec.ofNat 4 g }
        else s
      | .aligned => if bits m 12 2 = 2 then s.modHl e fun h => { h with phase := .ready } else s
      | .ready => s
    else s
  else s

/-- TRAIN_TIMEOUT: the attempt fails; another one up to MAX_ATTEMPT, then FAILED (R59, R67). -/
def trainTimeoutOp (e : Eng) (s : State) : State :=
  if s.get (HL_STAT.STATE e) = hlTraining then
    let n := s.get (HL_STAT.ATTEMPT e)
    if n < max 1 (s.get (HL_CFG.MAX_ATTEMPT e)) then attemptStart e (s.put (HL_STAT.ATTEMPT e) (n + 1))
    else linkFail e (s.eng[e].hl.prev != hlOff) s
  else s

/-- HL_ENABLE: ENABLE = 1 trains from OFF, in a running engine domain (R59). -/
def linkEnable (e : Eng) (s : State) : State :=
  let s := s.put (HL_CTRL.ENABLE e) 1
  if s.get (HL_STAT.STATE e) = hlOff ∧ engRuns s e = true then trainStart e s else s

/-- HL_RATE.FW of a link that is down shows the equivalent of SR (R67). -/
def fwShow (e : Eng) (s : State) : State :=
  if linkUp s e then s else s.put (HL_RATE.FW e) (fwOfSr (max (s.get (HL_RATE.SR e)) (capCode s e)))

/-- HL_DISABLE: laser off, lanes idle, OFF; nothing is logged (R67, R68). -/
def linkDisable (e : Eng) (s : State) : State :=
  let s := s.put (HL_CTRL.ENABLE e) 0
  if s.get (HL_STAT.STATE e) = hlOff then s
  else
    let s := if linkUp s e then linkLeave e s else s.emit (.ds e .laserOff)
    setLanes e 0 (s.put (HL_STAT.STATE e) hlOff)

/-- HL_RETRAIN: a full training of an enabled link. The spec does not say what RETRAIN does while ENABLE = 0 or the engine domain stands:
nothing here (R59; DESIGN CHOICE, log 95). -/
def linkRetrain (e : Eng) (s : State) : State :=
  if s.isSet (HL_CTRL.ENABLE e) && engRuns s e then trainStart e s else s

/-- HL_CNT_CLR: the lane counters are cleared; an increment of the same cycle is kept: bits 3u, 3u + 1, 3u + 2 for CRC_ERR, HDR_ERR and
LOCK_LOSS of lane u (R70). HDR_ERR of the downstream lane is always 0 (R67). -/
def linkCntClear (e : Eng) (same : BitVec 15) (s : State) : State :=
  (List.finRange 5).foldl (fun (s : State) (u : Fin 5) =>
    let s := (s.wr (HL_LANE.reg e u) 0#32).put (HL_LANE.CRC_ERR e u) (bits same (3 * u) 1)
    let s := if u = 4 then s else s.put (HL_LANE.HDR_ERR e u) (bits same (3 * u + 1) 1)
    s.put (HL_LANE.LOCK_LOSS e u) (bits same (3 * u + 2) 1)) s

/-- Clusters being read or verified when a lane is lost go to the ladder (R64). -/
def laneLadder (e : Eng) (s : State) : State :=
  let s := (List.finRange 5).foldl (fun (s : State) (k : Fin 5) =>
    let c := s.eng[e].ch[k]
    match c.addr with
    | some a => if isDelivering s e k && c.obs != .none then ladderEnter e a (spotOf s e k) s else s
    | none => s) s
  (s.eng[e].wr.entries.filter fun x => x.phase == .written && x.res.isNone).foldl (fun s x => ladderEnter e (descAddr x.desc) 1 s) s

/-- ESQ<n> lowers a spindle at which the outermost spot would exceed 8x, 528 Mbit/s, by that spot's bit rate as its chain measures it:
1,728 MHz / 2^24 x FW over fs/fb (R64, R72). -/
def slowTo8 (e : Eng) (s : State) : State :=
  let r := s.eng[e].ch[(3 : Fin 5)].dsp.ratio
  let fw := s.get (HL_RATE.FW e)
  let n := s.get (SPN_SPD.TARGET e)
  if 11 * r < 9 * fw ∧ 0 < n then spnTarget e (n * 11 * r / (9 * fw)) s else s

/-- LANE_DEGRADED: three-lane operation without retraining (R63-R65, R67). -/
def laneDrop (e : Eng) (u : Spot) (s : State) : State :=
  let m := (BitVec.ofNat 4 (s.get (HL_STAT.ACTIVE_MASK e))) &&& ~~~ BitVec.twoPow 4 u.val
  let s := ((s.put (HL_STAT.STATE e) hlDegraded).raise (HL_EVT.LANE_DEGRADED e)).report (.hl e 1)
  let s := setLanes e m.toNat ((s.put (HL_STAT.RATE_CAP e) 1).put (HL_STAT.SPARE_STREAM e) 0)
  let s := (s.modHl e fun h => { h with umask := m, umaskPend := true, rfErase := true }).modLane e u fun r => { r with q := [] }
  let s := slowTo8 e (linkLog e s)
  let s := if steering s e then sendFw e (s.get (WPLL_STAT.FB e)) 0#16 s else sendSr e (s.get (HL_RATE.SR e)) s
  let s := if tmpActive s e then tmpAbandonWith e 6 true s else sendSpare e 4 s
  laneLadder e s

/-- LANE_LOCK_LOST: three-lane operation, a retraining that counts as a loop fault, or FAILED (R59, R61, R63, R66). -/
def laneLost (e : Eng) (u : Spot) (s : State) : State :=
  let s := (s.inc (HL_LANE.LOCK_LOSS e u)).modLane e u fun r => { r with lock := false, cnt := 0, inv := 0 }
  if linkUp s e && (s.get (HL_STAT.ACTIVE_MASK e)).testBit u.val then
    if s.get (HL_STAT.STATE e) = hlDegraded ∨ s.eng[e].hl.umaskPend = true then linkFail e true (linkLeave e s)
    else if s.isSet (HL_CTRL.AUTO_DROP e) then laneDrop e u s
    else linkFault e (trainStart e s)
  else s

/-- CRC failures of a lane (4: the downstream lane) are counted, and set CRC_THRESH when they reach CRC_LIMIT within the window (R57). -/
def crcCount (e : Eng) (u : Fin 5) (n : Nat) (s : State) : State :=
  if n = 0 then s
  else
    let s := (s.incBy (HL_LANE.CRC_ERR e u) n).modHl e fun h => { h with winErrs := h.winErrs.set u (h.winErrs[u] + n) }
    if s.get (HL_CFG.CRC_LIMIT e) ≤ s.eng[e].hl.winErrs[u] then s.raise (HL_EVT.CRC_THRESH e) else s

/-- A frame of a lane passes. The spec does not say how the window of 2^(16 + CRC_WIN) frames lies: windows follow each other here, from
the end of the training on (R57; DESIGN CHOICE, log 96). -/
def crcFrame (e : Eng) (u : Fin 5) (s : State) : State :=
  s.modHl e fun h =>
    if 2 ^ (16 + s.get (HL_CFG.CRC_WIN e)) ≤ h.winFrames[u] + 1 then { h with winFrames := h.winFrames.set u 0, winErrs := h.winErrs.set u 0 }
    else { h with winFrames := h.winFrames.set u (h.winFrames[u] + 1) }

/-- F5_STATUS_BLOCK: HL_F5STAT, the downstream CRC count, DS_LOST with a report and a log of its own, the end of RF erasure in
interpolating mode (R48, R58, R63, R68, R69). -/
def f5Status (e : Eng) (b : LinkBlock) (s : State) : State :=
  if (linkUp s e || s.get (HL_STAT.STATE e) == hlTraining) && bits b 0 8 == 0x01 then
    let s := s.wr (HL_F5STAT.reg e) (BitVec.ofNat 32 (bits b 8 6 + bits b 32 16 * 2 ^ 16))
    let n := BitVec.ofNat 16 (bits b 16 16)
    let s := crcCount e 4 (n - s.eng[e].hl.dsCrc).toNat s
    let s := s.modHl e fun h => { h with dsCrc := n }
    if linkUp s e then
      if bits b 8 1 = 0 then
        let s := ((s.inc (HL_LANE.LOCK_LOSS e 4)).raise (HL_EVT.DS_LOST e)).report (.hl e 7)
        linkLog e (linkFail e true (linkLeave e s))
      else if s.eng[e].hl.rfErase && !steering s e && decide (capCode s e ≤ bits b 12 2) then s.modHl e fun h => { h with rfErase := false }
      else s
    else s
  else s

/-! ### Data frames (R37-R44, R56) -/

/-- The lanes of a data frame in order, by its BTYPE: four, or three without one; no other BTYPE is a data frame (R37, R43). -/
def lanesOfType (b : Nat) : List (Fin 4) :=
  if b = 0x78 then List.finRange 4
  else if 0x70 ≤ b ∧ b ≤ 0x73 then (List.finRange 4).filter fun u => u.val + 0x70 != b
  else []

/-- The stream of data block `j` (1-15) of a marker (R37). -/
def mapId (map : BitVec 45) (j : Nat) : Nat := bits map (3 * (j - 1)) 3

/-- The frame a lane gives to the group of sequence number `t`, and what stays queued: a bad frame, whose marker cannot be trusted, counts
as its turn; one that is ahead waits, one that is behind is passed over (R41, R43, R56). -/
def pickFrame (t : Nat) : List RxFrame → Option RxFrame × List RxFrame
  | [] => (none, [])
  | f :: rest =>
    if f.bad || f.fseq == t then (some f, rest)
    else if (f.fseq + 4 - t) % 4 = 3 then (none, rest)
    else (none, f :: rest)

/-- The blocks of a group of frames in link block order, each with its stream: block 1 of each lane in ascending order, then block 2
(R43). -/
def groupBlocks (fs : List (Fin 4 × RxFrame)) : List (Nat × LinkBlock) :=
  (List.range 15).flatMap fun i =>
    (fs.filter fun x => (lanesOfType x.2.btype).contains x.1).filterMap fun x => (x.2.payload[i]?).map fun b => (mapId x.2.map (i + 1), b)

/-- The samples of one stream in a group. -/
def groupSamples (bs : List (Nat × LinkBlock)) (i : Nat) (er : Bool) : List Smp :=
  (bs.filter fun b => b.1 == i).flatMap fun b => blockSamples b.2 er

/-- RF and wobble blocks go to their destinations; servo sets and status blocks come as events of their own (R42, R44, R56). -/
def routeGroup (e : Eng) (fs : List (Fin 4 × RxFrame)) (bad : Bool) (s : State) : State :=
  let bs := groupBlocks fs
  let er := bad || s.eng[e].hl.rfErase
  let s := (List.finRange 5).foldl (fun (s : State) (k : Fin 5) =>
    let xs := groupSamples bs k er
    agcSearch e k xs (feedStream e k xs s)) s
  let s := match groupSamples bs 5 bad with
    | [] => s
    | xs => s.modHl e fun h => { h with wobble := xs }
  (List.finRange 5).foldl (fun (s : State) (k : Fin 5) => chainBits e k s) s

/-- The active lanes in ascending order. -/
def lanesOf (s : State) (e : Eng) : List (Fin 4) := (List.finRange 4).filter fun u => (s.get (HL_STAT.ACTIVE_MASK e)).testBit u.val

/-- When every active lane has a checked frame, the frames of one sequence number are passed on. One bad or missing frame makes every
sample of the group an erasure: any stream's blocks may have lain in it (R41, R43, R56). -/
def drainLanes (e : Eng) (s : State) : State :=
  let ls := lanesOf s e
  let rx := s.eng[e].hl.rx
  if ls.all fun u => rx[u].q != [] then
    let t := match s.eng[e].hl.fseq with
      | some t => t
      | none => ((ls.filterMap fun u => (rx[u].q.head?).map RxFrame.fseq).head?).getD 0
    let fs := ls.filterMap fun u => (pickFrame t rx[u].q).1.map fun f => (u, f)
    let s := s.modHl e fun h => { h with
      fseq := some ((t + 1) % 4)
      rx := Vector.ofFn fun u : Fin 4 => if ls.contains u then { h.rx[u] with q := (pickFrame t h.rx[u].q).2 } else h.rx[u] }
    routeGroup e fs (fs.any (·.2.bad) || decide (fs.length < ls.length)) s
  else s

/-- The lane that the current UMASK leaves out. -/
def lostLane (h : HlInt) : Nat := ((List.range 4).find? fun u => !h.umask.getLsbD u).getD 4

/-- A checked frame of lane `u`, descrambled: its CRC, its place in line; in three-lane order without the lost lane it shows that the UMASK
change has taken effect. In steered mode RF erasure ends with the first such frame after the clamped CLK block has taken effect, which the
spec does not date: here that is once no CLK block waits to be sent (R39, R56, R63, R66; DESIGN CHOICE, log 97). -/
def laneTake (e : Eng) (u : Fin 4) (m : BitVec 64) (payload : List LinkBlock) (bad : Bool) (s : State) : State :=
  let s := crcFrame e (u.castLE (by decide)) (crcCount e (u.castLE (by decide)) (if bad then 1 else 0) s)
  let three := decide (bits m 0 8 = 0x70 + lostLane s.eng[e].hl)
  let s := s.modHl e fun h => { h with
    laneBad := setBit h.laneBad u.val bad
    umaskPend := h.umaskPend && !(three && !bad)
    rfErase := h.rfErase && !(three && !bad && steering s e && !(h.ready.any fun w => w.prio == 4)) }
  drainLanes e (s.modLane e u fun r => { r with
    q := r.q ++ [{ btype := if bits m 8 2 = u.val then bits m 0 8 else 0, fseq := bits m 10 2, map := m.extractLsb' 12 45, payload := payload, bad := bad }] })

/-- LANE_FRAME_RECEIVED: a frame as it came over the line, with the CRC of the next marker and its sync headers (R34, R36, R39, R56). -/
def laneFrame (e : Eng) (u : Fin 4) (marker : BitVec 64) (payload : List LinkBlock) (nextCrc : BitVec 7) (hdr : BitVec 16) (s : State) : State :=
  if linkUp s e && (s.get (HL_STAT.ACTIVE_MASK e)).testBit u.val then
    let l := s.eng[e].hl.rx[u]
    let d := scrambleAll true l.scr (marker :: payload)
    let m := d.2.headD 0#64
    let s := s.incBy (HL_LANE.HDR_ERR e u) (popcount 16 hdr.toNat)
    let s := s.modLane e u fun r => { hdrSteps r hdr with scr := d.1 }
    if l.lock && !s.eng[e].hl.rx[u].lock then laneLost e u s
    else laneTake e u m d.2.tail (frameCrc m d.2.tail != nextCrc) s
  else s

/-! ### Downstream frames (R36-R40, R49, R59, R76, R128) -/

/-- The phase step of the next CLK block: the timing error of the chain that delivers spot 1, in 2^-16 of a sample (R76, log 98). -/
def steerPhase (s : State) (e : Eng) : BitVec 16 :=
  let d := s.eng[e].ch[delivering s e 1].dsp
  BitVec.ofInt 16 (clampInt (-32768) 32767 (divFree (d.terr * d.ratio) (2 ^ 28)))

/-- DOWNSTREAM_FRAME_SEND: a training frame in TRAINING, a data frame in UP and DEGRADED with the write symbols of its time. In READY the
training frame that says so completes the training (R38, R40, R49, R59, R128, R132). -/
def downstreamFrame (e : Eng) (s : State) : State :=
  if s.get (HL_STAT.STATE e) = hlTraining then
    let s := sendTrainFrame e s
    if s.eng[e].hl.phase = .ready then trainDone e s else s
  else if linkUp s e then
    let ph := if steering s e then steerPhase s e else 0#16
    let s := if steering s e then s.modCh e (delivering s e 1) fun c => { c with dsp := { c.dsp with terr := 0 } } else s
    let s := clkSteer e ph s
    let n := (wposNext s e).1
    crcFrame e 4 (wrClock e n (wposStep e (sendDataFrame e (wrSyms s e n) s)))
  else s

/-- F5_SILENT: 256 frames without a status block while the link is up (R48). -/
def execF5Silent (e : Eng) (s : State) : Outcome := ok (if linkUp s e then s.raise (HL_EVT.F5_SILENT e) else s)
def execTrainingFrameReceived (e : Eng) (u : Spot) (marker : BitVec 64) (payload : List LinkBlock) (hdr : BitVec 16) (at_ : Nat) (s : State) :
    Outcome := ok (trainFrame e u marker payload hdr at_ s)
def execHlCntClr (e : Eng) (same : BitVec 15) (s : State) : Outcome := ok (linkCntClear e same s)

end Sys2Proof.Machine
end

