-- ==== Sys2Proof/Machine/Headers.lean ====
section
/-! DEFINITION. The header records that journal records give, and the discs they go to (R280-R283). -/
namespace Sys2Proof.Machine

def hrVolume : Nat := 1
def hrRun : Nat := 2
def hrExtent : Nat := 3
def hrCommit : Nat := 4
def hrDefect : Nat := 5
def hrMember : Nat := 6
def hrCheckpoint : Nat := 7
def hrLoss : Nat := 8

/-- The discs of a run's members. -/
def runDiscs (r : MRec) : List Nat := ((runMembers r).filter (memberUsed r)).map fun j => r.get (Run.DISC j)

/-- Keys of the records an edit touches. -/
def editKeys (e : Edit) : List Nat :=
  let z := slotSize e.typ
  if e.len = 0 then []
  else (List.range ((e.off - 16 + e.len - 1) / z - (e.off - 16) / z + 1)).map fun i => 256 * e.page + (e.off - 16) / z + i

/-- The header record of a map record; free slots and disc records have none (R282). -/
def keyRec (m : MapImg) (seq group typ key : Nat) : Option HdrRec :=
  let r := m.slot key
  let mk (t vol : Nat) (b : BitVec 896) : HdrRec := { typ := t, vol := vol, seq := seq, group := group, body := b }
  if typ = pgVol then some (mk hrVolume (key / 256 * 63 + key % 256) (r.setWidth 896))
  else if r = 0#512 then none
  else if typ = pgRun then some (mk hrRun (r.get Run.VOL) (r.setWidth 896))
  else if typ = pgExt then some (mk hrExtent ((m.run (r.get Ext.RUN)).get Run.VOL) (1#896 ||| (r.setWidth 896 <<< 128)))
  else if typ = pgDef then some (mk hrDefect 0 (r.setWidth 896))
  else none

/-- The discs a map record's change is copied to (R283). -/
def keyDiscs (m : MapImg) (typ key : Nat) : List Nat :=
  let r := m.slot key
  if typ = pgVol then ((m.all pgRun).filter fun x => x.2.get Run.VOL = key / 256 * 63 + key % 256).flatMap fun x => runDiscs x.2
  else if typ = pgExt then runDiscs (m.run (r.get Ext.RUN))
  else if typ = pgRun then runDiscs r
  else if typ = pgDef then [r.get Def.DISC]
  else []

/-- TYPE and key of every record the edits of one MAP record touch. -/
def touched (es : List Edit) : List (Nat × Nat) := (es.flatMap fun e => (editKeys e).map fun k => (e.typ, k)).eraseDups

/-- The bytes of a loss entry (R298). -/
def lossBits (x : LossEnt) : BitVec 896 :=
  BitVec.ofNat 896 (x.run + x.sFirst * 2 ^ 32 + x.sLast * 2 ^ 64 + x.vol * 2 ^ 96 + x.members.toNat * 2 ^ 104 + x.rows.toNat * 2 ^ 112
    + x.seq * 2 ^ 128 + x.reason * 2 ^ 192 + x.blocks.toNat * 2 ^ 208)

/-- A loss entry from its bytes. -/
def lossOf (b : BitVec 896) : LossEnt :=
  let g (lo w : Nat) : Nat := (b.toNat >>> lo) % 2 ^ w
  { run := g 0 32, sFirst := g 32 32, sLast := g 64 32, vol := g 96 8, members := BitVec.ofNat 8 (g 104 8), rows := BitVec.ofNat 16 (g 112 16)
    seq := g 128 64, reason := g 192 8, blocks := BitVec.ofNat 16 (g 208 16) }

/-- A CHECKPOINT record (R282). -/
def ckptRec (seq vol run kind boundary : Nat) : HdrRec :=
  { typ := hrCheckpoint, vol := vol, seq := seq, group := 0, body := BitVec.ofNat 896 (run + kind * 2 ^ 32 + boundary * 2 ^ 64) }

/-- The header records of a journal record, each disc with its own (R282, R283). A commit group's records all go to every
member of the runs it writes; a removed loss entry is written as one that names no block. -/
def bodyRecs (m : MapImg) (seq : Nat) : JBody → List (Nat × List HdrRec)
  | .map group es =>
    let ks := touched es
    let ds := (ks.flatMap fun k => keyDiscs m k.1 k.2).eraseDups
    if group = 0 then
      (ds.map fun d => (d, (ks.filter fun k => (keyDiscs m k.1 k.2).contains d).filterMap fun k => keyRec m seq 0 k.1 k.2)).filter fun x => !x.2.isEmpty
    else
      let rs := ks.filterMap fun k => keyRec m seq group k.1 k.2
      let n := (rs.filter fun r => r.typ = hrExtent ∨ r.typ = hrDefect).length
      let c : HdrRec := { typ := hrCommit, vol := ((rs.find? fun r => r.typ = hrExtent).map HdrRec.vol).getD 0, seq := seq, group := group, body := BitVec.ofNat 896 n }
      ds.map fun d => (d, rs ++ [c])
  | .checkpoint run kind b => (runDiscs (m.run run)).map fun d => (d, [ckptRec seq ((m.run run).get Run.VOL) run kind b])
  | .loss remove xs =>
    let ds := (xs.flatMap fun x => runDiscs (m.run x.run)).eraseDups
    ds.map fun d => (d, (xs.filter fun x => (runDiscs (m.run x.run)).contains d).map fun x =>
      { typ := hrLoss, vol := x.vol, seq := seq, group := 0
        body := lossBits (if remove then { x with blocks := 0#16 } else { x with seq := seq }) })
  | .data .. | .dirty _ | .retire _ | .mapckpt .. | .quench .. | .boot .. | .pad _ => []

/-- A disc takes no more header clusters: BD-ROM, or a BD-R whose header areas are full (R280). -/
def hdrFull (r : MRec) : Bool :=
  match r.get Dsc.MEDIUM with
  | 1 => decide (2048 * r.get Dsc.LAYERS ≤ r.get Dsc.HSEQ_NEXT - r.get Dsc.HSEQ_START)
  | 2 => false
  | _ => true

/-- Header records become due on their discs; a disc that takes no more is left out (R280). -/
def hdrAdd (seq : Nat) (b : JBody) (s : State) : State :=
  let xs := (bodyRecs s.arm.map seq b).filter fun x => !hdrFull (s.arm.map.disc x.1)
  s.modJrn fun j => { j with hdrDue := j.hdrDue ++ xs.map fun x => (seq, x.1, x.2) }

end Sys2Proof.Machine
end

