-- ==== Sys2Proof/Machine/Journal.lean ====
section
/-! DEFINITION. The journal and Plinth at run time: sealing, committing and retiring records, superblocks, mirror failures,
map commits and checkpoints, Plinth commits (R313-R337). -/
namespace Sys2Proof.Machine

def jnlNormal : Nat := 0
def jnlDegraded : Nat := 1
def jnlRefusing : Nat := 2

/-- The journal is in REFUSING. -/
def refusing (s : State) : Bool := s.get GLB_JNL_STAT.STATE == jnlRefusing

/-- Mirror A (false) or B (true) is usable. -/
def mirOk (s : State) (b : Bool) : Bool := s.isSet (if b then GLB_JNL_STAT.MRAM_B else GLB_JNL_STAT.MRAM_A)
def mirIx (b : Bool) : Fin 2 := if b then 1 else 0

/-- Ring bytes (R313). -/
def ringSize (s : State) : Nat := s.jrn.cap * 2 ^ 20 - 65536

/-- Payload bytes of a record (R317, R318). -/
def JBody.len : JBody → Nat
  | .data _ _ bs => 4096 * bs.length
  | .map _ es => (es.map fun e => 8 + (e.len + 3) / 4 * 4).foldl (· + ·) 0
  | .dirty es => 8 * es.length
  | .retire ss => 8 * ss.length
  | .checkpoint .. => 16
  | .loss _ es => 32 * es.length
  | .mapckpt .. => 16
  | .quench .. => 16
  | .boot .. => 16
  | .pad n => n - 64

/-- Ring bytes of a record: header, payload, padding and tag, a multiple of 64 (R315). -/
def JBody.size (b : JBody) : Nat := (64 + b.len + 63) / 64 * 64

/-- RETIRE, DIRTY, MAPCKPT, BOOT, QUENCH and PAD records (R320). -/
def JBody.second : JBody → Bool
  | .retire _ | .dirty _ | .mapckpt .. | .boot .. | .quench .. | .pad _ => true
  | .data .. | .map .. | .checkpoint .. | .loss .. => false

/-- BOOT and QUENCH records, for which the last 4 KiB of the ring are kept (R320). -/
def JBody.kept : JBody → Bool
  | .boot .. | .quench .. => true
  | .data .. | .map .. | .checkpoint .. | .loss .. | .retire _ | .dirty _ | .mapckpt .. | .pad _ => false

/-- Ring bytes from the head to the tail. -/
def ringUsed (s : State) : Nat := (s.jrn.recs.map JRec.size).foldl (· + ·) 0
/-- Sealed but uncommitted bytes. -/
def uncommitted (s : State) : Nat := ((s.jrn.recs.filter fun r => s.jrn.cseq < r.seq).map JRec.size).foldl (· + ·) 0
/-- Bytes of the PAD record a wrap would need (R315). -/
def padNeed (s : State) (b : JBody) : Nat := if ringSize s < s.jrn.tail + b.size then ringSize s - s.jrn.tail else 0

/-- The ring has room for a record with what is kept free after it (R320). -/
def ringFits (s : State) (b : JBody) : Bool :=
  let keep := if b.kept then 0 else if b.second then 4096 else 65536
  decide (ringUsed s + padNeed s b + b.size + keep ≤ ringSize s)

/-- A record may be sealed now (R320). -/
def sealFits (s : State) (b : JBody) : Bool :=
  ringFits s b && decide (uncommitted s + padNeed s b + b.size ≤ if b.second then 655360 else 589824)

/-- SEQ values whose low 32 bits are 0 are skipped (R316). -/
def seqSkip (n : Nat) : Nat := if n % 2 ^ 32 = 0 then n + 1 else n

/-- What a record changes in the map, the loss list and the dirty-region bitmap, at run time and at replay (R318, R339). -/
def MapImg.take (m : MapImg) (seq : Nat) : JBody → MapImg
  | .map _ es => m.apply es
  | .dirty es => { m with dirty := es.foldl (fun ds (x : Nat × Nat × Nat × Bool) =>
      let rest := ds.filter fun d => !(d.run == x.1 && d.g == x.2.1 && d.j == x.2.2.1)
      if x.2.2.2 then rest else rest ++ [{ run := x.1, g := x.2.1, j := x.2.2.1, seq := seq }]) m.dirty }
  | .loss false es => { m with loss := m.loss ++ es.map fun x => { x with seq := seq } }
  | .loss true es => { m with loss := m.loss.filter fun x => !es.any fun y => y.seq = x.seq ∧ y.run = x.run ∧ y.sFirst = x.sFirst ∧ y.members = x.members ∧ y.rows = x.rows ∧ y.blocks = x.blocks }
  | .data .. | .retire _ | .checkpoint .. | .mapckpt .. | .quench .. | .boot .. | .pad _ => m

/-- The pages a record changes, for the checkpoint. -/
def bodyPages : JBody → List Nat
  | .map _ es => editPages es
  | .data .. | .dirty _ | .retire _ | .checkpoint .. | .loss .. | .mapckpt .. | .quench .. | .boot .. | .pad _ => []

/-- Apply a record's changes to the state in DDR4 and note the pages changed (R319, R337). -/
def takeBody (seq : Nat) (b : JBody) (s : State) : State :=
  let s := s.modArm fun a => { a with map := a.map.take seq b, gens := (a.gens ++ (bodyPages b).filter (71 ≤ ·)).eraseDups }
  let s := s.modJrn fun j => { j with changed := (j.changed ++ bodyPages b).eraseDups }
  if ckptPages s ≤ s.jrn.changed.length then s.modJrn fun j => { j with ckptDue := true } else s

/-- FILL and FULL (R320, R342). -/
def jnlShow (s : State) : State :=
  let s := s.put GLB_JNL_STAT.FILL (min 255 (if ringSize s = 0 then 0 else ringUsed s * 256 / ringSize s))
  let full := match s.jrn.wait1 with
    | [] => false
    | w :: _ => !ringFits s w.body
  let s := s.putBool GLB_JNL_STAT.FULL full
  if full || decide (ringSize s < 2 * ringUsed s) then s.modJrn fun j => { j with ckptDue := true } else s

/-- The payload of a DATA record. -/
def JBody.isData : JBody → Bool
  | .data .. => true
  | .map .. | .dirty _ | .retire _ | .checkpoint .. | .loss .. | .mapckpt .. | .quench .. | .boot .. | .pad _ => false

/-- A record takes its place in the ring with the next SEQ; a sealed DATA record takes its command past the point of no return
(R315, R319, R365). -/
def sealOne (b : JBody) (fin : Bool) (owner : List (Fin 65 × Nat)) (s : State) : State :=
  let n := s.jrn.next
  let s := if b.isData then owner.foldl (fun (s : State) o => s.modCmd o.1 o.2 fun c => { c with ponr := true }) s else s
  let r : JRec := { seq := n, fin := fin, body := b, ofs := s.jrn.tail, size := b.size, owner := owner, onA := false, onB := false, retired := false }
  let s := s.modJrn fun j => { j with
    recs := j.recs ++ [r]
    next := seqSkip (n + 1)
    tail := if j.tail + b.size = j.cap * 2 ^ 20 - 65536 then 0 else j.tail + b.size }
  takeBody n b s

/-- Seal a record, behind a PAD record where it does not fit before the ring's end (R315). -/
def sealNow (b : JBody) (fin : Bool) (owner : List (Fin 65 × Nat)) (s : State) : State :=
  let p := padNeed s b
  let s := if p = 0 then s else sealOne (.pad p) false [] s
  jnlShow (sealOne b fin owner s)

/-- A CHECKPOINT's boundary is kept: of a rebuild, a reshape or an initialisation (R289, R302, R306). The CHECKPOINT with
B = 0 lets a rebuild run. A reshape's boundary is counted in new stripes. -/
def takeCkpt (run kind b : Nat) (s : State) : State :=
  s.modArm fun a =>
    if kind = 0 then { a with rebuilds := a.rebuilds.map fun (r : Rebuild) =>
      if r.run = run && r.chosen then { r with ckpt := b, st := if r.st = 0 then 1 else r.st } else r }
    else if kind = 1 then { a with reshapes := a.reshapes.map fun (r : Reshape) =>
      if r.vol = (a.map.run run).get Run.VOL then { r with ckpt := b * 256 * (a.map.vol r.vol).get Vol.K } else r }
    else { a with initB := a.initB.map fun x => if x.1 = run then (run, max x.2 b) else x }

/-- A change that is applied unjournalled in REFUSING takes a number of its own; CHECKPOINT and LOSS records also go to the
run's members as header records (R310, R330). -/
def takeNow (b : JBody) (s : State) : State :=
  let n := s.jrn.next
  let s := takeBody n b (s.modJrn fun j => { j with next := seqSkip (n + 1) })
  match b with
  | .checkpoint run kind x => takeCkpt run kind x (hdrAdd n b s)
  | .loss .. => hdrAdd n b s
  | .data .. | .map .. | .dirty _ | .retire _ | .mapckpt .. | .quench .. | .boot .. | .pad _ => s

/-- A seal is asked for: at once where nothing of its group waits and it fits, else it waits (R320). In REFUSING no record is
sealed: the change is applied to the state in DDR4 and what waits for the commit goes on (R330). -/
def sealAsk (b : JBody) (fin : Bool) (owner : List (Fin 65 × Nat)) (s : State) : State :=
  if refusing s then owner.foldl (fun (s : State) o => finishCommitted 0 o s) (takeNow b s)
  else if (if b.second then s.jrn.wait2 else s.jrn.wait1).isEmpty && sealFits s b then sealNow b fin owner s
  else
    let w : SealReq := { body := b, fin := fin, owner := owner }
    jnlShow (s.modJrn fun j => if b.second then { j with wait2 := j.wait2 ++ [w] } else { j with wait1 := j.wait1 ++ [w] })

/-- Part of the entries a write of given LBAs narrows: an entry without one block of one cluster (R299). -/
def lossCut (p : Spot250) (x : LossEnt) : List LossEnt :=
  if !(x.run = p.run && decide (x.sFirst ≤ p.stripe) && decide (p.stripe ≤ x.sLast) && x.members.getLsbD p.j && x.rows.getLsbD p.row && x.blocks.getLsbD p.blk)
  then [x]
  else
    let mem := BitVec.twoPow 8 p.j
    let row := BitVec.twoPow 16 p.row
    let blk := BitVec.twoPow 16 p.blk
    let one : LossEnt := { x with sFirst := p.stripe, sLast := p.stripe }
    (if x.sFirst < p.stripe then [{ x with sLast := p.stripe - 1 }] else []) ++
    (if p.stripe < x.sLast then [{ x with sFirst := p.stripe + 1 }] else []) ++
    ([{ one with members := x.members &&& ~~~ mem }, { one with members := mem, rows := x.rows &&& ~~~ row },
      { one with members := mem, rows := row, blocks := x.blocks &&& ~~~ blk }].filter
        fun y => y.members != 0#8 && y.rows != 0#16 && y.blocks != 0#16)

/-- The entries touched by written LBAs, and what stands in their place (R299). -/
def lossAfter (ps : List Spot250) (xs : List LossEnt) : List LossEnt := ps.foldl (fun xs p => xs.flatMap (lossCut p)) xs

/-- Written LBAs leave the loss list: one removal record and one record of what remains (R299). -/
def lossWrite (ps : List Spot250) (s : State) : State :=
  let hit := s.arm.map.loss.filter fun x => lossAfter ps [x] != [x]
  if hit.isEmpty then s
  else
    let s := sealAsk (.loss true hit) true [] s
    let new := lossAfter ps hit
    if new.isEmpty then s else sealAsk (.loss false new) true [] s

/-- RECORD_SEAL: the oldest waiting seal of a group is taken, if it fits (R320). -/
def sealWaiting (second : Bool) (s : State) : State :=
  match if second then s.jrn.wait2 else s.jrn.wait1 with
  | [] => s
  | w :: _ =>
    if sealFits s w.body && !refusing s then
      sealNow w.body w.fin w.owner (s.modJrn fun j => if second then { j with wait2 := j.wait2.drop 1 } else { j with wait1 := j.wait1.drop 1 })
    else s

/-- The superblock of a mirror: the valid slot with the highest USEQ (R314). -/
def Mirror.sb (m : Mirror) : Option Super :=
  match m.super[0], m.super[1] with
  | some a, some b => some (if a.useq < b.useq then b else a)
  | some a, none => some a
  | none, b => b

/-- SUPERBLOCK_WRITE: the slot that does not hold the highest USEQ takes the new superblock (R314). -/
def Mirror.putSb (m : Mirror) (x : Super) : Mirror :=
  let u := match m.sb with
    | some y => y.useq + 1
    | none => 1
  let i : Fin 2 := match m.super[0], m.super[1] with
    | some a, some b => if a.useq < b.useq then 0 else 1
    | some _, none => 1
    | none, _ => 0
  { m with super := m.super.setIfInBounds i.val (some { x with useq := u }) }

/-- Change a mirror. -/
def State.modMir (s : State) (b : Bool) (f : Mirror → Mirror) : State :=
  s.modJrn fun j => { j with mir := j.mir.set (mirIx b) (f j.mir[mirIx b]) }

/-- The superblock as the journal stands, but for USEQ. -/
def sbNow (s : State) : Super :=
  { useq := 0, plActive := s.isSet GLB_JNL_STAT.PL_ACTIVE, cap := s.jrn.cap
    headSeq := (s.jrn.recs.head?.map JRec.seq).getD s.jrn.next
    headOfs := (s.jrn.recs.head?.map JRec.ofs).getD s.jrn.tail
    plGen := s.get GLB_PL_GEN.GEN, jid := s.jrn.jid }

/-- The superblocks of the usable mirrors are rewritten with the current head (R323). -/
def sbWrite (s : State) : State :=
  let x := sbNow s
  let s := if mirOk s false then s.modMir false (·.putSb x) else s
  let s := if mirOk s true then s.modMir true (·.putSb x) else s
  s.modJrn fun j => { j with headAdv := 0 }

/-- A record is retired by itself once nothing before it stands (R323). -/
def JRec.plain (r : JRec) : Bool :=
  match r.body with
  | .data .. | .map .. | .dirty _ | .checkpoint .. | .loss .. => false
  | .retire _ | .mapckpt .. | .quench .. | .boot .. | .pad _ => true

/-- A map change is retired: a committed MAPCKPT covers it and every header record of it has passed verify (R323). -/
def mapRetired (s : State) (r : JRec) : Bool :=
  match r.body with
  | .map .. | .dirty _ | .checkpoint .. | .loss .. => decide (r.seq ≤ s.jrn.ckptC) && !s.jrn.hdrDue.any fun x => x.1 = r.seq
  | .data .. | .retire _ | .mapckpt .. | .quench .. | .boot .. | .pad _ => false

/-- RECORD_RETIRE: the head advances over contiguous retired records (R323). -/
def headAdvance : Nat → State → State
  | 0, s => jnlShow s
  | n + 1, s =>
    match s.jrn.recs with
    | [] => jnlShow s
    | r :: rest =>
      if decide (r.seq ≤ s.jrn.cseq) && (r.retired || r.plain || mapRetired s r) then
        headAdvance n (s.modJrn fun j => { j with recs := rest, headAdv := j.headAdv + r.size })
      else jnlShow s

/-- Retire what can be retired, and write the superblocks after 1 MiB of advance (R323). -/
def retireAll (s : State) : State :=
  let s := headAdvance s.jrn.recs.length s
  if 2 ^ 20 ≤ s.jrn.headAdv then sbWrite s else s

/-- The clusters (run, stripe, row, member) that the LBAs of a DATA record lie in. -/
def bodySpots (s : State) : JBody → List (Nat × Nat × Nat × Nat)
  | .data v lba bs => ((List.range bs.length).flatMap fun i => (spotsOf s v (lba + i)).map fun p => (p.run, p.stripe, p.row, p.j)).eraseDups
  | .map .. | .dirty _ | .retire _ | .checkpoint .. | .loss .. | .mapckpt .. | .quench .. | .boot .. | .pad _ => []

/-- No dirty bit of a member's region stands or has a record on its way (R292, R323). -/
def regionClean (s : State) (run g j : Nat) : Bool :=
  let has (b : JBody) : Bool := match b with
    | .dirty es => es.any fun x => x.1 = run && x.2.1 = g && x.2.2.1 = j
    | .data .. | .map .. | .retire _ | .checkpoint .. | .loss .. | .mapckpt .. | .quench .. | .boot .. | .pad _ => false
  !(s.arm.map.dirty.any fun d => d.run = run && d.g = g && d.j = j)
    && !(s.jrn.recs.any fun r => decide (s.jrn.cseq < r.seq) && has r.body) && !s.jrn.wait2.any fun w => has w.body

/-- Every cluster of a committed DATA record is on media and the clear of its regions' dirty bits is committed (R323). -/
def retireReady (s : State) (r : JRec) : Bool :=
  match r.body with
  | .data .. => !r.retired && !r.asked && (decide (r.seq ≤ s.jrn.cseq) || refusing s) &&
      (bodySpots s r.body).all fun p => s.arm.destaged.contains (r.seq, p) && (refusing s || regionClean s p.1 (p.2.1 / 16) p.2.2.2)
  | .map .. | .dirty _ | .retire _ | .checkpoint .. | .loss .. | .mapckpt .. | .quench .. | .boot .. | .pad _ => false

/-- Armature seals a RETIRE for the records that are ready (R323); in REFUSING they are retired unjournalled (R330). -/
def retireSeal (s : State) : State :=
  let ns := (s.jrn.recs.filter (retireReady s)).map JRec.seq
  if ns.isEmpty then s
  else
    let s := s.modArm fun a => { a with destaged := a.destaged.filter fun x => !ns.contains x.1 }
    let s := s.modJrn fun j => { j with recs := j.recs.map fun r => if ns.contains r.seq then { r with asked := true, retired := refusing s } else r }
    if refusing s then s else sealAsk (.retire ns) false [] s

/-- What the commit of a record brings: a RETIRE retires the records it names, a MAPCKPT ends its checkpoint, the LBAs of a
DATA record are lost no longer, and the commands that wait for the record complete (R299, R321-R323, R381). -/
def onCommit (r : JRec) (s : State) : State :=
  let s := match r.body with
    | .retire ss => s.modJrn fun j => { j with recs := j.recs.map fun x => if ss.contains x.seq then { x with retired := true } else x }
    | .mapckpt _ c =>
      let left := ((s.jrn.recs.filter fun x => c < x.seq).flatMap fun x => bodyPages x.body).eraseDups
      let due := decide (ckptPages s ≤ left.length)
      s.modJrn fun j => { j with ckptC := max j.ckptC c, ckptRun := false, changed := left, ckptDue := due }
    | .map .. | .loss .. => hdrAdd r.seq r.body s
    | .checkpoint run kind b => takeCkpt run kind b (hdrAdd r.seq r.body s)
    | .data v lba bs => lossWrite ((List.range bs.length).flatMap fun i => spotsOf s v (lba + i)) s
    | .dirty _ | .quench .. | .boot .. | .pad _ => s
  if r.fin then r.owner.foldl (fun (s : State) o => finishCommitted r.seq o s) s else s

/-- A record has been written to every usable mirror (R321). -/
def written (s : State) (r : JRec) : Bool :=
  (r.onA || !mirOk s false) && (r.onB || !mirOk s true) && (mirOk s false || mirOk s true)

/-- RECORD_COMMIT: records commit in SEQ order and GLB_JNL_CSEQ follows (R321). -/
def commitAdvance : Nat → State → State
  | 0, s => s
  | n + 1, s =>
    match s.jrn.recs.find? fun r => s.jrn.cseq < r.seq with
    | none => s
    | some r =>
      if written s r then
        let s := s.modJrn fun j => { j with cseq := r.seq }
        let s := (s.put GLB_JNL_CSEQ_LO.CSEQ r.seq).put GLB_JNL_CSEQ_HI.CSEQ (r.seq / 2 ^ 32)
        commitAdvance n (onCommit r s)
      else s

/-- Commit and retire whatever can be. -/
def commitAll (s : State) : State := retireAll (retireSeal (commitAdvance s.jrn.recs.length s))

/-- RECORD_WRITE_DONE: the next record in SEQ order is whole on a mirror (R321). -/
def recordWritten (b : Bool) (s : State) : State :=
  if !mirOk s b then s
  else match s.jrn.recs.find? fun r => !(if b then r.onB else r.onA) with
    | none => s
    | some x => commitAll (s.modJrn fun j => { j with
        recs := j.recs.map fun r => if r.seq = x.seq then (if b then { r with onB := true } else { r with onA := true }) else r })

/-- A seal that waits when the last mirror fails: a write is refused, any other change is applied unjournalled (R310, R330). -/
def sealDrop (w : SealReq) (s : State) : State :=
  match w.body with
  | .data .. => w.owner.foldl (fun (s : State) o => finish o.1 o.2 stJournal 0 s) s
  | .map .. | .dirty _ | .retire _ | .checkpoint .. | .loss .. | .mapckpt .. | .quench .. | .boot .. | .pad _ =>
    w.owner.foldl (fun (s : State) o => finishCommitted 0 o s) (takeNow w.body s)

/-- Records sealed and not committed when the last mirror fails: their writes are refused, other steps go on (R330). -/
def recDrop (r : JRec) (s : State) : State :=
  match r.body with
  | .data .. => r.owner.foldl (fun (s : State) o => finish o.1 o.2 stJournal 0 s) s
  | .map .. | .dirty _ | .retire _ | .checkpoint .. | .loss .. | .mapckpt .. | .quench .. | .boot .. | .pad _ =>
    let s := match r.body with
      | .checkpoint run kind x => takeCkpt run kind x (hdrAdd r.seq r.body s)
      | .loss .. => hdrAdd r.seq r.body s
      | .data .. | .map .. | .dirty _ | .retire _ | .mapckpt .. | .quench .. | .boot .. | .pad _ => s
    if r.fin then r.owner.foldl (fun (s : State) o => finishCommitted r.seq o s) s else s

/-- MIRROR_FAIL: the journal goes to DEGRADED, where records that wait only for the failed mirror commit, or to REFUSING
(R330). -/
def mirrorFailOp (b : Bool) (s : State) : State :=
  if !mirOk s b then s
  else
    let s := if b then s.put GLB_JNL_STAT.MRAM_B 0 else s.put GLB_JNL_STAT.MRAM_A 0
    if mirOk s (!b) then commitAll ((s.put GLB_JNL_STAT.STATE jnlDegraded).logEvent .journalDegraded [if b then 1 else 0])
    else
      let s := (s.put GLB_JNL_STAT.STATE jnlRefusing).logEvent .journalRefusing []
      let rs := s.jrn.recs.filter fun r => s.jrn.cseq < r.seq
      let ws := s.jrn.wait2 ++ s.jrn.wait1
      let s := s.modJrn fun j => { j with wait1 := [], wait2 := [], ckptRun := false }
      ws.foldl (fun (s : State) w => sealDrop w s) (rs.foldl (fun (s : State) r => recDrop r s) s)

/-- PLCOMMIT and every map commit of Armature: the MAP record is sealed at once, or 0 is answered where it would have to
wait or the checkpoint that runs forbids it; in REFUSING the map changes unjournalled (R319, R320, R330, R337). -/
def plCommit (group : Nat) (es : List Edit) (s : State) : State × Nat :=
  let b : JBody := .map group es
  if refusing s then (takeNow b s, 0xFFFFFFFF)
  else if !s.jrn.wait1.isEmpty || !sealFits s b then (s, 0)
  else if s.jrn.ckptRun && decide (2 * ckptPages s < (s.jrn.changed ++ editPages es).eraseDups.length) then (s, 0)
  else
    let s := sealNow b true [] s
    (s, (s.jrn.recs.getLast?.map JRec.seq).getD 0)

/-- Armature commits a change of the map; commands that wait for it complete when it is committed (R322). -/
def mapCommit (t : Tx) (owner : List (Fin 65 × Nat)) (s : State) : State :=
  if t.2.isEmpty then owner.foldl (fun (s : State) o => finishCommitted s.jrn.cseq o s) s
  else sealAsk (.map 0 t.2) true owner s

/-- Start a change of the map, as it will be when the seals that wait are taken. -/
def txStart (s : State) : Tx := (s.jrn.wait1.foldl (fun m w => m.take 0 w.body) s.arm.map, [])

/-- The image the records committed so far make of the last checkpoint: every page as of SEQ_C (R337). -/
def imageAt (s : State) : MapImg :=
  let base := s.jrn.nand.anchor.getD {}
  let m := (s.jrn.recs.filter fun r => s.jrn.nand.seqC < r.seq ∧ r.seq ≤ s.jrn.cseq).foldl (fun m r => m.take r.seq r.body) base
  { m with windows := s.arm.map.windows }

/-- MAP_CHECKPOINT: pages, loss list, bitmap and window counts as of SEQ_C go to NAND with a new anchor, then a MAPCKPT is
sealed. In REFUSING the state in DDR4 is what is written (R330, R337). -/
def checkpointOp (s : State) : State :=
  if s.jrn.ckptRun || !(s.jrn.ckptDue || !s.jrn.changed.isEmpty || refusing s) then s
  else
    let img := if refusing s then s.arm.map else imageAt s
    let c := s.jrn.cseq
    let g := s.jrn.nand.gen + 1
    let s := s.modJrn fun j => { j with nand := { j.nand with gen := g, seqC := c, anchor := some img }, ckptRun := !refusing s }
    let s := if refusing s then s.modJrn fun j => { j with changed := [], ckptDue := false } else s
    sealAsk (.mapckpt g c) false [] s

/-- JOURNAL_RESIZE: with no unretired record in the ring, the mirrors are formatted at the BCR capacity with a new
JOURNAL_ID; Plinth and the numbering are kept (R332). -/
def resizeOp (s : State) : State :=
  if s.jrn.cap = s.jrn.bcrCap ∨ !s.jrn.recs.isEmpty ∨ refusing s then s
  else
    let old := s.jrn.cap
    let s := s.modJrn fun j => { j with cap := j.bcrCap, jid := j.jid + 1, tail := 0 }
    (jnlShow (sbWrite s)).logEvent .journalResized [old, s.jrn.bcrCap]

/-- PLINTH_COMMIT: the new entries go to the inactive copy on each mirror that does not fail, and the superblocks flip
PL_ACTIVE. False where every usable mirror fails: the old generation stands (R334). -/
def plinthCommit (failed : BitVec 2) (ents : List (Nat × List Byte)) (s : State) : State × Bool :=
  let s := if failed.getLsbD 0 then mirrorFailOp false s else s
  let s := if failed.getLsbD 1 then mirrorFailOp true s else s
  if !(mirOk s false || mirOk s true) then (s, false)
  else
    let g := max (s.get GLB_PL_GEN.GEN) s.jrn.plHigh + 1
    let i : Fin 2 := if s.isSet GLB_JNL_STAT.PL_ACTIVE then 0 else 1
    let copy : PlCopy := { gen := g, ents := ents }
    let put (b : Bool) (s : State) : State := if mirOk s b then s.modMir b fun m => { m with pl := m.pl.setIfInBounds i.val (some copy) } else s
    let s := put true (put false s)
    let s := (s.put GLB_JNL_STAT.PL_ACTIVE i.val).put GLB_PL_GEN.GEN g
    let s := s.modJrn fun j => { j with ents := ents, plHigh := g, plFallDue := true }
    (sbWrite s, true)

/-- The Plinth entries with one entry replaced, or removed where `v` is none; in ascending order of ID. -/
def plPut (ents : List (Nat × List Byte)) (i : Nat) (v : Option (List Byte)) : List (Nat × List Byte) :=
  let rest := ents.filter fun x => x.1 != i
  match v with
  | some b => Cells.insert Cells.natLt i b rest
  | none => rest

/-- PLINTH_FALLBACK_WRITE: the active generation goes to the NAND fallback area (R334). -/
def plFallback (s : State) : State :=
  if s.jrn.plFallDue then
    s.modJrn fun j => { j with nand := { j.nand with pl := some { gen := s.get GLB_PL_GEN.GEN, ents := j.ents } }, plFallDue := false }
  else s

def execRecordSeal (second : Bool) (s : State) : Outcome := ok (sealWaiting second s)
def execRecordWriteDone (b : Bool) (s : State) : Outcome := ok (recordWritten b s)
def execMirrorFail (b : Bool) (s : State) : Outcome := ok (mirrorFailOp b s)
def execMapCheckpoint (s : State) : Outcome := ok (checkpointOp s)
def execJournalResize (s : State) : Outcome := ok (resizeOp s)
def execPlinthFallbackWrite (s : State) : Outcome := ok (plFallback s)

end Sys2Proof.Machine
end

