-- ==== Sys2Proof/Machine/Stripe.lean ====
section
/-! DEFINITION. Stripes and their code, reading and writing the clusters of a row, erasures and the loss list (R275-R279,
R295-R299, R138). -/
namespace Sys2Proof.Machine

/-- The coding matrix (R277). -/
def coef (r j : Nat) : Byte :=
  let y := BitVec.ofNat 8 (j + 3)
  gfMul 0x1D#8 y (gfInv 0x1D#8 (BitVec.ofNat 8 r ^^^ y))

/-- A cluster of zeros. -/
def zeroCl : Cluster := Vector.replicate 16 0#32768
def clXor (a b : Cluster) : Cluster := Vector.zipWith (· ^^^ ·) a b
def clScale (c : Byte) (a : Cluster) : Cluster := a.map (gfScale c)

/-- Parity row `r` of the data clusters of a row (R277). -/
def encode (r : Nat) (ds : List Cluster) : Cluster :=
  (List.range ds.length).foldl (fun (z : Cluster) j => clXor z (clScale (coef r j) (ds[j]?.getD zeroCl))) zeroCl

/-- The row of the generator that belongs to a member (R279). -/
def genRow (k j : Nat) : List Byte := (List.range k).map fun c => if j < k then (if j = c then 1#8 else 0#8) else coef (j - k) c

/-- A linear equation over the data clusters of a row. -/
abbrev Eqn := List Byte × Cluster

/-- One equation less `c` times another. -/
def Eqn.sub (c : Byte) (p x : Eqn) : Eqn :=
  (List.zipWith (fun a b => a ^^^ gfMul 0x1D#8 c b) x.1 p.1, clXor x.2 (clScale c p.2))

/-- Eliminate column `c`: equations already solved, equations left. -/
def elim (c : Nat) (z : List Eqn × List Eqn) : List Eqn × List Eqn :=
  match z.2.find? fun x => x.1[c]?.getD 0#8 != 0#8 with
  | none => z
  | some p =>
    let i := gfInv 0x1D#8 (p.1[c]?.getD 0#8)
    let p' : Eqn := (p.1.map (gfMul 0x1D#8 i), clScale i p.2)
    let f (x : Eqn) : Eqn := Eqn.sub (x.1[c]?.getD 0#8) p' x
    (z.1.map f ++ [p'], (z.2.erase p).map f)

/-- The data clusters of a row from `k` members of it (R279). -/
def solve (k : Nat) (src : List (Nat × Cluster)) : List Cluster :=
  (((List.range k).foldl (fun z c => elim c z) ([], src.map fun x => (genRow k x.1, x.2))).1).map Prod.snd

/-- An engine is out of placement: after a loop failure, for the die's temperature, or not fitted (R208, R440, R488). -/
def engineOut (s : State) (e : Eng) : Bool :=
  s.eng[e].loop.down || s.pw.hotOut || (match s.sec.bcr with
    | some b => !b.engines.getLsbD e.val
    | none => false)

/-- Home engine of a disc. -/
def homeOf (s : State) (d : Nat) : Eng := Fin.ofNat 8 ((s.arm.map.disc d).get Dsc.HOME)
def discState (s : State) (d : Nat) : Nat := (s.arm.map.disc d).get Dsc.STATE

/-- The rebuild of a run's member. -/
def State.rebuild? (s : State) (run j : Nat) : Option Rebuild := s.arm.rebuilds.find? fun r => r.run = run ∧ r.j = j

/-- Member `j` of a stripe is held on the target of its rebuild (R302). -/
def onTarget (s : State) (run stripe j : Nat) : Option Rebuild :=
  match s.rebuild? run j with
  | some r => if r.st != 0 && (decide (stripe < r.b) || decide (r.last ≤ stripe)) then some r else none
  | none => none

/-- Disc and cluster that hold member `j` of a row, redirection applied (R247, R249, R302). -/
def whereIs (s : State) (run stripe row j : Nat) : Nat × ClAddr :=
  match onTarget s run stripe j with
  | some r =>
    (r.target, s.arm.map.redirect r.target { cluster := BitVec.ofNat 28 (r.first + 16 * stripe + row), layer := BitVec.ofNat 3 r.layer })
  | none =>
    let d := (s.arm.map.run run).get (Run.DISC j)
    (d, s.arm.map.redirect d (memberCluster (s.arm.map.run run) j stripe row))

/-- A cluster has blocks on the loss list (R298). -/
def onLoss (s : State) (run stripe row j : Nat) : Bool :=
  s.arm.map.loss.any fun x => x.run = run && decide (x.sFirst ≤ stripe) && decide (stripe ≤ x.sLast) && x.members.getLsbD j && x.rows.getLsbD row
/-- One block of it is lost. -/
def blkLost (s : State) (p : Spot250) : Bool :=
  s.arm.map.loss.any fun x => x.run = p.run && decide (x.sFirst ≤ p.stripe) && decide (p.stripe ≤ x.sLast) && x.members.getLsbD p.j
    && x.rows.getLsbD p.row && x.blocks.getLsbD p.blk

/-- The run's member lies on a disc that is failed, retired or unfocusable, or beyond the boundary of its rebuild (R295). -/
def memberErased (s : State) (run stripe j : Nat) : Bool :=
  let d := (whereIs s run stripe 0 j).1
  let st := discState s d
  st == 2 || st == 3 || st == 4 || (match s.rebuild? run j with
    | some r => !r.migrate && (onTarget s run stripe j).isNone
    | none => false)

/-- The member's engine is out of placement, or its disc is not located: MSTATE 2 (R263, R492). -/
def memberOut (s : State) (run stripe j : Nat) : Bool :=
  let d := (whereIs s run stripe 0 j).1
  engineOut s (homeOf s d) || (s.discInt d).loc == .unknown

/-- A cluster waits to be written again: it was handed on at rung 7, or its member was out of placement when its row was written (R295,
R296). -/
def repairDue (s : State) (run stripe row j : Nat) : Bool := s.arm.todo.contains (.repair run stripe row j)

/-- A cluster is an erasure of its row (R295). -/
def erased (s : State) (m : MediaEvents) (run stripe row j : Nat) : Bool :=
  memberErased s run stripe j || m.bad.contains (whereIs s run stripe row j) || repairDue s run stripe row j || onLoss s run stripe row j

/-- What the medium of a member holds at a row. -/
def mediaAt (s : State) (run stripe row j : Nat) : Cluster :=
  let w := whereIs s run stripe row j
  Cells.get (fun _ => zeroCl) s.arm.media (mediaKey w.1 w.2)

/-- A member's cluster can be read. -/
def readable (s : State) (m : MediaEvents) (run stripe row j : Nat) : Bool :=
  !memberErased s run stripe j && !memberOut s run stripe j && !m.bad.contains (whereIs s run stripe row j) && !repairDue s run stripe row j

/-- How many clusters of a row are erasures. -/
def erasures (s : State) (m : MediaEvents) (run stripe row : Nat) : Nat :=
  ((runMembers (s.arm.map.run run)).filter fun j => erased s m run stripe row j).length

/-- The outcome of getting one cluster of a row. -/
inductive Got
  | direct (c : Cluster) | rebuilt (c : Cluster) | lost | out
deriving DecidableEq, Repr

/-- Members a reconstruction may read: readable, not lost, not the one needed (R279). -/
def sourcesOf (s : State) (m : MediaEvents) (run stripe row need : Nat) : List Nat :=
  (runMembers (s.arm.map.run run)).filter fun j => j != need && readable s m run stripe row j && !erased s m run stripe row j

/-- A cluster of a row out of `k` others: a data member solved, a parity member encoded again (R279). -/
def rebuildFrom (s : State) (run stripe row need : Nat) (set : List Nat) : Cluster :=
  let k := (s.arm.map.run run).get Run.K
  let ds := solve k (set.map fun j => (j, mediaAt s run stripe row j))
  if need < k then ds[need]?.getD zeroCl else encode (need - k) ds

/-- Reconstruction of a cluster, where the row has at most m erasures and k members can be read (R296, R297). -/
def reconstruct (s : State) (m : MediaEvents) (run stripe row need : Nat) (set : Option (List Nat)) : Got :=
  let r := s.arm.map.run run
  let src := set.getD ((sourcesOf s m run stripe row need).take (r.get Run.K))
  if s.arm.incons.contains (run, stripe, row) then .out
  else if r.get Run.M < erasures s m run stripe row then (if erased s m run stripe row need then .lost else .out)
  else if src.length < r.get Run.K then .out
  else .rebuilt (rebuildFrom s run stripe row need src)

/-- A cluster of a row: read directly where it can be, else reconstructed (R296). A cluster on the loss list is read as it
stands, its lost blocks being zeros (R297). -/
def getCluster (s : State) (m : MediaEvents) (run stripe row j : Nat) : Got :=
  if readable s m run stripe row j then .direct (mediaAt s run stripe row j) else reconstruct s m run stripe row j none

/-- The cluster where there is one. -/
def Got.val : Got → Option Cluster
  | .direct c => some c
  | .rebuilt c => some c
  | .lost => none
  | .out => none

/-- Write a cluster of a disc. -/
def putMedia (d : Nat) (a : ClAddr) (c : Cluster) (s : State) : State :=
  s.modArm fun r => { r with media := Cells.set Cells.natLt (fun _ => zeroCl) r.media (mediaKey d a) c }

/-- Take the cluster at NEXT<l> of a disc (R138). -/
def takeNext (d l : Nat) (t : Tx) : ClAddr × Tx :=
  let r := t.1.disc d
  let n := r.get (Dsc.NEXT l)
  ({ cluster := BitVec.ofNat 28 n, layer := BitVec.ofNat 3 l },
    t.setDisc d ((r.put (Dsc.NEXT l) (n + 1)).put Dsc.FREE (r.get Dsc.FREE - 1)))

/-- The code verify gave a written cluster, 0 for OK. -/
def failOf (m : MediaEvents) (d : Nat) (a : ClAddr) : Nat :=
  ((m.fails.find? fun x => x.1 = d ∧ x.2.1 = a).map fun x => x.2.2).getD 0

/-- A written cluster has to be written again: it fails verify, was abandoned, or was not verified and cannot be read back (R138, R296). -/
def writeFails (m : MediaEvents) (d : Nat) (a : ClAddr) : Bool :=
  let v := failOf m d a
  v == 1 || v == 2 || v == 3 || v == 4 || v == 6 || (v == 5 && m.bad.contains (d, a))

/-- The last cluster of the recorded stretch that a BD-R cluster lies in, as NOT_BLANK has found it: disc, layer, first and last cluster
(R144, R496). -/
def recordedTo (m : MediaEvents) (d : Nat) (a : ClAddr) (t : Tx) : Option Nat :=
  if (t.1.disc d).get Dsc.MEDIUM = 1 then
    (m.recorded.find? fun x => x.1 = d && x.2.1 = a.layer.toNat && decide (x.2.2.1 ≤ a.cluster.toNat) && decide (a.cluster.toNat ≤ x.2.2.2)).map fun x => x.2.2.2
  else none

/-- NEXT<l> moves above a recorded stretch, which is not free (R496). -/
def nextAbove (d l last : Nat) (t : Tx) : Tx :=
  let r := t.1.disc d
  let n := r.get (Dsc.NEXT l)
  if last < n then t else t.setDisc d ((r.put (Dsc.NEXT l) (last + 1)).put Dsc.FREE (r.get Dsc.FREE - (last + 1 - n)))

/-- How often one cluster can move: each time past a failure or a recorded stretch. -/
def writeFuel (m : MediaEvents) : Nat := m.fails.length + m.recorded.length

/-- Write and verify a cluster in place; one found recorded before it is written, which is never written twice, goes to a new one at
NEXT<l> above the stretch with a defect record of REASON 0x11 (R496); one that fails goes to a replacement at NEXT<l> of its disc and layer, with a
defect record, until it passes (R138, R287, R291). An ABANDONED cluster is replaced in the same way (R139, R296); an
UNVERIFIED one is read back and replaced if that fails (R296). -/
def writeCl (m : MediaEvents) (d : Nat) (c : Cluster) : Nat → ClAddr → State × Tx → State × Tx
  | 0, a, (s, t) => (putMedia d a c s, t)
  | n + 1, a, (s, t) =>
    match recordedTo m d a t with
    | some last =>
      let (b, t) := takeNext d a.layer.toNat (nextAbove d a.layer.toNat last t)
      writeCl m d c n b (s, t.defect d 0x11 a b)
    | none =>
      let s := putMedia d a c s
      if !writeFails m d a then (s, t)
      else
        let (b, t) := takeNext d a.layer.toNat t
        writeCl m d c n b (s, t.defect d (failOf m d a) a b)

/-- Write a cluster to a replacement with the given reason, as a repair on BD-R does (R296, R297). -/
def replaceCl (m : MediaEvents) (d reason : Nat) (c : Cluster) (a : ClAddr) (z : State × Tx) : State × Tx :=
  let (b, t) := takeNext d a.layer.toNat z.2
  writeCl m d c (writeFuel m) b (z.1, t.defect d reason a b)

/-- Write a cluster again: in place on BD-RE, to a replacement on BD-R or where the write in place fails verify (R296). -/
def rewriteCl (m : MediaEvents) (d : Nat) (c : Cluster) (a : ClAddr) (z : State × Tx) : State × Tx :=
  if (z.2.1.disc d).get Dsc.MEDIUM = 1 then replaceCl m d 0x10 c a z
  else
    let z : State × Tx := (putMedia d a c z.1, z.2)
    if writeFails m d a then replaceCl m d 0x10 c a z else z

/-- Write member `j` of a row in place. -/
def writeMember (m : MediaEvents) (run stripe row j : Nat) (c : Cluster) (z : State × Tx) : State × Tx :=
  let w := whereIs z.1 run stripe row j
  writeCl m w.1 c (writeFuel m) w.2 z

/-- Write member `j` of a row again. -/
def rewriteMember (m : MediaEvents) (run stripe row j : Nat) (c : Cluster) (z : State × Tx) : State × Tx :=
  let w := whereIs z.1 run stripe row j
  rewriteCl m w.1 c w.2 z

/-- Entries of the loss list from which new losses create none (R299). -/
def lossMax : Nat := 61440

/-- New lost clusters: an entry and an event, or LOSS_LIST_FULL (R297, R299). -/
def addLoss (run sF sL : Nat) (members : BitVec 8) (rows blocks : BitVec 16) (reason : Nat) (s : State) : State :=
  if s.arm.map.loss.length < lossMax then
    let x : LossEnt := { run := run, sFirst := sF, sLast := sL, vol := (s.arm.map.run run).get Run.VOL, members := members, rows := rows, seq := 0, reason := reason, blocks := blocks }
    (sealAsk (.loss false [x]) true [] s).logEvent .loss [run, sF, reason]
  else s.logEvent .lossListFull []

/-- Note work for later. -/
def addTodo (x : Todo) (s : State) : State :=
  if s.arm.todo.contains x then s else s.modArm fun a => { a with todo := a.todo ++ [x] }

/-- A row with more than m erasures loses every erased data cluster that cannot be read; zeros and new parity follow
(R297). -/
def loseRow (m : MediaEvents) (run stripe row reason : Nat) (s : State) : State :=
  let k := (s.arm.map.run run).get Run.K
  let js := (List.range k).filter fun j => erased s m run stripe row j && !readable s m run stripe row j && !onLoss s run stripe row j
  let full := decide (lossMax ≤ s.arm.map.loss.length)
  let s := js.foldl (fun (s : State) j =>
    let s := addLoss run stripe stripe (BitVec.twoPow 8 j) (BitVec.twoPow 16 row) 0xFFFF#16 reason s
    if full then s else addTodo (.zero run stripe row j) s) s
  if js.isEmpty || full then s else addTodo (.parity run stripe row) s

end Sys2Proof.Machine
end

