-- ==== Sys2Proof/Machine/Groups.lean ====
section
/-! DEFINITION. The choice of a run's member discs, the reservation and release of clusters (R261, R262, R493), and Armature's
time estimates (R264). -/
namespace Sys2Proof.Machine

/-- Freed ranges of a disc and layer: first cluster, length, key of their run record, member index (R493). -/
def freedOf (m : MapImg) (d l : Nat) : List (Nat × Nat × Nat × Nat) :=
  ((m.all pgRun).filter fun x => x.2.get Run.STATE = 0).flatMap fun x =>
    ((List.range 8).filter fun j => memberUsed x.2 j && x.2.get (Run.DISC j) == d && x.2.get (Run.LAYER j) == l).map fun j =>
      (x.2.get (Run.FIRST j), 16 * x.2.get Run.STRIPES, x.1, j)

/-- Clusters from NEXT<l> to the end of the zone. -/
def stretch (s : State) (m : MapImg) (d l : Nat) : Nat := ((s.discInt d).zone[l]?.getD (0, 0)).2 + 1 - (m.disc d).get (Dsc.NEXT l)

/-- A layer holds `n` free clusters for a member (R493). -/
def layerHolds (s : State) (m : MapImg) (d l n : Nat) : Bool :=
  decide (n ≤ stretch s m d l) || (freedOf m d l).any fun x => decide (n ≤ x.2.1)

/-- Free clusters of a layer. -/
def layerFree (s : State) (m : MapImg) (d l : Nat) : Nat := stretch s m d l + ((freedOf m d l).map fun x => x.2.1).foldl (· + ·) 0

/-- The layer a member goes to: the one with the most free clusters that holds it, the lower one on a tie (R261). -/
def pickLayer (s : State) (m : MapImg) (d n : Nat) : Option Nat :=
  let ls := (List.range ((m.disc d).get Dsc.LAYERS)).filter fun l => layerHolds s m d l n
  ls.foldl (fun (b : Option Nat) l => match b with
    | none => some l
    | some c => if layerFree s m d c < layerFree s m d l then some l else b) none

/-- A disc may serve as a member, by its record at the time of judging (R261, R280). -/
def discFits (s : State) (r : MRec) (d cls stripes : Nat) : Bool :=
  r.get Dsc.STATE == 1 && decide (r.get Dsc.PATINA < patinaWrite s) && r.get Dsc.MEDIUM == (if cls = 0 then 1 else 2)
    && !hdrFull r && (pickLayer s s.arm.map d (16 * stripes)).isSome

def countIf {α : Type} (p : α → Bool) (xs : List α) : Nat := (xs.filter p).length

/-- Members on bus A. -/
def onBusA (s : State) (ds : List Nat) : Nat := countIf (fun d => decide ((homeOf s d).val < 4)) ds
/-- Members in a magazine. -/
def inMag (s : State) (ds : List Nat) (g : Nat) : Nat := countIf (fun d => (s.arm.map.disc d).get Dsc.MAG == g) ds

/-- The magazine rule (R261). -/
def magRule (s : State) (ds : List Nat) (m : Nat) : Bool :=
  m == 0 || ds.all fun d => decide (inMag s ds ((s.arm.map.disc d).get Dsc.MAG) ≤ m)

/-- A group is valid but for the magazine rule; `rec` gives the disc records it is judged by (R261). -/
def groupValid (s : State) (rec : Nat → MRec) (ds : List Nat) (cls stripes n : Nat) : Bool :=
  ds.length == n && decide ds.Nodup && ds.all (fun d => discFits s (rec d) d cls stripes) && decide ((ds.map (homeOf s)).Nodup)
    && decide (onBusA s ds ≤ (n - onBusA s ds) + 1) && decide (n - onBusA s ds ≤ onBusA s ds + 1)

/-- The order of R262: awake home first, more FREE, lower Patina, lower identifier. -/
def discBefore (s : State) (a b : Nat) : Bool :=
  let key (d : Nat) : Nat × Nat × Nat :=
    let r := s.arm.map.disc d
    ((if s.get (engPower (homeOf s d)) = 0 then 1 else 0), 2 ^ 32 - r.get Dsc.FREE, r.get Dsc.PATINA)
  let x := key a
  let y := key b
  if x.1 != y.1 then decide (x.1 < y.1) else if x.2.1 != y.2.1 then decide (x.2.1 < y.2.1)
  else if x.2.2 != y.2.2 then decide (x.2.2 < y.2.2) else decide (a < b)

/-- Registered discs. -/
def registered (s : State) : List Nat :=
  ((s.arm.map.all pgDisc).filter fun x => x.2.get Dsc.STATE != 0).map fun x => x.2.get Dsc.DISC

/-- One pick of R262: the partial group takes a disc that breaks none of its limits. -/
def pickStep (s : State) (n m : Nat) (mag : Bool) (ds : List Nat) (d : Nat) : List Nat :=
  let half := (n + 1) / 2
  let ds' := ds ++ [d]
  if ds.length < n && !(ds.map (homeOf s)).contains (homeOf s d) && decide (onBusA s ds' ≤ half) && decide (ds'.length - onBusA s ds' ≤ half)
      && (!mag || m == 0 || decide (inMag s ds' ((s.arm.map.disc d).get Dsc.MAG) ≤ m))
  then ds' else ds

/-- The default choose_write_group: members, and whether the magazine rule was given up (R262). -/
def defaultGroup (s : State) (cls stripes k m : Nat) : Option (List Nat × Bool) :=
  let el := sortBy (discBefore s) ((registered s).filter fun d => discFits s (s.arm.map.disc d) d cls stripes)
  let g := el.foldl (pickStep s (k + m) m true) []
  if g.length = k + m then some (g, false)
  else
    let g := el.foldl (pickStep s (k + m) m false) []
    if g.length = k + m then some (g, true) else none

/-- A run record with one member, in STATE 0, for a freed range (R493). -/
def freeRec (run k : Nat) (member stripes : Nat) : MRec :=
  let r := (List.range 8).foldl (fun (r : MRec) j => r.put (Run.MEMBER j) (2 ^ 48 - 1)) (MRec.put 0#512 Run.RUN run)
  ((r.put Run.K k).put (Run.MEMBER 0) member).put Run.STRIPES stripes

/-- Reserve clusters for a member of `n` stripes: the lowest freed range that holds it whole, else the clusters at NEXT<l>
(R493). -/
def reserve (s : State) (d n : Nat) (t : Tx) : Option (Nat × Nat × Tx) :=
  match pickLayer s t.1 d (16 * n) with
  | none => none
  | some l =>
    let less (t : Tx) : Tx := t.setDisc d ((t.1.disc d).put Dsc.FREE ((t.1.disc d).get Dsc.FREE - 16 * n))
    match (sortBy (fun a b => decide (a.1 < b.1)) (freedOf t.1 d l)).find? fun x => decide (16 * n ≤ x.2.1) with
    | some x =>
      let old := (t.1.slot x.2.2.1).put (Run.MEMBER x.2.2.2) (2 ^ 48 - 1)
      let t := if (List.range 8).any (memberUsed old) then t.set pgRun x.2.2.1 old else t.del pgRun x.2.2.1
      let t := if x.2.1 = 16 * n then t
        else t.add pgRun (freeRec t.1.newRun 1 (memberVal d l (x.1 + 16 * n)) (x.2.1 / 16 - n))
      some (l, x.1, less t)
    | none =>
      let f := (t.1.disc d).get (Dsc.NEXT l)
      some (l, f, less (t.setDisc d ((t.1.disc d).put (Dsc.NEXT l) (f + 16 * n))))

/-- A freed range that ends where NEXT<l> begins lowers it, again and again; any other stays (R493). -/
def absorb (d l : Nat) : Nat → Tx → Tx
  | 0, t => t
  | n + 1, t =>
    match (freedOf t.1 d l).find? fun x => x.1 + x.2.1 = (t.1.disc d).get (Dsc.NEXT l) with
    | none => t
    | some x =>
      let old := (t.1.slot x.2.2.1).put (Run.MEMBER x.2.2.2) (2 ^ 48 - 1)
      let t := if (List.range 8).any (memberUsed old) then t.set pgRun x.2.2.1 old else t.del pgRun x.2.2.1
      absorb d l n (t.setDisc d ((t.1.disc d).put (Dsc.NEXT l) x.1))

/-- Release a member's clusters: they become free on BD-RE, and are not used again on BD-R (R493). -/
def release (d l first stripes : Nat) (t : Tx) : Tx :=
  let r := t.1.disc d
  if r.get Dsc.MEDIUM != 2 then t
  else
    let t := t.setDisc d (r.put Dsc.FREE (r.get Dsc.FREE + 16 * stripes))
    let t := t.add pgRun (freeRec t.1.newRun 1 (memberVal d l first) stripes)
    absorb d l ((t.1.all pgRun).length + 1) t

/-- Release every member of a run and delete its record. -/
def releaseRun (run : Nat) (t : Tx) : Tx :=
  match t.1.run? run with
  | none => t
  | some x =>
    let t := t.del pgRun x.1
    ((runMembers x.2).filter (memberUsed x.2)).foldl (fun (t : Tx) j =>
      release (x.2.get (Run.DISC j)) (x.2.get (Run.LAYER j)) (x.2.get (Run.FIRST j)) (x.2.get Run.STRIPES) t) t

/-- Reserve every member of a new run, writing MEMBER<j> into its record. -/
def reserveAll (s : State) (stripes : Nat) : List (Nat × Nat) → MRec → Tx → Option (MRec × Tx)
  | [], r, t => some (r, t)
  | (j, d) :: rest, r, t =>
    match reserve s d stripes t with
    | none => none
    | some (l, f, t) => reserveAll s stripes rest (r.put (Run.MEMBER j) (memberVal d l f)) t

/-- A new run of a volume on a group of discs, filling, with the event of a relaxed magazine rule (R261, R287, R289). -/
def makeRun (vol stripes k m : Nat) (ds : List Nat) (relaxed : Bool) (s : State) : State :=
  let t := txStart s
  let id := t.1.newRun
  let r := (((((freeRec id k (2 ^ 48 - 1) stripes).put Run.M m).put Run.STATE 1).put Run.VOL vol).put Run.RELAXED (if relaxed then 1 else 0))
  match reserveAll s stripes ((List.range ds.length).zip ds) r t with
  | none => s
  | some (r, t) =>
    let s := mapCommit (t.add pgRun r) [] s
    let s := s.modArm fun a => { a with initB := a.initB ++ [(id, 0)] }
    if relaxed then s.logEvent .fdRelaxed [id] else s

/-- Geometry a volume's new stripes take (R306). -/
def volK (s : State) (v : Nat) : Nat := (s.arm.map.vol v).get Vol.K
def volM (s : State) (v : Nat) : Nat := (s.arm.map.vol v).get Vol.M

/-- Focused and at speed: the loaded disc can be read (R264). -/
def engineReady (s : State) (e : Eng) : Bool :=
  engRuns s e && s.isSet (SPN_STAT.AT_SPEED e) && (loopSt s e == 3 || loopSt s e == 2)

/-- READY_MS of an engine, in us (R264). -/
def readyUs (s : State) (e : Eng) : Nat :=
  if engineReady s e then 0 else (if s.get (engPower e) = 0 then 2040 else 0) + 1000 * spinMs s e + 150000

/-- eta(d), in us (R264). -/
def etaUs (s : State) (d : Nat) : Nat :=
  let e := homeOf s d
  if (s.discInt d).loc = .engine e then readyUs s e
  else
    let turning := (loadedIn s e).isSome && s.get (SPN_SPEED.OBS e) != 0
    let stop := if turning then (divFree (((s.getInt (SPN_SPEED.OBS e)).natAbs : Int) * 1000000) (20 * max 1 (s.get (SPN_SPD.DEC e)))).toNat + 20000 else 0
    stop + 1000 * chgMs s + (if s.get (engPower e) = 0 then 2040 else 0) + 1000 * spinMs s e + 150000

/-- The speed of R264's estimate at a cluster: commanded, or what ESQ<n> will command there. -/
def estRpm (s : State) (d : Nat) (c : ClAddr) : Nat :=
  let e := homeOf s d
  let n := s.get (SPN_SPD.TARGET e)
  max 1 (if (s.discInt d).loc = .engine e ∧ n != 0 then n else zoneRpm s e d c)

/-- The seek of R264: from the radius of CH1's last address on a loaded disc, from the inner end of the zone on one still to be loaded. -/
def estSeekUs (s : State) (d : Nat) (c : ClAddr) : Nat :=
  let e := homeOf s d
  let from_ : Nat :=
    if (s.discInt d).loc = .engine e ∧ s.isSet (DEC_ADDR.VALID e 1) = true then
      clRadius s d ⟨BitVec.ofNat 28 (s.get (DEC_ADDR.CLUSTER e 1)), BitVec.ofNat 3 (s.get (DEC_ADDR.LAYER e 1))⟩
    else 1000 * (s.discInt d).radii[c.layer.toNat]?.getD 0
  seekUs s e ((clRadius s d c : Int) - from_).natAbs

/-- One spot's rate at a cluster and a speed, in bytes per second: 4.5 MB/s times the multiple of 1x, 12 at rc and 10,000 rpm (R118, R264). -/
def spotRate (s : State) (d : Nat) (c : ClAddr) (rpm : Nat) : Nat :=
  (divFree (5400 * rpm * (clRadius s d c / 1000)) (max 1 (discRc s d))).toNat

/-- t(j) of a member whose cluster is `c` of disc `d`, `q` the time its engine's queue takes, in us (R264). -/
def memberUs (s : State) (d : Nat) (c : ClAddr) (bytes q : Nat) : Nat :=
  let n := estRpm s d c
  etaUs s d + q + estSeekUs s d c + (divFree 30000000 n).toNat + (divFree (bytes * 1000000) (max 1 (spotRate s d c n))).toNat

/-- MSTATE of a member (R263). -/
def mstate (s : State) (run stripe j : Nat) : Nat :=
  let d := (whereIs s run stripe 0 j).1
  let st := discState s d
  if st = 2 ∨ st = 3 ∨ st = 4 then 3
  else if memberErased s run stripe j then 1
  else if memberOut s run stripe j then 2 else 0

end Sys2Proof.Machine
end

