-- ==== Sys2Proof/Machine/Patina.lean ====
section
/-! DEFINITION. The Patina of a disc (R253). Inputs are unsigned 16.16 numbers. -/
namespace Sys2Proof.Machine

/-- Move an input toward a value by 1 / `n`, rounded to 2^-16 and saturated. -/
def patStep (n x v : Nat) : Nat := (clampInt 0 0xFFFFFFFF (roundFree (n * x + v - x) n)).toNat

/-- PATINA of the inputs. -/
def patinaOf (x : DiscInt) : Nat := min 65535 (roundFree (16 * x.mL + 128 * x.mB + 16384 * x.q + 4096 * x.g) 65536).toNat

/-- A decoded cluster with OK = 1: symbols corrected in its LDC and BIS codewords. -/
def patDecoded (ldc bis : Nat) (x : DiscInt) : DiscInt := { x with mL := patStep 256 x.mL (ldc * 65536), mB := patStep 256 x.mB (bis * 65536) }

/-- A cluster left the ladder. -/
def patLeft (hard : Bool) (x : DiscInt) : DiscInt := { x with q := patStep 4096 x.q (if hard then 65536 else 0) }

/-- An aging mark: g from the rise of mL; at the first mark after registration the placeholder is replaced. -/
def patAge (x : DiscInt) : DiscInt :=
  if x.fresh then { x with fresh := false, g := 0, prev := x.mL }
  else { x with
    g := if x.prev = 0 then 0 else (clampInt 0 (4 * 65536) (roundFree ((x.mL - x.prev : Int) * 65536) x.prev)).toNat
    prev := x.mL }

end Sys2Proof.Machine
end

