-- ==== Sys2Proof/Machine/Policy.lean ====
section
/-! DEFINITION. The four decisions, the default policy, calls of the policy program, and the measurement snapshot (R18, R252,
R255-R270, R274). -/
namespace Sys2Proof.Machine

/-- GLB_POL_STAT and the counters number the entries 1 to 4. -/
def Ask.entry : Ask → Fin 5
  | .group .. => 1
  | .source _ => 2
  | .load .. => 3
  | .speed .. => 4

/-- ENTRY<e> of the loaded image, 0 where the program does not provide it (R255). -/
def polEntry (s : State) (e : Nat) : Nat := leNum ((s.arm.image.drop (20 + 4 * e)).take 4)

/-- An entry of the program is called (R255, R258). -/
def polActive (s : State) (e : Nat) : Bool := (s.get GLB_POL_STAT.ACTIVE).testBit (e - 1)
def polLoaded (s : State) (e : Nat) : Bool := (s.get GLB_POL_STAT.LOADED).testBit (e - 1)

/-! ### Answers: what makes one valid, and what taking it up does -/

/-- The deadline choose_read_source works with: named, or the class's default (R254, R265). -/
def readDl (s : State) (r : ReadReq) : Option Nat :=
  match r.deadlineMs with
  | some d => some (1000 * d)
  | none => if r.cls = 1 then some (1000 * setting s 0x0004) else if r.cls = 3 then some (1000 * setting s 0x0005) else none

def within? (t : Nat) (dl : Option Nat) : Bool := match dl with
  | some d => decide (t ≤ d)
  | none => true

/-- t(j) of a member of a read. -/
def readUs (s : State) (r : ReadReq) (j : Nat) : Nat :=
  let w := whereIs s r.run r.stripe 0 j
  memberUs s w.1 w.2 r.bytes (r.qtimeUs[j]?.getD 0)

/-- The k available members with the smallest t(j), but for NEED: ties by Patina, then index (R265). -/
def bestSet (s : State) (r : ReadReq) : List Nat :=
  let rec_ := s.arm.map.run r.run
  let av := (runMembers rec_).filter fun j => j != r.need && mstate s r.run r.stripe j == 0
  let pat (j : Nat) : Nat := (s.arm.map.disc (whereIs s r.run r.stripe 0 j).1).get Dsc.PATINA
  let lt (a b : Nat) : Bool :=
    if readUs s r a != readUs s r b then decide (readUs s r a < readUs s r b) else if pat a != pat b then decide (pat a < pat b) else decide (a < b)
  (sortBy lt av).take (rec_.get Run.K)

def setMask (js : List Nat) : BitVec 8 := js.foldl (fun (z : BitVec 8) j => z ||| BitVec.twoPow 8 j) 0#8

/-- t_rec (R264): 12.8 GB/s is 12,800 bytes per us. -/
def recUs (s : State) (r : ReadReq) (js : List Nat) : Nat :=
  (js.map (readUs s r)).foldl max 0 + (divFree ((s.arm.map.run r.run).get Run.K * r.bytes) 12800).toNat

/-- A member's disc has to be spun up. -/
def memberAsleep (s : State) (r : ReadReq) (j : Nat) : Bool := etaUs s (whereIs s r.run r.stripe 0 j).1 != 0

/-- The default choose_read_source (R265). -/
def defaultSource (s : State) (r : ReadReq) : Answer :=
  let k := (s.arm.map.run r.run).get Run.K
  let best := bestSet s r
  let dl := readDl s r
  let tr := recUs s r best
  let awake := !best.any (memberAsleep s r)
  if r.ladder then
    if r.cls = 4 ∨ best.length < k then .cont
    else if awake && decide (tr < 1000 * r.remainMs) then .skip (setMask best)
    else if (match dl with
      | some d => decide (d < 1000 * r.remainMs)
      | none => false) && within? tr dl then .skip (setMask best)
    else .cont
  else
    let tn := readUs s r r.need
    if mstate s r.run r.stripe r.need != 0 then .reconstruct (setMask best)
    else if best.length < k then .direct
    else if !memberAsleep s r r.need && within? tn dl then .direct
    else if awake && within? tr dl then .reconstruct (setMask best)
    else if within? tn dl then .direct
    else if within? tr dl then .reconstruct (setMask best)
    else if tr < tn then .reconstruct (setMask best) else .direct

/-- A SET names exactly k available members other than NEED, by the MSTATE list `ms` (R263). -/
def setValid (s : State) (r : ReadReq) (ms : List Nat) (set : BitVec 8) : Bool :=
  popcount 8 set.toNat == (s.arm.map.run r.run).get Run.K && !set.getLsbD r.need
    && (List.range 8).all fun j => !set.getLsbD j || (decide (j < runWidth (s.arm.map.run r.run)) && ms[j]?.getD 3 == 0)

/-- The order of choose_load: class, deadline, KiB (R267). -/
def loadBefore (a b : LoadCand) : Bool :=
  let d (x : LoadCand) : Nat := x.deadlineMs.getD 0xFFFFFFFF
  if a.cls != b.cls then decide (a.cls < b.cls) else if d a != d b then decide (d a < d b) else decide (b.kib < a.kib)

/-- The default choose_load: a candidate better than CUR, the lowest identifier of the best; else CUR (R267). -/
def defaultLoad (cur : LoadCand) (cs : List LoadCand) : Option Nat :=
  let lt (a b : LoadCand) : Bool := loadBefore a b || (!loadBefore b a && decide (a.disc < b.disc))
  match sortBy lt (cs.filter fun c => loadBefore c cur) with
  | [] => none
  | c :: _ => some c.disc

/-- The default choose_speed (R269). Rates in kB/s; f is fill / size, or one half. -/
def defaultSpeed (s : State) (e : Eng) (radius rc host fill size : Nat) : Option Nat :=
  let (f, z) := if size = 0 then (1, 2) else (fill, size)
  let top := rpmMax s e radius rc
  let lo := min (spdFloor s) top
  let want := host * (16 * z - 10 * f)                  -- D x 10 z
  let n := if want ≤ 208800 * 10 * z then (want * 10000 * rc + 208800 * 10 * z * radius - 1) / (max 1 (208800 * 10 * z * radius)) else top
  let n := max lo (min top ((n + 249) / 250 * 250))
  let now := s.get (SPN_SPD.TARGET e)
  if decide (now ≤ 10 * (max n now - min n now)) || decide (4 * f < z) || decide (3 * z < 4 * f) then some n else none

/-- The pickup stays on one turn while the buffer is three quarters full and the floor speed still outruns the host, and
goes on once it is less than half full (R210, R269). -/
def takeTurn (e : Eng) (radius rc host fill size : Nat) (s : State) : State :=
  let ov := decide (host * (16 * size - 10 * fill) * 10000 * rc < 208800 * 10 * size * min (10000 * rc) (spdFloor s * radius))
  if size = 0 then s
  else if ov && decide (3 * size ≤ 4 * fill) then slgTurns e 0 s
  else if s.get (SLG_CTRL.TPR e) = 0 ∧ 2 * fill < size then slgTurns e (if s.get (SEAM_STAT.STATE e) = seamRunning then 4 else 1) s
  else s

/-- A disc may be exchanged: at IDLE of the seam block and write path, and not with CHOP_FAULT on the engine's bus (R267). -/
def exchangeMay (s : State) (e : Eng) : Bool :=
  s.get (SEAM_STAT.STATE e) == seamIdle && !writing s e && !s.isSet (BRK_STAT.CHOP_FAULT (busOf e))

/-- The changer works on a disc for the next CHG_MS; its location counts as where it goes from the start (R267, R492). -/
def changerTakes (d : Nat) (s : State) : State :=
  s.modArm fun a => { a with exchange := (a.exchange.filter fun x => x.1 != d && decide (s.us < x.2)) ++ [(d, s.us + 1000 * chgMs s)] }

/-- The disc an engine holds goes back to its slot. -/
def discOut (e : Eng) (s : State) : State :=
  match loadedIn s e with
  | some o => changerTakes o ((s.modDisc o fun x => { x with loc := .magazine }).emit (.unload e o))
  | none => s

/-- A disc goes into an engine, where no FOCUS_SEARCH has been tried on it (R203). -/
def discIn (e : Eng) (d : Nat) (s : State) : State :=
  let s := s.modLoop e fun l => { l with searches := 0 }
  changerTakes d ((s.modDisc d fun x => { x with loc := .engine e }).emit (.load e d))

/-- A disc is exchanged. -/
def takeLoad (e : Eng) (d : Nat) (s : State) : State :=
  if exchangeMay s e && loadedIn s e != some d then discIn e d (discOut e s) else s

/-- Take up an answer (R261, R263, R267, R268). For a ladder message, SKIP hands its cluster on (R155), and a
deadline named for the read advances it in the queue (R148). -/
def takeUp (a : Ask) (r : Answer) (s : State) : State :=
  match a, r with
  | .group vol stripes, .group (some ds) =>
    makeRun vol stripes (volK s vol) (volM s vol) ds (!magRule s ds (volM s vol)) s
  | .group vol _, .group none => (s.modArm fun x => { x with noGroup := (vol :: x.noGroup).eraseDups }).logEvent .noMedia [vol]
  | .source q, .reconstruct set => s.modArm fun x => { x with sources := x.sources ++ [((q.run, q.stripe, q.need), set)] }
  | .source q, .skip _ =>
    let e := homeOf s (whereIs s q.run q.stripe 0 q.need).1
    match s.ladderMsgs.find? fun m => m.e = e with
    | some m => ladderSkipOp e m.addr { s with ladderMsgs := s.ladderMsgs.erase m }
    | none => s
  | .source q, .cont =>
    let e := homeOf s (whereIs s q.run q.stripe 0 q.need).1
    match s.ladderMsgs.find? fun m => m.e = e with
    | some m =>
      let s : State := { s with ladderMsgs := s.ladderMsgs.erase m }
      match q.deadlineMs with
      | some d => ladderDue e m.addr (s.us + 1000 * d) s
      | none => s
    | none => s
  | .load e _ _, .load (some d) => takeLoad e d s
  | .speed e _ _ _ _ _, .speed n => takeSpeed e n s
  | .group .., .direct | .group .., .reconstruct _ | .group .., .skip _ | .group .., .cont | .group .., .load _ | .group .., .speed _ => s
  | .source _, .direct | .source _, .group _ | .source _, .load _ | .source _, .speed _ => s
  | .load .., .load none | .load .., .direct | .load .., .reconstruct _ | .load .., .skip _ | .load .., .cont | .load .., .group _ | .load .., .speed _ => s
  | .speed .., .direct | .speed .., .reconstruct _ | .speed .., .skip _ | .speed .., .cont | .speed .., .load _ | .speed .., .group _ => s

/-- The default policy answers (R262, R265, R267, R269). -/
def defaultAnswer (a : Ask) (s : State) : State :=
  match a with
  | .group vol stripes => takeUp a (.group ((defaultGroup s ((s.arm.map.vol vol).get Vol.CLASS) stripes (volK s vol) (volM s vol)).map Prod.fst)) s
  | .source r => takeUp a (defaultSource s r) s
  | .load _ cur cs => takeUp a (.load (defaultLoad cur cs)) s
  | .speed e radius rc host fill size =>
    let s := match defaultSpeed s e radius rc host fill size with
      | some n => takeSpeed e n s
      | none => s
    takeTurn e radius rc host fill size s

/-- The default answers a call, and GLB_POL_CNT counts it (R258, R274). -/
def defaulted (a : Ask) (s : State) : State := defaultAnswer a (s.inc (GLB_POL_CNT.DEFAULTED a.entry))

/-- No call is made for a read with too few members whose own is not available (R263). -/
def askNeeded (s : State) : Ask → Bool
  | .source r => decide ((s.arm.map.run r.run).get Run.K ≤ ((runMembers (s.arm.map.run r.run)).filter fun j => j != r.need && mstate s r.run r.stripe j == 0).length)
      || mstate s r.run r.stripe r.need == 0
  | .group .. | .load .. | .speed .. => true

/-- A ladder message of a class C4 read always receives CONTINUE (R265). -/
def askFixed : Ask → Bool
  | .source r => r.ladder && decide (r.cls = 4)
  | .group .. | .load .. | .speed .. => false

/-- The core a call is placed on: fewest pending calls, the lower one on a tie (R270). -/
def callCore (s : State) : Fin 4 :=
  let n (c : Fin 4) : Nat := s.arm.plc[c].queue.length + (if s.arm.plc[c].call.isSome then 1 else 0)
  (List.finRange 4).foldl (fun (b : Fin 4) (c : Fin 4) => if n c < n b then c else b) 0

/-- Change a PLC core. -/
def State.modPlc (s : State) (c : Fin 4) (f : Plc → Plc) : State := s.modArm fun a => { a with plc := a.plc.set c (f a.plc[c]) }

/-- A decision is asked for: of the program where its entry is active, else of the default policy (R255, R258). -/
def ask (a : Ask) (s : State) : State :=
  if askFixed a then takeUp a .cont s
  else if !askNeeded s a then s
  else if polActive s a.entry then s.modPlc (callCore s) fun p => { p with queue := p.queue ++ [a] }
  else if polLoaded s a.entry then defaulted a s
  else defaultAnswer a s

/-! ### Calls of the program -/

/-- The bytes of a request (R261, R263, R267, R268). -/
def reqBytes (s : State) : Ask → List Byte
  | .group vol stripes =>
    let v := s.arm.map.vol vol
    leBytes 1 vol ++ leBytes 1 (v.get Vol.CLASS) ++ leBytes 1 (v.get Vol.K + 16 * v.get Vol.M) ++ leBytes 1 0 ++ leBytes 4 stripes ++ leBytes 56 0
  | .source r =>
    let rr := s.arm.map.run r.run
    let disc (j : Nat) : Nat := if j < runWidth rr then (whereIs s r.run r.stripe 0 j).1 else 0xFFFF
    leBytes 1 (if r.ladder then 1 else 0) ++ leBytes 1 r.cls ++ leBytes 1 r.need ++ leBytes 1 (rr.get Run.K + 16 * rr.get Run.M)
      ++ leBytes 4 r.bytes ++ leBytes 4 (r.deadlineMs.getD 0xFFFFFFFF) ++ leBytes 4 (if r.ladder then r.remainMs else 0)
      ++ (List.range 8).flatMap (fun j => leBytes 2 (disc j))
      ++ (List.range 8).flatMap (fun j => leBytes 1 (if j < runWidth rr then mstate s r.run r.stripe j else 0)) ++ leBytes 24 0
  | .load e cur cs =>
    let code (c : LoadCand) : Nat := if c.cls = 0 then 0x80 else if c.cls = 5 then 0 else c.cls
    leBytes 1 e.val ++ leBytes 1 (min 16 cs.length) ++ leBytes 2 ((loadedIn s e).getD 0xFFFF) ++ leBytes 4 cur.kib ++ leBytes 1 (code cur)
      ++ leBytes 7 0 ++ (cs.take 16).flatMap fun c => leBytes 2 c.disc ++ leBytes 1 (code c) ++ leBytes 1 0 ++ leBytes 4 c.kib ++ leBytes 4 (c.deadlineMs.getD 0xFFFFFFFF)
  | .speed e radius rc host fill size =>
    leBytes 1 e.val ++ leBytes 1 (s.get (BRK_STAT.CHOP_FAULT (busOf e))) ++ leBytes 2 (s.get (SPN_SPD.TARGET e)) ++ leBytes 2 (rpmMax s e radius rc)
      ++ leBytes 2 0 ++ leBytes 4 radius ++ leBytes 4 rc ++ leBytes 4 host ++ leBytes 2 (min 65535 fill) ++ leBytes 2 (min 65535 size) ++ leBytes 40 0

/-- Bytes of a core's local memory. -/
def plcRead (s : State) (c : Fin 4) (a n : Nat) : List Byte := (List.range n).map fun i => Cells.get (fun _ => 0#8) s.arm.plc[c].mem (a + i)
def plcWrite (c : Fin 4) (a : Nat) (bs : List Byte) (s : State) : State :=
  s.modPlc c fun p => { p with mem := (List.range bs.length).foldl (fun m i => Cells.set Cells.natLt (fun _ => 0#8) m (a + i) (bs[i]?.getD 0#8)) p.mem }

/-- Set a register of a core; x0 stays 0. -/
def plcSet (c : Fin 4) (rd : Fin 32) (v : Word) (s : State) : State :=
  if rd = 0 then s else s.modPlc c fun p => { p with x := p.x.set rd v }

/-- The size fields of a policy image: CODE, DATA, BSS, STACK (R255). -/
def polSize (image : List Byte) (i : Nat) : Nat := leNum ((image.drop (8 + 4 * i)).take 4)

/-- The snapshot a call reads, with its ENTRY and CORE (R260). -/
def callSnap (s : State) (c : Fin 4) (e : Nat) : List Byte :=
  (s.arm.snap[s.arm.snapCur].set 12 (BitVec.ofNat 8 e)).set 13 (BitVec.ofNat 8 c.val)

/-- The PMP of a core for a policy call: code and data, the stack and the answer area to read and write; the snapshot and the request
to read (R18, R256). -/
def callPmp (s : State) : List (Nat × Nat × Bool) :=
  let size (i : Nat) : Nat := polSize s.arm.image i
  [((Config.polAddr 5).toNat, size 0 + size 1 + size 2, true), ((Config.polAddr 4).toNat - size 3, size 3, true),
    ((Config.polAddr 3).toNat, 64, true), ((Config.polAddr 2).toNat, 64, false),
    ((Config.polAddr s.arm.snapCur.val).toNat, s.arm.snap[s.arm.snapCur].length, false)]

/-- POLICY_CALL: the core's oldest call enters the program in U mode (R18, R256). -/
def policyCallOp (c : Fin 4) (s : State) : State :=
  let p := s.arm.plc[c]
  match p.call, p.queue with
  | none, a :: rest =>
    let s := s.modPlc c fun p => { p with queue := rest }
    if !polActive s a.entry then defaulted a s
    else
      let view := (registered s).map fun d => (d, s.arm.map.disc d)
      let mst := match a with
        | .source r => (List.range 8).map fun j => mstate s r.run r.stripe j
        | .group .. | .load .. | .speed .. => []
      let s := plcWrite c (Config.polAddr 3).toNat (leBytes 64 0) (plcWrite c (Config.polAddr 2).toNat (reqBytes s a) s)
      let s := plcWrite c (Config.polAddr s.arm.snapCur.val).toNat (callSnap s c a.entry) s
      let s := plcSet c 10 (Config.polAddr s.arm.snapCur.val) s
      let s := plcSet c 2 (Config.polAddr 4) (plcSet c 12 (Config.polAddr 3) (plcSet c 11 (Config.polAddr 2) s))
      s.modPlc c fun p => { p with call := some (a, s.us), user := true, pmp := callPmp s, pc := Config.polAddr 5 + BitVec.ofNat 32 (polEntry s a.entry), view := view, mst := mst }
  | none, [] => s
  | some _, _ => s

/-- A policy fault: counted, logged, and after eight within 10 s the entry is disabled; the default answers (R258). -/
def policyFault (a : Ask) (cause : Nat) (s : State) : State :=
  let e : Nat := a.entry
  let s := (s.inc (GLB_POL_CNT.FAULTS e)).logEvent .policyFault [e, cause]
  let ts := s.us :: (s.arm.faultAt[e - 1]?.getD []).filter fun t => decide (s.us < t + 10000000)
  let s := s.modArm fun x => { x with faultAt := x.faultAt.setIfInBounds (e - 1) ts }
  let s := if 8 ≤ ts.length && polActive s e then
      (s.put GLB_POL_STAT.ACTIVE (s.get GLB_POL_STAT.ACTIVE &&& (15 ^^^ 2 ^ (e - 1)))).logEvent .policyDisabled [e]
    else s
  defaulted a s

/-- A core takes the loaded image: code, initialised data and zeroed data (R255, R392). -/
def coreReload (c : Fin 4) (s : State) : State :=
  plcWrite c (Config.polAddr 5).toNat (s.arm.image.drop 64 ++ leBytes (polSize s.arm.image 2) 0) (s.modPlc c fun p => { p with reload := false })

/-- The call in progress on a core ends; an image that waits for the boundary is taken (R392). -/
def callEnd (c : Fin 4) (s : State) : State :=
  let s := s.modPlc c fun p => { p with call := none, user := false }
  if s.arm.plc[c].reload then coreReload c s else s

/-- A call in progress ends in a policy fault (R258). -/
def callFault (c : Fin 4) (cause : Nat) (s : State) : State :=
  match s.arm.plc[c].call with
  | some (a, _) => policyFault a cause (callEnd c s)
  | none => s

/-- Causes of a policy fault as the event names them (log 31). -/
def pfAccess : Nat := 1
def pfIllegal : Nat := 2
def pfBudget : Nat := 3
def pfReturn : Nat := 4
def pfAnswer : Nat := 5

/-- An answer read from the answer area (R261, R263, R267, R268). -/
def parseAnswer (s : State) (a : Ask) (bs : List Byte) : Option Answer :=
  let n2 (i : Nat) : Nat := leNum ((bs.drop (2 * i)).take 2)
  match a with
  | .group vol _ =>
    some (.group (if n2 0 = 0xFFFF then none else some ((List.range (volK s vol + volM s vol)).map n2)))
  | .source _ =>
    let set := bs[2]?.getD 0#8
    match (bs[0]?.getD 0#8).toNat with
    | 0 => some .direct
    | 1 => some (.reconstruct set)
    | 2 => some (.skip set)
    | 3 => some .cont
    | _ => none
  | .load .. => some (.load (if n2 0 = 0xFFFF then none else some (n2 0)))
  | .speed .. => some (.speed (n2 0))

/-- An answer is valid against disc records and member states, those of now or those of the call (R259, R261, R263, R267,
R268). -/
def answerValid (s : State) (rec : Nat → MRec) (ms : List Nat) (a : Ask) (r : Answer) : Bool :=
  match a, r with
  | .group vol stripes, .group (some ds) => groupValid s rec ds ((s.arm.map.vol vol).get Vol.CLASS) stripes (volK s vol + volM s vol)
  | .group .., .group none => true
  | .source q, .direct => !q.ladder && ms[q.need]?.getD 3 == 0
  | .source q, .reconstruct set => !q.ladder && setValid s q ms set
  | .source q, .skip set => q.ladder && setValid s q ms set
  | .source q, .cont => q.ladder
  | .load _ _ cs, .load (some d) => cs.any fun c => c.disc = d
  | .load .., .load none => true
  | .speed e radius rc _ _ _, .speed n => decide (min (spdFloor s) (rpmMax s e radius rc) ≤ n) && decide (n ≤ rpmMax s e radius rc)
  | .group .., .direct | .group .., .reconstruct _ | .group .., .skip _ | .group .., .cont | .group .., .load _ | .group .., .speed _ => false
  | .source _, .group _ | .source _, .load _ | .source _, .speed _ => false
  | .load .., .direct | .load .., .reconstruct _ | .load .., .skip _ | .load .., .cont | .load .., .group _ | .load .., .speed _ => false
  | .speed .., .direct | .speed .., .reconstruct _ | .speed .., .skip _ | .speed .., .cont | .speed .., .load _ | .speed .., .group _ => false

/-- POLICY_ECALL: the program returns, and its answer is validated against the present state and taken up; one that has only
become stale gives way to the default without a fault (R256, R258, R259). -/
def policyEcallOp (c : Fin 4) (s : State) : State :=
  let p := s.arm.plc[c]
  match p.call with
  | none => s
  | some (a, _) =>
    if p.x[17] != 0#32 then callFault c pfReturn s
    else if p.x[10] = 1#32 then defaulted a (callEnd c s)
    else if p.x[10] != 0#32 then callFault c pfReturn s
    else match parseAnswer s a (plcRead s c (Config.polAddr 3).toNat 64) with
      | none => callFault c pfAnswer s
      | some r =>
        let now := match a with
          | .source q => (List.range 8).map fun j => mstate s q.run q.stripe j
          | .group .. | .load .. | .speed .. => []
        if answerValid s s.arm.map.disc now a r then takeUp a r (callEnd c s)
        else if answerValid s (fun d => ((p.view.find? fun x => x.1 = d).map Prod.snd).getD 0#512) p.mst a r then defaulted a (callEnd c s)
        else callFault c pfAnswer s

/-- POLICY_BUDGET_EXPIRE: the timer ends the call (R257, R258). -/
def budgetExpire (c : Fin 4) (s : State) : State :=
  match s.arm.plc[c].call with
  | some (a, _) => callFault c pfBudget (s.inc (GLB_POL_CNT.OVERRUNS a.entry))
  | none => s

/-! ### The snapshot (R252, R260) -/

/-- STATE of an engine entry. -/
def engineState (s : State) (e : Eng) : Nat :=
  if engineOut s e then 5
  else if s.get (engPower e) = 0 then 0
  else if s.get (engPower e) = 1 then 1
  else if (loadedIn s e).isNone then 6
  else if writing s e then 4
  else if s.get (SEAM_STAT.STATE e) != seamIdle then 3 else 2

/-- Drift of the laser against the loaded disc's first valid P_OPT, per mille (R252). -/
def ldrift (s : State) (e : Eng) : Int :=
  match (loadedIn s e).bind fun d => (s.discInt d).pOpt with
  | some p => if p = 0 then 0 else divFree ((s.get (WR_OPC_RES.P_OPT e) - p : Int) * 1000) p
  | none => 0

/-- The first valid P_OPT of the disc an engine holds is kept (R252). -/
def driftKeep (s : State) (e : Eng) : State :=
  match loadedIn s e with
  | some d => if s.isSet (WR_OPC_RES.VALID e) && (s.discInt d).pOpt.isNone then
      s.modDisc d fun x => { x with pOpt := some (s.get (WR_OPC_RES.P_OPT e)) } else s
  | none => s

/-- The pickup's radius in um: CH1's last address by R212, on a disc that has given none the inner end of the zone, where a load leaves
it (R252, R264). -/
def pickupUm (s : State) (e : Eng) : Nat :=
  match loadedIn s e with
  | some d =>
    if s.isSet (DEC_ADDR.VALID e 1) then
      clRadius s d ⟨BitVec.ofNat 28 (s.get (DEC_ADDR.CLUSTER e 1)), BitVec.ofNat 3 (s.get (DEC_ADDR.LAYER e 1))⟩ / 1000
    else (s.discInt d).radii[0]
  | none => 0

/-- A rebuild or reshape is running. -/
def copying (s : State) : Bool := !s.arm.rebuilds.isEmpty || !s.arm.reshapes.isEmpty

/-- An engine entry: also the entry of GET_LOG 5 (R260, R396). -/
def engineEntry (s : State) (e : Eng) (work : Nat × Nat) : List Byte :=
  let fl := (if s.get (HL_STAT.STATE e) = hlDegraded then 1 else 0) + 2 * s.get (SPN_STAT.VLIM e) + (if copying s then 4 else 0)
  leBytes 1 (engineState s e) ++ leBytes 1 fl ++ leBytes 2 ((loadedIn s e).getD 0xFFFF) ++ leBytes 2 (s.get (SPN_SPD.TARGET e))
    ++ leBytes 2 (s.get (SPN_SPEED.OBS e)) ++ leBytes 2 work.1 ++ leBytes 2 work.2 ++ leBytes 2 (s.get (HL_F5STAT.TEMP e))
    ++ leBytes 2 (unsigned 16 (ldrift s e)) ++ leBytes 4 (pickupUm s e) ++ leBytes 4 (divFree (readyUs s e) 1000).toNat ++ leBytes 8 0

def busEntry (s : State) (b : Fin 2) : List Byte :=
  leBytes 2 (s.get (BRK_PWR.PBUS b)) ++ leBytes 2 (s.get (BRK_STAT.VBUS b)) ++ leBytes 1 ((s.rd (BRK_STAT.reg b)).toNat >>> 17 % 32) ++ leBytes 11 0

def discEntry (s : State) (d : Nat) : List Byte :=
  let r := s.arm.map.disc d
  let loc := match (s.discInt d).loc with
    | .engine e => e.val
    | .magazine | .unknown => 0xFF
  leBytes 2 d ++ leBytes 1 (r.get Dsc.STATE) ++ leBytes 1 (r.get Dsc.HOME) ++ leBytes 1 (r.get Dsc.MAG)
    ++ leBytes 1 (r.get Dsc.MEDIUM + 16 * r.get Dsc.LAYERS) ++ leBytes 2 (patinaOf (s.discInt d)) ++ leBytes 4 (r.get Dsc.FREE)
    ++ leBytes 1 loc ++ leBytes 1 0 ++ leBytes 2 (min 65535 (divFree (etaUs s d) 1000).toNat)

/-- FLAGS of the snapshot. -/
def snapFlags (s : State) : Nat :=
  (if s.get GLB_JNL_STAT.STATE = jnlDegraded then 1 else 0) + (if refusing s then 2 else 0)
    + 4 * s.get (BRK_STAT.CHOP_FAULT 0) + 8 * s.get (BRK_STAT.CHOP_FAULT 1)

/-- The snapshot but for ENTRY and CORE, which the call gives it. -/
def snapBytes (s : State) (work : Vector (Nat × Nat) 8) : List Byte :=
  leBytes 8 s.us ++ leBytes 4 s.arm.snapSeq ++ leBytes 2 0 ++ leBytes 2 (snapFlags s) ++ leBytes 4 50000
    ++ leBytes 4 (registered s).length ++ leBytes 40 0
    ++ (List.finRange 8).flatMap (fun e => engineEntry s e work[e]) ++ busEntry s 0 ++ busEntry s 1
    ++ (sortBy (fun a b => decide (a < b)) (registered s)).flatMap (discEntry s)

/-- MEASUREMENT_SNAPSHOT: at a whole multiple of 1,000 us the other buffer takes the next snapshot; `work` is the queue depth and the
time to drain it, in ms, of each engine (R252). -/
def snapshotOp (work : Vector (Nat × Nat) 8) (s : State) : State :=
  if s.us % 1000 ≠ 0 then s
  else
    let i : Fin 2 := 1 - s.arm.snapCur
    let s := s.modArm fun a => { a with snapSeq := a.snapSeq + 1 }
    let s := (List.finRange 8).foldl driftKeep s
    let b := snapBytes s work
    s.modArm fun a => { a with snap := a.snap.set i b, snapCur := i }

def execMeasurementSnapshot (work : Vector (Nat × Nat) 8) (s : State) : Outcome := ok (snapshotOp work s)

end Sys2Proof.Machine
end

