-- ==== Sys2Proof/Machine/Pools.lean ====
section
/-! DEFINITION. The buffer pools (R409-R413) and the retirement of DDR4 rows (R401, R404). Buffers are named by their
address divided by 256. -/
namespace Sys2Proof.Machine

/-- Change a pool. -/
def State.modPool (s : State) (p : Fin 4) (f : PoolInt → PoolInt) : State :=
  { s with mem := { s.mem with pool := s.mem.pool.set p (f s.mem.pool[p]) } }

/-- Buffer size in 256-byte units. -/
def poolUnits (p : Fin 4) : Nat := 16 ^ p.val
/-- Largest number of buffers. -/
def poolMax (p : Fin 4) : Nat := #v[65536, 65536, 32768, 16384][p]
/-- Buffers configured. -/
def poolCount (s : State) (p : Fin 4) : Nat := min (poolMax p) (s.get (POOL_NUM.COUNT p))
/-- First buffer: the region starts at a whole MiB. -/
def poolStart (s : State) (p : Fin 4) : Nat := 4096 * s.get (POOL_BASE.BASE p)

/-- The start of a buffer of the pool. -/
def bufOf (s : State) (p : Fin 4) (b : Nat) : Bool :=
  decide (poolStart s p ≤ b) && decide (b < poolStart s p + poolCount s p * poolUnits p) && (b - poolStart s p) % poolUnits p == 0

/-- The pool a buffer belongs to. -/
def poolOf (s : State) (b : Nat) : Option (Fin 4) := (List.finRange 4).find? fun p => bufOf s p b

/-- Owners of a buffer, in order; none: free. -/
def ownersOf (s : State) (p : Fin 4) (b : Nat) : List Byte := Cells.get (fun _ => []) s.mem.pool[p].owners b
/-- Give a buffer its owners. -/
def setOwners (p : Fin 4) (b : Nat) (os : List Byte) (s : State) : State :=
  s.modPool p fun x => { x with owners := Cells.set Cells.natLt (fun _ => []) x.owners b os }

/-- FREE changes, and MIN_FREE follows it down. -/
def poolFree (p : Fin 4) (n : Nat) (s : State) : State :=
  let s := s.put (POOL_FREE.FREE p) n
  s.put (POOL_MIN.MIN_FREE p) (min n (s.get (POOL_MIN.MIN_FREE p)))

/-- The lowest buffer never handed out and not quarantined, from index `i`. -/
def poolFresh (s : State) (p : Fin 4) : Nat → Nat → Option Nat
  | 0, _ => none
  | n + 1, i =>
    if poolCount s p ≤ i then none
    else if s.mem.pool[p].quar.contains (poolStart s p + i * poolUnits p) then poolFresh s p n (i + 1) else some i

/-- Hand out a buffer: the last freed first (R410). -/
def poolTake (p : Fin 4) (s : State) : Option (Nat × State) :=
  let x := s.mem.pool[p]
  match x.freed with
  | b :: rest => some (b, s.modPool p fun x => { x with freed := rest })
  | [] => match poolFresh s p (x.quar.length + 1) x.next with
    | some i => some (poolStart s p + i * poolUnits p, s.modPool p fun x => { x with next := i + 1 })
    | none => none

/-- A new buffer's contents are undefined (R410, log 29). -/
def newContents (p : Fin 4) (b : Nat) (s : State) : State :=
  let n := s.fresh
  let s := s.tickFresh
  if p = 0 then s.ddrPut (256 * b) 256 (Config.newBuffer n 0).toNat
  else (List.range (poolUnits p / 16)).foldl (fun (s : State) i => s.ddrSetLine (b / 16 + i) (Config.newBuffer n i)) s

/-- The buffer is allocated for its owner. -/
def poolGive (p : Fin 4) (b : Nat) (o : Byte) (s : State) : State :=
  newContents p b (poolFree p (s.get (POOL_FREE.FREE p) - 1) (setOwners p b [o] s))

/-- BPALLOC found pool `p` empty and nothing to spill to. -/
def poolEmpty (p : Fin 4) (s : State) : State := s.put POOL_EVT.EMPTY (s.get POOL_EVT.EMPTY ||| 2 ^ p.val)

/-- BPALLOC: the state and rd (R410). -/
def bpallocOp (n : Nat) (o : Byte) (s : State) : State × Nat :=
  match (List.finRange 4).find? fun p => decide (n ≤ 256 * poolUnits p) with
  | none => (s, 0)
  | some p => match poolTake p s with
    | some (b, t) => (poolGive p b o t, b)
    | none =>
      if p.val < 3 ∧ (s.get POOL_CFG.SPILL).testBit p.val then
        match poolTake (p + 1) s with
        | some (b, t) => (poolGive (p + 1) b o t, b)
        | none => (poolEmpty p (poolEmpty (p + 1) s), 0)
      else (poolEmpty p s, 0)

/-- An address that is no buffer of any pool (R411). -/
def badAddr (b : Nat) (s : State) : State := (s.put POOL_EVT.BAD_ADDR 1).put POOL_ERR.ADDR b

/-- BPSHARE: the state and rd (R411). -/
def bpshareOp (b : Nat) (o : Byte) (s : State) : State × Nat :=
  match poolOf s b with
  | none => (badAddr b s, 2)
  | some p =>
    let os := ownersOf s p b
    if os.isEmpty then (s, 2)
    else if os.contains o then (s, 0)
    else if 4 ≤ os.length then (s, 4)
    else (setOwners p b (os ++ [o]) s, 0)

/-- A 128 KiB block overlaps a buffer. -/
def blockHits (p : Fin 4) (b k : Nat) : Bool := decide (512 * k < b + poolUnits p) && decide (b < 512 * (k + 1))

/-- A buffer goes back to its pool, or into quarantine where its block is quarantined (R404). -/
def poolBack (p : Fin 4) (b : Nat) (s : State) : State :=
  let s := setOwners p b [] s
  if s.mem.badBlocks.any (blockHits p b) then (s.modPool p fun x => { x with quar := b :: x.quar }).inc (POOL_FREE.QUAR p)
  else poolFree p (s.get (POOL_FREE.FREE p) + 1) (s.modPool p fun x => { x with freed := b :: x.freed })

/-- BPFREE: the state and rd (R411). -/
def bpfreeOp (b : Nat) (o : Byte) (s : State) : State × Nat :=
  match poolOf s b with
  | none => (badAddr b s, 2)
  | some p =>
    let os := ownersOf s p b
    if os.isEmpty then (((s.put POOL_EVT.DOUBLE_FREE 1).put POOL_ERR.ADDR b).logEvent .poolDoubleFree [b, o.toNat], 3)
    else if !os.contains o then ((s.put POOL_EVT.NOT_OWNER 1).put POOL_ERR.ADDR b, 2)
    else if os = [o] then (poolBack p b s, 0)
    else (setOwners p b (os.erase o) s, 1)

/-- Buffers of a pool that overlap a block. -/
def blockBufs (p : Fin 4) (k : Nat) : List Nat :=
  if poolUnits p ≤ 512 then (List.range (512 / poolUnits p)).map fun i => 512 * k + i * poolUnits p
  else [512 * k / poolUnits p * poolUnits p]

/-- Free buffers of a pool in a quarantined block are taken out (R404). -/
def poolSweep (k : Nat) (s : State) (p : Fin 4) : State :=
  let bs := (blockBufs p k).filter fun b => bufOf s p b && (ownersOf s p b).isEmpty && !s.mem.pool[p].quar.contains b
  let s := s.modPool p fun x => { x with freed := x.freed.filter fun b => !bs.contains b, quar := bs ++ x.quar }
  if bs.isEmpty then s else poolFree p (s.get (POOL_FREE.FREE p) - bs.length) (s.incBy (POOL_FREE.QUAR p) bs.length)

/-- POOL_CONFIG_WRITE: a new base or count while no buffer is allocated; every buffer of the region is free again (R409). -/
def poolConfig (p : Fin 4) (count : Bool) (v : Word) (s : State) : State :=
  if !s.mem.pool[p].owners.isEmpty then s.put POOL_EVT.CFG_REJ 1
  else
    let s := if count then s.put (POOL_NUM.COUNT p) v.toNat else s.put (POOL_BASE.BASE p) v.toNat
    let s := s.modPool p fun _ => {}
    let s := (s.put (POOL_FREE.FREE p) (poolCount s p)).put (POOL_FREE.QUAR p) 0
    let s := s.mem.badBlocks.foldl (fun (s : State) k => poolSweep k s p) s
    s.put (POOL_MIN.MIN_FREE p) (s.get (POOL_FREE.FREE p))

/-- POOL_MIN_RESET (R427). -/
def poolMinReset (p : Fin 4) (s : State) : State := s.put (POOL_MIN.MIN_FREE p) (s.get (POOL_FREE.FREE p))

/-! ### Rows of DDR4 -/

/-- Row bits of the devices, which the capacity of a rank gives (R398, R401). -/
def rowBits (s : State) : Nat :=
  let g := s.get GLB_DDR_CFG.CAP / (1 + s.get GLB_DDR_CFG.RANKS)
  if g ≤ 4 then 15 else if g ≤ 8 then 16 else 17

/-- Rank, bank group, bank and row of an address (R401). -/
def rowOf (s : State) (a : Nat) : List Nat :=
  let r := rowBits s
  [if s.isSet GLB_DDR_CFG.RANKS then (a >>> (17 + r)) % 2 else 0, (a >>> 8) % 4, (a >>> 15) % 4, (a >>> 17) % 2 ^ r]

/-- A row as one number: the address with the column and byte left out. -/
def rowKey (a : Nat) : Nat := (a >>> 15) * 4 + (a >>> 8) % 4

/-- The repair list in Plinth: identifiers 0x0200 to 0x021F. -/
def repairIds : List Nat := (List.range 32).map (· + 0x0200)

/-- DDR_ROW_RETIRED: the row goes to the repair list, its block into quarantine (R404). -/
def rowRetire (a : Nat) (s : State) : State :=
  let v := leBytes 4 (rowKey a)
  let has := repairIds.any fun i => s.jrn.ents.any fun x => x.1 = i && x.2 = v
  let s := if has then s
    else match repairIds.find? fun i => !s.jrn.ents.any fun x => x.1 = i with
      | some i => (plinthCommit 0#2 (plPut s.jrn.ents i (some v)) s).1
      | none => s
  let k := a / 131072
  let s := if s.mem.badBlocks.contains k then s
    else
      let s : State := { s with mem := { s.mem with badBlocks := k :: s.mem.badBlocks } }
      (List.finRange 4).foldl (fun (s : State) (p : Fin 4) => poolSweep k s p) (s.inc GLB_DDR_STAT.RETIRED)
  s.logEvent .ddrRowRetired (rowOf s a)

def execPoolConfigWrite (p : Fin 4) (count : Bool) (v : Word) (s : State) : Outcome := ok (poolConfig p count v s)
def execPoolMinReset (p : Fin 4) (s : State) : Outcome := ok (poolMinReset p s)

end Sys2Proof.Machine
end

