-- ==== Sys2Proof/Machine/Forge.lean ====
section
/-! DEFINITION. The Forge instructions of the placement cores (R271-R273), access faults (R24), and the page cache (R251). -/
namespace Sys2Proof.Machine

/-- The value of a core's register. -/
def plcX (s : State) (c : Fin 4) (r : Fin 32) : Word := s.arm.plc[c].x[r]

/-- A Forge instruction retires: rd is written and the core goes on. -/
def forgeDone (c : Fin 4) (rd : Fin 32) (v : Word) (s : State) : State :=
  (plcSet c rd v s).modPlc c fun p => { p with pc := p.pc + 4 }

/-- An instruction that is illegal in U mode ends the policy call there (R258, R272). -/
def mOnly (c : Fin 4) (f : State → State) (s : State) : State := if s.arm.plc[c].user then callFault c pfIllegal s else f s

/-- The Forge instruction a word spells (R271): none where it is another instruction, `some none` where it is an illegal one. -/
def forgeDecode (c : Fin 4) (w : Word) : Option (Option Instr) :=
  let f3 := bits w 12 3
  let rd : Fin 32 := Fin.ofNat 32 (bits w 7 5)
  let rs1 : Fin 32 := Fin.ofNat 32 (bits w 15 5)
  let rs2 : Fin 32 := Fin.ofNat 32 (bits w 20 5)
  let legal (x : Option Instr) : Option Instr := if bits w 25 7 = 0 then x else none
  if bits w 0 7 = 0x0B then some (legal (match f3 with
    | 0 => some (.bpalloc c rd rs1 rs2) | 1 => some (.bpfree c rd rs1 rs2) | 2 => some (.bpshare c rd rs1 rs2)
    | 3 => some (.gfmac8 c rd rs1 rs2) | _ => none))
  else if bits w 0 7 = 0x2B then some (legal (match f3 with
    | 0 => some (.plquery c rd rs1 rs2 false) | 1 => some (.plcommit c rd rs1 rs2) | 2 => some (.qput c rd rs1 rs2)
    | 3 => some (.qget c rd rs1 rs2) | _ => none))
  else none

/-- A core meets the word of an illegal Forge instruction: it ends a policy call (R258, R271). -/
def forgeIllegal (c : Fin 4) (s : State) : State := callFault c pfIllegal s

/-- The owner an instruction names. -/
def ownerByte (v : Word) : Byte := v.setWidth 8

def forgeAlloc (c : Fin 4) (rd rs1 rs2 : Fin 32) (s : State) : State :=
  let (t, r) := bpallocOp (plcX s c rs1).toNat (ownerByte (plcX s c rs2)) s
  forgeDone c rd (BitVec.ofNat 32 r) t

def forgeFree (c : Fin 4) (rd rs1 rs2 : Fin 32) (s : State) : State :=
  let (t, r) := bpfreeOp (plcX s c rs1).toNat (ownerByte (plcX s c rs2)) s
  forgeDone c rd (BitVec.ofNat 32 r) t

def forgeShare (c : Fin 4) (rd rs1 rs2 : Fin 32) (s : State) : State :=
  let (t, r) := bpshareOp (plcX s c rs1).toNat (ownerByte (plcX s c rs2)) s
  forgeDone c rd (BitVec.ofNat 32 r) t

/-- GFMAC8 on four byte lanes (R272). -/
def gfmacWord (d a b : Word) : Word :=
  d ^^^ (gfMul 0x1D#8 (byteOf a 3) (byteOf b 3) ++ gfMul 0x1D#8 (byteOf a 2) (byteOf b 2)
    ++ gfMul 0x1D#8 (byteOf a 1) (byteOf b 1) ++ gfMul 0x1D#8 (byteOf a 0) (byteOf b 0))

/-! ### Access faults -/

/-- CORE_ACCESS_FAULT: the first one per core and boot is logged (R24); on a placement core in a policy call it ends the call
(R18, R258). -/
def accessFault (core : Fin 16) (addr : Word) (_write : Bool) (s : State) : State :=
  let s := if s.pw.accFault.getLsbD core.val then s
    else
      let s : State := { s with pw := { s.pw with accFault := s.pw.accFault ||| BitVec.twoPow 16 core.val } }
      s.logEvent .accessFault [core.val, addr.toNat]
  if core.val < 4 ∧ s.arm.plc[core.val % 4].user then callFault (Fin.ofNat 4 core.val) pfAccess s else s

/-- The PMP of a core lets U mode reach `n` bytes at `a` (R18). -/
def pmpOk (s : State) (c : Fin 4) (a n : Nat) (write : Bool) : Bool :=
  s.arm.plc[c].pmp.any fun x => decide (x.1 ≤ a) && decide (a + n ≤ x.1 + x.2.1) && (x.2.2 || !write)

/-- 16 bytes at `a` lie in the core's local memory (Core address map). -/
def localOk (c : Fin 4) (a : Nat) : Bool :=
  decide (0x10000000 + c.val * 0x100000 ≤ a) && decide (a + 16 ≤ 0x10000000 + c.val * 0x100000 + 0x80000)

/-! ### Map queries -/

/-- Look a page up: pinned pages and cached ones hit, another is fetched from DDR4, least recently used out first (R251). A
fetched page whose CRC fails is loaded again, with an event (R244). -/
def pageTouch (p : Nat) (crcBad : Bool) (s : State) : State :=
  if p < 71 ∨ s.arm.cache.contains p then
    (s.modArm fun a => { a with cache := if p < 71 then a.cache else p :: a.cache.erase p }).incWrap GLB_MAP_HIT.COUNT
  else
    let s := (s.modArm fun a => { a with cache := (p :: a.cache).take 185 }).incWrap GLB_MAP_MISS.COUNT
    if crcBad then (s.incWrap GLB_MAP_LOAD.COUNT).logEvent .mapPageReload [p] else s

/-- A page is in DDR4. -/
def resident (s : State) (p : Nat) : Bool := decide (p < 71) || s.arm.gens.contains p

/-- The answer to a query that found its page: `f` of the state gives it. A page that is not in DDR4 gives 0xFFFF_FFFF, and
M-mode firmware loads it for the next query (R251, R273). -/
def pageAnswer (p : Nat) (user crcBad : Bool) (v : Nat) (s : State) : State × Nat :=
  if resident s p then (pageTouch p crcBad s, v)
  else if user then (s, 0xFFFFFFFF)
  else ((s.modArm fun a => { a with gens := a.gens ++ [p] }).incWrap GLB_MAP_LOAD.COUNT, 0xFFFFFFFF)

/-- PLQUERY (R273). -/
def plqueryOp (user crcBad : Bool) (q arg : Word) (s : State) : State × Nat :=
  let code := q.toNat % 256
  let qual := q.toNat / 256 % 256
  let n := arg.toNat
  let m := s.arm.map
  if 1 ≤ code ∧ code ≤ 3 then
    if qual ≠ 0 ∨ 4096 ≤ n ∨ (m.disc n).get Dsc.STATE = 0 then (s, 0xFFFFFFFF)
    else
      let r := m.disc n
      let loc := match (s.discInt n).loc with
        | .engine e => e.val
        | .magazine | .unknown => 0xFF
      let v := if code = 1 then r.get Dsc.STATE + r.get Dsc.HOME * 2 ^ 8 + r.get Dsc.MAG * 2 ^ 16 + loc * 2 ^ 24
        else if code = 2 then r.get Dsc.PATINA else r.get Dsc.FREE
      pageAnswer (discKey n / 256) user crcBad v s
  else if code = 4 then
    match m.run? n with
    | none => (s, 0xFFFFFFFF)
    | some x =>
      if runWidth x.2 ≤ qual ∨ !memberUsed x.2 qual then (s, 0xFFFFFFFF)
      else pageAnswer (x.1 / 256) user crcBad (x.2.get (Run.DISC qual) + x.2.get (Run.LAYER qual) * 2 ^ 12) s
  else if code = 5 then
    let es := m.exts qual false ++ m.exts qual true
    match es.find? fun x => decide (x.2.get Ext.VS ≤ n) && decide (n < x.2.get Ext.VS + x.2.get Ext.COUNT) with
    | none => (s, 0xFFFFFFFF)
    | some x => pageAnswer (x.1 / 256) user crcBad (x.2.get Ext.RUN) s
  else if code = 6 then
    if qual ≠ 0 ∨ 8 ≤ n then (s, 0xFFFFFFFF)
    else pageAnswer 5 user crcBad (countIf (fun d => (homeOf s d).val == n) (registered s)) s
  else (s, 0xFFFFFFFF)

def forgeQuery (c : Fin 4) (rd rs1 rs2 : Fin 32) (crcBad : Bool) (s : State) : State :=
  let (t, r) := plqueryOp s.arm.plc[c].user crcBad (plcX s c rs1) (plcX s c rs2) s
  forgeDone c rd (BitVec.ofNat 32 r) t

/-! ### Map commits -/

/-- The edits in a list of bytes (R318); none where an edit is not well formed. `fuel` bounds their number. -/
def parseEdits (m : MapImg) : Nat → List Byte → Option (List Edit)
  | _, [] => some []
  | 0, _ => none
  | n + 1, bs =>
    let page := leNum (bs.take 4)
    let off := leNum ((bs.drop 4).take 2)
    let len := leNum ((bs.drop 6).take 2)
    if bs.length < 8 + (len + 3) / 4 * 4 ∨ off < 16 ∨ 4096 < off + len then none
    else
      let e : Edit := { page := page, typ := (m.page page).typ, off := off, len := len, val := leNum ((bs.drop 8).take len) }
      (parseEdits m n (bs.drop (8 + (len + 3) / 4 * 4))).map (e :: ·)

/-- Bytes of the shared SRAM. -/
def sramRead (s : State) (a n : Nat) : List Byte := (List.range n).map fun i => Cells.get (fun _ => 0#8) s.mem.spram (a + i)

/-- The range lies in the shared SRAM (Core address map). -/
def sramOk (a n : Nat) : Bool := decide (0x21000000 ≤ a) && decide (a + n ≤ 0x21200000)

/-- PLCOMMIT: the journal sequence number, or 0 (R272, R319). -/
def forgeCommit (c : Fin 4) (rd rs1 rs2 : Fin 32) (s : State) : State :=
  let a := (plcX s c rs1).toNat
  let n := (plcX s c rs2).toNat
  if !sramOk a n then accessFault (Fin.ofNat 16 c.val) (plcX s c rs1) false s
  else match parseEdits s.arm.map n (sramRead s a n) with
    | none => forgeDone c rd 0#32 s
    | some es =>
      let (t, q) := plCommit 0 es s
      forgeDone c rd (BitVec.ofNat 32 q) t

/-! ### Message queues -/

/-- A core may reach the 16 bytes of a QPUT or QGET: its local memory, in U mode what the PMP grants (R18, R272). -/
def msgOk (s : State) (c : Fin 4) (a : Nat) (write : Bool) : Bool :=
  localOk c a && (!s.arm.plc[c].user || pmpOk s c a 16 write)

/-- In U mode only queues 62 and 63 may be named (R272). -/
def queueOk (s : State) (c : Fin 4) (q : Nat) : Bool := !s.arm.plc[c].user || q == 62 || q == 63

def forgePut (c : Fin 4) (rd rs1 rs2 : Fin 32) (s : State) : State :=
  let q := (plcX s c rs1).toNat
  let a := (plcX s c rs2).toNat / 16 * 16
  if !queueOk s c q then callFault c pfIllegal s
  else if !msgOk s c a false then accessFault (Fin.ofNat 16 c.val) (plcX s c rs2) false s
  else if 64 ≤ q || Config.mqFull q (s.mqGet q).length then forgeDone c rd 1#32 s
  else forgeDone c rd 0#32 (s.mqPut q (BitVec.ofNat 128 (leNum (plcRead s c a 16))))

def forgeGet (c : Fin 4) (rd rs1 rs2 : Fin 32) (s : State) : State :=
  let q := (plcX s c rs1).toNat
  let a := (plcX s c rs2).toNat / 16 * 16
  if !queueOk s c q then callFault c pfIllegal s
  else if !msgOk s c a true then accessFault (Fin.ofNat 16 c.val) (plcX s c rs2) true s
  else match s.mqGet q with
    | [] => forgeDone c rd 1#32 s
    | m :: rest =>
      let s : State := { s with mq := Cells.set Cells.natLt (fun _ => []) s.mq q rest }
      forgeDone c rd 0#32 (plcWrite c a (leBytes 16 m.toNat) s)

def execGfmac8 (c : Fin 4) (rd rs1 rs2 : Fin 32) (s : State) : Outcome :=
  ok (forgeDone c rd (gfmacWord (plcX s c rd) (plcX s c rs1) (plcX s c rs2)) s)
def execPlquery (c : Fin 4) (rd rs1 rs2 : Fin 32) (crcBad : Bool) (s : State) : Outcome := ok (forgeQuery c rd rs1 rs2 crcBad s)

end Sys2Proof.Machine
end

