-- ==== Sys2Proof/Machine/Rows.lean ====
section
/-! DEFINITION. Rows and stripes in use, encoding a row, and mapping a stripe into a volume (R246, R277, R287, R297). -/
namespace Sys2Proof.Machine

/-- Geometry of a volume: the one a reshape is leaving, or the present one (R306). -/
def volGeo (s : State) (v : Nat) (old : Bool) : Nat × Nat :=
  match s.arm.reshapes.find? fun r => r.vol = v with
  | some r => if old then (r.k, r.m) else (volK s v, volM s v)
  | none => (volK s v, volM s v)

/-- Stripes of a run that extents or placed images use, from stripe 0 on. -/
def runUsed (s : State) (run : Nat) : Nat :=
  let es := ((s.arm.map.all pgExt).filter fun x => x.2.get Ext.RUN = run && x.2.get Ext.COUNT != 0).map fun x => x.2.get Ext.OFS + x.2.get Ext.COUNT
  let im := s.arm.groups.flatMap fun g => g.images.filterMap fun i => match i.placed with
    | some (r, n, _) => if r = run then some (n + 1) else none
    | none => none
  (es ++ im).foldl max 0

/-- Initialised stripes of an RW run (R289). -/
def initOf (s : State) (run : Nat) : Nat := ((s.arm.initB.find? fun x => x.1 = run).map Prod.snd).getD ((s.arm.map.run run).get Run.STRIPES)

/-- The volume is write-once. -/
def isWo (s : State) (v : Nat) : Bool := (s.arm.map.vol v).get Vol.CLASS == 0

/-- Stripes of a run that have been written. -/
def runWritten (s : State) (run : Nat) : Nat :=
  if isWo s ((s.arm.map.run run).get Run.VOL) then runUsed s run else initOf s run

/-- A run takes new stripes: it is filling, or was when its rebuild began (R302). -/
def runOpen (s : State) (old : Bool) (r : MRec) : Bool :=
  if old then r.get Run.STATE == 4
  else r.get Run.STATE == 1 || (r.get Run.STATE == 3 && s.arm.rebuilds.any fun x => x.run = r.get Run.RUN && x.oldRun = 1)

/-- The filling runs of a volume, in ascending identifier. -/
def openRuns (s : State) (v : Nat) (old : Bool) : List MRec :=
  let g := volGeo s v old
  sortBy (fun a b => decide (a.get Run.RUN < b.get Run.RUN))
    (((s.arm.map.all pgRun).map Prod.snd).filter fun r => r.get Run.STATE != 0 && r.get Run.VOL = v && runOpen s old r && r.get Run.K = g.1 && r.get Run.M = g.2)

/-- The next free stripe of the volume's filling run (R287). -/
def nextStripe (s : State) (v : Nat) (old : Bool) : Option (Nat × Nat) :=
  ((openRuns s v old).find? fun r => decide (runUsed s (r.get Run.RUN) < r.get Run.STRIPES)).map fun r => (r.get Run.RUN, runUsed s (r.get Run.RUN))

/-- The next initialised stripe of an RW volume (R289). -/
def nextInit (s : State) (v : Nat) (old : Bool) : Option (Nat × Nat) :=
  ((openRuns s v old).find? fun r => decide (runUsed s (r.get Run.RUN) < initOf s (r.get Run.RUN))).map fun r => (r.get Run.RUN, runUsed s (r.get Run.RUN))

/-- Stripes one layer of a disc holds at most. -/
def discStripes (s : State) (d : Nat) : Nat :=
  ((List.range ((s.arm.map.disc d).get Dsc.LAYERS)).map fun l => max (stretch s s.arm.map d l) (((freedOf s.arm.map d l).map fun x => x.2.1).foldl max 0) / 16).foldl max 0

/-- Stripes requested for a new run: RUN_STRIPES, or fewer if the discs hold fewer (R287). -/
def runRequest (s : State) (v : Nat) (width : Nat) : Nat :=
  let ds := (registered s).filter fun d => discFits s (s.arm.map.disc d) d ((s.arm.map.vol v).get Vol.CLASS) 0
  let ns := sortBy (fun a b => decide (b < a)) (ds.map (discStripes s))
  let n := ns[width - 1]?.getD 0
  if n = 0 then runStripes s else min (runStripes s) n

/-- A choice of a write group for a volume is asked for and not answered. -/
def groupAsked (s : State) (v : Nat) : Bool :=
  let of (a : Ask) : Bool := match a with
    | .group w _ => w == v
    | .source _ | .load .. | .speed .. => false
  s.arm.plc.toList.any fun p => p.queue.any of || p.call.any fun x => of x.1

/-- Ask for a new run of a volume, once at a time. For the geometry a reshape is leaving, the default rules choose (R307). -/
def askRun (v : Nat) (old : Bool) (s : State) : State :=
  let g := volGeo s v old
  let n := runRequest s v (g.1 + g.2)
  if groupAsked s v then s
  else
    let s := s.modArm fun x => { x with noGroup := x.noGroup.erase v }
    if old then
      match defaultGroup s ((s.arm.map.vol v).get Vol.CLASS) n g.1 g.2 with
      | none => (s.modArm fun x => { x with noGroup := (v :: x.noGroup).eraseDups }).logEvent .noMedia [v]
      | some (ds, relaxed) =>
        let id := (txStart s).1.newRun
        let s := makeRun v n g.1 g.2 ds relaxed s
        mapCommit ((txStart s).modRun id fun r => r.put Run.STATE 4) [] s
    else ask (.group v n) s

/-! ### Rows -/

/-- The data clusters of a row as parity is encoded from them: read, reconstructed, or zero where lost; none where one is
neither (R297). -/
def parityData (s : State) (m : MediaEvents) (run stripe row : Nat) : Option (List Cluster) :=
  (List.range ((s.arm.map.run run).get Run.K)).mapM fun j =>
    if readable s m run stripe row j then some (mediaAt s run stripe row j)
    else if onLoss s run stripe row j then some zeroCl
    else (reconstruct s m run stripe row j none).val

/-- A member can be written: neither erased nor out of placement. -/
def writable (s : State) (run stripe j : Nat) : Bool := !memberErased s run stripe j && !memberOut s run stripe j

/-- A row is marked inconsistent: no reconstruction uses it until its parity is encoded again (R297). -/
def markRow (run stripe row : Nat) (s : State) : State :=
  let s := if s.arm.incons.contains (run, stripe, row) then s else s.modArm fun a => { a with incons := a.incons ++ [(run, stripe, row)] }
  addTodo (.parity run stripe row) s

/-- The parity members of a row are written from its data, in ascending order, `again` where they have been written before; one out of
placement is an erasure until it is encoded again on its return (R291, R294, R297). -/
def writeParity (again : Bool) (m : MediaEvents) (run stripe row : Nat) (ds : List Cluster) (z : State × Tx) : State × Tx :=
  let r := z.1.arm.map.run run
  let k := r.get Run.K
  (List.range (r.get Run.M)).foldl (fun (z : State × Tx) p =>
    if writable z.1 run stripe (k + p) then
      (if again then rewriteMember m run stripe row (k + p) (encode p ds) z else writeMember m run stripe row (k + p) (encode p ds) z)
    else if memberErased z.1 run stripe (k + p) then z
    else (addTodo (.repair run stripe row (k + p)) z.1, z.2)) z

/-- The row's parity is encoded again from its data, or the row is marked where it cannot be (R297). -/
def encodeRow (again : Bool) (m : MediaEvents) (run stripe row : Nat) (z : State × Tx) : State × Tx :=
  match parityData z.1 m run stripe row with
  | some ds =>
    let s := z.1.modArm fun a => { a with incons := a.incons.erase (run, stripe, row), todo := a.todo.erase (.parity run stripe row) }
    writeParity again m run stripe row ds (s, z.2)
  | none => (markRow run stripe row z.1, z.2)

/-- One row of a full stripe: data strips, then parity (R277, R287). A member out of placement is an erasure until it is repaired on its
return. -/
def writeRow (m : MediaEvents) (run stripe row : Nat) (ds : List Cluster) (z : State × Tx) : State × Tx :=
  let z := (List.range ds.length).foldl (fun (z : State × Tx) j =>
    if writable z.1 run stripe j then writeMember m run stripe row j (ds[j]?.getD zeroCl) z
    else if memberErased z.1 run stripe j then z
    else (addTodo (.repair run stripe row j) z.1, z.2)) z
  writeParity false m run stripe row ds z

/-- The data clusters of row `c` of a stripe of `k` members, out of its 256 k blocks. -/
def rowOfStripe (k c : Nat) (bs : List Block) : List Cluster :=
  (List.range k).map fun j => Vector.ofFn fun b : Fin 16 => bs[256 * j + 16 * c + b.val]?.getD 0#32768

/-- STRIPE_IMAGE_WRITE: a full stripe is encoded, written and verified (R287). -/
def writeStripe (m : MediaEvents) (run stripe : Nat) (bs : List Block) (z : State × Tx) : State × Tx :=
  let k := (z.1.arm.map.run run).get Run.K
  (List.range 16).foldl (fun (z : State × Tx) c => writeRow m run stripe c (rowOfStripe k c bs) z) z

/-! ### Extents -/

/-- Take one volume stripe out of an extent, which may leave two. -/
def cutExt (vs : Nat) (x : Nat × MRec) (t : Tx) : Tx :=
  let a := x.2.get Ext.VS
  let n := x.2.get Ext.COUNT
  let left := x.2.put Ext.COUNT (vs - a)
  let right := ((x.2.put Ext.VS (vs + 1)).put Ext.COUNT (a + n - vs - 1)).put Ext.OFS (x.2.get Ext.OFS + (vs + 1 - a))
  let t := if vs = a then t.del pgExt x.1 else t.set pgExt x.1 left
  if vs + 1 = a + n then t else t.add pgExt right

/-- Map a volume stripe to a stripe of a run: what it supersedes is cut out, and an extent that ends there grows (R246, R288). -/
def mapStripe (v vs run stripe : Nat) (old : Bool) (t : Tx) : Tx :=
  let t := ((t.1.exts v old).filter fun x => decide (x.2.get Ext.VS ≤ vs) && decide (vs < x.2.get Ext.VS + x.2.get Ext.COUNT)).foldl
    (fun (t : Tx) x => cutExt vs x t) t
  let grow := (t.1.exts v old).find? fun x =>
    x.2.get Ext.RUN = run && x.2.get Ext.VS + x.2.get Ext.COUNT = vs && x.2.get Ext.OFS + x.2.get Ext.COUNT = stripe
  let t := match grow with
    | some x => t.set pgExt x.1 (x.2.put Ext.COUNT (x.2.get Ext.COUNT + 1))
    | none => t.add pgExt ((((MRec.put 0#512 Ext.VS vs).put Ext.COUNT 1).put Ext.RUN run).put Ext.OFS stripe)
  let t := t.extRoot v
  t.modRun run fun r => if stripe + 1 = r.get Run.STRIPES && r.get Run.STATE = 1 then r.put Run.STATE 2 else r

/-- A run under rebuild that fills its last stripe returns to complete, not to filling. -/
def fillNote (run stripe : Nat) (s : State) : State :=
  if stripe + 1 = (s.arm.map.run run).get Run.STRIPES then
    s.modArm fun a => { a with rebuilds := a.rebuilds.map fun (r : Rebuild) => if r.run = run ∧ r.oldRun = 1 then { r with oldRun := 2 } else r }
  else s

/-- Where the clusters taken at NEXT<l> have moved a disc's record: NEXT and FREE of the discs a change touched. -/
def discMoves (t : Tx) (s : State) : Tx :=
  let ks := ((t.2.filter fun e => e.typ = pgDisc).flatMap editKeys).eraseDups
  ks.foldl (fun (u : Tx) key =>
    let r := t.1.slot key
    let o := (List.range 4).foldl (fun (o : MRec) l => o.put (Dsc.NEXT l) (r.get (Dsc.NEXT l))) ((u.1.slot key).put Dsc.FREE (r.get Dsc.FREE))
    u.set pgDisc key o) (txStart s)

/-- Defect records that a change adds or alters. -/
def newDefects (t : Tx) (s : State) : List MRec := ((t.1.all pgDef).filter fun x => s.arm.map.slot x.1 != x.2).map Prod.snd

/-- Put a defect record that joined a group. -/
def defPut (r : MRec) (t : Tx) : Tx :=
  match (t.1.all pgDef).find? fun x => x.2.get Def.DISC = r.get Def.DISC && x.2.get Def.LAYER = r.get Def.LAYER && x.2.get Def.OLD = r.get Def.OLD with
  | some x => t.set pgDef x.1 r
  | none => (t.add pgDef r).defHead (r.get Def.DISC)

end Sys2Proof.Machine
end

