-- ==== Sys2Proof/Machine/Rebuild.lean ====
section
/-! DEFINITION. Failed discs, rebuild, migration, repair, scrub, and rung-7 hand-offs (R295-R305, R309, R311). -/
namespace Sys2Proof.Machine

/-- Change a rebuild. -/
def modRebuild (run j : Nat) (f : Rebuild → Rebuild) (s : State) : State :=
  s.modArm fun a => { a with rebuilds := a.rebuilds.map fun r => if r.run = run ∧ r.j = j then f r else r }

/-- A disc's STATE changes. -/
def setDiscState (d st : Nat) (owner : List (Fin 65 × Nat)) (s : State) : State :=
  let t := txStart s
  mapCommit (t.setDisc d ((t.1.disc d).put Dsc.STATE st)) owner s

/-- Members waiting for a rebuild: of failed and unfocusable discs with AUTO_REBUILD or where DISC_FAIL asked for it, of migrating discs always; in
ascending run. A run that is being reshaped away or rebuilt already is left (R300, R308, R309). -/
def rebuildWants (s : State) : List (Nat × Nat × Bool) :=
  let runs := sortBy (fun a b => decide (a.get Run.RUN < b.get Run.RUN)) ((s.arm.map.all pgRun).map Prod.snd)
  (runs.filter fun r => r.get Run.STATE == 1 || r.get Run.STATE == 2).flatMap fun r =>
    ((runMembers r).filterMap fun j =>
      let st := discState s (r.get (Run.DISC j))
      if memberUsed r j && (((autoRebuild s || s.arm.forced.contains (r.get (Run.DISC j))) && (st == 2 || st == 4)) || st == 5) then some (r.get Run.RUN, j, st == 5) else none).take 1

/-- A rebuild enters WAIT_TARGET: run STATE 3 (R302). -/
def rebuildStart (run j : Nat) (migrate : Bool) (s : State) : State :=
  let old := (s.arm.map.run run).get Run.STATE
  let s := mapCommit ((txStart s).modRun run fun r => r.put Run.STATE 3) [] s
  s.modArm fun a => { a with rebuilds := a.rebuilds ++
    [{ run := run, j := j, st := 0, target := 0, layer := 0, first := 0, b := 0, migrate := migrate, oldRun := old, chosen := false, last := 0, ckpt := 0 }] }

/-- Rebuilds start while REBUILD_MAX allows (R300). -/
def startRebuilds (s : State) : State :=
  let room := rebuildMax s - (s.arm.rebuilds.length + s.arm.reshapes.length)
  ((rebuildWants s).take room).foldl (fun (s : State) x => rebuildStart x.1 x.2.1 x.2.2 s) s

/-- CHECKPOINT with the boundary a rebuild has reached (R302). -/
def rebuildCkpt (r : Rebuild) (s : State) : State := sealAsk (.checkpoint r.run 0 r.b) true [] s

/-- A second member fails during a rebuild: B is checkpointed at once, and with m = 1 the rows above B lose their erased data
(R305). -/
def secondFailure (d : Nat) (r : Rebuild) (s : State) : State :=
  let rr := s.arm.map.run r.run
  let is := (runMembers rr).filter fun i => i != r.j && memberUsed rr i && rr.get (Run.DISC i) == d
  if is.isEmpty || r.migrate then s
  else
    let s := (rebuildCkpt r s).logEvent .secondFailure [r.run, is.headD 0, r.b]
    if rr.get Run.M = 1 then
      let lost := ((r.j :: is).filter fun j => decide (j < rr.get Run.K))
      let stop := rr.get Run.STRIPES
      if lost.isEmpty || stop ≤ r.b then s
      else addLoss r.run r.b (stop - 1) (setMask lost) 0xFFFF#16 0xFFFF#16 2 s
    else s

/-- DISC_FAILED: the disc enters STATE 2 and its runs are queued for rebuild; commands that wait complete with the commit
(R300, R387). `cause`: 1 rung-7 hand-offs, 2 the host, 3 the engine's grace. -/
def discFailOp (d cause : Nat) (owner : List (Fin 65 × Nat)) (s : State) : State :=
  let st := discState s d
  if st = 0 ∨ st = 2 ∨ (st = 3 ∧ owner = []) then s
  else
    let s := s.arm.rebuilds.foldl (fun (s : State) r => secondFailure d r s) s
    startRebuilds ((setDiscState d 2 owner s).logEvent .discFailed [d, cause])

/-- The Patina as held goes to the disc record, at most once per 60 s; PATINA_MIGRATE starts a migration (R253, R254). -/
def patinaKeep (d : Nat) (s : State) : State :=
  let x := s.discInt d
  let r := s.arm.map.disc d
  if r.get Dsc.STATE = 0 ∨ (x.wroteAt.any fun t => decide (s.us < t + 60000000)) then s
  else
    let p := patinaOf x
    let t := txStart s
    let o := t.1.disc d
    let o := ((((o.put Dsc.PATINA p).put (Dsc.PAT 0) x.mL).put (Dsc.PAT 1) x.mB).put (Dsc.PAT 2) x.q).put (Dsc.PAT 3) x.prev
    let go := decide (patinaMigrate s ≤ p) && r.get Dsc.STATE == 1
    let s := mapCommit (t.setDisc d (if go then o.put Dsc.STATE 5 else o)) [] (s.modDisc d fun x => { x with wroteAt := some s.us })
    if go then startRebuilds (s.logEvent .discMigrating [d, p]) else s

/-- A cluster of a disc was decoded with OK = 1 (R253). -/
def patinaRead (d ldc bis : Nat) (s : State) : State := patinaKeep d (s.modDisc d (patDecoded ldc bis))
/-- A cluster of a disc left the ladder; `hard` says at rung 2 or later (R253). -/
def patinaLeft (d : Nat) (hard : Bool) (s : State) : State := patinaKeep d (s.modDisc d (patLeft hard))

/-- A cluster was handed on at rung 7: it counts in the disc's window, and FAIL_CLUSTERS of them fail the disc (R253, R300,
R495). -/
def handOff (d : Nat) (s : State) : State :=
  let n := Cells.get (fun _ => 0) s.arm.map.windows d + 1
  let s := s.modArm fun a => { a with map := { a.map with windows := Cells.set Cells.natLt (fun _ => 0) a.map.windows d n } }
  let s := patinaLeft d true s
  if failClusters s ≤ n then discFailOp d 1 [] s else s

/-- The hand-offs of a command's media work. -/
def mediaTake (m : MediaEvents) (s : State) : State := m.bad.foldl (fun (s : State) x => handOff x.1 s) s

/-! ### Rebuild -/

/-- A group of the other members and a target is valid, but for the magazine rule (R301). -/
def targetFits (s : State) (r : Rebuild) (d : Nat) : Bool :=
  let rr := s.arm.map.run r.run
  let others := ((runMembers rr).filter fun i => i != r.j).map fun i => rr.get (Run.DISC i)
  let ds := others ++ [d]
  let n := ds.length
  let a := onBusA s ds
  !others.contains d && d != rr.get (Run.DISC r.j) && !(others.map (homeOf s)).contains (homeOf s d)
    && discFits s (s.arm.map.disc d) d ((s.arm.map.vol (rr.get Run.VOL)).get Vol.CLASS) (rr.get Run.STRIPES)
    && decide (a ≤ (n - a) + 1) && decide (n - a ≤ a + 1)

/-- REBUILD_TARGET_CHOOSE: the first disc in the order of R262 that qualifies; its clusters are reserved and the CHECKPOINT
with B = 0 is asked for (R301, R302). -/
def targetChoose (run j : Nat) (s : State) : State :=
  match s.rebuild? run j with
  | none => s
  | some r =>
    if r.chosen then s
    else
      let rr := s.arm.map.run run
      let others := ((runMembers rr).filter fun i => i != j).map fun i => rr.get (Run.DISC i)
      let fit := (sortBy (discBefore s) (registered s)).filter (targetFits s r)
      let mag := fit.find? fun d => magRule s (others ++ [d]) (rr.get Run.M)
      match mag.orElse fun _ => fit.head? with
      | none => s.logEvent .rebuildWaitTarget [run, j]
      | some d =>
        match reserve s d (rr.get Run.STRIPES) (txStart s) with
        | none => s.logEvent .rebuildWaitTarget [run, j]
        | some (l, f, t) =>
          let relaxed := mag.isNone
          let t := if relaxed then t.modRun run fun r => r.put Run.RELAXED 1 else t
          let s := mapCommit t [] s
          let last := if r.oldRun = 1 then runWritten s run else rr.get Run.STRIPES
          let s := modRebuild run j (fun r => { r with target := d, layer := l, first := f, chosen := true, last := last }) s
          let s := if relaxed then s.logEvent .fdRelaxed [run] else s
          sealAsk (.checkpoint run 0 0) true [] s

/-- Members of a run that can be read now, but for one. -/
def sourcesNow (s : State) (run stripe j : Nat) : Nat :=
  ((runMembers (s.arm.map.run run)).filter fun i => i != j && writable s run stripe i).length

/-- The stripes of the batch that begins at B. -/
def batchOf (r : Rebuild) : List Nat := (List.range 16).filterMap fun i => if r.b + i < r.last then some (r.b + i) else none

/-- A row of the member under rebuild or migration goes to the target: read from the disc itself in a migration, else
reconstructed; zeros where lost (R302, R304, R309). -/
def rebuildRow (m : MediaEvents) (r : Rebuild) (stripe row : Nat) (z : State × Tx) : State × Tx :=
  let s := z.1
  let got := if r.migrate && readable s m r.run stripe row r.j then .direct (mediaAt s r.run stripe row r.j)
    else if onLoss s r.run stripe row r.j then .direct zeroCl
    else reconstruct s m r.run stripe row r.j none
  let a : ClAddr := { cluster := BitVec.ofNat 28 (r.first + 16 * stripe + row), layer := BitVec.ofNat 3 r.layer }
  let put (c : Cluster) (z : State × Tx) : State × Tx := writeCl m r.target c (writeFuel m) (z.1.arm.map.redirect r.target a) z
  match got with
  | .direct c => put c z
  | .rebuilt c => put c z
  | .lost => put zeroCl (loseRow m r.run stripe row 3 s, z.2)
  | .out => match parityData s m r.run stripe row with
    | some ds => put (if r.j < (s.arm.map.run r.run).get Run.K then ds[r.j]?.getD zeroCl else encode (r.j - (s.arm.map.run r.run).get Run.K) ds) z
    | none => put zeroCl (loseRow m r.run stripe row 3 s, z.2)

/-- REBUILD_FINISH: one commit moves the member, returns the run's STATE and releases the old clusters (R302). When a
migrating disc's last member has moved, it is retired (R309). -/
def rebuildFinish (r : Rebuild) (s : State) : State :=
  let rr := s.arm.map.run r.run
  let od := rr.get (Run.DISC r.j)
  let t := (txStart s).modRun r.run fun x => (x.put (Run.MEMBER r.j) (memberVal r.target r.layer r.first)).put Run.STATE r.oldRun
  let t := release od (rr.get (Run.LAYER r.j)) (rr.get (Run.FIRST r.j)) (rr.get Run.STRIPES) t
  let left := (t.1.all pgRun).any fun x => x.2.get Run.STATE != 0 && (runMembers x.2).any fun i => memberUsed x.2 i && x.2.get (Run.DISC i) == od
  let t := if !left && discState s od = 5 then t.setDisc od ((t.1.disc od).put Dsc.STATE 3) else t
  let s := mapCommit t [] (s.modArm fun a => { a with rebuilds := a.rebuilds.filter fun x => !(x.run = r.run && x.j = r.j) })
  let n := s.jrn.next - 1
  let hr : HdrRec := { typ := hrMember, vol := rr.get Run.VOL, seq := n, group := 0
                       body := BitVec.ofNat 896 (r.run + r.j * 2 ^ 32 + memberVal r.target r.layer r.first * 2 ^ 48) }
  let ds := (runDiscs (s.arm.map.run r.run)).filter fun d => !hdrFull (s.arm.map.disc d)
  let s := s.modJrn fun j => { j with hdrDue := j.hdrDue ++ ds.map fun d => (n, d, [hr]) }
  startRebuilds (s.logEvent .rebuildDone [r.run, r.j])

/-- REBUILD_BATCH_DONE: the rows are locked, read from k sources, written to the target and verified, and B advances; with
fewer than k sources the rebuild stalls (R302-R304). A batch waits while a destage holds a row of it. -/
def rebuildBatch (run j : Nat) (m : MediaEvents) (s : State) : State :=
  match s.rebuild? run j with
  | none => s
  | some r =>
    let rr := s.arm.map.run run
    if r.st = 0 then s
    else if (batchOf r).any fun i => s.arm.locks.any fun l => l.1 = run && l.2.1 = i then s
    else if !(r.migrate && writable s run r.b j) && decide (sourcesNow s run r.b j < rr.get Run.K)
        && (runMembers rr).any (fun i => i != j && memberOut s run r.b i && !memberErased s run r.b i) then
      modRebuild run j (fun r => { r with st := 2 }) s
    else
      let s := mediaTake m (modRebuild run j (fun r => { r with st := 1 }) s)
      match s.rebuild? run j with
      | none => s
      | some r =>
        let z := (batchOf r).foldl (fun (z : State × Tx) i =>
          (List.range 16).foldl (fun (z : State × Tx) row => rebuildRow m r i row z) z) (s, txStart s)
        let s := mapCommit z.2 [] z.1
        let b := r.b + (batchOf r).length
        let s := modRebuild run j (fun r => { r with b := b }) s
        let s := if b / 256 != r.b / 256 then rebuildCkpt { r with b := b } s else s
        if r.last ≤ b then rebuildFinish { r with b := b } s else s

/-! ### Repair and scrub -/

/-- Write a reconstructed cluster again (R296). -/
def repairOne (m : MediaEvents) (run stripe row j : Nat) (s : State) : State :=
  let done (s : State) : State := s.modArm fun a => { a with todo := a.todo.erase (.repair run stripe row j) }
  if memberErased s run stripe j || (s.arm.map.run? run).isNone || (s.rebuild? run j).any (fun r => !r.migrate) then done s
  else if memberOut s run stripe j then s
  else match reconstruct s m run stripe row j none with
    | .rebuilt c | .direct c =>
      let w := whereIs s run stripe row j
      let z := rewriteCl m w.1 c w.2 (done s, txStart s)
      mapCommit z.2 [] z.1
    | .lost => loseRow m run stripe row 1 (done s)
    | .out => s

/-- Zeros for a lost cluster whose member is available (R297). -/
def zeroOne (m : MediaEvents) (run stripe row j : Nat) (s : State) : State :=
  let done (s : State) : State := s.modArm fun a => { a with todo := a.todo.erase (.zero run stripe row j) }
  if memberErased s run stripe j || !onLoss s run stripe row j then done s
  else if memberOut s run stripe j then s
  else
    let w := whereIs s run stripe row j
    let z := rewriteCl m w.1 zeroCl w.2 (done s, txStart s)
    mapCommit z.2 [] z.1

/-- Move the first item of work to the end. -/
def todoLast (s : State) : State := s.modArm fun a => { a with todo := a.todo.drop 1 ++ a.todo.take 1 }

/-- CLUSTER_REPAIR: the first item of work that is noted, at class C4 (R296, R297). One that cannot be done yet goes to the
end. -/
def clusterRepair (m : MediaEvents) (s : State) : State :=
  match s.arm.todo with
  | [] => s
  | x :: _ =>
    let s := mediaTake m s
    let t := match x with
      | .repair run stripe row j => repairOne m run stripe row j s
      | .zero run stripe row j => zeroOne m run stripe row j s
      | .parity run stripe row =>
        let z := encodeRow true m run stripe row (s, txStart s)
        mapCommit z.2 [] z.1
    if t.arm.todo.head? = some x then todoLast t else t

/-- One row under scrub: clusters handed on are repaired; a row that all decodes but whose parity differs is encoded again
(R311). -/
def scrubRow (m : MediaEvents) (run stripe row : Nat) (s : State) : State :=
  let rr := s.arm.map.run run
  let k := rr.get Run.K
  let bad := (runMembers rr).filter fun j => m.bad.contains (whereIs s run stripe row j) && !memberErased s run stripe j
  if !bad.isEmpty then
    if rr.get Run.M < erasures s m run stripe row then loseRow m run stripe row 1 s
    else bad.foldl (fun (s : State) j => addTodo (.repair run stripe row j) s) s
  else if !(runMembers rr).all fun j => readable s m run stripe row j then s
  else
    let ds := (List.range k).map fun j => mediaAt s run stripe row j
    let off := (List.range (rr.get Run.M)).filter fun p => mediaAt s run stripe row (k + p) != encode p ds
    if off.isEmpty then s
    else
      let z := off.foldl (fun (z : State × Tx) p =>
        let w := whereIs z.1 run stripe row (k + p)
        rewriteCl m w.1 (encode p ds) w.2 z) (s, txStart s)
      (mapCommit z.2 [] z.1).logEvent .parityMismatch [run, stripe]

/-- SCRUB of a disc: every row of every written stripe that holds a strip on it (R311). -/
def scrubOp (d : Nat) (m : MediaEvents) (s : State) : State :=
  let runs := ((s.arm.map.all pgRun).map Prod.snd).filter fun r => r.get Run.STATE != 0 && (runDiscs r).contains d
  let s := mediaTake m (s.modDisc d fun x => { x with scrub := false })
  runs.foldl (fun (s : State) r =>
    (List.range (runWritten s (r.get Run.RUN))).foldl (fun (s : State) i =>
      (List.range 16).foldl (fun (s : State) c => scrubRow m (r.get Run.RUN) i c s) s) s) s

/-- ENG_GRACE_EXPIRE: the discs of an engine that has been out of placement for ENG_GRACE fail (R300). -/
def graceExpire (e : Eng) (s : State) : State :=
  if !engineOut s e then s
  else ((registered s).filter fun d => homeOf s d == e).foldl (fun (s : State) d => discFailOp d 3 [] s) s

def execRebuildTargetChoose (run : Nat) (j : Fin 8) (s : State) : Outcome := ok (targetChoose run j.val s)
def execRebuildBatchDone (run : Nat) (j : Fin 8) (m : MediaEvents) (s : State) : Outcome := ok (rebuildBatch run j.val m s)
def execClusterRepair (m : MediaEvents) (s : State) : Outcome := ok (clusterRepair m s)
def execScrub (disc : Nat) (m : MediaEvents) (s : State) : Outcome := ok (scrubOp disc m s)
def execEngGraceExpire (e : Eng) (s : State) : Outcome := ok (graceExpire e s)

end Sys2Proof.Machine
end

