-- ==== Sys2Proof/Machine/WriteOnce.lean ====
section
/-! DEFINITION. Write-once volumes: commit groups and stripe images (R285-R288, R299, R307, R310); and the header areas
(R280-R284, R340). -/
namespace Sys2Proof.Machine

/-- The open or closed commit group of a volume (R286). -/
def woGroup (s : State) (v : Nat) : Option Group := s.arm.groups.find? fun g => g.vol = v

/-- Change the group of a volume. -/
def modGroup (v : Nat) (f : Group → Group) (s : State) : State :=
  s.modArm fun a => { a with groups := a.groups.map fun g => if g.vol = v then f g else g }

/-- The geometries an LBA is written in: one, or both between the checkpointed and the live boundary of a reshape (R306,
R307). -/
def lbaGeos (s : State) (v lba : Nat) : List Bool :=
  match s.arm.reshapes.find? fun r => r.vol = v with
  | none => [false]
  | some r => if lba < r.ckpt then [false] else if lba < r.live then [false, true] else [true]

/-- Put a block into the image of its volume stripe. Where the group's image of it is written already, a new one begins with
what that holds. -/
def imagePut (s : State) (v lba : Nat) (b : Block) (old : Bool) (is : List Image) : List Image :=
  let n := 256 * (volGeo s v old).1
  let vs := lba / n
  let o := lba % n
  let put (bs : List (Nat × Block)) : List (Nat × Block) := bs.filter (fun x => x.1 != o) ++ [(o, b)]
  let same (i : Image) : Bool := i.vs == vs && i.old == old
  if is.any fun i => same i && i.placed.isNone then
    is.map fun i => if same i && i.placed.isNone then { i with blocks := put i.blocks } else i
  else is ++ [{ vs := vs, old := old, blocks := put (((is.filter same).getLast?.map Image.blocks).getD []), placed := none }]

/-- A block of a volume as it stands, and whether it is lost; none where it cannot be had now (R285). -/
def oldBlock (s : State) (m : MediaEvents) (v lba : Nat) : Option (Block × Bool) :=
  match resolve s v lba with
  | none => some (0#32768, false)
  | some p =>
    if blkLost s p then some (0#32768, true)
    else match getCluster s m p.run p.stripe p.row p.j with
      | .direct w => some (w[p.blk]?.getD 0#32768, false)
      | .rebuilt w => some (w[p.blk]?.getD 0#32768, false)
      | .lost => some (0#32768, true)
      | .out => none

/-- The whole image: what commands wrote, and the volume's content elsewhere (R285). -/
def imageBlocks (s : State) (m : MediaEvents) (v k : Nat) (i : Image) : Option (List (Block × Bool)) :=
  (List.range (256 * k)).mapM fun o => match i.blocks.find? fun x => x.1 = o with
    | some x => some (x.2, false)
    | none => oldBlock s m v (256 * k * i.vs + o)

/-- STRIPE_IMAGE_WRITE: an image goes to the next free stripe of the filling run; a run is asked for where there is none
(R287). The defect records it makes join the group. -/
def imageWrite (m : MediaEvents) (v : Nat) (i : Image) (s : State) : State :=
  let s := if (nextStripe s v i.old).isNone then askRun v i.old s else s
  let k := (volGeo s v i.old).1
  match nextStripe s v i.old, imageBlocks s m v k i with
  | some (run, stripe), some bs =>
    let t0 := txStart s
    let z := writeStripe m run stripe (bs.map Prod.fst) (s, t0)
    let ds := newDefects z.2 s
    let s := if z.2.2.isEmpty then z.1 else mapCommit (discMoves z.2 z.1) [] z.1
    let lost := (List.range bs.length).filter fun o => (bs[o]?.map Prod.snd).getD false
    fillNote run stripe (modGroup v (fun g => { g with
      images := g.images.map fun x => if x.vs = i.vs && x.old == i.old && x.placed.isNone then { x with placed := some (run, stripe, lost) } else x
      defects := g.defects ++ ds }) s)
  | _, _ => s

/-- Images of a group that are to be written: the full ones, or all of them. -/
def imagesWrite (m : MediaEvents) (v : Nat) (every : Bool) (s : State) : State :=
  match woGroup s v with
  | none => s
  | some g => (g.images.filter fun i => i.placed.isNone && (every || i.blocks.length == 256 * (volGeo s v i.old).1)).foldl
      (fun (s : State) i => imageWrite m v i s) s

/-- The group closes, and the remaining images are written (R286). -/
def groupClose (m : MediaEvents) (v : Nat) (s : State) : State := imagesWrite m v true (modGroup v (fun g => { g with closed := true }) s)

/-- GROUP_MAX in blocks. -/
def groupMax (s : State) : Nat := setting s 0x0011 * 256

/-- A command joins the volume's group with its blocks (R286). -/
def woJoin (m : MediaEvents) (v lba : Nat) (bs : List Block) (owner : Fin 65 × Nat) (s : State) : State :=
  let s := if (woGroup s v).isSome then s
    else s.modArm fun a => { a with groups := a.groups ++ [{ vol := v, images := [], defects := [], cmds := [], closed := false }] }
  let s := modGroup v (fun g => { g with
    cmds := g.cmds ++ [owner]
    images := (List.range bs.length).foldl (fun is n =>
      (lbaGeos s v (lba + n)).foldl (fun is old => imagePut s v (lba + n) (bs[n]?.getD 0#32768) old is) is) g.images }) s
  let s := imagesWrite m v false s
  match woGroup s v with
  | none => s
  | some g => if groupMax s ≤ (g.images.map fun i => i.blocks.length).foldl (· + ·) 0 then groupClose m v s else s

/-- Loss entries of the lost LBAs a new stripe carries, one per cluster (R299). -/
def carried (v run stripe : Nat) (lost : List Nat) : List LossEnt :=
  let cls := (lost.map fun o => (o / 256, o % 256 / 16)).eraseDups
  cls.map fun c =>
    { run := run, sFirst := stripe, sLast := stripe, vol := v, members := BitVec.twoPow 8 c.1, rows := BitVec.twoPow 16 c.2, seq := 0, reason := 5
      blocks := (lost.filter fun o => o / 256 = c.1 && o % 256 / 16 = c.2).foldl (fun (z : BitVec 16) o => z ||| BitVec.twoPow 16 (o % 16)) 0#16 : LossEnt }

/-- The change of the map that commits a group. -/
def groupTx (g : Group) (t : Tx) : Tx :=
  let t := g.images.foldl (fun (t : Tx) i => match i.placed with
    | some (run, stripe, _) => mapStripe g.vol i.vs run stripe i.old t
    | none => t) t
  g.defects.foldl (fun (t : Tx) r => defPut r t) t

/-- The images of a group that no later image of the same stripe supersedes. -/
def lastImages : List Image → List Image
  | [] => []
  | i :: is => if is.any fun x => x.vs = i.vs && x.old == i.old then lastImages is else i :: lastImages is

/-- GROUP_COMMIT: when every image of a closed group has passed verify, one commit holds its extents and defect records, and
its commands complete once it is in the journal (R288). In REFUSING they complete once header clusters on m + 1 members hold
the group (R310). Lost LBAs that no command wrote are carried over (R299). -/
def groupCommit (v : Nat) (s : State) : State :=
  match woGroup s v with
  | none => s
  | some g =>
    if !g.closed || !(g.images.all fun i => i.placed.isSome) then s
    else
      let es := (lastImages g.images).flatMap fun i => match i.placed with
        | some (run, stripe, lost) => carried v run stripe lost
        | none => []
      let ps := (lastImages g.images).flatMap fun i =>
        (List.range (256 * (volGeo s v i.old).1)).filterMap fun o => (resolve s v (256 * (volGeo s v i.old).1 * i.vs + o)).filter fun p => blkLost s p
      let id := s.arm.groupSeq
      let s := s.modArm fun a => { a with groups := a.groups.filter fun x => x.vol != v, groupSeq := a.groupSeq + 1 }
      let t := groupTx g (txStart s)
      let s := if refusing s then
          let n := s.jrn.next
          let s := hdrAdd n (.map id t.2) (takeBody n (.map id t.2) (s.modJrn fun j => { j with next := seqSkip (n + 1) }))
          s.modArm fun a => { a with woWait := a.woWait ++ [(n, volM s v + 1, g.cmds)] }
        else sealAsk (.map id t.2) true g.cmds s
      let s := lossWrite ps s
      if es.isEmpty then s else sealAsk (.loss false es) true [] s

/-! ### Header areas -/

/-- The object a header record is about; extents are told apart by what they cover (R284). -/
def hdrKey (r : HdrRec) : List Nat :=
  let g (lo w : Nat) : Nat := (r.body.toNat >>> lo) % 2 ^ w
  if r.typ = hrVolume then [1, r.vol]
  else if r.typ = hrRun then [2, g 0 32]
  else if r.typ = hrExtent then [3, r.vol, g 128 32, g 160 32]
  else if r.typ = hrCommit then [4, r.group]
  else if r.typ = hrDefect then [5, g 0 16, g 16 8, g 32 32]
  else if r.typ = hrMember then [6, g 0 32, g 32 8]
  else if r.typ = hrCheckpoint then [7, g 0 32, g 32 8]
  else [8, g 0 32, g 32 32, g 64 32, g 104 8, g 112 16, g 128 64]

/-- A record stands among others: none about the same object has a higher SEQ (R284). -/
def stands (all : List HdrRec) (r : HdrRec) : Bool := !all.any fun x => decide (r.seq < x.seq) && hdrKey x == hdrKey r

/-- HEADER_BATCH_WRITE: the records due on a disc go into its next header cluster. On BD-RE the cluster overwritten gives up
the records in it that still stand. A cluster that fails verify leaves its records due (R280, R283). -/
def headerBatch (d : Nat) (verified : Bool) (s : State) : State :=
  let due := s.jrn.hdrDue.filter fun x => x.2.1 = d
  let r := s.arm.map.disc d
  if due.isEmpty ∨ r.get Dsc.STATE = 0 ∨ r.get Dsc.STATE = 2 then s
  else if hdrFull r then s.modJrn fun j => { j with hdrDue := j.hdrDue.filter fun x => x.2.1 != d }
  else
    let q := r.get Dsc.HSEQ_NEXT
    let n := 2048 * r.get Dsc.LAYERS
    let p := if r.get Dsc.MEDIUM = 2 then (q - r.get Dsc.HSEQ_START) % n else q - r.get Dsc.HSEQ_START
    let at_ (c : HdrCl) : Bool := c.disc = d && c.layer = p / 2048 && c.cluster = p % 2048
    let all := s.arm.hdrs.flatMap HdrCl.recs
    let keep := ((s.arm.hdrs.filter at_).flatMap HdrCl.recs).filter (stands (all ++ due.flatMap fun x => x.2.2))
    let take := due.foldl (fun (z : List (Nat × Nat × List HdrRec) × Nat) x =>
      if z.2 + x.2.2.length ≤ 511 then (z.1 ++ [x], z.2 + x.2.2.length) else z) ([], keep.length)
    let cl : HdrCl := { disc := d, layer := p / 2048, cluster := p % 2048, hseq := q, recs := if verified then keep ++ take.1.flatMap fun x => x.2.2 else [] }
    let s := s.modArm fun a => { a with hdrs := (a.hdrs.filter fun c => !at_ c) ++ [cl] }
    let s := mapCommit ((txStart s).setDisc d (((txStart s).1.disc d).put Dsc.HSEQ_NEXT (q + 1))) [] s
    if !verified then (if keep.isEmpty then s else s.modJrn fun j => { j with hdrDue := j.hdrDue ++ [(s.jrn.cseq, d, keep)] })
    else
      let s := s.modJrn fun j => { j with hdrDue := j.hdrDue.filter fun x => !take.1.contains x }
      let ns := take.1.map Prod.fst
      let hit (w : Nat × Nat × List (Fin 65 × Nat)) : Nat × Nat × List (Fin 65 × Nat) := if ns.contains w.1 then (w.1, w.2.1 - 1, w.2.2) else w
      let ws := s.arm.woWait.map hit
      let s := s.modArm fun a => { a with woWait := ws.filter fun w => w.2.1 != 0 }
      retireAll ((ws.filter fun w => w.2.1 = 0).foldl (fun (s : State) w => w.2.2.foldl (fun (s : State) o => finishCommitted w.1 o s) s) s)

/-- The records a rebuild of the map takes: those of a group only with its COMMIT and all NGRP of its records (R284). -/
def validRecs (all : List HdrRec) : List HdrRec :=
  let rs := all.eraseDups
  rs.filter fun r => r.group = 0 || (match rs.find? fun c => c.typ = hrCommit && c.group = r.group && c.seq = r.seq with
    | none => false
    | some c => (rs.filter fun x => x.group = r.group && x.seq = r.seq && (x.typ = hrExtent || x.typ = hrDefect)).length == c.body.toNat % 2 ^ 32)

/-- One header record is put into the map that is being built. -/
def recPut (t : Tx) (r : HdrRec) : Tx :=
  let b : MRec := r.body.setWidth 512
  let g (lo w : Nat) : Nat := (r.body.toNat >>> lo) % 2 ^ w
  if r.typ = hrVolume then t.setVol r.vol b
  else if r.typ = hrRun then (match t.1.run? (b.get Run.RUN) with
    | some x => t.set pgRun x.1 b
    | none => t.add pgRun b)
  else if r.typ = hrExtent then
    let e : MRec := ((r.body >>> 128).setWidth 128).setWidth 512
    let v := r.vol
    (List.range (e.get Ext.COUNT)).foldl (fun (t : Tx) i => mapStripe v (e.get Ext.VS + i) (e.get Ext.RUN) (e.get Ext.OFS + i) ((t.1.run (e.get Ext.RUN)).get Run.STATE == 4) t) t
  else if r.typ = hrDefect then defPut b t
  else if r.typ = hrMember then t.modRun (g 0 32) fun x => x.put (Run.MEMBER (g 32 8)) (g 48 48)
  else t

/-- MAP_REBUILD: the map is built again from the header areas, records in ascending SEQ, runs and volumes before what names
them; HSEQ_NEXT of every identifier goes above the highest HSEQ found. A checkpoint holds the result, and MAP_SCAN clears
(R280, R284, R340). -/
def mapRebuild (s : State) : State :=
  if !s.isSet GLB_BOOT.MAP_SCAN then s
  else
    let all := validRecs (s.arm.hdrs.flatMap HdrCl.recs)
    let ok := sortBy (fun a b => decide (a.seq < b.seq)) (all.filter (stands all))
    let pick (p : Nat → Bool) : List HdrRec := ok.filter fun r => p r.typ
    let discs := (s.arm.map.all pgDisc).foldl (fun (t : Tx) x => t.set pgDisc x.1 x.2) ({}, [])
    let t := (pick fun n => n == hrVolume).foldl recPut discs
    let t := (pick fun n => n == hrRun).foldl recPut t
    let t := (pick fun n => n == hrMember).foldl recPut t
    let t := (pick fun n => n == hrExtent).foldl recPut t
    let t := (pick fun n => n == hrDefect).foldl recPut t
    let t := s.arm.hdrs.foldl (fun (t : Tx) c =>
      if (t.1.disc c.disc).get Dsc.HSEQ_NEXT ≤ c.hseq then t.setDisc c.disc ((t.1.disc c.disc).put Dsc.HSEQ_NEXT (c.hseq + 1)) else t) t
    let loss := ((pick fun n => n == hrLoss).map fun r => lossOf r.body).filter fun x => x.blocks != 0#16
    let img : MapImg := { t.1 with loss := loss, dirty := s.arm.map.dirty, windows := s.arm.map.windows }
    let g := s.jrn.nand.gen + 1
    let c := s.jrn.cseq
    let s := s.modArm fun a => { a with map := img, gens := ((img.pages.map Prod.fst).filter (71 ≤ ·)), cache := [] }
    let s := (pick fun n => n == hrCheckpoint).foldl (fun (s : State) r =>
      takeCkpt (r.body.toNat % 2 ^ 32) ((r.body.toNat >>> 32) % 256) ((r.body.toNat >>> 64) % 2 ^ 32) s) s
    let s := s.modJrn fun j => { j with nand := { j.nand with gen := g, seqC := c, anchor := some img } }
    ((sealAsk (.mapckpt g c) false [] s).put GLB_BOOT.MAP_SCAN 0).put CQI_STAT.MAP_SCAN 0

def execGroupCommit (vol : Fin 256) (s : State) : Outcome := ok (groupCommit vol.val s)
def execHeaderBatchWrite (disc : Nat) (verified : Bool) (s : State) : Outcome := ok (headerBatch disc verified s)
def execMapRebuild (s : State) : Outcome := ok (mapRebuild s)

end Sys2Proof.Machine
end

