-- ==== Sys2Proof/Machine/Rewrite.lean ====
section
/-! DEFINITION. Rewritable volumes: initialisation, destaging, resynchronisation (R289-R294), and reshape (R306-R308). -/
namespace Sys2Proof.Machine

/-- RUN_INIT_ZERO: the next stripe of a new RW run is written with zeros and verified, and the boundary is kept as a
CHECKPOINT of kind 2 (R289). It waits for a member that cannot be written. -/
def initZero (run : Nat) (m : MediaEvents) (s : State) : State :=
  let r := s.arm.map.run run
  let i := initOf s run
  if (s.arm.map.run? run).isNone || r.get Run.STATE = 0 || isWo s (r.get Run.VOL) || decide (r.get Run.STRIPES ≤ i)
      || !(runMembers r).all (fun j => writable s run i j || memberErased s run i j) then s
  else
    let s := mediaTake m s
    let z := writeStripe m run i [] (s, txStart s)
    sealAsk (.checkpoint run 2 (i + 1)) true [] (mapCommit z.2 [] z.1)

/-- Unretired DATA records that may be brought to media: committed ones, in REFUSING all that stand (R291, R310). -/
def liveData (s : State) : List JRec :=
  s.jrn.recs.filter fun r => match r.body with
    | .data .. => !r.retired && (decide (r.seq ≤ s.jrn.cseq) || refusing s)
    | .map .. | .dirty _ | .retire _ | .checkpoint .. | .loss .. | .mapckpt .. | .quench .. | .boot .. | .pad _ => false

/-- Records whose data of a cluster is not on media yet, in journal order. -/
def recordsOf (s : State) (run stripe row j : Nat) : List JRec :=
  (liveData s).filter fun r => !s.arm.destaged.contains (r.seq, (run, stripe, row, j)) && (bodySpots s r.body).contains (run, stripe, row, j)

/-- The blocks a record has for a cluster. -/
def recBlocks (s : State) (run stripe row j : Nat) (r : JRec) : List (Nat × Block) :=
  match r.body with
  | .data v lba bs => (List.range bs.length).flatMap fun i =>
    ((spotsOf s v (lba + i)).filter fun p => p.run = run && p.stripe = stripe && p.row = row && p.j = j).map fun p => (p.blk, bs[i]?.getD 0#32768)
  | .map .. | .dirty _ | .retire _ | .checkpoint .. | .loss .. | .mapckpt .. | .quench .. | .boot .. | .pad _ => []

/-- A cluster with the records' data merged in journal order: later records win (R291). -/
def mergeCl (s : State) (run stripe row j : Nat) (rs : List JRec) (c : Cluster) : Cluster :=
  (rs.flatMap (recBlocks s run stripe row j)).foldl (fun (c : Cluster) x => c.setIfInBounds x.1 x.2) c

/-- Blocks of a cluster that records cover. -/
def covered (s : State) (run stripe row j : Nat) (rs : List JRec) : BitVec 16 :=
  (rs.flatMap (recBlocks s run stripe row j)).foldl (fun (z : BitVec 16) x => z ||| BitVec.twoPow 16 x.1) 0#16

/-- The dirty bit of a member's region is committed as set (R292). -/
def dirtySet (s : State) (run g j : Nat) : Bool :=
  s.arm.map.dirty.any fun d => d.run = run && d.g = g && d.j = j && (decide (d.seq ≤ s.jrn.cseq) || refusing s)

/-- A set of the bit is on its way. -/
def dirtyAsked (s : State) (run g j : Nat) : Bool := s.arm.map.dirty.any fun d => d.run = run && d.g = g && d.j = j

/-- A waiting seal of the bit. -/
def dirtyWaits (s : State) (run g j : Nat) : Bool :=
  s.jrn.wait2.any fun w => match w.body with
    | .dirty es => es.contains (run, g, j, false)
    | .data .. | .map .. | .retire _ | .checkpoint .. | .loss .. | .mapckpt .. | .quench .. | .boot .. | .pad _ => false

/-- The row lock of a destage. -/
def lockKey (run stripe row j : Nat) : Nat × Nat × Nat × Nat := (run, stripe, row, j)
def rowLocked (s : State) (run stripe row j : Nat) : Bool := s.arm.locks.any fun l => l.1 = run && l.2.1 = stripe && l.2.2.1 = row && l.2.2.2 != j

/-- The cluster of a destage is written where its member may be written. -/
def destagePut (m : MediaEvents) (run stripe row j : Nat) (new : Cluster) (z : State × Tx) : State × Tx :=
  if writable z.1 run stripe j then writeMember m run stripe row j new z else z

/-- Each parity cluster takes the difference of the data cluster times its coefficient (R291). -/
def destageDelta (m : MediaEvents) (run stripe row j : Nat) (new x : Cluster) (s : State) : State :=
  let k := (s.arm.map.run run).get Run.K
  let z := (List.range ((s.arm.map.run run).get Run.M)).foldl (fun (z : State × Tx) p =>
    if memberErased z.1 run stripe (k + p) then z
    else writeMember m run stripe row (k + p) (clXor (mediaAt s run stripe row (k + p)) (clScale (coef p j) x)) z)
    (destagePut m run stripe row j new (s, txStart s))
  mapCommit z.2 [] z.1

/-- The row's parity is encoded anew from its data clusters; where they cannot be had, the row is marked for repair (R291, R303). -/
def destageRow (m : MediaEvents) (run stripe row j : Nat) (new : Cluster) (ds : Option (List Cluster)) (s : State) : State :=
  let z := destagePut m run stripe row j new (s, txStart s)
  match ds with
  | some ds =>
    let z := writeParity false m run stripe row ds z
    mapCommit z.2 [] (z.1.modArm fun a => { a with incons := a.incons.erase (run, stripe, row) })
  | none => mapCommit z.2 [] (markRow run stripe row z.1)

/-- The data cluster and the row's parity are written (R291, R303). -/
def destageWrite (m : MediaEvents) (run stripe row j : Nat) (rs : List JRec) (s : State) : State :=
  let r := s.arm.map.run run
  let k := r.get Run.K
  let old := getCluster s m run stripe row j
  let lost := onLoss s run stripe row j
  let new := mergeCl s run stripe row j rs ((if lost && !readable s m run stripe row j then some zeroCl else old.val).getD zeroCl)
  let parOk := (List.range (r.get Run.M)).all fun p => readable s m run stripe row (k + p) || memberErased s run stripe (k + p)
  match old with
  | .direct d =>
    if parOk && !s.arm.incons.contains (run, stripe, row) then destageDelta m run stripe row j new (clXor d new) s
    else destageRow m run stripe row j new ((parityData s m run stripe row).map fun ds => ds.set j new) s
  | .rebuilt _ | .lost | .out =>
    destageRow m run stripe row j new ((List.range k).mapM fun i => if i = j then some new else
      if readable s m run stripe row i then some (mediaAt s run stripe row i)
      else if onLoss s run stripe row i then some zeroCl else (reconstruct s m run stripe row i none).val) s

/-- DESTAGE of a data cluster: the row is locked, the dirty bit of its region committed as set, then the records that touch it
are merged, the cluster and the parity written and verified, the lock released, and the bit cleared once no destage of the
region is left; the records are retired after that (R291, R292, R323). A destage whose row is held waits. -/
def destageOp (run stripe row j : Nat) (m : MediaEvents) (s : State) : State :=
  let g := stripe / 16
  let me := lockKey run stripe row j
  let rs := recordsOf s run stripe row j
  if rs.isEmpty ∨ (s.arm.map.run run).get Run.K ≤ j then s.modArm fun a => { a with locks := a.locks.erase me, lockWait := a.lockWait.erase me }
  else if s.arm.resync.any fun x => x.1 = run && x.2.1 = g then s
  else if rowLocked s run stripe row j then
    if s.arm.lockWait.contains me then s else s.modArm fun a => { a with lockWait := a.lockWait ++ [me] }
  else if memberOut s run stripe j && !memberErased s run stripe j then s
  else
    let s := s.modArm fun a => { a with locks := if a.locks.contains me then a.locks else a.locks ++ [me], lockWait := a.lockWait.erase me }
    let s := if dirtyAsked s run g j || dirtyWaits s run g j then s else sealAsk (.dirty [(run, g, j, false)]) true [] s
    if !dirtySet s run g j then s
    else
      let s := mediaTake m s
      let s := if (s.arm.map.run run).get Run.M < erasures s m run stripe row then loseRow m run stripe row 1 s else s
      let s := destageWrite m run stripe row j rs s
      let s := lossWrite ((rs.flatMap (recBlocks s run stripe row j)).map fun x => { run := run, stripe := stripe, j := j, row := row, blk := x.1 : Spot250 }) s
      let s := s.modArm fun a => { a with
        destaged := a.destaged ++ rs.map fun r => (r.seq, (run, stripe, row, j))
        locks := a.locks.erase me }
      let busy := s.arm.locks.any fun l => l.1 = run && l.2.1 / 16 = g && l.2.2.2 = j
      let s := if busy then s else sealAsk (.dirty [(run, g, j, true)]) true [] s
      retireSeal s

/-- ROW_LOCK_GRANT: the first waiting destage whose row is free takes the lock (R291). -/
def lockGrant (s : State) : State :=
  match s.arm.lockWait.find? fun w => !rowLocked s w.1 w.2.1 w.2.2.1 w.2.2.2 with
  | some w => s.modArm fun a => { a with lockWait := a.lockWait.erase w, locks := a.locks ++ [w] }
  | none => s

/-! ### Resynchronisation -/

/-- The values of an unavailable data cluster that each readable parity member gives (R294). -/
def votes (s : State) (m : MediaEvents) (run stripe row i : Nat) : List Cluster :=
  let r := s.arm.map.run run
  let k := r.get Run.K
  let ds := ((List.range k).filter fun j => j != i && readable s m run stripe row j).map fun j => (j, mediaAt s run stripe row j)
  if ds.length + 1 < k then []
  else ((List.range (r.get Run.M)).filter fun p => readable s m run stripe row (k + p)).map fun p =>
    (solve k (ds ++ [(k + p, mediaAt s run stripe row (k + p))]))[i]?.getD zeroCl

/-- A value on which two parity members agree. -/
def agreed : List Cluster → Option Cluster
  | [] => none
  | c :: cs => if cs.contains c then some c else agreed cs

/-- One row of a region under resynchronisation, for the dirty data member `j`: its cluster is read, or reconstructed where it cannot be,
since the parity is still the old one; a member that is unavailable is handled by R294 (R293, R294). -/
def resyncRow (m : MediaEvents) (run j stripe row : Nat) (s : State) : State :=
  let r := s.arm.map.run run
  let k := r.get Run.K
  let rs := recordsOf s run stripe row j
  let away := (List.range k).filter fun i => !readable s m run stripe row i
  if rs.isEmpty then
    let z := encodeRow false m run stripe row (s, txStart s)
    mapCommit z.2 [] z.1
  else
    -- the unavailable data members of a touched row
    let val (i : Nat) : Option Cluster := if 2 ≤ r.get Run.M then agreed (votes s m run stripe row i) else none
    let gone := away.filter fun i => i != j && (val i).isNone
    let gonej := memberErased s run stripe j || memberOut s run stripe j
    let own := if readable s m run stripe row j then some (mediaAt s run stripe row j)
      else if gonej then val j else (reconstruct s m run stripe row j none).val
    let full := covered s run stripe row j rs == 0xFFFF#16
    let s := gone.foldl (fun (s : State) i => if onLoss s run stripe row i then s
      else addTodo (.zero run stripe row i) (addLoss run stripe stripe (BitVec.twoPow 8 i) (BitVec.twoPow 16 row) 0xFFFF#16 4 s)) s
    let s := if own.isNone && !full then
        addLoss run stripe stripe (BitVec.twoPow 8 j) (BitVec.twoPow 16 row) (~~~ covered s run stripe row j rs) (if gonej then 4 else 1) s
      else s
    let new := mergeCl s run stripe row j rs (own.getD zeroCl)
    let ds := (List.range k).map fun i => if i = j then new
      else if away.contains i then (val i).getD zeroCl else mediaAt s run stripe row i
    let z := if writable s run stripe j then writeMember m run stripe row j new (s, txStart s) else (s, txStart s)
    let z := writeParity false m run stripe row ds z
    let s := mapCommit z.2 [] z.1
    s.modArm fun a => { a with destaged := a.destaged ++ rs.map fun r => (r.seq, (run, stripe, row, j)) }

/-- RESYNC: the first region that is due (R293). -/
def resyncOp (m : MediaEvents) (s : State) : State :=
  match s.arm.resync with
  | [] => s
  | (run, g, j) :: rest =>
    let s := mediaTake m s
    let n := (s.arm.map.run run).get Run.STRIPES
    let s := ((List.range 16).filterMap fun i => if 16 * g + i < n then some (16 * g + i) else none).foldl (fun (s : State) i =>
      (List.range 16).foldl (fun (s : State) c => resyncRow m run j i c s) s) s
    let s := s.modArm fun a => { a with resync := rest }
    retireSeal (sealAsk (.dirty [(run, g, j, true)]) true [] s)

/-! ### Reshape -/

/-- LBAs of one unit of a reshape: whole stripes of both geometries (R306). -/
def unitLbas (s : State) (r : Reshape) : Nat := r.k * volK s r.vol * 256

/-- The old content of a new stripe: block and lost mark; none where a source is out of placement. -/
def reshapeBlocks (s : State) (m : MediaEvents) (r : Reshape) (vs : Nat) : Option (List (Block × Bool)) :=
  let n := 256 * volK s r.vol
  (List.range n).mapM fun o =>
    match s.arm.map.resolveBy r.vol r.k (n * vs + o) true with
    | none => some (0#32768, false)
    | some p =>
      if blkLost s p then some (0#32768, true)
      else match getCluster s m p.run p.stripe p.row p.j with
        | .direct w => some (w[p.blk]?.getD 0#32768, false)
        | .rebuilt w => some (w[p.blk]?.getD 0#32768, false)
        | .lost => some (0#32768, true)
        | .out => none

/-- A new stripe needs copying: some LBA of it was written in the old geometry. -/
def stripeMapped (s : State) (r : Reshape) (vs : Nat) : Bool :=
  let n := 256 * volK s r.vol
  (List.range (n / 256)).any fun i => (s.arm.map.resolveBy r.vol r.k (n * vs + 256 * i) true).isSome

/-- One new stripe is written; its extent and lost LBAs are kept for the unit's commit. -/
def reshapeStripe (m : MediaEvents) (r : Reshape) (vs : Nat) (z : Option (State × Tx × List LossEnt)) : Option (State × Tx × List LossEnt) :=
  match z with
  | none => none
  | some (s, t, ls) =>
    if !stripeMapped s r vs then z
    else
      let used := t.1.exts r.vol false
      let next := (openRuns s r.vol false).findSome? fun x =>
        let run := x.get Run.RUN
        let n := max (runUsed s run) (((used.filter fun e => e.2.get Ext.RUN = run).map fun e => e.2.get Ext.OFS + e.2.get Ext.COUNT).foldl max 0)
        if n < x.get Run.STRIPES then some (run, n) else none
      match next, reshapeBlocks s m r vs with
      | some (run, n), some bs =>
        let (s, t) := writeStripe m run n (bs.map Prod.fst) (s, t)
        let lost := (List.range bs.length).filter fun o => (bs[o]?.map Prod.snd).getD false
        some (fillNote run n s, mapStripe r.vol vs run n false t, ls ++ carried r.vol run n lost)
      | _, _ => none

/-- Keep the run's initialised boundary above stripes a copy has written. -/
def initRaise (v : Nat) (s : State) : State :=
  s.modArm fun a => { a with initB := a.initB.map fun x => if (s.arm.map.run x.1).get Run.VOL = v then (x.1, max x.2 (runUsed s x.1)) else x }

/-- The reshape ends: one commit releases the old runs and their extents (R306). -/
def reshapeEnd (r : Reshape) (s : State) : State :=
  let t := txStart s
  let es := t.1.exts r.vol true
  let runs := ((t.1.all pgRun).filter fun x => x.2.get Run.VOL = r.vol && x.2.get Run.STATE = 4).map fun x => x.2.get Run.RUN
  let t := es.foldl (fun (t : Tx) x => t.del pgExt x.1) t
  let t := (runs.foldl (fun (t : Tx) n => releaseRun n t) t).extRoot r.vol
  let s := mapCommit t [] (s.modArm fun a => { a with reshapes := a.reshapes.filter fun x => x.vol != r.vol })
  startRebuilds (s.logEvent .reshapeDone [r.vol])

/-- RESHAPE_UNIT_COPY: one unit is copied into the new geometry in one commit, and L advances; L is checkpointed after every
256 new stripes. A new run under rebuild pauses the copy (R306-R308). -/
def reshapeCopy (v : Nat) (m : MediaEvents) (s : State) : State :=
  match s.arm.reshapes.find? fun r => r.vol = v with
  | none => s
  | some r =>
    let cap := (s.arm.map.vol v).get Vol.CAP
    if s.arm.rebuilds.any fun x => (s.arm.map.run x.run).get Run.VOL = v then s
    else if r.live < cap then
      let s := mediaTake m s
      let n := r.k
      let vs0 := r.live / (256 * volK s v)
      let free := (openRuns s v false).foldl (fun z x => z + (x.get Run.STRIPES - runUsed s (x.get Run.RUN))) 0
      let s := if free < n then askRun v false s else s
      match (List.range n).foldl (fun z i => reshapeStripe m r (vs0 + i) z) (some (s, txStart s, [])) with
      | none => s
      | some (s, t, ls) =>
        let s := initRaise v (mapCommit t [] s)
        let s := if ls.isEmpty then s else sealAsk (.loss false ls) true [] s
        let live := r.live + unitLbas s r
        let s := s.modArm fun a => { a with reshapes := a.reshapes.map fun x => if x.vol = v then { x with live := live } else x }
        let b (l : Nat) : Nat := l / (256 * volK s v)
        let s := if b live / 256 != b r.live / 256 then
            (match (openRuns s v false).head? with
              | some x => sealAsk (.checkpoint (x.get Run.RUN) 1 (b live)) true [] s
              | none => s)
          else s
        if cap ≤ live then reshapeEnd { r with live := live } s else s
    else reshapeEnd r s

def execRunInitZero (run : Word) (m : MediaEvents) (s : State) : Outcome := ok (initZero run.toNat m s)
def execDestage (run stripe : Nat) (row : Fin 16) (j : Fin 8) (m : MediaEvents) (s : State) : Outcome := ok (destageOp run stripe row.val j.val m s)
def execRowLockGrant (s : State) : Outcome := ok (lockGrant s)
def execResync (m : MediaEvents) (s : State) : Outcome := ok (resyncOp m s)

end Sys2Proof.Machine
end

