-- ==== Sys2Proof/Machine/Armature.lean ====
section
/-! DEFINITION. What Armature does with what the engines tell it (R155, R208, R253, R300), powered hours and aging (R495),
recovery of a disc's location (R492), and the meanings of the commands in which an engine may tell it something. -/
namespace Sys2Proof.Machine

/-- Where a physical cluster of a disc is used: run, stripe, row, member (R247, R249). -/
def spotAt (s : State) (d : Nat) (c : ClAddr) : Option (Nat × Nat × Nat × Nat) :=
  let m := s.arm.map
  let o := match (m.all pgDef).find? fun x => x.2.get Def.DISC = d && x.2.get Def.NEW = c.cluster.toNat && x.2.get Def.NEWL = c.layer.toNat with
    | some x => (x.2.get Def.LAYER, x.2.get Def.OLD)
    | none => (c.layer.toNat, c.cluster.toNat)
  ((m.all pgRun).map Prod.snd).findSome? fun r =>
    if r.get Run.STATE = 0 then none
    else (runMembers r).findSome? fun j =>
      let f := r.get (Run.FIRST j)
      if memberUsed r j && r.get (Run.DISC j) == d && r.get (Run.LAYER j) == o.1 && decide (f ≤ o.2) && decide (o.2 < f + 16 * r.get Run.STRIPES)
      then some (r.get Run.RUN, (o.2 - f) / 16, (o.2 - f) % 16, j) else none

/-- A cluster handed on at rung 7: repaired while its row has at most m erasures, lost beyond that (R296, R297). -/
def rung7 (e : Eng) (c : ClAddr) (s : State) : State :=
  match loadedIn s e with
  | none => s
  | some d =>
    let s := handOff d s
    match spotAt s d c with
    | none => s
    | some (run, stripe, row, j) =>
      let m : MediaEvents := { bad := [(d, c)] }
      if (s.arm.map.run run).get Run.M < erasures s m run stripe row then loseRow m run stripe row 1 s
      else if s.arm.rebuilds.any (fun r => r.run = run) then s
      else addTodo (.repair run stripe row j) s

/-- A member of a run lies on a disc of the engine. -/
def memberOn (s : State) (e : Eng) (run j : Nat) : Bool := homeOf s ((s.arm.map.run run).get (Run.DISC j)) == e

/-- ENGINE_OUT: jobs that need the engine are placed again: the sources chosen for reads on it are dropped, so that such a read is decided
afresh, and a running rebuild with fewer than k sources stalls (R148, R270, R302). -/
def engineGone (e : Eng) (s : State) : State :=
  let s := s.logEvent .engineOut [e.val]
  let uses (x : (Nat × Nat × Nat) × BitVec 8) : Bool :=
    memberOn s e x.1.1 x.1.2.2 || (List.range 8).any fun j => x.2.getLsbD j && memberOn s e x.1.1 j
  let stalls (r : Rebuild) : Bool := r.st == 1 && !(r.migrate && writable s r.run r.b r.j)
    && decide (sourcesNow s r.run r.b r.j < (s.arm.map.run r.run).get Run.K)
  s.modArm fun a => { a with
    sources := a.sources.filter fun x => !uses x
    rebuilds := a.rebuilds.map fun r => if stalls r then { r with st := 2 } else r }

/-- A cluster of the power calibration area is used: PCA<l> names the next one (R142, R248). -/
def pcaUsed (e : Eng) (c : ClAddr) (s : State) : State :=
  match loadedIn s e with
  | some d =>
    let t := txStart s
    let r := t.1.disc d
    mapCommit (t.setDisc d (r.put (Dsc.PCA (c.layer.toNat % 4)) (min 255 (r.get (Dsc.PCA (c.layer.toNat % 4)) + 1)))) [] s
  | none => s

/-- Armature takes up one note. -/
def armNote (s : State) : ArmNote → State
  | .erasure e c => rung7 e c s
  | .left e _ rung => match loadedIn s e with
    | some d => if rung = 7 then s else patinaLeft d (decide (2 ≤ rung)) s
    | none => s
  | .decoded e _ ldc bis => match loadedIn s e with
    | some d => patinaRead d ldc bis s
    | none => s
  | .verified .. => s
  | .engineOut e => engineGone e s
  | .pca e c => pcaUsed e c s
  | .unfocusable e => match loadedIn s e with
    | some d =>
      if discState s d = 1 ∨ discState s d = 5 then
        let s := s.arm.rebuilds.foldl (fun (s : State) r => secondFailure d r s) s
        startRebuilds ((setDiscState d 4 [] s).logEvent .discUnfocusable [d])
      else s
    | none => s

/-- Armature takes up what the engines noted, before the step ends. -/
def armDrain (s : State) : State :=
  if s.notes = [] then s else s.notes.foldl armNote { s with notes := [] }

/-- An answer that goes on, once Armature has taken up what was noted. -/
def settled (s : State) : Outcome := .next (armDrain s)

/-! ### Powered hours (R495) -/

/-- HOURS_TOTAL goes to Plinth entry 0x0341, in memory only while the journal is REFUSING. -/
def hourOp (s : State) : State :=
  let s := s.inc PWR_HOURS.HOURS
  let s := s.modArm fun a => { a with hours := a.hours + 1 }
  if refusing s then s else (plinthCommit 0#2 (plPut s.jrn.ents 0x0341 (some (leBytes 4 s.arm.hours))) s).1

/-- AGING_MARK: when HOURS_TOTAL has reached a multiple of 720, g of every registered disc, scrubs, and the window counts. -/
def agingOp (s : State) : State :=
  if s.arm.hours = 0 ∨ s.arm.hours % 720 ≠ 0 then s
  else
    let s := s.modArm fun a => { a with map := { a.map with windows := [] } }
    (registered s).foldl (fun (s : State) d =>
      let s := s.modDisc d patAge
      let s := s.modDisc d fun x => { x with scrub := decide (patinaScrub s ≤ patinaOf x) }
      patinaKeep d s) s

/-- DISC_RECOVERY: an unlocated disc is looked for in its home engine, then in its magazine slot (R492). -/
def recoverDisc (d : Nat) (p : Place) (s : State) : State :=
  if (s.discInt d).loc ≠ .unknown then s
  else match p with
    | .engine => s.modDisc d fun x => { x with loc := .engine (homeOf s d) }
    | .magazine => s.modDisc d fun x => { x with loc := .magazine }
    | .nowhere => s.logEvent .discUnlocated [d]

def execPoweredHour (s : State) : Outcome := ok (hourOp s)
def execAgingMark (s : State) : Outcome := ok (agingOp s)
def execDiscRecovery (disc : Nat) (found : Place) (s : State) : Outcome := ok (recoverDisc disc found s)

/-! ### Attempts of the retry ladder as their runs proceed (R149) -/

/-- What an attempt does after an event of its run or replay; when the run has come to IDLE, the pickup jumps two tracks inward (R149). -/
def attemptGoOn (e : Eng) (s : State) : State :=
  let ran := match s.eng[e].att with
    | some a => a.running
    | none => false
  let s := attemptFollow e s
  if ran && s.get (SEAM_STAT.STATE e) == seamIdle && s.isSet (ANV_STAT.RUNNING e) then jumpOp e (-2) none s else s

/-! ### Meanings of commands that engines may note something in -/

def execBpalloc (c : Fin 4) (rd rs1 rs2 : Fin 32) (s : State) : Outcome := settled (mOnly c (forgeAlloc c rd rs1 rs2) s)
def execBpfree (c : Fin 4) (rd rs1 rs2 : Fin 32) (s : State) : Outcome := settled (mOnly c (forgeFree c rd rs1 rs2) s)
def execBpshare (c : Fin 4) (rd rs1 rs2 : Fin 32) (s : State) : Outcome := settled (mOnly c (forgeShare c rd rs1 rs2) s)
def execCoreAccessFault (core : Fin 16) (addr : BitVec 32) (write : Bool) (s : State) : Outcome := settled (accessFault core addr write s)
def execPlcommit (c : Fin 4) (rd rs1 rs2 : Fin 32) (s : State) : Outcome := settled (mOnly c (forgeCommit c rd rs1 rs2) s)
def execQget (c : Fin 4) (rd rs1 rs2 : Fin 32) (s : State) : Outcome := settled (forgeGet c rd rs1 rs2 s)
def execQput (c : Fin 4) (rd rs1 rs2 : Fin 32) (s : State) : Outcome := settled (forgePut c rd rs1 rs2 s)
def execChooseLoad (e : Eng) (cur : LoadCand) (cs : List LoadCand) (s : State) : Outcome := settled (ask (.load e cur cs) s)
def execChooseReadSource (r : ReadReq) (s : State) : Outcome := settled (ask (.source r) s)
def execChooseSpeed (e : Eng) (radius rc host fill size : Nat) (s : State) : Outcome := settled (ask (.speed e radius rc host fill size) s)
def execChooseWriteGroup (vol : Fin 256) (stripes : Nat) (s : State) : Outcome := settled (ask (.group vol.val stripes) s)
def execPolicyBudgetExpire (c : Fin 4) (s : State) : Outcome := settled (budgetExpire c s)
def execPolicyCall (c : Fin 4) (s : State) : Outcome := settled (policyCallOp c s)
def execPolicyEcall (c : Fin 4) (s : State) : Outcome := settled (policyEcallOp c s)
def execReshapeUnitCopy (vol : Fin 256) (m : MediaEvents) (s : State) : Outcome := settled (reshapeCopy vol.val m s)
def execGatherTimeout (vol : Fin 256) (m : MediaEvents) (s : State) : Outcome := settled (groupClose m vol.val (mediaTake m s))
def execLaneFrameReceived (e : Eng) (u : Fin 4) (marker : BitVec 64) (payload : List LinkBlock) (nextCrc : BitVec 7) (hdr : BitVec 16)
    (s : State) : Outcome := settled (laneFrame e u marker payload nextCrc hdr s)
def execDownstreamFrameSend (e : Eng) (s : State) : Outcome := settled (downstreamFrame e s)
def execWrStop (e : Eng) (s : State) : Outcome := settled (wrStop e s)

def execF5StatusBlock (e : Eng) (blk : LinkBlock) (s : State) : Outcome := settled (f5Status e blk s)
def execLaneLockLost (e : Eng) (u : Spot) (s : State) : Outcome := settled (laneLost e u s)
def execTrainTimeout (e : Eng) (s : State) : Outcome := settled (trainTimeoutOp e s)
def execHlEnable (e : Eng) (s : State) : Outcome := settled (linkEnable e s)
def execHlDisable (e : Eng) (s : State) : Outcome := settled (linkDisable e s)
def execHlRetrain (e : Eng) (s : State) : Outcome := settled (linkRetrain e s)
def execSyncMarkDetected (e : Eng) (k : Chn) (pos mism : Nat) (frame : Fin 496) (level : Nat) (centre : Int)
    (s : State) : Outcome := settled (syncMark e k pos mism frame.val level centre s)
def execSyncWindowClose (e : Eng) (k : Chn) (pos : Nat) (addr : Option ClAddr) (s : State) : Outcome := settled (syncWindow e k pos addr s)
def execClusterDecoded (e : Eng) (k : Chn) (d : Decoded) (s : State) : Outcome := settled (attemptGoOn e (clusterDecode e k d s))
def execReplayPassDone (e : Eng) (d : Decoded) (s : State) : Outcome := settled (attemptGoOn e (replayPass e d s))
def execWpllLockLost (e : Eng) (s : State) : Outcome := settled (wpllLost e s)
def execAdipWordDecoded (e : Eng) (ahead : Option (Fin 2)) (addr : Option ClAddr) (level : BitVec 16) (s : State) : Outcome :=
  settled (adipWord e ahead addr level s)
/-- SEAM_CROSSING: the seam block's window opens, and the gearing takes a newly loaded entry (R112, R210). -/
def execSeamCrossing (e : Eng) (s : State) : Outcome := settled (if s.isSet (SPN_STAT.ANG_VALID e) then attemptGoOn e (seamCross e (slgCross e s)) else s)
/-- When ORIGIN_GEN has changed from `gen` ESQ<n> closes any run: the angles it holds are to be measured again (R220). -/
def originFollow (e : Eng) (gen : Nat) (s : State) : State :=
  if gen = s.get (SPN_STAT.ORIGIN_GEN e) then s else attemptVoid e (seamStop e s)
def execSpnCatchDecide (e : Eng) (edges interval : Nat) (forward : Bool) (theta : Fin 1024) (s : State) : Outcome :=
  settled (originFollow e (s.get (SPN_STAT.ORIGIN_GEN e)) (spnCatchOp e edges interval forward theta.val s))
def execSpnOpenHandover (e : Eng) (s : State) : Outcome := settled (originFollow e (s.get (SPN_STAT.ORIGIN_GEN e)) (spnHandover e s))
def execSeamWindowClose (e : Eng) (sameStop : Bool) (s : State) : Outcome := settled (attemptGoOn e (seamWindow e sameStop s))
def execStitchDecoded (e : Eng) (d : Decoded) (s : State) : Outcome := settled (attemptGoOn e (stitchDone e d s))
def execLaserEnWrite (e : Eng) (v : Bool) (s : State) : Outcome := settled (laserEn e v s)
def execWrDecisionPoint (e : Eng) (s : State) : Outcome := settled (wrDecide e s)
def execIlkOpening (e : Eng) (s : State) : Outcome := settled (ilkOpen e s)
def execLadderAttempt (e : Eng) (angle : Fin 3600) (first : ClAddr) (s : State) : Outcome := settled (ladderAttemptOp e angle.val first s)
def execLadderSkip (e : Eng) (c : ClAddr) (s : State) : Outcome := settled (ladderSkipOp e c s)
def execLoopNop (e : Eng) (s : State) : Outcome := settled (loopNopOp e s)
def execFocusSearch (e : Eng) (arg : Int) (found lost : Bool) (s : State) : Outcome := settled (focusSearchOp e arg found lost s)
def execTrackOn (e : Eng) (loss : Option LoopLoss) (s : State) : Outcome := settled (trackOnOp e loss s)
def execTrackOff (e : Eng) (s : State) : Outcome := settled (trackOffOp e s)
def execJump (e : Eng) (n : Int) (loss : Option LoopLoss) (s : State) : Outcome := settled (jumpOp e n loss s)
def execLayerJump (e : Eng) (n : Int) (found : Bool) (s : State) : Outcome := settled (layerJumpOp e n found s)
def execRetract (e : Eng) (s : State) : Outcome := settled (loopRetract e s)
def execLoopCmdTimeout (e : Eng) (s : State) : Outcome := settled (loopTimeout e s)
/-- FOCUS_LOST: only while the program has focus (R208). -/
def execFocusLost (e : Eng) (s : State) : Outcome :=
  settled (if loopSt s e = 2 ∨ loopSt s e = 3 ∨ loopSt s e = 4 ∨ loopSt s e = 7 then focusLostOp e 3 s else s)
/-- TRACK_LOST: only in TRACK_ON (R208). -/
def execTrackLost (e : Eng) (s : State) : Outcome := settled (if loopSt s e = 3 then trackLostOp e s else s)
/-- STALE_TICKS_FAULT: eight stale ticks in a row while a program runs the loops (R208). -/
def execStaleTicksFault (e : Eng) (s : State) : Outcome :=
  settled (if s.isSet (ANV_STAT.RUNNING e) && loopSt s e != 0 && loopSt s e != 6 then focusLostOp e 2 s else s)
def execLongSeek (e : Eng) (target : ClAddr) (mean : BitVec 24) (reads : List ClAddr) (s : State) : Outcome :=
  settled (longSeekOp e target mean reads s)
def execSledPositionRecover (e : Eng) (homed : Bool) (address : Option (ClAddr × BitVec 24)) (s : State) : Outcome := settled (sledRecover e homed address s)
def execAnvWait (e : Eng) (t : BitVec 11) (s : State) : Outcome := settled (anvWaitOp e t s)
def execIllegalInstruction (e : Eng) (w : Word) (s : State) : Outcome := settled (illegalOp e w s)
def execAnvSatTrip (e : Eng) (s : State) : Outcome := settled (satTripOp e s)
def execServoSetReceived (e : Eng) (blocks : List (LinkBlock × Bool)) (offset : Int) (s : State) : Outcome := settled (servoSet e blocks offset s)
/-- ANV_TICK_STALE: no set by P + 16 (R174). -/
def execAnvTickStale (e : Eng) (s : State) : Outcome := settled (tickDue e true 0 s)
/-- ANV_OVERRUN: a tick start falls due before WAIT; it cannot while the program waits or stands (R176). -/
def execAnvOverrun (e : Eng) (s : State) : Outcome :=
  settled (if s.isSet (ANV_STAT.RUNNING e) && !s.eng[e].anv.waiting then tickDue e false 0 s else s)
def execAnvNop (e : Eng) (s : State) : Outcome := settled (anvStep e false id s)
def execAnvMpy (e : Eng) (d : Fin 4) (x y : BitVec 12) (s : State) : Outcome := settled (anvStep e false (accProduct e d x y 0) s)
def execAnvMac (e : Eng) (d : Fin 4) (x y : BitVec 12) (s : State) : Outcome := settled (anvStep e false (accProduct e d x y 1) s)
def execAnvMsu (e : Eng) (d : Fin 4) (x y : BitVec 12) (s : State) : Outcome := settled (anvStep e false (accProduct e d x y (-1)) s)
def execAnvLda (e : Eng) (d : Fin 4) (x : BitVec 12) (s : State) : Outcome := settled (anvStep e false (accLoad e d x 0) s)
def execAnvAdd (e : Eng) (d : Fin 4) (x : BitVec 12) (s : State) : Outcome := settled (anvStep e false (accLoad e d x 1) s)
def execAnvSub (e : Eng) (d : Fin 4) (x : BitVec 12) (s : State) : Outcome := settled (anvStep e false (accLoad e d x (-1)) s)
def execAnvSt (e : Eng) (d : Fin 4) (x : BitVec 12) (s : State) : Outcome := settled (anvStep e (opIsPort x) (accStore e d x) s)
def execAnvInt (e : Eng) (d : Fin 4) (x : BitVec 12) (q : Fin 8) (s : State) : Outcome :=
  settled (anvStep e (opIsPort x) (accIntegrate e d x q) s)
def execAnvOut (e : Eng) (d : Fin 4) (q : Fin 8) (s : State) : Outcome := settled (anvStep e false (portOut e d q) s)
def execAnvExa (e : Eng) (k : Fin 16) (d : Fin 4) (s : State) : Outcome := settled (anvStep e false (expFromAcc e k d) s)
/-- SHF: by 2^s, rounded or saturated; AE unchanged (R185). -/
def execAnvShf (e : Eng) (d : Fin 4) (n : BitVec 6) (s : State) : Outcome :=
  settled (anvStep e false (fun s => accSet e d (scale2 (accOf s e d).a n.toInt) (accOf s e d).ae s) s)
/-- ACC: Ad += As aligned to Ad's AE (R180). -/
def execAnvAcc (e : Eng) (d a : Fin 4) (s : State) : Outcome :=
  settled (anvStep e false (fun s =>
    accSet e d ((accOf s e d).a + scale2 (accOf s e a).a ((accOf s e a).ae - (accOf s e d).ae)) (accOf s e d).ae s) s)
/-- MOVA: Ad := As with its AE (R185). -/
def execAnvMova (e : Eng) (d a : Fin 4) (s : State) : Outcome :=
  settled (anvStep e false (fun s => accSet e d (accOf s e a).a (accOf s e a).ae s) s)
def execAnvClr (e : Eng) (d : Fin 4) (s : State) : Outcome := settled (anvStep e false (accSet e d 0 0) s)
/-- LDK: v x 2^25 with AE = 0 (R185). -/
def execAnvLdk (e : Eng) (d : Fin 4) (v : BitVec 16) (s : State) : Outcome := settled (anvStep e false (accSet e d (v.toInt * 2 ^ 25) 0) s)
def execAnvLdx (e : Eng) (k : Fin 16) (v : BitVec 5) (s : State) : Outcome := settled (anvStep e false (expSet e k v.toInt) s)
def execAnvAdx (e : Eng) (k : Fin 16) (v : BitVec 5) (s : State) : Outcome :=
  settled (anvStep e false (fun s => expSet e k (anvX s e k.val + v.toInt) s) s)
def execAnvLdi (e : Eng) (i : Fin 4) (v : BitVec 11) (s : State) : Outcome :=
  settled (anvStep e false (fun s => s.modAnv e fun n => { n with ix := n.ix.set i v }) s)
def execAnvAdi (e : Eng) (i : Fin 4) (v : BitVec 11) (s : State) : Outcome :=
  settled (anvStep e false (fun s => s.modAnv e fun n => { n with ix := n.ix.set i (n.ix[i] + v) }) s)
/-- LDIM: bits [10:0] of m(x); the loaded value stands after a post-increment of the same register (R185, log 22). -/
def execAnvLdim (e : Eng) (i : Fin 4) (x : BitVec 12) (s : State) : Outcome :=
  settled (anvStep e false (fun s =>
    let v := BitVec.ofInt 11 (opMant s e x)
    (opBump e x s).modAnv e fun n => { n with ix := n.ix.set i v }) s)
/-- MOV: the raw mantissa (R185). -/
def execAnvMov (e : Eng) (x y : BitVec 12) (s : State) : Outcome :=
  settled (anvStep e (opIsPort y) (fun s =>
    match opAddr s e y with
    | some a => opBump e y (opBump e x (dmStore e a (opMant s e x) false s))
    | none => s) s)
def execAnvRsc (e : Eng) (x : BitVec 12) (n : BitVec 7) (k : BitVec 4) (s : State) : Outcome :=
  settled (anvIssue e true (opIsPort x) (rscCount n + 1) (pcNext s e) (rescale e x n k) s)
def execAnvRpt (e : Eng) (n : BitVec 8) (s : State) : Outcome := settled (rptSet e n s)
def execAnvBr (e : Eng) (c : BitVec 6) (t : BitVec 11) (s : State) : Outcome :=
  settled (anvIssue e true false 1 (if anvCond s e c then t.toNat else pcNext s e) id s)
def execAnvBrn (e : Eng) (c : BitVec 6) (t : BitVec 11) (s : State) : Outcome :=
  settled (anvIssue e true false 1 (if anvCond s e c then pcNext s e else t.toNat) id s)
def execAnvRinit (e : Eng) (m : BitVec 8) (s : State) : Outcome := settled (anvStep e false (rampInitMask e m) s)

end Sys2Proof.Machine
end

