-- ==== Sys2Proof/Machine/Quench.lean ====
section
/-! DEFINITION. Power failure and the resets: stopping lasers and motors, Quench, what each reset clears, and the events that
start one (R324-R329, R450, R458-R464, R488). -/
namespace Sys2Proof.Machine

def engs : List Eng := List.finRange 8

/-- LPW SUB 0x1 on every link (R52). -/
def lasersOff (s : State) : State := engs.foldl (fun (s : State) (e : Eng) => laserOff e s) s
/-- Every axis stops as under ESTOP (R239). -/
def axesOff (s : State) : State := (List.finRange 4).foldl (fun (s : State) (a : Fin 4) => axEstop a s) s
/-- Every spindle coasts (R225). -/
def spinOff (s : State) : State := engs.foldl (fun (s : State) (e : Eng) => spnCoastOp e s) s
/-- Every moving sled stops as under STOP (R234). -/
def sledsOff (s : State) : State :=
  engs.foldl (fun (s : State) (e : Eng) => if s.isSet (SLD_STAT.MOVING e) || s.isSet (SLD_STAT.HOMING e) then sldStop e s else s) s
/-- An exchange that is interrupted leaves its discs' location unknown (R492). -/
def exchangeLost (s : State) : State :=
  (s.arm.exchange.filter fun x => decide (s.us < x.2)).foldl (fun (s : State) x => s.modDisc x.1 fun i => { i with loc := .unknown })
    (s.modArm fun a => { a with exchange := [] })

/-- Lasers and motors stop, and with the axes an exchange (R326, R488, R492). -/
def motorsOff (s : State) : State := sledsOff (axesOff (spinOff (lasersOff (exchangeLost s))))
/-- Write and OPC runs abort with the laser off (R139). -/
def writesOff (s : State) : State := engs.foldl (fun (s : State) (e : Eng) => wrAbort e true s) s

/-! ### Quench -/

/-- A record is taken as written to every usable mirror (R326). -/
def JRec.onAll (s : State) (r : JRec) : JRec := { r with onA := r.onA || mirOk s false, onB := r.onB || mirOk s true }

/-- Every sealed record is committed (R326). -/
def tailCommit (s : State) : State :=
  if refusing s then s else commitAll (s.modJrn fun j => { j with recs := j.recs.map (JRec.onAll s) })

/-- A record of the part's own, committed at once (R326, R338). -/
def ownRecord (b : JBody) (s : State) : State := if refusing s then s else tailCommit (sealNow b false [] s)

/-- Mirrors that fail. -/
def mirrorsFail (failed : BitVec 2) (s : State) : State :=
  let s := if failed.getLsbD 0 then mirrorFailOp false s else s
  if failed.getLsbD 1 then mirrorFailOp true s else s

/-- The journal tail as Quench commits it: what waits to be sealed is discarded, what is sealed is committed (R326). -/
def quenchTail (s : State) : State := tailCommit (s.modJrn fun j => { j with wait1 := [], wait2 := [] })

/-- RTC seconds. -/
def rtcSec (s : State) : Nat := s.pw.rtc / 32768

/-- The Hearth PFAIL latch: VALID, the DONE bits, BROWNOUT, the duration in 10 us (R450). -/
def latchBits (a b : Bool) (dur : Nat) : BitVec 20 :=
  BitVec.ofNat 20 (1 + a.toNat * 2 + b.toNat * 4 + min 65535 dur * 16)

/-- The QUENCH record and the superblocks; the answer says on which mirrors all was written (R326, R330). -/
def quenchRecord (s : State) : State × Bool × Bool :=
  if refusing s then (s, false, false)
  else
    let bytes := uncommitted s
    let s := sbWrite (ownRecord (.quench (rtcSec s) bytes) (quenchTail s))
    (s, mirOk s false, mirOk s true)

def pwOf (f : PwrInt → PwrInt) (s : State) : State := { s with pw := f s.pw }

/-- QUENCH (R326): in operation the whole of it; in STANDBY the latch takes the standby copy (R455); before READY boot stops
where it stands and nothing is committed (R329). -/
def quench (failed : BitVec 2) (dur : Nat) (s : State) : State :=
  let s := { s with sec := { s.sec with hand := none } }
  if s.pw.life = .running then
    if s.get PWR_STATE.STATE = 2 then
      pwOf (fun p => { p with latch := latchBits (p.stbyDone.getLsbD 0) (p.stbyDone.getLsbD 1) dur, life := .quenched }) s
    else
      let s := writesOff (motorsOff s)
      let s := mirrorsFail failed { s with notes := [] }
      let z := quenchRecord s
      pwOf (fun p => { p with latch := latchBits z.2.1 z.2.2 dur, life := .quenched }) { z.1 with notes := [] }
  else pwOf (fun p => { p with latch := latchBits false false dur, life := .stopped }) s

/-- PFAIL_LATCH: PFAIL_N latches once; while boot holds for PFAIL_N, it is low already (R325, R329, log 32). -/
def pfailOp (failed : BitVec 2) (dur : Nat) (s : State) : State :=
  if s.pw.pfail || s.pw.life == .hold || s.pw.life == .reset then s
  else quench failed dur (pwOf (fun p => { p with pfail := true }) s)

/-! ### Resets (R459-R464) -/

/-- A reset keeps a field: Hearth fields but at VDD_AON power-up, RWS fields over a warm reset (R460). -/
def keepsField (aon warm : Bool) (f : FldInfo) : Bool := (f.hearth && !aon) || (f.ty == .rws && warm)

/-- A register's value after a reset. -/
def regAfter (aon warm : Bool) (r : Reg) (v : Word) : Word :=
  match r.info with
  | some t => t.fields.foldl (fun w f => if keepsField aon warm f then Fld.into ⟨r, f.lo, f.w⟩ w (Fld.of ⟨r, f.lo, f.w⟩ v) else w) r.reset
  | none => r.reset

/-- All registers after a reset. -/
def regsAfter (aon warm : Bool) (m : List (Reg × Word)) : List (Reg × Word) :=
  m.foldl (fun t x => Cells.set Reg.lt Reg.reset t x.1 (regAfter aon warm x.1 x.2)) []

/-- What of a disc is kept: its zone bounds and where it lies; Patina comes back from its record (R253, R496). -/
def discAfter (x : Nat × DiscInt) : Nat × DiscInt := (x.1, { zone := x.2.zone, radii := x.2.radii, loc := x.2.loc })

/-- What the mirrors, the NAND and the ring hold after a reset: records that reached a mirror (R324, R339). -/
def jrnAfter (j : JrnInt) : JrnInt :=
  let lost := j.recs.find? fun r => !(r.onA || r.onB)
  { mir := j.mir, nand := j.nand, cap := j.cap, bcrCap := j.bcrCap, jid := j.jid, cseq := j.cseq
    recs := (j.shelf ++ j.recs.filter fun r => r.onA || r.onB).map fun r => { r with owner := [], retired := false, asked := false }
    next := (lost.map JRec.seq).getD j.next
    tail := (lost.map JRec.ofs).getD j.tail }

/-- What Armature's stores hold after a reset: the media, and what its records will give back (R302, R306, R495). -/
def armAfter (a : ArmInt) : ArmInt :=
  { discs := a.discs.map discAfter, hdrs := a.hdrs, media := a.media, groupSeq := a.groupSeq, rebuilds := a.rebuilds
    reshapes := a.reshapes, todo := a.todo, incons := a.incons, initB := a.initB }

/-- RESET: `aon` at VDD_AON power-up, `warm` for a warm reset, else a power-on reset. Drivers lose their power (R235); DDR4,
queues, keys and every volatile store are lost; MRAM, NAND, NOR, fuses, media and Hearth stay (R460). The event log and its
clock start anew at a power-on reset; a warm reset loses the entries only (R397). -/
def resetTo (aon warm : Bool) (cause : Nat) (s : State) : State :=
  let s := engs.foldl (fun (s : State) (e : Eng) => sldPowerLoss e s) (exchangeLost s)
  let t : State := {
    pending := s.pending
    regs := regsAfter aon warm s.regs
    us := if warm then s.us else 0
    evSeq := if warm then s.evSeq else 0
    encOffs := s.encOffs
    fresh := s.fresh
    jrn := jrnAfter s.jrn
    arm := armAfter s.arm
    sec := { blown := s.sec.blown, nor := s.sec.nor }
    pw := if aon then {} else { rtc := s.pw.rtc, latch := s.pw.latch, bootCnt := s.pw.bootCnt, xtalFail := s.pw.xtalFail, hotOut := s.pw.hotOut }
    out := s.out }
  t.put PWR_RST.LAST_CAUSE cause

/-- POR: takes effect in every state, and a failed crystal shows as STALL (R325, R451, R459, R461). -/
def porOp (s : State) : State := (resetTo false false 1 s).putBool PWR_RTC_HI.STALL s.pw.xtalFail

/-- VDD_AON power-up: Hearth is cleared as well (R459, R460). -/
def aonOp (s : State) : State := resetTo true false 0 s

/-- A warm reset is dropped while PFAIL_N is latched (R461). -/
def warmOp (cause : Nat) (s : State) : State := if s.pw.pfail || s.pw.life == .reset then s else resetTo false true cause s

/-- WARM_RESET: SW_CAUSE 2, 4 or 5, others taken as 2 (R459, R467). -/
def warmCause (c : Nat) : Nat := if c = 4 ∨ c = 5 then c else 2

/-- BROWNOUT_RETURN: PFAIL_N high for 10 ms after Quench: the latch is cleared and a warm reset follows (R328). -/
def brownout (s : State) : State :=
  if s.pw.pfail then
    resetTo false true 3 (pwOf (fun p => { p with pfail := false, latch := p.latch ||| 0x8#20 }) s)
  else s

/-- Firmware structures are poisoned, or an activation is aborted: the tail is committed as in Quench, without the latch, and
a warm reset follows (R403, R446). -/
def tailReset (cause : Nat) (s : State) : State :=
  if s.pw.pfail || s.pw.life != .running then s else resetTo false true cause (quenchRecord { s with notes := [] }).1

/-- WATCHDOG_EXPIRE: a warm reset with cause 6; none while disabled or while PFAIL_N is latched (R464). -/
def watchdogOp (s : State) : State := if s.isSet PWR_WDT.EN then warmOp 6 s else s

def execPfailLatch (failed : BitVec 2) (dur : Nat) (s : State) : Outcome := settled (pfailOp failed dur s)
def execBrownoutReturn (s : State) : Outcome := settled (brownout s)
def execPor (s : State) : Outcome := settled (porOp s)
/-- PG_FALL: POR at once, without Quench (R462). -/
def execPgFall (s : State) : Outcome := settled (porOp s)
def execVddAonPowerUp (s : State) : Outcome := settled (aonOp s)
def execWarmReset (cause : Nat) (s : State) : Outcome := settled (warmOp (warmCause cause) s)
def execWatchdogExpire (s : State) : Outcome := settled (watchdogOp s)
/-- WDT_KICK: the count restarts (R464). -/
def wdtRestart (s : State) : State := pwOf (fun p => { p with wdtUs := 0 }) s
def execWdtKick (s : State) : Outcome := ok (wdtRestart s)

end Sys2Proof.Machine
end

