-- ==== Sys2Proof/Machine/Boot.lean ====
section
/-! DEFINITION. Boot: choice and check of the firmware image, DDR4 training and repairs, the Plinth restore, key slots, the
journal's mirrors and replay, the map, and READY (R331, R332, R335, R338-R342, R400, R404, R428-R431, R440-R442, R463). -/
namespace Sys2Proof.Machine

/-! ### Firmware image (R440-R442) -/

/-- The count of blown SVN fuses (R441). -/
def fuseSvn (f : Fuses) : Nat := popcount 32 f.svn.toNat

/-- The board configuration record verifies: by the owner's key where OWNER_HASH is programmed, else by Beyfoar's (R440). -/
def bcrOk (f : Fuses) (b : Bcr) : Bool := if f.ownerLock then b.owner == f.ownerHash && b.osigOwner else b.osigVendor

/-- IMAGE_VERIFY: a slot is valid (R441). -/
def imgOk (f : Fuses) (i : Img) : Bool :=
  i.magic && !f.revoke.getLsbD i.keyIdx.val && i.sig && bcrOk f i.bcr && decide (fuseSvn f ≤ i.svn) && decide (i.bodyLen ≤ 20967424) && i.hash

/-- What a slot of the boot NOR holds: what the part wrote there, else what it came with (log 34). -/
def norSlot (s : State) (nor : Vector (Option Img) 2) (i : Fin 2) : Option Img := (s.sec.nor.getD nor)[i]

def slotOk (s : State) (nor : Vector (Option Img) 2) (i : Fin 2) : Bool := (norSlot s nor i).any (imgOk s.sec.fuse)

def slotSeq (s : State) (nor : Vector (Option Img) 2) (i : Fin 2) : Nat := ((norSlot s nor i).map Img.actSeq).getD 0

/-- The preferred slot: the valid one with the higher ACT_SEQ, slot 0 when they are equal (R442). -/
def slotPreferred (s : State) (nor : Vector (Option Img) 2) : Fin 2 :=
  if slotOk s nor 0 && slotOk s nor 1 then (if slotSeq s nor 0 < slotSeq s nor 1 then 1 else 0)
  else if slotOk s nor 1 then 1 else 0

/-- The slot the ROM boots: the preferred one first when the boot counter mod 6 is 1, 2 or 3, else the other one; one that
fails is passed over (R442). -/
def slotBooted (s : State) (nor : Vector (Option Img) 2) : Option (Fin 2) :=
  let p := slotPreferred s nor
  let c := s.pw.bootCnt.toNat % 6
  let first := if c = 1 ∨ c = 2 ∨ c = 3 then p else 1 - p
  if slotOk s nor first then some first else if slotOk s nor (1 - first) then some (1 - first) else none

/-- The board configuration record is applied; the pins of fitted axes are fixed (R440, R472). -/
def bcrApply (b : Bcr) (s : State) : State :=
  let s := { s with sec := { s.sec with bcr := some b } }
  let s := s.modJrn fun j => { j with bcrCap := b.mram }
  let s := (s.put GLB_DDR_CFG.CAP b.gib).putBool GLB_DDR_CFG.RANKS b.ranks2
  (List.finRange 8).foldl (fun (s : State) (g : Fin 8) => if b.axes.getLsbD (g.val / 2) then s.put (CLAIM_RES.OWNER g) 0x3E else s) s

/-! ### Plinth (R335) -/

/-- A mirror's device can be used: it answers, and its capacity is in range, not below the record's, and holds the recorded
CAP (R332). -/
def mirUsable (s : State) (b : Bool) (seen : MirrorSeen) : Bool :=
  match seen with
  | none => false
  | some c => decide (2 ≤ c) && decide (c ≤ 16) && decide (s.jrn.bcrCap ≤ c) &&
      (match s.jrn.mir[mirIx b].sb with
        | some x => decide (x.cap ≤ c)
        | none => true)

/-- Where the Plinth that stands comes from. -/
inductive PlSource | mram (i : Fin 2) | nand | none
deriving DecidableEq, Repr

/-- The better of two candidates, with the place of each. -/
def plBetter (a b : Option (PlCopy × Fin 2)) : Option (PlCopy × Fin 2) :=
  match a, b with
  | some x, some y => if x.1.gen < y.1.gen then some y else some x
  | some x, none => some x
  | none, y => y

/-- The highest PL_GEN in a superblock of the usable mirrors. -/
def plHighest (s : State) (ua ub : Bool) : Nat :=
  let g (b u : Bool) : Nat := if u then (s.jrn.mir[mirIx b].sb.map Super.plGen).getD 0 else 0
  max (g false ua) (g true ub)

/-- The Plinth copy that stands (R335). -/
def plinthPick (s : State) (ua ub nandBad : Bool) : Option PlCopy × PlSource :=
  let top := plHighest s ua ub
  let cand (b u : Bool) (i : Fin 2) : Option (PlCopy × Fin 2) :=
    if u then (s.jrn.mir[mirIx b].pl[i]).bind fun c => if c.gen ≤ top then some (c, i) else none else none
  match plBetter (plBetter (cand false ua 0) (cand false ua 1)) (plBetter (cand true ub 0) (cand true ub 1)) with
  | some x => (some x.1, .mram x.2)
  | none => match if nandBad then none else s.jrn.nand.pl with
    | some c => (some c, .nand)
    | none => (none, .none)

/-- The highest generation seen anywhere (R334). -/
def plSeen (s : State) (ua ub : Bool) : Nat :=
  let g (b u : Bool) (i : Fin 2) : Nat := if u then ((s.jrn.mir[mirIx b].pl[i]).map PlCopy.gen).getD 0 else 0
  max (plHighest s ua ub) (max (max (g false ua 0) (g false ua 1)) (max (g true ub 0) (g true ub 1)))

/-- The Plinth restore. Each usable mirror gets the copy that stands in its active place (R335). -/
def plinthRestore (ua ub nandBad : Bool) (s : State) : State :=
  let z := plinthPick s ua ub nandBad
  let s := s.modJrn fun j => { j with ents := (z.1.map PlCopy.ents).getD [], plHigh := plSeen s ua ub }
  let s := s.put GLB_PL_GEN.GEN ((z.1.map PlCopy.gen).getD 0)
  let s := match z.2 with
    | .mram i =>
      let put (b u : Bool) (s : State) : State := if u then s.modMir b fun m => { m with pl := m.pl.setIfInBounds i.val z.1 } else s
      (put true ub (put false ua s)).put GLB_JNL_STAT.PL_ACTIVE i.val
    | .nand => s.put GLB_BOOT.PL_FALLBACK 1
    | .none => (s.put GLB_BOOT.PL_DEFAULT 1).logEvent .plinthDefault []
  let hours := match s.jrn.ents.find? fun x => x.1 = 0x0341 with
    | some x => leNum x.2
    | none => 0
  (s.modArm fun a => { a with hours := hours }).put GLB_BOOT.PHASE 2

/-! ### DDR4 repairs (R404) -/

/-- Rows of a repair list in a Plinth copy. -/
def repairRows (ents : List (Nat × List Byte)) : List Nat := (ents.filter fun x => repairIds.contains x.1).map fun x => leNum x.2

/-- The address of a row's block. -/
def rowAddr (k : Nat) : Nat := (k / 4) * 2 ^ 15 + (k % 4) * 2 ^ 8

/-- hPPR of the listed rows, one for each rank and bank group; the blocks of the others stay in quarantine. -/
def ddrRepair (rows : List Nat) (s : State) : State :=
  let unit (k : Nat) : List Nat := (rowOf s (rowAddr k)).take 2
  let done := if s.isSet GLB_DDR_CFG.PPR_EN then
      rows.foldl (fun (ds : List Nat) k => if ds.any fun d => unit d == unit k then ds else ds ++ [k]) [] else []
  let left := rows.filter fun k => !done.contains k
  let bad := (left.map fun k => rowAddr k / 131072).eraseDups
  let rank (r : Nat) : Nat := (done.filter fun k => (unit k).head? = some r).length
  let spare := if left.isEmpty then 4 - max (rank 0) (rank 1) else 0
  let s := ((s.put GLB_DDR_STAT.PPR_DONE done.length).put GLB_DDR_STAT.PPR_LEFT spare).put GLB_DDR_STAT.RETIRED (min 255 bad.length)
  { s with mem := { s.mem with badBlocks := bad } }

/-- The soft repair list of SRAM rows in Plinth (R407). -/
def softIds : List Nat := (List.range 32).map (· + 0x0220)

/-- Its rows, as macro + 512 x row. -/
def softRows (ents : List (Nat × List Byte)) : List Nat := (ents.filter fun x => softIds.contains x.1).map fun x => leNum x.2

/-- The ROM switches the soft repairs in; a macro with four has no spare left (R407). -/
def softRepair (ents : List (Nat × List Byte)) (s : State) : State :=
  let ms := (softRows ents).map fun k => k % 512
  if ms.any fun m => 4 ≤ (ms.filter fun x => x = m).length then s.put GLB_SRAM_STAT.SPARE_OUT 1 else s

/-! ### Keys (R428-R433) -/

/-- GLB_KEY_MAP shows the loaded slots (R448). -/
def keysShow (s : State) : State :=
  let ks := s.sec.keys.map Prod.fst ++ (if s.sec.mapKey.isSome then [60] else [])
  let word (i : Nat) : Word := ks.foldl (fun w k => if k / 32 = i then setBit w (k % 32) true else w) 0#32
  (s.wr GLB_KEY_MAP0.reg (word 0)).wr GLB_KEY_MAP1.reg (word 1)

/-- KEY_BUS_WRITE: SEC writes or empties a slot (R433). -/
def keySet (slot : Nat) (k : Option (BitVec 512)) (s : State) : State :=
  let rest := s.sec.keys.filter fun x => x.1 != slot
  keysShow { s with sec := { s.sec with keys := match k with
    | some v => Cells.insert Cells.natLt slot v rest
    | none => rest } }

/-- Every slot is cleared (R433). -/
def keysClear (s : State) : State := keysShow { s with sec := { s.sec with keys := [], mapKey := none } }

/-- The root key SEC runs with: zero while DRK_LOCK is intact (R428). -/
def rootKey (s : State) : BitVec 256 := if s.sec.fuse.drkLock then s.sec.fuse.drk else 0#256

/-- SEC writes a restored key to its slot; an entry that does not unwrap is logged and its slot stays empty (R431). -/
def keyRestore (slot : Nat) (k : Option (BitVec 512)) (s : State) : State :=
  match k with
  | some k => keySet slot (some k) s
  | none => s.logEvent .keyRestoreFail [slot]

/-- SEC derives slot 60 and unwraps every stored entry (R430, R431). -/
def keysLoad (s : State) : State :=
  let s := keysShow { s with sec := { s.sec with mapKey := some (mapRecordKey (rootKey s)) } }
  (List.range 60).foldl (fun (s : State) i =>
    match s.jrn.ents.find? fun x => x.1 = 0x0300 + i with
    | none => s
    | some x => keyRestore i (kwUnwrap (rootKey s) (BitVec.ofNat 576 (leNum x.2))) s) s

/-! ### The journal (R331, R332, R339) -/

/-- The journal that stands: mirror A or B, the newer form first (R331, R332). -/
def journalOn (s : State) (b u : Bool) : Bool := u && (s.jrn.mir[mirIx b].sb.map Super.jid) == some s.jrn.jid && s.jrn.cap != 0

/-- The journal after the mirrors are known: what a standing mirror holds, else the other one's journal with an empty ring, else
a new one at the BCR capacity. -/
def journalTake (ua ub : Bool) (s : State) : State :=
  let oa := journalOn s false ua
  let ob := journalOn s true ub
  if oa || ob then
    s.modJrn fun j =>
      let has (r : JRec) : Bool := (oa && r.onA) || (ob && r.onB)
      let lost := j.recs.find? fun r => !has r
      { j with
        recs := j.recs.takeWhile has
        next := (lost.map JRec.seq).getD j.next
        tail := (lost.map JRec.ofs).getD j.tail }
  else
    match (if ua then s.jrn.mir[mirIx false].sb else none), (if ub then s.jrn.mir[mirIx true].sb else none) with
    | none, none => s.modJrn fun j => { j with recs := [], tail := 0, cap := j.bcrCap, jid := j.jid + 1, next := seqSkip (max j.next (j.nand.seqC + 1)) }
    | some x, none => s.modJrn fun j => { j with recs := [], tail := x.headOfs, cap := x.cap, jid := x.jid }
    | none, some x => s.modJrn fun j => { j with recs := [], tail := x.headOfs, cap := x.cap, jid := x.jid }
    | some x, some y =>
      let z := if x.headSeq < y.headSeq then y else x
      s.modJrn fun j => { j with recs := [], tail := z.headOfs, cap := z.cap, jid := z.jid }

/-- RESILVER: records that a mirror lacks are copied to it; a mirror without the journal is formatted with it (R331, R339). A
device too small for the standing CAP fails (R332). -/
def resilver (a b : MirrorSeen) (ua ub : Bool) (s : State) : State :=
  let old := (journalOn s false ua, journalOn s true ub)
  let s := if ua || ub then journalTake ua ub s else s.modJrn fun j => { j with recs := [], shelf := j.recs }
  let fits (u : Bool) (x : MirrorSeen) : Bool := u && x.any fun c => decide (s.jrn.cap ≤ c)
  let ua := fits ua a
  let ub := fits ub b
  let s := (s.putBool GLB_JNL_STAT.MRAM_A ua).putBool GLB_JNL_STAT.MRAM_B ub
  let s := s.modJrn fun j => { j with
    recs := j.recs.map fun r => { r with
      onA := r.onA || ua, onB := r.onB || ub
      retired := j.recs.any fun x => match x.body with
        | .retire ss => ss.contains r.seq
        | .data .. | .map .. | .dirty _ | .checkpoint .. | .loss .. | .mapckpt .. | .quench .. | .boot .. | .pad _ => false }
    cseq := (j.recs.getLast?.map JRec.seq).getD j.cseq
    ckptC := j.recs.foldl (fun c x => match x.body with
      | .mapckpt _ n => max c n
      | .data .. | .map .. | .dirty _ | .retire _ | .checkpoint .. | .loss .. | .quench .. | .boot .. | .pad _ => c) 0 }
  let s := (s.put GLB_JNL_CSEQ_LO.CSEQ s.jrn.cseq).put GLB_JNL_CSEQ_HI.CSEQ (s.jrn.cseq / 2 ^ 32)
  let s := if (old.1 || old.2) && ((ua && !old.1) || (ub && !old.2)) then s.put GLB_BOOT.RESILVER 1 else s
  if ua && ub then s.put GLB_JNL_STAT.STATE jnlNormal
  else if ua || ub then (s.put GLB_JNL_STAT.STATE jnlDegraded).logEvent .journalDegraded [if ua then 1 else 0]
  else (s.put GLB_JNL_STAT.STATE jnlRefusing).logEvent .journalRefusing []

/-- A rebuild goes on from its last checkpoint; one whose first checkpoint was not committed chooses its target again (R302). -/
def rebuildAfter (r : Rebuild) : Rebuild :=
  if r.chosen && r.st != 0 then { r with b := r.ckpt, st := 1 } else { r with chosen := false, st := 0, b := 0, ckpt := 0 }

/-- JOURNAL_REPLAY: the map of the newest anchor with every later record applied; what the records carry on (R338-R340). -/
def replay (nandBad : Bool) (s : State) : State :=
  let rs := s.jrn.recs
  let base := if nandBad then {} else s.jrn.nand.anchor.getD {}
  let img := (rs.filter fun r => s.jrn.nand.seqC < r.seq).foldl (fun (m : MapImg) r => m.take r.seq r.body) base
  let s := s.modArm fun a => { a with
    map := img, gens := ((rs.flatMap fun r => bodyPages r.body).filter (71 ≤ ·)).eraseDups
    resync := img.dirty.map fun d => (d.run, d.g, d.j)
    discs := a.discs.map fun x =>
      let r := img.disc x.1
      (x.1, { x.2 with mL := r.get (Dsc.PAT 0), mB := r.get (Dsc.PAT 1), q := r.get (Dsc.PAT 2), prev := r.get (Dsc.PAT 3), fresh := r.get (Dsc.PAT 3) == 0x10000 }) }
  let s := s.modJrn fun j => { j with
    changed := ((rs.filter fun r => j.nand.seqC < r.seq).flatMap fun r => bodyPages r.body).eraseDups }
  let s := rs.foldl (fun (s : State) r =>
    match r.body with
    | .checkpoint run kind b => takeCkpt run kind b (hdrAdd r.seq r.body s)
    | .map .. | .loss .. => hdrAdd r.seq r.body s
    | .data .. | .dirty _ | .retire _ | .mapckpt .. | .quench .. | .boot .. | .pad _ => s) s
  let s := s.modArm fun a => { a with
    rebuilds := (a.rebuilds.filter fun r => (a.map.run r.run).get Run.STATE == 3).map rebuildAfter
    reshapes := a.reshapes.map fun r => { r with live := r.ckpt } }
  jnlShow s

/-- MAP_SCAN (R340). -/
def mapScanSet (nandBad : Bool) (gap : Option (Nat × Nat)) (s : State) : State :=
  let scan := nandBad || s.jrn.nand.anchor.isNone || refusing s || gap.isSome
  let s := if scan then (s.put GLB_BOOT.MAP_SCAN 1).put CQI_STAT.MAP_SCAN 1 else s
  match gap with
  | some g => (s.put GLB_BOOT.GAP 1).logEvent .mapScan [g.1, g.2]
  | none => s

/-- READY: the boot counter clears, BME_WAIT shows Bus Master Enable (R346), SVN_FLOOR rises to the running image's SVN, the host may enable queue 0 (R338, R341,
R443). -/
def bootReady (ms : Nat) (s : State) : State :=
  let svn := ((s.sec.nor.bind fun n => n[Fin.ofNat 2 (s.get GLB_BOOT.SLOT)]).map Img.svn).getD 0
  let floor := match s.jrn.ents.find? fun x => x.1 = 0x0340 with
    | some x => leNum x.2
    | none => 0
  let s := if decide (floor < svn) && !refusing s then (plinthCommit 0#2 (plPut s.jrn.ents 0x0340 (some (leBytes 4 svn))) s).1 else s
  let s := (s.put GLB_BOOT.PHASE 5).put GLB_BOOT.READY_MS (min 65535 ms)
  let s := pwOf (fun p => { p with life := .running, bootCnt := 0#4 }) s
  ((s.putBool CQI_STAT.BME_WAIT (!s.cqi.bme)).put CQI_STAT.READY 1).cqiEvent CQI_EVT.READY

/-- The Hearth PFAIL latch is copied to GLB_QUENCH (R342). -/
def quenchCopy (s : State) : State :=
  let l := s.pw.latch
  let s := ((s.putBool GLB_QUENCH.VALID (l.getLsbD 0)).putBool GLB_QUENCH.DONE_A (l.getLsbD 1)).putBool GLB_QUENCH.DONE_B (l.getLsbD 2)
  let s := (s.putBool GLB_QUENCH.BROWNOUT (l.getLsbD 3)).put GLB_QUENCH.DUR (bits l 4 16)
  pwOf (fun p => { p with latch := 0#20 }) s

/-- From the Plinth restore to READY (R338). -/
def bootRest (a b : MirrorSeen) (nandBad : Bool) (gap : Option (Nat × Nat)) (ms : Nat) (s : State) : State :=
  let ua := mirUsable s false a
  let ub := mirUsable s true b
  let s := keysLoad (plinthRestore ua ub nandBad s)
  let s := (resilver a b ua ub s).put GLB_BOOT.PHASE 3
  let s := (mapScanSet nandBad gap (replay nandBad s)).put GLB_BOOT.PHASE 4
  let s := if refusing s then s else sbWrite s
  let s := ownRecord (.boot (s.get GLB_BOOT.BOOT_CNT) (rtcSec s) (s.rd GLB_BOOT.reg).toNat) s
  let s := quenchCopy s
  let s := if s.sec.fuse.drkLock then s else s.logEvent .drkUnprovisioned []
  let s := s.logEvent .reset [s.get PWR_RST.LAST_CAUSE]
  bootReady ms s

/-- The fuses as the ROM reads them, and what GLB_SEC_STAT shows of them (R448, R481). -/
def fusesRead (s : State) : State :=
  let s := { s with sec := { s.sec with fuse := s.sec.blown } }
  ((s.putBool GLB_SEC_STAT.DRK_PROV s.sec.fuse.drkLock).putBool GLB_SEC_STAT.OWNER_SET s.sec.fuse.ownerLock).put GLB_SEC_STAT.FUSE_SVN (fuseSvn s.sec.fuse)

/-- POR_RELEASE: the boot timeline. With no valid image, or where DDR4 does not train, boot stops; with PFAIL_N low it holds
before the Plinth restore (R329, R338, R340, R400). -/
def porRelease (pfailLow : Bool) (nor : Vector (Option Img) 2) (ddrOk : Bool) (a b : MirrorSeen) (nandBad : Bool)
    (gap : Option (Nat × Nat)) (ms : Nat) (s : State) : State :=
  if s.pw.life != .reset then s
  else
    let s := pwOf (fun p => { p with bootCnt := p.bootCnt + 1#4 }) s
    let s := s.put GLB_BOOT.BOOT_CNT s.pw.bootCnt.toNat
    let s := (((s.put PWR_CLK_STAT.CORE_LOCK 1).put PWR_CLK_STAT.DDR_LOCK 1).put PWR_CLK_STAT.PCIE_LOCK 1).put PWR_CLK_STAT.REF_OK 1
    let s := s.putBool PWR_CLK_STAT.XTAL32_OK (!s.pw.xtalFail)
    let s := fusesRead (s.put ARB_STAT.MASK 0xFF)
    match slotBooted s nor with
    | none => pwOf (fun p => { p with life := .stopped }) s
    | some i =>
      match norSlot s nor i with
      | none => s
      | some img =>
        let pref := slotPreferred s nor
        let s := { s with sec := { s.sec with nor := some (s.sec.nor.getD nor), runSlot := i } }
        let s := bcrApply img.bcr s
        if !ddrOk then pwOf (fun p => { p with life := .stopped }) (s.put GLB_DDR_STAT.STATE 3)
        else
          let s := ((s.put GLB_DDR_STAT.STATE 1).put GLB_BOOT.SLOT i.val).put GLB_FW_VER.VERSION img.version.toNat
          let s := s.put GLB_BOOT.PHASE 1
          let s := if i = pref then s else s.logEvent .bootSlotFallback [i.val, s.pw.bootCnt.toNat]
          let ents := ((plinthPick s (mirUsable s false a) (mirUsable s true b) nandBad).1.map PlCopy.ents).getD []
          let s := ddrRepair (repairRows ents) (softRepair ents s)
          if pfailLow then pwOf (fun p => { p with life := .hold }) s else bootRest a b nandBad gap ms s

/-- PFAIL_HOLD_RELEASE: PFAIL_N has been high for 10 ms; boot goes on (R329). -/
def holdRelease (a b : MirrorSeen) (nandBad : Bool) (gap : Option (Nat × Nat)) (ms : Nat) (s : State) : State :=
  if s.pw.life = .hold then bootRest a b nandBad gap ms s else s

def execPorRelease (pfailLow : Bool) (nor : Vector (Option Img) 2) (ddrOk : Bool) (a b : MirrorSeen) (nandBad : Bool)
    (gap : Option (Nat × Nat)) (ms : Nat) (s : State) : Outcome := settled (porRelease pfailLow nor ddrOk a b nandBad gap ms s)
def execPfailHoldRelease (a b : MirrorSeen) (nandBad : Bool) (gap : Option (Nat × Nat)) (ms : Nat) (s : State) : Outcome :=
  settled (holdRelease a b nandBad gap ms s)

end Sys2Proof.Machine
end

