-- ==== Sys2Proof/Machine/Power.lean ====
section
/-! DEFINITION. Engine sleep and wake, standby, wake timers, clock failures, the 32 kHz crystal and the die's temperature
(R451-R458, R488). -/
namespace Sys2Proof.Machine

/-- A bit of a mask field. -/
def State.putBit (s : State) (f : Fld) (i : Nat) (v : Bool) : State :=
  s.put f ((setBit (BitVec.ofNat 32 (s.get f)) i v).toNat)

/-! ### Engine sleep (R452-R454) -/

/-- The conditions for a sleep request. -/
def sleepOk (s : State) (e : Eng) : Bool :=
  s.get (HL_STAT.STATE e) == hlOff && (s.get (SPN_STAT.STATE e) == spnOff || s.get (SPN_STAT.STATE e) == spnHalted)
    && s.isSet (SLD_STAT.PARKED e) && s.get (SEAM_STAT.STATE e) == seamIdle && s.get (WR_STAT.STATE e) == wrIdle
    && s.get (TMP_STAT.STATE e) == 0 && !s.isSet (RTY_STAT.ACTIVE e) && !s.isSet (ANV_STAT.RUNNING e)
    && (List.range 5).all fun k => !s.isSet (CH_STAT.REPLAY_BUSY e k)

/-- ASLEEP: domains gated, capture buffer lost, the arbiter masks the group, whose loss count is held at 0 (R424, R452, R453). -/
def engGate (e : Eng) (s : State) : State :=
  let s := (s.modEng e fun g => { g with cap := [] }).modAnv e fun n => { n with waiting := true }
  let s : State := { s with mem := { s.mem with losses := s.mem.losses.setIfInBounds e.val 0 } }
  ((s.put (engPower e) 0).putBit ARB_STAT.MASK e.val true).putBit PWR_CLK_STAT.ENG_LOCK e.val false

/-- PWR_ENG_SLEEP: refused in WAKING and where a condition fails; the engine waits in ENTERING_SLEEP for its WFI (R452, R454). -/
def engSleep (e : Eng) (s : State) : State :=
  if s.get (engPower e) = 0 ∨ s.get (engPower e) = 3 then s
  else if s.get (engPower e) = 1 ∨ sleepOk s e = false then s.put PWR_EVT.SLEEP_REJ 1
  else if s.eng[e].wfi then engGate e s
  else s.put (engPower e) 3

/-- ESQ<n> executes WFI (R452). -/
def engWfi (e : Eng) (s : State) : State :=
  if s.get (engPower e) = 2 then s.modEng e fun g => { g with wfi := true }
  else if s.get (engPower e) = 3 then engGate e (s.modEng e fun g => { g with wfi := true })
  else s

/-- The engine is fitted (R440). -/
def engFitted (s : State) (e : Eng) : Bool :=
  match s.sec.bcr with
  | some b => b.engines.getLsbD e.val
  | none => true

/-- PWR_ENG_WAKE: from ASLEEP to WAKING; in ENTERING_SLEEP it cancels the sleep; elsewhere nothing. An engine that is not fitted
stays asleep (R440, R454). -/
def engWake (e : Eng) (s : State) : State :=
  if s.get (engPower e) = 0 then (if engFitted s e then s.put (engPower e) 1 else s)
  else if s.get (engPower e) = 3 then (s.put (engPower e) 2).put PWR_EVT.SLEEP_CANCEL 1
  else s

/-- The engine block takes its reset values: retention was lost (R453, R458). -/
def engReset (e : Eng) (s : State) : State :=
  let mine (r : Reg) : Bool := (r.blk == .eng || r.blk == .ch || r.blk == .wob) && r.i == e.val
  let t := s.regs.foldl (fun t x => Cells.set Reg.lt Reg.reset t x.1 (if mine x.1 then regAfter false false x.1 x.2 else x.2)) []
  { s with regs := t, eng := s.eng.set e {} }

/-- ENGINE_WAKE_DONE: AWAKE 40 us after the wake; ESQ<n> resumes and enables its link (R454). -/
def engAwake (e : Eng) (s : State) : State :=
  if s.get (engPower e) ≠ 1 then s
  else
    let s := if s.eng[e].retained then s else engReset e s
    let s := s.modEng e fun g => { g with wfi := false, retained := true }
    let s := ((s.put (engPower e) 2).putBit ARB_STAT.MASK e.val false).putBit PWR_CLK_STAT.ENG_LOCK e.val true
    linkEnable e (s.putBit PWR_EVT.WAKE_DONE e.val true)

/-! ### Standby (R455, R456) -/

/-- A command is outstanding. -/
def anyCmd (s : State) : Bool := s.cqi.q.toList.any fun i => !i.cmds.isEmpty

/-- A rebuild, reshape, scrub or destage runs: scrubs are single steps of the model. -/
def bgWork (s : State) : Bool := (s.arm.rebuilds.any fun r => r.st == 1) || !s.arm.reshapes.isEmpty || !s.arm.locks.isEmpty

/-- The conditions for STANDBY. -/
def stbyOk (s : State) : Bool :=
  s.isSet PWR_STBY.EN && s.get PWR_STATE.STATE == 0 && s.pw.life == .running && !s.pw.pfail && s.cqi.d3 && !anyCmd s
    && engs.all (fun e => s.get (engPower e) == 0 && (s.get (SPN_STAT.STATE e) == spnOff || s.get (SPN_STAT.STATE e) == spnHalted) && s.isSet (SLD_STAT.PARKED e))
    && (List.finRange 4).all (fun a => axRest s a) && !bgWork s && uncommitted s == 0

/-- PLLs and crystal of the main domains. -/
def clocksSet (on : Bool) (s : State) : State :=
  (((s.putBool PWR_CLK_STAT.CORE_LOCK on).putBool PWR_CLK_STAT.DDR_LOCK on).putBool PWR_CLK_STAT.PCIE_LOCK on).putBool PWR_CLK_STAT.REF_OK on

/-- STANDBY_ENTRY (R455). -/
def stbyEnter (s : State) : State :=
  if stbyOk s then
    let z := quenchRecord s
    let s := pwOf (fun p => { p with stbyDone := BitVec.ofNat 2 (z.2.1.toNat + 2 * z.2.2.toNat) }) z.1
    keysClear (clocksSet false ((s.put GLB_DDR_STAT.STATE 2).put PWR_STATE.STATE 2))
  else s

/-- STANDBY_WAKE by a source that is enabled (R456). -/
def stbyWake (src : Nat) (s : State) : State :=
  if s.get PWR_STATE.STATE = 2 ∧ (s.get PWR_WAKE_EN.SRC).testBit src = true ∧ s.pw.life = .running then
    let s := s.put PWR_WAKE_SRC.SRC (2 ^ src)
    keysLoad (clocksSet true ((s.put GLB_DDR_STAT.STATE 1).put PWR_STATE.STATE 0))
  else s

/-- WAKE_TIMER: the low 32 bits of the RTC seconds equal PWR_TMR<i>: an event in ACTIVE, a wake source in STANDBY (R456). -/
def wakeTimer (i : Fin 2) (s : State) : State :=
  if rtcSec s % 2 ^ 32 ≠ s.get (PWR_TMR.AT i.val) then s
  else if s.get PWR_STATE.STATE = 2 then stbyWake (2 + i.val) s
  else s.putBit PWR_EVT.TIMER i.val true

/-! ### Clocks (R451, R458) -/

/-- The PLL of an engine fails: laser-off by loss of lock, coast, a moving sled LOST, asleep and out of placement, retention
lost. -/
def engClockFail (e : Eng) (s : State) : State :=
  let s := sldPowerLoss e (spnCoastOp e s)
  let s := ladderDrop e (engGate e s)
  let s := s.modEng e fun g => { g with retained := false }
  if s.eng[e].loop.down then s else note (.engineOut e) (s.modLoop e fun l => { l with down := true })

/-- CLOCK_FAILURE (R458). -/
def clockFail (c : ClockSrc) (s : State) : State :=
  let s := s.put PWR_EVT.PLL_FAIL 1
  match c with
  | .engine e => engClockFail e s
  | .pcie => s.put PWR_CLK_STAT.PCIE_LOCK 0
  | .core | .ddr | .ref => warmOp 7 (lasersOff s)

/-- XTAL32_FAIL: the time base is the standby oscillator from here on (R451, R463). -/
def xtalFailOp (s : State) : State :=
  let s := pwOf (fun p => { p with xtalFail := true }) s
  ((s.put PWR_EVT.XTAL32_FAIL 1).put PWR_CLK_STAT.XTAL32_OK 0).logEvent .xtal32Fail []

/-! ### Temperature (R488) -/

/-- GLB_TEMP takes the hottest sensor's reading, in 1/16 degree. -/
def tempShow (t : BitVec 16) (s : State) : State :=
  let s := s.putInt GLB_TEMP.TEMP t.toInt
  if s.getInt GLB_TEMP.MAX < t.toInt then s.putInt GLB_TEMP.MAX t.toInt else s

/-- THERM_WARN at 110 degrees. -/
def thermWarnOp (t : BitVec 16) (s : State) : State :=
  let s := tempShow t s
  if 1760 ≤ t.toInt then s.logEvent .thermWarn [] else s

/-- THERM_TRIP at 120 degrees: lasers off, spindles coast, sleds stop, axes stop as under ESTOP, no engine in placement. -/
def thermTripOp (t : BitVec 16) (s : State) : State :=
  let s := tempShow t s
  if 1920 ≤ t.toInt then
    (pwOf (fun p => { p with hotOut := true }) (writesOff (motorsOff s))).logEvent .thermTrip []
  else s

/-- THERM_RECOVER below 100 degrees. -/
def thermRecoverOp (t : BitVec 16) (s : State) : State :=
  let s := tempShow t s
  if t.toInt < 1600 then pwOf (fun p => { p with hotOut := false }) s else s

def execPwrEngSleep (e : Eng) (s : State) : Outcome := ok (engSleep e s)
def execEsqWfi (e : Eng) (s : State) : Outcome := ok (engWfi e s)
def execPwrEngWake (e : Eng) (s : State) : Outcome := ok (engWake e s)
def execEngineWakeDone (e : Eng) (s : State) : Outcome := settled (engAwake e s)
def execStandbyEntry (s : State) : Outcome := settled (stbyEnter s)
def execStandbyWake (src : Fin 4) (s : State) : Outcome := ok (stbyWake src.val s)
def execWakeTimer (i : Fin 2) (s : State) : Outcome := ok (wakeTimer i s)
def execClockFailure (c : ClockSrc) (s : State) : Outcome := settled (clockFail c s)
def execXtal32Fail (s : State) : Outcome := ok (xtalFailOp s)
def execThermWarn (t : BitVec 16) (s : State) : Outcome := ok (thermWarnOp t s)
def execThermTrip (t : BitVec 16) (s : State) : Outcome := settled (thermTripOp t s)
def execThermRecover (t : BitVec 16) (s : State) : Outcome := ok (thermRecoverOp t s)

end Sys2Proof.Machine
end

