-- ==== Sys2Proof/Machine/Ports.lean ====
section
/-! DEFINITION. Resource claims, timers, boundary scan, fuses and the debug mailbox (R444, R472-R476, R479-R482). -/
namespace Sys2Proof.Machine

/-! ### Claims (R472-R475) -/

/-- The processor ID of an RV32 requester, which its `mhartid` CSR holds (R17); the Anvil engines and the host claim nothing. -/
def reqId : Req → Option Nat
  | .plc c => some c.val
  | .hst c => some (4 + c.val)
  | .sup => some 6
  | .sec => some 7
  | .esq e => some (8 + e.val)
  | .anv _ | .host => none

/-- The ID that identifies a processor as a fabric and arbiter requester and in event records (R17). -/
def procId : Req → Option Nat
  | .anv e => some (0x10 + e.val)
  | .plc c => reqId (.plc c)
  | .hst c => reqId (.hst c)
  | .sup => reqId .sup
  | .sec => reqId .sec
  | .esq e => reqId (.esq e)
  | .host => none

/-- The `mhartid` CSR of an RV32 processor (R17). -/
def mhartid (rq : Req) : Option Word := (reqId rq).map (BitVec.ofNat 32)

/-- A register takes its reset value. -/
def State.clearReg (s : State) (r : Reg) : State := s.wr r r.reset

/-- The control registers of a claimable resource take their reset values (R475). -/
def claimClear (r : Fin 37) (s : State) : State :=
  if r.val < 12 then s.clearReg (GPIO_CFG.reg r)
  else if r.val < 16 then s.clearReg (TMUX_SEL.reg (r.val - 12))
  else if r.val = 16 then (s.clearReg TDAC_SEL.reg).clearReg TDAC_VAL.reg
  else if r.val < 29 then ((s.clearReg (TIM_CTRL.reg (r.val - 17))).clearReg (TIM_CNT.reg (r.val - 17))).clearReg (TIM_CC.reg (r.val - 17))
  else s

/-- A release: the owner is free, and the resource's registers take their reset values (R475). -/
def claimFree (r : Fin 37) (s : State) : State :=
  let s := claimClear r s
  let s := if 17 ≤ r.val ∧ r.val < 29 then pwOf (fun p => { p with timOut := setBit p.timOut (r.val - 17) false }) s else s
  s.put (CLAIM_RES.OWNER r) 0x3F

/-- Whether a requester may claim a resource: SPARE<n> is for ESQ<n> (R472). -/
def mayClaim (id r : Nat) : Bool := decide (r < 29) || id == r - 29 + 8

/-- CLAIM_WRITE: claim or release (R473). -/
def claimOp (rq : Req) (r : Fin 37) (v : Word) (s : State) : State :=
  match reqId rq with
  | none => s
  | some id =>
    let own := s.get (CLAIM_RES.OWNER r.val)
    let name := (CLAIM_RES.OWNER r.val).of v
    if name = 0x3F then
      if own = id ∨ (id = 6 ∧ (CLAIM_RES.FORCE r.val).of v = 1 ∧ own ≠ 0x3E) then claimFree r s else s
    else if name ≠ id then s
    else if own = 0x3F ∧ mayClaim id r.val = true then s.put (CLAIM_RES.OWNER r.val) id
    else if h : 29 ≤ r.val then
      let e : Eng := ⟨r.val - 29, by omega⟩
      if id = idEsq e ∧ own = idTemper e then tmpPreempt e s else claimDeny r id s
    else claimDeny r id s

/-! ### Timers (R476) -/

/-- The timer's source is a GPIO or an encoder index. -/
def timSrcOk (n : Nat) : Bool := decide (n < 12) || (decide (16 ≤ n) && decide (n < 28))

/-- TIM_CAPTURE: in capture mode CC takes CNT at the selected edge; FLAG interrupts the owner. -/
def timCaptureOp (t : Fin 12) (falling : Bool) (cnt : Word) (s : State) : State :=
  let e := s.get (TIM_CTRL.EDGE t.val)
  if s.get (TIM_CTRL.MODE t.val) = 1 ∧ timSrcOk (s.get (TIM_CTRL.SRC t.val)) = true ∧ (e = (if falling then 1 else 0) ∨ 2 ≤ e) then
    (((s.wr (TIM_CNT.reg t.val) cnt).wr (TIM_CC.reg t.val) cnt).put (TIM_CTRL.FLAG t.val) 1).emit (.irq (TIM_CTRL.FLAG t.val))
  else s

/-- TIM_MATCH: CNT and CC match: the output toggles, or pulses high for one count and is low again. -/
def timMatchOp (t : Fin 12) (s : State) : State :=
  let m := s.get (TIM_CTRL.MODE t.val)
  if m = 2 ∨ m = 3 then
    let s := ((s.wr (TIM_CNT.reg t.val) (s.rd (TIM_CC.reg t.val))).put (TIM_CTRL.FLAG t.val) 1).emit (.irq (TIM_CTRL.FLAG t.val))
    if m = 2 then pwOf (fun p => { p with timOut := p.timOut ^^^ BitVec.twoPow 12 t.val }) s else s
  else s

/-! ### Boundary scan (R479, R480) -/

/-- Lasers, bridges, choppers and axes go off before the boundary register takes the pins. -/
def pinsTake (m : PinMode) (s : State) : State :=
  let s := writesOff (axesOff (spinOff (lasersOff s)))
  let s := engs.foldl (fun (s : State) (e : Eng) => sldPowerLoss e s) s
  let s := (s.put (BRK_STAT.CHOP 0) 0).put (BRK_STAT.CHOP 1) 0
  pwOf (fun p => { p with pins := m }) s

/-! ### Fuses (R481) -/

/-- The width of a fuse field in bits; the maker's fields are locked. -/
def fuseWidth (f : Nat) : Nat :=
  match f with
  | 0x01 => 256 | 0x02 => 1 | 0x03 => 384 | 0x04 => 1 | 0x05 => 4 | 0x06 => 32 | 0x07 => 1
  | _ => 0

/-- A fuse field is locked; DRK_LOCK and OWNER_LOCK lock themselves (R481). -/
def fuseLocked (f : Fuses) (n : Nat) : Bool :=
  match n with
  | 0x01 | 0x02 => f.drkLock
  | 0x03 | 0x04 => f.ownerLock
  | 0x05 | 0x06 | 0x07 => false
  | _ => true

/-- The 1 bits of a word are blown. -/
def fuseBlow (f : Fuses) (n w : Nat) (d : Word) : Fuses :=
  match n with
  | 0x01 => { f with drk := f.drk ||| (d.setWidth 256 <<< (32 * w)) }
  | 0x02 => { f with drkLock := f.drkLock || d.getLsbD 0 }
  | 0x03 => { f with ownerHash := f.ownerHash ||| (d.setWidth 384 <<< (32 * w)) }
  | 0x04 => { f with ownerLock := f.ownerLock || d.getLsbD 0 }
  | 0x05 => { f with revoke := f.revoke ||| d.setWidth 4 }
  | 0x06 => { f with svn := f.svn ||| d }
  | 0x07 => { f with dbgVendor := f.dbgVendor || d.getLsbD 0 }
  | _ => f

/-- FUSE_PROG. `efuse`: VDD_EFUSE is applied; `failed`: the verify fails, and which bits took is open; `busy`: a word is being
blown. -/
def fuseOp (n w : Nat) (d : Word) (efuse failed busy : Bool) (s : State) : State :=
  if busy then s.emit (.fuseResult 4)
  else if fuseLocked s.sec.blown n || decide (fuseWidth n ≤ 32 * w) then s.emit (.fuseResult 1)
  else if !efuse || s.get PWR_STATE.STATE != 0 || s.pw.pfail then s.emit (.fuseResult 2)
  else
    let d := if failed then d &&& Config.fuseTook s.fresh else d
    let s := if failed then s.tickFresh else s
    ({ s with sec := { s.sec with blown := fuseBlow s.sec.blown n w d } }).emit (.fuseResult (if failed then 3 else 0))

/-! ### Debug mailbox (R444, R482) -/

/-- DBG_CHALLENGE: a nonce and the device identifier. -/
def dbgAsk (nonce : BitVec 256) (s : State) : State :=
  let s := { s with sec := { s.sec with challenge := some nonce } }
  s.emit (.mailbox (leBytes 32 nonce.toNat ++ leBytes 16 Config.deviceId.toNat))

/-- SEC accepts the signer (R444). -/
def signerOk (s : State) : Signer → Bool
  | .owner => true
  | .vendor => s.sec.fuse.dbgVendor
  | .nobody => false

/-- DBG_UNLOCK: one attempt for each challenge; after three failures none is accepted. -/
def dbgTry (level : Nat) (by_ : Signer) (s : State) : State :=
  if 3 ≤ s.get GLB_SEC_STAT.DBG_FAILS then s.emit (.mailbox [2#8])
  else
    let good := s.sec.challenge.isSome && signerOk s by_ && (level == 1 || level == 2)
    let s := { s with sec := { s.sec with challenge := none } }
    if good then
      let s := s.put GLB_SEC_STAT.DBG_LEVEL (max level (s.get GLB_SEC_STAT.DBG_LEVEL))
      let s := if level = 2 then keysShow { s with sec := { s.sec with keys := [] } } else s
      (s.logEvent .debugUnlocked [level]).emit (.mailbox [0#8])
    else (s.inc GLB_SEC_STAT.DBG_FAILS).emit (.mailbox [1#8])

/-- TAP_RESET: the TAP alone; one during a frame discards the frame, and the challenge stays used (R482). -/
def tapResetOp (inFrame : Bool) (s : State) : State :=
  if inFrame then { s with sec := { s.sec with challenge := none } } else s

def execClaimWrite (rq : Req) (r : Fin 37) (v : Word) (s : State) : Outcome := settled (claimOp rq r v s)
def execTimCapture (t : Fin 12) (falling : Bool) (cnt : Word) (s : State) : Outcome := ok (timCaptureOp t falling cnt s)
def execTimMatch (t : Fin 12) (s : State) : Outcome := ok (timMatchOp t s)
def execJtagExtest (s : State) : Outcome := settled (pinsTake .extest s)
def execJtagHighz (s : State) : Outcome := settled (pinsTake .highz s)
def execJtagClamp (s : State) : Outcome := settled (pinsTake .clamp s)
def execTapReset (inFrame : Bool) (s : State) : Outcome := ok (tapResetOp inFrame s)
def execFuseProg (field word : BitVec 8) (data : Word) (efuse failed busy : Bool) (s : State) : Outcome :=
  ok (fuseOp field.toNat word.toNat data efuse failed busy s)
def execDbgChallenge (nonce : BitVec 256) (s : State) : Outcome := ok (dbgAsk nonce s)
def execDbgUnlock (level : Fin 256) (by_ : Signer) (s : State) : Outcome := ok (dbgTry level.val by_ s)

end Sys2Proof.Machine
end

