-- ==== Sys2Proof/Machine/Ddr.lean ====
section
/-! DEFINITION. DDR4 errors and patrol scrub, SRAM errors and soft repairs (R399, R402-R408). -/
namespace Sys2Proof.Machine

/-- A command ends with INTERNAL_FAULT; the fault code is open (R375). -/
def finishFault (q : Fin 65) (tag : Nat) (s : State) : State :=
  (finish q tag stInternal (Config.faultCode s.fresh).toNat s).tickFresh

/-- The owners of a record end with INTERNAL_FAULT. -/
def ownersFault (os : List (Fin 65 × Nat)) (s : State) : State := os.foldl (fun (s : State) o => finishFault o.1 o.2 s) s

/-- Kinds of data of R403, in the order of its table. -/
def poisonKind : Poison → Nat
  | .cluster .. => 1 | .journalled => 2 | .sealed _ => 3 | .unsealed .. => 4 | .map _ => 5 | .slot .. => 6 | .firmware => 7 | .event _ => 8

/-- A DATA record that is sealed and not committed: a PAD record of the same SEQ and size takes its place (R403). -/
def poisonRecord (n : Nat) (s : State) : State :=
  match s.jrn.recs.find? fun r => r.seq = n with
  | none => s
  | some r =>
    match r.body with
    | .data .. =>
      if r.seq ≤ s.jrn.cseq then s
      else ownersFault r.owner (s.modJrn fun j => { j with
        recs := j.recs.map fun x => if x.seq = n then { x with body := .pad x.size, owner := [] } else x })
    | .map .. | .dirty _ | .retire _ | .checkpoint .. | .loss .. | .mapckpt .. | .quench .. | .boot .. | .pad _ => s

/-- Host data not yet sealed: the command ends, and what it waits to seal is dropped (R403). -/
def poisonHost (q : Fin 65) (tag : Nat) (s : State) : State :=
  let s := s.modJrn fun j => { j with wait1 := j.wait1.filter fun w => !w.owner.contains (q, tag) }
  jnlShow (finishFault q tag s)

/-- A reassembly slot or stitch entry: the cluster is released as MISSING (R403). -/
def poisonSlot (e : Eng) (c : ClAddr) (spot : Nat) (s : State) : State :=
  let g := s.eng[e].seam
  let slots := (g.held.filter fun x => x.addr == c && !x.released).map RasSlot.slot
  let parts := (g.parts.filter fun p => p.addr == some c).map StitchPart.entry
  let jobs := (g.jobs.filter fun j => j.addr == c).flatMap fun j => [j.head, j.tail]
  if slots.isEmpty && parts.isEmpty && jobs.isEmpty then ladderEnter e c spot s
  else
    let s := s.modSeam e fun g => { g with
      held := g.held.filter fun x => !slots.contains x.slot
      used := g.used.filter fun i => !slots.contains i
      parts := g.parts.filter fun p => p.addr != some c
      jobs := g.jobs.filter fun j => j.addr != c
      gaps := g.gaps ++ [c] }
    rasRelease e false (stitchDrop e s (parts ++ jobs))

/-- What the owner of poisoned data does (R403). -/
def poisoned : Poison → State → State
  | .cluster q tag sent, s => if sent then finishFault q tag s else s
  | .journalled, s => s
  | .sealed n, s => poisonRecord n s
  | .unsealed q tag, s => poisonHost q tag s
  | .map p, s => (s.incWrap GLB_MAP_LOAD.COUNT).logEvent .mapPageReload [p]
  | .slot e c spot, s => poisonSlot e c spot s
  | .firmware, s => tailReset 4 s
  | .event n, s => { s with events := s.events.filter fun x => x.seq != n }

/-- DDR_UE: counted and latched, the row retired, the owner recovers the data (R402-R404). -/
def ddrUeOp (beat : Nat) (p : Poison) (s : State) : State :=
  let s := ((s.inc GLB_DDR_ERR.UE).put GLB_DDR_EADDR.ADDR beat).put GLB_DDR_EADDR.VALID 1
  poisoned p (rowRetire (8 * beat) (s.logEvent .ddrUe [beat, poisonKind p]))

def modMem (f : MemInt → MemInt) (s : State) : State := { s with mem := f s.mem }

/-- A corrected beat of the patrol: a row with corrected errors in three passes is retired (R402, R404). -/
def patrolCorrected (beat : Nat) (s : State) : State :=
  let s := s.inc GLB_DDR_ERR.CE
  let k := rowKey (8 * beat)
  if s.mem.ceSeen.contains k then s
  else
    let n := Cells.get (fun _ => 0) s.mem.ceRows k + 1
    let s := modMem (fun m => { m with ceSeen := k :: m.ceSeen, ceRows := Cells.set Cells.natLt (fun _ => 0) m.ceRows k n }) s
    if n = 3 then rowRetire (8 * beat) s else s

/-- DDR_PATROL_SCRUB: one beat is read; beat 0 begins a pass (R402). -/
def patrol (beat : Nat) (err : Option BeatErr) (s : State) : State :=
  if s.get GLB_DDR_STAT.STATE ≠ 1 ∨ ddrBytes s ≤ 8 * beat then s
  else
    let s := if beat = 0 then modMem (fun m => { m with ceSeen := [] }) s else s
    match err with
    | none => s
    | some .corrected => patrolCorrected beat s
    | some (.uncorrectable p) => ddrUeOp beat p s

/-! ### SRAM (R406, R407) -/

/-- SRAM_SOFT_REPAIR_ADD: a row with corrected errors in three powered hours joins the list; a macro with four gets no more
(R407). -/
def softAdd (macro_ row : Nat) (s : State) : State :=
  let k := macro_ + 512 * row
  let rows := softRows s.jrn.ents
  if rows.contains k then s
  else if 4 ≤ (rows.filter fun x => x % 512 = macro_).length then s.put GLB_SRAM_STAT.SPARE_OUT 1
  else match softIds.find? fun i => !s.jrn.ents.any fun x => x.1 = i with
    | some i => (plinthCommit 0#2 (plPut s.jrn.ents i (some (leBytes 4 k))) s).1
    | none => s

/-- GLB_SRAM_EPOS. -/
def sramPos (macro_ row : Nat) (bad : Bool) (s : State) : State :=
  ((s.put GLB_SRAM_EPOS.MACRO macro_).put GLB_SRAM_EPOS.ROW row).putBool GLB_SRAM_EPOS.UNCORR bad

/-- A corrected word is written back and counted; its powered hour is noted (R406, R407). -/
def sramCorrected (macro_ row : Nat) (s : State) : State :=
  let s := sramPos macro_ row false (s.inc GLB_SRAM_STAT.CE)
  let k := macro_ + 512 * row
  let h := s.get PWR_HOURS.HOURS
  let hs := Cells.get (fun _ => []) s.mem.sramRows k
  if hs.contains h then s
  else
    let s := modMem (fun m => { m with sramRows := Cells.set Cells.natLt (fun _ => []) m.sramRows k (h :: hs) }) s
    if 2 ≤ hs.length then softAdd macro_ row s else s

/-- An uncorrectable word is counted and logged (R406). -/
def sramLost (macro_ row : Nat) (s : State) : State :=
  (sramPos macro_ row true (s.inc GLB_SRAM_STAT.UE)).logEvent .sramUe [macro_, row]

/-- DDR_REFRESH: the devices refresh every 3.9 us and keep what they hold (R399). -/
def execDdrRefresh (s : State) : Outcome := ok s
def execDdrPatrolScrub (beat : BitVec 31) (err : Option BeatErr) (s : State) : Outcome := settled (patrol beat.toNat err s)

end Sys2Proof.Machine
end

