-- ==== Sys2Proof/Machine/StripeCache.lean ====
section
/-! DEFINITION. The stripe cache: lookup, allocation, fills, eviction, prefetch, bypass, locked ways, range operations and the
states INIT, ENABLED, DRAINING and DISABLED (R414-R423, R427). -/
namespace Sys2Proof.Machine

def strcOff : Nat := 0
def strcOn : Nat := 1
def strcDraining : Nat := 2
def strcInit : Nat := 3

/-- Change what the cache holds. -/
def modStrc (f : StrcInt → StrcInt) (s : State) : State := modMem (fun m => { m with strc := f m.strc }) s

/-- The set of a line: A[17:12] xor A[23:18] (R414). -/
def setIx (line : Nat) : Nat := (line % 64) ^^^ (line / 64 % 64)

/-- STRC_STAT shows dirty lines and buffer entries (R427). -/
def strcShow (s : State) : State :=
  let c := s.mem.strc
  ((s.put STRC_STAT.DIRTY (c.lines.filter fun l => l.2.dirty).length).put STRC_STAT.EVB c.evb.length).put STRC_STAT.PFB c.side.length

/-- The partition of a group; 8 and above bypass (R414, R427). Requesters are numbered 4 x group + place in the group. -/
def partOf (s : State) (g : Nat) : Nat := ((s.rd (if g < 8 then STRC_PMAP0.reg else STRC_PMAP1.reg)).toNat >>> (4 * (g % 8))) % 16

/-- The ways a group may allocate in: its partition's, without the locked ones; none for a bypass requester (R414). -/
def waysOf (s : State) (g : Nat) : List Nat :=
  let p := partOf s g
  if p < 8 ∧ s.isSet (STRC_PART.VALID p) = true then
    (List.range 16).filter fun w => (s.get (STRC_PART.WAYS p)).testBit w && !(s.get STRC_LOCK.WAYS).testBit w
  else []

/-- A cached line with its key. -/
def lineHit (s : State) (line : Nat) : Option (Nat × SLine) := s.mem.strc.lines.find? fun l => l.2.line = line

/-- Put a line at its place. -/
def linePut (k : Nat) (l : SLine) (s : State) : State :=
  modStrc (fun c => { c with
    lines := Cells.insert Cells.natLt k { l with used := c.stamp } (c.lines.filter fun x => x.1 != k), stamp := c.stamp + 1 }) s

/-- Lines become invalid; the array keeps their data, which window reads return (R420). -/
def strcDrop (gone : Nat × SLine → Bool) (c : StrcInt) : StrcInt :=
  { c with
    lines := c.lines.filter fun x => !gone x
    raw := (c.lines.filter gone).foldl (fun r x => Cells.set Cells.natLt (fun _ => 0#32768) r x.1 x.2.data) c.raw }

/-- A line becomes invalid. -/
def lineDrop (k : Nat) (s : State) : State := modStrc (strcDrop fun x => x.1 == k) s

/-- The data after a write. -/
def accData (a : Access) (old : Block) : Block :=
  match a with
  | .read => old
  | .write m d => (old &&& ~~~ m) ||| (d &&& m)
  | .whole d => d

def isRead : Access → Bool
  | .read => true
  | .write .. | .whole .. => false

/-- What the requester sees. -/
def served (g line : Nat) (a : Access) (b : Block) (s : State) : State :=
  if isRead a then s.emit (.strcData g line b) else s.emit (.strcDone g line)

/-- An access to a cached line (R414). -/
def hitLine (g : Nat) (k : Nat) (l : SLine) (a : Access) (s : State) : State :=
  let b := accData a l.data
  served g l.line a b (linePut k { l with data := b, dirty := l.dirty || !isRead a } s)

/-- An access straight to DDR4. -/
def direct (g line : Nat) (a : Access) (s : State) : State :=
  let b := accData a (s.dramLine line)
  served g line a b (if isRead a then s else s.dramSet line b)

/-- Room for a line among the ways: the key, or none while every candidate is being filled, or the eviction buffer is full. An
invalid way comes first, else the least recently used (R414, R416). -/
def makeRoom (ws : List Nat) (line : Nat) (s : State) : Option (Nat × State) :=
  let c := s.mem.strc
  let ks := (ws.map fun w => 16 * setIx line + w).filter fun k => !c.fills.any fun f => f.way == some k
  match ks.find? fun k => !c.lines.any fun l => l.1 = k with
  | some k => some (k, s)
  | none =>
    let ls := c.lines.filter fun l => ks.contains l.1
    let old := ls.foldl (fun (m : Option (Nat × SLine)) l => match m with
      | some x => if l.2.used < x.2.used then some l else m
      | none => some l) none
    match old with
    | none => none
    | some v =>
      if v.2.dirty && decide (8 ≤ c.evb.length) then none
      else some (v.1, modStrc (fun c => { strcDrop (fun x => x.1 == v.1) c with
        evb := if v.2.dirty then c.evb ++ [(v.2.line, v.2.data)] else c.evb }) s)

def strcWait (g line : Nat) (a : Access) (s : State) : State := modStrc (fun c => { c with wait := c.wait ++ [(g, line, a)] }) s

/-- A hit in the side buffer moves the line into the partition, where the access is served (R417). -/
def hitSide (g line : Nat) (b : Block) (a : Access) (s : State) : State :=
  let drop (s : State) : State := modStrc (fun c => { c with side := c.side.filter fun x => x.1 != line }) s
  if (waysOf s (g / 4)).isEmpty then (if isRead a then served g line a b s else direct g line a (drop s))
  else match makeRoom (waysOf s (g / 4)) line s with
    | some z => hitLine g z.1 { line := line, dirty := false, data := b, used := 0 } a (drop z.2)
    | none => strcWait g line a s

/-- A miss: it joins a fill of its line, allocates a whole-line write without a fill, goes to DDR4 where the partition has no
way, else starts a fill or waits (R414-R416). -/
def missLine (g line : Nat) (a : Access) (s : State) : State :=
  let c := s.mem.strc
  if c.fills.any fun f => f.line = line then
    modStrc (fun c => { c with fills := c.fills.map fun f => if f.line = line then { f with wait := f.wait ++ [(g, a)] } else f }) s
  else if (waysOf s (g / 4)).isEmpty then direct g line a s
  else
    let whole := match a with
      | .whole _ => true
      | .read | .write .. => false
    if !whole && decide (16 ≤ c.fills.length) then strcWait g line a s
    else match makeRoom (waysOf s (g / 4)) line s with
      | none => strcWait g line a s
      | some z =>
        if whole then hitLine g z.1 { line := line, dirty := true, data := accData a 0#32768, used := 0 } a z.2
        else modStrc (fun c => { c with fills := c.fills ++ [{ line := line, way := some z.1, wait := [(g, a)] }] }) z.2

/-- An access while the cache is ENABLED and the group has a partition. -/
def strcCached (g line : Nat) (a : Access) (s : State) : State :=
  match lineHit s line with
  | some l => hitLine g l.1 l.2 a (s.incWrap STRC_HIT.COUNT)
  | none =>
    match s.mem.strc.evb.find? fun x => x.1 = line with
    | some x =>
      let b := accData a x.2
      served g line a b (modStrc (fun c => { c with evb := c.evb.map fun y => if y.1 = line then (line, b) else y }) (s.incWrap STRC_HIT.COUNT))
    | none =>
      match s.mem.strc.side.find? fun x => x.1 = line with
      | some x => hitSide g line x.2 a (s.incWrap STRC_HIT.COUNT)
      | none => missLine g line a (s.incWrap STRC_MISS.COUNT)

/-- A bypass access, and any access while the cache is not ENABLED (R418, R423). -/
def strcPast (g line : Nat) (a : Access) (s : State) : State :=
  match lineHit s line with
  | some l =>
    let s := s.incWrap STRC_HIT.COUNT
    if isRead a || l.2.dirty then hitLine g l.1 l.2 a s else direct g line a (lineDrop l.1 s)
  | none =>
    match s.mem.strc.evb.find? fun x => x.1 = line with
    | some x =>
      let b := accData a x.2
      served g line a b (modStrc (fun c => { c with evb := c.evb.map fun y => if y.1 = line then (line, b) else y }) (s.incWrap STRC_HIT.COUNT))
    | none =>
      match s.mem.strc.side.find? fun x => x.1 = line with
      | some x =>
        let s := s.incWrap STRC_HIT.COUNT
        if isRead a then served g line a x.2 s
        else direct g line a (modStrc (fun c => { c with side := c.side.filter fun y => y.1 != line }) s)
      | none => direct g line a (s.incWrap STRC_MISS.COUNT)

/-- An earlier access of the requester waits, other than for a fill of the same line: its accesses complete in issue order (R22, R415). -/
def strcAhead (s : State) (g line : Nat) : Bool :=
  s.mem.strc.wait.any (fun w => w.1 == g) || s.mem.strc.fills.any fun f => f.line != line && f.wait.any fun w => w.1 == g

/-- One access of requester `g` (R22, R414-R418, R423). -/
def strcOne (g line : Nat) (a : Access) (s : State) : State :=
  let st := s.get STRC_STAT.STATE
  if st = strcInit ∨ strcAhead s g line = true then strcWait g line a s
  else if st = strcOn ∧ partOf s (g / 4) < 8 ∧ s.isSet (STRC_PART.VALID (partOf s (g / 4))) = true then strcCached g line a s
  else strcPast g line a s

/-- A line is fetched by nobody yet and held nowhere on chip. -/
def fetchable (s : State) (line : Nat) : Bool :=
  let c := s.mem.strc
  !c.lines.any (fun l => l.2.line = line) && !c.side.any (fun l => l.1 = line) && !c.evb.any (fun l => l.1 = line) && !c.fills.any fun f => f.line = line

/-- Prefetches of waiting lines start while fill slots are free (R415, R417). -/
def pfStart : Nat → State → State
  | 0, s => s
  | n + 1, s =>
    match s.mem.strc.pf with
    | [] => s
    | l :: rest =>
      if s.get STRC_STAT.STATE ≠ strcOn ∨ fetchable s l = false then pfStart n (modStrc (fun c => { c with pf := rest }) s)
      else if 16 ≤ s.mem.strc.fills.length then s
      else pfStart n (modStrc (fun c => { c with pf := rest, fills := c.fills ++ [{ line := l, way := none, wait := [] }] }) s)

/-- What waits is tried again, oldest first. -/
def strcRetry (s : State) : State :=
  let ws := s.mem.strc.wait
  let s := modStrc (fun c => { c with wait := [] }) s
  let s := ws.foldl (fun (s : State) w => strcOne w.1 w.2.1 w.2.2 s) s
  strcShow (pfStart s.mem.strc.pf.length s)

/-- An SRAM error met by an access: a clean line is invalidated and fetched again, a dirty one is handled as a DDR4 error at its
address (R406). -/
def strcSram (line : Nat) (x : BitVec 9 × BitVec 12 × Option Poison) (s : State) : State :=
  match x.2.2 with
  | none => sramCorrected x.1.toNat x.2.1.toNat s
  | some p =>
    let s := sramLost x.1.toNat x.2.1.toNat s
    match lineHit s line with
    | none => s
    | some l => if l.2.dirty then ddrUeOp (512 * line) p (lineDrop l.1 s) else lineDrop l.1 s

/-- The FAB domain runs: it is gated in STANDBY (R33). -/
def fabOn (s : State) : Bool := s.get PWR_STATE.STATE != 2

/-- STRC_ACCESS. -/
def strcAccessOp (g line : Nat) (a : Access) (sram : Option (BitVec 9 × BitVec 12 × Option Poison)) (s : State) : State :=
  if !fabOn s then s else
  let s := match sram with
    | some x => strcSram line x s
    | none => s
  strcShow (strcOne g line a s)

/-- The fetched line goes to its way or to the side buffer, which replaces its oldest (R415, R417). -/
def fillPut (f : SFill) (b : Block) (s : State) : State :=
  if s.get STRC_STAT.STATE ≠ strcOn then s
  else match f.way with
    | some k => linePut k { line := f.line, dirty := false, data := b, used := 0 } s
    | none => modStrc (fun c => { c with side := (if 16 ≤ c.side.length then c.side.drop 1 else c.side) ++ [(f.line, b)] }) s

/-- STRC_FILL_DONE: the whole line has arrived; the accesses that wait for it are served in order (R402, R403, R415). A line
with an uncorrectable beat is not kept: reads of it get no data, writes go on to DDR4. -/
def fillDone (line : Nat) (err : Option (BitVec 31 × BeatErr)) (s : State) : State :=
  match s.mem.strc.fills.find? fun f => f.line = line with
  | none => s
  | some f =>
    let s := modStrc (fun c => { c with fills := c.fills.filter fun x => x.line != line }) s
    let each (s : State) (x : Nat × Access) : State :=
      match lineHit s line with
      | some l => hitLine x.1 l.1 l.2 x.2 s
      | none => strcOne x.1 line x.2 s
    match err with
    | some (b, .uncorrectable p) =>
      strcRetry (ddrUeOp b.toNat p (f.wait.foldl (fun (s : State) x => if isRead x.2 then s else direct x.1 line x.2 s) s))
    | some (_, .corrected) => strcRetry (f.wait.foldl each (fillPut f (s.dramLine line) (s.inc GLB_DDR_ERR.CE)))
    | none => strcRetry (f.wait.foldl each (fillPut f (s.dramLine line) s))

/-- STRC_WRITEBACK: the oldest entry of the eviction buffer is written (R416). -/
def evbWrite (s : State) : State :=
  match s.mem.strc.evb with
  | [] => s
  | x :: rest => strcRetry (modStrc (fun c => { c with evb := rest }) (s.dramSet x.1 x.2))

/-- STRC_PREFETCH of `n` + 1 lines while the cache is ENABLED (R417). -/
def prefetch (line n : Nat) (s : State) : State :=
  if s.get STRC_STAT.STATE ≠ strcOn then s
  else
    let ls := (List.range (n + 1)).map fun i => (line + i) % 2 ^ 22
    strcRetry (modStrc (fun c => { c with pf := c.pf ++ ls }) s)

/-! ### Range operations (R419, R421, R422) -/

/-- An OP starts unless one runs or the cache drains. -/
def strcOp (f : State → State) (s : State) : State :=
  if s.isSet STRC_STAT.OP_BUSY || s.get STRC_STAT.STATE == strcDraining then s.put STRC_EVT.OP_REJ 1
  else strcShow (f (s.put STRC_STAT.OP_BUSY 1))

/-- A line lies in the range of STRC_OPA and STRC_OPL. -/
def inRange (s : State) (line : Nat) : Bool := decide (s.get STRC_OPA.LINE ≤ line) && decide (line < s.get STRC_OPA.LINE + s.get STRC_OPL.COUNT)

/-- CLEAN: dirty lines are written back and stay (R421). -/
def cleanOp (s : State) : State :=
  let ls := s.mem.strc.lines.filter fun l => l.2.dirty && inRange s l.2.line
  let s := ls.foldl (fun (s : State) l => s.dramSet l.2.line l.2.data) s
  modStrc (fun c => { c with lines := c.lines.map fun l => if inRange s l.2.line then (l.1, { l.2 with dirty := false }) else l }) s

/-- INVAL: every line of the range goes, dirty or not; locked ones are counted (R421). -/
def invalOp (s : State) : State :=
  let locked := (s.mem.strc.lines.filter fun l => inRange s l.2.line && (s.get STRC_LOCK.WAYS).testBit (l.1 % 16)).length
  let s := modStrc (fun c => { strcDrop (fun l => inRange s l.2.line) c with side := c.side.filter fun l => !inRange s l.1 }) s
  if locked = 0 then s else (s.incBy STRC_LINV.LOCKED_INVAL locked).put STRC_EVT.LOCKED_INVAL 1

/-- One line of a LOCKFILL (R419). -/
def lockLine (w line : Nat) (s : State) : State :=
  let k := 16 * setIx line + w
  let here := s.mem.strc.lines.find? fun l => l.1 = k
  let s := match here with
    | some l => if l.2.dirty && l.2.line != line then s.dramSet l.2.line l.2.data else s
    | none => s
  let have_ := lineHit s line
  let new : SLine := match have_ with
    | some l => l.2
    | none => { line := line, dirty := false, data := s.ddrLine line, used := 0 }
  let s := match have_ with
    | some l => lineDrop l.1 s
    | none => s
  linePut k new (modStrc (fun c => { c with side := c.side.filter fun l => l.1 != line }) s)

/-- LOCKFILL of the 256 KiB region at STRC_OPA into the locked way OP_WAY; on an unlocked way it is discarded (R419). A cache that is not
ENABLED keeps every line invalid (R423, log 107). -/
def lockFill (s : State) : State :=
  let w := s.get STRC_CTRL.OP_WAY
  if (s.get STRC_LOCK.WAYS).testBit w then
    strcOp (fun s => if s.get STRC_STAT.STATE ≠ strcOn then s else (List.range 64).foldl (fun (s : State) i => lockLine w (s.get STRC_OPA.LINE / 64 * 64 + i) s) s) s
  else s.put STRC_EVT.OP_REJ 1

/-! ### States (R423) -/

/-- STRC_OP_DONE; an ENABLE = 0 written meanwhile starts the drain. -/
def strcOpEnd (s : State) : State :=
  if s.isSet STRC_STAT.OP_BUSY then
    let s := (s.put STRC_STAT.OP_BUSY 0).put STRC_EVT.OP_DONE 1
    if s.get STRC_STAT.STATE = strcOn ∧ s.isSet STRC_CTRL.ENABLE = false then s.put STRC_STAT.STATE strcDraining else s
  else s

/-- STRC_ENABLE: from DISABLED; discarded in DRAINING. -/
def strcEnableOp (s : State) : State :=
  if s.get STRC_STAT.STATE = strcDraining then s.put STRC_EVT.EN_REJ 1
  else
    let s := s.put STRC_CTRL.ENABLE 1
    if s.get STRC_STAT.STATE = strcOff then s.put STRC_STAT.STATE strcOn else s

/-- STRC_DISABLE: from ENABLED to DRAINING, after a running range operation. -/
def strcDisableOp (s : State) : State :=
  let s := s.put STRC_CTRL.ENABLE 0
  if s.get STRC_STAT.STATE = strcOn ∧ s.isSet STRC_STAT.OP_BUSY = false then s.put STRC_STAT.STATE strcDraining else s

/-- STRC_DRAIN_DONE: every dirty line has been written back; all lines are invalid, locks stay. -/
def drainEnd (s : State) : State :=
  if s.get STRC_STAT.STATE ≠ strcDraining then s
  else
    let s := (s.mem.strc.evb ++ (s.mem.strc.lines.filter fun l => l.2.dirty).map fun l => (l.2.line, l.2.data)).foldl
      (fun (s : State) l => s.dramSet l.1 l.2) s
    let s := modStrc (fun c => { strcDrop (fun _ => true) c with evb := [], side := [], pf := [] }) s
    strcRetry ((s.put STRC_STAT.STATE strcOff).put STRC_EVT.DISABLED 1)

/-- STRC_INIT_DONE: the requests that waited are served. -/
def strcInitEnd (s : State) : State :=
  if s.get STRC_STAT.STATE ≠ strcInit then s
  else strcRetry (s.put STRC_STAT.STATE (if s.isSet STRC_CTRL.ENABLE then strcOn else strcDraining))

/-- STRC_WINDOW_WRITE: a valid line of a locked way is updated and becomes dirty; an unlocked way only while DISABLED, where no
line is valid (R420). -/
def windowWrite (way set : Nat) (m d : Block) (s : State) : State :=
  let k := 16 * set + way
  if (s.get STRC_LOCK.WAYS).testBit way then
    match s.mem.strc.lines.find? fun l => l.1 = k with
    | some l => strcShow (linePut k { l.2 with data := accData (.write m d) l.2.data, dirty := true } s)
    | none => s
  else if s.get STRC_STAT.STATE = strcOff then
    modStrc (fun c => { c with
      raw := Cells.set Cells.natLt (fun _ => 0#32768) c.raw k (accData (.write m d) (Cells.get (fun _ => 0#32768) c.raw k)) }) s
  else s

/-- STRC_PART_WRITE: a valid partition has 2 to 16 ways and overlaps no other valid one (R414). -/
def partWrite (i : Fin 8) (v : Word) (s : State) : State :=
  let ways := (STRC_PART.WAYS i).of v
  let free := (List.range 8).all fun j => j == i.val || !s.isSet (STRC_PART.VALID j) || (s.get (STRC_PART.WAYS j) &&& ways == 0)
  if (STRC_PART.VALID i).of v = 0 ∨ (2 ≤ popcount 16 ways ∧ free = true) then s.wr (STRC_PART.reg i) (v &&& 0x1FFFF#32)
  else s.put STRC_EVT.CFG_REJ 1

/-- STRC_CNT_CLR: an increment of the same cycle is kept (R427). -/
def strcCntClear (same : BitVec 3) (s : State) : State :=
  ((s.put STRC_HIT.COUNT (bits same 0 1)).put STRC_MISS.COUNT (bits same 1 1)).put STRC_LINV.LOCKED_INVAL (bits same 2 1)

def execStrcAccess (g : Fin 16) (i : Fin 4) (line : BitVec 22) (a : Access) (sram : Option (BitVec 9 × BitVec 12 × Option Poison)) (s : State) : Outcome :=
  settled (strcAccessOp (4 * g.val + i.val) line.toNat a sram s)
def execStrcFillDone (line : BitVec 22) (err : Option (BitVec 31 × BeatErr)) (s : State) : Outcome := settled (fillDone line.toNat err s)
def execStrcWriteback (s : State) : Outcome := ok (evbWrite s)
def execStrcPrefetch (line : BitVec 22) (n : Fin 16) (s : State) : Outcome := ok (prefetch line.toNat n.val s)
def execStrcInval (s : State) : Outcome := ok (strcOp invalOp s)
def execStrcClean (s : State) : Outcome := ok (strcOp cleanOp s)
/-- STRC_CLEAN_INVAL: CLEAN, then INVAL (R421). -/
def execStrcCleanInval (s : State) : Outcome := ok (strcOp (fun s => invalOp (cleanOp s)) s)
def execStrcLockfill (s : State) : Outcome := ok (lockFill s)
def execStrcOpDone (s : State) : Outcome := ok (strcOpEnd s)
def execStrcEnable (s : State) : Outcome := ok (strcEnableOp s)
def execStrcDisable (s : State) : Outcome := ok (strcDisableOp s)
def execStrcDrainDone (s : State) : Outcome := ok (drainEnd s)
def execStrcInitDone (s : State) : Outcome := ok (strcInitEnd s)
def execStrcWindowWrite (way : Fin 16) (set : Fin 64) (mask data : Block) (s : State) : Outcome :=
  ok (windowWrite way.val set.val mask data s)
def execStrcPartWrite (i : Fin 8) (v : Word) (s : State) : Outcome := ok (partWrite i v s)
def execStrcCntClr (same : BitVec 3) (s : State) : Outcome := ok (strcCntClear same s)

end Sys2Proof.Machine
end

