-- ==== Sys2Proof/Machine/Arbiter.lean ====
section
/-! DEFINITION. The lottery arbiter of the DDR4 controller and the cipher units (R424-R426, R434-R437). -/
namespace Sys2Proof.Machine

/-! ### Arbiter -/

/-- One step of the LFSR, x^31 + x^28 + 1 (R424). -/
def lfsrStep (l : Nat) : Nat := (2 * l + (if l.testBit 30 != l.testBit 27 then 1 else 0)) % 2 ^ 31

/-- A draw: the LFSR steps, and the first member whose running ticket sum exceeds D wins; with no ticket at all the first
member (R424). -/
def drawFrom (pool : List (Nat × Nat)) (l : Nat) : Nat :=
  let t := (pool.map Prod.snd).foldl (· + ·) 0
  let d := l * t / 2 ^ 31
  let z := pool.foldl (fun (z : Nat × Option Nat) x => match z.2 with
    | some _ => z
    | none => (z.1 + x.2, if d < z.1 + x.2 then some x.1 else none)) (0, none)
  z.2.getD ((pool.head?.map Prod.fst).getD 0)

/-- A draw among members with their tickets. -/
def draw (pool : List (Nat × Nat)) (s : State) : Nat × State :=
  let l := lfsrStep (s.get ARB_SEED.LFSR)
  (drawFrom pool l, s.put ARB_SEED.LFSR l)

/-- Groups with their tickets. -/
def withTickets (s : State) (gs : List Nat) : List (Nat × Nat) := gs.map fun g => (g, s.get (ARB_TKT.TICKETS g))

/-- Tier of a contestant. -/
def tierOf (rs : Vector (Option ArbReq) 16) (g : Nat) : Nat := ((rs[g]?.getD none).map ArbReq.tier).getD 0

/-- The winner of a contest among unmasked groups `gs`, and whether the win was forced (R424). -/
def contest (rs : Vector (Option ArbReq) 16) (gs : List Nat) (s : State) : Nat × Bool × State :=
  let tier (t : Nat) : List Nat := gs.filter fun g => tierOf rs g = t
  let fromPool (xs : List Nat) (s : State) : Nat × Bool × State :=
    let z := draw (withTickets s xs) s
    (z.1, false, z.2)
  let lim := max 1 (s.get ARB_CFG.STARVE_LIM)
  if !(tier 1).isEmpty then fromPool (tier 1) s
  else match gs.find? fun g => lim ≤ s.mem.losses[g]?.getD 0 with
    | some g => (g, true, s)
    | none =>
      if !(tier 4).isEmpty && decide (15 ≤ s.mem.sinceC4) then fromPool (tier 4) s
      else
        let t := (gs.map (tierOf rs)).foldl min 5
        if t = 3 then
          let c3 (g : Nat) : Bool := ((rs[g]?.getD none).map ArbReq.c3).getD false
          let p2 := (tier 3).filter fun g => !c3 g
          let p3 := (tier 3).filter c3
          let classes := (if p2.isEmpty then [] else [(2, setting s 0x0025)]) ++ (if p3.isEmpty then [] else [(3, setting s 0x0026)])
          let z := draw classes s
          fromPool (if z.1 = 2 then p2 else p3) z.2
        else fromPool (tier t) s

/-- The loss count of a masked group is held at 0 (R424). -/
def maskedClear (s : State) : State :=
  modMem (fun m => { m with losses := Vector.ofFn fun g : Fin 16 => if (s.get ARB_STAT.MASK).testBit g.val then 0 else m.losses[g] }) s

/-- ARBITER_CONTEST: the winner's loss count clears, every other contestant's rises (R424). -/
def arbOp (rs : Vector (Option ArbReq) 16) (s : State) : State :=
  let s := maskedClear s
  let gs := (List.range 16).filter fun g => (rs[g]?.getD none).isSome && !(s.get ARB_STAT.MASK).testBit g
  if gs.isEmpty then s
  else
    let z := contest rs gs s
    let s := if z.2.1 then z.2.2.inc ARB_STAT.FORCED else z.2.2
    let s := modMem (fun m => { m with
      losses := gs.foldl (fun (v : Vector Nat 16) g => v.setIfInBounds g (if g = z.1 then 0 else v[g]?.getD 0 + 1)) m.losses
      sinceC4 := if tierOf rs z.1 = 4 then 0 else m.sinceC4 + 1 }) s
    s.emit (.grant z.1)

/-- ARB_SEED_WRITE: a seed of 0 is taken as 1 (R425). -/
def seedWrite (v : Word) (s : State) : State :=
  let n := v.toNat % 2 ^ 31
  s.put ARB_SEED.LFSR (if n = 0 then 1 else n)

/-! ### Cipher units (R429, R436, R437) -/

def modCu (u : Fin 2) (f : CuInt → CuInt) (s : State) : State :=
  { s with sec := { s.sec with cu := s.sec.cu.set u (f s.sec.cu[u]) } }

/-- Blocks of a priority on a unit: running, suspended and waiting. -/
def cuWork (c : CuInt) (p : Nat) : Nat :=
  ((c.run.toList ++ c.susp ++ c.queue).filter fun j => j.prio = p).foldl (fun n j => n + j.blocks) 0

/-- A slot holds a key: a volume key, or the map record key (R429). -/
def slotLoaded (s : State) (i : Nat) : Bool := (s.sec.keys.any fun k => k.1 = i) || (i == 60 && s.sec.mapKey.isSome)

/-- GLB_CIPH_STAT.BUSY. -/
def cuShow (s : State) : State :=
  s.put GLB_CIPH_STAT.BUSY ((s.sec.cu[(0 : Fin 2)].run.isSome).toNat + 2 * (s.sec.cu[(1 : Fin 2)].run.isSome).toNat)

/-- CIPHER_JOB_READY: placed on the unit with less work of its priority; it suspends a running job of lower priority, unless that
one's last block enters the pipeline in the same cycle; not with FAB gated (R33, R436, R437). One that names an empty slot fails,
and the command that owns it, by queue and tag, completes with KEY_SLOT_EMPTY (R429). -/
def jobReady (prio slot blocks : Nat) (ending : BitVec 2) (owner : Option (Fin 65 × Fin 32)) (s : State) : State :=
  if !fabOn s then s
  else if !slotLoaded s slot then
    let s := s.emit (.jobFailed slot)
    match owner with
    | none => s
    | some o => finish o.1 o.2.val stKeyEmpty slot s
  else
    let j : CJob := { prio := prio, slot := slot, blocks := blocks }
    let u : Fin 2 := if cuWork s.sec.cu[(1 : Fin 2)] prio < cuWork s.sec.cu[(0 : Fin 2)] prio then 1 else 0
    match s.sec.cu[u].run with
    | none => cuShow (modCu u (fun c => { c with run := some j }) s)
    | some r =>
      if prio < r.prio ∧ ending.getLsbD u.val = false then
        (modCu u (fun c => { c with run := some j, susp := r :: c.susp }) s).inc GLB_CIPH_STAT.SUSP
      else modCu u (fun c => { c with queue := c.queue ++ [j] }) s

/-- The highest priority that waits. -/
def cuBest (c : CuInt) : Nat := (c.queue.map CJob.prio).foldl min 4

/-- CIPHER_JOB_DONE: the highest priority goes on; a suspended job resumes when none of higher priority waits (R437). -/
def jobDone (u : Fin 2) (s : State) : State :=
  let c := s.sec.cu[u]
  if c.run.isNone then s
  else
    let p := cuBest c
    cuShow (modCu u (fun c =>
      match c.susp with
      | r :: rest => if r.prio ≤ p then { c with run := some r, susp := rest }
          else { c with run := c.queue.find? (fun j => j.prio = p), queue := c.queue.eraseP fun j => j.prio = p }
      | [] => { c with run := c.queue.find? (fun j => j.prio = p), queue := c.queue.eraseP fun j => j.prio = p }) s)

def execArbiterContest (reqs : Vector (Option ArbReq) 16) (s : State) : Outcome := ok (arbOp reqs s)
def execArbSeedWrite (v : Word) (s : State) : Outcome := ok (seedWrite v s)
def execCipherJobReady (prio : Fin 4) (slot : BitVec 6) (blocks : Nat) (ending : BitVec 2) (owner : Option (Fin 65 × Fin 32))
    (s : State) : Outcome := ok (jobReady prio.val slot.toNat blocks ending owner s)
def execCipherJobDone (u : Fin 2) (s : State) : Outcome := ok (jobDone u s)

end Sys2Proof.Machine
end

