-- ==== Sys2Proof/Machine/Pcie.lean ====
section
/-! DEFINITION. Configuration space of the PCIe function (R5, R31, R343, R344, R491), by dword. The spec gives the structures, their
offsets and their content; the places of the fields inside them are those of the PCI and PCI Express specifications (log 101); a dword
none of whose fields it names reads a free value. -/
namespace Sys2Proof.Machine

/-- The bits of a dword that the host may write: Command, the four BAR words of 64 MiB and 16 KiB, Interrupt Line, the power state,
MSI-X Enable and Function Mask, Device Control; of other dwords the spec names none (log 101). -/
def cfgMask (i : Nat) : Word :=
  match 4 * i with
  | 0x04 => 0x546#32
  | 0x10 => 0xFC000000#32
  | 0x14 => 0xFFFFFFFF#32
  | 0x18 => 0xFFFFC000#32
  | 0x1C => 0xFFFFFFFF#32
  | 0x3C => 0xFF#32
  | 0x44 => 0x3#32
  | 0x50 => 0xC0000000#32
  | 0x68 => 0x7FFF#32
  | _ => Config.cfgMask i

/-- What the writable bits hold before the host writes them: Device Control at its standard's value, Relaxed Ordering enabled (log 101). -/
def cfgReset (i : Nat) : Word := if i = 0x1A then 0x2810#32 else if i < 0x20 then 0#32 else Config.cfgReset i

/-- Subsystem Vendor ID and Subsystem ID: 0x1D8B and 0xC832, or both of the BCR when its SSVID is not 0 (R5). -/
def subsystem (b : Option Bcr) : Word :=
  match b with
  | some b => if b.ssvid = 0#16 then 0xC8321D8B#32 else b.ssid ++ b.ssvid
  | none => 0xC8321D8B#32

/-- The read-only content of a dword (R5, R344, R491). -/
def cfgFixed (s : State) (i : Nat) : Word :=
  match 4 * i with
  | 0x00 => 0xC8321D8B#32             -- Device ID, Vendor ID
  | 0x04 => 0x00100000#32             -- capability list
  | 0x08 => 0x018000B0#32             -- Class Code, Revision ID
  | 0x0C => 0#32                      -- Header Type 0x00
  | 0x10 => 0x4#32                    -- BAR0: 64-bit memory, non-prefetchable
  | 0x14 => 0#32
  | 0x18 => 0x4#32                    -- BAR2: 64-bit memory, non-prefetchable
  | 0x1C => 0#32
  | 0x20 => 0#32                      -- BAR4, BAR5: not implemented
  | 0x24 => 0#32
  | 0x28 => 0#32                      -- Cardbus CIS Pointer
  | 0x2C => subsystem s.sec.bcr
  | 0x30 => 0#32                      -- Expansion ROM
  | 0x34 => 0x40#32                   -- Capabilities Pointer
  | 0x38 => 0#32
  | 0x3C => 0#32                      -- Interrupt Pin 0
  | 0x40 => 0x00035001#32             -- Power Management, version 3, next 0x50
  | 0x44 => 0#32                      -- No_Soft_Reset 0
  | 0x50 => 0x00806011#32             -- MSI-X, Table Size 0x080, next 0x60
  | 0x54 => 0x2#32                    -- table at offset 0 of BAR2
  | 0x58 => 0x2002#32                 -- PBA at offset 0x2000 of BAR2
  | 0x60 => 0x00020010#32             -- PCI Express, version 2, Endpoint, last
  | 0x64 => 0x10008DE2#32             -- 512 B; extended tags; L0s no limit; L1 64 us; role-based errors; Function Level Reset
  | 0x6C => 0x00060844#32 ||| (Config.cfgBase i &&& 0xFFF87000#32)   -- 16 GT/s; x4; ASPM L1; L1 exit 8-16 us; Clock Power Management
  | 0x84 => 0x00030816#32 ||| (Config.cfgBase i &&& 0xFFFCF7E0#32)   -- timeouts B, C, disable; LTR; 10-bit tags both ways
  | 0x8C => 0x1E#32 ||| (Config.cfgBase i &&& 0xFFFFFF01#32)         -- 2.5, 5.0, 8.0 and 16 GT/s
  | 0x100 => 0x14820001#32            -- Advanced Error Reporting, version 2, next 0x148
  | 0x148 => 0x16010019#32            -- Secondary PCI Express, next 0x160
  | 0x160 => 0x19010026#32            -- Physical Layer 16.0 GT/s, next 0x190
  | 0x190 => 0x1B010027#32            -- Lane Margining at the Receiver, next 0x1B0
  | 0x1B0 => 0x1C01001E#32            -- L1 PM Substates, next 0x1C0
  | 0x1B4 => 0x00000A1F#32 ||| (Config.cfgBase i &&& 0xFFFF00E0#32)  -- all substates; Common_Mode_Restore_Time 10 us
  | 0x1C0 => 0x00010018#32            -- Latency Tolerance Reporting, last
  | _ => Config.cfgBase i

/-- Bits that live outside the written words: Bus Master Enable, the power state, MSI-X Enable and Function Mask. -/
def cfgLive (s : State) (i : Nat) (w : Word) : Word :=
  match 4 * i with
  | 0x04 => setBit w 2 s.cqi.bme
  | 0x44 => setBit (setBit w 0 s.cqi.d3) 1 s.cqi.d3
  | 0x50 => setBit (setBit w 31 s.cqi.msixEn) 30 s.cqi.fmask
  | _ => w

/-- A dword as the host reads it. -/
def cfgWord (s : State) (i : Nat) : Word :=
  let w := Cells.get cfgReset s.cqi.cfg i
  cfgLive s i ((cfgFixed s i &&& ~~~ cfgMask i) ||| (w &&& cfgMask i))

/-- Configuration space answers once an image and its BCR have been applied (R5, R341). -/
def cfgRead (s : State) (i : Nat) : Option Word := if s.sec.bcr.isSome then some (cfgWord s i) else none

/-- The host writes a dword, bytes as enabled; read-only bits stay (R491). -/
def cfgPut (i : Nat) (m v : Word) (s : State) : State :=
  let old := Cells.get cfgReset s.cqi.cfg i
  let m := m &&& cfgMask i
  { s with cqi := { s.cqi with cfg := Cells.set Cells.natLt cfgReset s.cqi.cfg i ((old &&& ~~~ m) ||| (v &&& m)) } }

/-- Data writes carry Relaxed Ordering: the host has enabled it in Device Control (R31). -/
def relaxed (s : State) : Bool := (cfgWord s 0x1A).getLsbD 4

end Sys2Proof.Machine
end

