-- ==== Sys2Proof/Machine/CqiQueues.lean ====
section
/-! DEFINITION. The queues of the CQI: doorbells, index reads, slots and capsules, queue errors, admission, interim entries,
deadlines, enabling and disabling, function reset (R343-R374, R376-R379, R384). -/
namespace Sys2Proof.Machine

/-! ### Outcomes -/

/-- Nothing that is still to be committed waits for the command any more; its unsealed DATA records are dropped (R366, R372). -/
def forget (q : Fin 65) (tag : Nat) (s : State) : State :=
  let keep (os : List (Fin 65 × Nat)) : List (Fin 65 × Nat) := os.filter fun o => o != (q, tag)
  let s := s.modJrn fun j => { j with
    recs := j.recs.map fun r => { r with owner := keep r.owner }
    wait1 := (j.wait1.filter fun w => !(w.body.isData && w.owner.contains (q, tag))).map fun w => { w with owner := keep w.owner }
    wait2 := j.wait2.map fun w => { w with owner := keep w.owner } }
  s.modArm fun a => { a with
    groups := a.groups.map fun g => { g with cmds := keep g.cmds }
    woWait := a.woWait.map fun w => (w.1, w.2.1, keep w.2.2) }

/-- A command ends before its point of no return: ABORTED or DEADLINE_MISSED (R364-R366, R388). -/
def endEarly (q : Fin 65) (tag status : Nat) (s : State) : State := finish q tag status 0 (forget q tag s)

/-! ### Errors -/

/-- CQI_QERR<i>. -/
def qerrFld (i : Nat) : Fld := ⟨⟨.cqi, 0, 0, 0x10 + 4 * i⟩, 0, 32⟩

/-- Give the queue's bit of CQI_QERR<i> a value (R374). -/
def qerrBit (q : Fin 65) (b : Bool) (s : State) : State := s.putBit (qerrFld (q.val / 32)) (q.val % 32) b

/-- An active queue enters ERROR: fetching stops, what is not yet whole is discarded, the record is latched, the host is told
(R356, R357, R360). -/
def queueFault (q : Fin 65) (cause slot tag : Nat) (s : State) : State :=
  if s.get (QB_STAT.STATE q) ≠ qActive then s
  else
    let s := s.put (QB_STAT.STATE q) qError
    let s := ((s.put (QB_ERR.SLOT q) slot).put (QB_ERR.CAUSE q) cause).put (QB_ERR.TAG q) tag
    let s := s.modQ q fun i => { i with part := [], fetch := [], dbSq := false, idx := none }
    let s := (qerrBit q true s).cqiEvent CQI_EVT.QERR
    cqPost q { tag := 0xFF, status := stQueueError, result := slot + cause * 2 ^ 8 + tag * 2 ^ 12, detail := 0 } s

/-- A fault without a slot of its own: causes 1, 7 and 8 (R357). -/
def queueFaultAt (q : Fin 65) (cause : Nat) (s : State) : State := queueFault q cause (s.get (QB_POS.SQ_HEAD q)) 0 s

/-! ### Index area -/

/-- CQ_HEAD would move past an entry that is not written (R356). -/
def headPast (s : State) (q : Fin 65) (h : Nat) : Bool :=
  let n := cqSize s q
  let old := s.cqi.q[q].cqHead
  decide ((s.get (QB_POS.CQ_TAIL q) + n - old) % n < (h + n - old) % n)

/-- CQ_HEAD moves, and entries held back by a full ring are written (R362). -/
def cqTake (q : Fin 65) (h : Nat) (s : State) : State := cqFlush q (s.modQ q fun i => { i with cqHead := h })

/-- A CQ_HEAD that was read (R356, R362). -/
def cqRead (q : Fin 65) (h : Nat) (s : State) : State :=
  if cqSize s q ≤ h then queueFaultAt q 1 s
  else if headPast s q h then queueFaultAt q 8 s
  else cqTake q h s

/-- An index read is issued for the doorbells registered so far; while one is under way they wait for the next (R351). -/
def idxIssue (q : Fin 65) (s : State) : State :=
  let i := s.cqi.q[q]
  if s.hostOpen && i.idx.isNone && (i.dbSq || i.dbCq) then
    (s.modQ q fun i => { i with idx := some (if i.dbSq then some i.dbAt else none), dbSq := false, dbCq := false }).emit (.idxRead q.val)
  else s

/-- The queue's index area is there to be read for completions (R374). -/
def cqServed (s : State) (q : Fin 65) : Bool :=
  let st := s.get (QB_STAT.STATE q)
  st == qActive || st == qError || st == qDisabled

/-- Doorbells are ignored during a function reset (R372), and count for nothing once PFAIL_N is latched. -/
def doorsOpen (s : State) : Bool := !s.isSet CQI_STAT.RESETTING && !s.pw.pfail

/-- DOORBELL_SQ (R351, R374). -/
def doorSq (q : Fin 65) (s : State) : State :=
  if doorsOpen s && s.get (QB_STAT.STATE q) == qActive then
    idxIssue q (s.modQ q fun i => { i with dbSq := true, dbAt := s.us })
  else s

/-- DOORBELL_CQ: CQ_HEAD is read; while no request can be issued the doorbell is held (R346, R362, R374). -/
def doorCq (q : Fin 65) (head : Nat) (s : State) : State :=
  if doorsOpen s && cqServed s q then
    if s.hostOpen then cqRead q head (s.emit (.idxRead q.val)) else s.modQ q fun i => { i with dbCq := true }
  else s

/-- Slots from the fetch head up to the tail are requested, for the doorbell at time `t` (R351). -/
def fetchTo (q : Fin 65) (tail t : Nat) (s : State) : State :=
  let h := s.cqi.q[q].head
  let n := (tail + sqSize s q - h) % sqSize s q
  if n = 0 then s
  else (s.modQ q fun i => { i with fetch := i.fetch ++ [(n, t)], head := tail }).emit (.slotRead q.val h n)

/-- Once the last doorbell of a queue that was disabled in its cycle has been served, a command that is not whole is discarded (R367,
R368). -/
def lastEnd (q : Fin 65) (s : State) : State :=
  let i := s.cqi.q[q]
  if i.last && !i.dbSq && i.idx.isNone && i.fetch.isEmpty then qShow q (s.modQ q fun i => { i with last := false, part := [] }) else s

/-- INDEX_READ_DONE (R351, R356, R363). -/
def indexDone (q : Fin 65) (tail head : Nat) (s : State) : State :=
  match s.cqi.q[q].idx with
  | none => s
  | some d =>
    let s := s.modQ q fun i => { i with idx := none }
    let s := if sqSize s q ≤ tail then queueFaultAt q 1 s
      else if cqSize s q ≤ head ∨ headPast s q head = true then cqRead q head s
      else match d with
        | some t => if s.get (QB_STAT.STATE q) = qActive ∨ s.cqi.q[q].last = true then fetchTo q tail t (cqTake q head s) else cqTake q head s
        | none => cqTake q head s
    lastEnd q (idxIssue q s)

/-! ### Slots and capsules -/

/-- Slots being put together: index of the next slot, the command not yet whole, the index of its first slot, the whole
commands, and the first fault (cause, slot, tag). -/
structure Scan where
  idx : Nat
  part : List (BitVec 512)
  first : Nat
  whole : List (Nat × List Byte)
  err : Option (Nat × Nat × Nat)

/-- TAG of a slot. -/
def slotTag (w : BitVec 512) : Nat := bits w 8 5
/-- LEN of the capsule a first slot begins. -/
def slotLen (w : BitVec 512) : Nat := bits w 48 16
/-- The capsule bytes of a slot. -/
def slotBytes (w : BitVec 512) : List Byte := (List.range 60).map fun i => BitVec.ofNat 8 (w.toNat >>> (8 * (4 + i)))

/-- The lowest cause a slot shows (R356); `busy`: tags without a written final completion. -/
def slotCause (busy : List Nat) (part : List (BitVec 512)) (w : BitVec 512) : Option Nat :=
  let n := part.length
  let f := part.head?.getD w
  let last := bits w 1 1 == 1
  let len := slotLen f
  if (bits w 0 1 == 1) != part.isEmpty then some 2
  else if bits w 16 3 ≠ n ∨ slotTag w ≠ slotTag f then some 3
  else if (n = 7 ∧ ¬ last) ∨ (last ∧ n + 1 ≠ (len + 59) / 60) ∨ len < 16 ∨ 480 < len then some 4
  else if part.isEmpty && busy.contains (slotTag w) then some 5
  else if bits w 2 6 ≠ 0 ∨ bits w 13 3 ≠ 0 ∨ bits w 19 13 ≠ 0 then some 6
  else none

/-- One slot (R353, R354). -/
def scanSlot (size : Nat) (busy : List Nat) (z : Scan) (w : BitVec 512) : Scan :=
  if z.err.isSome then z
  else
    let first := if z.part.isEmpty then z.idx else z.first
    let next := (z.idx + 1) % size
    match slotCause (busy ++ z.whole.map Prod.fst) z.part w with
    | some c => { z with err := some (c, first, slotTag w) }
    | none =>
      let ws := z.part ++ [w]
      if bits w 1 1 = 1 then
        let f := ws.head?.getD w
        { z with idx := next, part := [], first := next, whole := z.whole ++ [(slotTag w, (ws.flatMap slotBytes).take (slotLen f))] }
      else { z with idx := next, part := ws, first := first }

/-! ### Data descriptors (R377) -/

/-- A 16-byte descriptor of a capsule. -/
def capDesc (c : Cmd) (i : Nat) : BitVec 128 := BitVec.ofNat 128 (capNum c (32 + 16 * i) 16)
/-- Descriptors of a capsule by its LEN. -/
def capDescs (c : Cmd) : List (BitVec 128) := (List.range ((capNum c 2 2 - 32) / 16)).map (capDesc c)
def sgAddr (d : BitVec 128) : Nat := bits d 0 64
def sgLen (d : BitVec 128) : Nat := bits d 64 32
def sgSeg (d : BitVec 128) : Bool := bits d 96 8 == 1

/-- The offset of the first item of a list that is bad. -/
def firstBad (xs : List (Nat × Bool)) : Option Nat := (xs.find? Prod.snd).map Prod.fst

/-- The first invalid field of a descriptor; `last` in its capsule or segment. -/
def descBad (d : BitVec 128) (last : Bool) : Option Nat :=
  let a := if sgSeg d then 16 else 4
  firstBad [(0, sgAddr d % a != 0),
    (8, sgLen d % a != 0 || decide (sgLen d < 4) || (sgSeg d && decide (4096 < sgLen d))),
    (12, decide (1 < bits d 96 8) || (sgSeg d && !last)),
    (13, bits d 104 24 != 0)]

/-- The data descriptors in order, or the offset of the first invalid field: `at_` is the offset of the next one in the capsule,
which stays at the segment descriptor inside segments. -/
def descWalk : Nat → Bool → Nat → List (BitVec 128) → List (BitVec 128) → Nat ⊕ List (BitVec 128)
  | 0, _, _, _, _ => .inl 32
  | _ + 1, _, _, [], _ => .inr []
  | n + 1, inSeg, at_, d :: ds, rest =>
    match descBad d ds.isEmpty with
    | some o => .inl (if inSeg then at_ else at_ + o)
    | none =>
      if sgSeg d then
        let k := sgLen d / 16
        if rest.length < k then .inl at_ else descWalk n true at_ (rest.take k) (rest.drop k)
      else match descWalk n inSeg (if inSeg then at_ else at_ + 16) ds rest with
        | .inl o => .inl o
        | .inr xs => .inr (d :: xs)

/-- The data descriptors of a command that transfers `total` bytes, or the offset of the first invalid field. -/
def descsOf (c : Cmd) (total : Nat) : Nat ⊕ List (BitVec 128) :=
  match descWalk 1025 false 32 (capDescs c) c.segs with
  | .inl o => .inl o
  | .inr ds => if (ds.map sgLen).foldl (· + ·) 0 = total then .inr ds else .inl 32

/-- LEN of a capsule with descriptors. -/
def sgLenBad (c : Cmd) : Bool :=
  let n := capNum c 2 2
  decide (n < 48) || decide (480 < n) || n % 16 != 0

/-! ### Admission (R376, R379, R384) -/

/-- Work that waits at a point of choice: class 0-4, when its deadline passes, order of arrival (R385). -/
structure Work where
  cls : Nat
  due : Option Nat
  order : Nat
deriving DecidableEq, Repr

/-- Earliest deadline first, work without one last, then in order of arrival (R385). -/
def Work.before (a b : Work) : Bool :=
  match a.due, b.due with
  | some x, some y => decide (x < y) || (x == y && decide (a.order < b.order))
  | some _, none => true
  | none, some _ => false
  | none, none => decide (a.order < b.order)

/-- The order in which admitted work is served: class 0 in order of arrival, C1, then the winner of the draw `d` between C2 and C3, then
C4, which comes first at one point of choice in 16. `turn`: points of choice since C4 was served last (R385). -/
def serveNext (s : State) (ws : List Work) (turn d : Nat) : Option Work :=
  let best (k : Nat) : Option Work := ((sortBy Work.before (ws.filter fun w => w.cls = k)).head?)
  let t2 := if (best 2).isSome then setting s 0x0025 else 0
  let t3 := if (best 3).isSome then setting s 0x0026 else 0
  let mid : Option Work := if t2 + t3 = 0 then none else if d % (t2 + t3) < t2 then best 2 else best 3
  if decide (15 ≤ turn) && (best 4).isSome then best 4
  else (best 0).orElse fun _ => (best 1).orElse fun _ => mid.orElse fun _ => best 4

def opRead : Nat := 0x40
def opWrite : Nat := 0x41
def opVerify : Nat := 0x42
def opFlush : Nat := 0x43

def capOpc (c : Cmd) : Nat := capNum c 0 1
def capFlags (c : Cmd) : Nat := capNum c 1 1
def capLen (c : Cmd) : Nat := capNum c 2 2
def capVol (c : Cmd) : Nat := capNum c 8 1
def capNlb (c : Cmd) : Nat := capNum c 12 4
def capSlba (c : Cmd) : Nat := capNum c 16 8

/-- The volume is there for I/O: STATE 1 or 2. -/
def volUp (s : State) (v : Nat) : Bool :=
  let st := (s.arm.map.vol v).get Vol.STATE
  st == 1 || st == 2

/-- Check 1 of R379: the first invalid field of an I/O command (R376-R378, R383). -/
def ioBad (s : State) (c : Cmd) : Option Nat :=
  let op := capOpc c
  if op = opRead ∨ op = opWrite ∨ op = opVerify then
    let fields := [(1, capFlags c != 0), (2, if op = opVerify then capLen c != 32 else sgLenBad c), (8, !volUp s (capVol c)), (9, capNum c 9 3 != 0),
      (12, decide (capNlb c < 1) || decide (4096 < capNlb c)),
      (16, decide ((s.arm.map.vol (capVol c)).get Vol.CAP < capSlba c + capNlb c)), (24, capNum c 24 8 != 0)]
    match firstBad fields with
    | some o => some o
    | none =>
      if op = opVerify then none
      else match descsOf c (capNlb c * 4096) with
        | .inl o => some o
        | .inr _ => none
  else if op = opFlush then
    firstBad [(1, decide (1 < capFlags c)), (2, capLen c != 16), (8, capVol c != 0xFF && !volUp s (capVol c)), (9, capNum c 9 7 != 0)]
  else some 0

/-- Admitted commands of a class without an outcome (R384). -/
def classCount (s : State) (k : Nat) : Nat :=
  ((List.finRange 65).filter fun (q : Fin 65) => s.get (QB_CFG.CLASS q) = k).foldl (fun n (q : Fin 65) =>
    n + (s.cqi.q[q].cmds.filter fun c => !c.decided).length) 0

/-- The key of a slot. -/
def slotKey (s : State) (i : Nat) : Option (BitVec 512) := (s.sec.keys.find? fun x => x.1 = i).map Prod.snd

/-- The key slot an I/O command needs: none for a volume that is not encrypted, and for a FLUSH of every volume. -/
def keySlot (s : State) (c : Cmd) : Option Nat :=
  let k := (s.arm.map.vol (capVol c)).get Vol.KEY
  if k = 0xFF ∨ (capOpc c = opFlush ∧ capVol c = 0xFF) then none else some k

/-- The checks of R379 in order, for a command that HST has just fetched. An admitted command is bound to its key (R432). -/
def ioAdmit (q : Fin 65) (tag est free : Nat) (c : Cmd) (s : State) : State :=
  let rec_ := s.arm.map.vol (capVol c)
  let wr := capOpc c == opWrite
  match ioBad s c with
  | some o => finish q tag stInvalid (invalidAt o 0) s
  | none =>
    if s.isSet GLB_BOOT.MAP_SCAN then finish q tag stNotReady 1 s
    else if wr && rec_.get Vol.STATE == 2 then finish q tag stSealed 0 s
    else if (keySlot s c).any fun k => (slotKey s k).isNone then finish q tag stKeyEmpty (rec_.get Vol.KEY) s
    else if wr && rec_.get Vol.CLASS == 1 && refusing s then finish q tag stJournal 0 s
    else
      let k := s.get (QB_CFG.CLASS q)
      if setting s (0x0020 + k) < classCount s k then finish q tag stRefused (max 1 free + k * 2 ^ 32) s
      else if capDeadline c ≠ 0 ∧ c.origin + 1000 * capDeadline c < s.us + 1000 * est then finishD q tag stDeadline est 2 s
      else s.modCmd q tag fun c => { c with key := (keySlot s c).bind (slotKey s) }

/-- A whole command is taken in: an admin command with an unknown OPC completes at once (R376), an I/O command is checked and
admitted (R379). -/
def takeIn (q : Fin 65) (est free origin tag : Nat) (cap : List Byte) (segs : List (BitVec 128)) (s : State) : State :=
  let c : Cmd := { tag := tag, cap := cap, origin := origin, order := s.cqi.order, segs := segs }
  let s : State := { s with cqi := { s.cqi with order := s.cqi.order + 1 } }
  let s := qShow q (s.modQ q fun i => { i with cmds := i.cmds ++ [c] })
  if q = q0 then
    if 1 ≤ capOpc c ∧ capOpc c ≤ 0x14 then s else finish q tag stInvalid (invalidAt 0 0) s
  else ioAdmit q tag est free c s

/-- The last descriptor of a capsule names a segment. -/
def hasSeg (cap : List Byte) : Bool :=
  let c : Cmd := { tag := 0, cap := cap, origin := 0, order := 0 }
  [0x40, 0x41, 0x04, 0x06, 0x11, 0x12, 0x13].contains (capOpc c) && ((capDescs c).getLast?.any sgSeg)

/-- SLOT_FETCH_DONE: slots of the oldest fetch arrive, all of them or, at a wrap, the first part. Capsules are put together,
SQ_HEAD is written, then the commands are taken in and a fault ends the queue's fetching. `segs`: the descriptors of each
command of the batch that names a segment (R352, R353, R356, R357). -/
def slotsDone (q : Fin 65) (slots : List (BitVec 512)) (segs : List (List (BitVec 128))) (est free : Nat) (s : State) : State :=
  let i := s.cqi.q[q]
  match i.fetch with
  | [] => s
  | (n, t) :: rest =>
    if slots.isEmpty ∨ n < slots.length then s
    else
      let size := sqSize s q
      let left := (i.fetch.map Prod.fst).foldl (· + ·) 0
      let base := (i.head + left * (size - 1)) % size
      let z := slots.foldl (scanSlot size (i.cmds.map Cmd.tag))
        { idx := base, part := i.part, first := (base + i.part.length * (size - 1)) % size, whole := [], err := none }
      let head := match z.err with
        | some e => e.2.1
        | none => if z.part.isEmpty then z.idx else z.first
      let s := s.modQ q fun i => { i with
        fetch := if slots.length = n then rest else (n - slots.length, t) :: rest
        part := z.part }
      let s := (s.put (QB_POS.SQ_HEAD q) head).emit (.sqHead q.val head)
      let y := z.whole.foldl (fun (y : State × List (List (BitVec 128))) x =>
        if hasSeg x.2 then (takeIn q est free t x.1 x.2 (y.2.head?.getD []) y.1, y.2.drop 1)
        else (takeIn q est free t x.1 x.2 [] y.1, y.2)) (s, segs)
      lastEnd q (match z.err with
      | some e => queueFault q e.1 e.2.1 e.2.2 (if y.1.cqi.q[q].last then y.1.modQ q fun i => { i with fetch := [], dbSq := false, idx := none } else y.1)
      | none => y.1)

/-! ### Messages, the full ring, host errors -/

/-- A vector is unmasked (R345). -/
def unmasked (s : State) (v : Nat) : Bool := !s.cqi.fmask && !s.cqi.mask.getLsbD v

/-- A vector that has become unmasked sends the message its PBA bit holds (R345). -/
def pbaSend (v : Nat) (s : State) : State :=
  if s.cqi.msixEn && unmasked s v && s.cqi.pba.getLsbD v then
    ({ s with cqi := { s.cqi with pba := s.cqi.pba &&& ~~~ BitVec.twoPow 129 v } } : State).msixReq v
  else s

/-- MSIX_UNMASK: the vector's own Mask bit is cleared (R345). -/
def msixUnmaskOp (v : Nat) (s : State) : State :=
  pbaSend v { s with cqi := { s.cqi with mask := s.cqi.mask &&& ~~~ BitVec.twoPow 129 v } }

/-- CQ_FULL_POLL (R362). -/
def cqPoll (q : Fin 65) (head : Nat) (s : State) : State :=
  if s.isSet (QB_STAT.CQ_FULL q) && s.hostOpen && cqServed s q then cqRead q head (s.emit (.idxRead q.val)) else s

/-- HOST_MEMORY_ERROR on the index area or slots, or on data of a command (R347). -/
def hostError (q : Fin 65) (tag : Option (Fin 32)) (s : State) : State :=
  let told (s : State) : State := (s.emit .aer).cqiEvent CQI_EVT.DMA_ERR
  match tag with
  | none =>
    let i := s.cqi.q[q]
    if i.idx.isNone && i.fetch.isEmpty then s
    else
      let s := queueFaultAt q 7 (told s)
      lastEnd q (idxIssue q (s.modQ q fun i => { i with idx := none, fetch := if i.last then [] else i.fetch }))
  | some t =>
    match s.cmd? q t.val with
    | none => s
    | some c =>
      if c.decided then s
      else
        let n := s.fresh
        finishD q t.val stInternal (Config.faultCode n).toNat 4 (forget q t.val (told s).tickFresh)

/-! ### Interim entries and deadlines -/

/-- INTERIM_DUE: one entry at most, and none once the outcome is registered (R29, R361, R367). -/
def interim (q : Fin 65) (tag eta : Nat) (s : State) : State :=
  match s.cmd? q tag with
  | none => s
  | some c =>
    if c.decided || c.interim then s
    else cqPost q { tag := tag, status := stInterim, result := eta, detail := 0 } (s.modCmd q tag fun c => { c with interim := true })

/-- DEADLINE_PASS: past the point of no return the command goes on and will be LATE (R364, R365). -/
def deadlineOp (q : Fin 65) (tag : Nat) (s : State) : State :=
  match s.cmd? q tag with
  | none => s
  | some c =>
    if c.decided || capDeadline c == 0 then s
    else if c.ponr then s.modCmd q tag fun c => { c with late := true }
    else endEarly q tag stDeadline s

/-! ### Enable and disable -/

/-- IOQ_N (R374). -/
def ioqShow (s : State) : State :=
  s.put CQI_STAT.IOQ_N ((List.finRange 65).filter fun q => q != q0 && s.get (QB_STAT.STATE q) != qNone).length

/-- QUEUE_DISABLE (R368). `same`: a doorbell with SQ = 1 registers in the same cycle; it counts, and the commands below its tail are
still fetched (R367). -/
def qDisable (q : Fin 65) (same : Bool) (s : State) : State :=
  let st := s.get (QB_STAT.STATE q)
  let s := if q ≠ q0 ∧ st = qNone then s else s.put (QB_CTRL.EN q) 0
  if st = qActive ∧ same = true ∧ doorsOpen s = true then
    idxIssue q (qShow q ((s.put (QB_STAT.STATE q) qDisabled).modQ q fun i => { i with dbSq := true, dbAt := s.us, last := true }))
  else if st = qActive ∨ st = qError then
    qShow q ((s.put (QB_STAT.STATE q) qDisabled).modQ q fun i => { i with part := [], fetch := [], dbSq := false, idx := none })
  else s

/-- The registers of queue 0 hold a legal configuration (R370). -/
def cfgOk (s : State) (q : Fin 65) : Bool :=
  decide (4 ≤ s.get (QB_CFG.SQ_LOG2 q)) && decide (s.get (QB_CFG.SQ_LOG2 q) ≤ 8) && decide (6 ≤ s.get (QB_CFG.CQ_LOG2 q))
    && decide (s.get (QB_CFG.CQ_LOG2 q) ≤ 10) && decide (s.get (QB_CFG.VECTOR q) ≤ 127)
    && s.cqi.q[q].low.toList.all (· == 0)

/-- The queue comes up: a new ring starts at entry 0 with phase 1, the SQ head takes the tail read from the index area, and the
error record clears (R369, R370). -/
def qUp (q : Fin 65) (fresh : Bool) (tail head : Option Nat) (s : State) : State :=
  let s := (s.put (QB_CTRL.EN q) 1).put (QB_STAT.STATE q) qActive
  let s := if fresh then ((s.put (QB_POS.CQ_TAIL q) 0).put (QB_POS.PHASE q) 1).modQ q fun i => { i with cqHead := 0 } else s
  let s := qerrBit q false (s.wr (QB_ERR.reg q) 0#32)
  let s := (s.modQ q fun i => { i with newRing := false }).emit (.idxRead q.val)
  match tail, head with
  | some t, some h =>
    if sqSize s q ≤ t ∨ cqSize s q ≤ h then qShow q (queueFaultAt q 1 s)
    else if headPast s q h then qShow q (queueFaultAt q 8 s)
    else qShow q (cqTake q h ((s.put (QB_POS.SQ_HEAD q) t).modQ q fun i => { i with head := t }))
  | _, _ => qShow q (queueFaultAt q 7 ((s.emit .aer).cqiEvent CQI_EVT.DMA_ERR))

/-- QUEUE_ENABLE with what its index read returns; none where that read fails (R347, R369, R370). While no request can be
issued to the host the enable waits. -/
def qEnable (q : Fin 65) (tail head : Option Nat) (s : State) : State :=
  let st := s.get (QB_STAT.STATE q)
  if st = qDisabled then
    if !s.isSet (QB_STAT.IDLE q) then s
    else if q = q0 ∧ cfgOk s q = false then s.put (QB_STAT.CFG_ERR q) 1
    else if !s.hostOpen then s
    else qUp q (s.cqi.q[q].newRing) tail head s
  else if st = qNone ∧ q = q0 then
    if !cfgOk s q || !s.isSet CQI_STAT.READY then s.put (QB_STAT.CFG_ERR q) 1
    else if !s.hostOpen then s
    else qUp q true tail head s
  else s

/-- A write of 1 to QB_CTRL.EN: the bit is set unless R369 or R370 discards the write; the queue comes up when the index area has been read
(QUEUE_ENABLE). -/
def qEnableWrite (q : Fin 65) (s : State) : State :=
  let st := s.get (QB_STAT.STATE q)
  if st = qDisabled ∧ s.isSet (QB_STAT.IDLE q) = true ∨ st = qNone ∧ q = q0 then
    if q = q0 ∧ (cfgOk s q && (st == qDisabled || s.isSet CQI_STAT.READY)) = false then s.put (QB_STAT.CFG_ERR q) 1
    else s.put (QB_CTRL.EN q) 1
  else s

/-- BUS_MASTER_ENABLE: on its return the held messages, entries and reads are issued (R346). -/
def heldOut (s : State) : State :=
  if s.hostOpen then
    let vs := s.cqi.held
    let s := vs.foldl (fun (s : State) v => s.msixReq v) { s with cqi := { s.cqi with held := [] } }
    (List.finRange 65).foldl (fun (s : State) (q : Fin 65) =>
      let s := if s.cqi.q[q].due.isEmpty then s else cqFlush q s
      idxIssue q s) s
  else s

def busMaster (on : Bool) (s : State) : State :=
  heldOut (({ s with cqi := { s.cqi with bme := on } } : State).putBool CQI_STAT.BME_WAIT (!on))

/-! ### Function reset (R371, R372) -/

/-- Every command ends without a completion: unsealed DATA records are discarded, uncommitted groups abandoned (R372). -/
def cmdsEnd (s : State) : State :=
  let s := s.modJrn fun j => { j with
    recs := j.recs.map fun r => { r with owner := [] }
    wait1 := (j.wait1.filter fun w => !w.body.isData).map fun w => { w with owner := [] }
    wait2 := j.wait2.map fun w => { w with owner := [] } }
  let s := s.modArm fun a => { a with groups := [], woWait := a.woWait.map fun w => (w.1, w.2.1, []) }
  { s with cqi := { s.cqi with q := Vector.replicate 65 {}, held := [] } }

/-- Time 0 of a function reset. `config`: configuration space is reset too (R371). -/
def resetStart (config : Bool) (s : State) : State :=
  if s.pw.life != .running then s
  else
    let s := cmdsEnd ((s.put CQI_STAT.READY 0).put CQI_STAT.RESETTING 1)
    if config then
      ({ s with cqi := { s.cqi with bme := false, msixEn := false, fmask := false, mask := BitVec.allOnes 129, pba := 0#129, table := [], d3 := false, cfg := [] } } : State).put
        CQI_STAT.BME_WAIT 1
    else s

/-- The queue's registers take their reset values: its state is NONE. -/
def qClear (q : Nat) (s : State) : State :=
  let s := (((s.clearReg (QB_SQ_BASE_LO.reg q)).clearReg (QB_SQ_BASE_HI.reg q)).clearReg (QB_CQ_BASE_LO.reg q)).clearReg (QB_CQ_BASE_HI.reg q)
  let s := (((s.clearReg (QB_IDX_BASE_LO.reg q)).clearReg (QB_IDX_BASE_HI.reg q)).clearReg (QB_CFG.reg q)).clearReg (QB_CTRL.reg q)
  (((s.clearReg (QB_STAT.reg q)).clearReg (QB_ERR.reg q)).clearReg (QB_DB.reg q)).clearReg (QB_POS.reg q)

/-- The end of a function reset: within 100 ms every queue is in NONE and READY rises (R372). -/
def resetEnd (s : State) : State :=
  if !s.isSet CQI_STAT.RESETTING || s.pw.pfail then s
  else
    let s := (List.range 65).foldl (fun (s : State) q => qClear q s) s
    let s := (List.range 3).foldl (fun (s : State) i => s.clearReg (qerrFld i).reg) (s.clearReg CQI_EVT.reg)
    let s := ioqShow s
    ((s.put CQI_STAT.RESETTING 0).put CQI_STAT.READY 1).cqiEvent CQI_EVT.READY

def execDoorbellSq (q : Fin 65) (s : State) : Outcome := ok (doorSq q s)
def execDoorbellCq (q : Fin 65) (head : BitVec 16) (s : State) : Outcome := ok (doorCq q head.toNat s)
def execIndexReadDone (q : Fin 65) (tail head : BitVec 16) (s : State) : Outcome := ok (indexDone q tail.toNat head.toNat s)
def execSlotFetchDone (q : Fin 65) (slots : List (BitVec 512)) (segs : List (List (BitVec 128))) (estMs freeMs : Nat) (s : State) : Outcome :=
  ok (slotsDone q slots segs estMs freeMs s)
def execMsixUnmask (v : Fin 129) (s : State) : Outcome := ok (msixUnmaskOp v.val s)
def execCqFullPoll (q : Fin 65) (head : BitVec 16) (s : State) : Outcome := ok (cqPoll q head.toNat s)
def execHostMemoryError (q : Fin 65) (tag : Option (Fin 32)) (s : State) : Outcome := ok (hostError q tag s)
def execInterimDue (q : Fin 65) (tag : Fin 32) (eta : Word) (s : State) : Outcome := ok (interim q tag.val eta.toNat s)
def execDeadlinePass (q : Fin 65) (tag : Fin 32) (s : State) : Outcome := ok (deadlineOp q tag.val s)
def execQueueDisable (q : Fin 65) (same : Bool) (s : State) : Outcome := ok (qDisable q same s)
def execQueueEnable (q : Fin 65) (tail head : Option (BitVec 16)) (s : State) : Outcome :=
  ok (qEnable q (tail.map BitVec.toNat) (head.map BitVec.toNat) s)
def execBusMasterEnable (on : Bool) (s : State) : Outcome := ok (busMaster on s)
def execCqiFrst (s : State) : Outcome := ok (resetStart false s)
/-- FUNCTION_RESET: Function Level Reset, D3hot to D0, PERST#. -/
def execFunctionReset (s : State) : Outcome := ok (resetStart true s)

end Sys2Proof.Machine
end

