-- ==== Sys2Proof/Machine/CqiAdmin.lean ====
section
/-! DEFINITION. Admin commands on queues, logs and settings (R376, R387, R388, R394, R396, R397), and mechanism data (R208,
R394). -/
namespace Sys2Proof.Machine

/-! ### The frame of an admin command -/

/-- A check of a capsule: the offset and the command reason it reports, and whether it fails. -/
abbrev Chk := Nat × Nat × Bool

/-- The failed check with the lowest offset. -/
def worst (xs : List Chk) : Option (Nat × Nat) :=
  (xs.filter fun x => x.2.2).foldl (fun (b : Option (Nat × Nat)) x => match b with
    | none => some (x.1, x.2.1)
    | some y => if x.1 < y.1 then some (x.1, x.2.1) else some y) none

/-- The checks every admin command shares: CFLAGS bits it names, its LEN, no deadline, and 0 in the bytes it does not name
(R376). `named`: first byte and length of the fields from byte 8 on. -/
def frameChks (c : Cmd) (flags : Nat) (lenOk : Bool) (named : List (Nat × Nat)) : List Chk :=
  [(1, 0, capFlags c &&& (255 ^^^ flags) != 0), (2, 0, !lenOk), (4, 0, capDeadline c != 0)]
    ++ (List.range (capLen c)).map fun i =>
      (i, 0, decide (8 ≤ i) && !(named.any fun x => decide (x.1 ≤ i) && decide (i < x.1 + x.2)) && capNum c i 1 != 0)

/-- LEN reaches the end of the last field. -/
def lenTo (c : Cmd) (n : Nat) : Bool := decide (n ≤ capLen c) && decide (capLen c ≤ 480)

/-- A row of an admin command acts on the outstanding command of that OPC and tag that has no outcome yet. -/
def adminRow (opc tag : Nat) (f : Cmd → State → State) (s : State) : State :=
  match s.cmd? q0 tag with
  | none => s
  | some c => if c.decided || c.fin.isSome || capOpc c != opc then s else f c s

/-- INVALID_FIELD at the first check that fails, else what the command does. -/
def checked (tag : Nat) (xs : List Chk) (f : State → State) (s : State) : State :=
  match worst xs with
  | some x => finish q0 tag stInvalid (invalidAt x.1 x.2) s
  | none => f s

/-- INVALID_FIELD with a reason. -/
def adminBad (tag off reason : Nat) (s : State) : State := finish q0 tag stInvalid (invalidAt off reason) s

/-- The command has begun and goes on in a later row. -/
def setRunning (tag : Nat) (s : State) : State := s.modCmd q0 tag fun c => { c with running := true }

/-- A command that changes the map, a volume or a disc, which completes with the commit of its record (R322, R387). -/
def adminCommit (tag result : Nat) (t : Tx) (s : State) : State := mapCommit t [(q0, tag)] (finishWith q0 tag stSuccess result s)

/-- In REFUSING it ends with JOURNAL_REFUSED (R387). -/
def unlessRefusing (tag : Nat) (f : State → State) (s : State) : State :=
  if refusing s then finish q0 tag stJournal 0 s else f s

/-- Bytes for the host, descriptor by descriptor (R31, R377). -/
def hostWrite : List (BitVec 128) → List Byte → State → State
  | [], _, s => s
  | d :: ds, bs, s =>
    let x := bs.take (sgLen d)
    if x.isEmpty then s else hostWrite ds (bs.drop (sgLen d)) (s.emit (.hostData (sgAddr d) x.length (leNum x) (relaxed s)))

/-- The check that the descriptors name exactly `total` bytes. -/
def sgChk (c : Cmd) (total : Nat) : Chk :=
  match descsOf c total with
  | .inl o => (o, 0, true)
  | .inr _ => (32, 0, false)

/-- The descriptors of a command that is not limited to one length. -/
def sgAll (c : Cmd) : List (BitVec 128) :=
  match descWalk 1025 false 32 (capDescs c) c.segs with
  | .inl _ => []
  | .inr ds => ds

/-! ### Queues -/

/-- The queue a capsule names, 1-64. -/
def capQueue (c : Cmd) : Fin 65 := Fin.ofNat 65 (capNum c 8 1)

/-- QUEUE_CREATE. -/
def queueCreateOp (tag : Nat) : State → State := adminRow 0x01 tag fun c s =>
  let q := capQueue c
  let n := capNum c 8 1
  let sq := capNum c 10 1 % 16
  let cq := capNum c 10 1 / 16
  checked tag (frameChks c 0 (capLen c == 40) [(8, 4), (16, 24)] ++
    [(8, 0, n == 0 || decide (64 < n) || s.get (QB_STAT.STATE q) != qNone),
      (9, 0, capNum c 9 1 == 0 || decide (4 < capNum c 9 1)),
      (10, 0, decide (sq < 4) || decide (8 < sq) || decide (cq < 6) || decide (10 < cq)),
      (11, 0, decide (127 < capNum c 11 1)), (16, 0, capNum c 16 8 % 4096 != 0), (24, 0, capNum c 24 8 % 4096 != 0), (32, 0, capNum c 32 8 % 64 != 0)])
    (fun s =>
      let s := s.modQ q fun _ => {}
      let s := (s.wr (QB_SQ_BASE_LO.reg q) (BitVec.ofNat 32 (capNum c 16 4))).wr (QB_SQ_BASE_HI.reg q) (BitVec.ofNat 32 (capNum c 20 4))
      let s := (s.wr (QB_CQ_BASE_LO.reg q) (BitVec.ofNat 32 (capNum c 24 4))).wr (QB_CQ_BASE_HI.reg q) (BitVec.ofNat 32 (capNum c 28 4))
      let s := (s.wr (QB_IDX_BASE_LO.reg q) (BitVec.ofNat 32 (capNum c 32 4))).wr (QB_IDX_BASE_HI.reg q) (BitVec.ofNat 32 (capNum c 36 4))
      let s := (((s.put (QB_CFG.SQ_LOG2 q) sq).put (QB_CFG.CQ_LOG2 q) cq).put (QB_CFG.VECTOR q) (capNum c 11 1)).put (QB_CFG.CLASS q) (capNum c 9 1)
      let s := ((s.put (QB_STAT.STATE q) qDisabled).put (QB_POS.CQ_TAIL q) 0).put (QB_POS.PHASE q) 1
      finish q0 tag stSuccess 0 (ioqShow (qShow q s))) s

/-- QUEUE_DELETE (R368, R387). -/
def queueDeleteOp (tag : Nat) : State → State := adminRow 0x02 tag fun c s =>
  let q := capQueue c
  let n := capNum c 8 1
  checked tag (frameChks c 0 (lenTo c 16) [(8, 1)] ++
    [(8, 0, n == 0 || decide (64 < n) || s.get (QB_STAT.STATE q) != qDisabled || !s.isSet (QB_STAT.IDLE q))])
    (fun s => finish q0 tag stSuccess 0 (ioqShow (qClear q.val (qerrBit q false (s.modQ q fun _ => {}))))) s

/-- The target's final completion is decided and not written yet. -/
def owed (s : State) (q : Fin 65) (t : Nat) : Bool := (s.cmd? q t).any Cmd.decided

/-- ABORT: a command caught before its point of no return and its final completion ends with ABORTED, and its entry is written
before the abort's own (R366, R367, R388). -/
def abortOp (tag : Nat) : State → State := adminRow 0x03 tag fun c s =>
  let q := capQueue c
  let t := capNum c 9 1
  let done (s : State) : State := if owed s q t then s else finish q0 tag stSuccess 0 s
  if c.running then done s
  else checked tag (frameChks c 0 (lenTo c 16) [(8, 2)] ++ [(8, 0, capNum c 8 1 == 0 || decide (64 < capNum c 8 1))])
    (fun s => match s.cmd? q t with
      | none => finish q0 tag stAbortMissed 1 s
      | some x =>
        if x.decided || x.ponr then finish q0 tag stAbortMissed 0 s
        else done (setRunning tag (endEarly q t stAborted s))) s

/-! ### Logs -/

/-- The 32 bytes of an event entry (R397, log 39). -/
def eventBytes (x : EventRec) : List Byte :=
  leBytes 8 x.seq ++ leBytes 8 x.us ++ leBytes 2 x.code.code ++ leBytes 1 (Config.eventSeverity x.code.code).val ++ leBytes 1 0
    ++ leBytes 12 (Config.eventArgs x.code.code x.args).toNat

/-- Bytes of an entry of a log. -/
def logSize (n : Nat) : Nat := if n = 3 ∨ n = 4 then 64 else 32

/-- An engine entry as the present snapshot has it (R260, R396). -/
def logEngine (s : State) (e : Nat) : List Byte :=
  let b := s.arm.snap[s.arm.snapCur]
  if b.isEmpty then engineEntry s (Fin.ofNat 8 e) (0, 0) else (b.drop (64 + 32 * e)).take 32

/-- The entries of a log from START on. -/
def logEntries (s : State) (n start : Nat) : List (List Byte) :=
  if n = 1 then ((s.events.filter fun x => start ≤ x.seq).reverse).map eventBytes
  else if n = 2 then (s.arm.map.loss.drop start).map fun x => leBytes 32 (lossBits x).toNat
  else if n = 3 then ((sortBy (fun a b => decide (a < b)) (registered s)).filter fun d => start ≤ d).map fun d => leBytes 64 (s.arm.map.disc d).toNat
  else if n = 4 then ((List.range 256).drop start).map fun v => leBytes 64 (s.arm.map.vol v).toNat
  else ((List.range 8).drop start).map (logEngine s)

/-- The next SEQ a reader of GET_LOG 1 wants: the one after the last entry returned, or after the newest. -/
def nextSeq (s : State) (start n : Nat) : Nat :=
  match ((s.events.filter fun x => start ≤ x.seq).reverse.take n).getLast? with
  | some x => x.seq + 1
  | none => s.evSeq

/-- GET_LOG. -/
def getLogOp (tag : Nat) : State → State := adminRow 0x04 tag fun c s =>
  let n := capNum c 8 1
  let start := capNum c 16 8
  let top := capNum c 24 4
  checked tag (frameChks c 0 (!sgLenBad c) [(8, 1), (16, 12), (32, 480)] ++
    [(8, 0, n == 0 || decide (5 < n)), sgChk c (top * logSize n)])
    (fun s =>
      if !s.hostOpen then s
      else
        let es := (logEntries s n start).take top
        let s := hostWrite (sgAll c) es.flatten s
        finish q0 tag stSuccess (es.length + if n = 1 then nextSeq s start top % 2 ^ 32 * 2 ^ 32 else 0) s) s

/-! ### Settings -/

/-- Settings of one number: IDs from and to, bytes, range (R394). -/
def numSettings : List (Nat × Nat × Nat × Nat × Nat) :=
  [(0x0001, 0x0003, 2, 0, 65535), (0x0004, 0x0005, 4, 1, 600000), (0x0006, 0x0006, 4, 100, 120000), (0x0007, 0x0007, 2, 500, 10000),
    (0x0008, 0x000F, 4, 100, 60000), (0x0010, 0x0010, 4, 10, 60000), (0x0011, 0x0011, 4, 16, 256), (0x0012, 0x0012, 4, 16, 65536),
    (0x0013, 0x0013, 4, 10, 3600), (0x0014, 0x0014, 2, 1, 65535), (0x0015, 0x0015, 4, 60, 86400), (0x0016, 0x0016, 1, 0, 1),
    (0x0017, 0x0017, 1, 1, 8), (0x0018, 0x0018, 2, 64, 1024), (0x0019, 0x0019, 2, 60, 3600), (0x0021, 0x0024, 2, 1, 2048),
    (0x0025, 0x0026, 1, 1, 255), (0x0100, 0x0107, 4, 0, 60000), (0x0108, 0x010F, 4, 0, 0xFFFFFFFF)]

/-- POS and MPT of entry `i` of a gearing table. -/
def gearAt (bs : List Byte) (i : Nat) : Int × Nat := (signed 32 (leNum ((bs.drop (8 * i)).take 4)), leNum ((bs.drop (8 * i + 4)).take 4))

/-- A setting has a known ID, its LEN and a value in range (R394). -/
def settingOk (id : Nat) (v : List Byte) : Bool :=
  (numSettings.any fun x => decide (x.1 ≤ id) && decide (id ≤ x.2.1) && v.length == x.2.2.1 && decide (x.2.2.2.1 ≤ leNum v) && decide (leNum v ≤ x.2.2.2.2))
    || (decide (0x0110 ≤ id) && decide (id < 0x0118) && v.length == 128 && (List.range 16).all fun i =>
      let g := gearAt v i
      decide (-(2 ^ 23) ≤ g.1) && decide (g.1 < 2 ^ 23) && decide (g.2 < 2 ^ 20))
    || (decide (0x0118 ≤ id) && decide (id < 0x0120) && decide (v.length ≤ 256))

/-- The entries of a settings command, or the offset and ID of the first bad one. -/
def settingsWalk (c : Cmd) : Nat → Nat → (Nat × Nat) ⊕ List (Nat × List Byte)
  | 0, _ => .inr []
  | n + 1, off =>
    if capLen c ≤ off then .inr []
    else
      let id := capNum c off 2
      let len := capNum c (off + 2) 2
      let v := (List.range len).map fun i => BitVec.ofNat 8 (capNum c (off + 4 + i) 1)
      let next := off + 4 + (len + 3) / 4 * 4
      if capLen c < off + 4 ∨ capLen c < off + 4 + len ∨ settingOk id v = false
          ∨ ((List.range (next - (off + 4 + len))).any fun i => capNum c (off + 4 + len + i) 1 != 0) = true then .inl (off, id)
      else match settingsWalk c n next with
        | .inl x => .inl x
        | .inr xs => .inr ((id, v) :: xs)

/-- A setting that is made takes effect: a measured spin-up gives way, mechanism data waits for the engine (R254, R394). -/
def settingTakes (id : Nat) (s : State) : State :=
  if 0x0008 ≤ id ∧ id < 0x0010 then s.modSpn (Fin.ofNat 8 (id - 8)) fun p => { p with took := none }
  else if 0x0100 ≤ id ∧ id < 0x0120 then s.modEng (Fin.ofNat 8 (id - 0x0100)) fun g => { g with mechDue := true }
  else s

/-- The engine is parked in the sense of R208. -/
def parked (s : State) (e : Eng) : Bool :=
  s.get (SEAM_STAT.STATE e) == seamIdle && !writing s e && s.get (TMP_STAT.STATE e) == tmpIdle && !s.isSet (RTY_STAT.ACTIVE e) && s.eng[e].att.isNone
    && loopSt s e == 0 && sldRest s e

/-- The gearing table of an engine as Plinth has it; at reset one entry (R394). -/
def gearOf (s : State) (e : Eng) (i : Nat) : Int × Nat :=
  match s.jrn.ents.find? fun x => x.1 = 0x0110 + e.val with
  | some x => gearAt x.2 i
  | none => (0, if i = 0 then 35791 else 0)

/-- Mechanism data takes effect on an engine that is parked, with its gearing off: the encoder's index offset and the gearing
table (R210, R236, R394). R_HOME and the loop parameters are read from Plinth where they are used. -/
def mechApply (e : Eng) (s : State) : State :=
  if s.eng[e].mechDue && s.pw.life == .running && s.get (engPower e) == 2 && parked s e && !s.isSet (SLG_CTRL.EN e) then
    let s : State := { s with encOffs := s.encOffs.set e (signed 32 (setting s (0x0108 + e.val))) }
    let s := (List.finRange 16).foldl (fun (s : State) (i : Fin 16) =>
      (s.putInt (SLG_POS.POS e i) (gearOf s e i).1).put (SLG_MPT.MPT e i) (gearOf s e i).2) s
    s.modEng e fun g => { g with mechDue := false }
  else s

def mechAll (s : State) : State := engs.foldl (fun (s : State) (e : Eng) => mechApply e s) s

/-- A Plinth commit of a command: INTERNAL_FAULT where step 2 or 3 fails on every usable mirror (R334, R394, log 38). -/
def commitOr (tag : Nat) (failed : BitVec 2) (ents : List (Nat × List Byte)) (f : State → State) (s : State) : State :=
  let z := plinthCommit failed ents s
  if z.2 then f z.1
  else finish q0 tag stInternal (Config.faultCode z.1.fresh).toNat z.1.tickFresh

/-- SET_SETTINGS: all entries in one commit, or none (R394). `failed`: mirrors on which it fails. -/
def setSettingsOp (tag : Nat) (failed : BitVec 2) : State → State := adminRow 0x05 tag fun c s =>
  checked tag (frameChks c 0 (lenTo c 16) [(16, 480)] ++ (match settingsWalk c 120 16 with
      | .inl x => [(x.1, x.2, true)]
      | .inr _ => []))
    (unlessRefusing tag fun s => match settingsWalk c 120 16 with
      | .inl _ => s
      | .inr xs =>
        commitOr tag failed (xs.foldl (fun es x => plPut es x.1 (some x.2)) s.jrn.ents) (fun s =>
          finish q0 tag stSuccess 0 (startRebuilds (mechAll (xs.foldl (fun (s : State) x => settingTakes x.1 s) s)))) s) s

/-- The entries GET_SETTINGS returns, in the Plinth format: no keys (R387, R431). -/
def settingsBytes (s : State) : List Byte :=
  (s.jrn.ents.filter fun x => !(decide (0x0300 ≤ x.1) && decide (x.1 ≤ 0x033B))).flatMap fun x =>
    leBytes 2 x.1 ++ leBytes 2 x.2.length ++ x.2 ++ leBytes ((4 - x.2.length % 4) % 4) 0

/-- GET_SETTINGS: as far as its descriptors reach (log 41). -/
def getSettingsOp (tag : Nat) : State → State := adminRow 0x06 tag fun c s =>
  checked tag (frameChks c 0 (!sgLenBad c) [(32, 480)] ++ [match descWalk 1025 false 32 (capDescs c) c.segs with
      | .inl o => (o, 0, true)
      | .inr _ => (32, 0, false)])
    (fun s =>
      if !s.hostOpen then s
      else
        let bs := (settingsBytes s).take (((sgAll c).map sgLen).foldl (· + ·) 0)
        finish q0 tag stSuccess (s.get GLB_PL_GEN.GEN + bs.length * 2 ^ 32) (hostWrite (sgAll c) bs s)) s

def execQueueCreate (tag : Fin 32) (s : State) : Outcome := ok (queueCreateOp tag.val s)
def execQueueDelete (tag : Fin 32) (s : State) : Outcome := ok (queueDeleteOp tag.val s)
def execAbort (tag : Fin 32) (s : State) : Outcome := ok (abortOp tag.val s)
def execGetLog (tag : Fin 32) (s : State) : Outcome := ok (getLogOp tag.val s)
def execSetSettings (tag : Fin 32) (failed : BitVec 2) (s : State) : Outcome := ok (setSettingsOp tag.val failed s)
def execGetSettings (tag : Fin 32) (s : State) : Outcome := ok (getSettingsOp tag.val s)

end Sys2Proof.Machine
end

