-- ==== Sys2Proof/Machine/CqiMedia.lean ====
section
/-! DEFINITION. Admin commands on volumes and discs (R387, R389, R390, and R248, R280, R300, R306, R309, R496). -/
namespace Sys2Proof.Machine

/-! ### Volumes -/

/-- A geometry byte: k in bits 3-0, m in bits 7-4. -/
def kmBad (b : Nat) : Bool := b % 16 == 0 || decide (3 < b / 16) || decide (8 < b % 16 + b / 16)

/-- VOL_CREATE. -/
def volCreateOp (tag : Nat) : State → State := adminRow 0x07 tag fun c s =>
  let v := capVol c
  let key := capNum c 11 1
  checked tag (frameChks c 0 (lenTo c 21) [(8, 4), (16, 5)] ++
    [(8, 0, (s.arm.map.vol v).get Vol.STATE != 0), (9, 0, decide (1 < capNum c 9 1)), (10, 0, kmBad (capNum c 10 1)),
      (11, 0, decide (59 < key) && key != 0xFF), (16, 0, capNum c 16 5 == 0 || decide (2 ^ 37 < capNum c 16 5))])
    (unlessRefusing tag fun s =>
      let r := (((MRec.put 0#512 Vol.STATE 1).put Vol.CLASS (capNum c 9 1)).put Vol.K (capNum c 10 1 % 16)).put Vol.M (capNum c 10 1 / 16)
      adminCommit tag 0 ((txStart s).setVol v ((r.put Vol.KEY key).put Vol.CAP (capNum c 16 5))) s) s

/-- An I/O command of the volume is outstanding. -/
def volBusy (s : State) (v : Nat) : Bool :=
  s.cqi.q.toList.tail.any fun i => i.cmds.any fun c => decide (0x40 ≤ capOpc c) && capVol c == v

/-- The runs of a volume. -/
def volRuns (m : MapImg) (v : Nat) : List Nat :=
  ((m.all pgRun).filter fun x => x.2.get Run.STATE != 0 && x.2.get Run.VOL == v).map fun x => x.2.get Run.RUN

/-- What Armature holds for the runs of a deleted volume goes. -/
def runsForget (v : Nat) (rs : List Nat) (s : State) : State :=
  s.modArm fun a => { a with
    groups := a.groups.filter fun g => g.vol != v
    reshapes := a.reshapes.filter fun r => r.vol != v
    rebuilds := a.rebuilds.filter fun r => !rs.contains r.run
    initB := a.initB.filter fun x => !rs.contains x.1
    resync := a.resync.filter fun x => !rs.contains x.1
    locks := a.locks.filter fun x => !rs.contains x.1
    lockWait := a.lockWait.filter fun x => !rs.contains x.1
    incons := a.incons.filter fun x => !rs.contains x.1
    sources := a.sources.filter fun x => !rs.contains x.1.1
    todo := a.todo.filter fun x => match x with
      | .repair run .. | .zero run .. | .parity run .. => !rs.contains run }

/-- The commit that ends a deletion: extents, runs and reserved targets are released, the record is free (R389). -/
def volDeleteTx (v : Nat) (rs : List Nat) (s : State) : Tx :=
  let t := txStart s
  let t := ((t.1.exts v false) ++ (t.1.exts v true)).foldl (fun (t : Tx) x => t.del pgExt x.1) t
  let t := (s.arm.rebuilds.filter fun r => rs.contains r.run && r.chosen).foldl (fun (t : Tx) r =>
    release r.target r.layer r.first ((s.arm.map.run r.run).get Run.STRIPES) t) t
  let t := rs.foldl (fun (t : Tx) r => releaseRun r t) t
  t.setVol v 0#512

/-- VOL_DELETE: STATE 3 first; once no command of the volume is outstanding, its loss entries go and one commit releases its
runs and sets STATE 0 (R389). -/
def volDeleteOp (tag : Nat) : State → State := adminRow 0x08 tag fun c s =>
  let v := capVol c
  let rest (s : State) : State :=
    if volBusy s v then s
    else
      let rs := volRuns s.arm.map v
      let loss := s.arm.map.loss.filter fun x => x.vol = v
      let dirty := s.arm.map.dirty.filter fun d => rs.contains d.run
      let t := volDeleteTx v rs s
      let s := runsForget v rs s
      let s := if dirty.isEmpty then s else sealAsk (.dirty (dirty.map fun d => (d.run, d.g, d.j, true))) true [] s
      let s := if loss.isEmpty then s else sealAsk (.loss true loss) false [] s
      retireSeal (adminCommit tag 0 t s)
  let st := (s.arm.map.vol v).get Vol.STATE
  if c.running then rest s
  else checked tag (frameChks c 0 (lenTo c 16) [(8, 1)] ++ [(8, 0, st == 0 || st == 3)])
    (unlessRefusing tag fun s =>
      let t := txStart s
      rest (mapCommit (t.setVol v ((t.1.vol v).put Vol.STATE 3)) [] (setRunning tag s))) s

/-- VOL_SEAL: an open group is closed and completes the command with its commit; else STATE 2 does (R286, R389). -/
def volSealOp (tag : Nat) (m : MediaEvents) : State → State := adminRow 0x09 tag fun c s =>
  let v := capVol c
  checked tag (frameChks c 0 (lenTo c 16) [(8, 1)] ++ [(8, 0, !volUp s v)])
    (unlessRefusing tag fun s =>
      if (s.arm.map.vol v).get Vol.STATE = 2 then finish q0 tag stSuccess 0 s
      else
        let t := txStart s
        let t := t.setVol v ((t.1.vol v).put Vol.STATE 2)
        if (woGroup s v).isNone then adminCommit tag 0 t s
        else
          let s := mapCommit t [] (finishWith q0 tag stSuccess 0 (mediaTake m s))
          groupClose m v (modGroup v (fun g => { g with cmds := g.cmds ++ [(q0, tag)] }) s)) s

/-- VOL_RESHAPE: the record takes the new geometry and the runs enter STATE 4; images gathered so far are of the old one. It waits
for a rebuild of the volume's runs (R306-R308, R387). -/
def volReshapeOp (tag : Nat) : State → State := adminRow 0x0A tag fun c s =>
  let v := capVol c
  let km := capNum c 9 1
  checked tag (frameChks c 0 (lenTo c 16) [(8, 2)] ++
    [(8, 0, !volUp s v || s.arm.reshapes.any fun r => r.vol = v),
      (9, 0, kmBad km || (km % 16 == volK s v && km / 16 == volM s v))])
    (unlessRefusing tag fun s =>
      let rs := volRuns s.arm.map v
      if s.arm.rebuilds.any fun r => rs.contains r.run then s
      else
        let r : Reshape := { vol := v, k := volK s v, m := volM s v, live := 0, ckpt := 0 }
        let t := rs.foldl (fun (t : Tx) n => t.modRun n fun r => r.put Run.STATE 4) (txStart s)
        let t := t.setVol v (((t.1.vol v).put Vol.K (km % 16)).put Vol.M (km / 16))
        let s := s.modArm fun a => { a with
          reshapes := a.reshapes ++ [r]
          groups := a.groups.map fun g => if g.vol = v then { g with images := g.images.map fun i => { i with old := true } } else g }
        adminCommit tag 0 t s) s

/-! ### Discs -/

/-- OUTCOME of MEDIA_LOAD beside the identifier (R390). -/
def loadResult (d outcome : Nat) : Nat := d + outcome * 2 ^ 16

/-- The engine a new disc is given: fitted and in placement, with the fewest registered discs (R248). -/
def homeFor (s : State) : Option Eng :=
  let n (e : Eng) : Nat := ((registered s).filter fun d => homeOf s d == e).length
  (engs.filter fun e => !engineOut s e).foldl (fun (b : Option Eng) (e : Eng) => match b with
    | none => some e
    | some x => if n e < n x then some e else some x) none

/-- The record of a new disc: NEXT above the header area and, on BD-R, above what is recorded; FREE what is left (R280, R496). -/
def newDisc (old : MRec) (d mag slot : Nat) (home : Eng) (medium layers capcode : Nat) (zone : Vector (Nat × Nat) 4) (recorded : Vector Nat 4) : MRec :=
  let next (l : Fin 4) : Nat :=
    let f := zone[l].1 + if medium = 3 then 0 else 2048
    if medium = 1 then max f recorded[l] else f
  let used : List (Fin 4) := (List.finRange 4).filter fun l => decide (l.val < layers)
  let free := used.foldl (fun n (l : Fin 4) => n + (zone[l].2 + 1 - next l)) 0
  let r := (((MRec.put 0#512 Dsc.DISC d).put Dsc.MEDIUM medium).put Dsc.LAYERS layers).put Dsc.CAPCODE capcode
  let r := (((r.put Dsc.HOME home.val).put Dsc.MAG mag).put Dsc.SLOT slot).put Dsc.STATE 1
  let r := used.foldl (fun (r : MRec) (l : Fin 4) => r.put (Dsc.NEXT l.val) (next l)) (r.put Dsc.FREE free)
  ((r.put (Dsc.PAT 3) 0x10000).put Dsc.HSEQ_START (old.get Dsc.HSEQ_NEXT)).put Dsc.HSEQ_NEXT (old.get Dsc.HSEQ_NEXT)

/-- What a medium held under an identifier before is not what a new one holds. -/
def mediaForget (d : Nat) (s : State) : State :=
  s.modArm fun a => { a with media := a.media.filter fun x => x.1 / 2 ^ 31 != d, hdrs := a.hdrs.filter fun h => h.disc != d }

/-- A disc is registered: its commit completes the command, and waiting rebuilds look for a target again (R301, R387). -/
def discRegister (tag d outcome : Nat) (e : Eng) (r : MRec) (x : DiscInt) (s : State) : State :=
  let s := (mediaForget d s).modDisc d fun _ => x
  let s := adminCommit tag (loadResult d outcome) ((txStart s).setDisc d r) s
  let s := discIn e d s
  (s.arm.rebuilds.filter fun r => !r.chosen).foldl (fun (s : State) r => targetChoose r.run r.j s) s

/-- The disc is read at 10,000 rpm (R390). -/
def spinFull (e : Eng) (s : State) : State := spnTarget e 10000 (spnStartOp e s)

/-- The media R98 names, with their layer counts. -/
def mediumOk (medium layers : Nat) : Bool :=
  decide (1 ≤ layers) && match medium with
    | 1 => decide (layers ≤ 4) | 2 => decide (layers ≤ 3) | 3 => decide (layers ≤ 2) | _ => false

/-- MEDIA_LOAD: `found` is what the slot holds and what reading it gives. The identifier reported for a disc that is not
registered is open (log 40). -/
def mediaLoadOp (tag : Nat) (found : Found) : State → State := adminRow 0x0B tag fun c s =>
  let mag := capNum c 8 1
  let slot := capNum c 10 2
  let none_ (s : State) (outcome : Nat) : State := finish q0 tag stSuccess (loadResult (Config.noDisc s.fresh).toNat outcome) s.tickFresh
  checked tag (frameChks c 0 (lenTo c 16) [(8, 1), (10, 2)])
    (fun s =>
      match (registered s).find? fun d => (s.arm.map.disc d).get Dsc.MAG == mag && (s.arm.map.disc d).get Dsc.SLOT == slot with
      | some d =>
        let s := if (s.discInt d).loc = .unknown then s.modDisc d fun x => { x with loc := .magazine } else s
        finish q0 tag stSuccess (loadResult d 1) s
      | none =>
        match (List.range 4096).find? fun d => discState s d = 0 with
        | none => none_ s 4
        | some d =>
          match homeFor s with
          | none => finish q0 tag stNotReady 2 s
          | some e =>
            if !exchangeMay s e then s
            else if s.get (engPower e) ≠ 2 then engWake e s
            else match found with
              | .empty => none_ s 5
              | .unsupported => none_ (((discOut e s).emit (.load e d)).emit (.unload e d)) 2
              | .unfocusable =>
                let r := ((((MRec.put 0#512 Dsc.DISC d).put Dsc.HOME e.val).put Dsc.MAG mag).put Dsc.SLOT slot).put Dsc.STATE 4
                let h := (s.arm.map.disc d).get Dsc.HSEQ_NEXT
                let r := ((r.put (Dsc.PAT 3) 0x10000).put Dsc.HSEQ_START h).put Dsc.HSEQ_NEXT h
                (discRegister tag d 3 e r {} (spinFull e (discOut e s))).logEvent .discUnfocusable [d]
              | .disc medium layers capcode zone radii recorded =>
                if !mediumOk medium layers then none_ (((discOut e s).emit (.load e d)).emit (.unload e d)) 2
                else
                  let r := newDisc (s.arm.map.disc d) d mag slot e medium layers capcode zone recorded
                  discRegister tag d 0 e r { zone := zone, radii := radii } (spinFull e (discOut e s))) s

/-- The disc holds a strip of a run, or is reserved as a rebuild's target. -/
def discHolds (s : State) (d : Nat) : Bool :=
  ((s.arm.map.all pgRun).any fun x => x.2.get Run.STATE != 0 && (runDiscs x.2).contains d)
    || s.arm.rebuilds.any fun r => r.chosen && r.target == d

/-- MEDIA_EJECT: the record goes to STATE 0 and keeps HSEQ_NEXT; defects and freed ranges of the disc go; the disc returns to its
slot (R248, R390). -/
def mediaEjectOp (tag : Nat) : State → State := adminRow 0x0C tag fun c s =>
  let d := capNum c 8 2
  checked tag (frameChks c 0 (lenTo c 16) [(8, 2)] ++ [(8, if discHolds s d then 1 else 0, decide (4096 ≤ d) || discState s d == 0 || discHolds s d)])
    (fun s =>
      let at_ := engs.find? fun e => loadedIn s e == some d
      if at_.any fun e => !exchangeMay s e then s
      else
        let s := match at_ with
          | some e => discOut e s
          | none => s
        let t := txStart s
        let t := ((t.1.all pgDef).filter fun x => x.2.get Def.DISC = d).foldl (fun (t : Tx) x => t.del pgDef x.1) t
        let t := ((t.1.all pgRun).filter fun x => x.2.get Run.STATE == 0 && (List.range 8).any fun j => memberUsed x.2 j && x.2.get (Run.DISC j) == d).foldl
          (fun (t : Tx) x =>
            let r := (List.range 8).foldl (fun (r : MRec) j => if memberUsed r j && r.get (Run.DISC j) == d then r.put (Run.MEMBER j) (2 ^ 48 - 1) else r) x.2
            if (List.range 8).any (memberUsed r) then t.set pgRun x.1 r else t.del pgRun x.1) t
        let h := (t.1.disc d).get Dsc.HSEQ_NEXT
        let t := t.setDisc d ((MRec.put 0#512 Dsc.DISC d).put Dsc.HSEQ_NEXT h)
        let s := s.modArm fun a => { a with
          discs := a.discs.filter fun x => x.1 != d
          map := { a.map with windows := a.map.windows.filter fun x => x.1 != d }
          forced := a.forced.filter fun x => x != d }
        let s := s.modJrn fun j => { j with hdrDue := j.hdrDue.filter fun x => x.2.1 != d }
        adminCommit tag 0 t (mediaForget d s)) s

/-- DISC_FAIL: STATE 2, and with REBUILD = 1 the rebuild whatever AUTO_REBUILD says (R300, R387). -/
def discFailCmd (tag : Nat) : State → State := adminRow 0x0D tag fun c s =>
  let d := capNum c 8 2
  checked tag (frameChks c 1 (lenTo c 16) [(8, 2)] ++ [(8, 0, decide (4096 ≤ d) || discState s d == 0)])
    (unlessRefusing tag fun s =>
      let s := if capFlags c = 1 then s.modArm fun a => { a with forced := (a.forced ++ [d]).eraseDups } else s
      if discState s d = 2 then finish q0 tag stSuccess 0 (startRebuilds s)
      else discFailOp d 2 [(q0, tag)] (finishWith q0 tag stSuccess 0 s)) s

/-- DISC_MIGRATE: STATE 5, and the disc's members are moved (R309, R387). -/
def discMigrateOp (tag : Nat) : State → State := adminRow 0x0E tag fun c s =>
  let d := capNum c 8 2
  let st := discState s d
  checked tag (frameChks c 0 (lenTo c 16) [(8, 2)] ++ [(8, 0, decide (4096 ≤ d) || (st != 1 && st != 5))])
    (unlessRefusing tag fun s =>
      if st = 5 then finish q0 tag stSuccess 0 s
      else startRebuilds ((setDiscState d 5 [(q0, tag)] (finishWith q0 tag stSuccess 0 s)).logEvent .discMigrating [d, patinaOf (s.discInt d)])) s

def execVolCreate (tag : Fin 32) (s : State) : Outcome := ok (volCreateOp tag.val s)
def execVolDelete (tag : Fin 32) (s : State) : Outcome := ok (volDeleteOp tag.val s)
def execVolSeal (tag : Fin 32) (m : MediaEvents) (s : State) : Outcome := settled (volSealOp tag.val m s)
def execVolReshape (tag : Fin 32) (s : State) : Outcome := ok (volReshapeOp tag.val s)
def execMediaLoad (tag : Fin 32) (found : Found) (s : State) : Outcome := ok (mediaLoadOp tag.val found s)
def execMediaEject (tag : Fin 32) (s : State) : Outcome := ok (mediaEjectOp tag.val s)
def execDiscFail (tag : Fin 32) (s : State) : Outcome := ok (discFailCmd tag.val s)
def execDiscMigrate (tag : Fin 32) (s : State) : Outcome := ok (discMigrateOp tag.val s)

end Sys2Proof.Machine
end

