-- ==== Sys2Proof/Machine/CqiKeys.lean ====
section
/-! DEFINITION. Admin commands on keys, programs, calibration and firmware, and the hand-over of an activation (R391-R395,
R431, R432, R443-R446). -/
namespace Sys2Proof.Machine

/-! ### Keys -/

/-- A command is still bound to a key that the slot no longer holds (R432). -/
def slotBusy (s : State) (i : Nat) : Bool :=
  s.cqi.q.toList.any fun q => q.cmds.any fun c =>
    !c.decided && decide (0x40 ≤ capOpc c) && keySlot s c == some i && c.key.isSome && c.key != slotKey s i

/-- The wrapped key of a KEY_LOAD. -/
def capWrap (c : Cmd) : List Byte := (c.cap.drop 16).take 72

/-- KEY_LOAD: unwrap, Plinth commit, key bus (R391, R431, R444). -/
def keyLoadOp (tag : Nat) (failed : BitVec 2) : State → State := adminRow 0x0F tag fun c s =>
  let i := capNum c 8 1
  checked tag (frameChks c 0 (lenTo c 88) [(8, 1), (16, 72)] ++ [(8, 0, decide (59 < i))])
    (fun s =>
      if s.get GLB_SEC_STAT.DBG_LEVEL = 2 then adminBad tag 0 3 s
      else match kwUnwrap (rootKey s) (BitVec.ofNat 576 (leNum (capWrap c))) with
        | none => adminBad tag 16 1 s
        | some k =>
          if k.extractLsb' 0 256 = k.extractLsb' 256 256 then adminBad tag 16 2 s
          else if slotBusy s i then s
          else unlessRefusing tag (fun s => commitOr tag failed (plPut s.jrn.ents (0x0300 + i) (some (capWrap c)))
            (fun s => finish q0 tag stSuccess 0 (keySet i (some k) s)) s) s) s

/-- KEY_CLEAR (R391, R431). -/
def keyClearOp (tag : Nat) (failed : BitVec 2) : State → State := adminRow 0x10 tag fun c s =>
  let i := capNum c 8 1
  checked tag (frameChks c 0 (lenTo c 16) [(8, 1)] ++ [(8, 0, decide (59 < i))])
    (fun s =>
      if slotBusy s i then s
      else unlessRefusing tag (fun s => commitOr tag failed (plPut s.jrn.ents (0x0300 + i) none)
        (fun s => finish q0 tag stSuccess 0 (keySet i none s)) s) s) s

/-! ### Programs -/

/-- LEN of a capsule whose transfer may be empty. -/
def sgLenOk (c : Cmd) (total : Nat) : Bool := if total = 0 then capLen c == 16 || capLen c == 32 else !sgLenBad c

/-- Little-endian numbers in a list of bytes. -/
def byteNum (bs : List Byte) (off n : Nat) : Nat := leNum ((bs.drop off).take n)

/-- The reason an Anvil image is refused: 1 MAGIC or CRC, 3 size or a DM entry, 4 the start address (R392). -/
def anvImageBad (b : List Byte) : Option Nat :=
  let nw := byteNum b 4 2
  let nd := byteNum b 8 2
  let dm (i : Nat) : Nat := 16 + 4 * nw + 8 * i
  if b.length < 16 then some 3
  else if byteNum b 0 4 ≠ 0x4C564E41 ∨ (crc32c (b.drop 16)).toNat ≠ byteNum b 12 4 then some 1
  else if nw = 0 ∨ 2048 < nw ∨ 2048 < nd ∨ byteNum b 10 2 ≠ 0 ∨ b.length ≠ 16 + 4 * nw + 8 * nd then some 3
  else if nw ≤ byteNum b 6 2 then some 4
  else if (List.range nd).any fun i =>
    let a := byteNum b (dm i) 2
    decide (0x7FF < a) || (decide (0x7F0 ≤ a) && decide (a ≤ 0x7F7)) || byteNum b (dm i + 2) 2 != 0 then some 3
  else none

/-- The reason a policy image is refused (R255, R392). -/
def polImageBad (b : List Byte) : Option Nat :=
  let n := polSize b 0 + polSize b 1
  if b.isEmpty then none
  else if b.length < 64 then some 3
  else if byteNum b 0 4 ≠ 0x59434C50 then some 1
  else if byteNum b 4 4 ≠ 1 then some 2
  else if b.length ≠ 64 + n ∨ polSize b 3 < 1024 ∨ 262144 < n + polSize b 2 + polSize b 3 ∨ byteNum b 40 24 ≠ 0 then some 3
  else if (List.range 4).any fun e => decide (byteNum b (24 + 4 * e) 4 ≠ 0 ∧ polSize b 0 ≤ byteNum b (24 + 4 * e) 4) then some 4
  else none

/-- The program and DM entries of an image go into an engine (R392, steps 1-3). -/
def anvImagePut (e : Eng) (b : List Byte) (s : State) : State :=
  let bank := !s.isSet (ANV_STAT.BANK_ACT e)
  let nw := byteNum b 4 2
  let s := (List.range 2048).foldl (fun (s : State) a =>
    pmSet e bank a (if a < nw then BitVec.ofNat 32 (byteNum b (16 + 4 * a) 4) else 0#32) s) s
  let s := if bank then s.put (ANV_START.START1 e) (byteNum b 6 2) else s.put (ANV_START.START0 e) (byteNum b 6 2)
  (List.range (byteNum b 8 2)).foldl (fun (s : State) i =>
    anvDm e (byteNum b (16 + 4 * nw + 8 * i) 2) (BitVec.ofNat 32 (byteNum b (20 + 4 * nw + 8 * i) 3)) s) s

/-- The bank is switched; a fault trip is cleared first, a stopped program runs (R392, step 4). -/
def anvSwitch (e : Eng) (s : State) : State :=
  let s := if s.isSet (ANV_STAT.FAULT_TRIP e) then anvTripClear e s else s
  let s := anvBank e (!s.isSet (ANV_STAT.BANK_ACT e)) s
  if s.isSet (ANV_STAT.RUNNING e) then s else anvRunOp e s

/-- The engines of a mask. -/
def maskEngs (m : Nat) : List Eng := engs.filter fun e => m.testBit e.val

/-- A policy image takes the place of the one loaded: at once on idle cores, at the call's end on the others (R274, R392). -/
def policyTake (b : List Byte) (s : State) : State :=
  let on := (List.range 4).foldl (fun m e => if byteNum b (24 + 4 * e) 4 = 0 then m else m + 2 ^ e) 0
  let s := s.modArm fun a => { a with image := b, faultAt := Vector.replicate 4 [] }
  let s := (s.put GLB_POL_STAT.LOADED on).put GLB_POL_STAT.ACTIVE on
  let s := if b.isEmpty then s else (List.finRange 4).foldl (fun (s : State) (e : Fin 4) => s.wr (GLB_POL_CNT.reg (e.val + 1)) 0#32) (s.incWrap GLB_POL_STAT.GEN)
  (List.finRange 4).foldl (fun (s : State) (c : Fin 4) =>
    if s.arm.plc[c].call.isSome then s.modPlc c fun p => { p with reload := true } else coreReload c s) s

/-- PROGRAM_LOAD; `image` is what its descriptors hold. -/
def programLoadOp (tag : Nat) (image : List Byte) : State → State := adminRow 0x11 tag fun c s =>
  let kind := capNum c 8 1
  let es := maskEngs (capNum c 9 1)
  let len := capNum c 12 4
  let sw := decide (kind = 2) || capFlags c == 1
  let switched (s : State) : State :=
    if es.any fun e => s.isSet (ANV_STAT.SW_PEND e) then s else finish q0 tag stSuccess 0 s
  let loaded (s : State) : State := if s.arm.plc.toList.any Plc.reload then s else finish q0 tag stSuccess 0 s
  if c.running then (if kind = 1 then loaded s else switched s)
  else checked tag (frameChks c 1 (sgLenOk c len) [(8, 2), (12, 4), (32, 480)] ++
    [(8, 0, decide (2 < kind)), (9, 0, kind != 1 && es.any fun e => !engFitted s e), (12, 0, kind == 2 && len != 0), sgChk c len])
    (fun s =>
      if image.length ≠ len then s
      else if kind = 1 then match polImageBad image with
        | some r => adminBad tag 32 r s
        | none => loaded (policyTake image (setRunning tag s))
      else match if kind = 0 then anvImageBad image else none with
        | some r => adminBad tag 32 r s
        | none =>
          if es.any fun e => s.get (engPower e) != 2 then es.foldl (fun (s : State) (e : Eng) => engWake e s) s
          else if es.any fun e => s.isSet (ANV_STAT.SW_PEND e) then s
          else
            let s := if kind = 0 then es.foldl (fun (s : State) (e : Eng) => anvImagePut e image s) s else s
            if sw then switched (es.foldl (fun (s : State) (e : Eng) => anvSwitch e s) (setRunning tag s))
            else finish q0 tag stSuccess 0 s) s

/-! ### Calibration -/

/-- The offset names a register of the engine's calibration set (R167, R393). -/
def calHas (e : Eng) (off : Word) : Bool :=
  let r := engReg e off.toNat
  (List.range 5).any fun k => (calRegs e k).contains r || (adcRegs e k).contains r

/-- One entry is written (R161, R169). -/
def calPut (e : Eng) (x : Word × Word) (s : State) : State :=
  let r := engReg e x.1.toNat
  match (List.finRange 5).find? fun (a : Chn) => r = TMP_ADCMAP.reg e a.val with
  | some a => adcMapWrite e a x.2 s
  | none => match ((List.finRange 5).flatMap fun (a : Chn) => (List.finRange 10).map fun (i : Fin 10) => (a, i)).find? fun p => r = TMP_ADCTRIM.reg e p.1.val p.2.val with
    | some p => adcTrimWrite e p.1 p.2 x.2 s
    | none => match (List.finRange 5).find? fun (k : Chn) => r.blk == .ch && r.k == k.val with
      | some k => chValue e k r x.2 s
      | none => s.wrTyped r 0xF#4 x.2

/-- CAL_RESTORE: TMP_CTRL.EN is 0 until the set is written, and then as it stood before; the hold bits of R169 are set and cleared within
the step. `ents` is what its descriptors hold (R168, R169, R393). -/
def calRestoreOp (tag : Nat) (ents : List (Word × Word)) : State → State := adminRow 0x12 tag fun c s =>
  let e : Eng := Fin.ofNat 8 (capNum c 8 1)
  let n := capNum c 12 4
  checked tag (frameChks c 0 (sgLenOk c (8 * n)) [(8, 1), (12, 4), (32, 480)] ++
    [(8, 0, decide (7 < capNum c 8 1) || !engFitted s e), sgChk c (8 * n)])
    (fun s =>
      if ents.length ≠ n then s
      else match (List.range n).find? fun i => !(ents[i]?.any fun x => calHas e x.1) with
        | some i => adminBad tag 32 (min 0xFFFF (1 + i)) s
        | none =>
          if s.get (engPower e) ≠ 2 then engWake e s
          else if s.get (TMP_STAT.STATE e) ≠ tmpIdle ∨ writing s e = true then
            (s.modCmd q0 tag fun x => { x with tmpEn := some (x.tmpEn.getD (s.isSet (TMP_CTRL.EN e))) }).put (TMP_CTRL.EN e) 0
          else
            let en := c.tmpEn.getD (s.isSet (TMP_CTRL.EN e))
            let s := ents.foldl (fun (s : State) x => calPut e x s) s
            let s := (List.range 5).foldl (fun (s : State) k => ((s.put (CH_CTRL.AGC_HOLD e k) 0).put (CH_CTRL.XT_HOLD e k) 0).put (CH_CTRL.EQ_HOLD e k) 0) s
            finish q0 tag stSuccess 0 (s.putBool (TMP_CTRL.EN e) en)) s

/-! ### Firmware -/

/-- Change what SEC holds. -/
def secOf (f : SecInt → SecInt) (s : State) : State := { s with sec := f s.sec }

/-- A boot NOR slot takes new contents. -/
def norSet (i : Fin 2) (x : Option Img) (s : State) : State :=
  secOf (fun z => { z with nor := some ((z.nor.getD (Vector.replicate 2 none)).set i x) }) s

/-- No image is staged any more. -/
def unstage (s : State) : State :=
  (secOf (fun z => { z with staged := none }) ((s.put GLB_SEC_STAT.STAGED 0).put GLB_FW_STAGED.VERSION 0))

/-- The reason a staged image is refused: 1 size, 2 signature, 3 version (R395, R441, R443). -/
def stageBad (s : State) (i : Img) : Option Nat :=
  if 20967424 < i.bodyLen then some 1
  else if !(i.magic && !s.sec.fuse.revoke.getLsbD i.keyIdx.val && i.sig && bcrOk s.sec.fuse i.bcr && i.hash) then some 2
  else if i.svn < max (fuseSvn s.sec.fuse) (setting s 0x0340) then some 3
  else none

/-- FW_STAGE; `hdr` is the image as SEC finds it when its last chunk has come (R395, R443). -/
def fwStageOp (tag : Nat) (hdr : Img) : State → State := adminRow 0x13 tag fun c s =>
  let off := capNum c 16 4
  let total := capNum c 20 4
  let len := ((sgAll c).map sgLen).foldl (· + ·) 0
  checked tag (frameChks c 1 (!sgLenBad c) [(16, 8), (32, 480)] ++
    [(0, 1, s.sec.hand.isSome), (16, 1, off % 4096 != 0 || decide (total < off + len)), (20, 1, decide (20 * 2 ^ 20 < total)),
      (match descWalk 1025 false 32 (capDescs c) c.segs with
        | .inl o => (o, 0, true)
        | .inr _ => (32, 1, decide (4 * 2 ^ 20 < len)))])
    (fun s =>
      let s := norSet (1 - s.sec.runSlot) none (unstage s)
      if capFlags c = 0 then finish q0 tag stSuccess 0 s
      else match stageBad s hdr with
        | some r => adminBad tag 32 r s
        | none =>
          let s := secOf (fun z => { z with staged := some hdr }) ((s.put GLB_SEC_STAT.STAGED 1).put GLB_FW_STAGED.VERSION hdr.version.toNat)
          finish q0 tag stSuccess 0 s) s

/-- FW_ACTIVATE: the hand-over begins (R395, R445). A second one waits. -/
def fwActivateOp (tag : Nat) : State → State := adminRow 0x14 tag fun c s =>
  if c.running || s.sec.hand.isSome then s
  else checked tag (frameChks c 0 (lenTo c 16) [] ++ [(0, 1, s.sec.staged.isNone)])
    (fun s => setRunning tag (secOf (fun z => { z with hand := some (tag, 0) }) (s.put GLB_SEC_STAT.ACTIVATING 1))) s

/-- SEC ends the activation: the header page with ACT_SEQ one above the other slot's (R445, R446). -/
def fwFinish (tag : Nat) (img : Img) (s : State) : State :=
  let old := s.get GLB_FW_VER.VERSION
  let j := s.sec.runSlot
  let other := ((s.sec.nor.bind fun n => n[j]).map Img.actSeq).getD 0
  let s := norSet (1 - j) (some { img with actSeq := other + 1 }) (unstage s)
  let s := secOf (fun z => { z with hand := none, runSlot := 1 - j }) (s.put GLB_SEC_STAT.ACTIVATING 0)
  let s := (s.put GLB_FW_VER.VERSION img.version.toNat).logEvent .fwActivated [old, img.version.toNat]
  match s.cmd? q0 tag with
  | some c => if c.running && capOpc c == 0x14 then finish q0 tag stSuccess img.version.toNat s else s
  | none => s

/-- FW_HANDOVER: the next processor in order takes the new code: ESQ0-7, PLC0-3 outside a call, SUP, the HST pair with
completions paused, then SEC's end (R445). -/
def fwHandoverOp (s : State) : State :=
  match s.sec.hand, s.sec.staged with
  | some (tag, n), some img =>
    let next (s : State) : State := secOf (fun z => { z with hand := some (tag, n + 1) }) s
    if 8 ≤ n ∧ n < 12 then (if (s.arm.plc[Fin.ofNat 4 n]).call.isSome then s else next s)
    else if n = 13 then next { s with cqi := { s.cqi with paused := true } }
    else if n = 14 then heldOut (next { s with cqi := { s.cqi with paused := false } })
    else if n < 15 then next s
    else fwFinish tag img s
  | _, _ => s

/-- The processor ID at a step of the hand-over (R17). -/
def handId (n : Nat) : Nat := if n < 8 then 8 + n else if n < 12 then n - 8 else if n = 12 then 6 else 4

/-- ACTIVATION_TIMEOUT: before SEC's step the activation is aborted: the tail is committed and a warm reset follows (R446).
`ready`: new code has not reported ready. -/
def activationOut (ready : Bool) (s : State) : State :=
  match s.sec.hand with
  | some (_, n) => if n < 15 then tailReset 5 (s.logEvent .activationAborted [handId n, if ready then 2 else 1]) else s
  | none => s

def execKeyLoad (tag : Fin 32) (failed : BitVec 2) (s : State) : Outcome := ok (keyLoadOp tag.val failed s)
def execKeyClear (tag : Fin 32) (failed : BitVec 2) (s : State) : Outcome := ok (keyClearOp tag.val failed s)
def execProgramLoad (tag : Fin 32) (image : List Byte) (s : State) : Outcome := ok (programLoadOp tag.val image s)
def execCalRestore (tag : Fin 32) (ents : List (Word × Word)) (s : State) : Outcome := ok (calRestoreOp tag.val ents s)
def execFwStage (tag : Fin 32) (hdr : Img) (s : State) : Outcome := ok (fwStageOp tag.val hdr s)
def execFwActivate (tag : Fin 32) (s : State) : Outcome := ok (fwActivateOp tag.val s)
def execFwHandover (s : State) : Outcome := ok (fwHandoverOp s)
def execActivationTimeout (ready : Bool) (s : State) : Outcome := settled (activationOut ready s)

end Sys2Proof.Machine
end

