-- ==== Sys2Proof/Machine/CqiIo.lean ====
section
/-! DEFINITION. READ, WRITE, VERIFY and FLUSH (R266, R285-R290, R296-R299, R378-R383, R434). -/
namespace Sys2Proof.Machine

/-- A row of an I/O command acts on the outstanding command of that OPC and tag that has no outcome yet. -/
def ioRow (opc : Nat) (q : Fin 65) (tag : Nat) (f : Cmd → State → State) (s : State) : State :=
  match s.cmd? q tag with
  | none => s
  | some c => if q = q0 || c.decided || c.fin.isSome || capOpc c != opc then s else f c s

/-! ### Blocks -/

/-- The cipher bypasses a volume without a key (R434). A block that holds nothing but zeros was never written, or was lost, and
reads as zeros (R250, R289, R297, log 42). -/
def plainOf (key : Option (BitVec 512)) (lba : Nat) (b : Block) : Block :=
  match key with
  | none => b
  | some k => if b = 0#32768 then b else xts aesDec k lba b

/-- A block as it goes to the journal and to media (R434). -/
def cipherOf (key : Option (BitVec 512)) (lba : Nat) (b : Block) : Block :=
  match key with
  | none => b
  | some k => xts aesEnc k lba b

/-- Blocks as one number, the first lowest. -/
def blocksNum (bs : List Block) : Nat := bs.foldr (fun b z => b.toNat + 2 ^ 32768 * z) 0

/-- Data for the host, descriptor by descriptor (R31, R377). -/
def hostBlocks : List (BitVec 128) → Nat → State → State
  | [], _, s => s
  | d :: ds, v, s => hostBlocks ds (v >>> (8 * sgLen d)) (s.emit (.hostData (sgAddr d) (sgLen d) (v % 2 ^ (8 * sgLen d)) (relaxed s)))

/-- The block of an LBA in a DATA record. -/
def bodyBlock (v lba : Nat) : JBody → Option Block
  | .data w a bs => if w = v ∧ a ≤ lba then bs[lba - a]? else none
  | .map .. | .dirty _ | .retire _ | .checkpoint .. | .loss .. | .mapckpt .. | .quench .. | .boot .. | .pad _ => none

/-- What unretired DATA records hold for an LBA; the latest wins (R32, R291). -/
def overlay (s : State) (v lba : Nat) : Option Block :=
  (s.jrn.recs.filter fun r => !r.retired).foldl (fun (z : Option Block) r => (bodyBlock v lba r.body).orElse fun _ => z) none

/-! ### Reading -/

/-- A cluster of a run. -/
abbrev ClKey := Nat × Nat × Nat × Nat

def spotKey (p : Spot250) : ClKey := (p.run, p.stripe, p.row, p.j)

/-- What an LBA of a read is served from: the journal, nothing written, lost, or a block of a cluster. -/
inductive Src
  | journal (b : Block) | unwritten | gone | media (p : Spot250)
deriving DecidableEq, Repr

/-- The source of an LBA; a verify uses no DDR4 buffer (R250, R297, R382). -/
def srcOf (s : State) (verify : Bool) (v lba : Nat) : Src :=
  match if verify then none else overlay s v lba with
  | some b => .journal b
  | none => match resolve s v lba with
    | none => .unwritten
    | some p => if blkLost s p then .gone else .media p

/-- The cluster a source names. -/
def Src.key? : Src → Option ClKey
  | .media p => some (spotKey p)
  | .journal _ | .unwritten | .gone => none

/-- The set of an answer RECONSTRUCT that waits for a read of a member's range (R263). -/
def setFor (s : State) (k : ClKey) : Option (BitVec 8) := (s.arm.sources.find? fun x => x.1 = (k.1, k.2.1, k.2.2.2)).map Prod.snd

/-- A cluster for a read: by the set the answer names, else directly, else from any members that serve (R263, R279, R296). -/
def fetchCl (s : State) (m : MediaEvents) (verify : Bool) (k : ClKey) : Got :=
  let set := if verify then none else
    match setFor s k with
    | none => none
    | some x =>
      let js := (List.range 8).filter fun j => x.getLsbD j
      if js.all fun j => (sourcesOf s m k.1 k.2.1 k.2.2.1 k.2.2.2).contains j then some js else none
  match set with
  | none => getCluster s m k.1 k.2.1 k.2.2.1 k.2.2.2
  | some js => match reconstruct s m k.1 k.2.1 k.2.2.1 k.2.2.2 (some js) with
    | .rebuilt c => .rebuilt c
    | .direct _ | .lost | .out => getCluster s m k.1 k.2.1 k.2.2.1 k.2.2.2

/-- The outcome of a cluster among those fetched. -/
def gotOf (gs : List (ClKey × Got)) (k : ClKey) : Got := ((gs.find? fun x => x.1 = k).map Prod.snd).getD .out

/-- The data of an LBA, or none where it is lost. -/
def srcBlock (gs : List (ClKey × Got)) : Src → Option Block
  | .journal b => some b
  | .unwritten => some 0#32768
  | .gone => none
  | .media p => (gotOf gs (spotKey p)).val.map fun w => w[p.blk]?.getD 0#32768

/-- What reading leaves: rows that lose clusters, and clusters handed on at rung 7 that are repaired unless their run is being
rebuilt (R296, R297). -/
def readLeaves (m : MediaEvents) (gs : List (ClKey × Got)) (s : State) : State :=
  let rows := ((gs.filter fun g => g.2 = .lost).map fun g => (g.1.1, g.1.2.1, g.1.2.2.1)).eraseDups
  let s := rows.foldl (fun (s : State) (r : Nat × Nat × Nat) => loseRow m r.1 r.2.1 r.2.2 1 s) s
  gs.foldl (fun (s : State) (g : ClKey × Got) => match g.2 with
    | .rebuilt _ =>
      let k := g.1
      if m.bad.contains (whereIs s k.1 k.2.1 k.2.2.1 k.2.2.2) && !s.arm.rebuilds.any fun r => r.run = k.1 then
        addTodo (.repair k.1 k.2.1 k.2.2.1 k.2.2.2) s
      else s
    | .direct _ | .lost | .out => s) s

/-- The blocks of a READ go to the host's buffers (R380); a VERIFY sends none. -/
def readSend (verify : Bool) (ds : List (BitVec 128)) (c : Cmd) (bs : List (Option Block)) (s : State) : State :=
  if verify then s
  else hostBlocks ds (blocksNum ((List.range (capNlb c)).map fun i => match bs[i]?.getD none with
    | some b => plainOf c.key (capSlba c + i) b
    | none => 0#32768)) s

/-- The completion of a range that could be read: MEDIUM_LOST with the first lost block and their number, else whether a block was
rebuilt (R297, R375). -/
def readEnd (q : Fin 65) (tag : Nat) (c : Cmd) (lost : List Nat) (rebuilt : Bool) (s : State) : State :=
  match lost with
  | i :: _ => finish q tag stLost (capSlba c + i + lost.length * 2 ^ 40) s
  | [] => finish q tag (if rebuilt then stReconstructed else stSuccess) 0 s

/-- A READ or VERIFY reads its range: NOT_READY where a part cannot be had now, else MEDIUM_LOST, SUCCESS_RECONSTRUCTED or SUCCESS
(R297, R375, R380, R382). -/
def readRange (q : Fin 65) (tag : Nat) (verify : Bool) (ds : List (BitVec 128)) (m : MediaEvents) (c : Cmd) (s : State) : State :=
  let s := mediaTake m s
  let src := (List.range (capNlb c)).map fun i => srcOf s verify (capVol c) (capSlba c + i)
  let gs := ((src.filterMap Src.key?).eraseDups).map fun k => (k, fetchCl s m verify k)
  let s := readLeaves m gs s
  let s := s.modArm fun a => { a with sources := a.sources.filter fun x => !gs.any fun g => x.1 = (g.1.1, g.1.2.1, g.1.2.2.2) }
  if gs.any fun g => g.2 = .out then finish q tag stNotReady 2 s
  else
    let bs := src.map (srcBlock gs)
    let lost := (List.range (capNlb c)).filter fun i => (bs[i]?.getD none).isNone
    let rebuilt := gs.any fun g => match g.2 with
      | .rebuilt _ => true
      | .direct _ | .lost | .out => false
    readEnd q tag c lost rebuilt (readSend verify ds c bs s)

/-- READ. -/
def readOp (q : Fin 65) (tag : Nat) (m : MediaEvents) : State → State := ioRow opRead q tag fun c s =>
  match descsOf c (capNlb c * 4096) with
  | .inl _ => s
  | .inr ds => if s.hostOpen then readRange q tag false ds m c s else s

/-- Clusters of a volume's range that unretired DATA records still have to bring to media, of records below `top`. -/
def undestaged (s : State) (v lba n top : Nat) : List ClKey :=
  (s.jrn.recs.filter fun r => !r.retired && decide (r.seq < top)).flatMap (fun r => match r.body with
    | .data w a bs =>
      if w = v ∧ a < lba + n ∧ lba < a + bs.length then
        (((List.range bs.length).flatMap fun i => if lba ≤ a + i ∧ a + i < lba + n then (spotsOf s v (a + i)).map spotKey else []).eraseDups).filter
          fun k => !s.arm.destaged.contains (r.seq, k)
      else []
    | .map .. | .dirty _ | .retire _ | .checkpoint .. | .loss .. | .mapckpt .. | .quench .. | .boot .. | .pad _ => []) |>.eraseDups

/-- Destages of clusters are started or taken further; the engines of their rows are woken (R291, R382, R383). -/
def destageAll (m : MediaEvents) (ks : List ClKey) (s : State) : State :=
  ks.foldl (fun (s : State) (k : ClKey) =>
    let s := (runMembers (s.arm.map.run k.1)).foldl (fun (s : State) j => engWake (homeOf s (whereIs s k.1 k.2.1 k.2.2.1 j).1) s) s
    destageOp k.1 k.2.1 k.2.2.1 k.2.2.2 m s) s

/-- VERIFY: first the destage of what touches the range, then every cluster is read from media (R382). -/
def verifyOp (q : Fin 65) (tag : Nat) (m : MediaEvents) : State → State := ioRow opVerify q tag fun c s =>
  let left (s : State) : List ClKey := undestaged s (capVol c) (capSlba c) (capNlb c) s.jrn.next
  let s := if (left s).isEmpty then s else destageAll m (left s) s
  if (left s).isEmpty then readRange q tag true [] m c s else s

/-! ### Writing -/

/-- No media can be reserved, or no loss entries: class 2 and "retry after adding media" (R299, R381). -/
def noRoom (q : Fin 65) (tag : Nat) (s : State) : State := finish q tag stRefused (0xFFFFFFFF + 2 * 2 ^ 32) s

/-- The places of a write's LBAs. -/
def writeSpots (s : State) (c : Cmd) : List Spot250 := (List.range (capNlb c)).flatMap fun i => spotsOf s (capVol c) (capSlba c + i)

/-- Room for the splits of the loss entries a write touches in part: 8 free ones each (R299). -/
def lossRoom (s : State) (ps : List Spot250) : Bool :=
  let hit := s.arm.map.loss.filter fun x => lossAfter ps [x] != [x] && !(lossAfter ps [x]).isEmpty
  hit.isEmpty || decide (s.arm.map.loss.length + 8 * hit.length ≤ 65536)

/-- Volume stripes of a write in each geometry it is written in (R307): the geometry a reshape is leaving, the stripe. -/
def writeStripes (s : State) (c : Cmd) : List (Bool × Nat) :=
  let v := capVol c
  ((List.range (capNlb c)).flatMap fun i => (lbaGeos s v (capSlba c + i)).map fun old => (old, (capSlba c + i) / (256 * (volGeo s v old).1))).eraseDups

/-- The volume stripe is mapped in a geometry. -/
def stripeIsMapped (s : State) (v : Nat) (x : Bool × Nat) : Bool :=
  let k := (volGeo s v x.1).1
  (s.arm.map.resolveBy v k (256 * k * x.2) x.1).isSome

/-- Free stripes of the volume's filling runs: those a write may take now, and all. -/
def freeStripes (s : State) (v : Nat) (old : Bool) : Nat × Nat :=
  (openRuns s v old).foldl (fun (z : Nat × Nat) r =>
    let u := runUsed s (r.get Run.RUN)
    (z.1 + (initOf s (r.get Run.RUN) - u), z.2 + (r.get Run.STRIPES - u))) (0, 0)

/-- What a reservation comes to. -/
inductive Room
  | ready | wait | ask
deriving DecidableEq, Repr

/-- Media for `need` more stripes of a volume in a geometry: an RW volume takes initialised ones (R287, R289, R381). -/
def roomOf (s : State) (v : Nat) (old : Bool) (need : Nat) : Room :=
  let f := freeStripes s v old
  if need ≤ (if isWo s v then f.2 else f.1) then .ready else if need ≤ f.2 then .wait else .ask

/-- Stripes a WRITE needs in a geometry: of a WO volume those of every image not written yet, of an RW volume the unmapped ones. -/
def stripesNeeded (s : State) (c : Cmd) (old : Bool) : Nat :=
  let v := capVol c
  let xs := (writeStripes s c).filter fun x => x.1 == old
  if isWo s v then
    let is := ((woGroup s v).map fun g => g.images.filter fun i => i.placed.isNone && i.old == old).getD []
    is.length + (xs.filter fun x => !is.any fun i => i.vs = x.2).length
  else (xs.filter fun x => !stripeIsMapped s v x).length

/-- Reserve media for a WRITE and go on with it; it waits for a choice that is asked for or a stripe that is being initialised, and
is refused where the choice finds no media (R381). -/
def withRoom (q : Fin 65) (tag : Nat) (c : Cmd) (go : State → State) (s : State) : State :=
  let v := capVol c
  let room (s : State) (old : Bool) : Room := roomOf s v old (stripesNeeded s c old)
  let short (s : State) : Option Bool := [false, true].find? fun old => room s old == .ask
  let next (s : State) : State := if [false, true].all fun old => room s old == .ready then go s else s
  match short s with
  | none => next s
  | some old =>
    if c.running && s.arm.noGroup.contains v then noRoom q tag s
    else
      let s := askRun v old (s.modCmd q tag fun c => { c with running := true })
      if (short s).isNone then next s else if s.arm.noGroup.contains v then noRoom q tag s else s

/-- Map the unmapped volume stripes of a write to the next initialised stripes, in one commit (R289). -/
def mapWrite (c : Cmd) (s : State) : State :=
  let v := capVol c
  let t := ((writeStripes s c).filter fun x => !stripeIsMapped s v x).foldl (fun (t : Tx) x =>
    match nextInit (s.modArm fun a => { a with map := t.1 }) v x.1 with
    | some y => mapStripe v x.2 y.1 y.2 x.1 t
    | none => t) (txStart s)
  mapCommit t [] s

/-- The host data as DATA records of up to 32 blocks, in LBA order (R290). -/
def dataBodies (v : Nat) : Nat → Nat → List Block → List JBody
  | 0, _, _ => []
  | n + 1, lba, bs => if bs.isEmpty then [] else .data v lba (bs.take 32) :: dataBodies v n (lba + 32) (bs.drop 32)

/-- The records of a write are sealed; it completes with the commit of the last one, whose SEQ is its RESULT (R32, R290, R381). -/
def sealWrite (q : Fin 65) (tag : Nat) (c : Cmd) (bs : List Block) (s : State) : State :=
  let xs := dataBodies (capVol c) bs.length (capSlba c) bs
  let s := finishWith q tag stSuccess 0 s
  (List.range xs.length).foldl (fun (s : State) i => match xs[i]? with
    | some b => sealAsk b (i + 1 == xs.length) [(q, tag)] s
    | none => s) s

/-- A write to a write-once volume joins the commit group, past its point of no return; it waits while a closed group is not yet
committed (R286, R365). -/
def woWrite (q : Fin 65) (tag : Nat) (c : Cmd) (bs : List Block) (m : MediaEvents) (s : State) : State :=
  if (woGroup s (capVol c)).any Group.closed then s
  else withRoom q tag c (fun s =>
    let s := finishWith q tag stSuccess 0 (s.modCmd q tag fun c => { c with ponr := true })
    woJoin m (capVol c) (capSlba c) bs (q, tag) (mediaTake m s)) s

/-- A write to a rewritable volume: it waits for seals ahead of it and for regions under resynchronisation, maps its stripes and
seals its records (R289, R290, R293). -/
def rwWrite (q : Fin 65) (tag : Nat) (c : Cmd) (bs : List Block) (s : State) : State :=
  if refusing s then finish q tag stJournal 0 s
  else if !s.jrn.wait1.isEmpty then s
  else if (writeSpots s c).any fun p => s.arm.resync.any fun x => x.1 = p.run && x.2.1 = p.stripe / 16 then s
  else withRoom q tag c (fun s => sealWrite q tag c bs (mapWrite c s)) s

/-- WRITE: `data` is what the host's buffers hold, one block per LBA (R381). -/
def writeOp (q : Fin 65) (tag : Nat) (data : List Block) (m : MediaEvents) : State → State := ioRow opWrite q tag fun c s =>
  let v := capVol c
  let st := (s.arm.map.vol v).get Vol.STATE
  if data.length ≠ capNlb c ∨ !s.hostOpen then s
  else if st = 2 then finish q tag stSealed 0 s
  else if st ≠ 1 then finish q tag stInvalid (invalidAt 8 0) s
  else if !lossRoom s (writeSpots s c) then noRoom q tag (s.logEvent .lossListFull [])
  else
    let bs := (List.range data.length).map fun i => cipherOf c.key (capSlba c + i) (data[i]?.getD 0#32768)
    if isWo s v then woWrite q tag c bs m s else rwWrite q tag c bs s

/-! ### Flushing -/

/-- The volumes a FLUSH names. -/
def flushVols (s : State) (c : Cmd) : List Nat := if capVol c = 0xFF then (List.range 256).filter (volUp s) else [capVol c]

/-- WRITEs to a volume fetched before a command that have not completed. -/
def writesBefore (s : State) (c : Cmd) (v : Nat) : List Cmd :=
  s.cqi.q.toList.flatMap fun i => i.cmds.filter fun x => capOpc x == opWrite && capVol x == v && decide (x.order < c.order) && !x.decided

/-- Something that is to be committed still names the command. -/
def ownedBy (s : State) (o : Fin 65 × Nat) : Bool :=
  (s.arm.groups.any fun g => g.cmds.contains o) || (s.jrn.recs.any fun r => decide (s.jrn.cseq < r.seq) && r.owner.contains o)
    || ((s.jrn.wait1 ++ s.jrn.wait2).any fun w => w.owner.contains o) || s.arm.woWait.any fun w => w.2.2.contains o

/-- The part of a FLUSH a rewritable volume asks for is done (R383). -/
def rwFlushed (s : State) (c : Cmd) (v : Nat) : Bool :=
  if capFlags c = 1 then !s.jrn.recs.any fun r => !r.retired && decide (r.seq < c.upTo.getD s.jrn.next) && match r.body with
    | .data w .. => w == v
    | .map .. | .dirty _ | .retire _ | .checkpoint .. | .loss .. | .mapckpt .. | .quench .. | .boot .. | .pad _ => false
  else (writesBefore s c v).isEmpty

/-- FLUSH: once every earlier WRITE of a write-once volume has joined its group, the group closes and its commit completes the
flush; of a rewritable volume, earlier WRITEs complete, or with DESTAGE the records sealed before are retired (R286, R383). -/
def flushOp (q : Fin 65) (tag : Nat) (m : MediaEvents) : State → State := ioRow opFlush q tag fun c s =>
  let vs := flushVols s c
  let wo := vs.filter (isWo s)
  let rw := vs.filter fun v => !isWo s v
  let open_ := wo.filter fun v => (woGroup s v).isSome
  if c.running then
    let s := if capFlags c = 1 then
        rw.foldl (fun (s : State) v => destageAll m (undestaged s v 0 (2 ^ 40) (c.upTo.getD 0)) s) s
      else s
    if !ownedBy s (q, tag) && rw.all (rwFlushed s c) then finish q tag stSuccess 0 s else s
  else if wo.any fun v => (writesBefore s c v).any fun x => !x.ponr then s
  else
    let c' := { c with running := true, upTo := some s.jrn.next }
    let s := s.modCmd q tag fun _ => c'
    let one := rw.isEmpty && decide (open_.length = 1)
    let s := if one then finishWith q tag stSuccess 0 s else s
    let s := if open_.isEmpty then s else mediaTake m s
    let s := open_.foldl (fun (s : State) v => groupClose m v (modGroup v (fun g => { g with cmds := g.cmds ++ [(q, tag)] }) s)) s
    let s := if capFlags c = 1 then rw.foldl (fun (s : State) v => destageAll m (undestaged s v 0 (2 ^ 40) s.jrn.next) s) s else s
    if !one && !ownedBy s (q, tag) && rw.all (rwFlushed s c') then finish q tag stSuccess 0 s else s

def execRead (q : Fin 65) (tag : Fin 32) (m : MediaEvents) (s : State) : Outcome := settled (readOp q tag.val m s)
def execWrite (q : Fin 65) (tag : Fin 32) (data : List Block) (m : MediaEvents) (s : State) : Outcome := settled (writeOp q tag.val data m s)
def execVerify (q : Fin 65) (tag : Fin 32) (m : MediaEvents) (s : State) : Outcome := settled (verifyOp q tag.val m s)
def execFlush (q : Fin 65) (tag : Fin 32) (m : MediaEvents) (s : State) : Outcome := settled (flushOp q tag.val m s)

end Sys2Proof.Machine
end

