-- ==== Sys2Proof/Machine/Bus.lean ====
section
/-! DEFINITION. The address maps (R19, R23-R28, R344), the memories behind them with their check bits (R17, R20, R406, R408), the
stripe-cache array window (R420), the DDR4 window (R25), and reads by cores and by the host (R6, R9, R11, R12, R24, R26-R28). -/
namespace Sys2Proof.Machine

/-! ### Where an address leads -/

/-- A memory that processors reach by address. -/
inductive Mem
  | rom                               -- boot ROM
  | plc (c : Fin 4)                   -- local memory of a placement core
  | core                              -- local memories of HST0, HST1, SUP and SEC
  | esq (e : Eng)                     -- ESQ<n> memory
  | shared                            -- shared SRAM
  | cap (e : Eng)                     -- capture buffer
deriving DecidableEq, Repr

/-- What an address names: a register, a word of Anvil memory, a byte of a memory, a word of a message queue, a byte of the
stripe-cache array, of DDR4, of configuration space, of BAR2; `nothing` is a reserved offset. -/
inductive Dest
  | reg (r : Reg) | pm (e : Eng) (bank : Bool) (a : Nat) | dm (e : Eng) (a : Nat) | mem (k : Mem) (a : Nat)
  | queue (q : Nat) (w : Nat) | window (way set off : Nat) | ddr (a : Nat) | config (off : Nat) | msix (off : Nat) | nothing
deriving DecidableEq, Repr

/-- Engine block layout (R27, R28). -/
def engDest (a : Nat) : Dest :=
  let e : Eng := Fin.ofNat 8 (a / 0x40000)
  let off := a % 0x40000
  if off < 0x10000 then .reg (engReg e off)
  else if off < 0x12000 then .pm e false ((off - 0x10000) / 4)
  else if off < 0x14000 then .pm e true ((off - 0x12000) / 4)
  else if 0x18000 ≤ off ∧ off < 0x1A000 then .dm e ((off - 0x18000) / 4)
  else if 0x20000 ≤ off ∧ off < 0x30000 then .mem (.esq e) (off - 0x20000)
  else if 0x30000 ≤ off then .mem (.cap e) (off - 0x30000)
  else .nothing

/-- Registers of the host interface block, from offset 0 of the CQI registers and of the queue blocks (R374). -/
def cqiDest (off : Nat) : Dest := .reg ⟨.cqi, 0, 0, off⟩
def queueDest (off : Nat) : Dest := if off / 0x100 < 65 then .reg ⟨.qb, off / 0x100, 0, off % 0x100⟩ else .nothing

/-- Motion and brake block (R242). -/
def motionDest (off : Nat) : Dest :=
  if off < 0x400 then .reg ⟨.ax, off / 0x100, 0, off % 0x100⟩
  else if 0x1000 ≤ off ∧ off < 0x1200 then .reg ⟨.brk, (off - 0x1000) / 0x100, 0, off % 0x100⟩
  else if 0x2000 ≤ off then .reg ⟨.mot, 0, 0, off⟩
  else .nothing

/-- Shared SRAM; the message queues' words lie at `Config.mqWindow` (R20, log 102). -/
def sharedDest (a : Nat) : Dest :=
  let b := Config.mqWindow.toNat
  if b ≤ a ∧ a < b + 1024 then .queue ((a - b) / 16) ((a - b) % 16 / 4) else .mem .shared a

/-- The DDR4 address behind a core's window (R25). -/
def windowAddr (s : State) (rq : Req) (a : Nat) : Nat :=
  s.get (GLB_DDRWIN.BASE ((reqId rq).getD 0)) * 2 ^ 27 + (a - 0x80000000)

/-- The core address map. -/
def coreDest (s : State) (rq : Req) (a : Nat) : Dest :=
  if a < 0x10000 then .mem .rom a
  else if 0x10000000 ≤ a ∧ a < 0x10400000 then .mem (.plc (Fin.ofNat 4 ((a - 0x10000000) / 0x100000))) a
  else if 0x10400000 ≤ a ∧ a < 0x10720000 then .mem .core a
  else if 0x20000000 ≤ a ∧ a < 0x20400000 then .window ((a - 0x20000000) / 0x40000) ((a - 0x20000000) % 0x40000 / 0x1000) (a % 0x1000)
  else if 0x21000000 ≤ a ∧ a < 0x21200000 then sharedDest a
  else if 0x40000000 ≤ a ∧ a < 0x40010000 then .reg ⟨.glb, 0, 0, a - 0x40000000⟩
  else if 0x48000000 ≤ a ∧ a < 0x48200000 then engDest (a - 0x48000000)
  else if 0x50001000 ≤ a ∧ a < 0x50002000 then cqiDest (a - 0x50001000)
  else if 0x50100000 ≤ a ∧ a < 0x50104100 then queueDest (a - 0x50100000)
  else if 0x54000000 ≤ a ∧ a < 0x54010000 then motionDest (a - 0x54000000)
  else if 0x80000000 ≤ a then .ddr (windowAddr s rq a)
  else .nothing

/-- The host's view: BAR0 below 64 MiB; for BAR2 and configuration space the model adds 0x1000_0000 and 0x2000_0000 to the offset
(R6, R26, R27, R344, log 43). -/
def hostDest (a : Nat) : Dest :=
  if a < 0x1000 then .reg ⟨.glb, 0, 0, a⟩
  else if a < 0x2000 then cqiDest (a - 0x1000)
  else if 0x1000000 ≤ a ∧ a < 0x1004100 then queueDest (a - 0x1000000)
  else if 0x2000000 ≤ a ∧ a < 0x2200000 then engDest (a - 0x2000000)
  else if 0x10000000 ≤ a ∧ a < 0x10004000 then .msix (a - 0x10000000)
  else if 0x20000000 ≤ a ∧ a < 0x20001000 then .config (a - 0x20000000)
  else .nothing

/-- What a host write may change: nothing behind GLB_, nor behind an engine block while debug is locked (R26, R27). -/
def hostWriteDest (s : State) (a : Nat) : Dest :=
  if a < 0x1000 then .nothing
  else if 0x2000000 ≤ a ∧ a < 0x2200000 ∧ s.get GLB_SEC_STAT.DBG_LEVEL = 0 then .nothing
  else hostDest a

/-- The classes of processors in the Access column. -/
def isPlc : Req → Bool
  | .plc _ => true
  | .hst _ | .sup | .sec | .esq _ | .anv _ | .host => false
def isHst : Req → Bool
  | .hst _ => true
  | .plc _ | .sup | .sec | .esq _ | .anv _ | .host => false
def isEsq : Req → Bool
  | .esq _ => true
  | .plc _ | .hst _ | .sup | .sec | .anv _ | .host => false

/-- A processor may access an address; behind the DDR4 window only installed memory (R19, R23-R25, core address map). -/
def coreMay (s : State) (rq : Req) (a : Nat) : Bool :=
  let sup := rq == .sup
  if a < 0x10000 then rq == .sec
  else if 0x10000000 ≤ a ∧ a < 0x10400000 then a % 0x100000 < 0x80000 && (sup || rq == .plc (Fin.ofNat 4 ((a - 0x10000000) / 0x100000)))
  else if 0x10400000 ≤ a ∧ a < 0x10600000 then a % 0x100000 < 0x40000 && (sup || rq == .hst (Fin.ofNat 2 ((a - 0x10400000) / 0x100000)))
  else if 0x10600000 ≤ a ∧ a < 0x10640000 then sup
  else if 0x10700000 ≤ a ∧ a < 0x10720000 then rq == .sec
  else if 0x20000000 ≤ a ∧ a < 0x20400000 then isPlc rq || sup
  else if 0x21000000 ≤ a ∧ a < 0x21200000 then isPlc rq || isHst rq || sup || isEsq rq
  else if 0x40000000 ≤ a ∧ a < 0x40010000 then true
  else if 0x48000000 ≤ a ∧ a < 0x48200000 then isPlc rq || sup || rq == .esq (Fin.ofNat 8 ((a - 0x48000000) / 0x40000))
  else if 0x50000000 ≤ a ∧ a < 0x51000000 then isHst rq || sup
  else if 0x54000000 ≤ a ∧ a < 0x54010000 then isPlc rq || sup
  else decide (0x80000000 ≤ a) && (isPlc rq || isHst rq || sup) && decide (windowAddr s rq a < ddrBytes s)

/-- A policy program runs in U mode on the requester (R18). -/
def inUMode (s : State) : Req → Bool
  | .plc c => s.arm.plc[c].user
  | .hst _ | .sup | .sec | .esq _ | .anv _ | .host => false

/-- In U mode the PMP decides too: it grants regions of the core's local memory, and no register (R18). -/
def pmpMay (s : State) (rq : Req) (a n : Nat) (write : Bool) : Bool :=
  match rq with
  | .plc c => !s.arm.plc[c].user || pmpOk s c a n write
  | .hst _ | .sup | .sec | .esq _ | .anv _ | .host => true

/-! ### Memories -/

/-- A byte of a memory. -/
def State.memGet (s : State) (k : Mem) (a : Nat) : Byte :=
  match k with
  | .rom => Config.rom a
  | .plc c => Cells.get (fun _ => 0#8) s.arm.plc[c].mem a
  | .core => Cells.get (fun _ => 0#8) s.mem.core a
  | .esq e => Cells.get (fun _ => 0#8) s.eng[e].esqMem a
  | .shared => Cells.get (fun _ => 0#8) s.mem.spram a
  | .cap e => Cells.get (fun _ => 0#8) s.eng[e].cap a

/-- Write a byte of a memory; the ROM keeps what it holds. -/
def State.memSet (s : State) (k : Mem) (a : Nat) (b : Byte) : State :=
  let put (m : List (Nat × Byte)) : List (Nat × Byte) := Cells.set Cells.natLt (fun _ => 0#8) m a b
  match k with
  | .rom => s
  | .plc c => s.modPlc c fun p => { p with mem := put p.mem }
  | .core => modMem (fun m => { m with core := put m.core }) s
  | .esq e => s.modEng e fun g => { g with esqMem := put g.esqMem }
  | .shared => modMem (fun m => { m with spram := put m.spram }) s
  | .cap e => s.modEng e fun g => { g with cap := put g.cap }

/-- The core address of a place in a memory. -/
def Mem.addr (k : Mem) (a : Nat) : Nat :=
  match k with
  | .rom | .plc _ | .core | .shared => a
  | .esq e => 0x48020000 + e.val * 0x40000 + a
  | .cap e => 0x48030000 + e.val * 0x40000 + a

/-- Little-endian number of `n` bytes from `a` on (R8). -/
def State.memNum (s : State) (k : Mem) (a n : Nat) : Nat := leNum ((List.range n).map fun i => s.memGet k (a + i))

/-- Write the bytes that `be` enables of the word at `a`. -/
def State.memWord (s : State) (k : Mem) (a : Nat) (be : BitVec 4) (v : Word) : State :=
  (List.range 4).foldl (fun (s : State) i => if be.getLsbD i then s.memSet k (a + i) (v.extractLsb' (8 * i) 8) else s) s

/-- An access of SUP to the macro under test (R408). -/
def sramTest (s : State) (rq : Req) (p : Nat) : Bool :=
  rq == .sup && s.isSet GLB_SRAM_CTRL.TEST_EN && Config.sramMacro p == s.get GLB_SRAM_CTRL.MACRO

/-- The check bits a test write has stored with a 64-bit word; none: those computed for it (R406, R408). -/
def chkOf (s : State) (p : Nat) : Option Byte := Cells.get (fun _ => none) s.mem.chk (p / 8)
def chkSet (p : Nat) (c : Option Byte) (s : State) : State :=
  modMem (fun m => { m with chk := Cells.set Cells.natLt (fun _ => none) m.chk (p / 8) c }) s

/-- A write stores check bits with the word: the computed ones, a test write those of GLB_SRAM_TCHK.CHK (R406, R408). -/
def chkWrite (rq : Req) (p : Nat) (s : State) : State :=
  chkSet p (if sramTest s rq p then some (BitVec.ofNat 8 (s.get GLB_SRAM_TCHK.CHK)) else none) s

/-- A processor or the host writes a memory. -/
def memWrite (rq : Req) (k : Mem) (a : Nat) (be : BitVec 4) (v : Word) (s : State) : State :=
  if be = 0#4 then s else chkWrite rq (k.addr a) (s.memWord k a be v)

/-- A word of a message queue: words 0 to 2 wait in the shared SRAM, word 3 puts the message; a full queue takes none (R20, log 102). -/
def queueWord (q w : Nat) (v : Word) (s : State) : State :=
  let b := Config.mqWindow.toNat + 16 * q
  let s := s.memWord .shared (b + 4 * w) 0xF#4 v
  if w ≠ 3 ∨ Config.mqFull q (s.mqGet q).length = true then s else s.mqPut q (BitVec.ofNat 128 (s.memNum .shared b 16))

/-- A write through the stripe-cache array window (R408, R420). -/
def windowWord (rq : Req) (way set off : Nat) (be : BitVec 4) (v : Word) (s : State) : State :=
  let lift (w : Word) : Block := w.setWidth 32768 <<< (8 * off)
  chkWrite rq (0x20000000 + 0x40000 * way + 0x1000 * set + off) (windowWrite way set (lift (beMask be)) (lift v) s)

/-- The line data of the array, valid or not (R420). -/
def windowLine (s : State) (way set : Nat) : Block :=
  match s.mem.strc.lines.find? fun l => l.1 = 16 * set + way with
  | some l => l.2.data
  | none => Cells.get (fun _ => 0#32768) s.mem.strc.raw (16 * set + way)

/-! ### Reads -/

/-- What a read gives a core: a value, an access fault (R24), its own address-misaligned exception (R12). -/
inductive Loaded | value (v : Word) | fault | misaligned
deriving DecidableEq, Repr

/-- The `n` bytes of a word from byte `i` on. -/
def bytesOf (i n : Nat) (w : Word) : Word := BitVec.ofNat 32 (bits w (8 * i) (8 * n))

/-- A register as it reads: the high words that a read of the low word latches read as latched (R9, R342, R467). -/
def regRead (s : State) (r : Reg) : Word :=
  if r = PWR_RTC_HI.reg then s.pw.rtcHi else if r = GLB_JNL_CSEQ_HI.reg then s.pw.cseqHi else s.rd r

/-- What reading a register does (R342, R467). -/
def regLatch (r : Reg) (s : State) : State :=
  if r = PWR_RTC_LO.reg then { s with pw := { s.pw with rtcHi := s.rd PWR_RTC_HI.reg } }
  else if r = GLB_JNL_CSEQ_LO.reg then { s with pw := { s.pw with cseqHi := s.rd GLB_JNL_CSEQ_HI.reg } }
  else s

/-- An uncorrectable word met by a core: counted and logged; SUP proceeds as for firmware structures; in a policy program's region it is
a policy fault, and the region is made anew (R406, log 103). -/
def sramFault (rq : Req) (p : Nat) (s : State) : State :=
  let s := sramLost (Config.sramMacro p) (Config.sramRow p) s
  match rq with
  | .plc c => if s.arm.plc[c].user then coreReload c (callFault c pfAccess s) else poisoned .firmware s
  | .hst _ | .sup | .sec | .esq _ | .anv _ | .host => poisoned .firmware s

/-- A 64-bit SRAM word as a processor reads it, by its check bits: a test read as stored, with its check bits in LAST_CHK; a corrected
error is written back and counted (R406, R408). -/
def sramLoad (rq : Req) (p : Nat) (w : BitVec 64) (fix : BitVec 64 → State → State) (s : State) : Option (BitVec 64) × State :=
  let c := (chkOf s p).getD (Config.secded w)
  if sramTest s rq p then (some w, s.put GLB_SRAM_TCHK.LAST_CHK c.toNat)
  else if (chkOf s p).isNone then (some w, s)
  else match Config.secdedRead w c with
    | some x => (some x, sramCorrected (Config.sramMacro p) (Config.sramRow p) (chkSet p none (fix x s)))
    | none => (none, sramFault rq p s)

/-- `n` bytes from byte `a` of a 64-bit word. -/
def cut64 (a n : Nat) (w : BitVec 64) : Word := BitVec.ofNat 32 ((w.toNat >>> (8 * (a % 8))) % 2 ^ (8 * n))

/-- A value or a fault, as a core gets it. -/
def loadOf (a n : Nat) (x : Option (BitVec 64) × State) : Loaded × State :=
  match x.1 with
  | some w => (.value (cut64 a n w), x.2)
  | none => (.fault, x.2)

/-- Write a 64-bit word of a memory. -/
def memFix (k : Mem) (a : Nat) (w : BitVec 64) (s : State) : State :=
  (s.memWord k a 0xF#4 (w.setWidth 32)).memWord k (a + 4) 0xF#4 (w.extractLsb' 32 32)

/-- Read `n` bytes of a memory. -/
def memRead (rq : Req) (k : Mem) (a n : Nat) (s : State) : Loaded × State :=
  let b := a / 8 * 8
  loadOf a n (sramLoad rq (k.addr b) (BitVec.ofNat 64 (s.memNum k b 8)) (memFix k b) s)

/-- Read a word of a message queue: of its oldest message, which word 3 takes; 0 where it is empty (R20, log 102). -/
def queueRead (q w : Nat) (s : State) : Word × State :=
  match s.mqGet q with
  | [] => (0#32, s)
  | m :: rest =>
    (m.extractLsb' (32 * w) 32, if w = 3 then { s with mq := Cells.set Cells.natLt (fun _ => []) s.mq q rest } else s)

/-- Read through the array window. -/
def windowRead (rq : Req) (way set off n : Nat) (s : State) : Loaded × State :=
  let b := off / 8 * 8
  let fix (x : BitVec 64) : State → State :=
    windowWrite way set ((BitVec.allOnes 64).setWidth 32768 <<< (8 * b)) (x.setWidth 32768 <<< (8 * b))
  loadOf off n (sramLoad rq (0x20000000 + 0x40000 * way + 0x1000 * set + b) ((windowLine s way set).extractLsb' (8 * b) 64) fix s)

/-- BAR2: the MSI-X table and the pending bits; the rest reads 0 (R344, R345). -/
def msixRead (s : State) (off : Nat) : Word :=
  if off < 129 * 16 then
    (if off % 16 / 4 = 3 then BitVec.ofNat 32 (s.cqi.mask.getLsbD (off / 16)).toNat else Cells.get (fun _ => 0#32) s.cqi.table (off / 4))
  else if 0x2000 ≤ off ∧ off < 0x2018 then s.cqi.pba.extractLsb' (8 * (off - 0x2000) / 32 * 32) 32
  else 0#32

/-- A 24-bit word of Anvil data memory, sign-extended (R28). -/
def dmRead (s : State) (e : Eng) (a : Nat) : Word := (dmGet s e a).signExtend 32

/-- A read of `n` bytes, aligned to their size, at byte `i` of the word an address names (R9, R11, R12). -/
def destRead (rq : Req) (d : Dest) (i n : Nat) (s : State) : Loaded × State :=
  let word (w : Word) : Loaded × State := (.value (bytesOf i n w), s)
  match d with
  | .reg r => (.value (bytesOf i n (regRead s r)), regLatch r s)
  | .pm e b a => word (pmGet s e b a)
  | .dm e a => word (dmRead s e a)
  | .mem k a => memRead rq k a n s
  | .queue q w => let x := queueRead q w s; (.value (bytesOf i n x.1), x.2)
  | .window way set off => windowRead rq way set off n s
  | .ddr a => (.value (BitVec.ofNat 32 (s.ddrNum a n)), s)
  | .config off => word (cfgWord s (off / 4))
  | .msix off => word (msixRead s (off / 4 * 4))
  | .nothing => word 0#32

/-- A load of `n` bytes (1, 2, 4) by an RV32 processor (R6, R12, R17, R18, R24, R28). -/
def coreRead (rq : Req) (a n : Nat) (s : State) : Loaded × State :=
  match reqId rq with
  | none => (.fault, s)
  | some id =>
    if a % n ≠ 0 then (.misaligned, s)
    else if !coreMay s rq a || !pmpMay s rq a n false then (.fault, accessFault (Fin.ofNat 16 id) (BitVec.ofNat 32 a) false s)
    else destRead rq (coreDest s rq a) (a % 4) n s

/-- A read of `n` bytes (1, 2, 4) by the host: reserved offsets and misaligned reads give 0; a read of an engine block changes nothing
(R6, R12, R26, R27, R344). Configuration space answers only once the BCR has been applied (R5). -/
def hostRead (a n : Nat) (s : State) : Option Word × State :=
  if a % n ≠ 0 then (some 0#32, s)
  else
    let x := destRead .host (hostDest a) (a % 4) n s
    let s' := if 0x2000000 ≤ a ∧ a < 0x2200000 then s else x.2
    match hostDest a with
    | .config off => ((cfgRead s (off / 4)).map (bytesOf (a % 4) n), s)
    | .reg _ | .pm .. | .dm .. | .mem .. | .queue .. | .window .. | .ddr _ | .msix _ | .nothing =>
      match x.1 with
      | .value v => (some v, s')
      | .fault | .misaligned => (some 0#32, s')

end Sys2Proof.Machine
end

