-- ==== Sys2Proof/Machine/RegWrite.lean ====
section
/-! DEFINITION. Register writes: discard conditions, and what a write sets going (R9-R13,
R23-R28, R97, R101, R105, R123, R130, R146, R167, R170, R197, R198, R210, R230, R235, R242, R343-R346, R370, R371, R374, R427,
R448, R467, R475, R476, R491). -/
namespace Sys2Proof.Machine

/-! ### Writes by fields -/

/-- Do something where a bit is written 1. -/
def onBit (f : Fld) (v : Word) (g : State → State) (s : State) : State := if f.of v != 0 then g s else s

/-- A write by the field types, in which some fields keep what they hold. -/
def typedBut (keep : List Fld) (r : Reg) (v : Word) (s : State) : State :=
  s.wrTyped r 0xF#4 (keep.foldl (fun v f => f.into v (s.get f)) v)

/-- A write by the field types. -/
def typed (r : Reg) (v : Word) (s : State) : State := s.wrTyped r 0xF#4 v

/-! ### Engine blocks -/

/-- HL_CTRL, HL_RATE. -/
def hlWrite (e : Eng) (same : BitVec 15) (r : Reg) (v : Word) (s : State) : State :=
  if r = HL_CTRL.reg e then
    let on := (HL_CTRL.ENABLE e).of v != 0
    let was := s.isSet (HL_CTRL.ENABLE e)
    let s := typedBut [HL_CTRL.ENABLE e] r v s
    let s := if on && !was then linkEnable e s else if was && !on then linkDisable e s else s
    onBit (HL_CTRL.CNT_CLR e) v (linkCntClear e same) (onBit (HL_CTRL.RETRAIN e) v (linkRetrain e) s)
  else if r = HL_RATE.reg e then
    let s := typed r v s
    if !linkUp s e then fwShow e s
    else if steering s e then sendFw e (s.get (WPLL_STAT.FB e)) 0#16 s
    else sendSr e (s.get (HL_RATE.SR e)) s
  else typed r v s

/-- A chain's registers: R97's conditions, R167's during a session, CTRL and RPL_CTRL (R99). -/
def chWrite (e : Eng) (k : Chn) (same : BitVec 15) (r : Reg) (v : Word) (s : State) : State :=
  let off := !s.isSet (CH_CTRL.ENABLE e k)
  let sess := tmpActive s e
  let mine := k == 4 || k == targetChain (s.get (TMP_STAT.TARGET e))
  let alt := s.isSet (CH_STAT.ALT_ACTIVE e k)
  let eqOk (used : Bool) : Bool := !used || off || s.isSet (CH_CTRL.EQ_HOLD e k)
  if r = CH_CTRL.reg e k then
    let stop := (CH_CTRL.ENABLE e k).of v == 0
    if sess && k == 4 then (if stop then chainOff e k s else s)
    else
      let s := altNow e k (typedBut ([CH_CTRL.ENABLE e k] ++ if k.val < 4 then [CH_CTRL.REPLAY e k, CH_CTRL.SPOT e k] else []) r v s)
      let s := if stop then (if off then s else chainOff e k s) else s.put (CH_CTRL.ENABLE e k) 1
      onBit (CH_CTRL.CNT_CLR e k) v (chCntClear e k (same.setWidth 4)) s
  else if r = AGC_GAIN.reg e k ∨ r = AGC_OFFS.reg e k then (if off || s.isSet (CH_CTRL.AGC_HOLD e k) then chValue e k r v s else s)
  else if 0x040 ≤ r.off ∧ r.off < 0x0B0 then (if off || s.isSet (CH_CTRL.XT_HOLD e k) then typed r v s else s)
  else if 0x0C0 ≤ r.off ∧ r.off < 0x0FC then (if eqOk !alt then typed r v s else s)
  else if 0x100 ≤ r.off ∧ r.off < 0x13C then (if eqOk alt then typed r v s else s)
  else if r = RED.reg e k then (if sess && mine then s else chValue e k r v s)
  else if r = RPL_CTRL.reg e k then
    let s := if (RPL_CTRL.CAP_ARM e k).of v = 1 then capArm e k s else s.put (RPL_CTRL.CAP_ARM e k) 0
    if k = 4 then onBit (RPL_CTRL.PLAY e k) v (replayPlay e) (onBit (RPL_CTRL.ABORT e k) v (fun s => s.put (CH_STAT.REPLAY_BUSY e 4) 0) s) else s
  else typed r v s

/-- Wobble PLL and capture. ENABLE = 0 in lock leaves LOCK, FB and the steering as they are: the spec does not say (R75; DESIGN CHOICE,
log 92). -/
def wobWrite (e : Eng) (r : Reg) (v : Word) (s : State) : State :=
  if r = CAP_CTRL.reg e then capWrite e v s
  else if r = WPLL_CTRL.reg e then onBit (WPLL_CTRL.RESUME e) v (wpllResumed e) (typed r v s)
  else typed r v s

/-- Seam and reassembly (R122, R123). -/
def seamWrite (e : Eng) (same : BitVec 15) (r : Reg) (v : Word) (s : State) : State :=
  let idle := s.get (SEAM_STAT.STATE e) == seamIdle
  if r = SEAM_CTRL.reg e then
    let s := if idle then s.put (SEAM_CTRL.DIR e) ((SEAM_CTRL.DIR e).of v) else s
    let s := if (SEAM_CTRL.RUN e).of v = 1 then seamStart e s else seamStop e s
    onBit (SEAM_CTRL.CNT_CLR e) v (seamCntClear e (same.setWidth 4)) s
  else if r = SEAM_CFG.reg e then seamCfgWrite e v s
  else if r = RAS_BASE.reg e ∨ r = RAS_FIRST.reg e ∨ r = RAS_LAST.reg e then (if idle then typed r v s else s)
  else if r = RAS_FREE.reg e then rasFreeSlot e ((RAS_FREE.SLOT e).of v) s
  else typed r v s

/-- The write path (R130, R135, R146). -/
def wrWrite (e : Eng) (same : BitVec 15) (r : Reg) (v : Word) (s : State) : State :=
  let st := s.get (WR_STAT.STATE e)
  if r = WR_CTRL.reg e then
    let s := laserEn e ((WR_CTRL.LASER_EN e).of v == 1) s
    let s := onBit (WR_CTRL.STOP e) v (wrStop e) s
    let s := onBit (WR_CTRL.OPC_GO e) v (wrOpcStart e) (onBit (WR_CTRL.GO e) v (wrGo e) s)
    onBit (WR_CTRL.CNT_CLR e) v (wrCntClear e (same.setWidth 3)) s
  else if r = WR_CFG.reg e ∨ r = WR_RING.reg e ∨ (0x5100 ≤ r.off ∧ r.off < 0x5140) then (if st = wrIdle then typed r v s else s)
  else if r = WR_PWR0.reg e ∨ r = WR_PWR1.reg e then (if st = wrWriting ∨ st = wrOpc then s else typed r v s)
  else if r = WR_PROD.reg e then wrProd e ((WR_PROD.PROD e).of v) s
  else typed r v s

/-- The bits of a register that belong to a field. -/
def fieldBits (r : Reg) : Word :=
  match r.info with
  | some t => t.fields.foldl (fun (m : Word) f => m ||| (⟨r, f.lo, f.w⟩ : Fld).mask) 0#32
  | none => 0#32

/-- Temper and the ladder; ESQ<n> writes RTY_STAT and RTY_CNT (R161, R162, R167, R170). -/
def tmpWrite (rq : Req) (e : Eng) (same : BitVec 15) (r : Reg) (v : Word) (s : State) : State :=
  if r = TMP_CTRL.reg e then
    let s := typed r v s
    let s := onBit (TMP_CTRL.ABORT e) v (tmpAbortOp e) s
    let s := onBit (TMP_CTRL.START e) v (fun s => tmpTry e (tmpTarget s e) false s) s
    onBit (TMP_CTRL.CNT_CLR e) v (tmpCntClear e (same.setWidth 3)) s
  else if 0x6100 ≤ r.off ∧ r.off < 0x6114 then adcMapWrite e (Fin.ofNat 5 ((r.off - 0x6100) / 4)) v s
  else if 0x6200 ≤ r.off ∧ r.off < 0x6340 then
    (if (r.off - 0x6200) % 0x40 / 4 < 10 then adcTrimWrite e (Fin.ofNat 5 ((r.off - 0x6200) / 0x40)) (Fin.ofNat 10 ((r.off - 0x6200) % 0x40 / 4)) v s else s)
  else if r = RTY_CFG.reg e then typed r (v ||| 0x40#32) s
  else if 0x6808 ≤ r.off ∧ r.off < 0x6830 ∧ rq = .esq e then s.wr r (v &&& fieldBits r)
  else typed r v s

/-- The spindle (R217, R222, R224, R230). -/
def spnWrite (e : Eng) (r : Reg) (v : Word) (s : State) : State :=
  let st := s.get (SPN_STAT.STATE e)
  if r = SPN_CTRL.reg e then
    let s := typedBut [SPN_CTRL.EN e, SPN_CTRL.DIR e] r v s
    let s := spnDir e ((SPN_CTRL.DIR e).of v == 1) s
    if (SPN_CTRL.EN e).of v = 1 then spnStartOp e s
    else if s.isSet (SPN_CTRL.EN e) || st != spnOff then spnCoastOp e s else s
  else if r = SPN_SPD.reg e then spnTarget e ((SPN_SPD.TARGET e).of v) (typedBut [SPN_SPD.TARGET e] r v s)
  else if r = SPN_MOTOR.reg e ∨ r = SPN_SCALE.reg e ∨ r = SPN_START.reg e then (if st = spnOff ∨ st = spnHalted then typed r v s else s)
  else typed r v s

/-- The sled and its gearing (R210, R211, R233-R237). -/
def sldWrite (e : Eng) (r : Reg) (v : Word) (s : State) : State :=
  if r = SLD_CTRL.reg e then
    let on := (SLD_CTRL.PWR e).of v == 1
    let was := s.isSet (SLD_CTRL.PWR e)
    let s := if on && !was then sldPowerOn e s else if was && !on then sldParkOp e s else s
    let s := onBit (SLD_CTRL.STOP e) v (sldStop e) s
    let s := onBit (SLD_CTRL.HOME e) v (sldHome e) (onBit (SLD_CTRL.MOVE e) v (sldMove e) s)
    onBit (SLD_CTRL.ENC_BAD e) v (encFault e) s
  else if r = SLD_POS.reg e then sldSetPos e (signed 24 ((SLD_POS.VALUE e).of v)) s
  else if r = SLG_CTRL.reg e then
    let s := slgRates e ((SLG_CTRL.TPR e).of v) ((SLG_CTRL.DIR e).of v == 1) s
    slgEn e ((SLG_CTRL.EN e).of v == 1) (onBit (SLG_CTRL.LOAD e) v (slgLoadOp e) s)
  else if 0x7C40 ≤ r.off ∧ r.off < 0x7CC0 then (if s.isSet (SLG_CTRL.EN e) then s else typed r v s)
  else typed r v s

/-- Anvil control (R178, R189, R195, R197, R198). -/
def anvWrite (e : Eng) (same : BitVec 15) (r : Reg) (v : Word) (s : State) : State :=
  if r = ANV_CTRL.reg e then
    let on := (ANV_CTRL.RUN e).of v == 1
    let was := s.isSet (ANV_CTRL.RUN e)
    let s := anvBank e ((ANV_CTRL.BANK e).of v == 1) s
    let s := onBit (ANV_CTRL.TRIP_CLR e) v (anvTripClear e) s
    let s := if on && !was then anvRunOp e s else if was && !on then anvStopOp e s else s
    onBit (ANV_CTRL.CNT_CLR e) v (anvCntClear e (same.setWidth 3)) s
  else if 0x8204 ≤ r.off ∧ r.off < 0x8244 ∧ r.off % 8 = 4 then anvRampCfg e (Fin.ofNat 8 ((r.off - 0x8204) / 8)) v s
  else if 0x8200 ≤ r.off ∧ r.off < 0x8240 then rampTarget e (Fin.ofNat 8 ((r.off - 0x8200) / 8)) (signed 24 (bits v 0 24)) s
  else typed r v s

/-- A register of an engine block by its offset. -/
def engWrite (rq : Req) (e : Eng) (same : BitVec 15) (r : Reg) (v : Word) (s : State) : State :=
  if r.off < 0x1000 then typed r v s
  else if r.off < 0x2000 then hlWrite e same r v s
  else if r.off < 0x5000 then seamWrite e same r v s
  else if r.off < 0x6000 then wrWrite e same r v s
  else if r.off < 0x7000 then tmpWrite rq e same r v s
  else if r.off < 0x7800 then spnWrite e r v s
  else if r.off < 0x8000 then sldWrite e r v s
  else anvWrite e same r v s

/-! ### Motion block -/

/-- An axis (R239-R242). -/
def axWrite (a : Fin 4) (r : Reg) (v : Word) (s : State) : State :=
  if r = AX_CTRL.reg a then
    let gear := (AX_CTRL.GEAR a).of v == 1
    let was := s.isSet (AX_CTRL.GEAR a)
    let s := typedBut [AX_CTRL.GEAR a] r v s
    let s := if gear && !was then axGear a s else if was && !gear then axUngear a s else s
    let s := onBit (AX_CTRL.MOVE a) v (axMove a) s
    onBit (AX_CTRL.ESTOP a) v (axEstop a) (onBit (AX_CTRL.STOP a) v (axStop a) s)
  else if r = AX_POS.reg a then axSetPos a v s
  else if r = AX_RATIO.reg a then (if s.isSet (AX_CTRL.GEAR a) then s else typed r v s)
  else typed r v s

/-- A brake (R226, R227, R242). -/
def brkWrite (rq : Req) (b : Fin 2) (r : Reg) (v : Word) (s : State) : State :=
  if r = BRK_CTRL.reg b then
    onBit (BRK_CTRL.FAULT_CLR b) v (fun s => if rq = .sup then s.put (BRK_STAT.CHOP_FAULT b) 0 else s) (typed r v s)
  else if r = BRK_OV12.reg b then brkThreshold b 0 v s
  else if r = BRK_OV3.reg b then brkThreshold b 1 v s
  else if r = BRK_CFG.reg b then brkThreshold b 2 v s
  else typed r v s

/-! ### Host interface -/

/-- The registers of queue 0 may be written: NONE, or DISABLED with IDLE (R370). -/
def cfgFree (s : State) (q : Fin 65) : Bool :=
  s.get (QB_STAT.STATE q) == qNone || (s.get (QB_STAT.STATE q) == qDisabled && s.isSet (QB_STAT.IDLE q))

/-- Which base of a queue a register's low word is, and how many alignment bits it has (R374). -/
def baseLow (q : Fin 65) (r : Reg) : Option (Fin 3 × Nat) :=
  if r = QB_SQ_BASE_LO.reg q then some (0, 12) else if r = QB_CQ_BASE_LO.reg q then some (1, 12)
  else if r = QB_IDX_BASE_LO.reg q then some (2, 6) else none

/-- A queue block. The queue that EN = 1 enables comes up with its index read (QUEUE_ENABLE). The alignment bits of queue 0's bases read 0;
what was written to them is kept for the check of R370. HST and SUP write every field of the registers of queues 1-64 that the host sees
read-only (R9, R11, R368-R370, R374, log 44). -/
def queueWrite (host : Bool) (q : Fin 65) (r : Reg) (v : Word) (s : State) : State :=
  if r = QB_CTRL.reg q then (if (QB_CTRL.EN q).of v = 0 then qDisable q false s else qEnableWrite q s)
  else if r = QB_DB.reg q then
    let both := (QB_DB.SQ q).of v == 0 && (QB_DB.CQ q).of v == 0
    let s := if both || (QB_DB.CQ q).of v != 0 then
        (if doorsOpen s && cqServed s q then s.modQ q fun i => { i with dbCq := true } else s)
      else s
    let s := if both || (QB_DB.SQ q).of v != 0 then doorSq q s else s
    if doorsOpen s then idxIssue q s else s
  else if r.off < 0x1C then
    if q ≠ q0 then (if host then s else s.wr r (v &&& fieldBits r))
    else if !cfgFree s q then s
    else
      let ring := s.get (QB_STAT.STATE q) == qDisabled && ((r == QB_CQ_BASE_LO.reg q || r == QB_CQ_BASE_HI.reg q) && v != s.rd r
        || r == QB_CFG.reg q && (QB_CFG.CQ_LOG2 q).of v != s.get (QB_CFG.CQ_LOG2 q))
      let s := typed r v s
      let s := match baseLow q r with
        | some (i, n) => s.modQ q fun x => { x with low := x.low.set i (bits v 0 n) }
        | none => s
      if ring then s.modQ q fun i => { i with newRing := true } else s
  else if !host && q != q0 && (r == QB_ERR.reg q || r == QB_POS.reg q) then s.wr r (v &&& fieldBits r)
  else typed r v s

/-- CQI global registers. -/
def cqiWrite (r : Reg) (v : Word) (s : State) : State :=
  if r = CQI_CTRL.reg then onBit CQI_CTRL.FRST v (resetStart false) (typed r v s) else typed r v s

/-- Every vector that has become unmasked sends what its PBA bit holds (R345). -/
def pbaAll (s : State) : State := (List.range 129).foldl (fun (s : State) v => pbaSend v s) s

/-- The MSI-X table: address, data and Mask bit of a vector; the PBA is read-only (R344, R345). -/
def msixWrite (off : Nat) (v : Word) (s : State) : State :=
  let i := off / 16
  if 129 ≤ i then s
  else if off % 16 = 12 then
    if v.getLsbD 0 then { s with cqi := { s.cqi with mask := s.cqi.mask ||| BitVec.twoPow 129 i } } else msixUnmaskOp i s
  else { s with cqi := { s.cqi with table := Cells.set Cells.natLt (fun _ => 0#32) s.cqi.table (off / 4) v } }

/-- A write to configuration space, bytes as enabled: Bus Master Enable, the power state, MSI-X Enable and Function Mask, and
Function Level Reset act (R343-R346, R371, R491). -/
def configWrite (off : Nat) (be : BitVec 4) (v : Word) (s : State) : State :=
  let s := cfgPut (off / 4) (beMask be) v s
  if off = 0x04 ∧ be.getLsbD 0 = true then busMaster (v.getLsbD 2) s
  else if off = 0x44 ∧ be.getLsbD 0 = true then
    if bits v 0 2 = 3 then { s with cqi := { s.cqi with d3 := true } }
    else if bits v 0 2 = 0 ∧ s.cqi.d3 = true then resetStart true { s with cqi := { s.cqi with d3 := false } }
    else s
  else if off = 0x50 ∧ be.getLsbD 3 = true then
    pbaAll { s with cqi := { s.cqi with msixEn := v.getLsbD 31, fmask := v.getLsbD 30 } }
  else if off = 0x68 ∧ be.getLsbD 1 = true ∧ v.getLsbD 15 = true then resetStart true s
  else s

/-! ### Global registers -/

/-- The requester owns a claimable resource (R475). -/
def ownerIs (rq : Req) (n : Nat) (s : State) : Bool := reqId rq == some (s.get (CLAIM_RES.OWNER n))

/-- Pins, timers and test selects, by their owner only (R475, R476). -/
def claimedWrite (rq : Req) (r : Reg) (v : Word) (s : State) : State :=
  if r.off < 0x1200 then
    let g := (r.off - 0x1100) / 4
    if g < 12 && ownerIs rq g s then typed r v s else s
  else if r.off < 0x1400 then
    let t := (r.off - 0x1200) / 16
    if !(t < 12 && ownerIs rq (17 + t) s) then s
    else if r = TIM_CTRL.reg t then
      let pin (n : Nat) : Bool := decide (n < 12) && s.get (CLAIM_RES.OWNER n) == s.get (CLAIM_RES.OWNER (17 + t))
      let src := (TIM_CTRL.SRC t).of v
      let out := (TIM_CTRL.OUT t).of v
      let keep := (if decide (src < 12) && !pin src then [TIM_CTRL.SRC t] else []) ++
        (if pin out && s.isSet (GPIO_CFG.FUNC out) then [] else [TIM_CTRL.OUT t])
      typedBut keep r v s
    else typed r v s
  else
    let n := if r.off < 0x1410 then 12 + (r.off - 0x1400) / 4 else 16
    if ownerIs rq n s then typed r v s else s

/-- Power (R450-R467), by SUP. -/
def pwrWrite (r : Reg) (v : Word) (s : State) : State :=
  if r = PWR_ENG_CTRL.reg then
    engs.foldl (fun (s : State) (e : Eng) =>
      let s := if v.getLsbD e.val then engSleep e s else s
      if v.getLsbD (8 + e.val) then engWake e s else s) s
  else if r = PWR_RST.reg then onBit PWR_RST.WARM v (warmOp (warmCause (PWR_RST.SW_CAUSE.of v))) (typed r v s)
  else if r = PWR_WDT.reg then onBit PWR_WDT.KICK v wdtRestart (typed r v s)
  else typed r v s

/-- The lottery arbiter, by SUP (R425). -/
def arbWrite (r : Reg) (v : Word) (s : State) : State := if r = ARB_SEED.reg then seedWrite v s else typed r v s

/-- The stripe cache, by the placement cores and SUP (R414, R417, R421-R423). -/
def strcWrite (same : BitVec 15) (r : Reg) (v : Word) (s : State) : State :=
  if r = STRC_CTRL.reg then
    let on := STRC_CTRL.ENABLE.of v == 1
    let was := s.isSet STRC_CTRL.ENABLE
    let s := typedBut [STRC_CTRL.ENABLE] r v s
    let s := if on && !was then strcEnableOp s else if was && !on then strcDisableOp s else s
    let s := match STRC_CTRL.OP.of v with
      | 1 => strcOp invalOp s
      | 2 => strcOp cleanOp s
      | 3 => strcOp (fun s => invalOp (cleanOp s)) s
      | 4 => lockFill s
      | _ => s
    onBit STRC_CTRL.CNT_CLR v (strcCntClear (same.setWidth 3)) s
  else if 0x4010 ≤ r.off ∧ r.off < 0x4030 then partWrite (Fin.ofNat 8 ((r.off - 0x4010) / 4)) v s
  else if r = STRC_PF.reg then prefetch (STRC_PF.LINE.of v) (STRC_PF.N.of v) s
  else typed r v s

/-- Buffer pools, by SUP (R409). -/
def poolWrite (r : Reg) (v : Word) (s : State) : State :=
  let p : Fin 4 := Fin.ofNat 4 ((r.off - 0x5000) / 0x10)
  if r.off < 0x5040 ∧ r.off % 0x10 = 0 then poolConfig p false v s
  else if r.off < 0x5040 ∧ r.off % 0x10 = 4 then poolConfig p true v s
  else if r.off < 0x5040 ∧ r.off % 0x10 = 12 then poolMinReset p s
  else typed r v s

/-- A global register, for the requesters that may write it (R25, R427, R448, R467, R475). The windows of SEC and ESQ<n> stay 0. A BASE above
112 must not be written: such a write is discarded whole (DESIGN CHOICE, log 99). -/
def glbWrite (rq : Req) (same : BitVec 15) (r : Reg) (v : Word) (s : State) : State :=
  let sup := rq == .sup
  if 0x100 ≤ r.off ∧ r.off < 0x140 then (if sup && r.off < 0x11C && v.toNat % 128 ≤ 112 then typed r v s else s)
  else if r.off < 0x1000 then
    if 0x0C00 ≤ r.off ∧ r.off < 0x0D00 then (if rq == .sec then typed r v s else s)
    else if 0x0A00 ≤ r.off ∧ r.off < 0x0C00 then (if sup then typed r v s else s)
    else typed r v s
  else if r.off < 0x1100 then
    if h : (r.off - 0x1000) / 4 < 37 then claimOp rq ⟨(r.off - 0x1000) / 4, h⟩ v s else s
  else if r.off < 0x2000 then claimedWrite rq r v s
  else if r.off < 0x3000 then (if sup then pwrWrite r v s else s)
  else if r.off < 0x4000 then (if sup then arbWrite r v s else s)
  else if r.off < 0x5000 then (if sup || isPlc rq then strcWrite same r v s else s)
  else if sup then poolWrite r v s else s

/-! ### The write -/

/-- A write of a whole word to a register that exists; `same` names the counters that rise in the cycle of a CNT_CLR (R9, R11). -/
def regWrite (rq : Req) (same : BitVec 15) (r : Reg) (v : Word) (s : State) : State :=
  if r.info.isNone then s
  else match r.blk with
    | .eng => engWrite rq (Fin.ofNat 8 r.i) same r v s
    | .ch => chWrite (Fin.ofNat 8 r.i) (Fin.ofNat 5 r.k) same r v s
    | .wob => wobWrite (Fin.ofNat 8 r.i) r v s
    | .glb => glbWrite rq same r v s
    | .ax => axWrite (Fin.ofNat 4 r.i) r v s
    | .brk => brkWrite rq (Fin.ofNat 2 r.i) r v s
    | .mot => typed r v s
    | .cqi => cqiWrite r v s
    | .qb => queueWrite (rq == .host) (Fin.ofNat 65 r.i) r v s

/-- The value that a write amounts to where hardware changes the bits `hw` of the register in the same cycle: on those the write is lost
(R13). -/
def raced (r : Reg) (hw v w : Word) : Word :=
  match r.info with
  | none => v
  | some t => t.fields.foldl (fun (v : Word) f =>
      let m := (⟨r, f.lo, f.w⟩ : Fld).mask &&& hw
      match f.ty with
      | .rw | .rws => (v &&& ~~~ m) ||| (w &&& m)
      | .w1c | .w1s => v &&& ~~~ m
      | .ro | .wo => v) v

/-- A register is written unless the access is not a whole aligned word (R12), with the bits of a race lost (R13). -/
def regAccess (rq : Req) (whole : Bool) (hw : Word) (same : BitVec 15) (r : Reg) (v : Word) (s : State) : State :=
  if whole then regWrite rq same r (raced r hw v (s.rd r)) s else s

/-- A write of a processor or the host reaches what its address names: registers and Anvil memory by whole aligned words (R12), memories by
the enabled bytes. -/
def destWrite (rq : Req) (be : BitVec 4) (v hw : Word) (same : BitVec 15) (aligned : Bool) (d : Dest) (s : State) : State :=
  let whole := aligned && be == 0xF#4
  match d with
  | .nothing => s
  | .config off => if aligned then configWrite off be v s else s
  | .reg r => regAccess rq whole hw same r v s
  | .pm e b a => if whole then anvPm e b a v s else s
  | .dm e a => if whole then anvDm e a v s else s
  | .msix off => if whole then msixWrite off v s else s
  | .mem k a => memWrite rq k (a / 4 * 4) be v s
  | .queue q w => if whole then queueWord q w v s else s
  | .window way set off => windowWord rq way set (off / 4 * 4) be v s
  | .ddr a => (List.range 4).foldl (fun (s : State) i => if be.getLsbD i then s.ddrPut (a / 4 * 4 + i) 1 (bits v (8 * i) 8) else s) s

/-- The store of an RV32 processor is misaligned: a word or half-word across its boundary (R12). -/
def storeMisaligned (a : Nat) (be : BitVec 4) : Bool :=
  match popcount 4 be.toNat with
  | 4 => a % 4 != 0
  | 2 => a % 2 != 0
  | _ => false

/-- REGISTER_WRITE. `hw` are bits of the register that hardware changes in the same cycle, `same` counters that rise in the cycle of a
CNT_CLR. A misaligned store is the core's own exception and no access (R12); an access a processor has no right to is an access fault of
that core (R18, R24); the Anvil engines reach no register (R172). -/
def registerWriteOp (rq : Req) (addr : Word) (be : BitVec 4) (v hw : Word) (same : BitVec 15) (s : State) : State :=
  let a := addr.toNat
  if rq = .host then destWrite rq be v hw same (a % 4 == 0) (hostWriteDest s a) s
  else match reqId rq with
    | none => s
    | some id =>
      if storeMisaligned a be then s
      else if !coreMay s rq a || !pmpMay s rq a (popcount 4 be.toNat) true then accessFault (Fin.ofNat 16 id) addr true s
      else destWrite rq be v hw same (a % 4 == 0) (coreDest s rq a) s

def execRegisterWrite (rq : Req) (addr : BitVec 32) (be : BitVec 4) (v hw : Word) (same : BitVec 15) (s : State) : Outcome :=
  settled (registerWriteOp rq addr be v hw same s)

end Sys2Proof.Machine
end

