-- ==== Sys2Proof/Machine/Tick.lean ====
section
/-! DEFINITION. What passes while no command waits: one microsecond of the part's clock (R397, R450, R467), the end of a
function reset (R372) and mechanism data that waits for a parked engine (R394). -/
namespace Sys2Proof.Machine

/-- Steps of 1/32,768 s that lie within a number of microseconds. -/
def rtcSteps (us : Nat) : Nat := us * 512 / 15625

/-- The RTC shows in its registers: 40-bit seconds, 15-bit sub-seconds (R450, R467). -/
def rtcShow (s : State) : State :=
  let s := s.put PWR_RTC_LO.SEC (rtcSec s)
  let s := s.put PWR_RTC_HI.SEC (rtcSec s / 2 ^ 32)
  s.put PWR_RTC_HI.SUB (s.pw.rtc % 32768)

/-- The RTC counts from VDD_AON power-up; with a failed crystal it stands while the other rails are down (R450, R451). -/
def rtcTick (s : State) : State :=
  let d := rtcSteps (s.us + 1) - rtcSteps s.us
  if d = 0 ∨ (s.pw.life = .reset ∧ s.pw.xtalFail = true) then s
  else rtcShow (pwOf (fun p => { p with rtc := (p.rtc + d) % 2 ^ 55 }) s)

/-- The watchdog's count goes on from POR release while it is enabled, but not while PFAIL_N is latched; that it has reached
PWR_WDT.TIMEOUT is the row WATCHDOG_EXPIRE (R464, log 33). -/
def wdtTick (s : State) : State :=
  if s.isSet PWR_WDT.EN && !s.pw.pfail && s.pw.life != .reset then pwOf (fun p => { p with wdtUs := p.wdtUs + 1 }) s else s

/-- The counts of a running timer within the next microsecond: 100 MOT cycles, divided by 2^PRE (R476, log 33). -/
def timSteps (s : State) (t : Nat) : Nat :=
  let d := 2 ^ s.get (TIM_CTRL.PRE t)
  if s.get (TIM_CTRL.MODE t) = 0 then 0 else (s.us + 1) * 100 / d - s.us * 100 / d

/-- The timers count while the clocks run; a capture or a match comes as its row (R476, log 33). -/
def timTick (s : State) : State :=
  if s.pw.life = .reset ∨ s.get PWR_STATE.STATE = 2 then s
  else (List.finRange 12).foldl (fun (s : State) (t : Fin 12) =>
    if timSteps s t = 0 then s else s.wr (TIM_CNT.reg t.val) (s.rd (TIM_CNT.reg t.val) + BitVec.ofNat 32 (timSteps s t))) s

/-- One microsecond without a command. -/
def idleTick (s : State) : State :=
  let s := timTick (wdtTick (rtcTick s))
  mechAll (resetEnd { s with us := s.us + 1 })

end Sys2Proof.Machine
end

