-- ==== Sys2Proof/Machine/Dispatch.lean ====
section
/-! DEFINITION. The meaning of each command. -/
namespace Sys2Proof.Machine

def exec (i : Instr) (s : State) : Host.Outcome State Fault Refusal :=
  match i with
  -- registers, fabric, arbiter (01, 15)
  | .registerWrite rq addr be v hw same => Sys2Proof.Machine.execRegisterWrite rq addr be v hw same s
  | .coreAccessFault core addr write => Sys2Proof.Machine.execCoreAccessFault core addr write s
  | .arbiterContest reqs => Sys2Proof.Machine.execArbiterContest reqs s
  -- head link (02)
  | .laneFrameReceived e u marker payload nextCrc hdr => Sys2Proof.Machine.execLaneFrameReceived e u marker payload nextCrc hdr s
  | .servoSetReceived e blocks offset => Sys2Proof.Machine.execServoSetReceived e blocks offset s
  | .f5StatusBlock e blk => Sys2Proof.Machine.execF5StatusBlock e blk s
  | .f5Silent e => Sys2Proof.Machine.execF5Silent e s
  | .laneLockLost e u => Sys2Proof.Machine.execLaneLockLost e u s
  | .trainingFrameReceived e u marker payload hdr at_ => Sys2Proof.Machine.execTrainingFrameReceived e u marker payload hdr at_ s
  | .trainTimeout e => Sys2Proof.Machine.execTrainTimeout e s
  | .hlEnable e => Sys2Proof.Machine.execHlEnable e s
  | .hlDisable e => Sys2Proof.Machine.execHlDisable e s
  | .hlRetrain e => Sys2Proof.Machine.execHlRetrain e s
  | .hlCntClr e same => Sys2Proof.Machine.execHlCntClr e same s
  | .downstreamFrameSend e => Sys2Proof.Machine.execDownstreamFrameSend e s
  | .lpwRepeat e => Sys2Proof.Machine.execLpwRepeat e s
  -- read channel (03)
  | .syncMarkDetected e k pos mism frame level centre => Sys2Proof.Machine.execSyncMarkDetected e k pos mism frame level centre s
  | .syncWindowClose e k pos addr => Sys2Proof.Machine.execSyncWindowClose e k pos addr s
  | .clusterDecoded e k d => Sys2Proof.Machine.execClusterDecoded e k d s
  | .chainEnable e k => Sys2Proof.Machine.execChainEnable e k s
  | .chainDisable e k => Sys2Proof.Machine.execChainDisable e k s
  | .chCntClr e k same => Sys2Proof.Machine.execChCntClr e k same s
  | .rplCapArm e k => Sys2Proof.Machine.execRplCapArm e k s
  | .rplPlay e => Sys2Proof.Machine.execRplPlay e s
  | .replayPassDone e d => Sys2Proof.Machine.execReplayPassDone e d s
  | .rplAbort e => Sys2Proof.Machine.execRplAbort e s
  | .wpllLock e fb => Sys2Proof.Machine.execWpllLock e fb s
  | .wpllLockLost e => Sys2Proof.Machine.execWpllLockLost e s
  | .wpllResume e => Sys2Proof.Machine.execWpllResume e s
  | .adipWordDecoded e ahead addr level => Sys2Proof.Machine.execAdipWordDecoded e ahead addr level s
  | .capCtrlWrite e v => Sys2Proof.Machine.execCapCtrlWrite e v s
  | .capTrigger e pos => Sys2Proof.Machine.execCapTrigger e pos s
  | .capDone e samples => Sys2Proof.Machine.execCapDone e samples s
  -- seam and reassembly (04)
  | .seamCrossing e => Sys2Proof.Machine.execSeamCrossing e s
  | .seamWindowClose e sameStop => Sys2Proof.Machine.execSeamWindowClose e sameStop s
  | .seamSettled e js => Sys2Proof.Machine.execSeamSettled e js s
  | .seamLate e js => Sys2Proof.Machine.execSeamLate e js s
  | .stitchDecoded e d => Sys2Proof.Machine.execStitchDecoded e d s
  | .seamRun e => Sys2Proof.Machine.execSeamRun e s
  | .seamClose e => Sys2Proof.Machine.execSeamClose e s
  | .seamCntClr e same => Sys2Proof.Machine.execSeamCntClr e same s
  | .rasFree e slot => Sys2Proof.Machine.execRasFree e slot s
  -- write path (05)
  | .wrGo e => Sys2Proof.Machine.execWrGo e s
  | .wrStop e => Sys2Proof.Machine.execWrStop e s
  | .wrOpcGo e => Sys2Proof.Machine.execWrOpcGo e s
  | .wrCntClr e same => Sys2Proof.Machine.execWrCntClr e same s
  | .laserEnWrite e v => Sys2Proof.Machine.execLaserEnWrite e v s
  | .wrProdWrite e prod => Sys2Proof.Machine.execWrProdWrite e prod s
  | .wrDecisionPoint e => Sys2Proof.Machine.execWrDecisionPoint e s
  | .ilkOpening e => Sys2Proof.Machine.execIlkOpening e s
  | .ilkHoldExpire e => Sys2Proof.Machine.execIlkHoldExpire e s
  | .ilkOpeningEnd e => Sys2Proof.Machine.execIlkOpeningEnd e s
  | .opcDone e steps => Sys2Proof.Machine.execOpcDone e steps s
  -- retry ladder and Temper (06)
  | .ladderAttempt e angle first => Sys2Proof.Machine.execLadderAttempt e angle first s
  | .ladderSkip e c => Sys2Proof.Machine.execLadderSkip e c s
  | .temperPeriod e => Sys2Proof.Machine.execTemperPeriod e s
  | .tmpStart e => Sys2Proof.Machine.execTmpStart e s
  | .tmpAbort e => Sys2Proof.Machine.execTmpAbort e s
  | .tmpCntClr e same => Sys2Proof.Machine.execTmpCntClr e same s
  | .temperRetryDelay e => Sys2Proof.Machine.execTemperRetryDelay e s
  | .temperMatch e => Sys2Proof.Machine.execTemperMatch e s
  | .spotHandover e claim => Sys2Proof.Machine.execSpotHandover e claim s
  | .temperConvLimit e => Sys2Proof.Machine.execTemperConvLimit e s
  | .temperWindowDone e w => Sys2Proof.Machine.execTemperWindowDone e w s
  | .temperFreqMeasure e count => Sys2Proof.Machine.execTemperFreqMeasure e count s
  | .tmpAdcmapWrite e a v => Sys2Proof.Machine.execTmpAdcmapWrite e a v s
  | .tmpAdctrimWrite e a s1 v => Sys2Proof.Machine.execTmpAdctrimWrite e a s1 v s
  -- Anvil (07)
  | .anvTickStale e => Sys2Proof.Machine.execAnvTickStale e s
  | .anvOverrun e => Sys2Proof.Machine.execAnvOverrun e s
  | .anvNop e => Sys2Proof.Machine.execAnvNop e s
  | .anvMpy e d x y => Sys2Proof.Machine.execAnvMpy e d x y s
  | .anvMac e d x y => Sys2Proof.Machine.execAnvMac e d x y s
  | .anvMsu e d x y => Sys2Proof.Machine.execAnvMsu e d x y s
  | .anvLda e d x => Sys2Proof.Machine.execAnvLda e d x s
  | .anvAdd e d x => Sys2Proof.Machine.execAnvAdd e d x s
  | .anvSub e d x => Sys2Proof.Machine.execAnvSub e d x s
  | .anvSt e d x => Sys2Proof.Machine.execAnvSt e d x s
  | .anvInt e d x q => Sys2Proof.Machine.execAnvInt e d x q s
  | .anvOut e d q => Sys2Proof.Machine.execAnvOut e d q s
  | .anvExa e k d => Sys2Proof.Machine.execAnvExa e k d s
  | .anvShf e d n => Sys2Proof.Machine.execAnvShf e d n s
  | .anvAcc e d a => Sys2Proof.Machine.execAnvAcc e d a s
  | .anvMova e d a => Sys2Proof.Machine.execAnvMova e d a s
  | .anvClr e d => Sys2Proof.Machine.execAnvClr e d s
  | .anvLdk e d v => Sys2Proof.Machine.execAnvLdk e d v s
  | .anvLdx e k v => Sys2Proof.Machine.execAnvLdx e k v s
  | .anvAdx e k v => Sys2Proof.Machine.execAnvAdx e k v s
  | .anvLdi e i1 v => Sys2Proof.Machine.execAnvLdi e i1 v s
  | .anvAdi e i1 v => Sys2Proof.Machine.execAnvAdi e i1 v s
  | .anvLdim e i1 x => Sys2Proof.Machine.execAnvLdim e i1 x s
  | .anvMov e x y => Sys2Proof.Machine.execAnvMov e x y s
  | .anvRsc e x n k => Sys2Proof.Machine.execAnvRsc e x n k s
  | .anvRpt e n => Sys2Proof.Machine.execAnvRpt e n s
  | .anvBr e c t => Sys2Proof.Machine.execAnvBr e c t s
  | .anvBrn e c t => Sys2Proof.Machine.execAnvBrn e c t s
  | .anvWait e t => Sys2Proof.Machine.execAnvWait e t s
  | .anvRinit e m => Sys2Proof.Machine.execAnvRinit e m s
  | .illegalInstruction e w => Sys2Proof.Machine.execIllegalInstruction e w s
  | .anvSatTrip e => Sys2Proof.Machine.execAnvSatTrip e s
  | .anvRun e => Sys2Proof.Machine.execAnvRun e s
  | .anvStop e => Sys2Proof.Machine.execAnvStop e s
  | .anvBankWrite e bank => Sys2Proof.Machine.execAnvBankWrite e bank s
  | .anvTripClr e => Sys2Proof.Machine.execAnvTripClr e s
  | .anvCntClr e same => Sys2Proof.Machine.execAnvCntClr e same s
  | .anvRampInit e r v => Sys2Proof.Machine.execAnvRampInit e r v s
  | .anvPmWrite e bank a w => Sys2Proof.Machine.execAnvPmWrite e bank a w s
  | .anvDmWrite e a v => Sys2Proof.Machine.execAnvDmWrite e a v s
  -- loop commands, seeks, gearing (08)
  | .loopNop e => Sys2Proof.Machine.execLoopNop e s
  | .focusSearch e arg found lost => Sys2Proof.Machine.execFocusSearch e arg found lost s
  | .trackOn e loss => Sys2Proof.Machine.execTrackOn e loss s
  | .trackOff e => Sys2Proof.Machine.execTrackOff e s
  | .jump e n loss => Sys2Proof.Machine.execJump e n loss s
  | .layerJump e n found => Sys2Proof.Machine.execLayerJump e n found s
  | .retract e => Sys2Proof.Machine.execRetract e s
  | .loopCmdTimeout e => Sys2Proof.Machine.execLoopCmdTimeout e s
  | .focusLost e => Sys2Proof.Machine.execFocusLost e s
  | .trackLost e => Sys2Proof.Machine.execTrackLost e s
  | .staleTicksFault e => Sys2Proof.Machine.execStaleTicksFault e s
  | .longSeek e target mean reads => Sys2Proof.Machine.execLongSeek e target mean reads s
  | .sledPositionRecover e homed address => Sys2Proof.Machine.execSledPositionRecover e homed address s
  | .slgAngleStep e => Sys2Proof.Machine.execSlgAngleStep e s
  | .slgLoad e => Sys2Proof.Machine.execSlgLoad e s
  | .slgEnWrite e v => Sys2Proof.Machine.execSlgEnWrite e v s
  -- spindle, buses, sled, axes (09)
  | .spnPwmPeriod e m => Sys2Proof.Machine.execSpnPwmPeriod e m s
  | .spnStart e => Sys2Proof.Machine.execSpnStart e s
  | .spnCoast e => Sys2Proof.Machine.execSpnCoast e s
  | .spnDirWrite e dir => Sys2Proof.Machine.execSpnDirWrite e dir s
  | .spnTargetWrite e rpm => Sys2Proof.Machine.execSpnTargetWrite e rpm s
  | .spnCatchDecide e edges interval forward theta => Sys2Proof.Machine.execSpnCatchDecide e edges interval forward theta s
  | .spnAlignDone e => Sys2Proof.Machine.execSpnAlignDone e s
  | .spnOpenHandover e => Sys2Proof.Machine.execSpnOpenHandover e s
  | .spnBrakeDone e => Sys2Proof.Machine.execSpnBrakeDone e s
  | .spnAtSpeed e => Sys2Proof.Machine.execSpnAtSpeed e s
  | .spnLossOfSync e => Sys2Proof.Machine.execSpnLossOfSync e s
  | .spnDriverFault e => Sys2Proof.Machine.execSpnDriverFault e s
  | .brkSample b vbus ibus ichop => Sys2Proof.Machine.execBrkSample b vbus ibus ichop s
  | .busThresholdRelease b level => Sys2Proof.Machine.execBusThresholdRelease b level s
  | .chopFault b => Sys2Proof.Machine.execChopFault b s
  | .brkFaultClr b rq => Sys2Proof.Machine.execBrkFaultClr b rq s
  | .brkThresholdWrite b which v => Sys2Proof.Machine.execBrkThresholdWrite b which v s
  | .sldPwmPeriod e enc => Sys2Proof.Machine.execSldPwmPeriod e enc s
  | .sldHoldCurrent e => Sys2Proof.Machine.execSldHoldCurrent e s
  | .sldMove e => Sys2Proof.Machine.execSldMove e s
  | .sldHome e => Sys2Proof.Machine.execSldHome e s
  | .sldStop e => Sys2Proof.Machine.execSldStop e s
  | .sldPark e => Sys2Proof.Machine.execSldPark e s
  | .sldParkDone e => Sys2Proof.Machine.execSldParkDone e s
  | .sldPowerOn e => Sys2Proof.Machine.execSldPowerOn e s
  | .sldFault e => Sys2Proof.Machine.execSldFault e s
  | .sldEncBad e => Sys2Proof.Machine.execSldEncBad e s
  | .encIndex enc => Sys2Proof.Machine.execEncIndex enc s
  | .encIllegalTransition enc => Sys2Proof.Machine.execEncIllegalTransition enc s
  | .axMove a => Sys2Proof.Machine.execAxMove a s
  | .axStop a => Sys2Proof.Machine.execAxStop a s
  | .axEstop a => Sys2Proof.Machine.execAxEstop a s
  | .axGearSet a => Sys2Proof.Machine.execAxGearSet a s
  | .axGearClear a => Sys2Proof.Machine.execAxGearClear a s
  | .axMasterCount a n up => Sys2Proof.Machine.execAxMasterCount a n up s
  | .axStepPulse a up last enc => Sys2Proof.Machine.execAxStepPulse a up last enc s
  -- placement and policy (10)
  | .policyCall c => Sys2Proof.Machine.execPolicyCall c s
  | .chooseWriteGroup vol stripes => Sys2Proof.Machine.execChooseWriteGroup vol stripes s
  | .chooseReadSource rq => Sys2Proof.Machine.execChooseReadSource rq s
  | .chooseLoad e cur cands => Sys2Proof.Machine.execChooseLoad e cur cands s
  | .chooseSpeed e radius rc hostKbs fill size => Sys2Proof.Machine.execChooseSpeed e radius rc hostKbs fill size s
  | .policyEcall c => Sys2Proof.Machine.execPolicyEcall c s
  | .policyBudgetExpire c => Sys2Proof.Machine.execPolicyBudgetExpire c s
  | .bpalloc c rd rs1 rs2 => Sys2Proof.Machine.execBpalloc c rd rs1 rs2 s
  | .bpfree c rd rs1 rs2 => Sys2Proof.Machine.execBpfree c rd rs1 rs2 s
  | .bpshare c rd rs1 rs2 => Sys2Proof.Machine.execBpshare c rd rs1 rs2 s
  | .gfmac8 c rd rs1 rs2 => Sys2Proof.Machine.execGfmac8 c rd rs1 rs2 s
  | .plquery c rd rs1 rs2 crcBad => Sys2Proof.Machine.execPlquery c rd rs1 rs2 crcBad s
  | .plcommit c rd rs1 rs2 => Sys2Proof.Machine.execPlcommit c rd rs1 rs2 s
  | .qput c rd rs1 rs2 => Sys2Proof.Machine.execQput c rd rs1 rs2 s
  | .qget c rd rs1 rs2 => Sys2Proof.Machine.execQget c rd rs1 rs2 s
  | .measurementSnapshot work => Sys2Proof.Machine.execMeasurementSnapshot work s
  | .poweredHour => Sys2Proof.Machine.execPoweredHour s
  | .agingMark => Sys2Proof.Machine.execAgingMark s
  | .discRecovery disc found => Sys2Proof.Machine.execDiscRecovery disc found s
  -- redundancy (11)
  | .gatherTimeout vol m => Sys2Proof.Machine.execGatherTimeout vol m s
  | .groupCommit vol => Sys2Proof.Machine.execGroupCommit vol s
  | .runInitZero run m => Sys2Proof.Machine.execRunInitZero run m s
  | .destage run stripe row j m => Sys2Proof.Machine.execDestage run stripe row j m s
  | .rowLockGrant => Sys2Proof.Machine.execRowLockGrant s
  | .resync m => Sys2Proof.Machine.execResync m s
  | .headerBatchWrite disc ok => Sys2Proof.Machine.execHeaderBatchWrite disc ok s
  | .mapRebuild => Sys2Proof.Machine.execMapRebuild s
  | .clusterRepair m => Sys2Proof.Machine.execClusterRepair m s
  | .engGraceExpire e => Sys2Proof.Machine.execEngGraceExpire e s
  | .rebuildTargetChoose run j => Sys2Proof.Machine.execRebuildTargetChoose run j s
  | .rebuildBatchDone run j m => Sys2Proof.Machine.execRebuildBatchDone run j m s
  | .reshapeUnitCopy vol m => Sys2Proof.Machine.execReshapeUnitCopy vol m s
  | .scrub disc m => Sys2Proof.Machine.execScrub disc m s
  -- journal, Plinth, boot (12)
  | .recordSeal second => Sys2Proof.Machine.execRecordSeal second s
  | .recordWriteDone b => Sys2Proof.Machine.execRecordWriteDone b s
  | .mirrorFail b => Sys2Proof.Machine.execMirrorFail b s
  | .mapCheckpoint => Sys2Proof.Machine.execMapCheckpoint s
  | .journalResize => Sys2Proof.Machine.execJournalResize s
  | .plinthFallbackWrite => Sys2Proof.Machine.execPlinthFallbackWrite s
  | .pfailLatch failed dur => Sys2Proof.Machine.execPfailLatch failed dur s
  | .brownoutReturn => Sys2Proof.Machine.execBrownoutReturn s
  | .por => Sys2Proof.Machine.execPor s
  | .pgFall => Sys2Proof.Machine.execPgFall s
  | .porRelease pfailLow nor ddrOk a b nandBad gap ms => Sys2Proof.Machine.execPorRelease pfailLow nor ddrOk a b nandBad gap ms s
  -- queues (13)
  | .doorbellSq q => Sys2Proof.Machine.execDoorbellSq q s
  | .doorbellCq q head => Sys2Proof.Machine.execDoorbellCq q head s
  | .indexReadDone q tail head => Sys2Proof.Machine.execIndexReadDone q tail head s
  | .slotFetchDone q slots segs estMs freeMs => Sys2Proof.Machine.execSlotFetchDone q slots segs estMs freeMs s
  | .msixUnmask v => Sys2Proof.Machine.execMsixUnmask v s
  | .cqFullPoll q head => Sys2Proof.Machine.execCqFullPoll q head s
  | .hostMemoryError q tag => Sys2Proof.Machine.execHostMemoryError q tag s
  | .interimDue q tag eta => Sys2Proof.Machine.execInterimDue q tag eta s
  | .deadlinePass q tag => Sys2Proof.Machine.execDeadlinePass q tag s
  | .queueDisable q same => Sys2Proof.Machine.execQueueDisable q same s
  | .queueEnable q tail head => Sys2Proof.Machine.execQueueEnable q tail head s
  | .busMasterEnable on => Sys2Proof.Machine.execBusMasterEnable on s
  | .cqiFrst => Sys2Proof.Machine.execCqiFrst s
  | .functionReset => Sys2Proof.Machine.execFunctionReset s
  -- admin and I/O commands (14)
  | .queueCreate tag => Sys2Proof.Machine.execQueueCreate tag s
  | .queueDelete tag => Sys2Proof.Machine.execQueueDelete tag s
  | .abort tag => Sys2Proof.Machine.execAbort tag s
  | .getLog tag => Sys2Proof.Machine.execGetLog tag s
  | .setSettings tag failed => Sys2Proof.Machine.execSetSettings tag failed s
  | .getSettings tag => Sys2Proof.Machine.execGetSettings tag s
  | .volCreate tag => Sys2Proof.Machine.execVolCreate tag s
  | .volDelete tag => Sys2Proof.Machine.execVolDelete tag s
  | .volSeal tag m => Sys2Proof.Machine.execVolSeal tag m s
  | .volReshape tag => Sys2Proof.Machine.execVolReshape tag s
  | .mediaLoad tag found => Sys2Proof.Machine.execMediaLoad tag found s
  | .mediaEject tag => Sys2Proof.Machine.execMediaEject tag s
  | .discFail tag => Sys2Proof.Machine.execDiscFail tag s
  | .discMigrate tag => Sys2Proof.Machine.execDiscMigrate tag s
  | .keyLoad tag failed => Sys2Proof.Machine.execKeyLoad tag failed s
  | .keyClear tag failed => Sys2Proof.Machine.execKeyClear tag failed s
  | .programLoad tag image => Sys2Proof.Machine.execProgramLoad tag image s
  | .calRestore tag ents => Sys2Proof.Machine.execCalRestore tag ents s
  | .fwStage tag hdr => Sys2Proof.Machine.execFwStage tag hdr s
  | .fwActivate tag => Sys2Proof.Machine.execFwActivate tag s
  | .fwHandover => Sys2Proof.Machine.execFwHandover s
  | .activationTimeout ready => Sys2Proof.Machine.execActivationTimeout ready s
  | .read q tag m => Sys2Proof.Machine.execRead q tag m s
  | .write q tag data m => Sys2Proof.Machine.execWrite q tag data m s
  | .verify q tag m => Sys2Proof.Machine.execVerify q tag m s
  | .flush q tag m => Sys2Proof.Machine.execFlush q tag m s
  -- DDR4, pools, stripe cache, arbiter, cipher (15, 16)
  | .ddrRefresh => Sys2Proof.Machine.execDdrRefresh s
  | .ddrPatrolScrub beat err => Sys2Proof.Machine.execDdrPatrolScrub beat err s
  | .poolConfigWrite p count v => Sys2Proof.Machine.execPoolConfigWrite p count v s
  | .poolMinReset p => Sys2Proof.Machine.execPoolMinReset p s
  | .strcAccess g i1 line a sram => Sys2Proof.Machine.execStrcAccess g i1 line a sram s
  | .strcFillDone line err => Sys2Proof.Machine.execStrcFillDone line err s
  | .strcWriteback => Sys2Proof.Machine.execStrcWriteback s
  | .strcPrefetch line n => Sys2Proof.Machine.execStrcPrefetch line n s
  | .strcInval => Sys2Proof.Machine.execStrcInval s
  | .strcClean => Sys2Proof.Machine.execStrcClean s
  | .strcCleanInval => Sys2Proof.Machine.execStrcCleanInval s
  | .strcLockfill => Sys2Proof.Machine.execStrcLockfill s
  | .strcOpDone => Sys2Proof.Machine.execStrcOpDone s
  | .strcEnable => Sys2Proof.Machine.execStrcEnable s
  | .strcDisable => Sys2Proof.Machine.execStrcDisable s
  | .strcDrainDone => Sys2Proof.Machine.execStrcDrainDone s
  | .strcInitDone => Sys2Proof.Machine.execStrcInitDone s
  | .strcWindowWrite way set mask data => Sys2Proof.Machine.execStrcWindowWrite way set mask data s
  | .strcPartWrite i1 v => Sys2Proof.Machine.execStrcPartWrite i1 v s
  | .strcCntClr same => Sys2Proof.Machine.execStrcCntClr same s
  | .arbSeedWrite v => Sys2Proof.Machine.execArbSeedWrite v s
  | .cipherJobReady prio slot blocks ending owner => Sys2Proof.Machine.execCipherJobReady prio slot blocks ending owner s
  | .cipherJobDone u => Sys2Proof.Machine.execCipherJobDone u s
  -- debug, test, power, claims, timers, temperature (16, 17, 18)
  | .dbgChallenge nonce => Sys2Proof.Machine.execDbgChallenge nonce s
  | .dbgUnlock level by_ => Sys2Proof.Machine.execDbgUnlock level by_ s
  | .fuseProg field word data efuse failed busy => Sys2Proof.Machine.execFuseProg field word data efuse failed busy s
  | .jtagExtest => Sys2Proof.Machine.execJtagExtest s
  | .jtagHighz => Sys2Proof.Machine.execJtagHighz s
  | .jtagClamp => Sys2Proof.Machine.execJtagClamp s
  | .tapReset inFrame => Sys2Proof.Machine.execTapReset inFrame s
  | .pwrEngSleep e => Sys2Proof.Machine.execPwrEngSleep e s
  | .esqWfi e => Sys2Proof.Machine.execEsqWfi e s
  | .pwrEngWake e => Sys2Proof.Machine.execPwrEngWake e s
  | .engineWakeDone e => Sys2Proof.Machine.execEngineWakeDone e s
  | .standbyEntry => Sys2Proof.Machine.execStandbyEntry s
  | .standbyWake src => Sys2Proof.Machine.execStandbyWake src s
  | .wakeTimer i1 => Sys2Proof.Machine.execWakeTimer i1 s
  | .clockFailure c => Sys2Proof.Machine.execClockFailure c s
  | .vddAonPowerUp => Sys2Proof.Machine.execVddAonPowerUp s
  | .warmReset cause => Sys2Proof.Machine.execWarmReset cause s
  | .watchdogExpire => Sys2Proof.Machine.execWatchdogExpire s
  | .wdtKick => Sys2Proof.Machine.execWdtKick s
  | .xtal32Fail => Sys2Proof.Machine.execXtal32Fail s
  | .claimWrite rq r v => Sys2Proof.Machine.execClaimWrite rq r v s
  | .timCapture t falling cnt => Sys2Proof.Machine.execTimCapture t falling cnt s
  | .timMatch t => Sys2Proof.Machine.execTimMatch t s
  | .thermWarn temp => Sys2Proof.Machine.execThermWarn temp s
  | .thermTrip temp => Sys2Proof.Machine.execThermTrip temp s
  | .thermRecover temp => Sys2Proof.Machine.execThermRecover temp s
  | .pfailHoldRelease a b nandBad gap ms => Sys2Proof.Machine.execPfailHoldRelease a b nandBad gap ms s

end Sys2Proof.Machine
end

