-- ==== Sys2Proof/Safety.lean ====
section
/-! DEFINITION. What holds of every state the part can be in, whatever is commanded, and what no step undoes. -/
namespace Sys2Proof.Machine

/-- The state is one the part can hold: the register file, the message queues and the DDR4 devices are in canonical form
(keys strictly rising, no entry equal to what an unlisted key reads as), the event log holds at most the newest 4,096 events
(R397), and x0 of every PLC core is 0 (R18). -/
structure State.Inv (s : State) : Prop where
  regs : Cells.wf Reg.lt Reg.reset s.regs = true
  mq : Cells.wf Cells.natLt (fun _ => ([] : List (BitVec 128))) s.mq = true
  ddr : Memory.wf s.ddr = true
  log : s.events.length ≤ 4096
  x0 : ∀ c : Fin 4, s.arm.plc[c].x[(0 : Fin 32)] = 0#32

/-- From `a` to `b` no fuse is unblown, and a locked field takes no further bit (R481). -/
structure Fuses.Kept (a b : Fuses) : Prop where
  drk : a.drk &&& b.drk = a.drk
  drkLock : a.drkLock = true → b.drkLock = true ∧ b.drk = a.drk
  ownerHash : a.ownerHash &&& b.ownerHash = a.ownerHash
  ownerLock : a.ownerLock = true → b.ownerLock = true ∧ b.ownerHash = a.ownerHash
  revoke : a.revoke &&& b.revoke = a.revoke
  svn : a.svn &&& b.svn = a.svn
  dbgVendor : a.dbgVendor = true → b.dbgVendor = true

/-! ### Parts of the state -/

/-- The register groups: the blocks of an engine domain, those of a chain, then the blocks of the whole part, as R24 and R25 lay
them out. `seam` holds the reassembly registers too, `policy` the map cache's, `claims` the claim registers, `ports` GPIO, timers,
test multiplexer and test DAC. -/
inductive RegGroup
  | hl | seam | wr | tmp | rty | spn | sld | slg | anv | chain | wobble | capture | ids | policy | journal | ddr | sram
  | security | temperature | claims | ports | power | arbiter | cache | pools | axis | bus | mot | cqi | queue
deriving DecidableEq, Repr

/-- The place of a register group in a set of parts: engine domains and chains first. -/
def RegGroup.idx : RegGroup → Nat
  | .hl => 0 | .seam => 1 | .wr => 2 | .tmp => 3 | .rty => 4 | .spn => 5 | .sld => 6 | .slg => 7 | .anv => 8 | .chain => 9
  | .wobble => 10 | .capture => 11 | .ids => 12 | .policy => 13 | .journal => 14 | .ddr => 15 | .sram => 16 | .security => 17
  | .temperature => 18 | .claims => 19 | .ports => 20 | .power => 21 | .arbiter => 22 | .cache => 23 | .pools => 24 | .axis => 25
  | .bus => 26 | .mot => 27 | .cqi => 28 | .queue => 29

/-- The group a register belongs to. -/
def Reg.group (r : Reg) : RegGroup :=
  match r.blk with
  | .eng =>
    if r.off < 0x4000 then .hl else if r.off < 0x5000 then .seam else if r.off < 0x6000 then .wr else if r.off < 0x6800 then .tmp
    else if r.off < 0x7000 then .rty else if r.off < 0x7800 then .spn else if r.off < 0x7C00 then .sld else if r.off < 0x8000 then .slg
    else .anv
  | .ch => .chain
  | .wob => if r.off < 0x380 then .wobble else .capture
  | .glb =>
    if r.off < 0x800 then .ids else if r.off < 0x900 then .policy else if r.off < 0xA00 then .journal else if r.off < 0xB00 then .ddr
    else if r.off < 0xC00 then .sram else if r.off < 0xD00 then .security else if r.off < 0x1000 then .temperature
    else if r.off < 0x1100 then .claims else if r.off < 0x2000 then .ports else if r.off < 0x3000 then .power
    else if r.off < 0x4000 then .arbiter else if r.off < 0x5000 then .cache else .pools
  | .ax => .axis
  | .brk => .bus
  | .mot => .mot
  | .cqi => .cqi
  | .qb => .queue

/-- What an engine domain holds beyond its registers: head link, chains, capture buffer, seam and reassembly, write path, retry
ladder, Temper, Anvil, loop sequencing, sled gearing, spindle, sled, and the rest (ESQ<n> memory, WFI, retention, mechanism data due). -/
inductive EngUnit
  | hl | chains | cap | seam | wr | rty | tmp | anv | loop | slg | spn | sld | rest
deriving DecidableEq, Repr

/-- The place of an engine's unit in a set of parts. -/
def EngUnit.idx : EngUnit → Nat
  | .hl => 30 | .chains => 31 | .cap => 32 | .seam => 33 | .wr => 34 | .rty => 35 | .tmp => 36 | .anv => 37 | .loop => 38
  | .slg => 39 | .spn => 40 | .sld => 41 | .rest => 42

/-- A unit is the same in two states of an engine. -/
def EngUnit.same (u : EngUnit) (g h : EngInt) : Prop :=
  match u with
  | .hl => h.hl = g.hl | .chains => h.ch = g.ch | .cap => h.cap = g.cap ∧ h.capTrig = g.capTrig | .seam => h.seam = g.seam
  | .wr => h.wr = g.wr | .rty => h.rty = g.rty ∧ h.att = g.att ∧ h.slow = g.slow
  | .tmp => h.tmp = g.tmp | .anv => h.anv = g.anv | .loop => h.loop = g.loop | .slg => h.slg = g.slg
  | .spn => h.spn = g.spn | .sld => h.sld = g.sld
  | .rest => h.esqMem = g.esqMem ∧ h.wfi = g.wfi ∧ h.retained = g.retained ∧ h.mechDue = g.mechDue

/-- What the state consists of, apart from the queue of waiting commands and the count of free values used. -/
inductive Part
  | regs (g : RegGroup) | unit (u : EngUnit)
  | time | axes | buses | queues | ddr | log | encOffs | notes | ladder | journal | armature | host | memory | security | power
  | out
deriving DecidableEq, Repr

/-- The place of a part in a set of parts. -/
def Part.idx : Part → Nat
  | .regs g => g.idx
  | .unit u => u.idx
  | .time => 43 | .axes => 44 | .buses => 45 | .queues => 46 | .ddr => 47 | .log => 48 | .encOffs => 49 | .notes => 50
  | .ladder => 51 | .journal => 52 | .armature => 53 | .host => 54 | .memory => 55 | .security => 56 | .power => 57 | .out => 58

/-- A part is the same in two states. -/
def Part.same (p : Part) (s t : State) : Prop :=
  match p with
  | .regs g => ∀ r : Reg, r.group = g → t.rd r = s.rd r
  | .unit u => ∀ e : Eng, u.same s.eng[e] t.eng[e]
  | .time => t.us = s.us
  | .axes => t.ax = s.ax
  | .buses => t.brk = s.brk
  | .queues => t.mq = s.mq
  | .ddr => t.ddr = s.ddr
  | .log => t.events = s.events ∧ t.evSeq = s.evSeq
  | .encOffs => t.encOffs = s.encOffs
  | .notes => t.notes = s.notes
  | .ladder => t.ladderMsgs = s.ladderMsgs
  | .journal => t.jrn = s.jrn
  | .armature => t.arm = s.arm
  | .host => t.cqi = s.cqi
  | .memory => t.mem = s.mem
  | .security => t.sec = s.sec
  | .power => t.pw = s.pw
  | .out => t.out = s.out

/-- A register of an engine domain: its own blocks, its chains' or the wobble chain's. -/
def Reg.ofEngine (r : Reg) (e : Nat) : Prop := r.blk.idx < 3 ∧ r.i = e

/-- What engine `e` holds is the same in two states: its registers and everything beyond them. -/
def sameEngine (e : Eng) (s t : State) : Prop := t.eng[e] = s.eng[e] ∧ ∀ r : Reg, r.ofEngine e.val → t.rd r = s.rd r

/-! ### What a command can touch -/

/-- Register groups, and units of the engines, as parts. -/
def rs (l : List RegGroup) : List Part := l.map .regs
def us (l : List EngUnit) : List Part := l.map .unit
/-- An event is logged and may raise an interrupt (R397, R363). -/
def reportingParts : List Part := rs [.cqi] ++ [.log, .host, .out]
/-- What ends a row: the firmware takes up what the engines reported, records are sealed and commands end. -/
def settlingParts : List Part := rs [.journal, .cqi, .queue] ++ [.log, .notes, .journal, .armature, .host, .out]
/-- A Temper trial ends (R162, R169). -/
def trialEndParts : List Part := rs [.tmp, .chain, .claims] ++ us [.hl, .tmp]
/-- A write run is aborted or closed (R139), which may start the ladder's message (R152). -/
def writeAbortParts : List Part := settlingParts ++ rs [.wr, .rty] ++ us [.hl, .chains, .wr, .rty] ++ [.queues, .ladder]
/-- A loop fault or what leads to one: the pickup retracts, the run is aborted, gearing and sled stop (R189, R193, R208). -/
def loopFaultParts : List Part := writeAbortParts ++ rs [.seam, .spn, .sld, .slg, .anv] ++ us [.seam, .anv, .loop, .spn, .sld]
/-- A policy call runs, whose choices drive spindles, gearing and the ladder (R261). -/
def policyRunParts : List Part := settlingParts ++ rs [.rty, .spn, .slg, .policy] ++ us [.rty, .loop, .spn] ++ [.ladder]
/-- Motion is cut off: the write runs, the spindles, the sleds and the axes. -/
def motionOffParts : List Part := writeAbortParts ++ rs [.spn, .sld, .axis, .mot] ++ us [.spn, .sld] ++ [.axes]
/-- Every register; and every part but the encoder offsets, which a reset, a boot or a register write can reach. -/
def allRegs : List Part :=
  rs [.hl, .seam, .wr, .tmp, .rty, .spn, .sld, .slg, .anv, .chain, .wobble, .capture, .ids, .policy, .journal, .ddr, .sram,
    .security, .temperature, .claims, .ports, .power, .arbiter, .cache, .pools, .axis, .bus, .mot, .cqi, .queue]
def nearlyAll : List Part :=
  allRegs ++ us [.hl, .chains, .cap, .seam, .wr, .rty, .tmp, .anv, .loop, .slg, .spn, .sld, .rest] ++
  [.time, .axes, .buses, .queues, .ddr, .log, .notes, .ladder, .journal, .armature, .host, .memory, .security, .power, .out]

/-- The parts of the state a command can touch; every other part it leaves as it is. -/
def touches : Instr → List Part
  | .registerWrite .. | .brownoutReturn | .por | .pgFall | .activationTimeout .. | .ddrPatrolScrub .. | .strcAccess .. | .strcFillDone ..
  | .clockFailure .. | .vddAonPowerUp | .warmReset .. | .watchdogExpire =>
      nearlyAll
  | .coreAccessFault .. | .plcommit .. =>
      policyRunParts ++ [.power]
  | .arbiterContest .. =>
      rs [.arbiter] ++ [.memory, .out]
  | .laneFrameReceived .. | .f5StatusBlock .. | .laneLockLost .. =>
      loopFaultParts ++ trialEndParts ++ rs [.hl]
  | .servoSetReceived .. | .trainTimeout .. =>
      loopFaultParts ++ rs [.hl, .chain, .claims]
  | .f5Silent .. =>
      rs [.hl] ++ [.out]
  | .trainingFrameReceived .. =>
      rs [.hl] ++ us [.hl]
  | .hlEnable .. | .hlDisable .. | .hlRetrain .. =>
      writeAbortParts ++ trialEndParts ++ rs [.hl, .seam, .slg, .anv] ++ us [.seam]
  | .hlCntClr .. =>
      rs [.hl]
  | .downstreamFrameSend .. =>
      settlingParts ++ rs [.hl, .wr, .chain] ++ us [.hl, .chains, .seam, .wr] ++ [.queues]
  | .lpwRepeat .. =>
      us [.hl]
  | .syncMarkDetected .. =>
      writeAbortParts ++ rs [.seam, .chain] ++ us [.cap, .seam] ++ [.ddr, .memory]
  | .syncWindowClose .. =>
      writeAbortParts ++ rs [.seam, .chain] ++ us [.cap, .seam, .tmp] ++ [.ddr, .memory]
  | .clusterDecoded .. =>
      loopFaultParts ++ trialEndParts ++ us [.cap] ++ [.ddr, .memory]
  | .chainEnable .. | .chCntClr .. | .rplCapArm .. | .rplAbort .. =>
      rs [.chain]
  | .chainDisable .. =>
      trialEndParts ++ us [.chains, .seam]
  | .rplPlay .. =>
      rs [.chain] ++ us [.chains]
  | .replayPassDone .. =>
      loopFaultParts ++ rs [.chain, .claims] ++ us [.cap] ++ [.ddr, .memory]
  | .wpllLock .. =>
      rs [.wobble] ++ [.out]
  | .wpllLockLost .. =>
      writeAbortParts ++ rs [.hl, .chain, .wobble] ++ us [.seam]
  | .wpllResume .. =>
      rs [.chain, .wobble]
  | .adipWordDecoded .. =>
      writeAbortParts ++ rs [.chain, .wobble] ++ us [.seam]
  | .capCtrlWrite .. | .capDone .. =>
      rs [.capture] ++ us [.cap]
  | .capTrigger .. =>
      rs [.capture]
  | .seamCrossing .. | .anvTickStale .. | .anvOverrun .. | .anvNop .. | .anvMpy .. | .anvMac .. | .anvMsu .. | .anvLda .. | .anvAdd ..
  | .anvSub .. | .anvSt .. | .anvInt .. | .anvOut .. | .anvExa .. | .anvShf .. | .anvAcc .. | .anvMova .. | .anvClr .. | .anvLdk ..
  | .anvLdx .. | .anvAdx .. | .anvLdi .. | .anvAdi .. | .anvLdim .. | .anvMov .. | .anvRsc .. | .anvRpt .. | .anvBr .. | .anvBrn ..
  | .anvWait .. | .anvRinit .. | .illegalInstruction .. | .anvSatTrip .. | .focusSearch .. | .trackOn .. | .jump .. | .layerJump ..
  | .loopCmdTimeout .. | .focusLost .. | .trackLost .. | .staleTicksFault .. =>
      loopFaultParts ++ rs [.chain, .claims]
  | .seamWindowClose .. =>
      loopFaultParts ++ rs [.chain, .claims] ++ us [.tmp] ++ [.ddr, .memory]
  | .seamSettled .. =>
      rs [.seam, .chain] ++ us [.chains]
  | .seamLate .. =>
      rs [.seam] ++ us [.seam] ++ [.out]
  | .stitchDecoded .. =>
      loopFaultParts ++ rs [.chain, .claims] ++ [.ddr, .memory]
  | .seamRun .. | .seamClose .. =>
      rs [.seam, .slg] ++ us [.seam]
  | .seamCntClr .. =>
      rs [.seam]
  | .rasFree .. =>
      rs [.seam] ++ us [.seam]
  | .wrGo .. | .wrOpcGo .. =>
      rs [.wr, .slg, .chain] ++ us [.chains, .seam, .wr] ++ [.out]
  | .wrStop .. =>
      settlingParts ++ rs [.wr, .chain] ++ us [.hl, .chains, .seam, .wr]
  | .wrCntClr .. | .ilkHoldExpire .. | .ilkOpeningEnd .. =>
      rs [.wr]
  | .laserEnWrite .. | .ilkOpening .. =>
      writeAbortParts ++ rs [.chain] ++ us [.seam]
  | .wrProdWrite .. =>
      rs [.wr] ++ [.out]
  | .wrDecisionPoint .. =>
      settlingParts ++ rs [.wr] ++ us [.hl, .wr]
  | .opcDone .. =>
      rs [.wr, .chain] ++ us [.hl, .chains, .seam, .wr] ++ [.out]
  | .ladderAttempt .. =>
      settlingParts ++ trialEndParts ++ rs [.seam, .rty, .spn, .slg, .anv] ++ us [.chains, .seam, .rty, .spn]
  | .ladderSkip .. =>
      settlingParts ++ rs [.rty] ++ us [.rty] ++ [.ladder]
  | .temperPeriod .. | .tmpStart .. | .temperRetryDelay .. =>
      trialEndParts ++ [.out]
  | .tmpAbort .. =>
      trialEndParts ++ us [.chains]
  | .tmpCntClr .. =>
      rs [.tmp]
  | .temperMatch .. | .spotHandover .. =>
      trialEndParts ++ us [.chains] ++ [.out]
  | .temperConvLimit .. =>
      trialEndParts ++ reportingParts ++ us [.chains]
  | .temperWindowDone .. =>
      rs [.tmp, .chain] ++ us [.hl, .tmp]
  | .temperFreqMeasure .. =>
      rs [.tmp] ++ [.out]
  | .tmpAdcmapWrite .. =>
      rs [.tmp] ++ us [.hl] ++ [.out]
  | .tmpAdctrimWrite .. =>
      rs [.tmp] ++ us [.hl]
  | .anvRun .. | .anvStop .. | .anvTripClr .. | .anvRampInit .. =>
      rs [.anv] ++ us [.anv]
  | .anvBankWrite .. | .anvCntClr .. =>
      rs [.anv]
  | .anvPmWrite .. =>
      rs [.anv] ++ us [.anv] ++ [.out]
  | .anvDmWrite .. =>
      us [.anv]
  | .loopNop .. | .trackOff .. =>
      settlingParts ++ us [.anv]
  | .retract .. =>
      settlingParts ++ rs [.anv] ++ us [.anv]
  | .longSeek .. =>
      loopFaultParts ++ rs [.chain, .claims] ++ us [.slg]
  | .sledPositionRecover .. =>
      settlingParts ++ rs [.sld, .slg] ++ us [.loop, .slg, .sld]
  | .slgAngleStep .. | .slgLoad .. =>
      rs [.slg] ++ us [.slg]
  | .slgEnWrite .. =>
      rs [.slg]
  | .spnPwmPeriod .. =>
      rs [.seam, .spn] ++ us [.spn] ++ [.out]
  | .spnStart .. | .spnCoast .. | .spnDirWrite .. | .spnTargetWrite .. | .spnAlignDone .. =>
      rs [.spn] ++ us [.spn]
  | .spnCatchDecide .. | .spnOpenHandover .. =>
      settlingParts ++ rs [.seam, .rty, .spn, .slg, .anv, .chain, .claims] ++ us [.hl, .seam, .rty, .spn]
  | .spnBrakeDone .. | .spnAtSpeed .. | .spnLossOfSync .. | .spnDriverFault .. =>
      rs [.spn] ++ us [.spn] ++ [.out]
  | .brkSample .. =>
      rs [.spn, .bus, .mot] ++ us [.spn] ++ [.buses, .out]
  | .busThresholdRelease .. =>
      rs [.spn, .bus] ++ us [.spn]
  | .chopFault .. =>
      reportingParts ++ rs [.bus, .mot] ++ [.buses]
  | .brkFaultClr .. =>
      rs [.bus]
  | .brkThresholdWrite .. =>
      rs [.bus, .mot] ++ [.out]
  | .sldPwmPeriod .. | .sldHome .. | .sldStop .. | .sldPark .. | .sldParkDone .. | .sldFault .. =>
      rs [.sld] ++ us [.sld] ++ [.out]
  | .sldHoldCurrent .. =>
      rs [.sld]
  | .sldMove .. | .sldEncBad .. | .encIllegalTransition .. =>
      rs [.sld] ++ [.out]
  | .sldPowerOn .. | .encIndex .. =>
      rs [.sld] ++ us [.sld]
  | .axMove .. | .axStop .. | .axEstop .. | .axGearClear .. | .axMasterCount .. | .axStepPulse .. =>
      rs [.axis, .mot] ++ [.axes, .out]
  | .axGearSet .. =>
      rs [.axis] ++ [.axes]
  | .policyCall .. | .chooseWriteGroup .. | .chooseReadSource .. | .chooseLoad .. | .chooseSpeed .. | .policyEcall ..
  | .policyBudgetExpire .. | .gatherTimeout .. | .reshapeUnitCopy .. | .volSeal .. | .write .. =>
      policyRunParts
  | .bpalloc .. =>
      policyRunParts ++ rs [.pools] ++ [.ddr, .memory]
  | .bpfree .. | .bpshare .. =>
      policyRunParts ++ rs [.pools] ++ [.memory]
  | .gfmac8 .. | .measurementSnapshot .. | .rowLockGrant =>
      [.armature]
  | .plquery .. =>
      reportingParts ++ rs [.policy] ++ [.armature]
  | .qput .. | .qget .. =>
      policyRunParts ++ [.queues, .power]
  | .poweredHour =>
      reportingParts ++ rs [.journal, .power, .queue] ++ [.journal, .armature]
  | .agingMark | .runInitZero .. | .destage .. | .resync .. | .clusterRepair .. | .engGraceExpire .. | .rebuildTargetChoose ..
  | .rebuildBatchDone .. | .scrub .. | .mirrorFail .. | .discFail .. | .discMigrate .. =>
      reportingParts ++ rs [.journal, .queue] ++ [.journal, .armature]
  | .discRecovery .. =>
      reportingParts ++ [.armature]
  | .groupCommit .. | .headerBatchWrite .. | .recordWriteDone .. | .mapCheckpoint | .volCreate .. | .volDelete .. | .volReshape ..
  | .mediaEject .. =>
      rs [.journal, .queue] ++ [.journal, .armature, .host, .out]
  | .mapRebuild =>
      rs [.journal, .cqi, .queue] ++ [.journal, .armature, .host, .out]
  | .recordSeal .. =>
      rs [.journal] ++ [.journal, .armature, .host]
  | .journalResize =>
      reportingParts ++ rs [.journal] ++ [.journal]
  | .plinthFallbackWrite =>
      [.journal]
  | .pfailLatch .. =>
      motionOffParts ++ rs [.chain] ++ us [.seam] ++ [.security, .power]
  | .porRelease .. =>
      settlingParts ++ rs [.ddr, .sram, .security, .claims, .power, .arbiter] ++ [.memory, .security, .power]
  | .doorbellSq .. | .msixUnmask .. =>
      [.host, .out]
  | .doorbellCq .. | .indexReadDone .. | .slotFetchDone .. | .cqFullPoll .. | .queueEnable .. | .busMasterEnable .. | .queueCreate ..
  | .queueDelete .. =>
      rs [.cqi, .queue] ++ [.host, .out]
  | .hostMemoryError .. =>
      rs [.cqi, .queue] ++ [.journal, .armature, .host, .out]
  | .interimDue .. | .queueDisable .. | .getLog .. | .getSettings .. =>
      rs [.queue] ++ [.host, .out]
  | .deadlinePass .. | .abort .. =>
      rs [.queue] ++ [.journal, .armature, .host, .out]
  | .cqiFrst | .functionReset =>
      rs [.cqi] ++ [.journal, .armature, .host]
  | .setSettings .. =>
      reportingParts ++ rs [.slg, .journal, .queue] ++ us [.spn, .rest] ++ [.encOffs, .journal, .armature]
  | .mediaLoad .. =>
      reportingParts ++ rs [.spn, .journal, .power, .queue] ++ us [.loop, .spn] ++ [.journal, .armature]
  | .keyLoad .. | .keyClear .. =>
      reportingParts ++ rs [.journal, .security, .queue] ++ [.journal, .armature, .security]
  | .programLoad .. =>
      rs [.anv, .policy, .power, .queue] ++ us [.anv] ++ [.armature, .host, .out]
  | .calRestore .. =>
      allRegs ++ us [.hl, .chains] ++ [.host, .out]
  | .fwStage .. | .fwActivate .. | .cipherJobReady .. =>
      rs [.security, .queue] ++ [.host, .security, .out]
  | .fwHandover =>
      reportingParts ++ rs [.security, .queue] ++ [.security]
  | .read .. =>
      settlingParts
  | .verify .. =>
      settlingParts ++ rs [.power]
  | .flush .. =>
      policyRunParts ++ rs [.power]
  | .ddrRefresh =>
      []
  | .poolConfigWrite .. =>
      rs [.pools] ++ [.memory]
  | .poolMinReset .. =>
      rs [.pools]
  | .strcWriteback | .strcPrefetch .. | .strcDrainDone | .strcInitDone =>
      rs [.cache] ++ [.ddr, .memory, .out]
  | .strcInval | .strcWindowWrite .. =>
      rs [.cache] ++ [.memory]
  | .strcClean | .strcCleanInval | .strcLockfill =>
      rs [.cache] ++ [.ddr, .memory]
  | .strcOpDone | .strcEnable | .strcDisable | .strcPartWrite .. | .strcCntClr .. =>
      rs [.cache]
  | .arbSeedWrite .. =>
      rs [.arbiter]
  | .cipherJobDone .. =>
      rs [.security] ++ [.security]
  | .dbgChallenge .. | .fuseProg .. =>
      [.security, .out]
  | .dbgUnlock .. =>
      reportingParts ++ rs [.security] ++ [.security]
  | .jtagExtest | .jtagHighz | .jtagClamp =>
      motionOffParts ++ rs [.chain, .bus] ++ us [.seam] ++ [.power]
  | .tapReset .. =>
      [.security]
  | .pwrEngSleep .. =>
      rs [.power, .arbiter] ++ us [.cap, .anv] ++ [.memory]
  | .esqWfi .. =>
      rs [.power, .arbiter] ++ us [.cap, .anv, .rest] ++ [.memory]
  | .pwrEngWake .. =>
      rs [.power]
  | .engineWakeDone .. =>
      allRegs ++ loopFaultParts ++ us [.cap, .tmp, .slg, .rest]
  | .standbyEntry =>
      settlingParts ++ rs [.ddr, .security, .power] ++ [.security, .power]
  | .standbyWake .. | .wakeTimer .. =>
      reportingParts ++ rs [.ddr, .security, .power] ++ [.security]
  | .wdtKick =>
      [.power]
  | .xtal32Fail =>
      reportingParts ++ rs [.power] ++ [.power]
  | .claimWrite .. =>
      settlingParts ++ trialEndParts ++ rs [.ports] ++ us [.chains] ++ [.power]
  | .timCapture .. =>
      rs [.ports] ++ [.out]
  | .timMatch .. =>
      rs [.ports] ++ [.power, .out]
  | .thermWarn .. =>
      reportingParts ++ rs [.temperature]
  | .thermTrip .. =>
      motionOffParts ++ rs [.chain, .temperature] ++ us [.seam] ++ [.power]
  | .thermRecover .. =>
      rs [.temperature] ++ [.power]
  | .pfailHoldRelease .. =>
      settlingParts ++ rs [.security] ++ [.security, .power]

/-- The engine a command is of, where it reaches no other engine. -/
def engineOf : Instr → Option Eng
  | .laneFrameReceived e .. | .servoSetReceived e .. | .f5StatusBlock e .. | .f5Silent e | .laneLockLost e ..
  | .trainingFrameReceived e .. | .trainTimeout e | .hlEnable e | .hlDisable e | .hlRetrain e | .hlCntClr e .. | .downstreamFrameSend e
  | .lpwRepeat e | .syncMarkDetected e .. | .syncWindowClose e .. | .clusterDecoded e .. | .chainEnable e .. | .chainDisable e ..
  | .chCntClr e .. | .rplCapArm e .. | .rplPlay e | .replayPassDone e .. | .rplAbort e | .wpllLock e .. | .wpllLockLost e | .wpllResume e
  | .adipWordDecoded e .. | .capCtrlWrite e .. | .capTrigger e .. | .capDone e .. | .seamCrossing e | .seamWindowClose e ..
  | .seamSettled e .. | .seamLate e .. | .stitchDecoded e .. | .seamRun e | .seamClose e | .seamCntClr e .. | .rasFree e .. | .wrGo e
  | .wrStop e | .wrOpcGo e | .wrCntClr e .. | .laserEnWrite e .. | .wrProdWrite e .. | .wrDecisionPoint e | .ilkOpening e
  | .ilkHoldExpire e | .ilkOpeningEnd e | .opcDone e .. | .ladderAttempt e .. | .ladderSkip e .. | .temperPeriod e | .tmpStart e
  | .tmpAbort e | .tmpCntClr e .. | .temperRetryDelay e | .temperMatch e | .spotHandover e .. | .temperConvLimit e
  | .temperWindowDone e .. | .temperFreqMeasure e .. | .tmpAdcmapWrite e .. | .tmpAdctrimWrite e .. | .anvTickStale e | .anvOverrun e
  | .anvNop e | .anvMpy e .. | .anvMac e .. | .anvMsu e .. | .anvLda e .. | .anvAdd e .. | .anvSub e .. | .anvSt e .. | .anvInt e ..
  | .anvOut e .. | .anvExa e .. | .anvShf e .. | .anvAcc e .. | .anvMova e .. | .anvClr e .. | .anvLdk e .. | .anvLdx e .. | .anvAdx e ..
  | .anvLdi e .. | .anvAdi e .. | .anvLdim e .. | .anvMov e .. | .anvRsc e .. | .anvRpt e .. | .anvBr e .. | .anvBrn e .. | .anvWait e ..
  | .anvRinit e .. | .illegalInstruction e .. | .anvSatTrip e | .anvRun e | .anvStop e | .anvBankWrite e .. | .anvTripClr e
  | .anvCntClr e .. | .anvRampInit e .. | .anvPmWrite e .. | .anvDmWrite e .. | .loopNop e | .focusSearch e .. | .trackOn e ..
  | .trackOff e | .jump e .. | .layerJump e .. | .retract e | .loopCmdTimeout e | .focusLost e | .trackLost e | .staleTicksFault e
  | .longSeek e .. | .sledPositionRecover e .. | .slgAngleStep e | .slgLoad e | .slgEnWrite e .. | .spnPwmPeriod e .. | .spnStart e
  | .spnCoast e | .spnDirWrite e .. | .spnTargetWrite e .. | .spnCatchDecide e .. | .spnAlignDone e | .spnOpenHandover e
  | .spnBrakeDone e | .spnAtSpeed e | .spnLossOfSync e | .spnDriverFault e | .sldPwmPeriod e .. | .sldHoldCurrent e | .sldMove e
  | .sldHome e | .sldStop e | .sldPark e | .sldParkDone e | .sldPowerOn e | .sldFault e | .sldEncBad e | .pwrEngSleep e
  | .esqWfi e => some e
  | .registerWrite .. | .coreAccessFault .. | .arbiterContest .. | .brkSample .. | .busThresholdRelease .. | .chopFault ..
  | .brkFaultClr .. | .brkThresholdWrite .. | .encIndex .. | .encIllegalTransition .. | .axMove .. | .axStop .. | .axEstop ..
  | .axGearSet .. | .axGearClear .. | .axMasterCount .. | .axStepPulse .. | .policyCall .. | .chooseWriteGroup .. | .chooseReadSource ..
  | .chooseLoad .. | .chooseSpeed .. | .policyEcall .. | .policyBudgetExpire .. | .bpalloc .. | .bpfree .. | .bpshare .. | .gfmac8 ..
  | .plquery .. | .plcommit .. | .qput .. | .qget .. | .measurementSnapshot .. | .poweredHour | .agingMark | .discRecovery ..
  | .gatherTimeout .. | .groupCommit .. | .runInitZero .. | .destage .. | .rowLockGrant | .resync .. | .headerBatchWrite .. | .mapRebuild
  | .clusterRepair .. | .engGraceExpire .. | .rebuildTargetChoose .. | .rebuildBatchDone .. | .reshapeUnitCopy .. | .scrub ..
  | .recordSeal .. | .recordWriteDone .. | .mirrorFail .. | .mapCheckpoint | .journalResize | .plinthFallbackWrite | .pfailLatch ..
  | .brownoutReturn | .por | .pgFall | .porRelease .. | .doorbellSq .. | .doorbellCq .. | .indexReadDone .. | .slotFetchDone ..
  | .msixUnmask .. | .cqFullPoll .. | .hostMemoryError .. | .interimDue .. | .deadlinePass .. | .queueDisable .. | .queueEnable ..
  | .busMasterEnable .. | .cqiFrst | .functionReset | .queueCreate .. | .queueDelete .. | .abort .. | .getLog .. | .setSettings ..
  | .getSettings .. | .volCreate .. | .volDelete .. | .volSeal .. | .volReshape .. | .mediaLoad .. | .mediaEject .. | .discFail ..
  | .discMigrate .. | .keyLoad .. | .keyClear .. | .programLoad .. | .calRestore .. | .fwStage .. | .fwActivate .. | .fwHandover
  | .activationTimeout .. | .read .. | .write .. | .verify .. | .flush .. | .ddrRefresh | .ddrPatrolScrub .. | .poolConfigWrite ..
  | .poolMinReset .. | .strcAccess .. | .strcFillDone .. | .strcWriteback | .strcPrefetch .. | .strcInval | .strcClean | .strcCleanInval
  | .strcLockfill | .strcOpDone | .strcEnable | .strcDisable | .strcDrainDone | .strcInitDone | .strcWindowWrite .. | .strcPartWrite ..
  | .strcCntClr .. | .arbSeedWrite .. | .cipherJobReady .. | .cipherJobDone .. | .dbgChallenge .. | .dbgUnlock .. | .fuseProg ..
  | .jtagExtest | .jtagHighz | .jtagClamp | .tapReset .. | .pwrEngWake .. | .engineWakeDone .. | .standbyEntry | .standbyWake ..
  | .wakeTimer .. | .clockFailure .. | .vddAonPowerUp | .warmReset .. | .watchdogExpire | .wdtKick | .xtal32Fail | .claimWrite ..
  | .timCapture .. | .timMatch .. | .thermWarn .. | .thermTrip .. | .thermRecover .. | .pfailHoldRelease .. => none

/-! ### Vocabulary of the statements -/

/-- The command answers a next state, and `p` holds of it. -/
def runs (c : Instr) (s : State) (p : State → Prop) : Prop := ∃ t, exec c s = .next t ∧ p t

/-- Engine `e`'s program issues an instruction: it runs, has not executed WAIT, and no RPT is in force (R176, R185, R186). -/
def anvGoes (s : State) (e : Eng) : Prop :=
  s.isSet (ANV_STAT.RUNNING e) = true ∧ s.eng[e].anv.waiting = false ∧ s.eng[e].anv.rpt = none

/-- The program goes on at `pc`; every accumulator but `d` is as it was. -/
def accOnly (s t : State) (e : Eng) (d : Fin 4) (pc : Nat) : Prop :=
  t.get (ANV_STAT.PC e) = pc ∧ ∀ i : Fin 4, i ≠ d → t.eng[e].anv.acc[i] = s.eng[e].anv.acc[i]

/-- An accumulator that takes a sum: saturated to 48 bits (R180). -/
def accSat (a ae : Int) : Acc := ⟨clampInt bot48 top48 a, ae⟩

/-- The program's write of mantissa `v` to word `a` of data memory, with the flags of its block; `ov`: the value was limited. Writes to
the ramp words 0x7F0-0x7F7 are discarded (R172, R181). -/
def stored (s t : State) (e : Eng) (a : Nat) (v : Int) (ov : Bool) : Prop :=
  (0x7F0 ≤ a ∧ a ≤ 0x7F7 → (∀ b, dmGet t e b = dmGet s e b) ∧ t.eng[e].anv.bovf = s.eng[e].anv.bovf ∧ t.eng[e].anv.bhi = s.eng[e].anv.bhi ∧
    t.eng[e].anv.blo = s.eng[e].anv.blo) ∧
  (¬ (0x7F0 ≤ a ∧ a ≤ 0x7F7) → (∀ b, dmGet t e b = if b = a then BitVec.ofInt 24 v else dmGet s e b) ∧ ∀ k : Fin 16,
    t.eng[e].anv.bovf.getLsbD k.val = (s.eng[e].anv.bovf.getLsbD k.val || (ov && decide (k.val = a / 128))) ∧
    t.eng[e].anv.bhi.getLsbD k.val =
      (s.eng[e].anv.bhi.getLsbD k.val || ((ov || decide (2 ^ 22 ≤ v.natAbs)) && decide (k.val = a / 128))) ∧
    t.eng[e].anv.blo.getLsbD k.val = (s.eng[e].anv.blo.getLsbD k.val && !(decide (2 ^ 20 ≤ v.natAbs) && decide (k.val = a / 128))))

/-- The fault supervisor has tripped: the program halted, its PC, bank and the cause kept (R193). -/
def faultTripped (s t : State) (e : Eng) (cause : Nat) : Prop :=
  t.get (ANV_STAT.FAULT_TRIP e) = 1 ∧ t.get (ANV_STAT.RUNNING e) = 0 ∧ t.get (ANV_EVT.FAULT e) = 1 ∧ t.get (ANV_FAULT.CAUSE e) = cause ∧
  t.get (ANV_FAULT.PC e) = s.get (ANV_STAT.PC e) ∧ t.get (ANV_FAULT.BANK e) = s.get (ANV_STAT.BANK_ACT e) ∧
  t.get (ANV_CNT.TRIPS e) = satInc 255 (s.get (ANV_CNT.TRIPS e))

/-- A tick has started from the inputs `inp`: snapshot, flags, and the program running where it ran or a start was pending (R175). -/
def tickStarted (s t : State) (e : Eng) (inp : Vector Word24 16) (stale : Bool) : Prop :=
  t.eng[e].anv.snap = inp ∧ t.eng[e].anv.aovf = 0#4 ∧ t.eng[e].anv.bovf = 0#16 ∧ t.eng[e].anv.bhi = 0#16 ∧ t.eng[e].anv.blo = 0xFFFF#16 ∧
  t.eng[e].anv.late = false ∧ t.isSet (ANV_STAT.STALE e) = stale ∧ (stale = true → t.get (ANV_EVT.STALE e) = 1) ∧
  t.isSet (ANV_STAT.RUNNING e) = (s.isSet (ANV_STAT.RUNNING e) || s.eng[e].anv.startPend) ∧
  t.eng[e].anv.waiting = !(s.isSet (ANV_STAT.RUNNING e) || s.eng[e].anv.startPend) ∧ t.get (ANV_STAT.SW_PEND e) = 0 ∧
  t.eng[e].anv.first = (s.isSet (ANV_STAT.SW_PEND e) || s.eng[e].anv.startPend)

/-- The program of engine `e` answers a loop command (R199, R200): the command words hold it, and ACK shows the result. -/
def answered (s t : State) (e : Eng) (op : Nat) (arg : Int) (res : Nat) : Prop :=
  dmGet t e 0x7E0 = dmGet s e 0x7E3 + 1#24 ∧ dmGet t e 0x7E1 = BitVec.ofNat 24 op ∧ dmGet t e 0x7E2 = BitVec.ofInt 24 arg ∧
  dmGet t e 0x7E3 = dmGet t e 0x7E0 ∧ dmGet t e 0x7E4 = BitVec.ofNat 24 res

/-- A loop command may be written and the program answers it: it runs, and no seam jump is requested (R200, R202). -/
def loopReady (s : State) (e : Eng) : Prop :=
  loopMay s e = true ∧ s.isSet (ANV_STAT.RUNNING e) = true ∧ s.eng[e].anv.sreq = false

/-- The command `c` asks for decision `a` (R255). -/
def asksFor (c : Instr) (a : Ask) : Prop :=
  (∃ (vol : Fin 256) (n : Nat), c = .chooseWriteGroup vol n ∧ a = .group vol.val n) ∨ (∃ r, c = .chooseReadSource r ∧ a = .source r) ∨
  (∃ e cur cs, c = .chooseLoad e cur cs ∧ a = .load e cur cs) ∨
  ∃ e radius rc host fill size, c = .chooseSpeed e radius rc host fill size ∧ a = .speed e radius rc host fill size

/-- The completion ring of a queue takes the next entry at once: nothing is due before it, it has room, and the host can be
reached (R362, R494). -/
def cqReady (s : State) (q : Fin 65) : Prop := s.cqi.q[q].due = [] ∧ cqFull s q = false ∧ s.hostOpen = true

/-- Between `s` and `t` an entry was written at the completion tail of queue `q` (R358, R359). -/
def entered (s t : State) (q : Fin 65) (tag status result detail : Nat) : Prop :=
  Out.cqe q.val (s.get (QB_POS.CQ_TAIL q)) (cqeBits s q { tag := tag, status := status, result := result, detail := detail }) ∈ t.out

/-- A queue has entered ERROR, its record naming the cause (R357). -/
def queueFailed (t : State) (q : Fin 65) (cause : Nat) : Prop :=
  t.get (QB_STAT.STATE q) = qError ∧ t.get (QB_ERR.CAUSE q) = cause ∧ t.get CQI_EVT.QERR = 1 ∧
  (t.get (qerrFld (q.val / 32))).testBit (q.val % 32) = true

/-- A group's accesses are cached: the cache is ENABLED and the group is in a valid partition (R414, R418, R423). -/
def strcOpen (s : State) (g : Nat) : Prop :=
  s.get STRC_STAT.STATE = strcOn ∧ partOf s g < 8 ∧ s.isSet (STRC_PART.VALID (partOf s g)) = true

/-- The stripe cache, its eviction buffer and its side buffer hold nothing of a line. -/
def strcLacks (s : State) (line : Nat) : Prop :=
  lineHit s line = none ∧ (∀ x ∈ s.mem.strc.evb, x.1 ≠ line) ∧ ∀ x ∈ s.mem.strc.side, x.1 ≠ line

/-- Nothing waits for the stripe cache. -/
def strcQuiet (s : State) : Prop := s.mem.strc.wait = [] ∧ s.mem.strc.pf = []

/-- A range operation may start (R421, R423). -/
def strcOpMay (s : State) : Prop := s.isSet STRC_STAT.OP_BUSY = false ∧ s.get STRC_STAT.STATE ≠ strcDraining

/-- A write of a whole word to an address, with no bit of the register changed by hardware in the same cycle (R13), does what command `c`
does (the rows of R12's registers that have a row of their own). -/
def writesAs (rq : Req) (addr : Nat) (v : Word) (c : Instr) (s : State) : Prop :=
  ∀ same, exec (.registerWrite rq (BitVec.ofNat 32 addr) 0xF#4 v 0#32 same) s = exec c s

/-- A write of a whole word to an address puts the word into register `r` by the types of its fields, but for the bits that hardware
changes in the same cycle, and does nothing else (R9, R13). -/
def writesPlain (rq : Req) (addr : Nat) (v : Word) (r : Reg) (s : State) : Prop :=
  ∀ hw same, exec (.registerWrite rq (BitVec.ofNat 32 addr) 0xF#4 v hw same) s =
    .next (s.wr r (wordWritten r 0xF#4 (raced r hw v (s.rd r)) (s.rd r)))

/-- A write of a whole word to an address is discarded. -/
def writesNothing (rq : Req) (addr : Nat) (v : Word) (s : State) : Prop :=
  ∀ hw same, exec (.registerWrite rq (BitVec.ofNat 32 addr) 0xF#4 v hw same) s = .next s

/-- An admin command of that OPC and tag waits for its row: it has no outcome, no commit names it, it has not begun. -/
def adminAt (s : State) (tag : Fin 32) (opc : Nat) (c : Cmd) : Prop :=
  s.cmd? q0 tag.val = some c ∧ c.decided = false ∧ c.fin = none ∧ capOpc c = opc ∧ c.running = false ∧ c.ponr = false

/-- The same of an I/O command. -/
def ioAt (s : State) (q : Fin 65) (tag : Fin 32) (opc : Nat) (c : Cmd) : Prop :=
  q ≠ q0 ∧ s.cmd? q tag.val = some c ∧ c.decided = false ∧ c.fin = none ∧ capOpc c = opc ∧ c.running = false ∧ c.ponr = false

/-- The row of an admin command, with its OPC (R386). -/
def adminRowOf (i : Instr) (opc : Nat) (tag : Fin 32) : Prop :=
  (i, opc) = (.queueCreate tag, 0x01) ∨ (i, opc) = (.queueDelete tag, 0x02) ∨ (i, opc) = (.abort tag, 0x03) ∨ (i, opc) = (.getLog tag, 0x04) ∨
  (∃ f, (i, opc) = (.setSettings tag f, 0x05)) ∨ (i, opc) = (.getSettings tag, 0x06) ∨ (i, opc) = (.volCreate tag, 0x07) ∨
  (i, opc) = (.volDelete tag, 0x08) ∨ (∃ m, (i, opc) = (.volSeal tag m, 0x09)) ∨ (i, opc) = (.volReshape tag, 0x0A) ∨
  (∃ f, (i, opc) = (.mediaLoad tag f, 0x0B)) ∨ (i, opc) = (.mediaEject tag, 0x0C) ∨ (i, opc) = (.discFail tag, 0x0D) ∨
  (i, opc) = (.discMigrate tag, 0x0E) ∨ (∃ f, (i, opc) = (.keyLoad tag f, 0x0F)) ∨ (∃ f, (i, opc) = (.keyClear tag f, 0x10)) ∨
  (∃ b, (i, opc) = (.programLoad tag b, 0x11)) ∨ (∃ b, (i, opc) = (.calRestore tag b, 0x12)) ∨ (∃ h, (i, opc) = (.fwStage tag h, 0x13)) ∨
  (i, opc) = (.fwActivate tag, 0x14)

/-- The capsule passes the checks every admin command shares (R376). -/
def framed (c : Cmd) (flags : Nat) (lenOk : Bool) (named : List (Nat × Nat)) : Prop := ∀ x ∈ frameChks c flags lenOk named, x.2.2 = false

/-- The map as it will be when the seals that wait are taken. -/
def mapSoon (s : State) : MapImg := (txStart s).1

/-- The command completes with SUCCESS and `result` once what it sealed or asks to seal is committed (R322). -/
def committing (t : State) (q : Fin 65) (tag result : Nat) : Prop :=
  (∃ c, t.cmd? q tag = some c ∧ c.decided = false ∧ c.fin = some { tag := tag, status := stSuccess, result := result, detail := 0 }) ∧
  ownedBy t (q, tag) = true

/-- A Plinth commit that no mirror fails can be made (R334). -/
def plinthMay (s : State) : Prop := mirOk s false = true ∨ mirOk s true = true

end Sys2Proof.Machine
end

