-- ==== Sys2Proof/Certificates/Slice0/Obligations.lean ====
section
/-! DEFINITION. The statements about the block that the provers are given, by chapter of the spec. `runs c s P`: exec of c on s answers a next
state t with P t. -/

open Sys2Proof Sys2Proof.Machine

/-- For every command c and state s: with c at the front of its queue, the step of s is exec of c on s with the queue's rest. Rests on
spec/00_scope.md. -/
def Obligations.StepRunsTheFrontCommand : Prop := ∀ (s : State) (c : Instr) (rest : List Instr),
  s.pending = c :: rest → step s = exec c { s with pending := rest }

/-- With an empty queue the step answers a state in which the microsecond counter has advanced by one and the RTC by the steps of 1/32,768 s
that lie in that microsecond, unless the rails are down and the crystal has failed; no part of the state outside the named ones changes.
That an idle step is a microsecond is the model's choice (log 1, log 33). Rests on spec/17_power_clocks_reset.md (R450, R451). -/
def Obligations.IdleStepPassesAMicrosecond : Prop := ∀ s : State, s.pending = [] →
  ∃ t, step s = .next t ∧ t.us = s.us + 1 ∧ t.pending = [] ∧
    ((s.pw.life = .reset → s.pw.xtalFail = false) → t.pw.rtc = if rtcSteps (s.us + 1) = rtcSteps s.us then s.pw.rtc
      else (s.pw.rtc + (rtcSteps (s.us + 1) - rtcSteps s.us)) % 2 ^ 55) ∧
    ∀ p : Part, p ∉ rs [.slg, .power, .ports, .cqi, .queue] ++ us [.rest] ++ [.time, .encOffs, .host, .power, .out] → p.same s t

/-- Every command answers a next state in every state and for every operand. It leaves the queue of waiting commands as it is, and every part of
the state (register groups, engine units, memories, firmware structures, outputs) outside the parts that `touches` names for it; a command
of one engine leaves every other engine and its registers as they are. That no command ends in a fault or a refusal is the model's choice
(log 2). Rests on spec/01_architecture.md (R15, R16). -/
def Obligations.EveryCommandCompletesWithinItsParts : Prop := ∀ (s : State) (c : Instr), ∃ t, exec c s = .next t ∧
  t.pending = s.pending ∧ (∀ p : Part, p ∉ touches c → p.same s t) ∧
  ∀ e : Eng, engineOf c = some e → ∀ f : Eng, f ≠ e → sameEngine f s t

/-- At reset every register holds its reset value of the register map, no command waits, no DDR byte is written, no event is logged, no message
waits, READY is 0 and Bellows is in the reset that it holds from power-up to POR release; the invariant holds. Reset values of internal
state that the spec does not give are the model's choice (log 7). Rests on spec/00_scope.md (R10, R11); spec/17_power_clocks_reset.md (R459,
R460). -/
def Obligations.ResetState : Prop :=
  ((∀ r : Reg, State.reset.rd r = r.reset) ∧ State.reset.pending = [] ∧ State.reset.ddr = [] ∧ State.reset.events = [] ∧
  State.reset.mq = [] ∧ State.reset.notes = [] ∧ State.reset.get CQI_STAT.READY = 0 ∧ State.reset.pw.life = .reset) ∧
  (State.reset.Inv)

/-- From every state that has the invariant (the register file, the message queues and the DDR4 contents in canonical form, at most the newest
4,096 events in the log, x0 of every PLC core 0), every step that answers a next state answers one that has it. The canonical forms are the
model's own. Rests on spec/14_cqi_commands.md (R397); spec/01_architecture.md (R17, R20, R25). -/
def Obligations.StepKeepsInv : Prop := ∀ s t : State, s.Inv → step s = .next t → t.Inv

/-- No step clears a blown fuse or writes a field of a locked fuse group; from a state with no report open, none is open after the step (log 9);
the queue after a step is the queue without its front command. Rests on spec/16_security.md (R428); spec/18_ports_and_electrical.md (R481). -/
def Obligations.StepKeepsFusesAndTakesOneCommand : Prop :=
  (∀ s t : State, step s = .next t → Fuses.Kept s.sec.blown t.sec.blown) ∧
  (∀ s t : State, s.notes = [] → step s = .next t → t.notes = []) ∧
  (∀ s t : State, step s = .next t → t.pending = s.pending.tail)

/-- When an Anvil program runs, MPY, MAC, MSU, LDA, ADD, SUB, SHF, ACC, MOVA, CLR and LDK write the accumulator the spec gives (aligned to the
tag, saturated at 48 bits), advance PC, and change nothing but it, the index an operand steps, and the pending events. Rows are issued at PC
(log 22). Rests on spec/07_anvil.md (R180, R182, R183, R185). -/
def Obligations.AnvilAccumulators : Prop := ∀ (s : State) (e : Eng) (d : Fin 4), anvGoes s e →
  (∀ x y, runs (.anvMpy e d x y) s fun t => accOnly s t e d (pcNext s e) ∧
    t.eng[e].anv.acc[d] = accSat (scale2 (opMant s e x * opMant s e y) (-6)) (opExp s e x + opExp s e y)) ∧
  (∀ x y, runs (.anvMac e d x y) s fun t => accOnly s t e d (pcNext s e) ∧
    t.eng[e].anv.acc[d] = accSat ((accOf s e d).a + scale2 (opMant s e x * opMant s e y) (opExp s e x + opExp s e y - (accOf s e d).ae - 6)) (accOf s e d).ae) ∧
  (∀ x y, runs (.anvMsu e d x y) s fun t => accOnly s t e d (pcNext s e) ∧
    t.eng[e].anv.acc[d] = accSat ((accOf s e d).a - scale2 (opMant s e x * opMant s e y) (opExp s e x + opExp s e y - (accOf s e d).ae - 6)) (accOf s e d).ae) ∧
  (∀ x, runs (.anvLda e d x) s fun t => accOnly s t e d (pcNext s e) ∧
    t.eng[e].anv.acc[d] = accSat (opMant s e x * 2 ^ 17) (opExp s e x)) ∧
  (∀ x, runs (.anvAdd e d x) s fun t => accOnly s t e d (pcNext s e) ∧
    t.eng[e].anv.acc[d] = accSat ((accOf s e d).a + scale2 (opMant s e x) (17 + opExp s e x - (accOf s e d).ae)) (accOf s e d).ae) ∧
  (∀ x, runs (.anvSub e d x) s fun t => accOnly s t e d (pcNext s e) ∧
    t.eng[e].anv.acc[d] = accSat ((accOf s e d).a - scale2 (opMant s e x) (17 + opExp s e x - (accOf s e d).ae)) (accOf s e d).ae) ∧
  (∀ n, runs (.anvShf e d n) s fun t => accOnly s t e d (pcNext s e) ∧
    t.eng[e].anv.acc[d] = accSat (scale2 (accOf s e d).a n.toInt) (accOf s e d).ae) ∧
  (∀ a, runs (.anvAcc e d a) s fun t => accOnly s t e d (pcNext s e) ∧
    t.eng[e].anv.acc[d] = accSat ((accOf s e d).a + scale2 (accOf s e a).a ((accOf s e a).ae - (accOf s e d).ae)) (accOf s e d).ae) ∧
  (∀ a, runs (.anvMova e d a) s fun t => accOnly s t e d (pcNext s e) ∧
    t.eng[e].anv.acc[d] = accSat (accOf s e a).a (accOf s e a).ae) ∧
  (runs (.anvClr e d) s fun t => accOnly s t e d (pcNext s e) ∧ t.eng[e].anv.acc[d] = ⟨0, 0⟩) ∧
  (∀ v, runs (.anvLdk e d v) s fun t => accOnly s t e d (pcNext s e) ∧ t.eng[e].anv.acc[d] = ⟨v.toInt * 2 ^ 25, 0⟩)

/-- ST stores the converted accumulator at the operand's address and nowhere else; INT adds it to the stored word unless SAT<q> is set, in which
case memory is unchanged; MOV stores the operand's mantissa; OUT drives the named port alone, through its clamp, or sets SAT<q> while a
supervisor holds the port. Rests on spec/07_anvil.md (R181, R185, R188, R191, R194). -/
def Obligations.AnvilStores : Prop := ∀ (s : State) (e : Eng) (d : Fin 4) (q : Fin 8) (x : BitVec 12) (a : Nat), anvGoes s e →
  opAddr s e x = some a →
  (runs (.anvSt e d x) s fun t => t.get (ANV_STAT.PC e) = pcNext s e ∧
    stored s t e a (clampInt bot24 top24 (accMant (accOf s e d) (dmExp s e a)))
      (clampInt bot24 top24 (accMant (accOf s e d) (dmExp s e a)) != accMant (accOf s e d) (dmExp s e a))) ∧
  (runs (.anvInt e d x q) s fun t => t.get (ANV_STAT.PC e) = pcNext s e ∧
    (s.eng[e].anv.sat.getLsbD q.val = true → ∀ b, dmGet t e b = dmGet s e b) ∧
    (s.eng[e].anv.sat.getLsbD q.val = false →
      let m := accMant (accOf s e d) (dmExp s e a)
      let c := clampInt bot24 top24 m
      let y := (dmGet s e a).toInt + c
      stored s t e a (clampInt bot24 top24 y) (c != m || clampInt bot24 top24 y != y))) ∧
  (∀ y, runs (.anvMov e y x) s fun t => t.get (ANV_STAT.PC e) = pcNext s e ∧ stored s t e a (opMant s e y) false) ∧
  (runs (.anvOut e d q) s fun t => t.get (ANV_STAT.PC e) = pcNext s e ∧
    (∀ p : Fin 8, p ≠ q → t.eng[e].anv.port[p] = s.eng[e].anv.port[p]) ∧
    (portHeld s e q.val = true → t.eng[e].anv.port[q] = s.eng[e].anv.port[q] ∧ t.eng[e].anv.sat.getLsbD q.val = true) ∧
    (portHeld s e q.val = false →
      let m := accMant (accOf s e d) 0
      let c := clampInt bot24 top24 m
      t.eng[e].anv.port[q] = BitVec.ofInt 24 (portClamp s e q c).1 ∧
      t.eng[e].anv.sat.getLsbD q.val = (c != m || (portClamp s e q c).2)))

/-- LDI, ADI and LDIM write the index; LDX and ADX the block exponent, saturated at -16 and 15 with XOVF; EXA the least exponent whose mantissa
stays below 2^22 in magnitude, or 15 with XOVF; RSC rescales its block and moves the exponent, or does nothing but set XOVF when the new
exponent is out of range. A block that ends in its own group of 128 words is asked for (log 17). Rests on spec/07_anvil.md (R179, R182,
R185). -/
def Obligations.AnvilIndexesAndExponents : Prop := ∀ (s : State) (e : Eng), anvGoes s e →
  (∀ i v, runs (.anvLdi e i v) s fun t => t.get (ANV_STAT.PC e) = pcNext s e ∧ t.eng[e].anv.ix = s.eng[e].anv.ix.set i v) ∧
  (∀ i v, runs (.anvAdi e i v) s fun t => t.get (ANV_STAT.PC e) = pcNext s e ∧
    t.eng[e].anv.ix = s.eng[e].anv.ix.set i (s.eng[e].anv.ix[i] + v)) ∧
  (∀ i x, runs (.anvLdim e i x) s fun t => t.get (ANV_STAT.PC e) = pcNext s e ∧ t.eng[e].anv.ix[i] = BitVec.ofInt 11 (opMant s e x)) ∧
  (∀ k v, runs (.anvLdx e k v) s fun t => t.get (ANV_STAT.PC e) = pcNext s e ∧ anvX t e k.val = v.toInt) ∧
  (∀ k v, runs (.anvAdx e k v) s fun t => t.get (ANV_STAT.PC e) = pcNext s e ∧
    anvX t e k.val = clampInt (-16) 15 (anvX s e k.val + v.toInt) ∧
    (anvX t e k.val ≠ anvX s e k.val + v.toInt → t.get (ANV_EVT.XOVF e) = 1)) ∧
  (∀ k d, runs (.anvExa e k d) s fun t => t.get (ANV_STAT.PC e) = pcNext s e ∧
    ((∃ y : Int, -16 ≤ y ∧ y ≤ 15 ∧ (accMant (accOf s e d) y).natAbs < 2 ^ 22) →
      (accMant (accOf s e d) (anvX t e k.val)).natAbs < 2 ^ 22 ∧
      ∀ y : Int, -16 ≤ y → y < anvX t e k.val → 2 ^ 22 ≤ (accMant (accOf s e d) y).natAbs) ∧
    ((∀ y : Int, -16 ≤ y → y ≤ 15 → 2 ^ 22 ≤ (accMant (accOf s e d) y).natAbs) → anvX t e k.val = 15 ∧ t.get (ANV_EVT.XOVF e) = 1)) ∧
  (∀ x n k a, opAddr s e x = some a → a % 128 + rscCount n ≤ 128 → a / 128 < 15 → runs (.anvRsc e x n k) s fun t =>
    t.get (ANV_STAT.PC e) = pcNext s e ∧
    (-16 ≤ anvX s e (a / 128) + k.toInt ∧ anvX s e (a / 128) + k.toInt ≤ 15 →
      anvX t e (a / 128) = anvX s e (a / 128) + k.toInt ∧
      ∀ b, dmGet t e b = if a ≤ b ∧ b < a + rscCount n then BitVec.ofInt 24 (clampInt bot24 top24 (scale2 (dmGet s e b).toInt (-k.toInt)))
        else dmGet s e b) ∧
    (¬ (-16 ≤ anvX s e (a / 128) + k.toInt ∧ anvX s e (a / 128) + k.toInt ≤ 15) →
      t.get (ANV_EVT.XOVF e) = 1 ∧ anvX t e (a / 128) = anvX s e (a / 128) ∧ ∀ b, dmGet t e b = dmGet s e b))

/-- NOP advances PC; RPT arms the repeat of the next instruction (256 times for 0); BR and BRN go to their target by the condition; WAIT moves
PC to the restart address, ends the tick, publishes the ports and the cycle count; RINIT loads the ramps named from the tick's snapshot; an
illegal word, an RPT at the last location, and an instruction RPT may not repeat trip the fault supervisor. Under RPT n, ADI adds n times
its step and PC moves once. Rests on spec/07_anvil.md (R175, R176, R185, R186, R187, R189, R193). -/
def Obligations.AnvilFlowAndRepeats : Prop :=
  (∀ (s : State) (e : Eng), anvGoes s e →
  (runs (.anvNop e) s fun t => t.get (ANV_STAT.PC e) = pcNext s e) ∧
  (∀ n, s.get (ANV_STAT.PC e) ≠ 2047 → runs (.anvRpt e n) s fun t =>
    t.get (ANV_STAT.PC e) = pcNext s e ∧ t.eng[e].anv.rpt = some (if n = 0#8 then 256 else n.toNat)) ∧
  (∀ n, s.get (ANV_STAT.PC e) = 2047 → runs (.anvRpt e n) s fun t => faultTripped s t e 3) ∧
  (∀ c a, runs (.anvBr e c a) s fun t => t.get (ANV_STAT.PC e) = if anvCond s e c then a.toNat else pcNext s e) ∧
  (∀ c a, runs (.anvBrn e c a) s fun t => t.get (ANV_STAT.PC e) = if anvCond s e c then pcNext s e else a.toNat) ∧
  (∀ a, s.eng[e].anv.due = 0 → runs (.anvWait e a) s fun t => t.get (ANV_STAT.PC e) = a.toNat ∧ t.eng[e].anv.waiting = true ∧
    t.get (ANV_CYC.LAST e) = min 0xFFFF (s.eng[e].anv.cycles + 1) ∧
    t.isSet (ANV_STAT.RUNNING e) = !s.eng[e].anv.stopPend ∧
    t.eng[e].anv.tseq = s.eng[e].anv.tseq + 1#6 ∧
    ∀ q : Fin 8, t.get (ANV_PORT.VALUE e q.val) = s.eng[e].anv.port[q].toNat) ∧
  (∀ m, runs (.anvRinit e m) s fun t => t.get (ANV_STAT.PC e) = pcNext s e ∧ ∀ r : Fin 8,
    t.eng[e].anv.ramp[r] = if m.getLsbD r.val then
      s.eng[e].anv.snap[(⟨s.get (ANV_RAMP_CFG.SRC e r.val) % 16, Nat.mod_lt _ (by decide)⟩ : Fin 16)] else s.eng[e].anv.ramp[r]) ∧
  (∀ w, anvIllegal w = true → s.get (ANV_STAT.PC e) ≠ 2047 → runs (.illegalInstruction e w) s fun t => faultTripped s t e 1)) ∧
  (∀ (s : State) (e : Eng) (n : Nat), s.isSet (ANV_STAT.RUNNING e) = true →
  s.eng[e].anv.waiting = false → s.eng[e].anv.rpt = some n →
  (∀ i v, runs (.anvAdi e i v) s fun t => t.get (ANV_STAT.PC e) = pcNext s e ∧ t.eng[e].anv.rpt = none ∧
    t.eng[e].anv.ix[i] = s.eng[e].anv.ix[i] + BitVec.ofNat 11 n * v) ∧
  (∀ w, noRptOp (bits w 26 6) = true → runs (.illegalInstruction e w) s fun t => faultTripped s t e 3) ∧
  (∀ m, runs (.anvRpt e m) s fun t => faultTripped s t e 3) ∧ (∀ c a, runs (.anvBr e c a) s fun t => faultTripped s t e 3) ∧
  (∀ c a, runs (.anvBrn e c a) s fun t => faultTripped s t e 3) ∧ (∀ a, runs (.anvWait e a) s fun t => faultTripped s t e 3) ∧
  ∀ x m k, runs (.anvRsc e x m k) s fun t => faultTripped s t e 3)

/-- With the engine awake and its clocks running, a tick starts from a complete servo set or as a stale tick; an incomplete set starts none; an
overrun counts and, twice in a row, trips; the saturation supervisor trips at its limit and holds the masked ports at their safe values.
RUN, BANK, TRIP_CLR, CNT_CLR, the ramp, program-memory and data-memory writes act as the spec says, a program write to the active bank being
refused with PM_REJ. A row that cannot act in the present state leaves the state as it is: the model's choice (log 4). Rests on
spec/07_anvil.md (R174, R175, R178, R189, R192, R194, R195, R196, R197); spec/02_head_link.md (R46); spec/01_architecture.md (R33). -/
def Obligations.AnvilTicksAndControl : Prop :=
  (∀ (s : State) (e : Eng),
  (engRuns s e = true → (s.isSet (ANV_STAT.RUNNING e) = true → s.eng[e].anv.waiting = true) → runs (.anvTickStale e) s fun t =>
    tickStarted s t e s.eng[e].anv.inp true ∧ t.get (ANV_CNT.STALE e) = satInc 255 (s.get (ANV_CNT.STALE e))) ∧
  (∀ blocks off, linkUp s e = true → setComplete blocks = true → off.natAbs ≤ 16 → engRuns s e = true →
    (s.isSet (ANV_STAT.RUNNING e) = true → s.eng[e].anv.waiting = true) → runs (.servoSetReceived e blocks off) s fun t =>
      tickStarted s t e (Vector.ofFn fun p => servoWord blocks p) false ∧
      ∀ p : Fin 16, t.get (ANV_IN.VALUE e p.val) = (servoWord blocks p).toNat) ∧
  (∀ blocks off, linkUp s e = true → setComplete blocks = false → runs (.servoSetReceived e blocks off) s fun t =>
    t.get (HL_EVT.SERVO_STALE e) = 1 ∧ t.eng[e].anv.inp = s.eng[e].anv.inp) ∧
  (engRuns s e = true → s.isSet (ANV_STAT.RUNNING e) = true → s.eng[e].anv.waiting = false → s.eng[e].anv.due = 0 → runs (.anvOverrun e) s fun t =>
    t.get (ANV_EVT.OVERRUN e) = 1 ∧ t.get (ANV_CNT.OVR e) = satInc 65535 (s.get (ANV_CNT.OVR e)) ∧ t.eng[e].anv.due = 1) ∧
  (engRuns s e = true → s.isSet (ANV_STAT.RUNNING e) = true → s.eng[e].anv.waiting = false → s.eng[e].anv.due ≠ 0 → runs (.anvOverrun e) s fun t =>
    faultTripped s t e 2) ∧
  ((∃ q : Fin 8, satLimit s e ≤ s.eng[e].anv.satCnt[q]) → runs (.anvSatTrip e) s fun t =>
    t.get (ANV_STAT.SAT_TRIP e) = 1 ∧ t.get (ANV_EVT.SAT_TRIP e) = 1 ∧
    t.get (ANV_STAT.RUNNING e) = s.get (ANV_STAT.RUNNING e) ∧
    t.get (ANV_CNT.TRIPS e) = satInc 255 (s.get (ANV_CNT.TRIPS e)) ∧
    ∀ q : Fin 8, (s.get (ANV_SUP.HOLD_MASK e)).testBit q.val = true →
      t.eng[e].anv.port[q] = BitVec.ofNat 24 (s.get (ANV_SAFE.SAFE e q.val) * 1024) ∧ t.eng[e].anv.sat.getLsbD q.val = true) ∧
  ((∀ q : Fin 8, s.eng[e].anv.satCnt[q] < satLimit s e) → s.notes = [] → runs (.anvSatTrip e) s fun t => t = s)) ∧
  (∀ (s : State) (e : Eng),
  (runs (.anvRun e) s fun t => t.get (ANV_CTRL.RUN e) = 1 ∧
    (s.isSet (ANV_STAT.RUNNING e) = false → t.eng[e].anv.startPend = true) ∧
    (s.isSet (ANV_STAT.RUNNING e) = true → t.eng[e].anv.stopPend = false)) ∧
  (runs (.anvStop e) s fun t => t.get (ANV_CTRL.RUN e) = 0 ∧ t.eng[e].anv.startPend = false ∧
    t.eng[e].anv.stopPend = s.isSet (ANV_STAT.RUNNING e) ∧ t.get (ANV_STAT.RUNNING e) = s.get (ANV_STAT.RUNNING e)) ∧
  (∀ b, runs (.anvBankWrite e b) s fun t => t.isSet (ANV_CTRL.BANK e) = b ∧
    t.isSet (ANV_STAT.SW_PEND e) = (b != s.isSet (ANV_STAT.BANK_ACT e)) ∧ t.get (ANV_STAT.BANK_ACT e) = s.get (ANV_STAT.BANK_ACT e)) ∧
  (runs (.anvTripClr e) s fun t => t.get (ANV_STAT.SAT_TRIP e) = 0 ∧ t.get (ANV_STAT.FAULT_TRIP e) = 0 ∧
    t.eng[e].anv.satCnt = Vector.replicate 8 0 ∧ t.eng[e].anv.port = s.eng[e].anv.port) ∧
  (∀ same, runs (.anvCntClr e same) s fun t => t.get (ANV_CNT.OVR e) = bits same 0 1 ∧ t.get (ANV_CNT.STALE e) = bits same 1 1 ∧
    t.get (ANV_CNT.TRIPS e) = bits same 2 1 ∧ t.get (ANV_CYC.MAX e) = 0 ∧ t.get (ANV_CYC.LAST e) = s.get (ANV_CYC.LAST e)) ∧
  (∀ r v, runs (.anvRampInit e r v) s fun t => t.get (ANV_RAMP_CFG.STEP e r.val) = bits v 0 16 ∧
    t.get (ANV_RAMP_CFG.SRC e r.val) = bits v 16 4 ∧
    t.eng[e].anv.rampInit.getLsbD r.val = (s.eng[e].anv.rampInit.getLsbD r.val || v.getLsbD 20)) ∧
  (∀ b a w, (b == s.isSet (ANV_STAT.BANK_ACT e) || (s.isSet (ANV_STAT.SW_PEND e) && b == s.isSet (ANV_CTRL.BANK e))) = true →
    runs (.anvPmWrite e b a w) s fun t => t.get (ANV_EVT.PM_REJ e) = 1 ∧ t.eng = s.eng) ∧
  (∀ (b : Bool) (a : BitVec 11) w, (b == s.isSet (ANV_STAT.BANK_ACT e) || (s.isSet (ANV_STAT.SW_PEND e) && b == s.isSet (ANV_CTRL.BANK e))) = false →
    runs (.anvPmWrite e b a w) s fun t => t.regs = s.regs ∧
      ∀ (c : Bool) (k : BitVec 11), pmGet t e c k.toNat = if c = b ∧ k = a then w else pmGet s e c k.toNat) ∧
  (∀ (a : BitVec 11) (v : Word), runs (.anvDmWrite e a v) s fun t => t.regs = s.regs ∧
    ∀ b, dmGet t e b = if b = a.toNat then v.setWidth 24 else dmGet s e b))

/-- An illegal instruction (cause 1), a destination that is a port, an instruction RPT may not repeat or an RPT in the last location (cause 3),
and a second overrun in a row (cause 2) each set FAULT_TRIP with the cause, halt the program (RUNNING 0, RUN 0) and hold the ports. States
R193. -/
def Obligations.AnvilFaultTrips : Prop := ∀ (s : State) (e : Eng),
  let tripped := fun (t : State) (cause : Nat) => faultTripped s t e cause ∧ t.get (ANV_CTRL.RUN e) = 0
  (∀ w, s.isSet (ANV_STAT.RUNNING e) = true → s.eng[e].anv.waiting = false → s.eng[e].anv.rpt = none → s.get (ANV_STAT.PC e) ≠ 2047 → anvIllegal w = true →
    runs (.illegalInstruction e w) s fun t => tripped t 1) ∧
  (∀ d x q y n k, anvGoes s e → opIsPort x = true → ∀ c, c = Instr.anvSt e d x ∨ c = Instr.anvInt e d x q ∨ c = Instr.anvMov e y x ∨ c = Instr.anvRsc e x n k →
    runs c s fun t => tripped t 1) ∧
  (∀ n c, s.isSet (ANV_STAT.RUNNING e) = true → s.eng[e].anv.waiting = false → s.eng[e].anv.rpt = some n →
    (∃ w, noRptOp (bits w 26 6) = true ∧ c = Instr.illegalInstruction e w) ∨ (∃ m, c = Instr.anvRpt e m) ∨ (∃ k a, c = Instr.anvBr e k a) ∨
      (∃ k a, c = Instr.anvBrn e k a) ∨ (∃ a, c = Instr.anvWait e a) ∨ (∃ x m k, c = Instr.anvRsc e x m k) → runs c s fun t => tripped t 3) ∧
  (∀ n, anvGoes s e → s.get (ANV_STAT.PC e) = 2047 → runs (.anvRpt e n) s fun t => tripped t 3) ∧
  (∀ c, engRuns s e = true → s.isSet (ANV_STAT.RUNNING e) = true → s.eng[e].anv.waiting = false → s.eng[e].anv.due ≠ 0 → c = Instr.anvOverrun e ∨ c = Instr.anvTickStale e →
    runs c s fun t => tripped t 2)

/-- OUT converts the accumulator, compares bits [23:10] with LO and HI, drives the value, or LO or HI shifted back, and sets SAT<q> when it
clamped or saturated; with LO above HI the port is driven to LO. States R191. -/
def Obligations.AnvilPortClamp : Prop := ∀ (s : State) (e : Eng) (d : Fin 4) (q : Fin 8), anvGoes s e → portHeld s e q.val = false →
  let m := accMant (accOf s e d) 0
  let v := clampInt bot24 top24 m
  let b := Int.fdiv v 1024
  let lo := s.getInt (ANV_CLAMP.LO e q.val)
  let hi := s.getInt (ANV_CLAMP.HI e q.val)
  runs (.anvOut e d q) s fun t =>
    (lo ≤ b → b ≤ hi → t.eng[e].anv.port[q] = BitVec.ofInt 24 v ∧ t.eng[e].anv.sat.getLsbD q.val = decide (v ≠ m)) ∧
    (b < lo ∨ hi < b → t.eng[e].anv.sat.getLsbD q.val = true) ∧
    (b < lo ∨ hi < lo → t.eng[e].anv.port[q] = BitVec.ofInt 24 (lo * 1024)) ∧
    (lo ≤ hi → hi < b → t.eng[e].anv.port[q] = BitVec.ofInt 24 (hi * 1024)) ∧
    t.isSet (ANV_PORT.SAT e q.val) = t.eng[e].anv.sat.getLsbD q.val

/-- Each Anvil instruction leaves every register but ANV_STAT and those named, every other engine, the ramps, the snapshot and the event log as
they are; the outputs gain at most the interrupt of an event bit it sets in ANV_EVT (log 73); and, by group, data memory, the ports, the
accumulators and the indexes. Rests on spec/07_anvil.md (R171, R172, R185). -/
def Obligations.AnvilFrames : Prop := ∀ (s : State) (e : Eng) (c : Instr), anvGoes s e → s.notes = [] →
  let regsBut := fun (t : State) (rs : List Reg) => (∀ r, r ≠ ANV_STAT.reg e → r ∉ rs → t.rd r = s.rd r) ∧ (∀ f : Eng, f ≠ e → t.eng[f] = s.eng[f]) ∧
    t.eng[e].anv.ramp = s.eng[e].anv.ramp ∧ t.eng[e].anv.snap = s.eng[e].anv.snap ∧
    (∃ l, t.out = s.out ++ l ∧ (ANV_EVT.reg e ∉ rs → l = []) ∧ ∀ o ∈ l, ∃ f : Fld, f.reg = ANV_EVT.reg e ∧ o = .irq f) ∧ t.events = s.events
  let memSame := fun t : State => ∀ b, dmGet t e b = dmGet s e b
  let accSame := fun t : State => t.eng[e].anv.acc = s.eng[e].anv.acc
  let ixSame := fun t : State => t.eng[e].anv.ix = s.eng[e].anv.ix
  let portSame := fun t : State => t.eng[e].anv.port = s.eng[e].anv.port ∧ t.eng[e].anv.sat = s.eng[e].anv.sat
  ((∃ d x y, c = .anvMpy e d x y ∨ c = .anvMac e d x y ∨ c = .anvMsu e d x y ∨ c = .anvLda e d x ∨ c = .anvAdd e d x ∨ c = .anvSub e d x) →
    runs c s fun t => regsBut t [ANV_EVT.reg e] ∧ memSame t ∧ portSame t) ∧
  ((∃ d n a v, c = .anvShf e d n ∨ c = .anvAcc e d a ∨ c = .anvMova e d a ∨ c = .anvClr e d ∨ c = .anvLdk e d v) →
    runs c s fun t => regsBut t [ANV_EVT.reg e] ∧ memSame t ∧ portSame t ∧ ixSame t) ∧
  ((∃ i v x, c = .anvLdi e i v ∨ c = .anvAdi e i v ∨ c = .anvLdim e i x) → runs c s fun t => regsBut t [] ∧ memSame t ∧ portSame t ∧ accSame t) ∧
  ((∃ k v d, c = .anvLdx e k v ∨ c = .anvAdx e k v ∨ c = .anvExa e k d) → runs c s fun t => (∃ k : Fin 16, regsBut t [ANV_EVT.reg e, ANV_X.reg e k.val]) ∧
    memSame t ∧ portSame t ∧ accSame t ∧ ixSame t) ∧
  ((∃ d x q y, opIsPort x = false ∧ (c = .anvSt e d x ∨ c = .anvInt e d x q ∨ c = .anvMov e y x)) → runs c s fun t =>
    regsBut t [ANV_EVT.reg e] ∧ portSame t ∧ accSame t) ∧
  ((∃ d q, c = .anvOut e d q) → runs c s fun t => (∃ q : Fin 8, regsBut t [ANV_PORT.reg e q.val]) ∧ memSame t ∧ accSame t ∧ ixSame t) ∧
  ((∃ k a, c = .anvNop e ∨ c = .anvBr e k a ∨ c = .anvBrn e k a) ∨ (s.get (ANV_STAT.PC e) ≠ 2047 ∧ ∃ n, c = .anvRpt e n) → runs c s fun t =>
    regsBut t [] ∧ memSame t ∧ portSame t ∧ accSame t ∧ ixSame t)

/-- With the loop program ready, NOP, FOCUS_SEARCH, TRACK_ON, TRACK_OFF, JUMP and LAYER_JUMP acknowledge with their sequence number and RESULT 0
and reach the state the spec gives, from the states and arguments that permit them; from all others they are acknowledged with RESULT 1 and
the state stays; RETRACT is accepted in every state; a layer jump turns the sense of the track where R207 has the spiral turn
(Config.layerInward, log 104); the loss of focus, of tracking, stale ticks and a command without answer record their fault and reach their
state (log 45). The words' layout is the spec's, their free codes the model's (log 45). Rests on spec/08_servo_and_seek.md (R199, R200,
R201, R202, R203, R204, R205, R207, R208). -/
def Obligations.LoopCommands : Prop :=
  (∀ (s : State) (e : Eng), loopReady s e →
  (runs (.loopNop e) s fun t => answered s t e 0 0 0 ∧ loopSt t e = loopSt s e) ∧
  (∀ arg, 0 ≤ arg → arg ≤ 3 → searchMay s e = true → loopSt s e = 0 → runs (.focusSearch e arg true false) s fun t =>
    answered s t e 1 arg 0 ∧ loopSt t e = 2 ∧ t.eng[e].loop.searches = 0 ∧ t.eng[e].anv.port[(3 : Fin 8)] = dmGet s e 0x7D8 ∧
    t.get (ANV_RAMP_TGT.TARGET e 0) = 0 ∧ t.eng[e].anv.ramp[(0 : Fin 8)] = s.eng[e].anv.snap[(0 : Fin 16)]) ∧
  (loopSt s e = 2 ∨ loopSt s e = 7 → runs (.trackOn e none) s fun t =>
    answered s t e 2 0 0 ∧ loopSt t e = 3 ∧ t.eng[e].loop.fault = 0 ∧
    t.get (ANV_RAMP_TGT.TARGET e 1) = 0 ∧ t.eng[e].anv.ramp[(1 : Fin 8)] = s.eng[e].anv.snap[(2 : Fin 16)]) ∧
  (loopSt s e = 3 → runs (.trackOff e) s fun t => answered s t e 3 0 0 ∧ loopSt t e = 2) ∧
  (∀ n : Int, n ≠ 0 → n.natAbs ≤ 512 → loopSt s e = 3 → runs (.jump e n none) s fun t =>
    answered s t e 4 n 0 ∧ loopSt t e = 3 ∧ loopWord t e 0x7E6 = n) ∧
  (∀ n : Int, n ≠ 0 → n.natAbs ≤ 3 → loopSt s e = 2 ∨ loopSt s e = 3 → runs (.layerJump e n true) s fun t =>
    answered s t e 5 n 0 ∧ loopSt t e = 2 ∧ t.eng[e].anv.port[(3 : Fin 8)] = dmGet s e 0x7D8 ∧
    t.isSet (SEAM_CTRL.DIR e) = Config.layerInward (s.isSet (SEAM_CTRL.DIR e)) n ∧ t.get (SLG_CTRL.DIR e) = t.get (SEAM_CTRL.DIR e))) ∧
  (∀ (s : State) (e : Eng), loopReady s e →
  (∀ arg found lost, searchMay s e = true → (arg < 0 ∨ 3 < arg ∨ loopSt s e ≠ 0) → runs (.focusSearch e arg found lost) s fun t =>
    answered s t e 1 arg 1 ∧ loopSt t e = loopSt s e) ∧
  (∀ l, loopSt s e ≠ 2 → loopSt s e ≠ 7 → runs (.trackOn e l) s fun t => answered s t e 2 0 1 ∧ loopSt t e = loopSt s e) ∧
  (loopSt s e ≠ 3 → runs (.trackOff e) s fun t => answered s t e 3 0 1 ∧ loopSt t e = loopSt s e) ∧
  (∀ n l, n = 0 ∨ 512 < n.natAbs ∨ loopSt s e ≠ 3 → runs (.jump e n l) s fun t => answered s t e 4 n 1 ∧ loopSt t e = loopSt s e) ∧
  (∀ n f, n = 0 ∨ 3 < n.natAbs ∨ (loopSt s e ≠ 2 ∧ loopSt s e ≠ 3) → runs (.layerJump e n f) s fun t =>
    answered s t e 5 n 1 ∧ loopSt t e = loopSt s e)) ∧
  (∀ (s : State) (e : Eng),
  (s.isSet (ANV_STAT.RUNNING e) = true → runs (.retract e) s fun t =>
    answered s t e 6 0 0 ∧ loopSt t e = 0 ∧ t.eng[e].anv.port[(0 : Fin 8)] = BitVec.ofNat 24 (s.get (ANV_SAFE.SAFE e 0) * 1024)) ∧
  (dmGet s e 0x7E0 ≠ dmGet s e 0x7E3 → s.isSet (ANV_STAT.RUNNING e) = true → s.eng[e].loop.fault = 0 → runs (.loopCmdTimeout e) s fun t =>
    answered s t e 6 0 0 ∧ loopSt t e = 0 ∧ t.eng[e].loop.fault = 3) ∧
  (loopSt s e = 2 ∨ loopSt s e = 3 ∨ loopSt s e = 4 ∨ loopSt s e = 7 → s.eng[e].loop.fault = 0 → runs (.focusLost e) s fun t =>
    loopSt t e = 6 ∧ t.eng[e].loop.fault = 3 ∧
    t.eng[e].anv.port[(0 : Fin 8)] = BitVec.ofNat 24 (s.get (ANV_SAFE.SAFE e 0) * 1024)) ∧
  (loopSt s e = 3 → s.eng[e].loop.fault = 0 → runs (.trackLost e) s fun t =>
    loopSt t e = 7 ∧ t.eng[e].loop.fault = 4 ∧ t.eng[e].anv.port = s.eng[e].anv.port) ∧
  (s.isSet (ANV_STAT.RUNNING e) = true → loopSt s e ≠ 0 → loopSt s e ≠ 6 → s.eng[e].loop.fault = 0 →
    runs (.staleTicksFault e) s fun t => loopSt t e = 6 ∧ t.eng[e].loop.fault = 2))

/-- A long seek moves the sled to the position S of the target's radius r(a), corrected by the mean of the tracking output, and closes tracking;
the recovery of a lost position sets POS and REF to the position of the address read (rounding of r(a) and S: log 100); one angle step of
gearing with a valid angle advances REF by TPR x MPT / (65536 x 3600) with the remainder kept, and does nothing without one; LOAD sets REF
to the sled position and selects the entry (log 46); EN is discarded while the position is lost. A row that cannot act in the present state
leaves the state as it is: the model's choice (log 4). Rests on spec/08_servo_and_seek.md (R206, R210, R212, R213). -/
def Obligations.SeeksAndGearing : Prop := ∀ (s : State) (e : Eng),
  (∀ (c : ClAddr) (mean : BitVec 24), loopReady s e → loopSt s e = 3 → s.isSet (SLD_STAT.LOST e) = false → s.eng[e].loop.seekLost = false →
    s.eng[e].sld.powered = true → s.isSet (SLD_STAT.FAULT e) = false → s.isSet (SLD_STAT.HOMING e) = false →
    runs (.longSeek e c mean [c]) s fun t => sldPos t e = (BitVec.ofInt 24 (sledFor s e c mean)).toInt ∧ t.getInt (SLG_REF.REF e) = sldPos t e ∧
      t.get (SLD_EVT.DONE e) = 1 ∧ t.get (SLG_CTRL.EN e) = 1 ∧ loopSt t e = 3) ∧
  (∀ homed (a : ClAddr) (mean : BitVec 24), s.isSet (SLD_ENC.EN e) = false → s.isSet (SLD_STAT.MOVING e) = false → s.isSet (SLD_STAT.HOMING e) = false →
    runs (.sledPositionRecover e homed (some (a, mean))) s fun t =>
      sldPos t e = (BitVec.ofInt 24 (sledFor (if homed then s.put (SLD_POS.VALUE e) 0 else s) e a mean)).toInt ∧ t.getInt (SLG_REF.REF e) = sldPos t e ∧
      t.eng[e].slg.rem = 0 ∧ t.eng[e].loop.seekLost = false ∧ (sldRest s e = true → t.get (SLD_STAT.LOST e) = 0)) ∧
  ((s.isSet (SLG_CTRL.EN e) && s.isSet (SPN_STAT.ANG_VALID e)) = false → runs (.slgAngleStep e) s fun t => t = s) ∧
  (s.isSet (SLG_CTRL.EN e) = true → s.isSet (SPN_STAT.ANG_VALID e) = true → runs (.slgAngleStep e) s fun t =>
    let d : Int := s.get (SLG_STAT.TPR_ACT e) * s.get (SLG_MPT.MPT e (s.get (SLG_STAT.ENTRY e)))
    let r := s.eng[e].slg.rem + (if s.isSet (SLG_STAT.DIR_ACT e) then -d else d)
    t.getInt (SLG_REF.REF e) = (BitVec.ofInt 24 (s.getInt (SLG_REF.REF e) + r / (65536 * 3600))).toInt ∧
    t.eng[e].slg.rem = r % (65536 * 3600)) ∧
  (runs (.slgLoad e) s fun t => t.getInt (SLG_REF.REF e) = sldPos s e ∧ t.eng[e].slg.rem = 0 ∧
    (∀ i, t.get (SLG_STAT.ENTRY e) = i + 1 → t.getInt (SLG_POS.POS e (i + 1)) ≤ sldPos s e ∧
      t.getInt (SLG_POS.POS e i) < t.getInt (SLG_POS.POS e (i + 1))) ∧
    (t.get (SLG_STAT.ENTRY e) < 15 →
      t.getInt (SLG_POS.POS e (t.get (SLG_STAT.ENTRY e) + 1)) ≤ t.getInt (SLG_POS.POS e (t.get (SLG_STAT.ENTRY e))) ∨
      sldPos s e < t.getInt (SLG_POS.POS e (t.get (SLG_STAT.ENTRY e) + 1)))) ∧
  (∀ v, (v && s.isSet (SLD_STAT.LOST e)) = false → runs (.slgEnWrite e v) s fun t => t.isSet (SLG_CTRL.EN e) = v) ∧
  (s.isSet (SLD_STAT.LOST e) = true → runs (.slgEnWrite e true) s fun t => t = s)

/-- MOVE and HOME start or are rejected with REJ; STOP ends motion at once and loses the position when moving; a driver fault turns the sled
off; PWR = 0 parks at a full-step position, PWR = 1 powers up; the PWM period counts the encoder and ends a finished move with DONE; the
encoder's index, illegal transitions and excess speed set its flags (profile: log 19). A row that cannot act in the present state leaves the
state as it is: the model's choice (log 4). Rests on spec/09_spindle_and_motion.md (R231, R232, R233, R234, R235, R236). -/
def Obligations.SledMotionAndPower : Prop :=
  (∀ (s : State) (e : Eng),
  (∀ enc, runs (.sldPwmPeriod e enc) s fun t =>
    (s.isSet (SLD_ENC.EN e) = true → t.eng[e].sld.encCount = s.eng[e].sld.encCount + enc ∧
      (500 < enc.natAbs → t.get (SLD_EVT.ENC_FAULT e) = 1 ∧ t.get (SLD_ENCPOS.VALID e) = 0)) ∧
    (s.eng[e].sld.powered = false → sldPos t e = sldPos s e) ∧
    (s.eng[e].sld.powered = true → s.isSet (SLD_STAT.HOMING e) = false → s.eng[e].sld.parking = false → s.isSet (SLG_CTRL.EN e) = false →
      s.isSet (SLD_STAT.MOVING e) = true → sldPos s e = s.getInt (SLD_TGT.VALUE e) → s.eng[e].sld.vel = 0 → s.eng[e].sld.frac = 0 →
      t.get (SLD_STAT.MOVING e) = 0 ∧ t.get (SLD_EVT.DONE e) = 1 ∧ sldPos t e = sldPos s e)) ∧
  (s.eng[e].sld.powered = true → sldRest s e = true → runs (.sldHoldCurrent e) s fun t => t.get (SLD_STAT.HOLD e) = 1) ∧
  (sldReject s e = false → runs (.sldMove e) s fun t => t.get (SLD_STAT.MOVING e) = 1 ∧ t.get (SLD_STAT.HOLD e) = 0 ∧ t.eng = s.eng) ∧
  (sldReject s e = true → runs (.sldMove e) s fun t => t.get (SLD_EVT.REJ e) = 1 ∧ t.get (SLD_STAT.MOVING e) = s.get (SLD_STAT.MOVING e)) ∧
  (sldReject s e = false → runs (.sldHome e) s fun t => t.get (SLD_STAT.HOMING e) = 1 ∧ t.get (SLD_STAT.MOVING e) = 0 ∧
    t.eng[e].sld.homeLeft = (s.getInt (SLD_TGT.VALUE e)).natAbs) ∧
  (sldReject s e = true → runs (.sldHome e) s fun t => t.get (SLD_EVT.REJ e) = 1 ∧ t.eng = s.eng) ∧
  (runs (.sldStop e) s fun t => t.get (SLD_STAT.MOVING e) = 0 ∧ t.get (SLD_STAT.HOMING e) = 0 ∧ t.eng[e].sld.vel = 0 ∧
    sldPos t e = sldPos s e ∧
    (s.isSet (SLD_STAT.MOVING e) = true ∨ s.isSet (SLD_STAT.HOMING e) = true ∨
      (s.get (SLD_CFG.V_SAFE e) * 100 * 50000 : Int) < s.eng[e].sld.vel.natAbs →
      t.get (SLD_STAT.LOST e) = 1 ∧ t.get (SLD_EVT.LOST e) = 1)) ∧
  (runs (.sldFault e) s fun t => t.get (SLD_STAT.FAULT e) = 1 ∧ t.get (SLD_STAT.LOST e) = 1 ∧ t.eng[e].sld.powered = false ∧
    t.get (SLD_EVT.FAULT e) = 1)) ∧
  (∀ (s : State) (e : Eng),
  ((sldRest s e && !s.isSet (SLG_CTRL.EN e)) = true → runs (.sldPark e) s fun t => t.get (SLD_CTRL.PWR e) = 0 ∧
    t.get (SLD_STAT.FAULT e) = 0 ∧ (s.isSet (SLD_STAT.FAULT e) = false → s.eng[e].sld.powered = true → t.eng[e].sld.parking = true)) ∧
  ((sldRest s e && !s.isSet (SLG_CTRL.EN e)) = false → runs (.sldPark e) s fun t => t.get (SLD_EVT.REJ e) = 1 ∧ t.eng = s.eng) ∧
  (s.eng[e].sld.parking = true → s.eng[e].sld.vel = 0 → s.get (SLD_STAT.IDX e) % 256 = 0 → runs (.sldParkDone e) s fun t =>
    t.get (SLD_STAT.PARKED e) = 1 ∧ t.get (SLD_EVT.PARKED e) = 1 ∧ t.eng[e].sld.powered = false ∧ t.eng[e].sld.parking = false) ∧
  (runs (.sldPowerOn e) s fun t => t.get (SLD_CTRL.PWR e) = 1 ∧
    (s.isSet (SLD_STAT.FAULT e) = false → t.get (SLD_STAT.PARKED e) = 0 ∧ t.eng[e].sld.powered = true) ∧
    (s.isSet (SLD_STAT.FAULT e) = true → t.eng = s.eng)) ∧
  (runs (.sldEncBad e) s fun t => t.get (SLD_ENCPOS.FAULT e) = 1 ∧ t.get (SLD_ENCPOS.VALID e) = 0 ∧ t.get (SLD_EVT.ENC_FAULT e) = 1) ∧
  (∀ n : Fin 12, n.val = e.val → s.isSet (SLD_ENC.EN e) = true → runs (.encIndex n) s fun t => t.get (SLD_ENCPOS.POS e) = 0 ∧
    t.get (SLD_ENCPOS.VALID e) = 1 ∧ t.get (SLD_ENCPOS.IDX_SEEN e) = 1 ∧ t.get (SLD_ENCPOS.FAULT e) = 0 ∧ t.eng[e].sld.encCount = 0) ∧
  (∀ n : Fin 12, n.val = e.val → s.isSet (SLD_ENC.EN e) = true → runs (.encIllegalTransition n) s fun t =>
    t.get (SLD_ENCPOS.FAULT e) = 1 ∧ t.get (SLD_ENCPOS.VALID e) = 0 ∧ t.get (SLD_EVT.ENC_FAULT e) = 1))

/-- ENABLE starts training from OFF, DISABLE turns the link off, RETRAIN starts attempt 1 again; a matching marker, descrambled with the lane's
own state, is recorded with its FSEQ and time, and header errors count; the lanes locked and within the deskew tolerance align when all that
were asked for do, or 1,800 us after the start when at least three do (log 94); the ILH-F5's READY makes Cloulin ready, and the next
downstream frame carries READY and brings the link UP or DEGRADED with the write position at 0; a training frame carries its marker with
VER, TSTATE and LMASK, scrambled; a timeout starts the next attempt, or after the last ends in FAILED with LINK_FAILED. A row that cannot
act in the present state leaves the state as it is: the model's choice (log 4). Rests on spec/02_head_link.md (R34, R38, R40, R41, R59, R61,
R64); spec/05_writing_and_verify.md (R128). -/
def Obligations.HeadLinkTraining : Prop := ∀ (s : State) (e : Eng),
  (s.get (HL_STAT.STATE e) = hlOff → engRuns s e = true → runs (.hlEnable e) s fun t => t.get (HL_CTRL.ENABLE e) = 1 ∧
    t.get (HL_STAT.STATE e) = hlTraining ∧ t.get (HL_STAT.ATTEMPT e) = 1 ∧ t.eng[e].hl.phase = .locking) ∧
  (s.get (HL_STAT.STATE e) ≠ hlOff → runs (.hlEnable e) s fun t => t.get (HL_CTRL.ENABLE e) = 1 ∧
    t.get (HL_STAT.STATE e) = s.get (HL_STAT.STATE e)) ∧
  (runs (.hlDisable e) s fun t => t.get (HL_CTRL.ENABLE e) = 0 ∧ t.get (HL_STAT.STATE e) = hlOff ∧
    (s.get (HL_STAT.STATE e) ≠ hlOff → t.get (HL_STAT.ACTIVE_MASK e) = 0) ∧
    (linkUp s e = true → t.eng[e].hl.ready = [] ∧ t.eng[e].hl.writeEn = false)) ∧
  (s.isSet (HL_CTRL.ENABLE e) = true → engRuns s e = true → runs (.hlRetrain e) s fun t =>
    t.get (HL_STAT.STATE e) = hlTraining ∧ t.get (HL_STAT.ATTEMPT e) = 1 ∧ t.get (HL_STAT.ACTIVE_MASK e) = 0) ∧
  (∀ (u : Spot) marker payload hdr at_, s.get (HL_STAT.STATE e) = hlTraining →
    let d := scrambleAll true s.eng[e].hl.rx[u].scr (marker :: payload)
    let m := d.2.headD 0#64
    let rx := s.eng[e].hl.rx.set u { hdrSteps s.eng[e].hl.rx[u] hdr with scr := d.1, mark := some (bits m 10 2, at_) }
    let want := bits m 14 4 &&& (0xF#4 &&& ~~~ BitVec.ofNat 4 (s.get (HL_CTRL.LANE_EXCL e))).toNat
    let g := bestLanes rx want
    bits m 0 8 = 0x33 → bits m 8 2 = u.val → bits m 18 4 = 1 →
    (runs (.trainingFrameReceived e u marker payload hdr at_) s fun t => t.eng[e].hl.rx = rx ∧
      t.get (HL_LANE.HDR_ERR e u) = satAdd 4095 (s.get (HL_LANE.HDR_ERR e u)) (popcount 16 hdr.toNat) ∧
      t.get (HL_STAT.STATE e) = hlTraining) ∧
    (s.eng[e].hl.phase = .locking → 3 ≤ popcount 4 g → g = want ∨ s.eng[e].hl.since + 1800 ≤ s.us →
      runs (.trainingFrameReceived e u marker payload hdr at_) s fun t =>
      t.eng[e].hl.phase = .aligned ∧ t.eng[e].hl.granted = BitVec.ofNat 4 g) ∧
    (s.eng[e].hl.phase = .locking → popcount 4 g < 3 ∨ (g ≠ want ∧ s.us < s.eng[e].hl.since + 1800) →
      runs (.trainingFrameReceived e u marker payload hdr at_) s fun t => t.eng[e].hl.phase = .locking) ∧
    (s.eng[e].hl.phase = .aligned → bits m 12 2 = 2 → runs (.trainingFrameReceived e u marker payload hdr at_) s fun t =>
      t.eng[e].hl.phase = .ready ∧ t.eng[e].hl.granted = s.eng[e].hl.granted)) ∧
  (s.get (HL_STAT.STATE e) = hlTraining → s.eng[e].hl.phase = .ready → runs (.downstreamFrameSend e) s fun t =>
    t.get (HL_STAT.STATE e) = (if s.eng[e].hl.granted = 0xF#4 then hlUp else hlDegraded) ∧
    t.get (HL_STAT.ACTIVE_MASK e) = s.eng[e].hl.granted.toNat ∧ t.get (HL_EVT.UP e) = 1 ∧
    t.get (HL_STAT.RATE_CAP e) = (if s.eng[e].hl.granted = 0xF#4 then 0 else 1) ∧ t.get (WR_WPOS.WPOS e) = 0) ∧
  (s.get (HL_STAT.STATE e) = hlTraining → s.eng[e].hl.phase ≠ .ready → s.notes = [] → runs (.downstreamFrameSend e) s fun t =>
    let h := s.eng[e].hl
    let lm := if h.phase = .locking then 0xF#4 &&& ~~~ BitVec.ofNat 4 (s.get (HL_CTRL.LANE_EXCL e)) else h.granted
    let m := dsMarker 0x33 h.umask (trainFields h.phase lm) h.dsLast
    t.out = s.out ++ [.frame e (m :: List.replicate 15 0#64) (scrambleAll false h.dsScr (m :: List.replicate 15 0#64)).2] ∧ t.regs = s.regs) ∧
  (s.get (HL_STAT.STATE e) = hlTraining → s.get (HL_STAT.ATTEMPT e) < max 1 (s.get (HL_CFG.MAX_ATTEMPT e)) →
    runs (.trainTimeout e) s fun t => t.get (HL_STAT.STATE e) = hlTraining ∧
      t.get (HL_STAT.ATTEMPT e) = s.get (HL_STAT.ATTEMPT e) + 1 ∧ t.eng[e].hl.phase = .locking) ∧
  (s.get (HL_STAT.STATE e) = hlTraining → max 1 (s.get (HL_CFG.MAX_ATTEMPT e)) ≤ s.get (HL_STAT.ATTEMPT e) →
    runs (.trainTimeout e) s fun t => t.get (HL_STAT.STATE e) = hlFailed ∧ t.get (HL_EVT.LINK_FAILED e) = 1 ∧
      t.get (HL_STAT.ACTIVE_MASK e) = 0)

/-- A lane's lock loss degrades or fails the link; the ILH-F5's status blocks report their bits and CRC increments; a frame's invalid headers
count, and may lose the lane's block lock; a bad frame counts and flags its lane; CNT_CLR leaves each counter at the same cycle's increment;
a downstream frame carries a marker with the stream map and the CRC of the last frame, the ready words by priority and fill blocks, all
scrambled, and the write position advances by the clock word (log 47, 92). Rests on spec/02_head_link.md (R34, R37, R38, R48, R49, R52, R55,
R56, R58, R63, R66, R69, R70). -/
def Obligations.HeadLinkLanes : Prop := ∀ (s : State) (e : Eng), linkUp s e = true →
  (∀ u : Spot, s.get (HL_STAT.STATE e) = hlUp → s.eng[e].hl.umaskPend = false → s.isSet (HL_CTRL.AUTO_DROP e) = true →
    (s.get (HL_STAT.ACTIVE_MASK e)).testBit u.val = true → runs (.laneLockLost e u) s fun t =>
      t.get (HL_STAT.STATE e) = hlDegraded ∧ t.get (HL_EVT.LANE_DEGRADED e) = 1 ∧ t.get (HL_STAT.RATE_CAP e) = 1 ∧
      t.get (HL_LANE.LOCK_LOSS e u) = satInc 15 (s.get (HL_LANE.LOCK_LOSS e u)) ∧
      t.get (HL_STAT.ACTIVE_MASK e) = (BitVec.ofNat 4 (s.get (HL_STAT.ACTIVE_MASK e)) &&& ~~~ BitVec.twoPow 4 u.val).toNat) ∧
  (∀ u : Spot, s.get (HL_STAT.STATE e) = hlDegraded → (s.get (HL_STAT.ACTIVE_MASK e)).testBit u.val = true →
    runs (.laneLockLost e u) s fun t => t.get (HL_STAT.STATE e) = hlFailed ∧ t.get (HL_EVT.LINK_FAILED e) = 1) ∧
  (∀ b : LinkBlock, bits b 0 8 = 1 → bits b 8 1 = 1 → runs (.f5StatusBlock e b) s fun t =>
    t.rd (HL_F5STAT.reg e) = BitVec.ofNat 32 (bits b 8 6 + bits b 32 16 * 2 ^ 16) ∧
    t.get (HL_LANE.CRC_ERR e 4) = satAdd 65535 (s.get (HL_LANE.CRC_ERR e 4)) (BitVec.ofNat 16 (bits b 16 16) - s.eng[e].hl.dsCrc).toNat ∧
    t.eng[e].hl.dsCrc = BitVec.ofNat 16 (bits b 16 16)) ∧
  (∀ b : LinkBlock, bits b 0 8 = 1 → bits b 8 1 = 0 → runs (.f5StatusBlock e b) s fun t =>
    t.get (HL_STAT.STATE e) = hlFailed ∧ t.get (HL_EVT.DS_LOST e) = 1 ∧ t.get (HL_EVT.LINK_FAILED e) = 1) ∧
  (runs (.f5Silent e) s fun t => t.get (HL_EVT.F5_SILENT e) = 1 ∧ t.get (HL_STAT.STATE e) = s.get (HL_STAT.STATE e)) ∧
  (∀ (u : Spot) marker payload crc hdr, (s.get (HL_STAT.ACTIVE_MASK e)).testBit u.val = true →
    let l := s.eng[e].hl.rx[u]
    let d := (scrambleAll true l.scr (marker :: payload)).2
    let bad := frameCrc (d.headD 0#64) d.tail != crc
    runs (.laneFrameReceived e u marker payload crc hdr) s fun t =>
      t.get (HL_LANE.HDR_ERR e u) = satAdd 4095 (s.get (HL_LANE.HDR_ERR e u)) (popcount 16 hdr.toNat) ∧
      ((l.lock && !(hdrSteps l hdr).lock) = true → t.get (HL_STAT.STATE e) ≠ hlUp ∧
        t.get (HL_LANE.LOCK_LOSS e u) = satInc 15 (s.get (HL_LANE.LOCK_LOSS e u))) ∧
      ((l.lock && !(hdrSteps l hdr).lock) = false → t.eng[e].hl.laneBad.getLsbD u.val = bad ∧
        t.get (HL_LANE.CRC_ERR e u) = if bad then satAdd 65535 (s.get (HL_LANE.CRC_ERR e u)) 1 else s.get (HL_LANE.CRC_ERR e u))) ∧
  (∀ same (u : Fin 5), runs (.hlCntClr e same) s fun t => t.get (HL_LANE.CRC_ERR e u) = bits same (3 * u) 1 ∧
    t.get (HL_LANE.HDR_ERR e u) = (if u = 4 then 0 else bits same (3 * u + 1) 1) ∧ t.get (HL_LANE.LOCK_LOSS e u) = bits same (3 * u + 2) 1) ∧
  (runs (.lpwRepeat e) s fun t => t.eng[e].hl.ready = s.eng[e].hl.ready ++ [.lpw (lpwLevels s e)] ∧ t.regs = s.regs) ∧
  (steering s e = false → s.isSet (WR_STAT.GATE e) = false → s.eng[e].hl.syms = [] → s.notes = [] →
    runs (.downstreamFrameSend e) s fun t =>
      let h := s.eng[e].hl
      let r := h.wposRem + s.get (HL_RATE.FW e) * 1769472
      let fr := fillFrame 15 false (byPrio (h.ready ++ packTrims h.trims))
      let ds := dsBlocks fr.1
      let m := dsMarker 0x78 h.umask (mapOf ds) h.dsLast
      t.out = s.out ++ .frame e (m :: ds.map (·.2)) (scrambleAll false h.dsScr (m :: ds.map (·.2))).2 :: fr.1.map (.ds e) ∧
      t.eng[e].hl.ready = fr.2 ∧ t.eng[e].hl.dsLast = frameCrc m (ds.map (·.2)) ∧
      t.get (WR_WPOS.WPOS e) = (s.get (WR_WPOS.WPOS e) + r / (10000 * 2 ^ 24)) % 2 ^ 31)

/-- GO arms a run when R127's conditions hold and the ring is not empty, and is otherwise rejected with GO_REJ; OPC likewise; STOP ends an armed
run, and closes a writing one at the end of its run-out, where the gate closes; at a decision point with nothing committed an empty ring
starves the run, which writes on to its run-out, and a following descriptor continues it; the end of OPC after its cluster records its
result; a PROD write is taken or refused with RING_ERR; LASER_EN, the interlock's opening, its end and its hold act as the spec says; an
ADIP word is reported while the wobble PLL is enabled, and starts an armed run at the boundary of the cluster of its first address (log 48,
89). A row that cannot act in the present state leaves the state as it is: the model's choice (log 4). Rests on
spec/05_writing_and_verify.md (R127, R130, R131, R132, R133, R135, R139, R140, R142). -/
def Obligations.WriteRuns : Prop :=
  (∀ (s : State) (e : Eng),
  (wrGoOk s e = true → 1 ≤ ringFill s e (s.get (WR_PROD.PROD e)) → runs (.wrGo e) s fun t => t.get (WR_STAT.STATE e) = wrArmed ∧
    t.eng[e].wr.entries = [] ∧ t.get (WR_STAT.VER_SPOT e) = if s.isSet (SEAM_CTRL.DIR e) then 2 else 0) ∧
  (wrGoOk s e = false ∨ ringFill s e (s.get (WR_PROD.PROD e)) = 0 → runs (.wrGo e) s fun t => t.get (WR_EVT.GO_REJ e) = 1 ∧
    t.get (WR_STAT.STATE e) = s.get (WR_STAT.STATE e) ∧ t.eng = s.eng) ∧
  (wrGoOk s e = true → runs (.wrOpcGo e) s fun t => t.get (WR_STAT.STATE e) = wrOpc ∧ t.eng[e].wr.entries = []) ∧
  (wrGoOk s e = false → runs (.wrOpcGo e) s fun t => t.get (WR_EVT.GO_REJ e) = 1 ∧ t.eng = s.eng) ∧
  (s.get (WR_STAT.STATE e) = wrArmed → runs (.wrStop e) s fun t => t.get (WR_STAT.STATE e) = wrIdle ∧ t.get (WR_EVT.DONE e) = 1) ∧
  (s.get (WR_STAT.STATE e) = wrWriting → s.eng[e].wr.closing = false → linkUp s e = true → runs (.wrStop e) s fun t =>
    t.get (WR_STAT.STATE e) = wrWriting ∧ t.get (WR_STAT.GATE e) = s.get (WR_STAT.GATE e) ∧ t.eng[e].wr.closing = true ∧
    t.eng[e].wr.entries = s.eng[e].wr.entries ∧
    t.eng[e].hl.ready = s.eng[e].hl.ready ++ [.lpw (lpwGate false (s.eng[e].wr.gateAt + clusterBits * s.eng[e].wr.count))]) ∧
  (s.get (WR_STAT.STATE e) = wrWriting → s.isSet (WR_STAT.GATE e) = true → linkUp s e = true → steering s e = false →
    clusterBits * s.eng[e].wr.count ≤ s.eng[e].wr.pos + ((wposNext s e).1 - s.eng[e].wr.wait) → runs (.downstreamFrameSend e) s fun t =>
    t.get (WR_STAT.STATE e) ≠ wrWriting ∧ t.get (WR_STAT.GATE e) = 0 ∧ t.eng[e].hl.writeEn = false) ∧
  (s.get (WR_STAT.STATE e) = wrWriting → s.eng[e].wr.closing = false → (s.eng[e].wr.entries.any fun x => x.phase == .committed) = false →
    (ringHas s e = false → runs (.wrDecisionPoint e) s fun t =>
      t.get (WR_EVT.STARVED e) = 1 ∧ t.eng[e].wr.closing = true ∧ t.get (WR_STAT.STATE e) = wrWriting) ∧
    (ringHas s e = true → s.eng[e].wr.lastAddr = some ((ringDesc s e (s.get (WR_CONS.NEXT e))).addr - 1#32) →
      (ringDesc s e (s.get (WR_CONS.NEXT e))).addr.extractLsb' 28 4 = ((ringDesc s e (s.get (WR_CONS.NEXT e))).addr - 1#32).extractLsb' 28 4 →
      runs (.wrDecisionPoint e) s fun t => t.get (WR_CONS.NEXT e) = (s.get (WR_CONS.NEXT e) + 1) % 128 ∧
        t.get (WR_STAT.STATE e) = wrWriting ∧ t.eng[e].wr.lastAddr = some (ringDesc s e (s.get (WR_CONS.NEXT e))).addr ∧
        t.eng[e].wr.entries.length = s.eng[e].wr.entries.length + 1)) ∧
  (∀ steps, s.get (WR_STAT.STATE e) = wrOpc → clusterBits ≤ s.eng[e].wr.pos → runs (.opcDone e steps) s fun t =>
    t.get (WR_STAT.STATE e) = wrIdle ∧ t.get (WR_EVT.OPC_DONE e) = 1 ∧
    (∀ x, (s.eng[e].wr.levels.find? fun x =>
        x.1 == clWord ⟨BitVec.ofNat 28 (s.get (WR_OPC_ADDR.CLUSTER e)), BitVec.ofNat 3 (s.get (WR_OPC_ADDR.LAYER e))⟩ false) = some x →
      t.get (WR_OPC_RES.REFL e) = x.2.toNat) ∧
    t.isSet (WR_OPC_RES.VALID e) = (opcFind s e (s.getInt (WR_OPC_TGT.BETA_TGT e)) 0 ((steps.take (s.get (WR_OPC_CFG.STEPS e) + 1)).map beta)).isSome)) ∧
  (∀ (s : State) (e : Eng),
  (∀ p : BitVec 7, ringFill s e p.toNat ≤ 64 →
    (ringFill s e (s.get (WR_PROD.PROD e)) ≤ ringFill s e p.toNat ∨ s.get (WR_STAT.STATE e) = wrIdle) →
    runs (.wrProdWrite e p) s fun t => t.get (WR_PROD.PROD e) = p.toNat ∧ t.get (WR_EVT.RING_ERR e) = s.get (WR_EVT.RING_ERR e)) ∧
  (∀ p : BitVec 7, 64 < ringFill s e p.toNat ∨
    (ringFill s e p.toNat < ringFill s e (s.get (WR_PROD.PROD e)) ∧ s.get (WR_STAT.STATE e) ≠ wrIdle) →
    runs (.wrProdWrite e p) s fun t => t.get (WR_EVT.RING_ERR e) = 1 ∧ t.get (WR_PROD.PROD e) = s.get (WR_PROD.PROD e)) ∧
  (∀ same, runs (.wrCntClr e same) s fun t => t.get (WR_CNT.PASSED e) = bits same 0 1 ∧ t.get (WR_CNT.FAILED e) = bits same 1 1 ∧
    t.get (WR_CNT.ABORTS e) = bits same 2 1) ∧
  (s.isSet (WR_STAT.ILK_OPEN e) = false → s.isSet (WR_STAT.ILK_HOLD e) = false → runs (.laserEnWrite e true) s fun t =>
    t.get (WR_CTRL.LASER_EN e) = 1) ∧
  (s.isSet (WR_STAT.ILK_OPEN e) = true ∨ s.isSet (WR_STAT.ILK_HOLD e) = true → s.notes = [] → runs (.laserEnWrite e true) s fun t => t = s) ∧
  (runs (.laserEnWrite e false) s fun t => t.get (WR_CTRL.LASER_EN e) = 0 ∧
    (s.get (WR_STAT.STATE e) ≠ wrIdle → t.get (WR_EVT.ABORT e) = 1 ∧ t.get (WR_STAT.GATE e) = 0)) ∧
  (runs (.ilkOpening e) s fun t => t.get (WR_CTRL.LASER_EN e) = 0 ∧ t.get (WR_STAT.ILK_OPEN e) = 1 ∧ t.get (WR_EVT.ILK e) = 1 ∧
    (s.get (WR_STAT.STATE e) ≠ wrIdle → t.get (WR_EVT.ABORT e) = 1 ∧ t.get (WR_STAT.GATE e) = 0 ∧
      t.get (WR_CNT.ABORTS e) = satInc 255 (s.get (WR_CNT.ABORTS e)))) ∧
  (s.isSet (WR_STAT.ILK_OPEN e) = true → runs (.ilkOpeningEnd e) s fun t =>
    t.get (WR_STAT.ILK_OPEN e) = 0 ∧ t.get (WR_STAT.ILK_HOLD e) = 1) ∧
  (s.isSet (WR_STAT.ILK_OPEN e) = false → runs (.ilkHoldExpire e) s fun t => t.get (WR_STAT.ILK_HOLD e) = 0) ∧
  (∀ c lv, s.isSet (WPLL_CTRL.ENABLE e) = true → s.get (WR_STAT.STATE e) = wrIdle → runs (.adipWordDecoded e none (some c) lv) s fun t =>
    t.get (ADIP_STAT.ADDR e) = c.cluster.toNat ∧ t.get (ADIP_STAT.LAYER e) = c.layer.toNat ∧ t.get (ADIP_STAT.VALID e) = 1) ∧
  (∀ lv, s.isSet (WPLL_CTRL.ENABLE e) = true → s.get (WR_STAT.STATE e) = wrIdle → runs (.adipWordDecoded e none none lv) s fun t =>
    t.get (ADIP_STAT.VALID e) = 0 ∧ t.get (WPLL_EVT.ADIP_ERR e) = 1) ∧
  (∀ a lv, s.isSet (WPLL_CTRL.ENABLE e) = false → s.notes = [] → runs (.adipWordDecoded e none a lv) s fun t => t = s) ∧
  (∀ c lv, s.isSet (WPLL_CTRL.ENABLE e) = true → s.get (WR_STAT.STATE e) = wrArmed → (adipTrack e (some c) s).eng[e].wr.adipIdx = some 0 → clWord c false = (ringDesc s e (s.get (WR_CONS.NEXT e))).addr →
    runs (.adipWordDecoded e none (some c) lv) s fun t => t.get (WR_STAT.STATE e) = wrWriting ∧ t.get (WR_STAT.GATE e) = 1 ∧
      t.get (WR_CONS.NEXT e) = (s.get (WR_CONS.NEXT e) + 1) % 128))

/-- A mark with more mismatches than SYNC_TOL changes nothing; in LOCKED a mark in the window is a candidate; in SEARCH consecutive marks
acquire after LOCK_N; at the window's close no candidate is a miss and the third in a row loses sync, a candidate at P is taken, one beside
it makes the flywheel provisional; a confirming mark returns it to LOCKED with KEPT counted (log 23). Rests on spec/03_read_channel.md (R83,
R84, R85, R86, R88). -/
def Obligations.Flywheel : Prop := ∀ (s : State) (e : Eng) (k : Chn),
  (∀ pos mism frame level ctr, s.get (SYNC_CFG.SYNC_TOL e k) < mism → s.notes = [] → runs (.syncMarkDetected e k pos mism frame level ctr) s fun t => t = s) ∧
  (∀ pos mism (frame : Fin 496) level ctr, chRuns s e k = true → s.eng[e].ch[k].dsp.out = false → mism ≤ s.get (SYNC_CFG.SYNC_TOL e k) →
    s.get (CH_STAT.FLY_STATE e k) = flyLocked → s.eng[e].ch[k].mark + frameBits ≤ pos + 3 → pos ≤ s.eng[e].ch[k].mark + frameBits + 3 →
    runs (.syncMarkDetected e k pos mism frame level ctr) s fun t => t.get (CH_STAT.FLY_STATE e k) = flyLocked ∧
      t.eng[e].ch[k].mark = s.eng[e].ch[k].mark ∧ t.eng[e].ch[k].cands = s.eng[e].ch[k].cands ++ [⟨pos, mism, frame.val⟩]) ∧
  (∀ pos mism (frame : Fin 496) level ctr, chRuns s e k = true → s.eng[e].ch[k].dsp.out = false → mism ≤ s.get (SYNC_CFG.SYNC_TOL e k) →
    s.get (CH_STAT.FLY_STATE e k) = flySearch → 0 < s.eng[e].ch[k].acq → pos = s.eng[e].ch[k].mark + frameBits →
    frame.val = s.eng[e].ch[k].frame + 1 → runs (.syncMarkDetected e k pos mism frame level ctr) s fun t =>
      t.eng[e].ch[k].mark = pos ∧ t.eng[e].ch[k].frame = frame.val ∧
      (max 1 (s.get (SYNC_CFG.LOCK_N e k)) ≤ s.eng[e].ch[k].acq + 1 →
        t.get (CH_STAT.FLY_STATE e k) = flyLocked ∧ t.get (CH_EVT.SYNC_ACQ e k) = 1) ∧
      (s.eng[e].ch[k].acq + 1 < max 1 (s.get (SYNC_CFG.LOCK_N e k)) →
        t.get (CH_STAT.FLY_STATE e k) = flySearch ∧ t.eng[e].ch[k].acq = s.eng[e].ch[k].acq + 1)) ∧
  (∀ addr, chRuns s e k = true → s.get (CH_STAT.FLY_STATE e k) = flyLocked →
    let p := s.eng[e].ch[k].mark + frameBits
    (chooseCand p s.eng[e].ch[k].cands = none → s.get (CH_STAT.MISS_RUN e k) < 2 → runs (.syncWindowClose e k (p + 3) addr) s fun t =>
      t.get (CH_STAT.FLY_STATE e k) = flyLocked ∧ t.get (CH_STAT.MISS_RUN e k) = s.get (CH_STAT.MISS_RUN e k) + 1 ∧
      t.eng[e].ch[k].mark = p ∧ t.get (SYNC_CNT.MISSED e k) = satInc 255 (s.get (SYNC_CNT.MISSED e k))) ∧
    (chooseCand p s.eng[e].ch[k].cands = none → 2 ≤ s.get (CH_STAT.MISS_RUN e k) → runs (.syncWindowClose e k (p + 3) addr) s fun t =>
      t.get (CH_STAT.FLY_STATE e k) = flySearch ∧ t.get (CH_EVT.SYNC_LOST e k) = 1 ∧
      t.get (SYNC_CNT.LOST e k) = satInc 255 (s.get (SYNC_CNT.LOST e k))) ∧
    (∀ c, chooseCand p s.eng[e].ch[k].cands = some c → c.pos = p → runs (.syncWindowClose e k (p + 3) addr) s fun t =>
      t.get (CH_STAT.FLY_STATE e k) = flyLocked ∧ t.get (CH_STAT.MISS_RUN e k) = 0 ∧ t.eng[e].ch[k].mark = p ∧ t.eng[e].ch[k].frame = c.frame) ∧
    (∀ c, chooseCand p s.eng[e].ch[k].cands = some c → c.pos ≠ p → runs (.syncWindowClose e k (p + 3) addr) s fun t =>
      t.get (CH_STAT.FLY_STATE e k) = flyProv ∧ t.eng[e].ch[k].mark = c.pos ∧ t.eng[e].ch[k].provOld = p)) ∧
  (∀ pos mism (frame : Fin 496) level ctr, chRuns s e k = true → s.eng[e].ch[k].dsp.out = false → mism ≤ s.get (SYNC_CFG.SYNC_TOL e k) →
    s.get (CH_STAT.FLY_STATE e k) = flyProv → pos = s.eng[e].ch[k].mark + frameBits → runs (.syncMarkDetected e k pos mism frame level ctr) s fun t =>
      t.get (CH_STAT.FLY_STATE e k) = flyLocked ∧ t.get (SYNC_CNT.KEPT e k) = satInc 255 (s.get (SYNC_CNT.KEPT e k)) ∧ t.eng[e].ch[k].mark = pos)

/-- A decoded cluster that a chain observed whole is reported in DEC_STAT and DEC_EDC with the erasures that its flags give, a failed one
outside seam hold with CLUSTER_FAIL; chain enable and disable and counter clears (none on the spare chain in a session), replay arming,
start, abort and passes, with the feedback of the codewords known, act as the spec says; the wobble PLL (none on BD-ROM)'s lock, loss and
resume set its flags, suspend steering and put timing-recovery chains to fallback; a capture is armed, triggered by its selected cause and
ended (log 13). A row that cannot act in the present state leaves the state as it is: the model's choice (log 4). Rests on
spec/03_read_channel.md (R75, R76, R77, R84, R89, R92, R93, R94, R95, R98, R99, R100, R101); spec/06_retry_and_temper.md (R167). -/
def Obligations.DecodingWobbleAndCapture : Prop :=
  (∀ (s : State) (e : Eng),
  (∀ (k : Chn) (d : Decoded), decodes s e k = true →
    let c := s.eng[e].ch[k]
    let shown (f : ClFlags) (t : State) : Prop :=
      let v := decodeView s e k d { fl := flagsOf s e k f, known := [], feed := false, lost := c.dsp.out, replay := none }
      t.rd (DEC_STAT.reg e k) = v.word ∧ t.rd (DEC_EDC.reg e k) = d.edc ∧
      (v.ok = false → c.seamHold = false → t.get (CH_EVT.CLUSTER_FAIL e k) = 1)
    (495 ≤ c.frame → c.obs = .whole → runs (.clusterDecoded e k d) s fun t => shown c.cur t ∧ t.eng[e].ch[k].obs = .none) ∧
    (c.frame < 495 → c.doneObs = .whole → runs (.clusterDecoded e k d) s fun t => shown c.done t ∧ t.eng[e].ch[k].doneObs = .none)) ∧
  (∀ k, ¬(tmpActive s e = true ∧ k = 4) → runs (.chainEnable e k) s fun t => t.get (CH_CTRL.ENABLE e k) = 1 ∧ t.eng = s.eng) ∧
  (tmpActive s e = true → runs (.chainEnable e 4) s fun t => t = s) ∧
  (∀ k, runs (.chainDisable e k) s fun t => t.get (CH_CTRL.ENABLE e k) = 0 ∧ t.get (CH_STAT.FLY_STATE e k) = flySearch ∧
    t.eng[e].ch[k].cands = [] ∧ t.eng[e].ch[k].obs = .none) ∧
  (∀ k same, ¬(tmpActive s e = true ∧ k = 4) → runs (.chCntClr e k same) s fun t => t.get (SYNC_CNT.KEPT e k) = bits same 0 1 ∧ t.get (SYNC_CNT.RESTORED e k) = bits same 1 1 ∧
    t.get (SYNC_CNT.MISSED e k) = bits same 2 1 ∧ t.get (SYNC_CNT.LOST e k) = bits same 3 1) ∧
  (∀ k, runs (.rplCapArm e k) s fun t => t.get (RPL_CTRL.CAP_ARM e k) = 1 ∧ t.get (RPL_CTRL.CAPTURED e k) = 0) ∧
  (s.isSet (CH_CTRL.REPLAY e 4) = true → s.isSet (CH_STAT.REPLAY_BUSY e 4) = false → runs (.rplPlay e) s fun t =>
    t.get (CH_STAT.REPLAY_BUSY e 4) = 1 ∧ t.get (RPL_CTRL.PASS e 4) = 0) ∧
  (s.isSet (CH_CTRL.REPLAY e 4) = false ∨ s.isSet (CH_STAT.REPLAY_BUSY e 4) = true → runs (.rplPlay e) s fun t => t = s) ∧
  (runs (.rplAbort e) s fun t => t.get (CH_STAT.REPLAY_BUSY e 4) = 0 ∧ t.get (CH_EVT.REPLAY_DONE e 4) = s.get (CH_EVT.REPLAY_DONE e 4)) ∧
  (∀ d : Decoded, s.isSet (CH_STAT.REPLAY_BUSY e 4) = true → (∀ a, s.eng[e].att = some a → a.replay = true) →
    let n := s.get (RPL_CTRL.PASS e 4)
    let c := (replayDetect e d s).eng[e].ch[(4 : Chn)]
    let v := decodeView (replayDetect e d s) e 4 d
      { fl := fun _ => c.cur, known := c.known, feed := decide (0 < n), lost := false, replay := some n }
    ((v.ok = true ∨ iterMax s e ≤ n + 1) → runs (.replayPassDone e d) s fun t =>
      t.get (CH_STAT.REPLAY_BUSY e 4) = 0 ∧ t.get (CH_EVT.REPLAY_DONE e 4) = 1 ∧ t.rd (DEC_STAT.reg e 4) = v.word) ∧
    (v.ok = false → n + 1 < iterMax s e → runs (.replayPassDone e d) s fun t =>
      t.get (CH_STAT.REPLAY_BUSY e 4) = 1 ∧ t.get (RPL_CTRL.PASS e 4) = n + 1 ∧ t.eng[e].ch[(4 : Chn)].known = v.ldc.map Prod.fst))) ∧
  (∀ (s : State) (e : Eng),
  (∀ fb : BitVec 24, s.isSet (WPLL_CTRL.ENABLE e) = true → romIn s e = false → runs (.wpllLock e fb) s fun t => t.get (WPLL_STAT.LOCK e) = 1 ∧
    t.get (WPLL_STAT.HOLDOVER e) = 0 ∧ t.get (WPLL_STAT.FB e) = fb.toNat ∧ t.get (WPLL_EVT.LOCK e) = 1) ∧
  (∀ fb, romIn s e = true → runs (.wpllLock e fb) s fun t => t = s) ∧
  (s.isSet (WPLL_STAT.LOCK e) = true → runs (.wpllLockLost e) s fun t => t.get (WPLL_STAT.LOCK e) = 0 ∧ t.get (WPLL_STAT.HOLDOVER e) = 1 ∧
    t.get (WPLL_EVT.LOCK_LOST e) = 1 ∧ (s.isSet (HL_RATE.STEERED e) = true → t.get (WPLL_STAT.STEER_SUSP e) = 1) ∧
    (∀ k : Chn, s.isSet (CH_CTRL.TR_MODE e k) = true → t.get (CH_STAT.FALLBACK e k) = 1 ∧ t.get (CH_EVT.FALLBACK e k) = 1) ∧
    (s.get (WR_STAT.STATE e) ≠ wrIdle → t.get (WR_EVT.ABORT e) = 1 ∧ t.get (WR_STAT.GATE e) = 0)) ∧
  (s.isSet (WPLL_STAT.LOCK e) = true → runs (.wpllResume e) s fun t => t.get (WPLL_STAT.STEER_SUSP e) = 0 ∧
    ∀ k : Chn, t.get (CH_STAT.FALLBACK e k) = 0) ∧
  (s.isSet (WPLL_STAT.LOCK e) = false → runs (.wpllResume e) s fun t => t = s) ∧
  (∀ v, runs (.capCtrlWrite e v) s fun t => t.get (CAP_CTRL.ARM e) = bits v 0 1 ∧ t.get (CAP_CTRL.CHAIN e) = bits v 1 3 ∧
    t.get (CAP_CTRL.POINT e) = bits v 4 3 ∧ t.get (CAP_CTRL.TRIG e) = bits v 8 2 ∧ t.get (CAP_CTRL.PRE e) = bits v 10 6 ∧
    (s.isSet (CAP_CTRL.ARM e) = true → t.eng[e].cap = []) ∧ (v.getLsbD 0 = true → t.rd (CAP_STAT.reg e) = 0#32) ∧
    t.eng[e].capTrig = (v.getLsbD 0 && bits v 8 2 == 0)) ∧
  (∀ pos, s.eng[e].capTrig = false → runs (.capTrigger e pos) s fun t => t = s) ∧
  (∀ pos : BitVec 16, s.isSet (CAP_CTRL.ARM e) = true → s.eng[e].capTrig = true → s.isSet (CAP_STAT.TRIGGERED e) = false → runs (.capTrigger e pos) s fun t =>
    t.get (CAP_STAT.TRIGGERED e) = 1 ∧ t.get (CAP_STAT.TRIG_POS e) = pos.toNat) ∧
  (∀ xs, s.isSet (CAP_CTRL.ARM e) = true → s.isSet (CAP_STAT.TRIGGERED e) = true → runs (.capDone e xs) s fun t =>
    t.get (CAP_STAT.DONE e) = 1 ∧ t.get (CAP_CTRL.ARM e) = 0 ∧ t.eng[e].cap = capCells (s.get (CAP_CTRL.POINT e)) 0 (xs.take 65536)))

/-- RUN opens a run from the first cluster, CLOSE closes it, the crossing opens the window, its close runs, jumps or ends the run, settling ends
the seam hold once the tracking error has stayed within its threshold for N servo sets, a late settling is reported; a freed slot leaves the
used set, a wrong one sets BAD_FREE; the stitch decoder's first job completes; a ladder skip ends its cluster, or marks the attempt under
way; an attempt takes the cluster chosen, sets RTY_STAT, opens its seam run from the angle 1.0 degree before the run-in, and ends when the
cluster is read (log 26). A row that cannot act in the present state leaves the state as it is: the model's choice (log 4). Rests on
spec/04_seam_reading.md (R104, R105, R106, R110, R111, R112, R113, R118, R122); spec/06_retry_and_temper.md (R147, R149, R150). -/
def Obligations.SeamRunsAndLadder : Prop :=
  (∀ (s : State) (e : Eng),
  (s.get (SEAM_STAT.STATE e) = seamIdle → seamRunOk s e = true → runs (.seamRun e) s fun t => t.get (SEAM_STAT.STATE e) = seamOpening ∧
    t.get (SEAM_CTRL.RUN e) = 1 ∧ t.get (SEAM_STAT.REV e) = 0 ∧ t.get (RAS_NEXT.VALID e) = 1 ∧
    t.get (RAS_NEXT.CLUSTER e) = s.get (RAS_FIRST.CLUSTER e) ∧ t.get (RAS_NEXT.LAYER e) = s.get (RAS_FIRST.LAYER e)) ∧
  (runs (.seamClose e) s fun t => t.get (SEAM_CTRL.RUN e) = 0 ∧
    t.get (SEAM_STAT.STATE e) = if s.get (SEAM_STAT.STATE e) = seamOpening ∨ s.get (SEAM_STAT.STATE e) = seamRunning then seamClosing
      else s.get (SEAM_STAT.STATE e)) ∧
  (s.get (SEAM_STAT.STATE e) ≠ seamIdle → s.isSet (SPN_STAT.ANG_VALID e) = true → runs (.seamCrossing e) s fun t =>
    t.get (SEAM_STAT.IN_WIN e) = 1 ∧ t.get (SEAM_STAT.REV e) = (s.get (SEAM_STAT.REV e) + 1) % 65536 ∧ t.eng[e].seam.openWin = true ∧
    (s.get (SEAM_STAT.STATE e) = seamOpening → t.get (SEAM_EVT.OPENED e) = 1 ∧ (s.eng[e].att = none → t.get (SLG_CTRL.TPR e) = 4))) ∧
  (s.isSet (SPN_STAT.ANG_VALID e) = false → s.notes = [] → runs (.seamCrossing e) s fun t => t = s) ∧
  (s.eng[e].seam.openWin = true → s.get (SEAM_STAT.STATE e) = seamOpening → runs (.seamWindowClose e false) s fun t =>
    t.get (SEAM_STAT.STATE e) = seamRunning ∧ t.get (SEAM_STAT.IN_WIN e) = 0 ∧ t.eng[e].seam.openWin = false) ∧
  (s.eng[e].seam.openWin = true → s.get (SEAM_STAT.STATE e) = seamRunning → runs (.seamWindowClose e false) s fun t =>
    t.get (SEAM_STAT.STATE e) = seamRunning ∧ t.get (SEAM_STAT.JUMPING e) = 1) ∧
  (s.eng[e].seam.openWin = true → s.get (SEAM_STAT.STATE e) = seamOpening ∨ s.get (SEAM_STAT.STATE e) = seamRunning →
    runs (.seamWindowClose e true) s fun t => t.get (SEAM_STAT.STATE e) = seamClosing ∧ t.get (SEAM_CTRL.RUN e) = 0 ∧
      t.get (SEAM_STAT.IN_WIN e) = 0) ∧
  (∀ b, s.eng[e].seam.openWin = true → s.get (SEAM_STAT.STATE e) = seamClosing → s.eng[e].seam.closeCross = true →
    runs (.seamWindowClose e b) s fun t => t.get (SEAM_STAT.STATE e) = seamIdle ∧ t.get (SEAM_EVT.CLOSED e) = 1 ∧
      t.get (SEAM_CTRL.RUN e) = 0) ∧
  (∀ js, seamQuiet s e = false → runs (.seamSettled e js) s fun t => t = s) ∧
  (∀ js, s.isSet (SEAM_STAT.JUMPING e) = true → seamQuiet s e = true → runs (.seamSettled e js) s fun t => t.get (SEAM_STAT.JUMPING e) = 0 ∧
    t.get (SEAM_STAT.IN_WIN e) = 0 ∧ t.get (SEAM_JS.LAST e) = min js 0xFFF ∧ t.get (SEAM_JS.MAX e) = max (min js 0xFFF) (s.get (SEAM_JS.MAX e)) ∧
    ∀ j : Spot, t.get (CH_STAT.FLY_STATE e (delivering s e j)) = flySearch ∧ t.eng[e].ch[delivering s e j].seamHold = false) ∧
  (∀ js, s.isSet (SEAM_STAT.JUMPING e) = true → runs (.seamLate e js) s fun t => t.get (SEAM_EVT.LATE e) = 1 ∧
    t.get (SEAM_STAT.JUMPING e) = 1 ∧ t.get (SEAM_JS.LAST e) = min js 0xFFF) ∧
  (∀ same, runs (.seamCntClr e same) s fun t => t.get (RAS_CNT.DUP e) = bits same 0 1 ∧ t.get (RAS_CNT.STITCHED e) = bits same 1 1 ∧
    t.get (RAS_CNT.MISSING e) = bits same 2 1 ∧ t.get (RAS_CNT.GAP e) = bits same 3 1 ∧ t.get (SEAM_JS.MAX e) = 0)) ∧
  (∀ (s : State) (e : Eng),
  (∀ i : Fin 64, i.val ∈ s.eng[e].seam.used → runs (.rasFree e i) s fun t => i.val ∉ t.eng[e].seam.used ∧
    (∀ j, j ≠ i.val → (j ∈ t.eng[e].seam.used ↔ j ∈ s.eng[e].seam.used)) ∧
    t.get (RAS_STAT.SLOTS_USED e) = t.eng[e].seam.used.length % 128) ∧
  (∀ i : Fin 64, i.val ∉ s.eng[e].seam.used → runs (.rasFree e i) s fun t => t.get (RAS_STAT.BAD_FREE e) = 1 ∧ t.eng = s.eng) ∧
  (∀ d j rest, s.eng[e].seam.jobs = j :: rest → runs (.stitchDecoded e d) s fun t => t.eng[e].seam.jobs = rest ∧
    t.get (RAS_CNT.STITCHED e) = satInc 255 (s.get (RAS_CNT.STITCHED e)) ∧
    j.head ∉ t.eng[e].seam.busy ∧ j.tail ∉ t.eng[e].seam.busy) ∧
  (∀ c : ClAddr, (s.eng[e].rty.any fun i => i.addr == c) = true → (∀ a, s.eng[e].att = some a → a.item.addr ≠ c) → runs (.ladderSkip e c) s fun t =>
    (t.eng[e].rty.any fun i => i.addr == c) = false ∧ t.get (RTY_CNT.COUNT e 7) = satInc 65535 (s.get (RTY_CNT.COUNT e 7)) ∧
    ∃ m, t.ladderMsgs = s.ladderMsgs ++ [m] ∧ m.e = e ∧ m.addr = c ∧ m.rung = 7) ∧
  (∀ a, s.eng[e].att = some a → (s.eng[e].rty.any fun i => i.addr == a.item.addr) = true → runs (.ladderSkip e a.item.addr) s fun t =>
    t.eng[e].att = some { a with skip := true } ∧ t.eng[e].rty = s.eng[e].rty) ∧
  (∀ (i : LadderItem) angle first, s.eng[e].att = none → ladderNext s e = some i → ladderPaused s e = false →
    s.get (SEAM_STAT.STATE e) = seamIdle → writing s e = false → rungSpare i.rung = false →
    runs (.ladderAttempt e angle first) s fun t => t.get (RTY_STAT.RUNG e) = i.rung % 8 ∧ t.get (RTY_STAT.ATTEMPT e) = i.attempt % 8 ∧
      ∃ a, t.eng[e].att = some a ∧ a.item = i ∧ a.spot = attemptSpot i) ∧
  (∀ (a : Attempt) (angle : Fin 3600) first, s.eng[e].att = some a → a.running = false → a.replay = false → attemptReady s e a = true →
    ladderPaused s e = false → s.get (SEAM_STAT.STATE e) = seamIdle → writing s e = false →
    (a.spot ≠ 0 → first.layer = a.item.addr.layer ∧ first.cluster.toNat ≤ a.item.addr.cluster.toNat) →
    (s.get (RAS_BASE.BASE e) + 1) * 2 ^ 23 ≤ ddrBytes s → runs (.ladderAttempt e angle first) s fun t =>
      t.get (SEAM_STAT.STATE e) = seamOpening ∧ t.get (SEAM_CTRL.RUN e) = 1 ∧ t.get (RTY_STAT.ACTIVE e) = 1 ∧
      t.get (SEAM_CFG.ANGLE e) = (angle.val + 3590) % 3600 ∧
      t.get (RAS_FIRST.CLUSTER e) = (if a.spot = 0 then a.item.addr else first).cluster.toNat ∧
      t.get (RAS_LAST.CLUSTER e) = a.item.addr.cluster.toNat ∧ t.eng[e].att = some { a with running := true }) ∧
  (∀ a b, s.eng[e].att = some a → a.running = true → a.replay = false → a.read.contains a.item.addr = true →
    s.eng[e].seam.openWin = true → s.get (SEAM_STAT.STATE e) = seamClosing → s.eng[e].seam.closeCross = true →
    runs (.seamWindowClose e b) s fun t => t.eng[e].att = none ∧ (t.eng[e].rty.any fun i => i.addr == a.item.addr) = false) ∧
  (s.eng[e].rty = [] → s.eng[e].att = none → s.notes = [] → ∀ angle first, runs (.ladderAttempt e angle first) s fun t => t = s))

/-- A write of RUN = 1 with LAST below FIRST, with FIRST and LAST on different layers, or with a region that reaches past installed memory
leaves the state as it is. States R123. -/
def Obligations.SeamRunDiscarded : Prop := ∀ (s : State) (e : Eng),
  s.get (RAS_LAST.CLUSTER e) < s.get (RAS_FIRST.CLUSTER e) ∨ s.get (RAS_FIRST.LAYER e) ≠ s.get (RAS_LAST.LAYER e) ∨
    s.get GLB_DDR_CFG.CAP * 2 ^ 30 < (s.get (RAS_BASE.BASE e) + 1) * 2 ^ 23 →
  runs (.seamRun e) s fun t => t = s

/-- A session starts when R164 permits and the spare chain is free, is rejected with START_REJ otherwise; it shadows, takes over, calibrates
twice, accepts (GEN, ACCEPTED) or restores (REJECTED), hands over and back only where both chains are in LOCKED on an accepted mark (the
claim of the same cycle taking the chain), gets stuck or is aborted as R165 and R166 give, an abandoned one only once; the frequency
measurement reports PPM (its rounding free, log 11); ADC map and trim writes are taken outside a session, a map without eight slices being
refused with BAD_WRITE. A row that cannot act in the present state leaves the state as it is: the model's choice (log 4). Rests on
spec/06_retry_and_temper.md (R156, R157, R158, R159, R160, R162, R163, R164, R165, R166, R167). -/
def Obligations.TemperSessions : Prop :=
  (∀ (s : State) (e : Eng),
  (tmpActive s e = false → tmpStartOk s e (tmpTarget s e) = true → spareFree s e = true → runs (.tmpStart e) s fun t =>
    t.get (TMP_STAT.STATE e) = tmpShadow ∧ t.get (TMP_STAT.TARGET e) = tmpTarget s e ∧
    t.get (CLAIM_RES.OWNER (spareRes e)) = idTemper e ∧
    t.get (CH_CTRL.SPOT e 4) = if tmpTarget s e < 4 then tmpTarget s e else 0) ∧
  (tmpActive s e = false → tmpStartOk s e (tmpTarget s e) = false → runs (.tmpStart e) s fun t => t.get (TMP_EVT.START_REJ e) = 1 ∧
    t.get (TMP_STAT.STATE e) = tmpIdle ∧ t.eng = s.eng) ∧
  (tmpActive s e = false → tmpStartOk s e (tmpTarget s e) = true → spareFree s e = false → runs (.tmpStart e) s fun t =>
    t.get (TMP_EVT.START_REJ e) = 1 ∧ t.eng[e].tmp.retry = true ∧ t.get (CLAIM_RES.LAST_REQ (spareRes e)) = idTemper e) ∧
  (tmpActive s e = true → runs (.tmpStart e) s fun t => t = s) ∧
  (s.isSet (TMP_CTRL.EN e) = true → tmpActive s e = false → tmpStartOk s e s.eng[e].tmp.rotation = true → spareFree s e = true →
    runs (.temperPeriod e) s fun t => t.get (TMP_STAT.STATE e) = tmpShadow ∧ t.eng[e].tmp.rotation = (s.eng[e].tmp.rotation + 1) % 5 ∧
      t.get (TMP_STAT.TARGET e) = s.eng[e].tmp.rotation % 8) ∧
  (s.isSet (TMP_CTRL.EN e) = false → runs (.temperPeriod e) s fun t => t = s) ∧
  (s.eng[e].tmp.retry = true → tmpActive s e = false → tmpStartOk s e s.eng[e].tmp.retryTarget = true → spareFree s e = true →
    runs (.temperRetryDelay e) s fun t => t.get (TMP_STAT.STATE e) = tmpShadow ∧ t.get (TMP_STAT.TARGET e) = s.eng[e].tmp.retryTarget % 8) ∧
  (tmpActive s e = true → s.get (TMP_STAT.STATE e) ≠ tmpAbandon → s.get (TMP_STAT.DELIV e) = 4 → runs (.tmpAbort e) s fun t => t.get (TMP_STAT.STATE e) = tmpIdle ∧
    t.get (TMP_STAT.LAST_RES e) = 7 ∧ t.get (TMP_CNT.ENDED e) = satInc 255 (s.get (TMP_CNT.ENDED e)) ∧
    t.get (CLAIM_RES.OWNER (spareRes e)) = if s.isSet (CLAIM_RES.PEND (spareRes e)) then idEsq e else 0x3F) ∧
  (s.get (TMP_STAT.STATE e) = tmpAbandon → runs (.tmpAbort e) s fun t => t = s) ∧
  (tmpActive s e = true → s.get (TMP_STAT.STATE e) ≠ tmpAbandon → s.get (TMP_STAT.DELIV e) ≠ 4 →
    s.eng[e].ch[(4 : Chn)].seamHold = false → runs (.tmpAbort e) s fun t =>
    t.get (TMP_STAT.STATE e) = tmpAbandon ∧ t.get (TMP_STAT.LAST_RES e) = 7 ∧ t.eng[e].tmp.forced = true) ∧
  (∀ same, runs (.tmpCntClr e same) s fun t => t.get (TMP_CNT.ACCEPTED e) = bits same 0 1 ∧ t.get (TMP_CNT.REJECTED e) = bits same 1 1 ∧
    t.get (TMP_CNT.ENDED e) = bits same 2 1)) ∧
  (∀ (s : State) (e : Eng),
  (s.get (TMP_STAT.STATE e) = tmpShadow → runs (.temperMatch e) s fun t =>
    t.get (TMP_STAT.STATE e) = if s.get (TMP_STAT.TARGET e) < 4 then tmpTakeover else tmpCalib) ∧
  (s.get (TMP_STAT.STATE e) = tmpVerify ∨ s.get (TMP_STAT.STATE e) = tmpRestore → runs (.temperMatch e) s fun t =>
    (s.get (TMP_STAT.TARGET e) < 4 → t.get (TMP_STAT.STATE e) = tmpHandback) ∧
    (4 ≤ s.get (TMP_STAT.TARGET e) → t.get (TMP_STAT.STATE e) = tmpIdle ∧ t.get (TMP_EVT.DONE e) = 1)) ∧
  (s.get (TMP_STAT.STATE e) = tmpTakeover → s.get (TMP_STAT.DELIV e) = 4 → syncBoundary s e (targetChain (s.get (TMP_STAT.TARGET e))) 4 = true →
    runs (.spotHandover e false) s fun t =>
    let c := s.eng[e].ch[targetChain (s.get (TMP_STAT.TARGET e))]
    t.get (TMP_STAT.DELIV e) = s.get (TMP_STAT.TARGET e) ∧ t.get (TMP_EVT.TAKEOVER e) = 1 ∧
    (s.eng[e].tmp.outgoing = none → c.obs ≠ .whole ∨ c.frame = 0 → t.get (TMP_STAT.STATE e) = tmpCalib)) ∧
  (∀ claim, s.get (TMP_STAT.STATE e) = tmpHandback → syncBoundary s e (targetChain (s.get (TMP_STAT.TARGET e))) 4 = true →
    runs (.spotHandover e claim) s fun t => t.get (TMP_STAT.STATE e) = tmpIdle ∧
    t.get (TMP_STAT.DELIV e) = 4 ∧ t.get (TMP_EVT.DONE e) = 1 ∧ t.get (CH_CTRL.SPOT e 4) = 4 ∧
    t.get (CLAIM_RES.OWNER (spareRes e)) = if claim || s.isSet (CLAIM_RES.PEND (spareRes e)) then idEsq e else 0x3F) ∧
  (syncBoundary s e (targetChain (s.get (TMP_STAT.TARGET e))) 4 = false → runs (.spotHandover e false) s fun t => t = s) ∧
  (s.get (TMP_STAT.STATE e) = tmpVerify → runs (.temperConvLimit e) s fun t => t.get (TMP_STAT.STATE e) = tmpRestore) ∧
  (s.get (TMP_STAT.STATE e) = tmpRestore → runs (.temperConvLimit e) s fun t => t.get (TMP_STAT.STATE e) = tmpStuck ∧
    t.get (TMP_STAT.LAST_RES e) = 8 ∧ t.get (TMP_EVT.STUCK e) = 1) ∧
  (s.get (TMP_STAT.STATE e) = tmpShadow → s.get (TMP_STAT.DELIV e) = 4 → runs (.temperConvLimit e) s fun t =>
    t.get (TMP_STAT.STATE e) = tmpIdle ∧ t.get (TMP_STAT.LAST_RES e) = 5) ∧
  (∀ w, s.get (TMP_STAT.STATE e) = tmpCalib → runs (.temperWindowDone e w) s fun t => t.eng[e].tmp.run1 = s.eng[e].tmp.run1 ++ [w] ∧
    t.get (TMP_STAT.STATE e) = if 10 ≤ s.eng[e].tmp.run1.length then tmpRepeat else tmpCalib) ∧
  (∀ w, s.get (TMP_STAT.STATE e) = tmpRepeat → 10 ≤ s.eng[e].tmp.run2.length → runs (.temperWindowDone e w) s fun t =>
    let a := targetChain (s.get (TMP_STAT.TARGET e))
    let agree := runsAgree s e a s.eng[e].tmp.run1 (s.eng[e].tmp.run2 ++ [w])
    ((agree && notWorse s e w) = true → t.get (TMP_STAT.STATE e) = tmpVerify ∧ t.get (TMP_STAT.LAST_RES e) = 1 ∧
      t.get (TMP_CNT.ACCEPTED e) = satInc 65535 (s.get (TMP_CNT.ACCEPTED e)) ∧ t.get (TMP_STAT.GEN e) = (s.get (TMP_STAT.GEN e) + 1) % 256) ∧
    ((agree && notWorse s e w) = false → t.get (TMP_STAT.STATE e) = tmpRestore ∧ t.get (TMP_STAT.LAST_RES e) = (if agree then 3 else 2) ∧
      t.get (TMP_CNT.REJECTED e) = satInc 255 (s.get (TMP_CNT.REJECTED e)))) ∧
  (∀ n : Nat,
    let v := divFree (((n : Int) * 400 - s.get (HL_RATE.FW e) * 1728) * 16000000) (s.get (HL_RATE.FW e) * 1728)
    runs (.temperFreqMeasure e n) s fun t => t.get (TMP_FREQ.VALID e) = 1 ∧ t.getInt (TMP_FREQ.PPM e) = clampInt (-32768) 32767 v ∧
      (1600 < v.natAbs → t.get (TMP_EVT.FREQ_ERR e) = 1)) ∧
  (∀ a v, tmpActive s e = false → popcount 10 v.toNat = 8 → runs (.tmpAdcmapWrite e a v) s fun t =>
    t.get (TMP_ADCMAP.MAP e a) = v.toNat % 1024) ∧
  (∀ a v, tmpActive s e = false → popcount 10 v.toNat ≠ 8 → runs (.tmpAdcmapWrite e a v) s fun t =>
    t.get (TMP_EVT.BAD_WRITE e) = 1 ∧ t.get (TMP_ADCMAP.MAP e a) = s.get (TMP_ADCMAP.MAP e a)) ∧
  (∀ a i v, tmpActive s e = false → runs (.tmpAdctrimWrite e a i v) s fun t => t.rd (TMP_ADCTRIM.reg e a i) = v))

/-- Start enters CATCH from OFF; coast turns the bridge off; a change of direction while running brakes and restarts; a target is bounded by
10,000; the end of braking halts or aligns again; AT_SPEED is reported at the target; loss of synchronism after LOS_N bad periods re-catches
or faults after three in 10 s; driver fault, over-current of two periods fault with their causes; a PWM period aligns, forces or observes
the rotor angle and speed by the observer, and keeps the command within IMAX (arithmetic: log 18). A row that cannot act in the present
state leaves the state as it is: the model's choice (log 4). Rests on spec/09_spindle_and_motion.md (R215, R217, R218, R219, R221, R222,
R223, R224, R225, R230). -/
def Obligations.SpindleStartsStopsAndFaults : Prop :=
  (∀ (s : State) (e : Eng),
  (s.get (SPN_STAT.STATE e) = spnOff → runs (.spnStart e) s fun t => t.get (SPN_CTRL.EN e) = 1 ∧ t.get (SPN_STAT.STATE e) = spnCatch ∧
    t.get (SPN_STAT.ANG_VALID e) = 0 ∧ t.get (SPN_STAT.AT_SPEED e) = 0 ∧ t.eng[e].spn.gate = 0) ∧
  (s.get (SPN_STAT.STATE e) ≠ spnOff → runs (.spnStart e) s fun t => t.get (SPN_CTRL.EN e) = 1 ∧
    t.get (SPN_STAT.STATE e) = s.get (SPN_STAT.STATE e) ∧ t.eng = s.eng) ∧
  (runs (.spnCoast e) s fun t => t.get (SPN_CTRL.EN e) = 0 ∧ t.get (SPN_STAT.STATE e) = spnOff ∧ t.eng[e].spn.gate = 0 ∧
    t.get (SPN_STAT.ANG_VALID e) = 0 ∧ t.get (SPN_STAT.AT_SPEED e) = 0 ∧ t.get (SPN_STAT.ZERO_VEC e) = 0) ∧
  (∀ dir, (s.isSet (SPN_CTRL.DIR e) != dir) = true → s.get (SPN_STAT.STATE e) = spnRun ∨ s.get (SPN_STAT.STATE e) = spnBrake →
    runs (.spnDirWrite e dir) s fun t => t.isSet (SPN_CTRL.DIR e) = dir ∧ t.get (SPN_STAT.STATE e) = spnBrake ∧ t.eng[e].spn.restart = true) ∧
  (∀ dir, (s.isSet (SPN_CTRL.DIR e) != dir) = false ∨ (s.get (SPN_STAT.STATE e) ≠ spnRun ∧ s.get (SPN_STAT.STATE e) ≠ spnBrake) →
    runs (.spnDirWrite e dir) s fun t => t.isSet (SPN_CTRL.DIR e) = dir ∧ t.get (SPN_STAT.STATE e) = s.get (SPN_STAT.STATE e) ∧ t.eng = s.eng) ∧
  (∀ rpm : BitVec 14, runs (.spnTargetWrite e rpm) s fun t => t.get (SPN_SPD.TARGET e) = min rpm.toNat 10000 ∧
    t.get (SPN_STAT.AT_SPEED e) = 0 ∧ t.get (SPN_STAT.STATE e) =
      if s.get (SPN_STAT.STATE e) = spnHalted ∧ rpm.toNat ≠ 0 then spnCatch else s.get (SPN_STAT.STATE e)) ∧
  (s.get (SPN_STAT.STATE e) = spnBrake → s.eng[e].spn.restart = false → runs (.spnBrakeDone e) s fun t =>
    t.get (SPN_STAT.STATE e) = spnHalted ∧ t.get (SPN_EVT.HALTED e) = 1 ∧ t.eng[e].spn.gate = 0) ∧
  (s.get (SPN_STAT.STATE e) = spnBrake → s.eng[e].spn.restart = true → runs (.spnBrakeDone e) s fun t =>
    t.get (SPN_STAT.STATE e) = spnAlign ∧ t.eng[e].spn.restart = false ∧ t.eng[e].spn.gate = 1) ∧
  (s.get (SPN_STAT.STATE e) ≠ spnBrake → runs (.spnBrakeDone e) s fun t => t = s)) ∧
  (∀ (s : State) (e : Eng),
  (s.get (SPN_STAT.STATE e) = spnRun → s.getInt (SPN_SPEED.REF e) = s.get (SPN_SPD.TARGET e) → spnNear s e = true →
    runs (.spnAtSpeed e) s fun t => t.get (SPN_STAT.AT_SPEED e) = 1 ∧ t.get (SPN_EVT.AT_SPEED e) = 1 ∧ t.eng[e].spn.since = none) ∧
  (s.get (SPN_STAT.STATE e) = spnRun ∨ s.get (SPN_STAT.STATE e) = spnBrake → max 1 (s.get (SPN_OBS.LOS_N e)) ≤ s.eng[e].spn.bad →
    let recent := (s.eng[e].spn.losTimes.filter fun t => decide (s.us < t + 10000000)).length + 1
    runs (.spnLossOfSync e) s fun t => t.get (SPN_EVT.LOS e) = 1 ∧ t.get (SPN_STAT.ANG_VALID e) = 0 ∧ t.eng[e].spn.gate = 0 ∧
      (s.isSet (SPN_CTRL.RECATCH e) = true → recent < 3 → t.get (SPN_STAT.STATE e) = spnCatch) ∧
      (s.isSet (SPN_CTRL.RECATCH e) = false ∨ 3 ≤ recent → t.get (SPN_STAT.STATE e) = spnFaultSt ∧ t.get (SPN_STAT.FCAUSE e) = 4 ∧
        t.get (SPN_EVT.FAULT e) = 1)) ∧
  (s.eng[e].spn.bad < max 1 (s.get (SPN_OBS.LOS_N e)) → runs (.spnLossOfSync e) s fun t => t = s) ∧
  (runs (.spnDriverFault e) s fun t => t.get (SPN_STAT.STATE e) = spnFaultSt ∧ t.get (SPN_STAT.FCAUSE e) = 1 ∧ t.get (SPN_EVT.FAULT e) = 1 ∧
    t.get (SPN_STAT.AT_SPEED e) = 0 ∧ t.eng[e].spn.gate = 0 ∧
    t.out = s.out ++ (if s.isSet (SPN_EVT.FAULT e).enable then [.irq (SPN_EVT.FAULT e)] else []) ++ [.sup (.spn e 2)]) ∧
  (∀ m, s.eng[e].spn.gate ≠ 0 → overCurrent s e m = true → s.eng[e].spn.oc = true → runs (.spnPwmPeriod e m) s fun t =>
    t.get (SPN_STAT.STATE e) = spnFaultSt ∧ t.get (SPN_STAT.FCAUSE e) = 2 ∧ t.eng[e].spn.gate = 0) ∧
  (∀ m, s.eng[e].spn.gate = 0 ∨ overCurrent s e m = false ∨ s.eng[e].spn.oc = false → runs (.spnPwmPeriod e m) s fun t =>
    let o := observe s e (alphaBeta s e m)
    let speed := omegaRpm s e o.omega
    t.eng[e].spn.oc = overCurrent s e m ∧
    (s.get (SPN_STAT.STATE e) = spnAlign → s.isSet (SPN_STAT.ZERO_VEC e) = false →
      t.get (SPN_STAT.STATE e) = spnAlign ∧ t.eng[e].spn.gate = 1 ∧ t.eng[e].spn.aligned = s.eng[e].spn.aligned + 1) ∧
    (s.get (SPN_STAT.STATE e) = spnOpen → s.isSet (SPN_STAT.ZERO_VEC e) = false →
      t.get (SPN_STAT.STATE e) = spnOpen ∧ t.eng[e].spn.gate = 1 ∧
      t.eng[e].spn.forced = min (max (2000 * s.get (SPN_START.HAND_RPM e)) s.eng[e].spn.forced)
        (s.eng[e].spn.forced + max 1 (s.get (SPN_SPD.ACC e)))) ∧
    (s.get (SPN_STAT.STATE e) = spnRun ∨
        (s.get (SPN_STAT.STATE e) = spnBrake ∧ (s.eng[e].spn.gate ≠ 2 ∨ s.isSet (SPN_STAT.ZERO_VEC e) = true)) →
      t.getInt (SPN_SPEED.OBS e) = signed 16 (unsigned 16 speed) ∧ t.eng[e].spn.theta = o.theta ∧
      (s.get (SPN_STAT.STATE e) = spnBrake ∨ s.get (SPN_SPD.TARGET e) = 0 → speed.natAbs ≤ s.get (SPN_START.HAND_RPM e) →
        t.get (SPN_STAT.STATE e) = spnBrake ∧ t.eng[e].spn.gate = 2) ∧
      (s.get (SPN_STAT.STATE e) = spnRun → s.get (SPN_SPD.TARGET e) ≠ 0 → s.isSet (SPN_STAT.ZERO_VEC e) = false →
        t.get (SPN_STAT.STATE e) = spnRun ∧ t.eng[e].spn.gate = 1 ∧ t.eng[e].spn.iqCmd.natAbs ≤ s.get (SPN_LIM.IMAX e)))))

/-- The speed comes from the interval of the edges. With too few edges CATCH ends in ALIGN (result 1); a forward motor below HAND_RPM goes to
OPEN, above it to RUN with REF at the measured speed and a new origin (2, or 3 above the target); a motor turning backwards is braked and
restarted (4); ALIGN leads to OPEN; a hand-over succeeds into RUN after 32 good periods, faults with cause 5 after 64 tried, and waits
otherwise. Rests on spec/09_spindle_and_motion.md (R220, R222, R223, R225). -/
def Obligations.SpindleCatchAndHandover : Prop := ∀ (s : State) (e : Eng),
  (∀ (edges interval : Nat) (fw : Bool) (theta : Fin 1024), s.get (SPN_STAT.STATE e) = spnCatch →
    let rpm := catchRpm s e interval
    (edges < max 3 (s.get (SPN_OBS.CATCH_EDGES e)) → runs (.spnCatchDecide e edges interval fw theta) s fun t =>
      t.get (SPN_STAT.STATE e) = spnAlign ∧ t.get (SPN_STAT.CATCH e) = 1 ∧ t.get (SPN_EVT.CATCH e) = 1 ∧ t.getInt (SPN_SPEED.OBS e) = 0) ∧
    (max 3 (s.get (SPN_OBS.CATCH_EDGES e)) ≤ edges → rpm < 2 ^ 15 →
      (fw = true → rpm ≤ s.get (SPN_SPD.TARGET e) → rpm < s.get (SPN_START.HAND_RPM e) → runs (.spnCatchDecide e edges interval fw theta) s fun t =>
        t.get (SPN_STAT.STATE e) = spnOpen ∧ t.get (SPN_STAT.CATCH e) = 2 ∧ t.getInt (SPN_SPEED.OBS e) = rpm) ∧
      (fw = true → rpm ≤ s.get (SPN_SPD.TARGET e) → s.get (SPN_START.HAND_RPM e) ≤ rpm → runs (.spnCatchDecide e edges interval fw theta) s fun t =>
        t.get (SPN_STAT.STATE e) = spnRun ∧ t.get (SPN_STAT.CATCH e) = 2 ∧ t.getInt (SPN_SPEED.REF e) = rpm ∧ t.get (SPN_STAT.ANG_VALID e) = 1 ∧
        t.eng[e].spn.theta = theta.val ∧
        t.get (SPN_STAT.ORIGIN_GEN e) = (s.get (SPN_STAT.ORIGIN_GEN e) + 1) % 16) ∧
      (fw = true → s.get (SPN_SPD.TARGET e) < rpm → runs (.spnCatchDecide e edges interval fw theta) s fun t =>
        t.get (SPN_STAT.STATE e) = spnRun ∧ t.get (SPN_STAT.CATCH e) = 3 ∧ t.getInt (SPN_SPEED.REF e) = rpm ∧ t.get (SPN_STAT.ANG_VALID e) = 1) ∧
      (fw = false → runs (.spnCatchDecide e edges interval fw theta) s fun t =>
        t.get (SPN_STAT.STATE e) = spnBrake ∧ t.get (SPN_STAT.CATCH e) = 4 ∧ t.getInt (SPN_SPEED.OBS e) = -(rpm : Int) ∧
        t.eng[e].spn.restart = true))) ∧
  (s.get (SPN_STAT.STATE e) = spnAlign → runs (.spnAlignDone e) s fun t => t.get (SPN_STAT.STATE e) = spnOpen ∧ t.eng[e].spn.gate = 1 ∧
    t.eng[e].spn.theta = 0 ∧ t.eng[e].spn.forced = 0) ∧
  (s.get (SPN_STAT.STATE e) = spnOpen → 32 ≤ s.eng[e].spn.good → runs (.spnOpenHandover e) s fun t => t.get (SPN_STAT.STATE e) = spnRun ∧
    t.getInt (SPN_SPEED.REF e) = s.get (SPN_START.HAND_RPM e) ∧ t.get (SPN_STAT.ANG_VALID e) = 1 ∧ t.eng[e].spn.sumD = 0 ∧ t.eng[e].spn.sumQ = 0 ∧
    t.get (SPN_STAT.ORIGIN_GEN e) = (s.get (SPN_STAT.ORIGIN_GEN e) + 1) % 16) ∧
  (s.get (SPN_STAT.STATE e) = spnOpen → s.eng[e].spn.good < 32 → 64 ≤ s.eng[e].spn.tried → runs (.spnOpenHandover e) s fun t =>
    t.get (SPN_STAT.STATE e) = spnFaultSt ∧ t.get (SPN_STAT.FCAUSE e) = 5 ∧ t.get (SPN_EVT.FAULT e) = 1 ∧ t.eng[e].spn.gate = 0) ∧
  (s.get (SPN_STAT.STATE e) ≠ spnOpen ∨ (s.eng[e].spn.good < 32 ∧ s.eng[e].spn.tried < 64) → s.notes = [] →
    runs (.spnOpenHandover e) s fun t => t = s)

/-- A sample updates VBUS by the mean of four and sets or releases each threshold's effect: chopper, regeneration limit, zero vector, bridges
off, under-voltage; a chopper fault, when one is there, is flagged and logged; a threshold write is kept only when the order of the
thresholds holds, and is otherwise refused with its event. A row that cannot act in the present state leaves the state as it is: the model's
choice (log 4). Rests on spec/09_spindle_and_motion.md (R226, R227, R228, R242). -/
def Obligations.MotorBuses : Prop :=
  (∀ (s : State) (b : Fin 2),
  (∀ (vbus : Nat) (ibus ichop : Int),
    let v := (meanOf (((vbus :: s.brk[b].samples).take 4).map Int.ofNat)).toNat
    let h := 10 * s.get (BRK_CFG.HYST b)
    runs (.brkSample b vbus ibus ichop) s fun t => t.get (BRK_STAT.VBUS b) = min 0xFFFF v ∧ t.brk[b].samples = (vbus :: s.brk[b].samples).take 4 ∧
      (s.get (BRK_OV3.CHOP_ON b) < v → t.get (BRK_STAT.CHOP b) = 1) ∧
      (v + h < s.get (BRK_OV3.CHOP_ON b) → t.get (BRK_STAT.CHOP b) = 0) ∧
      (s.get (BRK_OV12.OV1 b) < v → t.get (BRK_STAT.OV1 b) = 1) ∧
      (s.get (BRK_OV12.OV2 b) < v → t.get (BRK_STAT.OV2 b) = 1 ∧
        ∀ e : Eng, busOf e = b → t.get (SPN_STAT.STATE e) = spnFaultSt ∨ t.get (SPN_STAT.ZERO_VEC e) = 1 ∧ t.eng[e].spn.gate = 2) ∧
      (s.get (BRK_OV3.OV3 b) < v → t.get (BRK_STAT.OV3 b) = 1 ∧
        ∀ e : Eng, busOf e = b → t.get (SPN_STAT.STATE e) = spnFaultSt ∧ t.get (SPN_STAT.FCAUSE e) = 3 ∧ t.eng[e].spn.gate = 0) ∧
      (v < s.get (BRK_CFG.UV b) → t.get (BRK_STAT.UV b) = 1) ∧
      (s.get (BRK_CFG.UV b) + h < v → t.get (BRK_STAT.UV b) = 0) ∧
      (v ≤ s.get (BRK_OV12.OV2 b) → v ≤ s.get (BRK_OV3.OV3 b) → t.eng = s.eng)) ∧
  (s.get (BRK_STAT.VBUS b) + 10 * s.get (BRK_CFG.HYST b) < s.get (BRK_OV12.OV1 b) → runs (.busThresholdRelease b 0) s fun t =>
    t.get (BRK_STAT.OV1 b) = 0 ∧ ∀ e : Eng, busOf e = b → t.get (SPN_STAT.REGEN_LIM e) = 0) ∧
  (s.get (BRK_STAT.VBUS b) + 10 * s.get (BRK_CFG.HYST b) < s.get (BRK_OV12.OV2 b) → runs (.busThresholdRelease b 1) s fun t =>
    t.get (BRK_STAT.OV2 b) = 0 ∧ ∀ e : Eng, busOf e = b → t.get (SPN_STAT.ZERO_VEC e) = 0) ∧
  (chopFaulty s b = false → runs (.chopFault b) s fun t => t = s) ∧
  (chopFaulty s b = true → runs (.chopFault b) s fun t => t.get (BRK_STAT.CHOP_FAULT b) = 1 ∧ (t.get ⟨MOT_EVT.reg, 16 + 6 * b.val, 6⟩).testBit 3 = true ∧
    (t.events.head?.map fun x => (x.code, x.args)) = some (EvCode.chopFault, [b.val])) ∧
  (runs (.brkFaultClr b .sup) s fun t => t.get (BRK_STAT.CHOP_FAULT b) = 0 ∧ t.eng = s.eng) ∧
  (∀ rq, rq ≠ .sup → runs (.brkFaultClr b rq) s fun t => t = s)) ∧
  (∀ (s : State) (b : Fin 2) (which : Fin 3) (v : Word),
  let t' := brkPut b which v s
  let keeps := brkOrder (t'.get (BRK_CFG.UV b)) (t'.get (BRK_OV3.CHOP_ON b)) (t'.get (BRK_OV12.OV1 b)) (t'.get (BRK_OV12.OV2 b))
    (t'.get (BRK_OV3.OV3 b)) (10 * t'.get (BRK_CFG.HYST b))
  (keeps = true → runs (.brkThresholdWrite b which v) s fun t =>
    t.get (BRK_OV12.OV1 b) = (if which = 0 then v.toNat % 65536 else s.get (BRK_OV12.OV1 b)) ∧
    t.get (BRK_OV12.OV2 b) = (if which = 0 then v.toNat / 65536 else s.get (BRK_OV12.OV2 b)) ∧
    t.get (BRK_OV3.OV3 b) = (if which = 1 then v.toNat % 65536 else s.get (BRK_OV3.OV3 b)) ∧
    t.get (BRK_OV3.CHOP_ON b) = (if which = 1 then v.toNat / 65536 else s.get (BRK_OV3.CHOP_ON b)) ∧
    t.get (BRK_CFG.HYST b) = (if which = 2 then v.toNat % 256 else s.get (BRK_CFG.HYST b)) ∧
    t.get (BRK_CFG.UV b) = (if which = 2 then v.toNat / 256 % 65536 else s.get (BRK_CFG.UV b)) ∧
    t.get (BRK_CFG.CHOP_IMIN b) = (if which = 2 then v.toNat / 2 ^ 24 else s.get (BRK_CFG.CHOP_IMIN b)) ∧ t.eng = s.eng ∧ t.brk = s.brk) ∧
  (keeps = false → runs (.brkThresholdWrite b which v) s fun t => t.rd (BRK_OV12.reg b) = s.rd (BRK_OV12.reg b) ∧
    t.rd (BRK_OV3.reg b) = s.rd (BRK_OV3.reg b) ∧ t.rd (BRK_CFG.reg b) = s.rd (BRK_CFG.reg b) ∧
    (t.get ⟨MOT_EVT.reg, 16 + 6 * b.val, 6⟩).testBit 5 = true))

/-- MOVE, STOP, ESTOP and each step pulse change POS, MOVING and the events as the spec says (pulses as events, log 20; ESTOP clears GEAR, log
21), with the encoder check; GEAR couples and uncouples the axis; a count of its own source advances target and remainder by the ratio,
changes the ratio at CHG_POS when armed, and faults when the lag exceeds LAG_MAX. A row that cannot act in the present state leaves the
state as it is: the model's choice (log 4). Rests on spec/09_spindle_and_motion.md (R238, R239, R240, R241, R242). -/
def Obligations.Axes : Prop :=
  (∀ (s : State) (a : Fin 4),
  (s.isSet (AX_CTRL.GEAR a) = true → runs (.axMove a) s fun t => t = s) ∧
  (s.isSet (AX_CTRL.GEAR a) = false → s.get (AX_POS.VALUE a) ≠ s.get (AX_TGT.VALUE a) → runs (.axMove a) s fun t =>
    t.get (AX_STAT.MOVING a) = 1 ∧ t.get (AX_POS.VALUE a) = s.get (AX_POS.VALUE a) ∧ t.ax[a].stopping = false) ∧
  (s.isSet (AX_CTRL.GEAR a) = false → s.isSet (AX_STAT.MOVING a) = false → s.get (AX_POS.VALUE a) = s.get (AX_TGT.VALUE a) →
    runs (.axMove a) s fun t => t.get (AX_STAT.MOVING a) = 0 ∧ (t.get ⟨MOT_EVT.reg, 4 * a.val, 4⟩).testBit 0 = true) ∧
  (s.isSet (AX_STAT.MOVING a) = true → runs (.axStop a) s fun t => t.ax[a].stopping = true ∧ t.regs = s.regs) ∧
  (s.isSet (AX_STAT.MOVING a) = false → runs (.axStop a) s fun t => (t.get ⟨MOT_EVT.reg, 4 * a.val, 4⟩).testBit 0 = true ∧
    t.get (AX_STAT.MOVING a) = 0) ∧
  (runs (.axEstop a) s fun t => t.get (AX_STAT.MOVING a) = 0 ∧ t.get (AX_STAT.GEARED a) = 0 ∧ t.get (AX_CTRL.GEAR a) = 0 ∧
    t.get (AX_POS.VALUE a) = s.get (AX_POS.VALUE a) ∧
    (s.isSet (AX_STAT.MOVING a) = true → t.get (AX_STAT.LOST a) = 1 ∧ (t.get ⟨MOT_EVT.reg, 4 * a.val, 4⟩).testBit 1 = true) ∧
    (s.isSet (AX_STAT.MOVING a) = false → t.get (AX_STAT.LOST a) = s.get (AX_STAT.LOST a))) ∧
  (∀ up last enc, s.isSet (AX_STAT.MOVING a) = true → s.isSet (AX_STAT.GEARED a) = false → runs (.axStepPulse a up last enc) s fun t =>
    (∃ l, t.out = s.out ++ .axStep a (up != s.isSet (AX_CTRL.DIR_INV a)) :: l ∧ ∀ o ∈ l, ∃ f, o = .irq f) ∧
    t.get (AX_POS.VALUE a) = unsigned 32 (s.getInt (AX_POS.VALUE a) + if up then 1 else -1) ∧
    t.ax[a].encCount = s.ax[a].encCount + enc ∧
    (last = true → s.ax[a].stopping = true ∨ unsigned 32 (s.getInt (AX_POS.VALUE a) + if up then 1 else -1) = s.get (AX_TGT.VALUE a) →
      t.get (AX_STAT.MOVING a) = 0 ∧ (t.get ⟨MOT_EVT.reg, 4 * a.val, 4⟩).testBit 0 = true) ∧
    (s.isSet (AX_CTRL.ENC_CHK a) = true →
      s.get (AX_ENC.TOL a) < (t.getInt (AX_POS.VALUE a) - (s.ax[a].encBase + divFree ((s.ax[a].encCount + enc) * s.get (AX_ENC.E_RATIO a)) 4096)).natAbs →
      t.get (AX_STAT.MOVING a) = 0 ∧ t.get (AX_STAT.ENC_ERR a) = 1 ∧ (t.get ⟨MOT_EVT.reg, 4 * a.val, 4⟩).testBit 3 = true)) ∧
  (∀ up last enc, s.isSet (AX_STAT.MOVING a) = false → s.isSet (AX_CTRL.ENC_CHK a) = false → runs (.axStepPulse a up last enc) s fun t =>
    t.regs = s.regs ∧ t.out = s.out)) ∧
  (∀ (s : State) (a : Fin 4),
  (s.isSet (AX_STAT.MOVING a) = false → s.isSet (AX_STAT.GEARED a) = false → runs (.axGearSet a) s fun t =>
    t.get (AX_CTRL.GEAR a) = 1 ∧ t.get (AX_STAT.GEARED a) = 1 ∧ t.get (AX_STAT.LAG_FAULT a) = 0 ∧ t.get (AX_STAT.LAG a) = 0 ∧
    t.ax[a].target = s.getInt (AX_POS.VALUE a) ∧ t.ax[a].count = 0 ∧ t.ax[a].rem = 0) ∧
  (s.isSet (AX_STAT.MOVING a) = true ∨ s.isSet (AX_STAT.GEARED a) = true → runs (.axGearSet a) s fun t => t = s) ∧
  (s.isSet (AX_CTRL.GEAR a) = true → runs (.axGearClear a) s fun t => t.get (AX_CTRL.GEAR a) = 0 ∧ t.get (AX_STAT.GEARED a) = 0 ∧
    (s.isSet (AX_STAT.MOVING a) = true → t.get (AX_STAT.MOVING a) = 1 ∧ t.ax[a].stopping = true) ∧
    (s.isSet (AX_STAT.MOVING a) = false → (t.get ⟨MOT_EVT.reg, 4 * a.val, 4⟩).testBit 0 = true)) ∧
  (s.isSet (AX_CTRL.GEAR a) = false → runs (.axGearClear a) s fun t => t = s) ∧
  (∀ (n : Fin 12) up, s.isSet (AX_STAT.GEARED a) = false ∨ s.get (AX_CTRL.SRC a) ≠ n.val → runs (.axMasterCount a n up) s fun t => t = s) ∧
  (∀ (n : Fin 12) up, s.isSet (AX_STAT.GEARED a) = true → s.get (AX_CTRL.SRC a) = n.val →
    let chg := s.isSet (AX_CTRL.CHG_ARM a) && decide (s.ax[a].count = s.getInt (AX_CHG_POS.CHG_POS a))
    let ratio := signed 24 (s.get (if chg then AX_RATIO_NEXT.RATIO a else AX_RATIO.RATIO a))
    let r := s.ax[a].rem + if up then ratio else -ratio
    let target := s.ax[a].target + r / 65536
    let lag := target - s.getInt (AX_POS.VALUE a)
    runs (.axMasterCount a n up) s fun t => t.ax[a].target = target ∧ t.ax[a].rem = r % 65536 ∧
      t.ax[a].count = s.ax[a].count + (if up then 1 else -1) ∧
      (chg = true → t.get (AX_RATIO.RATIO a) = s.get (AX_RATIO_NEXT.RATIO a) ∧ t.get (AX_CTRL.CHG_ARM a) = 0) ∧
      t.getInt (AX_STAT.LAG a) = clampInt (-32768) 32767 lag ∧
      (lag.natAbs ≤ 64 * s.get (AX_VMAX.LAG_MAX a) → t.isSet (AX_STAT.MOVING a) = (lag != 0) ∧ t.get (AX_STAT.GEARED a) = s.get (AX_STAT.GEARED a)) ∧
      (64 * s.get (AX_VMAX.LAG_MAX a) < lag.natAbs → t.get (AX_STAT.LAG_FAULT a) = 1 ∧
        (t.get ⟨MOT_EVT.reg, 4 * a.val, 4⟩).testBit 2 = true ∧
        (s.isSet (AX_CTRL.GEAR a) = true → t.get (AX_STAT.GEARED a) = 0 ∧ t.ax[a].stopping = true))))

/-- SLEEP is accepted when R452's conditions hold and then waits for the ESQ's WFI; WAKE wakes, or cancels an entry; the end of waking retrains
the link; temperatures are recorded, warned of and trip at 120 °C; standby is entered when R455 permits and left by an enabled source; the
wake timers, the 32 kHz crystal, an engine PLL, the PCIe PLL and the core clocks act as the spec says (log 58). A row that cannot act in the
present state leaves the state as it is: the model's choice (log 4). Rests on spec/17_power_clocks_reset.md (R451, R452, R453, R454, R455,
R456, R458). -/
def Obligations.SleepStandbyAndTemperature : Prop :=
  (∀ (s : State) (e : Eng),
  (s.get (engPower e) = 2 → sleepOk s e = true → s.eng[e].wfi = false → runs (.pwrEngSleep e) s fun t => t.get (engPower e) = 3 ∧ t.eng = s.eng) ∧
  (s.get (engPower e) = 2 → sleepOk s e = true → s.eng[e].wfi = true → runs (.pwrEngSleep e) s fun t => t.get (engPower e) = 0 ∧
    t.eng[e].cap = [] ∧ (t.get ARB_STAT.MASK).testBit e.val = true ∧ (t.get PWR_CLK_STAT.ENG_LOCK).testBit e.val = false) ∧
  (s.get (engPower e) = 2 → sleepOk s e = false → runs (.pwrEngSleep e) s fun t => t.get PWR_EVT.SLEEP_REJ = 1 ∧ t.get (engPower e) = 2 ∧ t.eng = s.eng) ∧
  (s.get (engPower e) = 1 → runs (.pwrEngSleep e) s fun t => t.get PWR_EVT.SLEEP_REJ = 1 ∧ t.get (engPower e) = 1) ∧
  (s.get (engPower e) = 0 ∨ s.get (engPower e) = 3 → runs (.pwrEngSleep e) s fun t => t = s) ∧
  (s.get (engPower e) = 3 → runs (.esqWfi e) s fun t => t.get (engPower e) = 0 ∧ t.eng[e].wfi = true ∧ t.eng[e].cap = []) ∧
  (s.get (engPower e) = 2 → runs (.esqWfi e) s fun t => t.eng[e].wfi = true ∧ t.regs = s.regs) ∧
  (s.get (engPower e) = 0 → engFitted s e = true → runs (.pwrEngWake e) s fun t => t.get (engPower e) = 1) ∧
  (s.get (engPower e) = 0 → engFitted s e = false → runs (.pwrEngWake e) s fun t => t = s) ∧
  (s.get (engPower e) = 3 → runs (.pwrEngWake e) s fun t => t.get (engPower e) = 2 ∧ t.get PWR_EVT.SLEEP_CANCEL = 1) ∧
  (s.get (engPower e) = 1 → s.eng[e].retained = true → runs (.engineWakeDone e) s fun t => t.get (engPower e) = 2 ∧ t.eng[e].wfi = false ∧
    t.get (HL_CTRL.ENABLE e) = 1 ∧ (t.get PWR_EVT.WAKE_DONE).testBit e.val = true ∧ (t.get ARB_STAT.MASK).testBit e.val = false ∧
    (s.get (HL_STAT.STATE e) = hlOff → t.get (HL_STAT.STATE e) = hlTraining)) ∧
  (s.get (engPower e) ≠ 1 → s.notes = [] → runs (.engineWakeDone e) s fun t => t = s)) ∧
  (∀ (s : State) (temp : BitVec 16),
  (runs (.thermWarn temp) s fun t => t.getInt GLB_TEMP.TEMP = temp.toInt ∧ t.getInt GLB_TEMP.MAX = max (s.getInt GLB_TEMP.MAX) temp.toInt ∧
    (1760 ≤ temp.toInt → (t.events.head?.map fun x => x.code) = some EvCode.thermWarn) ∧ (temp.toInt < 1760 → t.events = s.events)) ∧
  (1920 ≤ temp.toInt → runs (.thermTrip temp) s fun t => t.getInt GLB_TEMP.TEMP = temp.toInt ∧ t.pw.hotOut = true ∧
    (∀ e : Eng, t.get (SPN_CTRL.EN e) = 0 ∧ t.get (SPN_STAT.STATE e) = spnOff ∧ (s.get (WR_STAT.STATE e) ≠ wrIdle → t.get (WR_STAT.GATE e) = 0)) ∧
    ∀ a : Fin 4, t.get (AX_STAT.MOVING a) = 0) ∧
  (temp.toInt < 1920 → s.notes = [] → runs (.thermTrip temp) s fun t => t.getInt GLB_TEMP.TEMP = temp.toInt ∧ t.eng = s.eng ∧ t.pw = s.pw) ∧
  (runs (.thermRecover temp) s fun t => t.getInt GLB_TEMP.TEMP = temp.toInt ∧ t.pw.hotOut = (s.pw.hotOut && !decide (temp.toInt < 1600)))) ∧
  (∀ s : State,
  (stbyOk s = true → runs .standbyEntry s fun t => t.get PWR_STATE.STATE = 2 ∧ t.get GLB_DDR_STAT.STATE = 2 ∧ t.sec.keys = [] ∧ t.sec.mapKey = none ∧
    t.get PWR_CLK_STAT.CORE_LOCK = 0 ∧ t.get PWR_CLK_STAT.REF_OK = 0) ∧
  (stbyOk s = false → s.notes = [] → runs .standbyEntry s fun t => t = s) ∧
  (∀ src : Fin 4, s.get PWR_STATE.STATE = 2 → (s.get PWR_WAKE_EN.SRC).testBit src.val = true → s.pw.life = .running →
    runs (.standbyWake src) s fun t => t.get PWR_STATE.STATE = 0 ∧ t.get PWR_WAKE_SRC.SRC = 2 ^ src.val ∧ t.get GLB_DDR_STAT.STATE = 1 ∧
      t.get PWR_CLK_STAT.CORE_LOCK = 1 ∧ t.sec.mapKey.isSome = true) ∧
  (∀ src : Fin 4, s.get PWR_STATE.STATE ≠ 2 ∨ (s.get PWR_WAKE_EN.SRC).testBit src.val = false → runs (.standbyWake src) s fun t => t = s) ∧
  (∀ i : Fin 2, rtcSec s % 2 ^ 32 = s.get (PWR_TMR.AT i.val) → s.get PWR_STATE.STATE ≠ 2 → runs (.wakeTimer i) s fun t =>
    (t.get PWR_EVT.TIMER).testBit i.val = true ∧ t.get PWR_STATE.STATE = s.get PWR_STATE.STATE) ∧
  (∀ i : Fin 2, rtcSec s % 2 ^ 32 ≠ s.get (PWR_TMR.AT i.val) → runs (.wakeTimer i) s fun t => t = s) ∧
  (runs .xtal32Fail s fun t => t.pw.xtalFail = true ∧ t.get PWR_EVT.XTAL32_FAIL = 1 ∧ t.get PWR_CLK_STAT.XTAL32_OK = 0 ∧
    (t.events.head?.map fun x => x.code) = some EvCode.xtal32Fail) ∧
  (∀ e : Eng, runs (.clockFailure (.engine e)) s fun t => t.get PWR_EVT.PLL_FAIL = 1 ∧ t.get (engPower e) = 0 ∧ t.eng[e].retained = false ∧
    (t.get PWR_CLK_STAT.ENG_LOCK).testBit e.val = false ∧ t.get (SPN_CTRL.EN e) = 0 ∧ t.eng[e].rty = []) ∧
  (runs (.clockFailure .pcie) s fun t => t.get PWR_EVT.PLL_FAIL = 1 ∧ t.get PWR_CLK_STAT.PCIE_LOCK = 0 ∧ t.eng = s.eng) ∧
  (∀ c, c = ClockSrc.core ∨ c = ClockSrc.ddr ∨ c = ClockSrc.ref → s.pw.pfail = false → s.pw.life ≠ .reset → runs (.clockFailure c) s fun t =>
    t.get PWR_RST.LAST_CAUSE = 7 ∧ t.pw.life = .reset))

/-- A free resource is given to a permitted requester and denied to another; an owned one is denied with LAST_REQ and DENIED; the owner or SUP
frees it, with its control registers back at reset; the ESQ's claim of the spare chain preempts Temper once; a capture takes the count at a
selected edge; a match sets FLAG and toggles the pin in mode 2 (log 33, 36). A row that cannot act in the present state leaves the state as
it is: the model's choice (log 4). Rests on spec/18_ports_and_electrical.md (R472, R473, R474, R475, R476); spec/06_retry_and_temper.md
(R156). -/
def Obligations.ClaimsAndTimers : Prop := ∀ s : State,
  (∀ (rq : Req) (r : Fin 37) (v : Word) (id : Nat), reqId rq = some id → v.toNat % 64 = id → id ≠ 0x3F → s.get (CLAIM_RES.OWNER r) = 0x3F →
    (mayClaim id r.val = true → runs (.claimWrite rq r v) s fun t => t.get (CLAIM_RES.OWNER r) = id ∧ t.eng = s.eng) ∧
    (mayClaim id r.val = false → runs (.claimWrite rq r v) s fun t => t.get (CLAIM_RES.OWNER r) = 0x3F ∧ t.get (CLAIM_RES.LAST_REQ r) = id ∧
      t.get (CLAIM_RES.DENIED r) = satInc 255 (s.get (CLAIM_RES.DENIED r)))) ∧
  (∀ (rq : Req) (r : Fin 37) (v : Word) (id : Nat), reqId rq = some id → v.toNat % 64 = id → r.val < 29 → s.get (CLAIM_RES.OWNER r) ≠ 0x3F →
    runs (.claimWrite rq r v) s fun t => t.get (CLAIM_RES.OWNER r) = s.get (CLAIM_RES.OWNER r) ∧ t.get (CLAIM_RES.LAST_REQ r) = id ∧
      t.get (CLAIM_RES.DENIED r) = satInc 255 (s.get (CLAIM_RES.DENIED r)) ∧ t.eng = s.eng) ∧
  (∀ (rq : Req) (r : Fin 37) (v : Word), v.toNat % 64 = 0x3F →
    reqId rq = some (s.get (CLAIM_RES.OWNER r)) ∨ (rq = .sup ∧ v.getLsbD 7 = true ∧ s.get (CLAIM_RES.OWNER r) ≠ 0x3E) →
    runs (.claimWrite rq r v) s fun t => t.get (CLAIM_RES.OWNER r) = 0x3F ∧
      (r.val < 12 → t.rd (GPIO_CFG.reg r) = Reg.reset (GPIO_CFG.reg r)) ∧
      (17 ≤ r.val ∧ r.val < 29 → t.rd (TIM_CTRL.reg (r.val - 17)) = Reg.reset (TIM_CTRL.reg (r.val - 17)) ∧
        t.pw.timOut.getLsbD (r.val - 17) = false)) ∧
  (∀ (e : Eng) (v : Word), v.toNat % 64 = idEsq e → s.get (CLAIM_RES.OWNER (spareRes e)) = idTemper e →
    (s.isSet (CLAIM_RES.PEND (spareRes e)) = false → tmpActive s e = true → s.get (TMP_STAT.STATE e) ≠ tmpAbandon →
      runs (.claimWrite (.esq e) (spareRes e) v) s fun t => t.get (TMP_EVT.PREEMPT e) = 1 ∧ t.eng[e].tmp.retry = true) ∧
    (s.isSet (CLAIM_RES.PEND (spareRes e)) = true → runs (.claimWrite (.esq e) (spareRes e) v) s fun t => t = s)) ∧
  (∀ rq r v, reqId rq = none → s.notes = [] → runs (.claimWrite rq r v) s fun t => t = s) ∧
  (∀ (i : Fin 12) (falling : Bool) (cnt : Word), s.get (TIM_CTRL.MODE i.val) = 1 → timSrcOk (s.get (TIM_CTRL.SRC i.val)) = true →
    s.get (TIM_CTRL.EDGE i.val) = (if falling then 1 else 0) ∨ 2 ≤ s.get (TIM_CTRL.EDGE i.val) → runs (.timCapture i falling cnt) s fun t =>
      t.rd (TIM_CC.reg i.val) = cnt ∧ t.get (TIM_CTRL.FLAG i.val) = 1) ∧
  (∀ i : Fin 12, s.get (TIM_CTRL.MODE i.val) = 2 → runs (.timMatch i) s fun t => t.get (TIM_CTRL.FLAG i.val) = 1 ∧
    t.pw.timOut.getLsbD i.val = !s.pw.timOut.getLsbD i.val) ∧
  (∀ i : Fin 12, s.get (TIM_CTRL.MODE i.val) = 3 → runs (.timMatch i) s fun t => t.get (TIM_CTRL.FLAG i.val) = 1 ∧ t.pw.timOut = s.pw.timOut) ∧
  (∀ i : Fin 12, s.get (TIM_CTRL.MODE i.val) < 2 → runs (.timMatch i) s fun t => t = s)

/-- FUSE_PROG answers 4 when busy, 1 for a locked or absent word, 2 with the device not active, and 0 with the bits blown (order: log 59); a
challenge answers nonce and device id; an unlock needs the challenge and the signer, raises the level (level 2 clears the key slots), or
counts a failure; EXTEST, HIGHZ and CLAMP turn bridges, choppers and write gates off. A row that cannot act in the present state leaves the
state as it is: the model's choice (log 4). Rests on spec/16_security.md (R428, R444); spec/18_ports_and_electrical.md (R479, R480, R481,
R482). -/
def Obligations.FusesDebugAndTest : Prop := ∀ s : State,
  (∀ (field word : BitVec 8) (data : Word) (failed : Bool),
    let n := field.toNat
    let w := word.toNat
    let open_ := fuseLocked s.sec.blown n = false ∧ 32 * w < fuseWidth n
    let awake := s.get PWR_STATE.STATE = 0 ∧ s.pw.pfail = false
    (∀ efuse, runs (.fuseProg field word data efuse failed true) s fun t => t.out = s.out ++ [.fuseResult 4] ∧ t.sec = s.sec) ∧
    (¬ open_ → ∀ efuse, runs (.fuseProg field word data efuse failed false) s fun t => t.out = s.out ++ [.fuseResult 1] ∧ t.sec = s.sec) ∧
    (open_ → ¬ awake → ∀ efuse, runs (.fuseProg field word data efuse failed false) s fun t =>
      t.out = s.out ++ [.fuseResult 2] ∧ t.sec = s.sec) ∧
    (open_ → awake → runs (.fuseProg field word data true false false) s fun t => t.out = s.out ++ [.fuseResult 0] ∧
      t.sec.blown = fuseBlow s.sec.blown n w data ∧ t.sec.fuse = s.sec.fuse)) ∧
  (∀ nonce, runs (.dbgChallenge nonce) s fun t => t.sec.challenge = some nonce ∧
    t.out = s.out ++ [.mailbox (leBytes 32 nonce.toNat ++ leBytes 16 Config.deviceId.toNat)]) ∧
  (∀ (level : Fin 256) (who : Signer),
    (3 ≤ s.get GLB_SEC_STAT.DBG_FAILS → runs (.dbgUnlock level who) s fun t => t.out = s.out ++ [.mailbox [2#8]] ∧ t.regs = s.regs ∧ t.sec = s.sec) ∧
    (s.get GLB_SEC_STAT.DBG_FAILS < 3 → s.sec.challenge.isSome = true → signerOk s who = true → level = 1 ∨ level = 2 →
      runs (.dbgUnlock level who) s fun t => t.get GLB_SEC_STAT.DBG_LEVEL = max level.val (s.get GLB_SEC_STAT.DBG_LEVEL) ∧
        t.sec.challenge = none ∧ (level = 2 → t.sec.keys = []) ∧ (level = 1 → t.sec.keys = s.sec.keys)) ∧
    (s.get GLB_SEC_STAT.DBG_FAILS < 3 → s.sec.challenge = none ∨ signerOk s who = false ∨ (level ≠ 1 ∧ level ≠ 2) →
      runs (.dbgUnlock level who) s fun t => t.get GLB_SEC_STAT.DBG_LEVEL = s.get GLB_SEC_STAT.DBG_LEVEL ∧
        t.get GLB_SEC_STAT.DBG_FAILS = s.get GLB_SEC_STAT.DBG_FAILS + 1 ∧ t.sec.challenge = none ∧ t.out = s.out ++ [.mailbox [1#8]])) ∧
  (runs (.tapReset true) s fun t => t.sec.challenge = none ∧ t.regs = s.regs) ∧
  (runs (.tapReset false) s fun t => t = s) ∧
  (∀ c m, (c, m) = (Instr.jtagExtest, PinMode.extest) ∨ (c, m) = (Instr.jtagHighz, PinMode.highz) ∨ (c, m) = (Instr.jtagClamp, PinMode.clamp) →
    runs c s fun t => t.pw.pins = m ∧ (∀ b : Fin 2, t.get (BRK_STAT.CHOP b) = 0) ∧ (∀ a : Fin 4, t.get (AX_STAT.MOVING a) = 0) ∧
      ∀ e : Eng, t.get (SPN_STAT.STATE e) = spnOff ∧ (s.get (WR_STAT.STATE e) ≠ wrIdle → t.get (WR_STAT.GATE e) = 0))

/-- Each reset records its cause, puts the registers it clears at their reset values, clears DDR, keys, queues and events as its column of R460
says, and keeps fuses, images, MRAM and NAND, and Hearth's values where the spec keeps them; VDD_AON power-up clears Hearth too; a warm
reset or the watchdog waits on no power failure; KICK restarts the watchdog. A row that cannot act in the present state leaves the state as
it is: the model's choice (log 4). Rests on spec/17_power_clocks_reset.md (R450, R459, R460, R461, R464). -/
def Obligations.Resets : Prop := ∀ s : State,
  let plain := fun (r : Reg) => ∀ i, r.info = some i → ∀ f ∈ i.fields, f.hearth = false ∧ f.ty ≠ .rws
  (∀ c cause, (c = Instr.por ∨ c = Instr.pgFall → cause = 1) ∧ (c = Instr.vddAonPowerUp → cause = 0) →
    c = Instr.por ∨ c = Instr.pgFall ∨ c = Instr.vddAonPowerUp → runs c s fun t =>
      t.pw.life = .reset ∧ t.get PWR_RST.LAST_CAUSE = cause ∧ (∀ r, plain r → t.rd r = Reg.reset r) ∧ t.us = 0 ∧ t.events = [] ∧ t.evSeq = 0 ∧
      t.pw.pfail = false ∧ t.mq = [] ∧ t.ddr = [] ∧ t.sec.keys = [] ∧ t.sec.mapKey = none ∧ t.sec.blown = s.sec.blown ∧ t.sec.nor = s.sec.nor ∧
      t.jrn.mir = s.jrn.mir ∧ t.jrn.nand = s.jrn.nand) ∧
  (∀ c, c = Instr.por ∨ c = Instr.pgFall → s.Inv → runs c s fun t => t.pw.rtc = s.pw.rtc ∧ t.pw.bootCnt = s.pw.bootCnt ∧ t.pw.latch = s.pw.latch ∧
    t.get PWR_WAKE_EN.SRC = s.get PWR_WAKE_EN.SRC ∧ t.get PWR_HOURS.HOURS = s.get PWR_HOURS.HOURS ∧
    t.isSet PWR_RTC_HI.STALL = s.pw.xtalFail) ∧
  (runs .vddAonPowerUp s fun t => t.pw.rtc = 0 ∧ t.pw.bootCnt = 0#4 ∧ t.pw.latch = 0#20 ∧ ∀ r, t.rd r = Reg.reset r) ∧
  (∀ c cause, (∃ n, c = Instr.warmReset n ∧ cause = if n = 4 ∨ n = 5 then n else 2) ∨
      (c = Instr.watchdogExpire ∧ s.isSet PWR_WDT.EN = true ∧ cause = 6) → s.pw.pfail = false → s.pw.life ≠ .reset →
    runs c s fun t => t.pw.life = .reset ∧ t.get PWR_RST.LAST_CAUSE = cause ∧ (∀ r, plain r → t.rd r = Reg.reset r) ∧ t.us = s.us ∧
      t.events = [] ∧ t.evSeq = s.evSeq ∧ t.mq = [] ∧ t.ddr = [] ∧ t.sec.keys = [] ∧ t.sec.blown = s.sec.blown ∧ t.pw.rtc = s.pw.rtc ∧
      t.jrn.mir = s.jrn.mir ∧ t.jrn.nand = s.jrn.nand) ∧
  (∀ c, (∃ n, c = Instr.warmReset n) ∨ c = Instr.watchdogExpire → s.pw.pfail = true → s.notes = [] → runs c s fun t => t = s) ∧
  (s.isSet PWR_WDT.EN = false → s.notes = [] → runs .watchdogExpire s fun t => t = s) ∧
  (runs .wdtKick s fun t => t.pw.wdtUs = 0 ∧ t.regs = s.regs ∧ t.eng = s.eng) ∧
  (s.pw.pfail = true → runs .brownoutReturn s fun t => t.pw.life = .reset ∧ t.pw.pfail = false ∧ t.get PWR_RST.LAST_CAUSE = 3 ∧
    t.pw.latch = s.pw.latch ||| 8#20) ∧
  (s.pw.pfail = false → s.notes = [] → runs .brownoutReturn s fun t => t = s)

/-- A latched PFAIL_N in a running device quenches: spindles, axes and write gates off, the latch with its duration; in standby it keeps what
the earlier destage left; with no running device it stops. At POR release the boot stops with no valid image or when DDR training fails,
holds while PFAIL_N is low, and otherwise reaches READY from the slot that R442 chooses; the hold's release ends it (verdicts as operands,
log 57). A row that cannot act in the present state leaves the state as it is: the model's choice (log 4). Rests on
spec/12_quench_and_boot.md (R325, R326, R328, R329, R338, R340); spec/16_security.md (R441, R442); spec/15_memory_and_cache.md (R400). -/
def Obligations.PowerFailureAndBoot : Prop :=
  (∀ (s : State) (failed : BitVec 2) (dur : Nat),
  (s.pw.pfail = false → s.pw.life = .running → s.get PWR_STATE.STATE ≠ 2 → runs (.pfailLatch failed dur) s fun t =>
    t.pw.pfail = true ∧ t.pw.life = .quenched ∧ t.pw.latch.getLsbD 0 = true ∧ bits t.pw.latch 4 16 = min 65535 dur ∧ t.sec.hand = none ∧
    (∀ e : Eng, t.get (SPN_CTRL.EN e) = 0 ∧ t.get (SPN_STAT.STATE e) = spnOff ∧ (s.get (WR_STAT.STATE e) ≠ wrIdle → t.get (WR_STAT.GATE e) = 0)) ∧
    (∀ a : Fin 4, t.get (AX_STAT.MOVING a) = 0) ∧
    (t.pw.latch.getLsbD 1 = true → t.isSet GLB_JNL_STAT.MRAM_A = true)) ∧
  (s.pw.pfail = false → s.pw.life = .running → s.get PWR_STATE.STATE = 2 → s.notes = [] → runs (.pfailLatch failed dur) s fun t =>
    t.pw.pfail = true ∧ t.pw.life = .quenched ∧ t.pw.latch.getLsbD 0 = true ∧ t.pw.latch.getLsbD 1 = s.pw.stbyDone.getLsbD 0 ∧
    t.pw.latch.getLsbD 2 = s.pw.stbyDone.getLsbD 1 ∧ bits t.pw.latch 4 16 = min 65535 dur ∧ t.regs = s.regs) ∧
  (s.pw.pfail = false → s.pw.life = .stopped ∨ s.pw.life = .quenched → s.notes = [] → runs (.pfailLatch failed dur) s fun t =>
    t.pw.pfail = true ∧ t.pw.life = .stopped ∧ t.pw.latch.getLsbD 1 = false ∧ t.pw.latch.getLsbD 2 = false ∧ t.jrn = s.jrn) ∧
  (s.pw.pfail = true ∨ s.pw.life = .hold ∨ s.pw.life = .reset → s.notes = [] → runs (.pfailLatch failed dur) s fun t => t = s)) ∧
  (∀ (s : State) (nor : Vector (Option Img) 2) (a b : MirrorSeen) (nandBad : Bool) (gap : Option (Nat × Nat)) (ms : Nat),
  let slots := s.sec.nor.getD nor
  let good := fun i : Fin 2 => slots[i].any (imgOk s.sec.blown)
  let cnt := (s.pw.bootCnt + 1#4).toNat
  s.pw.life = .reset → s.notes = [] →
  (good 0 = false → good 1 = false → ∀ low ddr, runs (.porRelease low nor ddr a b nandBad gap ms) s fun t => t.pw.life = .stopped ∧
    t.get GLB_BOOT.BOOT_CNT = cnt ∧ t.get CQI_STAT.READY = s.get CQI_STAT.READY) ∧
  (good 0 = true ∨ good 1 = true → ∀ low, runs (.porRelease low nor false a b nandBad gap ms) s fun t => t.pw.life = .stopped ∧
    t.get GLB_DDR_STAT.STATE = 3) ∧
  (good 0 = true ∨ good 1 = true → runs (.porRelease true nor true a b nandBad gap ms) s fun t => t.pw.life = .hold ∧
    t.get GLB_BOOT.PHASE = 1 ∧ t.get GLB_DDR_STAT.STATE = 1) ∧
  (∀ (i : Fin 2) (img : Img), slots[i] = some img → imgOk s.sec.blown img = true → good (1 - i) = false →
    runs (.porRelease false nor true a b nandBad gap ms) s fun t => t.pw.life = .running ∧ t.get GLB_BOOT.PHASE = 5 ∧ t.get CQI_STAT.READY = 1 ∧
      t.get GLB_BOOT.SLOT = i.val ∧ t.get GLB_FW_VER.VERSION = img.version.toNat ∧ t.get GLB_BOOT.READY_MS = min 65535 ms ∧
      t.pw.bootCnt = 0#4 ∧ t.get CQI_EVT.READY = 1) ∧
  (∀ x y : Img, slots[(0 : Fin 2)] = some x → slots[(1 : Fin 2)] = some y → good 0 = true → good 1 = true →
    let pref : Nat := if x.actSeq < y.actSeq then 1 else 0
    runs (.porRelease false nor true a b nandBad gap ms) s fun t => t.pw.life = .running ∧
      t.get GLB_BOOT.SLOT = if cnt % 6 = 1 ∨ cnt % 6 = 2 ∨ cnt % 6 = 3 then pref else 1 - pref)) ∧
  (∀ (s : State) (nor : Vector (Option Img) 2) (a b : MirrorSeen) (nandBad : Bool) (gap : Option (Nat × Nat)) (ms : Nat),
  (s.pw.life = .hold → s.notes = [] → runs (.pfailHoldRelease a b nandBad gap ms) s fun t => t.pw.life = .running ∧ t.get GLB_BOOT.PHASE = 5 ∧
    t.get CQI_STAT.READY = 1 ∧ t.pw.bootCnt = 0#4 ∧
    t.get GLB_QUENCH.VALID = (if s.pw.latch.getLsbD 0 then 1 else 0) ∧ t.get GLB_QUENCH.DUR = bits s.pw.latch 4 16) ∧
  (s.pw.life ≠ .hold → s.notes = [] → runs (.pfailHoldRelease a b nandBad gap ms) s fun t => t = s) ∧
  (s.pw.life ≠ .reset → s.notes = [] → ∀ low ddr, runs (.porRelease low nor ddr a b nandBad gap ms) s fun t => t = s))

/-- A choice that is not needed changes nothing; with an active policy entry it joins the call queue of the chosen core; without one it is
decided by default, counted for a loaded program: the default read source reads direct or reconstructs; a ladder message of class C4 is
always continued, without a call; the default write group is reserved with its run or reports NO_MEDIA; the default speed is set, bounded by
the disc's limit, and the default load exchanges discs (log 50). A row that cannot act in the present state leaves the state as it is: the
model's choice (log 4). Rests on spec/10_armature_placement.md (R256, R258, R261, R262, R265, R267, R268, R269). -/
def Obligations.PolicyDecisions : Prop := ∀ s : State, s.notes = [] →
  (∀ c a, asksFor c a → askFixed a = false → askNeeded s a = false → runs c s fun t => t = s) ∧
  (∀ r, askFixed (.source r) = true → runs (.chooseReadSource r) s fun t => t.regs = s.regs ∧ t.arm = s.arm ∧
    ∀ m, s.ladderMsgs.find? (fun m => m.e = homeOf s (whereIs s r.run r.stripe 0 r.need).1) = some m → t.ladderMsgs = s.ladderMsgs.erase m) ∧
  (∀ c a, asksFor c a → askFixed a = false → askNeeded s a = true → polActive s a.entry = true → runs c s fun t =>
    t.arm.plc[callCore s].queue = s.arm.plc[callCore s].queue ++ [a] ∧ t.regs = s.regs ∧ t.eng = s.eng) ∧
  (∀ c a, asksFor c a → askFixed a = false → askNeeded s a = true → polActive s a.entry = false → runs c s fun t =>
    t.get (GLB_POL_CNT.DEFAULTED a.entry) = if polLoaded s a.entry then satInc 65535 (s.get (GLB_POL_CNT.DEFAULTED a.entry))
      else s.get (GLB_POL_CNT.DEFAULTED a.entry)) ∧
  (∀ r, polActive s 2 = false → polLoaded s 2 = false → r.ladder = false → askNeeded s (.source r) = true →
    (∀ set, defaultSource s r = .reconstruct set → runs (.chooseReadSource r) s fun t => t.regs = s.regs ∧
      t.arm.sources = s.arm.sources ++ [((r.run, r.stripe, r.need), set)]) ∧
    (defaultSource s r = .direct → runs (.chooseReadSource r) s fun t => t = s)) ∧
  (∀ (vol : Fin 256) (n : Nat), polActive s 1 = false → polLoaded s 1 = false →
    let k := volK s vol.val
    let m := volM s vol.val
    let id := (txStart s).1.newRun
    (defaultGroup s ((s.arm.map.vol vol.val).get Vol.CLASS) n k m = none → runs (.chooseWriteGroup vol n) s fun t =>
      vol.val ∈ t.arm.noGroup ∧ t.jrn = s.jrn ∧ (t.events.head?.map fun x => (x.code, x.args)) = some (EvCode.noMedia, [vol.val])) ∧
    (∀ ds rel x, defaultGroup s ((s.arm.map.vol vol.val).get Vol.CLASS) n k m = some (ds, rel) → refusing s = false →
      reserveAll s n ((List.range ds.length).zip ds) (((((freeRec id k (2 ^ 48 - 1) n).put Run.M m).put Run.STATE 1).put Run.VOL vol.val).put Run.RELAXED
        (if magRule s ds m then 0 else 1)) (txStart s) = some x → runs (.chooseWriteGroup vol n) s fun t =>
        t.arm.initB = s.arm.initB ++ [(id, 0)] ∧ ((∃ r ∈ t.jrn.recs, r.body = .map 0 (x.2.add pgRun x.1).2) ∨
          ∃ w ∈ t.jrn.wait1, w.body = .map 0 (x.2.add pgRun x.1).2))) ∧
  (∀ (e : Eng) (radius rc host fill size n : Nat), polActive s 4 = false → defaultSpeed s e radius rc host fill size = some n →
    s.isSet (BRK_STAT.CHOP_FAULT (busOf e)) = false → runs (.chooseSpeed e radius rc host fill size) s fun t =>
      t.get (SPN_SPD.TARGET e) = n ∧ n ≤ rpmMax s e radius rc) ∧
  (∀ (e : Eng) (cur : LoadCand) (cs : List LoadCand) (d : Nat), polActive s 3 = false → defaultLoad cur cs = some d → exchangeMay s e = true →
    loadedIn s e ≠ some d → runs (.chooseLoad e cur cs) s fun t => Out.load e d ∈ t.out ∧ (t.discInt d).loc = .engine e) ∧
  (∀ (e : Eng) (cur : LoadCand) (cs : List LoadCand), polActive s 3 = false → defaultLoad cur cs = none ∨ exchangeMay s e = false →
    runs (.chooseLoad e cur cs) s fun t => t.out = s.out ∧ t.arm = s.arm)

/-- A call enters the program with the snapshot, answer and stack addresses in its registers and sets the core's PMP to the call's regions
(addresses: log 27); an invalid code counts a fault and defaults, code 1 defaults, a valid answer is taken; the eighth fault in 10 s
disables the entry; an overrun of the budget counts. A row that cannot act in the present state leaves the state as it is: the model's
choice (log 4). Rests on spec/10_armature_placement.md (R256, R257, R258, R259); spec/01_architecture.md (R18). -/
def Obligations.PolicyCalls : Prop := ∀ (s : State) (c : Fin 4), s.notes = [] →
  (∀ a rest, s.arm.plc[c].call = none → s.arm.plc[c].queue = a :: rest → polActive s a.entry = true → runs (.policyCall c) s fun t =>
    t.arm.plc[c].call = some (a, s.us) ∧ t.arm.plc[c].user = true ∧ t.arm.plc[c].queue = rest ∧
    t.arm.plc[c].x[(10 : Fin 32)] = Config.polAddr s.arm.snapCur.val ∧ t.arm.plc[c].x[(11 : Fin 32)] = Config.polAddr 2 ∧
    t.arm.plc[c].x[(12 : Fin 32)] = Config.polAddr 3 ∧ t.arm.plc[c].x[(2 : Fin 32)] = Config.polAddr 4 ∧
    t.arm.plc[c].pc = Config.polAddr 5 + BitVec.ofNat 32 (polEntry s a.entry) ∧ t.arm.plc[c].pmp = callPmp s ∧ t.regs = s.regs) ∧
  (s.arm.plc[c].call ≠ none ∨ s.arm.plc[c].queue = [] → runs (.policyCall c) s fun t => t = s) ∧
  (∀ a t0, s.arm.plc[c].call = some (a, t0) →
    (s.arm.plc[c].x[(17 : Fin 32)] ≠ 0#32 ∨ s.arm.plc[c].x[(10 : Fin 32)] ≠ 0#32 ∧ s.arm.plc[c].x[(10 : Fin 32)] ≠ 1#32 →
      runs (.policyEcall c) s fun t => t.arm.plc[c].call = none ∧ t.get (GLB_POL_CNT.FAULTS a.entry) = satInc 255 (s.get (GLB_POL_CNT.FAULTS a.entry)) ∧
        t.get (GLB_POL_CNT.DEFAULTED a.entry) = satInc 65535 (s.get (GLB_POL_CNT.DEFAULTED a.entry)) ∧
        (7 ≤ ((s.arm.faultAt[a.entry.val - 1]?.getD []).filter fun t => decide (s.us < t + 10000000)).length → polActive t a.entry = false)) ∧
    (s.arm.plc[c].x[(17 : Fin 32)] = 0#32 → s.arm.plc[c].x[(10 : Fin 32)] = 1#32 → runs (.policyEcall c) s fun t =>
      t.arm.plc[c].call = none ∧ t.get (GLB_POL_CNT.FAULTS a.entry) = s.get (GLB_POL_CNT.FAULTS a.entry) ∧
      t.get (GLB_POL_CNT.DEFAULTED a.entry) = satInc 65535 (s.get (GLB_POL_CNT.DEFAULTED a.entry))) ∧
    (∀ r, s.arm.plc[c].x[(17 : Fin 32)] = 0#32 → s.arm.plc[c].x[(10 : Fin 32)] = 0#32 →
      parseAnswer s a (plcRead s c (Config.polAddr 3).toNat 64) = some r →
      answerValid s s.arm.map.disc (match a with | .source q => (List.range 8).map fun j => mstate s q.run q.stripe j | _ => []) a r = true →
      runs (.policyEcall c) s fun t => t.arm.plc[c].call = none ∧ t.arm.plc[c].user = false ∧
        t.get (GLB_POL_CNT.FAULTS a.entry) = s.get (GLB_POL_CNT.FAULTS a.entry) ∧
        t.get (GLB_POL_CNT.DEFAULTED a.entry) = s.get (GLB_POL_CNT.DEFAULTED a.entry)) ∧
    (runs (.policyBudgetExpire c) s fun t => t.arm.plc[c].call = none ∧ t.arm.plc[c].user = false ∧
      t.get (GLB_POL_CNT.OVERRUNS a.entry) = satInc 255 (s.get (GLB_POL_CNT.OVERRUNS a.entry)) ∧
      t.get (GLB_POL_CNT.FAULTS a.entry) = satInc 255 (s.get (GLB_POL_CNT.FAULTS a.entry)))) ∧
  (s.arm.plc[c].call = none → (runs (.policyEcall c) s fun t => t = s) ∧ runs (.policyBudgetExpire c) s fun t => t = s)

/-- At each whole millisecond a snapshot is frozen into the other buffer with the next sequence number, and at no other time; a powered hour
counts in PWR_HOURS and commits its Plinth entry unless changes are refused; every 720 hours ageing folds each registered disc's rates; a
disc of unknown place is found in the engine, the magazine or nowhere. A row that cannot act in the present state leaves the state as it is:
the model's choice (log 4). Rests on spec/10_armature_placement.md (R252, R253, R492, R495). -/
def Obligations.MeasurementsAndHours : Prop := ∀ s : State,
  (∀ work, s.us % 1000 = 0 → runs (.measurementSnapshot work) s fun t => t.arm.snapCur = 1 - s.arm.snapCur ∧ t.arm.snapSeq = s.arm.snapSeq + 1 ∧
    t.arm.snap[t.arm.snapCur] = snapBytes t work ∧ t.arm.snap[s.arm.snapCur] = s.arm.snap[s.arm.snapCur] ∧ t.regs = s.regs) ∧
  (∀ work, s.us % 1000 ≠ 0 → runs (.measurementSnapshot work) s fun t => t = s) ∧
  (runs .poweredHour s fun t => t.get PWR_HOURS.HOURS = satInc (2 ^ 24 - 1) (s.get PWR_HOURS.HOURS) ∧ t.arm.hours = s.arm.hours + 1 ∧
    (refusing s = false → mirOk s false = true ∨ mirOk s true = true → (0x0341, leBytes 4 (s.arm.hours + 1)) ∈ t.jrn.ents) ∧
    (refusing s = true → t.jrn = s.jrn)) ∧
  (s.arm.hours = 0 ∨ s.arm.hours % 720 ≠ 0 → runs .agingMark s fun t => t = s) ∧
  (s.arm.hours ≠ 0 → s.arm.hours % 720 = 0 → runs .agingMark s fun t => t.arm.hours = s.arm.hours ∧
    ∀ d, ((registered s).count d = 1 → (t.discInt d).g = (patAge (s.discInt d)).g ∧ (t.discInt d).prev = (patAge (s.discInt d)).prev ∧
      (t.discInt d).fresh = false) ∧ (d ∉ registered s → t.discInt d = s.discInt d)) ∧
  (∀ d, (s.discInt d).loc = .unknown →
    (runs (.discRecovery d .engine) s fun t => (t.discInt d).loc = .engine (homeOf s d)) ∧
    (runs (.discRecovery d .magazine) s fun t => (t.discInt d).loc = .magazine) ∧
    (runs (.discRecovery d .nowhere) s fun t => (t.discInt d).loc = .unknown ∧
      (t.events.head?.map fun x => (x.code, x.args)) = some (EvCode.discUnlocated, [d]))) ∧
  (∀ d p, (s.discInt d).loc ≠ .unknown → runs (.discRecovery d p) s fun t => t = s)

/-- BPALLOC takes a freed buffer of the smallest pool that fits (fresh ones ascending, log 51), or returns 0 with EMPTY; BPSHARE and BPFREE
answer by the owner list, BPFREE of the last owner frees; a wrong address sets BAD_ADDR; the base and count of a pool are configured only
while it has no buffers out; an access fault is recorded once per core and ends a policy call. Rests on spec/15_memory_and_cache.md (R409,
R410, R411, R412); spec/10_armature_placement.md (R258, R272); spec/01_architecture.md (R24). -/
def Obligations.ForgePools : Prop :=
  (∀ (s : State) (c : Fin 4) (rd rs1 rs2 : Fin 32), s.arm.plc[c].user = false → rd ≠ 0 →
  let n := (plcX s c rs1).toNat
  let o := ownerByte (plcX s c rs2)
  (∀ (p : Fin 4) b rest, ((List.finRange 4).find? fun p => decide (n ≤ 256 * poolUnits p)) = some p → s.mem.pool[p].freed = b :: rest → b < 2 ^ 32 →
    0 < s.get (POOL_FREE.FREE p) → runs (.bpalloc c rd rs1 rs2) s fun t => plcX t c rd = BitVec.ofNat 32 b ∧ ownersOf t p b = [o] ∧
      t.mem.pool[p].freed = rest ∧ t.get (POOL_FREE.FREE p) = s.get (POOL_FREE.FREE p) - 1 ∧
      t.get (POOL_MIN.MIN_FREE p) = min (s.get (POOL_FREE.FREE p) - 1) (s.get (POOL_MIN.MIN_FREE p)) ∧ t.arm.plc[c].pc = s.arm.plc[c].pc + 4#32) ∧
  (∀ p : Fin 4, ((List.finRange 4).find? fun p => decide (n ≤ 256 * poolUnits p)) = some p → poolTake p s = none →
    (s.get POOL_CFG.SPILL).testBit p.val = false ∨ p = 3 → runs (.bpalloc c rd rs1 rs2) s fun t =>
      plcX t c rd = 0#32 ∧ (t.get POOL_EVT.EMPTY).testBit p.val = true ∧ t.mem = s.mem) ∧
  (∀ p : Fin 4, poolOf s n = some p → o ∉ ownersOf s p n →
    (ownersOf s p n ≠ [] → (ownersOf s p n).length < 4 → runs (.bpshare c rd rs1 rs2) s fun t =>
      plcX t c rd = 0#32 ∧ ownersOf t p n = ownersOf s p n ++ [o]) ∧
    (4 ≤ (ownersOf s p n).length → runs (.bpshare c rd rs1 rs2) s fun t => plcX t c rd = 4#32 ∧ t.mem = s.mem) ∧
    (ownersOf s p n = [] → runs (.bpshare c rd rs1 rs2) s fun t => plcX t c rd = 2#32 ∧ t.mem = s.mem) ∧
    (ownersOf s p n ≠ [] → runs (.bpfree c rd rs1 rs2) s fun t => plcX t c rd = 2#32 ∧ t.mem = s.mem ∧ t.get POOL_EVT.NOT_OWNER = 1) ∧
    (ownersOf s p n = [] → runs (.bpfree c rd rs1 rs2) s fun t => plcX t c rd = 3#32 ∧ t.mem = s.mem ∧ t.get POOL_EVT.DOUBLE_FREE = 1)) ∧
  (∀ p : Fin 4, poolOf s n = some p → o ∈ ownersOf s p n →
    (runs (.bpshare c rd rs1 rs2) s fun t => plcX t c rd = 0#32 ∧ t.mem = s.mem) ∧
    (ownersOf s p n ≠ [o] → runs (.bpfree c rd rs1 rs2) s fun t => plcX t c rd = 1#32 ∧ ownersOf t p n = (ownersOf s p n).erase o) ∧
    (ownersOf s p n = [o] → s.mem.badBlocks = [] → runs (.bpfree c rd rs1 rs2) s fun t => plcX t c rd = 0#32 ∧ ownersOf t p n = [] ∧
      t.mem.pool[p].freed = n :: s.mem.pool[p].freed)) ∧
  (poolOf s n = none → ∀ i, i = Instr.bpshare c rd rs1 rs2 ∨ i = Instr.bpfree c rd rs1 rs2 → runs i s fun t => plcX t c rd = 2#32 ∧
    t.get POOL_EVT.BAD_ADDR = 1 ∧ t.get POOL_ERR.ADDR = n % 2 ^ 26 ∧ t.mem = s.mem)) ∧
  (∀ s : State,
  (∀ (p : Fin 4) (count : Bool) (v : Word), s.mem.pool[p].owners ≠ [] → runs (.poolConfigWrite p count v) s fun t =>
    t.get POOL_EVT.CFG_REJ = 1 ∧ t.get (POOL_NUM.COUNT p) = s.get (POOL_NUM.COUNT p) ∧ t.get (POOL_BASE.BASE p) = s.get (POOL_BASE.BASE p) ∧ t.mem = s.mem) ∧
  (∀ (p : Fin 4) (v : Word), s.mem.pool[p].owners = [] → s.mem.badBlocks = [] → runs (.poolConfigWrite p true v) s fun t =>
    t.get (POOL_NUM.COUNT p) = v.toNat % 2 ^ 17 ∧ t.get (POOL_FREE.FREE p) = min (poolMax p) (v.toNat % 2 ^ 17) ∧
    t.get (POOL_MIN.MIN_FREE p) = t.get (POOL_FREE.FREE p) ∧ t.get (POOL_FREE.QUAR p) = 0 ∧ t.mem.pool[p].freed = []) ∧
  (∀ (p : Fin 4) (v : Word), s.mem.pool[p].owners = [] → s.mem.badBlocks = [] → runs (.poolConfigWrite p false v) s fun t =>
    t.get (POOL_BASE.BASE p) = v.toNat % 2 ^ 14 ∧ t.get (POOL_FREE.FREE p) = poolCount s p ∧ t.mem.pool[p].freed = []) ∧
  (∀ p : Fin 4, runs (.poolMinReset p) s fun t => t.get (POOL_MIN.MIN_FREE p) = s.get (POOL_FREE.FREE p) ∧ t.mem = s.mem) ∧
  (∀ (core : Fin 16) (addr : Word) (w : Bool), s.notes = [] → (core.val < 4 → s.arm.plc[core.val % 4].user = false) →
    runs (.coreAccessFault core addr w) s fun t => t.pw.accFault.getLsbD core.val = true ∧ t.arm = s.arm ∧
      (s.pw.accFault.getLsbD core.val = false → (t.events.head?.map fun x => (x.code, x.args)) = some (EvCode.accessFault, [core.val, addr.toNat])) ∧
      (s.pw.accFault.getLsbD core.val = true → t.events = s.events)) ∧
  (∀ (c : Fin 4) (addr : Word) (w : Bool), s.notes = [] → s.arm.plc[c].user = true → s.arm.plc[c].call ≠ none →
    runs (.coreAccessFault ⟨c.val, by omega⟩ addr w) s fun t => t.arm.plc[c].call = none ∧ t.arm.plc[c].user = false))

/-- GFMAC8 accumulates the field product into rd; PLQUERY of an unknown code answers all ones and of a disc its state; PLCOMMIT writes the edits
as one MAP record and answers its sequence number, 0 for edits that do not parse or must wait, and all ones when the journal refuses; QPUT
and QGET move 16-byte messages and answer 1 when full or empty (log 28), and fault outside local memory or, in U mode, outside the regions
of the call; a word of custom-0 or custom-1 spells the instruction of its funct3, or an illegal one with a nonzero funct7 or funct3 4 to 7;
in U mode the M-mode instructions end the policy call. Rests on spec/10_armature_placement.md (R271, R272, R273); spec/01_architecture.md
(R18, R20). -/
def Obligations.ForgeMapAndQueues : Prop := ∀ (s : State) (c : Fin 4) (rd rs1 rs2 : Fin 32),
  let a := (plcX s c rs1).toNat
  let l := (plcX s c rs2).toNat / 16 * 16
  (runs (.gfmac8 c rd rs1 rs2) s fun t => t.arm.plc[c].pc = s.arm.plc[c].pc + 4#32 ∧ t.regs = s.regs ∧
    ∀ r, plcX t c r = if r = rd ∧ r ≠ 0 then gfmacWord (plcX s c rd) (plcX s c rs1) (plcX s c rs2) else plcX s c r) ∧
  (∀ crcBad, (plcX s c rs1).toNat % 256 = 0 ∨ 6 < (plcX s c rs1).toNat % 256 → rd ≠ 0 → runs (.plquery c rd rs1 rs2 crcBad) s fun t =>
    plcX t c rd = 0xFFFFFFFF#32 ∧ t.regs = s.regs) ∧
  (∀ crcBad, (plcX s c rs1).toNat = 1 → (plcX s c rs2).toNat < 4096 → (s.arm.map.disc (plcX s c rs2).toNat).get Dsc.STATE ≠ 0 →
    discKey (plcX s c rs2).toNat / 256 < 71 → rd ≠ 0 → runs (.plquery c rd rs1 rs2 crcBad) s fun t =>
      (plcX t c rd).toNat % 256 = (s.arm.map.disc (plcX s c rs2).toNat).get Dsc.STATE % 256 ∧
      t.get GLB_MAP_HIT.COUNT = (s.get GLB_MAP_HIT.COUNT + 1) % 2 ^ 32) ∧
  (s.arm.plc[c].user = false → sramOk a (plcX s c rs2).toNat = true → s.notes = [] → rd ≠ 0 →
    (parseEdits s.arm.map (plcX s c rs2).toNat (sramRead s a (plcX s c rs2).toNat) = none → runs (.plcommit c rd rs1 rs2) s fun t =>
      plcX t c rd = 0#32 ∧ t.jrn = s.jrn) ∧
    (∀ es, parseEdits s.arm.map (plcX s c rs2).toNat (sramRead s a (plcX s c rs2).toNat) = some es →
      (refusing s = true → runs (.plcommit c rd rs1 rs2) s fun t => plcX t c rd = 0xFFFFFFFF#32) ∧
      (refusing s = false → s.jrn.wait1 ≠ [] → runs (.plcommit c rd rs1 rs2) s fun t => plcX t c rd = 0#32 ∧ t.jrn = s.jrn) ∧
      (refusing s = false → s.jrn.wait1 = [] → sealFits s (.map 0 es) = true → s.jrn.ckptRun = false → padNeed s (.map 0 es) = 0 → s.jrn.next < 2 ^ 32 - 2 →
        runs (.plcommit c rd rs1 rs2) s fun t => (plcX t c rd).toNat = s.jrn.next ∧ t.arm.map = s.arm.map.take s.jrn.next (.map 0 es) ∧
          ∃ r : JRec, t.jrn.recs = s.jrn.recs ++ [r] ∧ r.seq = s.jrn.next ∧ r.body = .map 0 es ∧ r.onA = false ∧ r.onB = false))) ∧
  (s.arm.plc[c].user = true → s.arm.plc[c].call ≠ none → s.notes = [] → ∀ i, i = Instr.bpalloc c rd rs1 rs2 ∨ i = Instr.bpfree c rd rs1 rs2 ∨
      i = Instr.bpshare c rd rs1 rs2 ∨ i = Instr.plcommit c rd rs1 rs2 ∨
      ((i = Instr.qput c rd rs1 rs2 ∨ i = Instr.qget c rd rs1 rs2) ∧ a ≠ 62 ∧ a ≠ 63) →
    runs i s fun t => t.arm.plc[c].call = none ∧ t.arm.plc[c].user = false ∧ t.mem = s.mem ∧ t.mq = s.mq) ∧
  (queueOk s c a = true → msgOk s c l false = true → rd ≠ 0 →
    (a < 64 → Config.mqFull a (s.mqGet a).length = false → runs (.qput c rd rs1 rs2) s fun t => plcX t c rd = 0#32 ∧
      t.mqGet a = s.mqGet a ++ [BitVec.ofNat 128 (leNum (plcRead s c l 16))] ∧ ∀ q, q ≠ a → t.mqGet q = s.mqGet q) ∧
    (64 ≤ a ∨ Config.mqFull a (s.mqGet a).length = true → runs (.qput c rd rs1 rs2) s fun t => plcX t c rd = 1#32 ∧ t.mq = s.mq)) ∧
  (queueOk s c a = true → msgOk s c l true = true → rd ≠ 0 →
    (∀ m rest, s.mqGet a = m :: rest → runs (.qget c rd rs1 rs2) s fun t => plcX t c rd = 0#32 ∧ t.mqGet a = rest ∧
      (∀ q, q ≠ a → t.mqGet q = s.mqGet q) ∧ plcRead t c l 16 = leBytes 16 m.toNat) ∧
    (s.mqGet a = [] → runs (.qget c rd rs1 rs2) s fun t => plcX t c rd = 1#32 ∧ t.mq = s.mq)) ∧
  (∀ w : Word, bits w 0 7 = 0x0B ∨ bits w 0 7 = 0x2B → bits w 25 7 ≠ 0 ∨ 4 ≤ bits w 12 3 → forgeDecode c w = some none) ∧
  (∀ w : Word, bits w 25 7 = 0 → bits w 7 5 = rd.val → bits w 15 5 = rs1.val → bits w 20 5 = rs2.val →
    (bits w 0 7 = 0x0B → (bits w 12 3 = 0 → forgeDecode c w = some (some (.bpalloc c rd rs1 rs2))) ∧
      (bits w 12 3 = 1 → forgeDecode c w = some (some (.bpfree c rd rs1 rs2))) ∧
      (bits w 12 3 = 2 → forgeDecode c w = some (some (.bpshare c rd rs1 rs2))) ∧
      (bits w 12 3 = 3 → forgeDecode c w = some (some (.gfmac8 c rd rs1 rs2)))) ∧
    (bits w 0 7 = 0x2B → (bits w 12 3 = 0 → forgeDecode c w = some (some (.plquery c rd rs1 rs2 false))) ∧
      (bits w 12 3 = 1 → forgeDecode c w = some (some (.plcommit c rd rs1 rs2))) ∧
      (bits w 12 3 = 2 → forgeDecode c w = some (some (.qput c rd rs1 rs2))) ∧
      (bits w 12 3 = 3 → forgeDecode c w = some (some (.qget c rd rs1 rs2))))) ∧
  (s.notes = [] → ∀ i w, (i, w) = (Instr.qput c rd rs1 rs2, false) ∨ (i, w) = (Instr.qget c rd rs1 rs2, true) →
    (s.arm.plc[c].user = false → localOk c l = false → runs i s fun t => t.mq = s.mq ∧ t.arm = s.arm ∧ t.pw.accFault.getLsbD c.val = true) ∧
    (s.arm.plc[c].user = true → s.arm.plc[c].call ≠ none → a = 62 ∨ a = 63 → localOk c l = false ∨ pmpOk s c l 16 w = false →
      runs i s fun t => t.mq = s.mq ∧ t.mem = s.mem ∧ t.arm.plc[c].call = none ∧ t.arm.plc[c].user = false ∧ t.pw.accFault.getLsbD c.val = true))

/-- A waiting record is sealed with the next SEQ at the tail, with a pad record before it where the ring ends; a record commits when every
usable mirror holds it; the loss of a mirror degrades, of both refuses; a checkpoint writes the next generation; a resize to the board's
capacity waits for an empty ring and is logged; the fallback copy is written when due (log 52). A row that cannot act in the present state
leaves the state as it is: the model's choice (log 4). Rests on spec/12_quench_and_boot.md (R315, R319, R320, R321, R330, R332, R334, R336,
R337). -/
def Obligations.Journal : Prop :=
  (∀ (s : State) (second : Bool),
  (∀ w rest, (if second then s.jrn.wait2 else s.jrn.wait1) = w :: rest → sealFits s w.body = true → refusing s = false → padNeed s w.body = 0 →
    runs (.recordSeal second) s fun t => (if second then t.jrn.wait2 else t.jrn.wait1) = rest ∧
      (∃ r : JRec, t.jrn.recs = s.jrn.recs ++ [r] ∧ r.seq = s.jrn.next ∧ r.fin = w.fin ∧ r.body = w.body ∧ r.ofs = s.jrn.tail ∧
        r.size = w.body.size ∧ r.owner = w.owner ∧ r.onA = false ∧ r.onB = false ∧ r.retired = false) ∧ t.jrn.next = seqSkip (s.jrn.next + 1) ∧ t.jrn.cseq = s.jrn.cseq) ∧
  (∀ w rest, (if second then s.jrn.wait2 else s.jrn.wait1) = w :: rest → sealFits s w.body = true → refusing s = false → padNeed s w.body ≠ 0 →
    runs (.recordSeal second) s fun t => ∃ p r, t.jrn.recs = s.jrn.recs ++ [p, r] ∧ p.body = .pad (padNeed s w.body) ∧ p.seq = s.jrn.next ∧
      r.body = w.body ∧ r.seq = seqSkip (s.jrn.next + 1)) ∧
  ((if second then s.jrn.wait2 else s.jrn.wait1) = [] ∨ refusing s = true ∨
      (∃ w rest, (if second then s.jrn.wait2 else s.jrn.wait1) = w :: rest ∧ sealFits s w.body = false) →
    runs (.recordSeal second) s fun t => t = s)) ∧
  (∀ s : State,
  (∀ (b : Bool) r rest, mirOk s b = true → s.jrn.recs = r :: rest → s.jrn.cseq < r.seq → (if b then r.onB else r.onA) = false →
    (mirOk s (!b) = false ∨ (if b then r.onA else r.onB) = true → runs (.recordWriteDone b) s fun t => r.seq ≤ t.jrn.cseq ∧
      t.get GLB_JNL_CSEQ_LO.CSEQ = t.jrn.cseq % 2 ^ 32) ∧
    (mirOk s (!b) = true → (if b then r.onA else r.onB) = false → runs (.recordWriteDone b) s fun t => t.jrn.cseq = s.jrn.cseq)) ∧
  (∀ b, mirOk s b = false → (runs (.recordWriteDone b) s fun t => t = s) ∧ runs (.mirrorFail b) s fun t => t = s) ∧
  (∀ b, mirOk s b = true → mirOk s (!b) = true → runs (.mirrorFail b) s fun t => mirOk t b = false ∧ mirOk t (!b) = true ∧
    t.get GLB_JNL_STAT.STATE = jnlDegraded) ∧
  (∀ b, mirOk s b = true → mirOk s (!b) = false → runs (.mirrorFail b) s fun t => mirOk t b = false ∧ refusing t = true ∧
    t.jrn.wait1 = [] ∧ t.jrn.wait2 = []) ∧
  (s.jrn.ckptRun = true ∨ (s.jrn.ckptDue = false ∧ s.jrn.changed = [] ∧ refusing s = false) → runs .mapCheckpoint s fun t => t = s) ∧
  (s.jrn.ckptRun = false → s.jrn.ckptDue = true ∨ s.jrn.changed ≠ [] → refusing s = false → runs .mapCheckpoint s fun t =>
    t.jrn.nand.gen = s.jrn.nand.gen + 1 ∧ t.jrn.nand.seqC = s.jrn.cseq ∧ t.jrn.nand.anchor = some (imageAt s) ∧ t.jrn.ckptRun = true) ∧
  (s.jrn.ckptRun = false → refusing s = true → runs .mapCheckpoint s fun t => t.jrn.nand.gen = s.jrn.nand.gen + 1 ∧
    t.jrn.nand.anchor = some s.arm.map ∧ t.jrn.ckptRun = false) ∧
  (s.jrn.cap ≠ s.jrn.bcrCap → s.jrn.recs = [] → refusing s = false → runs .journalResize s fun t => t.jrn.cap = s.jrn.bcrCap ∧
    t.jrn.jid = s.jrn.jid + 1 ∧ t.jrn.tail = 0 ∧ t.jrn.ents = s.jrn.ents ∧
    (t.events.head?.map fun x => (x.code, x.args)) = some (EvCode.journalResized, [s.jrn.cap, s.jrn.bcrCap])) ∧
  (s.jrn.cap = s.jrn.bcrCap ∨ s.jrn.recs ≠ [] ∨ refusing s = true → runs .journalResize s fun t => t = s) ∧
  (s.jrn.plFallDue = true → runs .plinthFallbackWrite s fun t => t.jrn.nand.pl = some { gen := s.get GLB_PL_GEN.GEN, ents := s.jrn.ents } ∧
    t.jrn.plFallDue = false ∧ t.regs = s.regs) ∧
  (s.jrn.plFallDue = false → runs .plinthFallbackWrite s fun t => t = s))

/-- The gather timeout closes a volume's open group; a closed group whose images are placed commits with one MAP record that ends its commands;
a due header batch is written on a disc that is not failed, with the next header sequence number and, verified, the records due; a map
rebuild clears MAP_SCAN and ends with an anchor of the map at the committed sequence, with no lists and no runs when no header is found (log
53). A row that cannot act in the present state leaves the state as it is: the model's choice (log 4). Rests on spec/11_redundancy.md (R280,
R281, R283, R284, R286, R288). -/
def Obligations.WriteGroupsAndHeaders : Prop := ∀ s : State,
  (∀ (vol : Fin 256) g, s.notes = [] → woGroup s vol.val = some g → runs (.gatherTimeout vol {}) s fun t =>
    ∃ g', woGroup t vol.val = some g' ∧ g'.closed = true ∧ g'.cmds = g.cmds) ∧
  (∀ vol : Fin 256, s.notes = [] → woGroup s vol.val = none → runs (.gatherTimeout vol {}) s fun t => t = s) ∧
  (∀ (vol : Fin 256) g, woGroup s vol.val = some g → g.closed = true → (g.images.all fun i => i.placed.isSome) = true → runs (.groupCommit vol) s fun t =>
    woGroup t vol.val = none ∧ t.arm.groupSeq = s.arm.groupSeq + 1 ∧ (refusing s = false →
      (∃ r ∈ t.jrn.recs, ∃ es, r.body = .map s.arm.groupSeq es ∧ r.fin = true ∧ r.owner = g.cmds) ∨
      ∃ w ∈ t.jrn.wait1, ∃ es, w.body = .map s.arm.groupSeq es ∧ w.fin = true ∧ w.owner = g.cmds)) ∧
  (∀ vol : Fin 256, (∀ g, woGroup s vol.val = some g → g.closed = false ∨ (g.images.all fun i => i.placed.isSome) = false) →
    runs (.groupCommit vol) s fun t => t = s) ∧
  (∀ (d : Nat) (v : Bool), (s.jrn.hdrDue.filter fun x => x.2.1 = d) = [] ∨ (s.arm.map.disc d).get Dsc.STATE = 0 ∨ (s.arm.map.disc d).get Dsc.STATE = 2 →
    runs (.headerBatchWrite d v) s fun t => t = s) ∧
  (∀ (d : Nat), (s.jrn.hdrDue.filter fun x => x.2.1 = d) ≠ [] → (s.arm.map.disc d).get Dsc.STATE = 1 → hdrFull (s.arm.map.disc d) = false →
    ∀ v, runs (.headerBatchWrite d v) s fun t => ∃ c ∈ t.arm.hdrs, c.disc = d ∧ c.hseq = (s.arm.map.disc d).get Dsc.HSEQ_NEXT ∧
      (v = false → c.recs = []) ∧
      (v = true → ∀ x, (s.jrn.hdrDue.filter fun x => x.2.1 = d) = [x] → (∀ y ∈ s.arm.hdrs, y.disc ≠ d) → x.2.2.length ≤ 511 →
        c.recs = x.2.2 ∧ x ∉ t.jrn.hdrDue)) ∧
  (s.isSet GLB_BOOT.MAP_SCAN = true → runs .mapRebuild s fun t => t.get GLB_BOOT.MAP_SCAN = 0 ∧ t.get CQI_STAT.MAP_SCAN = 0 ∧
    t.jrn.nand.gen = s.jrn.nand.gen + 1 ∧ t.jrn.nand.seqC = s.jrn.cseq ∧ t.jrn.nand.anchor = some t.arm.map ∧ t.arm.cache = [] ∧
    (s.arm.hdrs = [] → t.arm.map.loss = [] ∧ t.arm.map.all pgRun = [] ∧ t.arm.map.all pgExt = [])) ∧
  (s.isSet GLB_BOOT.MAP_SCAN = false → runs .mapRebuild s fun t => t = s)

/-- A run is written to zeros stripe by stripe with a checkpoint each; a row is destaged under its lock and its DIRTY record (log 53): with no
repair of the row noted, its cluster takes the records' data, each parity cluster the coefficient times the change, no other cluster
changes; it waits for a locked row and for a region under resync; a lock passes to the first waiter that it frees; resync takes the first
region of its list, encodes its parity anew from data no repair of which is noted, and clears its DIRTY mark. A row that cannot act in the
present state leaves the state as it is: the model's choice (log 4). Rests on spec/11_redundancy.md (R289, R291, R292, R293). -/
def Obligations.DestagingAndResync : Prop := ∀ s : State,
  (∀ (run : Word), (s.arm.map.run? run.toNat).isNone = true ∨ (s.arm.map.run run.toNat).get Run.STRIPES ≤ initOf s run.toNat →
    ∀ m, runs (.runInitZero run m) s fun t => t = s) ∧
  (∀ (run : Word), (s.arm.map.run? run.toNat).isNone = false → (s.arm.map.run run.toNat).get Run.STATE ≠ 0 →
    isWo s ((s.arm.map.run run.toNat).get Run.VOL) = false → initOf s run.toNat < (s.arm.map.run run.toNat).get Run.STRIPES →
    ((runMembers (s.arm.map.run run.toNat)).all fun j => writable s run.toNat (initOf s run.toNat) j || memberErased s run.toNat (initOf s run.toNat) j) = true →
    refusing s = false → runs (.runInitZero run {}) s fun t =>
      ((∃ r ∈ t.jrn.recs, r.body = .checkpoint run.toNat 2 (initOf s run.toNat + 1)) ∨
        ∃ w ∈ t.jrn.wait1, w.body = .checkpoint run.toNat 2 (initOf s run.toNat + 1)) ∧
      ∀ c < 16, ∀ j ∈ runMembers (s.arm.map.run run.toNat), writable s run.toNat (initOf s run.toNat) j = true →
        mediaAt t run.toNat (initOf s run.toNat) c j = zeroCl) ∧
  (∀ (run stripe : Nat) (row : Fin 16) (j : Fin 8) (m : MediaEvents),
    let me := lockKey run stripe row.val j.val
    (recordsOf s run stripe row.val j.val = [] ∨ (s.arm.map.run run).get Run.K ≤ j.val → runs (.destage run stripe row j m) s fun t =>
      t.arm.locks = s.arm.locks.erase me ∧ t.jrn = s.jrn ∧ t.regs = s.regs) ∧
    (recordsOf s run stripe row.val j.val ≠ [] → j.val < (s.arm.map.run run).get Run.K →
      ((s.arm.resync.any fun x => x.1 = run && x.2.1 = stripe / 16) = true → runs (.destage run stripe row j m) s fun t => t = s) ∧
      ((s.arm.resync.any fun x => x.1 = run && x.2.1 = stripe / 16) = false →
        (rowLocked s run stripe row.val j.val = true → me ∉ s.arm.lockWait → runs (.destage run stripe row j m) s fun t =>
          t.arm.lockWait = s.arm.lockWait ++ [me] ∧ t.jrn = s.jrn) ∧
        (rowLocked s run stripe row.val j.val = false → memberOut s run stripe j.val = false → refusing s = false → s.jrn.cseq < s.jrn.next →
          dirtyAsked s run (stripe / 16) j.val = false → dirtyWaits s run (stripe / 16) j.val = false → runs (.destage run stripe row j m) s fun t =>
            me ∈ t.arm.locks ∧ t.arm.media = s.arm.media ∧ ((∃ r ∈ t.jrn.recs, r.body = .dirty [(run, stripe / 16, j.val, false)]) ∨
              ∃ w ∈ t.jrn.wait2, w.body = .dirty [(run, stripe / 16, j.val, false)])) ∧
        (s.arm.locks = [] → memberOut s run stripe j.val = false → dirtySet s run (stripe / 16) j.val = true →
          runs (.destage run stripe row j m) s fun t => t.arm.locks = []) ∧
        (let k := (s.arm.map.run run).get Run.K
          let n := k + (s.arm.map.run run).get Run.M
          let at_ (i : Nat) : Nat := mediaKey (whereIs s run stripe row.val i).1 (whereIs s run stripe row.val i).2
          let new := mergeCl s run stripe row.val j.val (recordsOf s run stripe row.val j.val) (mediaAt s run stripe row.val j.val)
          s.arm.locks = [] → s.arm.map.loss = [] → dirtySet s run (stripe / 16) j.val = true → s.arm.incons.contains (run, stripe, row.val) = false →
          (∀ i < n, Todo.repair run stripe row.val i ∉ s.arm.todo) →
          (∀ i < n, writable s run stripe i = true ∧ ∀ i' < n, at_ i = at_ i' → i = i') → runs (.destage run stripe row j {}) s fun t =>
            t.arm.locks = [] ∧ mediaAt t run stripe row.val j.val = new ∧
            (∀ p < (s.arm.map.run run).get Run.M, mediaAt t run stripe row.val (k + p) =
              clXor (mediaAt s run stripe row.val (k + p)) (clScale (coef p j.val) (clXor (mediaAt s run stripe row.val j.val) new))) ∧
            ∀ i < k, i ≠ j.val → mediaAt t run stripe row.val i = mediaAt s run stripe row.val i)))) ∧
  (∀ w, (s.arm.lockWait.find? fun w => !rowLocked s w.1 w.2.1 w.2.2.1 w.2.2.2) = some w → runs .rowLockGrant s fun t =>
    t.arm.locks = s.arm.locks ++ [w] ∧ t.arm.lockWait = s.arm.lockWait.erase w ∧ t.arm.media = s.arm.media ∧ t.jrn = s.jrn ∧ t.regs = s.regs) ∧
  ((s.arm.lockWait.find? fun w => !rowLocked s w.1 w.2.1 w.2.2.1 w.2.2.2) = none → runs .rowLockGrant s fun t => t = s) ∧
  (∀ m, s.arm.resync = [] → runs (.resync m) s fun t => t = s) ∧
  (∀ run g j rest m, s.arm.resync = (run, g, j) :: rest → runs (.resync m) s fun t => t.arm.resync = rest) ∧
  (∀ run g j rest, s.arm.resync = (run, g, j) :: rest →
    let k := (s.arm.map.run run).get Run.K
    let m := (s.arm.map.run run).get Run.M
    let at_ (i c x : Nat) : Nat := mediaKey (whereIs s run i c x).1 (whereIs s run i c x).2
    let mine (i : Nat) : Prop := 16 * g ≤ i ∧ i < 16 * g + 16 ∧ i < (s.arm.map.run run).get Run.STRIPES
    refusing s = false → (∀ i c, mine i → recordsOf s run i c j = []) → (∀ i c x, mine i → Todo.repair run i c x ∉ s.arm.todo) →
    (∀ i c x, mine i → c < 16 → x < k + m → writable s run i x = true ∧ ∀ i' c' x', mine i' → c' < 16 → x' < k + m →
      at_ i c x = at_ i' c' x' → i = i' ∧ c = c' ∧ x = x') →
    runs (.resync {}) s fun t =>
      ((∃ r ∈ t.jrn.recs, r.body = .dirty [(run, g, j, true)]) ∨ ∃ w ∈ t.jrn.wait2, w.body = .dirty [(run, g, j, true)]) ∧
      ∀ i c, mine i → c < 16 → (∀ x < k, mediaAt t run i c x = mediaAt s run i c x) ∧
        ∀ p < m, mediaAt t run i c (k + p) = encode p ((List.range k).map fun x => mediaAt s run i c x))

/-- A rebuild without target waits and reports, or takes the first disc that fits under the magazine rule; a batch waits for locked rows, pauses
without enough sources, else writes the rebuilt clusters to the target and advances B by 16; a reshape unit waits for rebuilds of its
volume, copies k old stripes, and ends at the capacity (log 54). A row that cannot act in the present state leaves the state as it is: the
model's choice (log 4). Rests on spec/11_redundancy.md (R301, R302, R303, R304, R306, R308). -/
def Obligations.RebuildsAndReshapes : Prop :=
  (∀ (s : State) (run : Nat) (j : Fin 8),
  (s.rebuild? run j = none → (runs (.rebuildTargetChoose run j) s fun t => t = s) ∧ ∀ m, runs (.rebuildBatchDone run j m) s fun t => t = s) ∧
  (∀ r, s.rebuild? run j = some r →
    let rr := s.arm.map.run run
    let fit := (sortBy (discBefore s) (registered s)).filter (targetFits s r)
    let others := ((runMembers rr).filter fun i => i != j.val).map fun i => rr.get (Run.DISC i)
    (r.chosen = true → runs (.rebuildTargetChoose run j) s fun t => t = s) ∧
    (r.chosen = false → fit = [] → runs (.rebuildTargetChoose run j) s fun t => t.arm = s.arm ∧ t.jrn = s.jrn ∧
      (t.events.head?.map fun x => (x.code, x.args)) = some (EvCode.rebuildWaitTarget, [run, j.val])) ∧
    (∀ d l f tx, r.chosen = false → (fit.find? fun d => magRule s (others ++ [d]) (rr.get Run.M)) = some d →
      reserve s d (rr.get Run.STRIPES) (txStart s) = some (l, f, tx) → runs (.rebuildTargetChoose run j) s fun t =>
        ∃ r', t.rebuild? run j = some r' ∧ r'.chosen = true ∧ r'.target = d ∧ r'.layer = l ∧ r'.first = f) ∧
    (r.st = 0 ∨ ((batchOf r).any fun i => s.arm.locks.any fun l => l.1 = run && l.2.1 = i) = true → ∀ m,
      runs (.rebuildBatchDone run j m) s fun t => t = s) ∧
    (r.st ≠ 0 → ((batchOf r).any fun i => s.arm.locks.any fun l => l.1 = run && l.2.1 = i) = false → r.migrate = false →
      (sourcesNow s run r.b j < rr.get Run.K → ((runMembers rr).any fun i => i != j.val && memberOut s run r.b i && !memberErased s run r.b i) = true →
        ∀ m, runs (.rebuildBatchDone run j m) s fun t => ∃ r', t.rebuild? run j = some r' ∧ r'.st = 2 ∧ r'.b = r.b) ∧
      (rr.get Run.K ≤ sourcesNow s run r.b j → r.b + 16 < r.last → runs (.rebuildBatchDone run j {}) s fun t =>
        ∃ r', t.rebuild? run j = some r' ∧ r'.b = r.b + 16 ∧ r'.target = r.target) ∧
      (rr.get Run.K ≤ sourcesNow s run r.b j → r.b + 16 < r.last → s.arm.map.loss = [] → (∀ a, s.arm.map.redirect r.target a = a) →
        r.first + 16 * r.last ≤ 2 ^ 28 → (∀ x ∈ runMembers rr, x ≠ j.val → rr.get (Run.DISC x) ≠ r.target ∧ s.rebuild? run x = none) →
        (∀ i ∈ batchOf r, ∀ row < 16, ∃ c, reconstruct s {} run i row j none = .rebuilt c) →
        runs (.rebuildBatchDone run j {}) s fun t => ∀ i ∈ batchOf r, ∀ row < 16, ∀ c, reconstruct s {} run i row j none = .rebuilt c →
          (whereIs t run i row j).1 = r.target ∧ mediaAt t run i row j = c)))) ∧
  (∀ (s : State) (vol : Fin 256), s.notes = [] →
  ((s.arm.reshapes.find? fun r => r.vol = vol.val) = none → ∀ m, runs (.reshapeUnitCopy vol m) s fun t => t = s) ∧
  (∀ r, (s.arm.reshapes.find? fun r => r.vol = vol.val) = some r →
    let paused := s.arm.rebuilds.any fun x => (s.arm.map.run x.run).get Run.VOL = vol.val
    let first := r.live / (256 * volK s vol.val)
    (paused = true → ∀ m, runs (.reshapeUnitCopy vol m) s fun t => t = s) ∧
    (paused = false → (s.arm.map.vol vol.val).get Vol.CAP ≤ r.live → ∀ m, runs (.reshapeUnitCopy vol m) s fun t =>
      (t.arm.reshapes.find? fun r => r.vol = vol.val) = none ∧ s.evSeq < t.evSeq) ∧
    (paused = false → r.live + unitLbas s r < (s.arm.map.vol vol.val).get Vol.CAP → (∀ i < r.k, stripeMapped s r (first + i) = false) →
      r.k ≤ (openRuns s vol.val false).foldl (fun z x => z + (x.get Run.STRIPES - runUsed s (x.get Run.RUN))) 0 →
      runs (.reshapeUnitCopy vol {}) s fun t => ∃ r', (t.arm.reshapes.find? fun r => r.vol = vol.val) = some r' ∧
        r'.live = r.live + r.k * volK s vol.val * 256)))

/-- The repair at the head of the list writes the reconstructed cluster, returns to the end while its member is out, and is dropped with its
run; a lost cluster's place is written to zeros; a scrub of a disc with no strips changes no medium, another, with no repair of its run
noted, re-encodes the run's parity and changes no data; the end of an absent engine's grace fails the discs in it, with their event (log
54). A row that cannot act in the present state leaves the state as it is: the model's choice (log 4). Rests on spec/11_redundancy.md (R295,
R297, R300, R311). -/
def Obligations.RepairAndScrub : Prop := ∀ s : State,
  (∀ m, s.arm.todo = [] → runs (.clusterRepair m) s fun t => t = s) ∧
  (∀ run stripe row j rest m, s.arm.todo = .repair run stripe row j :: rest → Todo.repair run stripe row j ∉ rest → m.bad = [] →
    (s.arm.map.run? run).isNone = false → (s.rebuild? run j).isNone = true → writable s run stripe j = true →
    failOf m (whereIs s run stripe row j).1 (whereIs s run stripe row j).2 = 0 → ∀ c, reconstruct s m run stripe row j none = .rebuilt c →
    ((txStart s).1.disc (whereIs s run stripe row j).1).get Dsc.MEDIUM ≠ 1 → runs (.clusterRepair m) s fun t =>
      t.arm.todo = rest ∧ mediaAt t run stripe row j = c ∧ t.arm.map = s.arm.map) ∧
  (∀ run stripe row j rest, s.arm.todo = .repair run stripe row j :: rest → Todo.repair run stripe row j ∉ rest →
    ((s.arm.map.run? run).isNone = true → runs (.clusterRepair {}) s fun t => t.arm.todo = rest) ∧
    ((s.arm.map.run? run).isNone = false → (s.rebuild? run j).isNone = true → memberErased s run stripe j = false →
      (memberOut s run stripe j = true → runs (.clusterRepair {}) s fun t => t.arm.todo = rest ++ [.repair run stripe row j]) ∧
      (∀ c, memberOut s run stripe j = false → reconstruct s {} run stripe row j none = .rebuilt c →
        ((txStart s).1.disc (whereIs s run stripe row j).1).get Dsc.MEDIUM ≠ 1 → runs (.clusterRepair {}) s fun t =>
          t.arm.todo = rest ∧ mediaAt t run stripe row j = c ∧ t.arm.map = s.arm.map))) ∧
  (∀ run stripe row j rest, s.arm.todo = .zero run stripe row j :: rest → Todo.zero run stripe row j ∉ rest → onLoss s run stripe row j = true →
    memberErased s run stripe j = false → memberOut s run stripe j = false →
    ((txStart s).1.disc (whereIs s run stripe row j).1).get Dsc.MEDIUM ≠ 1 → runs (.clusterRepair {}) s fun t =>
      t.arm.todo = rest ∧ mediaAt t run stripe row j = zeroCl) ∧
  (∀ d m, runs (.scrub d m) s fun t => (t.discInt d).scrub = false) ∧
  (∀ d, (((s.arm.map.all pgRun).map Prod.snd).filter fun r => r.get Run.STATE != 0 && (runDiscs r).contains d) = [] →
    runs (.scrub d {}) s fun t => t.arm.media = s.arm.media ∧ t.arm.map = s.arm.map ∧ t.regs = s.regs) ∧
  (∀ d rr, (((s.arm.map.all pgRun).map Prod.snd).filter fun r => r.get Run.STATE != 0 && (runDiscs r).contains d) = [rr] →
    let run := rr.get Run.RUN
    let n := rr.get Run.K + rr.get Run.M
    let at_ (i c x : Nat) : Nat := mediaKey (whereIs s run i c x).1 (whereIs s run i c x).2
    s.arm.map.run run = rr → (∀ i c x, Todo.repair run i c x ∉ s.arm.todo) →
    (∀ i c x, i < runWritten s run → c < 16 → x < n → writable s run i x = true ∧ ((txStart s).1.disc (whereIs s run i c x).1).get Dsc.MEDIUM ≠ 1 ∧
      ∀ i' c' x', i' < runWritten s run → c' < 16 → x' < n → at_ i c x = at_ i' c' x' → i = i' ∧ c = c' ∧ x = x') →
    runs (.scrub d {}) s fun t => t.arm.map = s.arm.map ∧ ∀ i c, i < runWritten s run → c < 16 →
      (∀ x < rr.get Run.K, mediaAt t run i c x = mediaAt s run i c x) ∧
      ∀ p < rr.get Run.M, mediaAt t run i c (rr.get Run.K + p) = encode p ((List.range (rr.get Run.K)).map fun x => mediaAt s run i c x)) ∧
  (∀ e : Eng, engineOut s e = false → runs (.engGraceExpire e) s fun t => t = s) ∧
  (∀ (e : Eng) d, engineOut s e = true → ((registered s).filter fun d => homeOf s d == e) = [d] → discState s d ≠ 0 → discState s d ≠ 2 →
    discState s d ≠ 3 → runs (.engGraceExpire e) s fun t => s.evSeq < t.evSeq ∧
      (t.events.head?.map fun x => (x.code, x.args)) = some (EvCode.discFailed, [d, 3]))

/-- A submission doorbell reads the index area, or is held while a read runs; a completion doorbell takes the head; a head or tail outside its
ring, or a head past the tail, fails the queue with its cause; an index read takes head and tail and requests the new slots; a full
completion queue is polled (log 60). A row that cannot act in the present state leaves the state as it is: the model's choice (log 4). Rests
on spec/13_cqi_queues.md (R346, R349, R350, R351, R356, R357, R362). -/
def Obligations.DoorbellsAndIndexReads : Prop := ∀ (s : State) (q : Fin 65),
  (doorsOpen s = true → s.get (QB_STAT.STATE q) = qActive → s.hostOpen = true → s.cqi.q[q].idx = none → runs (.doorbellSq q) s fun t =>
    t.cqi.q[q].idx = some (some s.us) ∧ t.out = s.out ++ [.idxRead q.val] ∧ t.regs = s.regs) ∧
  (doorsOpen s = true → s.get (QB_STAT.STATE q) = qActive → s.cqi.q[q].idx ≠ none → runs (.doorbellSq q) s fun t =>
    t.cqi.q[q].dbSq = true ∧ t.cqi.q[q].dbAt = s.us ∧ t.cqi.q[q].idx = s.cqi.q[q].idx ∧ t.out = s.out) ∧
  (doorsOpen s = false ∨ s.get (QB_STAT.STATE q) ≠ qActive → runs (.doorbellSq q) s fun t => t = s) ∧
  (∀ head : BitVec 16, doorsOpen s = true → cqServed s q = true →
    (s.hostOpen = false → runs (.doorbellCq q head) s fun t => t.cqi.q[q].dbCq = true ∧ t.out = s.out ∧ t.regs = s.regs) ∧
    (s.hostOpen = true → head.toNat < cqSize s q → headPast s q head.toNat = false → runs (.doorbellCq q head) s fun t => t.cqi.q[q].cqHead = head.toNat) ∧
    (s.hostOpen = true → s.get (QB_STAT.STATE q) = qActive → cqSize s q ≤ head.toNat → runs (.doorbellCq q head) s fun t => queueFailed t q 1) ∧
    (s.hostOpen = true → s.get (QB_STAT.STATE q) = qActive → head.toNat < cqSize s q → headPast s q head.toNat = true →
      runs (.doorbellCq q head) s fun t => queueFailed t q 8)) ∧
  (∀ head, doorsOpen s = false ∨ cqServed s q = false → runs (.doorbellCq q head) s fun t => t = s) ∧
  (∀ tail head : BitVec 16, s.cqi.q[q].idx = none → runs (.indexReadDone q tail head) s fun t => t = s) ∧
  (∀ (tail head : BitVec 16) d, s.cqi.q[q].idx = some d → s.get (QB_STAT.STATE q) = qActive → sqSize s q ≤ tail.toNat →
    runs (.indexReadDone q tail head) s fun t => queueFailed t q 1) ∧
  (∀ (tail head : BitVec 16) at_, s.cqi.q[q].idx = some (some at_) → s.get (QB_STAT.STATE q) = qActive → tail.toNat < sqSize s q →
    head.toNat < cqSize s q → headPast s q head.toNat = false →
    let n := (tail.toNat + sqSize s q - s.cqi.q[q].head) % sqSize s q
    runs (.indexReadDone q tail head) s fun t => t.cqi.q[q].cqHead = head.toNat ∧
      (n ≠ 0 → t.cqi.q[q].fetch = s.cqi.q[q].fetch ++ [(n, at_)] ∧ t.cqi.q[q].head = tail.toNat ∧
        Out.slotRead q.val s.cqi.q[q].head n ∈ t.out) ∧
      (n = 0 → t.cqi.q[q].fetch = s.cqi.q[q].fetch ∧ t.cqi.q[q].head = s.cqi.q[q].head)) ∧
  (∀ head : BitVec 16, s.isSet (QB_STAT.CQ_FULL q) = true → s.hostOpen = true → cqServed s q = true → head.toNat < cqSize s q →
    headPast s q head.toNat = false → runs (.cqFullPoll q head) s fun t => t.cqi.q[q].cqHead = head.toNat ∧ Out.idxRead q.val ∈ t.out) ∧
  (∀ head, s.isSet (QB_STAT.CQ_FULL q) = false ∨ s.hostOpen = false ∨ cqServed s q = false → runs (.cqFullPoll q head) s fun t => t = s)

/-- A faulty slot fails the queue with its cause and tag; a sound FIRST and LAST slot admits its command with its capsule and origin; an error
reading index or slots fails the queue with cause 7; one during a command completes it with INTERNAL (fault code free, log 38); an interim
entry carries the estimate; a passed deadline ends a command before its point of no return (log 60). A row that cannot act in the present
state leaves the state as it is: the model's choice (log 4). Rests on spec/13_cqi_queues.md (R347, R353, R354, R355, R356, R363, R365,
R366); spec/14_cqi_commands.md (R379). -/
def Obligations.SlotsAndErrors : Prop := ∀ (s : State) (q : Fin 65),
  (∀ slots segs est free, s.cqi.q[q].fetch = [] ∨ slots = [] → runs (.slotFetchDone q slots segs est free) s fun t => t = s) ∧
  (∀ (w : BitVec 512) at_ segs est free c, s.cqi.q[q].fetch = [(1, at_)] → s.cqi.q[q].part = [] → s.get (QB_STAT.STATE q) = qActive →
    slotCause (s.cqi.q[q].cmds.map Cmd.tag) [] w = some c → runs (.slotFetchDone q [w] segs est free) s fun t =>
      queueFailed t q c ∧ t.get (QB_ERR.TAG q) = slotTag w ∧ t.cqi.q[q].fetch = []) ∧
  (∀ (w : BitVec 512) at_ segs est free, s.cqi.q[q0].fetch = [(1, at_)] → s.cqi.q[q0].part = [] →
    slotCause (s.cqi.q[q0].cmds.map Cmd.tag) [] w = none → bits w 1 1 = 1 → 1 ≤ bits w 32 8 → bits w 32 8 ≤ 0x14 →
    runs (.slotFetchDone q0 [w] segs est free) s fun t => ∃ c, t.cqi.q[q0].cmds = s.cqi.q[q0].cmds ++ [c] ∧ c.tag = slotTag w ∧
      c.cap = (slotBytes w).take (slotLen w) ∧ c.origin = at_ ∧ c.decided = false ∧ t.cqi.q[q0].fetch = []) ∧
  (runs (.hostMemoryError q none) s fun t => (s.cqi.q[q].idx = none → s.cqi.q[q].fetch = [] → t = s) ∧
    (s.cqi.q[q].idx ≠ none ∨ s.cqi.q[q].fetch ≠ [] → s.get (QB_STAT.STATE q) = qActive → queueFailed t q 7 ∧ t.get CQI_EVT.DMA_ERR = 1 ∧ Out.aer ∈ t.out)) ∧
  (∀ (tag : Fin 32) c, s.cmd? q tag.val = some c →
    (c.decided = true → runs (.hostMemoryError q (some tag)) s fun t => t = s) ∧
    (c.decided = false → cqReady s q → runs (.hostMemoryError q (some tag)) s fun t => t.get CQI_EVT.DMA_ERR = 1 ∧ t.cmd? q tag.val = none ∧
      entered s t q tag.val stInternal (Config.faultCode s.fresh).toNat ((if c.ponr && pastDeadline s c then 1 else 0) + 4)) ∧
    (∀ eta : Word, c.decided = false → c.interim = false → cqReady s q → runs (.interimDue q tag eta) s fun t =>
      entered s t q tag.val stInterim eta.toNat 0 ∧ ∃ c', t.cmd? q tag.val = some c' ∧ c'.interim = true ∧ c'.decided = false) ∧
    (∀ eta, c.decided = true ∨ c.interim = true → runs (.interimDue q tag eta) s fun t => t = s) ∧
    (c.decided = false → capDeadline c ≠ 0 → c.ponr = true → runs (.deadlinePass q tag) s fun t =>
      ∃ c', t.cmd? q tag.val = some c' ∧ c'.late = true ∧ c'.decided = false) ∧
    (c.decided = false → capDeadline c ≠ 0 → c.ponr = false → cqReady s q → runs (.deadlinePass q tag) s fun t =>
      entered s t q tag.val stDeadline 0 0 ∧ t.cmd? q tag.val = none) ∧
    (c.decided = true ∨ capDeadline c = 0 → runs (.deadlinePass q tag) s fun t => t = s)) ∧
  (∀ tag : Fin 32, s.cmd? q tag.val = none → ∀ i, i = Instr.hostMemoryError q (some tag) ∨ (∃ eta, i = Instr.interimDue q tag eta) ∨
    i = Instr.deadlinePass q tag → runs i s fun t => t = s)

/-- EN = 0 disables an active or failed queue and keeps its commands; with a doorbell in the same cycle one last index read runs first; EN = 1
of an idle disabled queue reads the index area and activates it, with cause 7 when the read fails; queue 0 from NONE needs a correct
configuration and READY, else CFG_ERR (log 60). A row that cannot act in the present state leaves the state as it is: the model's choice
(log 4). Rests on spec/13_cqi_queues.md (R367, R368, R369, R370). -/
def Obligations.QueueStates : Prop := ∀ (s : State) (q : Fin 65),
  (∀ same, s.get (QB_STAT.STATE q) = qActive ∨ s.get (QB_STAT.STATE q) = qError → same = false ∨ doorsOpen s = false ∨ s.get (QB_STAT.STATE q) = qError →
    s.cqi.q[q].last = false → runs (.queueDisable q same) s fun t => t.get (QB_STAT.STATE q) = qDisabled ∧
    t.get (QB_CTRL.EN q) = 0 ∧ t.cqi.q[q].part = [] ∧ t.cqi.q[q].fetch = [] ∧ t.cqi.q[q].idx = none ∧ t.cqi.q[q].cmds = s.cqi.q[q].cmds ∧
    t.isSet (QB_STAT.IDLE q) = (s.cqi.q[q].cmds.isEmpty && s.cqi.q[q].due.isEmpty)) ∧
  (s.get (QB_STAT.STATE q) = qActive → doorsOpen s = true → s.hostOpen = true → s.cqi.q[q].idx = none → runs (.queueDisable q true) s fun t =>
    t.get (QB_STAT.STATE q) = qDisabled ∧ t.cqi.q[q].last = true ∧ t.cqi.q[q].idx = some (some s.us) ∧ t.isSet (QB_STAT.IDLE q) = false ∧
    t.cqi.q[q].cmds = s.cqi.q[q].cmds ∧ Out.idxRead q.val ∈ t.out) ∧
  (q ≠ q0 → s.get (QB_STAT.STATE q) = qNone → (∀ same, runs (.queueDisable q same) s fun t => t = s) ∧ ∀ a b, runs (.queueEnable q a b) s fun t => t = s) ∧
  (∀ a b, s.get (QB_STAT.STATE q) = qActive ∨ s.get (QB_STAT.STATE q) = qError ∨ (s.get (QB_STAT.STATE q) = qDisabled ∧ s.isSet (QB_STAT.IDLE q) = false) →
    runs (.queueEnable q a b) s fun t => t = s) ∧
  (∀ tail head : BitVec 16, s.get (QB_STAT.STATE q) = qDisabled → s.isSet (QB_STAT.IDLE q) = true → cfgOk s q = true → s.hostOpen = true →
    s.cqi.q[q].newRing = false → tail.toNat < sqSize s q → head.toNat < cqSize s q → headPast s q head.toNat = false →
    runs (.queueEnable q (some tail) (some head)) s fun t => t.get (QB_STAT.STATE q) = qActive ∧ t.get (QB_CTRL.EN q) = 1 ∧
      t.get (QB_POS.SQ_HEAD q) = tail.toNat ∧ t.cqi.q[q].head = tail.toNat ∧ t.cqi.q[q].cqHead = head.toNat ∧ t.rd (QB_ERR.reg q) = 0#32 ∧
      (t.get (qerrFld (q.val / 32))).testBit (q.val % 32) = false ∧ t.get (QB_STAT.IDLE q) = 0) ∧
  (∀ a b, a = none ∨ b = none → s.get (QB_STAT.STATE q) = qDisabled → s.isSet (QB_STAT.IDLE q) = true → cfgOk s q = true → s.hostOpen = true →
    runs (.queueEnable q a b) s fun t => queueFailed t q 7 ∧ t.get CQI_EVT.DMA_ERR = 1) ∧
  (∀ tail : BitVec 16, s.get (QB_STAT.STATE q0) = qNone → cfgOk s q0 = true → s.isSet CQI_STAT.READY = true → s.hostOpen = true → s.cqi.q[q0].due = [] →
    tail.toNat < sqSize s q0 → runs (.queueEnable q0 (some tail) (some 0#16)) s fun t => t.get (QB_STAT.STATE q0) = qActive ∧
      t.get (QB_POS.CQ_TAIL q0) = 0 ∧ t.get (QB_POS.PHASE q0) = 1 ∧ t.get (QB_POS.SQ_HEAD q0) = tail.toNat) ∧
  (∀ a b, s.get (QB_STAT.STATE q0) = qNone → cfgOk s q0 = false ∨ s.isSet CQI_STAT.READY = false → runs (.queueEnable q0 a b) s fun t =>
    t.get (QB_STAT.CFG_ERR q0) = 1 ∧ t.get (QB_STAT.STATE q0) = qNone)

/-- Unmasking a pending vector sends it when messages are enabled; clearing bus mastering waits, setting it releases what is held; a function
reset in a running device clears READY, the queues, the open groups and their waiting data; one by the host clears the configuration space's
settings as well (log 61). A row that cannot act in the present state leaves the state as it is: the model's choice (log 4). Rests on
spec/13_cqi_queues.md (R345, R346, R371, R372, R373). -/
def Obligations.HostFunction : Prop := ∀ s : State,
  (∀ v : Fin 129, runs (.msixUnmask v) s fun t => t.cqi.mask.getLsbD v.val = false ∧
    (s.cqi.pba.getLsbD v.val = true → s.cqi.msixEn = true → s.cqi.fmask = false → s.hostOpen = true → t.out = s.out ++ [.msix v.val] ∧
      t.cqi.pba.getLsbD v.val = false) ∧
    (s.cqi.pba.getLsbD v.val = false → t.out = s.out)) ∧
  (runs (.busMasterEnable false) s fun t => t.cqi.bme = false ∧ t.get CQI_STAT.BME_WAIT = 1 ∧ t.out = s.out) ∧
  (s.cqi.paused = false → s.isSet CQI_STAT.RESETTING = false → s.pw.pfail = false → runs (.busMasterEnable true) s fun t =>
    t.cqi.bme = true ∧ t.get CQI_STAT.BME_WAIT = 0 ∧ t.cqi.held = []) ∧
  (s.pw.life ≠ .running → (runs .cqiFrst s fun t => t = s) ∧ runs .functionReset s fun t => t = s) ∧
  (s.pw.life = .running → ∀ c, c = Instr.cqiFrst ∨ c = Instr.functionReset → runs c s fun t => t.get CQI_STAT.READY = 0 ∧
    t.get CQI_STAT.RESETTING = 1 ∧ t.cqi.q = Vector.replicate 65 {} ∧ t.cqi.held = [] ∧ t.arm.groups = [] ∧ t.jrn.wait1.all (fun w => !w.body.isData) = true) ∧
  (s.pw.life = .running → runs .cqiFrst s fun t => t.cqi.bme = s.cqi.bme ∧ t.cqi.mask = s.cqi.mask ∧ t.cqi.msixEn = s.cqi.msixEn) ∧
  (s.pw.life = .running → runs .functionReset s fun t => t.cqi.bme = false ∧ t.cqi.msixEn = false ∧ t.cqi.mask = BitVec.allOnes 129 ∧
    t.cqi.pba = 0#129 ∧ t.cqi.table = [] ∧ t.cqi.d3 = false ∧ t.get CQI_STAT.BME_WAIT = 1)

/-- An access while the clocks of the fabric stand does nothing (log 4); one during initialisation, or behind an earlier one of its requester,
waits; a hit answers from the line or changes it; the eviction and side buffers answer next; a bypassed miss goes to memory; a cached miss
starts a fill in a free way of the group's partition, or writes a whole line at once; a fill answers its waiters and keeps the line, a
poisoned one is not kept (log 55). A row that cannot act in the present state leaves the state as it is: the model's choice (log 4). Rests
on spec/15_memory_and_cache.md (R403, R414, R415, R416, R418, R423); spec/01_architecture.md (R22, R33). -/
def Obligations.StripeCacheAccesses : Prop := ∀ (s : State) (g : Fin 16) (i : Fin 4) (line : BitVec 22) (a : Access), s.notes = [] →
  let n := line.toNat
  let rq := 4 * g.val + i.val
  (fabOn s = false → ∀ sram, runs (.strcAccess g i line a sram) s fun t => t = s) ∧
  (fabOn s = true → s.get STRC_STAT.STATE ≠ strcInit → strcAhead s rq n = true → runs (.strcAccess g i line a none) s fun t =>
    t.mem.strc.wait = s.mem.strc.wait ++ [(rq, n, a)] ∧ t.out = s.out ∧ t.ddr = s.ddr) ∧
  (fabOn s = true → s.get STRC_STAT.STATE = strcInit → runs (.strcAccess g i line a none) s fun t =>
    t.mem.strc.wait = s.mem.strc.wait ++ [(rq, n, a)] ∧ t.out = s.out ∧ t.ddr = s.ddr) ∧
  (∀ k l, fabOn s = true → strcAhead s rq n = false → s.get STRC_STAT.STATE ≠ strcInit → lineHit s n = some (k, l) → runs (.strcAccess g i line .read none) s fun t =>
    t.out = s.out ++ [.strcData rq n l.data] ∧ t.get STRC_HIT.COUNT = (s.get STRC_HIT.COUNT + 1) % 2 ^ 32 ∧ t.ddr = s.ddr) ∧
  (∀ k l, fabOn s = true → strcAhead s rq n = false → strcOpen s g.val → lineHit s n = some (k, l) → a ≠ .read → runs (.strcAccess g i line a none) s fun t =>
    t.out = s.out ++ [.strcDone rq n] ∧ t.ddr = s.ddr ∧ ∃ u, (k, { line := n, dirty := true, data := accData a l.data, used := u }) ∈ t.mem.strc.lines) ∧
  (∀ b, fabOn s = true → strcAhead s rq n = false → s.get STRC_STAT.STATE ≠ strcInit → lineHit s n = none → s.mem.strc.evb.find? (fun x => x.1 = n) = some (n, b) →
    runs (.strcAccess g i line a none) s fun t => t.ddr = s.ddr ∧ (n, accData a b) ∈ t.mem.strc.evb ∧
      t.out = s.out ++ [if a = .read then .strcData rq n b else .strcDone rq n]) ∧
  (fabOn s = true → strcAhead s rq n = false → s.get STRC_STAT.STATE ≠ strcInit → ¬ strcOpen s g.val → strcLacks s n → runs (.strcAccess g i line a none) s fun t =>
    t.dramLine n = accData a (s.dramLine n) ∧ t.mem.strc = s.mem.strc ∧ t.get STRC_MISS.COUNT = (s.get STRC_MISS.COUNT + 1) % 2 ^ 32 ∧
    t.out = s.out ++ [if a = .read then .strcData rq n (s.dramLine n) else .strcDone rq n]) ∧
  (∀ k l, fabOn s = true → strcAhead s rq n = false → s.get STRC_STAT.STATE ≠ strcInit → ¬ strcOpen s g.val → lineHit s n = some (k, l) → a ≠ .read → runs (.strcAccess g i line a none) s fun t =>
    t.out = s.out ++ [.strcDone rq n] ∧
    (l.dirty = false → t.dramLine n = accData a (s.dramLine n) ∧ ∀ x ∈ t.mem.strc.lines, x.1 ≠ k) ∧
    (l.dirty = true → t.ddr = s.ddr ∧ ∃ u, (k, { line := n, dirty := true, data := accData a l.data, used := u }) ∈ t.mem.strc.lines)) ∧
  (∀ b, fabOn s = true → strcAhead s rq n = false → s.get STRC_STAT.STATE ≠ strcInit → ¬ strcOpen s g.val → lineHit s n = none → (∀ x ∈ s.mem.strc.evb, x.1 ≠ n) →
    s.mem.strc.side.find? (fun x => x.1 = n) = some (n, b) → runs (.strcAccess g i line a none) s fun t =>
      (a = .read → t.out = s.out ++ [.strcData rq n b] ∧ t.ddr = s.ddr) ∧
      (a ≠ .read → t.out = s.out ++ [.strcDone rq n] ∧ t.dramLine n = accData a (s.dramLine n) ∧ ∀ x ∈ t.mem.strc.side, x.1 ≠ n)) ∧
  (fabOn s = true → strcAhead s rq n = false → strcOpen s g.val → strcLacks s n → (∀ f ∈ s.mem.strc.fills, f.line ≠ n) → s.mem.strc.fills.length < 16 →
    (∃ w ∈ waysOf s g.val, (∀ l ∈ s.mem.strc.lines, l.1 ≠ 16 * setIx n + w) ∧ ∀ f ∈ s.mem.strc.fills, f.way ≠ some (16 * setIx n + w)) →
    ((∀ d, a ≠ .whole d) → runs (.strcAccess g i line a none) s fun t => t.out = s.out ∧ t.ddr = s.ddr ∧ t.mem.strc.lines = s.mem.strc.lines ∧
      ∃ w ∈ waysOf s g.val, t.mem.strc.fills = s.mem.strc.fills ++ [{ line := n, way := some (16 * setIx n + w), wait := [(rq, a)] }]) ∧
    (∀ d, a = .whole d → runs (.strcAccess g i line a none) s fun t => t.out = s.out ++ [.strcDone rq n] ∧ t.ddr = s.ddr ∧
      t.mem.strc.fills = s.mem.strc.fills ∧ ∃ w ∈ waysOf s g.val, ∃ u, (16 * setIx n + w, { line := n, dirty := true, data := d, used := u }) ∈ t.mem.strc.lines)) ∧
  (∀ err, (∀ f ∈ s.mem.strc.fills, f.line ≠ n) → runs (.strcFillDone line err) s fun t => t = s) ∧
  (∀ k, s.mem.strc.fills = [{ line := n, way := some k, wait := [(rq, .read)] }] → strcOpen s g.val → lineHit s n = none → strcQuiet s →
    runs (.strcFillDone line none) s fun t => t.out = s.out ++ [.strcData rq n (s.dramLine n)] ∧ t.mem.strc.fills = [] ∧
      ∃ u, (k, { line := n, dirty := false, data := s.dramLine n, used := u }) ∈ t.mem.strc.lines) ∧
  (∀ beat : BitVec 31, s.mem.strc.fills = [{ line := n, way := none, wait := [] }] → strcQuiet s →
    runs (.strcFillDone line (some (beat, .uncorrectable .journalled))) s fun t => t.mem.strc.lines = s.mem.strc.lines ∧ t.mem.strc.fills = [] ∧
      t.get GLB_DDR_EADDR.ADDR = beat.toNat ∧ t.get GLB_DDR_EADDR.VALID = 1) ∧
  (∀ (macro_ : BitVec 9) (row : BitVec 12), fabOn s = true → s.get STRC_STAT.STATE = strcInit → runs (.strcAccess g i line a (some (macro_, row, none))) s fun t =>
    t.get GLB_SRAM_EPOS.MACRO = macro_.toNat ∧ t.get GLB_SRAM_EPOS.ROW = row.toNat ∧ t.get GLB_SRAM_EPOS.UNCORR = 0 ∧
    t.mem.strc.wait = s.mem.strc.wait ++ [(rq, n, a)])

/-- Write-backs drain the eviction buffer in order; prefetch, invalidate, clean, clean-invalidate and lock-fill act on their lines or are
refused (lock-fill loads nothing while the cache is not on, log 107); enable, disable, the end of an operation, of draining and of
initialisation move the state; the window writes locked or disabled ways; partitions are refused on overlap; CNT_CLR leaves the same cycle's
counts (log 55). A row that cannot act in the present state leaves the state as it is: the model's choice (log 4). Rests on
spec/15_memory_and_cache.md (R416, R417, R419, R420, R421, R422, R423, R427). -/
def Obligations.StripeCacheTrafficAndStates : Prop :=
  (∀ s : State,
  (s.mem.strc.evb = [] → runs .strcWriteback s fun t => t = s) ∧
  (∀ line b rest, s.mem.strc.evb = (line, b) :: rest → strcQuiet s → runs .strcWriteback s fun t => t.dramLine line = b ∧ t.mem.strc.evb = rest ∧
    t.mem.strc.lines = s.mem.strc.lines ∧ t.get STRC_STAT.EVB = rest.length % 16) ∧
  (∀ (line : BitVec 22) (n : Fin 16), s.get STRC_STAT.STATE ≠ strcOn → runs (.strcPrefetch line n) s fun t => t = s) ∧
  (∀ line : BitVec 22, s.get STRC_STAT.STATE = strcOn → strcQuiet s → s.mem.strc.fills.length < 16 → runs (.strcPrefetch line 0) s fun t =>
    t.out = s.out ∧ t.mem.strc.fills =
      if fetchable s line.toNat then s.mem.strc.fills ++ [{ line := line.toNat, way := none, wait := [] }] else s.mem.strc.fills) ∧
  (∀ c, c = Instr.strcInval ∨ c = Instr.strcClean ∨ c = Instr.strcCleanInval ∨ c = Instr.strcLockfill → ¬ strcOpMay s →
    runs c s fun t => t.get STRC_EVT.OP_REJ = 1 ∧ t.mem = s.mem ∧ t.ddr = s.ddr) ∧
  (strcOpMay s → runs .strcInval s fun t => t.get STRC_STAT.OP_BUSY = 1 ∧ t.ddr = s.ddr ∧
    t.mem.strc.lines = s.mem.strc.lines.filter (fun l => !inRange s l.2.line) ∧ t.mem.strc.side = s.mem.strc.side.filter fun l => !inRange s l.1) ∧
  (strcOpMay s → runs .strcClean s fun t => t.get STRC_STAT.OP_BUSY = 1 ∧
    t.mem.strc.lines = s.mem.strc.lines.map (fun l => if inRange s l.2.line then (l.1, { l.2 with dirty := false }) else l)) ∧
  (strcOpMay s → runs .strcCleanInval s fun t => t.get STRC_STAT.OP_BUSY = 1 ∧
    t.mem.strc.lines = s.mem.strc.lines.filter fun l => !inRange s l.2.line) ∧
  (∀ k l, strcOpMay s → s.mem.strc.lines.filter (fun x => x.2.dirty && inRange s x.2.line) = [(k, l)] →
    ∀ c, c = Instr.strcClean ∨ c = Instr.strcCleanInval → runs c s fun t => ∀ i, t.dramLine i = if i = l.line then l.data else s.dramLine i) ∧
  ((s.get STRC_LOCK.WAYS).testBit (s.get STRC_CTRL.OP_WAY) = false → runs .strcLockfill s fun t => t.get STRC_EVT.OP_REJ = 1 ∧ t.mem = s.mem) ∧
  (strcOpMay s → (s.get STRC_LOCK.WAYS).testBit (s.get STRC_CTRL.OP_WAY) = true → s.get STRC_STAT.STATE ≠ strcOn → runs .strcLockfill s fun t =>
    t.get STRC_STAT.OP_BUSY = 1 ∧ t.mem.strc.lines = s.mem.strc.lines) ∧
  (strcOpMay s → (s.get STRC_LOCK.WAYS).testBit (s.get STRC_CTRL.OP_WAY) = true → s.get STRC_STAT.STATE = strcOn → runs .strcLockfill s fun t =>
    t.get STRC_STAT.OP_BUSY = 1 ∧ ∀ i, i < 64 → ∃ l, (16 * setIx (s.get STRC_OPA.LINE / 64 * 64 + i) + s.get STRC_CTRL.OP_WAY, l) ∈ t.mem.strc.lines ∧
      l.line = s.get STRC_OPA.LINE / 64 * 64 + i)) ∧
  (∀ s : State,
  (s.isSet STRC_STAT.OP_BUSY = false → runs .strcOpDone s fun t => t = s) ∧
  (s.isSet STRC_STAT.OP_BUSY = true → runs .strcOpDone s fun t => t.get STRC_STAT.OP_BUSY = 0 ∧ t.get STRC_EVT.OP_DONE = 1 ∧ t.mem = s.mem ∧
    t.get STRC_STAT.STATE = if s.get STRC_STAT.STATE = strcOn ∧ s.isSet STRC_CTRL.ENABLE = false then strcDraining else s.get STRC_STAT.STATE) ∧
  (s.get STRC_STAT.STATE = strcDraining → runs .strcEnable s fun t => t.get STRC_EVT.EN_REJ = 1 ∧ t.get STRC_STAT.STATE = strcDraining ∧
    t.get STRC_CTRL.ENABLE = s.get STRC_CTRL.ENABLE) ∧
  (s.get STRC_STAT.STATE ≠ strcDraining → runs .strcEnable s fun t => t.get STRC_CTRL.ENABLE = 1 ∧
    t.get STRC_STAT.STATE = if s.get STRC_STAT.STATE = strcOff then strcOn else s.get STRC_STAT.STATE) ∧
  (runs .strcDisable s fun t => t.get STRC_CTRL.ENABLE = 0 ∧ t.mem = s.mem ∧ t.get STRC_STAT.STATE =
    if s.get STRC_STAT.STATE = strcOn ∧ s.isSet STRC_STAT.OP_BUSY = false then strcDraining else s.get STRC_STAT.STATE) ∧
  (s.get STRC_STAT.STATE ≠ strcDraining → runs .strcDrainDone s fun t => t = s) ∧
  (s.get STRC_STAT.STATE = strcDraining → strcQuiet s → runs .strcDrainDone s fun t => t.get STRC_STAT.STATE = strcOff ∧ t.get STRC_EVT.DISABLED = 1 ∧
    t.mem.strc.lines = [] ∧ t.mem.strc.evb = [] ∧ t.mem.strc.side = [] ∧ t.get STRC_STAT.DIRTY = 0 ∧ t.get STRC_LOCK.WAYS = s.get STRC_LOCK.WAYS ∧
    (s.mem.strc.evb = [] → ∀ k l, s.mem.strc.lines = [(k, l)] → t.dramLine l.line = if l.dirty then l.data else s.dramLine l.line)) ∧
  (s.get STRC_STAT.STATE ≠ strcInit → runs .strcInitDone s fun t => t = s) ∧
  (s.get STRC_STAT.STATE = strcInit → strcQuiet s → runs .strcInitDone s fun t =>
    t.get STRC_STAT.STATE = if s.isSet STRC_CTRL.ENABLE then strcOn else strcDraining) ∧
  (∀ (way : Fin 16) (set : Fin 64) (m d : Block), let k := 16 * set.val + way.val
    (∀ l, (s.get STRC_LOCK.WAYS).testBit way.val = true → s.mem.strc.lines.find? (fun x => x.1 = k) = some (k, l) →
      runs (.strcWindowWrite way set m d) s fun t => t.ddr = s.ddr ∧
        ∃ u, (k, { line := l.line, dirty := true, data := (l.data &&& ~~~ m) ||| (d &&& m), used := u }) ∈ t.mem.strc.lines) ∧
    ((s.get STRC_LOCK.WAYS).testBit way.val = true → (∀ x ∈ s.mem.strc.lines, x.1 ≠ k) → runs (.strcWindowWrite way set m d) s fun t => t = s) ∧
    ((s.get STRC_LOCK.WAYS).testBit way.val = false → s.get STRC_STAT.STATE ≠ strcOff → runs (.strcWindowWrite way set m d) s fun t => t = s) ∧
    ((s.get STRC_LOCK.WAYS).testBit way.val = false → s.get STRC_STAT.STATE = strcOff → runs (.strcWindowWrite way set m d) s fun t =>
      t.mem.strc.lines = s.mem.strc.lines ∧ Cells.get (fun _ => 0#32768) t.mem.strc.raw k =
        (Cells.get (fun _ => 0#32768) s.mem.strc.raw k &&& ~~~ m) ||| (d &&& m))) ∧
  (∀ (i : Fin 8) (v : Word), let ways := v.toNat % 2 ^ 16
    (v.getLsbD 16 = false ∨ (2 ≤ popcount 16 ways ∧ ∀ j : Fin 8, j ≠ i → s.isSet (STRC_PART.VALID j.val) = true → s.get (STRC_PART.WAYS j.val) &&& ways = 0) →
      runs (.strcPartWrite i v) s fun t => t.rd (STRC_PART.reg i.val) = v &&& 0x1FFFF#32) ∧
    (v.getLsbD 16 = true → popcount 16 ways < 2 ∨ (∃ j : Fin 8, j ≠ i ∧ s.isSet (STRC_PART.VALID j.val) = true ∧ s.get (STRC_PART.WAYS j.val) &&& ways ≠ 0) →
      runs (.strcPartWrite i v) s fun t => t.get STRC_EVT.CFG_REJ = 1 ∧ t.rd (STRC_PART.reg i.val) = s.rd (STRC_PART.reg i.val))) ∧
  (∀ same : BitVec 3, runs (.strcCntClr same) s fun t => t.get STRC_HIT.COUNT = same.toNat % 2 ∧ t.get STRC_MISS.COUNT = same.toNat / 2 % 2 ∧
    t.get STRC_LINV.LOCKED_INVAL = same.toNat / 4 ∧ t.mem = s.mem))

/-- Among unmasked requesters of tiers 1 to 5, a lone tier-1 requester wins; otherwise the first starved group is forced, else class 4 after 15
contests without it, else the lowest tier by lottery with the next LFSR value; losers count, the winner's count and a masked requester's
clear (log 56). A row that cannot act in the present state leaves the state as it is: the model's choice (log 4). Rests on
spec/15_memory_and_cache.md (R424, R425, R426); spec/01_architecture.md (R21). -/
def Obligations.ArbiterContests : Prop := ∀ (s : State) (rs : Vector (Option ArbReq) 16),
  (∀ g : Fin 16, ∀ r, rs[g] = some r → 1 ≤ r.tier ∧ r.tier ≤ 5) →
  let gs := (List.range 16).filter fun g => (rs[g]?.getD none).isSome && !(s.get ARB_STAT.MASK).testBit g
  (gs = [] → runs (.arbiterContest rs) s fun t => t.out = s.out ∧ t.regs = s.regs ∧
    ∀ i : Fin 16, t.mem.losses[i] = if (s.get ARB_STAT.MASK).testBit i.val then 0 else s.mem.losses[i]) ∧
  (gs ≠ [] → runs (.arbiterContest rs) s fun t => ∃ g ∈ gs, t.out = s.out ++ [.grant g] ∧
    ∀ i : Fin 16, t.mem.losses[i] = if i.val = g then 0 else if i.val ∈ gs then s.mem.losses[i] + 1
      else if (s.get ARB_STAT.MASK).testBit i.val then 0 else s.mem.losses[i]) ∧
  (∀ g, gs.filter (fun g => tierOf rs g = 1) = [g] → runs (.arbiterContest rs) s fun t => t.out = s.out ++ [.grant g] ∧
    t.get ARB_SEED.LFSR = lfsrStep (s.get ARB_SEED.LFSR) ∧ t.get ARB_STAT.FORCED = s.get ARB_STAT.FORCED) ∧
  (∀ g, gs.filter (fun g => tierOf rs g = 1) = [] → gs.find? (fun g => max 1 (s.get ARB_CFG.STARVE_LIM) ≤ s.mem.losses[g]?.getD 0) = some g →
    runs (.arbiterContest rs) s fun t => t.out = s.out ++ [.grant g] ∧ t.get ARB_SEED.LFSR = s.get ARB_SEED.LFSR ∧
      t.get ARB_STAT.FORCED = satInc (2 ^ ARB_STAT.FORCED.w - 1) (s.get ARB_STAT.FORCED)) ∧
  (gs ≠ [] → gs.filter (fun g => tierOf rs g = 1) = [] → (∀ g : Fin 16, s.mem.losses[g] < max 1 (s.get ARB_CFG.STARVE_LIM)) →
    gs.filter (fun g => tierOf rs g = 4) ≠ [] → 15 ≤ s.mem.sinceC4 → runs (.arbiterContest rs) s fun t =>
      ∃ g ∈ gs, tierOf rs g = 4 ∧ t.out = s.out ++ [.grant g] ∧ t.mem.sinceC4 = 0) ∧
  (∀ k, k ≠ 3 → gs.filter (fun g => tierOf rs g = 1) = [] → (∀ g : Fin 16, s.mem.losses[g] < max 1 (s.get ARB_CFG.STARVE_LIM)) → s.mem.sinceC4 < 15 →
    (∀ g ∈ gs, k ≤ tierOf rs g) → gs.filter (fun g => tierOf rs g = k) ≠ [] → runs (.arbiterContest rs) s fun t =>
      let l := lfsrStep (s.get ARB_SEED.LFSR)
      t.get ARB_SEED.LFSR = l ∧ t.out = s.out ++ [.grant (drawFrom (withTickets s (gs.filter fun g => tierOf rs g = k)) l)])

/-- A zero seed is taken as 1; a job with no key fails and ends its command with KEY_SLOT_EMPTY, another goes to the unit with less work at or
above its priority, suspends a job of lower priority unless that is ending, or queues; an ended job is followed by the best suspended or
queued one; a corrected error counts, and one in a third patrol pass retires its row, an uncorrectable one records its address and its
owner's outcome (log 56). A row that cannot act in the present state leaves the state as it is: the model's choice (log 4). Rests on
spec/15_memory_and_cache.md (R402, R403, R404, R425); spec/16_security.md (R429, R436, R437). -/
def Obligations.SeedsCiphersAndDdr : Prop :=
  (∀ s : State,
  (∀ v : Word, runs (.arbSeedWrite v) s fun t => t.get ARB_SEED.LFSR = (if v.toNat % 2 ^ 31 = 0 then 1 else v.toNat % 2 ^ 31) ∧ t.mem = s.mem) ∧
  (∀ (prio : Fin 4) (slot : BitVec 6) (blocks : Nat) (ending : BitVec 2) owner, fabOn s = true → slotLoaded s slot.toNat = false →
    runs (.cipherJobReady prio slot blocks ending owner) s fun t => (owner = none → t.out = s.out ++ [.jobFailed slot.toNat]) ∧ Out.jobFailed slot.toNat ∈ t.out ∧ t.sec.cu = s.sec.cu ∧
      ∀ q tag c, owner = some (q, tag) → s.cmd? q tag.val = some c → c.decided = false → cqReady s q →
        t.cmd? q tag.val = none ∧ entered s t q tag.val stKeyEmpty slot.toNat (if c.ponr && pastDeadline s c then 1 else 0)) ∧
  (∀ prio slot blocks ending owner, fabOn s = false → runs (.cipherJobReady prio slot blocks ending owner) s fun t => t = s) ∧
  (∀ (prio : Fin 4) (slot : BitVec 6) (blocks : Nat) (ending : BitVec 2) owner (u : Fin 2), fabOn s = true → slotLoaded s slot.toNat = true →
    (u = 1 ↔ cuWork s.sec.cu[(1 : Fin 2)] prio < cuWork s.sec.cu[(0 : Fin 2)] prio) →
    let j : CJob := { prio := prio, slot := slot.toNat, blocks := blocks }
    (s.sec.cu[u].run = none → runs (.cipherJobReady prio slot blocks ending owner) s fun t => t.sec.cu[u].run = some j ∧
      (t.get GLB_CIPH_STAT.BUSY).testBit u.val = true) ∧
    (∀ r, s.sec.cu[u].run = some r → prio.val < r.prio → ending.getLsbD u.val = false → runs (.cipherJobReady prio slot blocks ending owner) s fun t =>
      t.sec.cu[u].run = some j ∧ t.sec.cu[u].susp = r :: s.sec.cu[u].susp ∧
      t.get GLB_CIPH_STAT.SUSP = satInc (2 ^ GLB_CIPH_STAT.SUSP.w - 1) (s.get GLB_CIPH_STAT.SUSP)) ∧
    (∀ r, s.sec.cu[u].run = some r → r.prio ≤ prio.val ∨ ending.getLsbD u.val = true → runs (.cipherJobReady prio slot blocks ending owner) s fun t =>
      t.sec.cu[u].run = some r ∧ t.sec.cu[u].queue = s.sec.cu[u].queue ++ [j] ∧ t.sec.cu[u].susp = s.sec.cu[u].susp) ∧
    (runs (.cipherJobReady prio slot blocks ending owner) s fun t => ∀ w : Fin 2, w ≠ u → t.sec.cu[w] = s.sec.cu[w])) ∧
  (∀ u : Fin 2, s.sec.cu[u].run = none → runs (.cipherJobDone u) s fun t => t = s) ∧
  (∀ u : Fin 2, s.sec.cu[u].run ≠ none →
    (s.sec.cu[u].susp = [] → s.sec.cu[u].queue = [] → runs (.cipherJobDone u) s fun t => t.sec.cu[u].run = none ∧
      (t.get GLB_CIPH_STAT.BUSY).testBit u.val = false) ∧
    (∀ r rest, s.sec.cu[u].susp = r :: rest → r.prio < 4 → (∀ j ∈ s.sec.cu[u].queue, r.prio ≤ j.prio) → runs (.cipherJobDone u) s fun t =>
      t.sec.cu[u].run = some r ∧ t.sec.cu[u].susp = rest ∧ t.sec.cu[u].queue = s.sec.cu[u].queue) ∧
    (∀ j rest, s.sec.cu[u].queue = j :: rest → j.prio < 4 → (∀ x ∈ rest, j.prio ≤ x.prio) → (∀ r ∈ s.sec.cu[u].susp, j.prio < r.prio) →
      runs (.cipherJobDone u) s fun t => t.sec.cu[u].run = some j ∧ t.sec.cu[u].queue = rest ∧ t.sec.cu[u].susp = s.sec.cu[u].susp))) ∧
  (∀ s : State,
  (runs .ddrRefresh s fun t => t = s) ∧
  (∀ beat err, s.notes = [] → s.get GLB_DDR_STAT.STATE ≠ 1 ∨ ddrBytes s ≤ 8 * beat.toNat → runs (.ddrPatrolScrub beat err) s fun t => t = s) ∧
  (∀ beat : BitVec 31, s.get GLB_DDR_STAT.STATE = 1 → 8 * beat.toNat < ddrBytes s → beat ≠ 0#31 →
    let k := rowKey (8 * beat.toNat)
    let n := Cells.get (fun _ => 0) s.mem.ceRows k
    (s.notes = [] → runs (.ddrPatrolScrub beat none) s fun t => t = s) ∧
    (runs (.ddrPatrolScrub beat (some .corrected)) s fun t =>
      t.get GLB_DDR_ERR.CE = satInc 65535 (s.get GLB_DDR_ERR.CE) ∧ t.get GLB_DDR_ERR.UE = s.get GLB_DDR_ERR.UE ∧
      (k ∈ s.mem.ceSeen → t.mem = s.mem) ∧
      (k ∉ s.mem.ceSeen → Cells.get (fun _ => 0) t.mem.ceRows k = n + 1 ∧ (n ≠ 2 → t.mem.badBlocks = s.mem.badBlocks) ∧
        (n = 2 → 8 * beat.toNat / 131072 ∈ t.mem.badBlocks))) ∧
    (runs (.ddrPatrolScrub beat (some (.uncorrectable .journalled))) s fun t => t.get GLB_DDR_ERR.UE = satInc 65535 (s.get GLB_DDR_ERR.UE) ∧
      t.get GLB_DDR_EADDR.ADDR = beat.toNat ∧ t.get GLB_DDR_EADDR.VALID = 1 ∧ 8 * beat.toNat / 131072 ∈ t.mem.badBlocks) ∧
    (∀ (q : Fin 65) (tag : Nat) (c : Cmd), cqReady s q → s.cmd? q tag = some c → c.ponr = false → c.decided = false → tag < 32 → s.notes = [] →
      runs (.ddrPatrolScrub beat (some (.uncorrectable (.cluster q tag true)))) s fun t => t.get GLB_DDR_EADDR.ADDR = beat.toNat ∧
        t.cmd? q tag = none ∧ entered s t q tag stInternal (Config.faultCode s.fresh).toNat 0)))

/-- For every register of the map and every field, a whole word written over the stored word gives in each bit of the field what its type says:
RW and RWS take the value, W1C clears where 1 is written, W1S sets there, RO and WO keep the stored bit. That a WO field stores nothing is
DEDUCED (log 70). Rests on spec/00_scope.md (R9, R11, R13). -/
def Obligations.RegisterFieldTypes : Prop := ∀ (r : Reg) (i : RegInfo) (f : FldInfo) (v w : Word), r.info = some i → f ∈ i.fields →
  let g : Fld := ⟨r, f.lo, f.w⟩
  ∀ j, j < f.w → (g.of (wordWritten r 0xF#4 v w)).testBit j = match f.ty with
    | .rw | .rws => (g.of v).testBit j
    | .w1c => (g.of w).testBit j && !(g.of v).testBit j
    | .w1s => (g.of w).testBit j || (g.of v).testBit j
    | .ro | .wo => (g.of w).testBit j

/-- A write a core may not make is an access fault, in a policy call its end; a misaligned store of a core is none (it takes the core's own
exception, log 43); a misaligned or partial write of a register is discarded; a core's store to a memory changes the bytes enabled and no
other, one through its DDR window the bytes at BASE x 128 MiB + a, one of a queue's last word puts the message; each requester's writable
ranges, the plain registers of the engines and the motion block, the DDR windows, the trigger registers (each acting as its command), queue
doorbells, discarded writes by state, and the host's configuration-space writes act as the spec says (log 43, 70). Rests on spec/00_scope.md
(R9, R12); spec/01_architecture.md (R18, R20, R24, R25, R26, R27); spec/13_cqi_queues.md (R374, R491). -/
def Obligations.RegisterWrites : Prop := ∀ (s : State) (v : Word), s.notes = [] →
  (∀ (rq : Req) (id : Nat) (addr : Word) (be : BitVec 4) hw same, reqId rq = some id → storeMisaligned addr.toNat be = false →
    coreMay s rq addr.toNat = false → inUMode s rq = false →
    runs (.registerWrite rq addr be v hw same) s fun t => t.pw.accFault.getLsbD id = true ∧ (∀ r, r.blk ≠ .cqi → t.rd r = s.rd r) ∧ t.eng = s.eng ∧ t.arm = s.arm ∧
      (s.pw.accFault.getLsbD id = false → (t.events.head?.map fun x => (x.code, x.args)) = some (EvCode.accessFault, [id, addr.toNat]))) ∧
  (∀ (rq : Req) (id : Nat) (addr : Word) (be : BitVec 4) hw same, reqId rq = some id → storeMisaligned addr.toNat be = true →
    runs (.registerWrite rq addr be v hw same) s fun t => t = s) ∧
  (∀ (c : Fin 4) (addr : Word) (be : BitVec 4) hw same, s.arm.plc[c].user = true → s.arm.plc[c].call ≠ none → storeMisaligned addr.toNat be = false →
    coreMay s (.plc c) addr.toNat = false ∨ pmpOk s c addr.toNat (popcount 4 be.toNat) true = false →
    runs (.registerWrite (.plc c) addr be v hw same) s fun t => t.arm.plc[c].call = none ∧ t.arm.plc[c].user = false ∧
      t.pw.accFault.getLsbD c.val = true) ∧
  (∀ (rq : Req) (addr : Word) (be : BitVec 4) hw same, (rq = .host ∨ (reqId rq).isSome = true ∧ coreMay s rq addr.toNat = true) → inUMode s rq = false →
    let d := if rq = .host then hostWriteDest s addr.toNat else coreDest s rq addr.toNat
    (∃ r, d = .reg r) ∨ (∃ e b a, d = .pm e b a) ∨ (∃ e a, d = .dm e a) ∨ (∃ q w, d = .queue q w) ∨ ∃ a, d = .msix a →
    addr.toNat % 4 ≠ 0 ∨ be ≠ 0xF#4 → runs (.registerWrite rq addr be v hw same) s fun t => t = s) ∧
  (∀ (rq : Req) (addr : Word) (be : BitVec 4) hw same k a, (reqId rq).isSome = true → coreMay s rq addr.toNat = true → inUMode s rq = false →
    storeMisaligned addr.toNat be = false → coreDest s rq addr.toNat = .mem k a → k ≠ .rom → runs (.registerWrite rq addr be v hw same) s fun t =>
      t.regs = s.regs ∧ ∀ i : Fin 4, t.memGet k (a / 4 * 4 + i.val) =
        if be.getLsbD i.val then v.extractLsb' (8 * i.val) 8 else s.memGet k (a / 4 * 4 + i.val)) ∧
  (∀ (rq : Req) (addr : Word) hw same a, (reqId rq).isSome = true → coreMay s rq addr.toNat = true → inUMode s rq = false → addr.toNat % 4 = 0 →
    0x80000000 ≤ addr.toNat → a = windowAddr s rq addr.toNat → runs (.registerWrite rq addr 0xF#4 v hw same) s fun t =>
      t.regs = s.regs ∧ a < ddrBytes s ∧ ∀ i : Fin 4, t.ddrNum (a + i.val) 1 = (v.extractLsb' (8 * i.val) 8).toNat) ∧
  (∀ (rq : Req) (addr : Word) hw same q, (reqId rq).isSome = true → coreMay s rq addr.toNat = true → inUMode s rq = false →
    coreDest s rq addr.toNat = .queue q 3 → addr.toNat % 4 = 0 → Config.mqFull q (s.mqGet q).length = false → runs (.registerWrite rq addr 0xF#4 v hw same) s fun t =>
      t.mqGet q = s.mqGet q ++ [BitVec.ofNat 128 (t.memNum .shared (Config.mqWindow.toNat + 16 * q) 16)]) ∧
  (∀ (e : Eng) (off : Nat), off ∈ [0x1008, 0x100C, 0x4014, 0x4018, 0x500C, 0x5010, 0x6010, 0x6014, 0x7010, 0x7014, 0x7824, 0x7828, 0x8010, 0x8014] →
    (∀ rq, rq = .sup ∨ rq = .esq e → writesPlain rq (0x48000000 + 0x40000 * e.val + off) v ⟨.eng, e.val, 0, off⟩ s) ∧
    (0 < s.get GLB_SEC_STAT.DBG_LEVEL → writesPlain .host (0x2000000 + 0x40000 * e.val + off) v ⟨.eng, e.val, 0, off⟩ s) ∧
    (s.get GLB_SEC_STAT.DBG_LEVEL = 0 → writesNothing .host (0x2000000 + 0x40000 * e.val + off) v s)) ∧
  (∀ off, off = 0x2000 ∨ off = 0x2004 → writesPlain .sup (0x54000000 + off) v ⟨.mot, 0, 0, off⟩ s) ∧
  (∀ c : Fin 16, (c.val < 7 → v.toNat % 128 ≤ 112 → ∀ same, runs (.registerWrite .sup (BitVec.ofNat 32 (0x40000100 + 4 * c.val)) 0xF#4 v 0#32 same) s
      fun t => t = s.wr (GLB_DDRWIN.reg c.val) (wordWritten (GLB_DDRWIN.reg c.val) 0xF#4 v (s.rd (GLB_DDRWIN.reg c.val)))) ∧
    (112 < v.toNat % 128 → ∀ same, runs (.registerWrite .sup (BitVec.ofNat 32 (0x40000100 + 4 * c.val)) 0xF#4 v 0#32 same) s fun t => t = s) ∧
    (7 ≤ c.val → writesNothing .sup (0x40000100 + 4 * c.val) v s) ∧
    ∀ rq id, reqId rq = some id → rq ≠ .sup → inUMode s rq = false → writesNothing rq (0x40000100 + 4 * c.val) v s) ∧
  (∀ rq id a, reqId rq = some id → rq ≠ .sup → inUMode s rq = false → a % 4 = 0 → (0x40002000 ≤ a ∧ a < 0x40004000) ∨ (0x40005000 ≤ a ∧ a < 0x40010000) →
    writesNothing rq a v s) ∧
  writesAs .sup 0x40003044 v (.arbSeedWrite v) s ∧
  (∀ i : Fin 8, writesAs .sup (0x40004010 + 4 * i.val) v (.strcPartWrite i v) s) ∧
  writesAs .sup 0x40004048 v (.strcPrefetch (v.extractLsb' 0 22) (Fin.ofNat 16 (v.toNat / 2 ^ 22))) s ∧
  (∀ p : Fin 4, writesAs .sup (0x40005000 + 16 * p.val) v (.poolConfigWrite p false v) s ∧
    writesAs .sup (0x40005004 + 16 * p.val) v (.poolConfigWrite p true v) s) ∧
  (∀ (rq : Req) (id : Nat) (r : Fin 37), reqId rq = some id → inUMode s rq = false → writesAs rq (0x40001000 + 4 * r.val) v (.claimWrite rq r v) s) ∧
  (∀ (b : Fin 2) (k : Fin 3), writesAs .sup (0x54001004 + 0x100 * b.val + 4 * k.val) v (.brkThresholdWrite b k v) s) ∧
  (∀ (e : Eng) (a : Chn), writesAs .sup (0x48006100 + 0x40000 * e.val + 4 * a.val) v (.tmpAdcmapWrite e a v) s) ∧
  (∀ (e : Eng) (r : Fin 8), writesAs .sup (0x48008204 + 0x40000 * e.val + 8 * r.val) v (.anvRampInit e r v) s) ∧
  (∀ (e : Eng) (b : Bool) (a : BitVec 11), writesAs .sup (0x48010000 + 0x40000 * e.val + (if b then 0x2000 else 0) + 4 * a.toNat) v (.anvPmWrite e b a v) s ∧
    writesAs .sup (0x48018000 + 0x40000 * e.val + 4 * a.toNat) v (.anvDmWrite e a v) s) ∧
  (∀ q : Fin 65, s.cqi.q[q].dbSq = false → s.cqi.q[q].dbCq = false → v.toNat % 4 = 1 → writesAs .host (0x1000028 + 0x100 * q.val) v (.doorbellSq q) s) ∧
  (∀ (q : Fin 65) (off : Nat), off < 0x1C → off % 4 = 0 → q ≠ q0 ∨ cfgFree s q0 = false → writesNothing .host (0x1000000 + 0x100 * q.val + off) v s) ∧
  (∀ (e : Eng) off, off = 0x4034 ∨ off = 0x4038 → s.get (SEAM_STAT.STATE e) ≠ seamIdle → writesNothing .sup (0x48000000 + 0x40000 * e.val + off) v s) ∧
  (∀ e : Eng, s.get (WR_STAT.STATE e) ≠ wrIdle → writesNothing .sup (0x48000000 + 0x40000 * e.val + (WR_CFG.reg e).off) v s) ∧
  (∀ a : Fin 4, s.isSet (AX_CTRL.GEAR a) = true → writesNothing .sup (0x54000018 + 0x100 * a.val) v s) ∧
  (∀ (be : BitVec 4) hw same, be.getLsbD 0 = true → runs (.registerWrite .host 0x20000004#32 be v hw same) s fun t => t.cqi.bme = v.getLsbD 2 ∧
    t.isSet CQI_STAT.BME_WAIT = !v.getLsbD 2) ∧
  (∀ (be : BitVec 4) hw same, be.getLsbD 3 = true → runs (.registerWrite .host 0x20000050#32 be v hw same) s fun t => t.cqi.msixEn = v.getLsbD 31 ∧
    t.cqi.fmask = v.getLsbD 30) ∧
  (∀ (be : BitVec 4) hw same, be.getLsbD 1 = true → v.getLsbD 15 = true → s.pw.life = .running → runs (.registerWrite .host 0x20000068#32 be v hw same) s fun t =>
    t.get CQI_STAT.READY = 0 ∧ t.get CQI_STAT.RESETTING = 1 ∧ t.cqi.bme = false ∧ t.cqi.mask = BitVec.allOnes 129) ∧
  (∀ (vec : Fin 129) hw same, runs (.registerWrite .host (BitVec.ofNat 32 (0x1000000C + 16 * vec.val)) 0xF#4 v hw same) s fun t =>
    t.cqi.mask.getLsbD vec.val = v.getLsbD 0)

/-- QUEUE_CREATE, QUEUE_DELETE, ABORT, GET_LOG, SET_SETTINGS and GET_SETTINGS check their capsule (log 62) and complete with the status, the
result and the effect the spec gives; a row with no such command in progress changes nothing. A row that cannot act in the present state
leaves the state as it is: the model's choice (log 4). Rests on spec/14_cqi_commands.md (R375, R379, R387, R388, R394, R396, R397). -/
def Obligations.AdminQueuesAndSettings : Prop := ∀ (s : State) (tag : Fin 32) (c : Cmd),
  (∀ i opc, adminRowOf i opc tag → s.notes = [] → (∀ x, s.cmd? q0 tag.val = some x → x.decided = true ∨ x.fin ≠ none ∨ capOpc x ≠ opc) →
    runs i s fun t => t = s) ∧
  (∀ i opc, adminRowOf i opc tag → s.notes = [] → adminAt s tag opc c → cqReady s q0 → 2 ≤ capFlags c → opc ≠ 0x13 → opc ≠ 0x14 → runs i s fun t =>
    entered s t q0 tag.val stInvalid (invalidAt 1 0) 0 ∧ t.cmd? q0 tag.val = none) ∧
  (adminAt s tag 0x01 c → cqReady s q0 → framed c 0 (capLen c == 40) [(8, 4), (16, 24)] →
    let q := capQueue c
    let n := capNum c 8 1
    let lg := capNum c 10 1
    (1 ≤ n → n ≤ 64 → s.get (QB_STAT.STATE q) = qNone → 1 ≤ capNum c 9 1 → capNum c 9 1 ≤ 4 → 4 ≤ lg % 16 → lg % 16 ≤ 8 → 6 ≤ lg / 16 → lg / 16 ≤ 10 →
      capNum c 11 1 ≤ 127 → capNum c 16 8 % 4096 = 0 → capNum c 24 8 % 4096 = 0 → capNum c 32 8 % 64 = 0 → runs (.queueCreate tag) s fun t =>
        entered s t q0 tag.val stSuccess 0 0 ∧ t.get (QB_STAT.STATE q) = qDisabled ∧ t.get (QB_CFG.CLASS q) = capNum c 9 1 ∧ sqSize t q = 2 ^ (lg % 16) ∧
        cqSize t q = 2 ^ (lg / 16) ∧ t.get (QB_CFG.VECTOR q) = capNum c 11 1 ∧ t.rd (QB_SQ_BASE_LO.reg q) = BitVec.ofNat 32 (capNum c 16 4) ∧
        t.get (QB_POS.CQ_TAIL q) = 0 ∧ t.get (QB_POS.PHASE q) = 1 ∧ t.get (QB_STAT.IDLE q) = 1) ∧
    (n = 0 ∨ 64 < n ∨ s.get (QB_STAT.STATE q) ≠ qNone → runs (.queueCreate tag) s fun t => entered s t q0 tag.val stInvalid (invalidAt 8 0) 0)) ∧
  (adminAt s tag 0x02 c → cqReady s q0 → framed c 0 (lenTo c 16) [(8, 1)] →
    let q := capQueue c
    let n := capNum c 8 1
    (1 ≤ n → n ≤ 64 → s.get (QB_STAT.STATE q) = qDisabled → s.isSet (QB_STAT.IDLE q) = true → runs (.queueDelete tag) s fun t =>
      entered s t q0 tag.val stSuccess 0 0 ∧ t.get (QB_STAT.STATE q) = qNone ∧ t.cqi.q[q] = {}) ∧
    (n = 0 ∨ 64 < n ∨ s.get (QB_STAT.STATE q) ≠ qDisabled ∨ s.isSet (QB_STAT.IDLE q) = false → runs (.queueDelete tag) s fun t =>
      entered s t q0 tag.val stInvalid (invalidAt 8 0) 0)) ∧
  (adminAt s tag 0x03 c → cqReady s q0 → framed c 0 (lenTo c 16) [(8, 2)] → 1 ≤ capNum c 8 1 → capNum c 8 1 ≤ 64 →
    let q := capQueue c
    let a := capNum c 9 1
    (s.cmd? q a = none → runs (.abort tag) s fun t => entered s t q0 tag.val stAbortMissed 1 0) ∧
    (∀ x, s.cmd? q a = some x → x.decided = true ∨ x.ponr = true → runs (.abort tag) s fun t => entered s t q0 tag.val stAbortMissed 0 0) ∧
    (∀ x, s.cmd? q a = some x → x.decided = false → x.ponr = false → a < 32 → cqReady s q → runs (.abort tag) s fun t =>
      entered s t q a stAborted 0 0 ∧ entered s t q0 tag.val stSuccess 0 0 ∧ t.cmd? q a = none)) ∧
  (adminAt s tag 0x04 c → cqReady s q0 → framed c 0 (!sgLenBad c) [(8, 1), (16, 12), (32, 480)] →
    let n := capNum c 8 1
    let start := capNum c 16 8
    let top := capNum c 24 4
    let es := (logEntries s n start).take top
    (n = 0 ∨ 5 < n → runs (.getLog tag) s fun t => entered s t q0 tag.val stInvalid (invalidAt 8 0) 0) ∧
    (1 ≤ n → n ≤ 5 → (sgChk c (top * logSize n)).2.2 = false → runs (.getLog tag) s fun t =>
      entered s t q0 tag.val stSuccess (es.length + if n = 1 then nextSeq s start top % 2 ^ 32 * 2 ^ 32 else 0) 0 ∧
      ∀ d, sgAll c = [d] → es.flatten ≠ [] → es.flatten.length ≤ sgLen d → Out.hostData (sgAddr d) es.flatten.length (leNum es.flatten) (relaxed s) ∈ t.out)) ∧
  (adminAt s tag 0x05 c → cqReady s q0 → framed c 0 (lenTo c 16) [(16, 480)] →
    (∀ off id f, settingsWalk c 120 16 = .inl (off, id) → runs (.setSettings tag f) s fun t =>
      entered s t q0 tag.val stInvalid (invalidAt off id) 0 ∧ t.jrn = s.jrn) ∧
    (∀ xs f, settingsWalk c 120 16 = .inr xs → refusing s = true → runs (.setSettings tag f) s fun t =>
      entered s t q0 tag.val stJournal 0 0 ∧ t.jrn = s.jrn) ∧
    (∀ xs, settingsWalk c 120 16 = .inr xs → refusing s = false → plinthMay s → runs (.setSettings tag 0#2) s fun t =>
      entered s t q0 tag.val stSuccess 0 0 ∧ t.jrn.ents = xs.foldl (fun es x => plPut es x.1 (some x.2)) s.jrn.ents)) ∧
  (∀ ds, adminAt s tag 0x06 c → cqReady s q0 → framed c 0 (!sgLenBad c) [(32, 480)] → descWalk 1025 false 32 (capDescs c) c.segs = .inr ds →
    let bs := (settingsBytes s).take ((ds.map sgLen).foldl (· + ·) 0)
    runs (.getSettings tag) s fun t => entered s t q0 tag.val stSuccess (s.get GLB_PL_GEN.GEN + bs.length * 2 ^ 32) 0 ∧
      ∀ d, ds = [d] → bs ≠ [] → Out.hostData (sgAddr d) bs.length (leNum bs) (relaxed s) ∈ t.out)

/-- VOL_CREATE, VOL_DELETE, VOL_SEAL, VOL_RESHAPE, MEDIA_LOAD, MEDIA_EJECT, DISC_FAIL and DISC_MIGRATE change the map's records by one commit
that their completion waits for, or complete with the error the spec gives; a disc whose layers its medium does not have is not registered
(log 62, 64, 65). A row that cannot act in the present state leaves the state as it is: the model's choice (log 4). Rests on
spec/14_cqi_commands.md (R387, R389, R390); spec/10_armature_placement.md (R245, R248); spec/11_redundancy.md (R300, R306, R309);
spec/03_read_channel.md (R98). -/
def Obligations.AdminVolumesAndDiscs : Prop := ∀ (s : State) (tag : Fin 32) (c : Cmd), s.notes = [] → cqReady s q0 → s.jrn.cseq < s.jrn.next →
  let v := capVol c
  let d := capNum c 8 2
  let st := (s.arm.map.vol v).get Vol.STATE
  (adminAt s tag 0x07 c → framed c 0 (lenTo c 21) [(8, 4), (16, 5)] → capNum c 9 1 ≤ 1 → kmBad (capNum c 10 1) = false →
    capNum c 11 1 ≤ 59 ∨ capNum c 11 1 = 0xFF → 1 ≤ capNum c 16 5 → capNum c 16 5 ≤ 2 ^ 37 →
    (st = 0 → refusing s = false → runs (.volCreate tag) s fun t => committing t q0 tag.val 0 ∧
      let r := (mapSoon t).vol v
      r.get Vol.STATE = 1 ∧ r.get Vol.CLASS = capNum c 9 1 ∧ r.get Vol.K = capNum c 10 1 % 16 ∧ r.get Vol.M = capNum c 10 1 / 16 ∧
      r.get Vol.KEY = capNum c 11 1 ∧ r.get Vol.CAP = capNum c 16 5) ∧
    (st = 0 → refusing s = true → runs (.volCreate tag) s fun t => entered s t q0 tag.val stJournal 0 0 ∧ t.arm = s.arm) ∧
    (st ≠ 0 → runs (.volCreate tag) s fun t => entered s t q0 tag.val stInvalid (invalidAt 8 0) 0 ∧ t.arm = s.arm)) ∧
  (adminAt s tag 0x08 c → framed c 0 (lenTo c 16) [(8, 1)] →
    (st = 0 ∨ st = 3 → runs (.volDelete tag) s fun t => entered s t q0 tag.val stInvalid (invalidAt 8 0) 0 ∧ t.arm = s.arm) ∧
    (st ≠ 0 → st ≠ 3 → refusing s = false → volBusy s v = true → runs (.volDelete tag) s fun t =>
      ((mapSoon t).vol v).get Vol.STATE = 3 ∧ ∃ x, t.cmd? q0 tag.val = some x ∧ x.decided = false ∧ x.running = true) ∧
    (st ≠ 0 → st ≠ 3 → refusing s = false → volBusy s v = false → runs (.volDelete tag) s fun t =>
      committing t q0 tag.val 0 ∧ ((mapSoon t).vol v).get Vol.STATE = 0 ∧ ∀ g ∈ t.arm.groups, g.vol ≠ v)) ∧
  (∀ m, adminAt s tag 0x09 c → framed c 0 (lenTo c 16) [(8, 1)] → refusing s = false →
    (st = 2 → runs (.volSeal tag m) s fun t => entered s t q0 tag.val stSuccess 0 0 ∧ t.arm = s.arm) ∧
    (st = 1 → woGroup s v = none → runs (.volSeal tag m) s fun t => committing t q0 tag.val 0 ∧ ((mapSoon t).vol v).get Vol.STATE = 2) ∧
    (st ≠ 1 → st ≠ 2 → runs (.volSeal tag m) s fun t => entered s t q0 tag.val stInvalid (invalidAt 8 0) 0)) ∧
  (adminAt s tag 0x0A c → framed c 0 (lenTo c 16) [(8, 2)] → volUp s v = true → (∀ r ∈ s.arm.reshapes, r.vol ≠ v) → kmBad (capNum c 9 1) = false →
    capNum c 9 1 ≠ volK s v + 16 * volM s v → refusing s = false →
    (s.arm.rebuilds = [] → runs (.volReshape tag) s fun t => committing t q0 tag.val 0 ∧ ((mapSoon t).vol v).get Vol.K = capNum c 9 1 % 16 ∧
      ((mapSoon t).vol v).get Vol.M = capNum c 9 1 / 16 ∧
      t.arm.reshapes = s.arm.reshapes ++ [{ vol := v, k := volK s v, m := volM s v, live := 0, ckpt := 0 }]) ∧
    ((∃ r ∈ s.arm.rebuilds, r.run ∈ volRuns s.arm.map v) → runs (.volReshape tag) s fun t => t = s)) ∧
  (adminAt s tag 0x0B c → framed c 0 (lenTo c 16) [(8, 1), (10, 2)] →
    let held := (registered s).find? fun d => (s.arm.map.disc d).get Dsc.MAG == capNum c 8 1 && (s.arm.map.disc d).get Dsc.SLOT == capNum c 10 2
    let free := (List.range 4096).find? fun d => discState s d = 0
    (∀ x f, held = some x → runs (.mediaLoad tag f) s fun t => entered s t q0 tag.val stSuccess (loadResult x 1) 0 ∧ t.arm.map = s.arm.map) ∧
    (∀ f, held = none → free = none → runs (.mediaLoad tag f) s fun t =>
      entered s t q0 tag.val stSuccess (loadResult (Config.noDisc s.fresh).toNat 4) 0 ∧ t.arm = s.arm) ∧
    (∀ x f, held = none → free = some x → homeFor s = none → runs (.mediaLoad tag f) s fun t => entered s t q0 tag.val stNotReady 2 0 ∧ t.arm = s.arm) ∧
    (∀ x e, held = none → free = some x → homeFor s = some e → exchangeMay s e = true → s.get (engPower e) = 2 →
      (runs (.mediaLoad tag .empty) s fun t => entered s t q0 tag.val stSuccess (loadResult (Config.noDisc s.fresh).toNat 5) 0 ∧ t.arm = s.arm) ∧
      (∀ medium layers cap zone radii rec, mediumOk medium layers = false → runs (.mediaLoad tag (.disc medium layers cap zone radii rec)) s fun t =>
        entered s t q0 tag.val stSuccess (loadResult (Config.noDisc s.fresh).toNat 2) 0 ∧ t.arm.map = s.arm.map) ∧
      (∀ medium layers cap zone radii rec, mediumOk medium layers = true → refusing s = false → s.arm.rebuilds = [] →
        runs (.mediaLoad tag (.disc medium layers cap zone radii rec)) s fun t =>
        committing t q0 tag.val (loadResult x 0) ∧ (t.discInt x).loc = .engine e ∧
        let r := (mapSoon t).disc x
        r.get Dsc.STATE = 1 ∧ r.get Dsc.HOME = e.val ∧ r.get Dsc.MAG = capNum c 8 1 ∧ r.get Dsc.SLOT = capNum c 10 2)) ∧
    (∀ x e f, held = none → free = some x → homeFor s = some e → exchangeMay s e = false → runs (.mediaLoad tag f) s fun t => t = s)) ∧
  (adminAt s tag 0x0C c → framed c 0 (lenTo c 16) [(8, 2)] → d < 4096 → discState s d ≠ 0 →
    (discHolds s d = true → runs (.mediaEject tag) s fun t => entered s t q0 tag.val stInvalid (invalidAt 8 1) 0 ∧ t.arm = s.arm) ∧
    (discHolds s d = false → (∀ e : Eng, loadedIn s e ≠ some d) → refusing s = false → runs (.mediaEject tag) s fun t => committing t q0 tag.val 0 ∧
      ((mapSoon t).disc d).get Dsc.STATE = 0 ∧
      ((∀ k, k = pgDef ∨ k = pgRun → ∀ x ∈ (mapSoon s).all k, x.1 / 256 ≠ discKey d / 256) →
        ((mapSoon t).disc d).get Dsc.HSEQ_NEXT = ((mapSoon s).disc d).get Dsc.HSEQ_NEXT))) ∧
  (adminAt s tag 0x0D c → framed c 1 (lenTo c 16) [(8, 2)] → d < 4096 → discState s d ≠ 0 → refusing s = false → s.arm.rebuilds = [] →
    (discState s d ≠ 2 → runs (.discFail tag) s fun t => committing t q0 tag.val 0 ∧ ((mapSoon t).disc d).get Dsc.STATE = 2) ∧
    (discState s d = 2 → runs (.discFail tag) s fun t => entered s t q0 tag.val stSuccess 0 0)) ∧
  (adminAt s tag 0x0E c → framed c 0 (lenTo c 16) [(8, 2)] → d < 4096 →
    (discState s d = 1 → refusing s = false → runs (.discMigrate tag) s fun t => committing t q0 tag.val 0 ∧ ((mapSoon t).disc d).get Dsc.STATE = 5) ∧
    (discState s d = 5 → refusing s = false → runs (.discMigrate tag) s fun t => entered s t q0 tag.val stSuccess 0 0 ∧ t.arm = s.arm) ∧
    (discState s d ≠ 1 → discState s d ≠ 5 → runs (.discMigrate tag) s fun t => entered s t q0 tag.val stInvalid (invalidAt 8 0) 0 ∧ t.arm = s.arm))

/-- A wrapped key is unwrapped, checked, stored wrapped in Plinth and loaded; a cleared one is removed; policy and Anvil images are checked and
placed, a bank switch is requested; calibration entries wait, with TMP_CTRL.EN at 0, until the engine neither writes nor runs a session, and
are then written to their registers with EN put back (log 66) and the holds released, or refused. A row that cannot act in the present state
leaves the state as it is: the model's choice (log 4). Rests on spec/14_cqi_commands.md (R391, R392, R393); spec/16_security.md (R430, R431,
R432); spec/10_armature_placement.md (R255); spec/06_retry_and_temper.md (R169). -/
def Obligations.KeysAndPrograms : Prop := ∀ (s : State) (tag : Fin 32) (c : Cmd), cqReady s q0 →
  let i := capNum c 8 1
  (adminAt s tag 0x0F c → framed c 0 (lenTo c 88) [(8, 1), (16, 72)] →
    (59 < i → ∀ f, runs (.keyLoad tag f) s fun t => entered s t q0 tag.val stInvalid (invalidAt 8 0) 0 ∧ t.sec = s.sec ∧ t.jrn = s.jrn) ∧
    (i ≤ 59 → s.get GLB_SEC_STAT.DBG_LEVEL = 2 → ∀ f, runs (.keyLoad tag f) s fun t => entered s t q0 tag.val stInvalid (invalidAt 0 3) 0 ∧ t.sec = s.sec) ∧
    (i ≤ 59 → s.get GLB_SEC_STAT.DBG_LEVEL ≠ 2 →
      match kwUnwrap (rootKey s) (BitVec.ofNat 576 (leNum (capWrap c))) with
      | none => ∀ f, runs (.keyLoad tag f) s fun t =>
          entered s t q0 tag.val stInvalid (invalidAt 16 1) 0 ∧ t.sec = s.sec ∧ t.jrn = s.jrn
      | some k => if k.extractLsb' 0 256 = k.extractLsb' 256 256 then ∀ f, runs (.keyLoad tag f) s fun t =>
            entered s t q0 tag.val stInvalid (invalidAt 16 2) 0 ∧ t.sec = s.sec ∧ t.jrn = s.jrn
          else
            (slotBusy s i = true → ∀ f, runs (.keyLoad tag f) s fun t => t = s) ∧
            (slotBusy s i = false → refusing s = true → ∀ f, runs (.keyLoad tag f) s fun t => entered s t q0 tag.val stJournal 0 0 ∧ t.sec = s.sec) ∧
            (slotBusy s i = false → refusing s = false → plinthMay s → runs (.keyLoad tag 0#2) s fun t => entered s t q0 tag.val stSuccess 0 0 ∧
              slotKey t i = some k ∧ (∀ j, j ≠ i → slotKey t j = slotKey s j) ∧ (0x0300 + i, capWrap c) ∈ t.jrn.ents))) ∧
  (adminAt s tag 0x10 c → framed c 0 (lenTo c 16) [(8, 1)] → i ≤ 59 →
    (slotBusy s i = true → ∀ f, runs (.keyClear tag f) s fun t => t = s) ∧
    (slotBusy s i = false → refusing s = false → plinthMay s → runs (.keyClear tag 0#2) s fun t => entered s t q0 tag.val stSuccess 0 0 ∧
      slotKey t i = none ∧ (∀ j, j ≠ i → slotKey t j = slotKey s j) ∧ ∀ x ∈ t.jrn.ents, x.1 ≠ 0x0300 + i)) ∧
  (adminAt s tag 0x11 c → framed c 1 (sgLenOk c (capNum c 12 4)) [(8, 2), (12, 4), (32, 480)] → (sgChk c (capNum c 12 4)).2.2 = false →
    let len := capNum c 12 4
    (∀ image, i = 1 → image.length ≠ len → runs (.programLoad tag image) s fun t => t = s) ∧
    (∀ image r, i = 1 → image.length = len → polImageBad image = some r → runs (.programLoad tag image) s fun t =>
      entered s t q0 tag.val stInvalid (invalidAt 32 r) 0 ∧ t.arm = s.arm) ∧
    (∀ image, i = 1 → image.length = len → polImageBad image = none → (∀ k : Fin 4, s.arm.plc[k].call = none) → runs (.programLoad tag image) s fun t =>
      entered s t q0 tag.val stSuccess 0 0 ∧ t.arm.image = image ∧
      (∀ k : Fin 4, (t.get GLB_POL_STAT.LOADED).testBit k.val = decide (byteNum image (24 + 4 * k.val) 4 ≠ 0)) ∧
      (image ≠ [] → t.get GLB_POL_STAT.GEN = (s.get GLB_POL_STAT.GEN + 1) % 2 ^ GLB_POL_STAT.GEN.w)) ∧
    (∀ image r, i = 0 → (∀ e ∈ maskEngs (capNum c 9 1), engFitted s e = true) → image.length = len → anvImageBad image = some r →
      runs (.programLoad tag image) s fun t => entered s t q0 tag.val stInvalid (invalidAt 32 r) 0 ∧ t.eng = s.eng) ∧
    (∀ image (e : Eng), maskEngs (capNum c 9 1) = [e] → engFitted s e = true → s.get (engPower e) = 2 → s.isSet (ANV_STAT.SW_PEND e) = false →
      (i = 0 → capFlags c = 0 → image.length = len → anvImageBad image = none → runs (.programLoad tag image) s fun t =>
        entered s t q0 tag.val stSuccess 0 0 ∧ t.get (ANV_STAT.BANK_ACT e) = s.get (ANV_STAT.BANK_ACT e) ∧
        ∀ a, a < 2048 → pmGet t e (!s.isSet (ANV_STAT.BANK_ACT e)) a =
          if a < byteNum image 4 2 then BitVec.ofNat 32 (byteNum image (16 + 4 * a) 4) else 0#32) ∧
      (i = 2 → len = 0 → image = [] → runs (.programLoad tag image) s fun t => t.get (ANV_STAT.SW_PEND e) = 1 ∧
        t.isSet (ANV_CTRL.BANK e) = !s.isSet (ANV_STAT.BANK_ACT e) ∧ ∃ x, t.cmd? q0 tag.val = some x ∧ x.running = true ∧ x.decided = false))) ∧
  (∀ (e : Eng) (ents : List (Word × Word)), adminAt s tag 0x12 c → framed c 0 (sgLenOk c (8 * capNum c 12 4)) [(8, 1), (12, 4), (32, 480)] →
    (sgChk c (8 * capNum c 12 4)).2.2 = false → i = e.val → engFitted s e = true →
    (ents.length ≠ capNum c 12 4 → runs (.calRestore tag ents) s fun t => t = s) ∧
    (ents.length = capNum c 12 4 → s.get (engPower e) = 2 → s.get (TMP_STAT.STATE e) ≠ tmpIdle ∨ writing s e = true → (∀ x ∈ ents, calHas e x.1 = true) →
      runs (.calRestore tag ents) s fun t => t.get (TMP_CTRL.EN e) = 0 ∧ t.out = s.out ∧
        ∃ x, t.cmd? q0 tag.val = some x ∧ x.decided = false ∧ x.tmpEn = some (c.tmpEn.getD (s.isSet (TMP_CTRL.EN e)))) ∧
    (ents.length = capNum c 12 4 → s.get (engPower e) = 2 → s.get (TMP_STAT.STATE e) = tmpIdle → writing s e = false → (∀ x ∈ ents, calHas e x.1 = true) →
      runs (.calRestore tag ents) s fun t => entered s t q0 tag.val stSuccess 0 0 ∧ t.isSet (TMP_CTRL.EN e) = c.tmpEn.getD (s.isSet (TMP_CTRL.EN e)) ∧
        (∀ x (k : Chn), ents = [x] → let r := engReg e x.1.toNat
          r.blk = .ch → r.k = k.val → r ≠ AGC_GAIN.reg e k → r ≠ RED.reg e k → t.rd r = wordWritten r 0xF#4 x.2 (s.rd r)) ∧
        ∀ k : Chn, t.get (CH_CTRL.AGC_HOLD e k) = 0 ∧ t.get (CH_CTRL.XT_HOLD e k) = 0 ∧ t.get (CH_CTRL.EQ_HOLD e k) = 0) ∧
    (∀ x rest, ents = x :: rest → ents.length = capNum c 12 4 → calHas e x.1 = false → runs (.calRestore tag ents) s fun t =>
      entered s t q0 tag.val stInvalid (invalidAt 32 1) 0 ∧ t.eng = s.eng))

/-- Chunks are staged and the last one checked; an activation hands the processors over one at a time, pauses queue service at the HST's, and
ends with the other slot running, or is reset with cause 5 when a processor does not come (log 67). A row that cannot act in the present
state leaves the state as it is: the model's choice (log 4). Rests on spec/14_cqi_commands.md (R395); spec/16_security.md (R443, R445,
R446). -/
def Obligations.FirmwareUpdates : Prop := ∀ (s : State) (tag : Fin 32) (c : Cmd),
  (∀ hdr ds, cqReady s q0 → adminAt s tag 0x13 c → framed c 1 (!sgLenBad c) [(16, 8), (32, 480)] → s.sec.hand = none →
    descWalk 1025 false 32 (capDescs c) c.segs = .inr ds →
    let len := (ds.map sgLen).foldl (· + ·) 0
    len ≤ 4 * 2 ^ 20 → capNum c 16 4 % 4096 = 0 → capNum c 16 4 + len ≤ capNum c 20 4 → capNum c 20 4 ≤ 20 * 2 ^ 20 →
    (capFlags c = 0 → runs (.fwStage tag hdr) s fun t => entered s t q0 tag.val stSuccess 0 0 ∧ t.get GLB_SEC_STAT.STAGED = 0 ∧ t.sec.staged = none) ∧
    (∀ r, capFlags c = 1 → stageBad s hdr = some r → runs (.fwStage tag hdr) s fun t =>
      entered s t q0 tag.val stInvalid (invalidAt 32 r) 0 ∧ t.get GLB_SEC_STAT.STAGED = 0 ∧ t.sec.staged = none) ∧
    (capFlags c = 1 → stageBad s hdr = none → runs (.fwStage tag hdr) s fun t => entered s t q0 tag.val stSuccess 0 0 ∧
      t.get GLB_SEC_STAT.STAGED = 1 ∧ t.get GLB_FW_STAGED.VERSION = hdr.version.toNat ∧ t.sec.staged = some hdr ∧
      t.sec.runSlot = s.sec.runSlot ∧ t.get GLB_FW_VER.VERSION = s.get GLB_FW_VER.VERSION)) ∧
  (∀ hdr, cqReady s q0 → adminAt s tag 0x13 c → s.sec.hand ≠ none → runs (.fwStage tag hdr) s fun t =>
    entered s t q0 tag.val stInvalid (invalidAt 0 1) 0 ∧ t.sec = s.sec) ∧
  (adminAt s tag 0x14 c → s.sec.hand ≠ none → runs (.fwActivate tag) s fun t => t = s) ∧
  (cqReady s q0 → adminAt s tag 0x14 c → s.sec.hand = none → s.sec.staged = none → runs (.fwActivate tag) s fun t =>
    entered s t q0 tag.val stInvalid (invalidAt 0 1) 0 ∧ t.sec = s.sec) ∧
  (adminAt s tag 0x14 c → framed c 0 (lenTo c 16) [] → s.sec.hand = none → s.sec.staged ≠ none → runs (.fwActivate tag) s fun t =>
    t.sec.hand = some (tag.val, 0) ∧ t.get GLB_SEC_STAT.ACTIVATING = 1 ∧ t.sec.staged = s.sec.staged ∧
    ∃ x, t.cmd? q0 tag.val = some x ∧ x.running = true ∧ x.decided = false) ∧
  (s.sec.hand = none ∨ s.sec.staged = none → runs .fwHandover s fun t => t = s) ∧
  (∀ a n img, s.sec.hand = some (a, n) → s.sec.staged = some img →
    (n < 15 → (∀ k : Fin 4, n = 8 + k.val → s.arm.plc[k].call = none) → runs .fwHandover s fun t => t.sec.hand = some (a, n + 1) ∧
      (n = 13 → t.cqi.paused = true) ∧ (n = 14 → t.cqi.paused = false) ∧ t.sec.runSlot = s.sec.runSlot) ∧
    (∀ k : Fin 4, n = 8 + k.val → s.arm.plc[k].call ≠ none → runs .fwHandover s fun t => t = s) ∧
    (n = 15 → runs .fwHandover s fun t => t.sec.hand = none ∧ t.sec.staged = none ∧ t.sec.runSlot = 1 - s.sec.runSlot ∧
      t.get GLB_SEC_STAT.ACTIVATING = 0 ∧ t.get GLB_SEC_STAT.STAGED = 0 ∧ t.get GLB_FW_VER.VERSION = img.version.toNat ∧
      (t.sec.nor.bind fun n => n[1 - s.sec.runSlot]).any (fun x => x.version = img.version) = true) ∧
    (n = 15 → cqReady s q0 → ∀ x, s.cmd? q0 a = some x → x.running = true → x.decided = false → x.ponr = false → capOpc x = 0x14 → a < 32 →
      runs .fwHandover s fun t => entered s t q0 a stSuccess img.version.toNat 0)) ∧
  (∀ ready, s.sec.hand = none ∨ (∃ a n, s.sec.hand = some (a, n) ∧ 15 ≤ n) → s.notes = [] → runs (.activationTimeout ready) s fun t => t = s) ∧
  (∀ ready a n, s.sec.hand = some (a, n) → n < 15 → s.pw.pfail = false → s.pw.life = .running → runs (.activationTimeout ready) s fun t =>
    t.pw.life = .reset ∧ t.get PWR_RST.LAST_CAUSE = 5 ∧ t.sec.hand = none)

/-- READ of unwritten blocks transfers zeros, of lost ones ends with DATA_LOST, of journalled or stored blocks transfers them decrypted, with
SUCCESS_RECONSTRUCTED where a source was rebuilt and NOT_READY where its member is out; VERIFY transfers nothing and completes likewise (log
68). A row that cannot act in the present state leaves the state as it is: the model's choice (log 4). Rests on spec/14_cqi_commands.md
(R380, R382); spec/11_redundancy.md (R296, R297); spec/16_security.md (R434). -/
def Obligations.ReadsAndVerifies : Prop := ∀ (s : State) (q : Fin 65) (tag : Fin 32) (c : Cmd), s.notes = [] →
  (∀ i opc, (∃ m, (i, opc) = (Instr.read q tag m, opRead)) ∨ (∃ d m, (i, opc) = (Instr.write q tag d m, opWrite)) ∨
      (∃ m, (i, opc) = (Instr.verify q tag m, opVerify)) ∨ (∃ m, (i, opc) = (Instr.flush q tag m, opFlush)) →
    q = q0 ∨ (∀ x, s.cmd? q tag.val = some x → x.decided = true ∨ x.fin ≠ none ∨ capOpc x ≠ opc) → runs i s fun t => t = s) ∧
  (∀ ds, ioAt s q tag opRead c → descsOf c (capNlb c * 4096) = .inr ds → cqReady s q →
    let v := capVol c
    let a := capSlba c
    let n := capNlb c
    ((∀ i, i < n → srcOf s false v (a + i) = .unwritten) → runs (.read q tag {}) s fun t => entered s t q tag.val stSuccess 0 0 ∧ t.cmd? q tag.val = none ∧
      ∀ d, ds = [d] → Out.hostData (sgAddr d) (sgLen d) 0 (relaxed s) ∈ t.out) ∧
    (1 ≤ n → (∀ i, i < n → srcOf s false v (a + i) = .gone) → runs (.read q tag {}) s fun t => entered s t q tag.val stLost (a + n * 2 ^ 40) 0) ∧
    (∀ b d, n = 1 → srcOf s false v a = .journal b → c.key = none → ds = [d] → runs (.read q tag {}) s fun t =>
      entered s t q tag.val stSuccess 0 0 ∧ Out.hostData (sgAddr d) 4096 b.toNat (relaxed s) ∈ t.out) ∧
    (∀ b d k, n = 1 → srcOf s false v a = .journal b → c.key = some k → b ≠ 0#32768 → ds = [d] → runs (.read q tag {}) s fun t =>
      entered s t q tag.val stSuccess 0 0 ∧ Out.hostData (sgAddr d) 4096 (xts aesDec k a b).toNat (relaxed s) ∈ t.out) ∧
    (∀ p w d, n = 1 → srcOf s false v a = .media p → fetchCl s {} false (spotKey p) = .direct w → c.key = none → ds = [d] → p.blk < 16 → runs (.read q tag {}) s fun t =>
      entered s t q tag.val stSuccess 0 0 ∧ Out.hostData (sgAddr d) 4096 (w[p.blk]?.getD 0#32768).toNat (relaxed s) ∈ t.out) ∧
    (∀ p w d, n = 1 → srcOf s false v a = .media p → fetchCl s {} false (spotKey p) = .rebuilt w → c.key = none → ds = [d] → p.blk < 16 → runs (.read q tag {}) s fun t =>
      entered s t q tag.val stReconstructed 0 0 ∧ Out.hostData (sgAddr d) 4096 (w[p.blk]?.getD 0#32768).toNat (relaxed s) ∈ t.out) ∧
    (∀ p, n = 1 → srcOf s false v a = .media p → fetchCl s {} false (spotKey p) = .out → runs (.read q tag {}) s fun t =>
      entered s t q tag.val stNotReady 2 0)) ∧
  (∀ ds, ioAt s q tag opRead c → descsOf c (capNlb c * 4096) = .inr ds → s.hostOpen = false → runs (.read q tag {}) s fun t => t = s) ∧
  (ioAt s q tag opVerify c → cqReady s q → undestaged s (capVol c) (capSlba c) (capNlb c) s.jrn.next = [] →
    ((∀ i, i < capNlb c → srcOf s true (capVol c) (capSlba c + i) = .unwritten) → runs (.verify q tag {}) s fun t =>
      entered s t q tag.val stSuccess 0 0 ∧ t.cmd? q tag.val = none ∧ ∀ x n b r, Out.hostData x n b r ∈ t.out → Out.hostData x n b r ∈ s.out) ∧
    (1 ≤ capNlb c → (∀ i, i < capNlb c → srcOf s true (capVol c) (capSlba c + i) = .gone) → runs (.verify q tag {}) s fun t =>
      entered s t q tag.val stLost (capSlba c + capNlb c * 2 ^ 40) 0))

/-- WRITE to a sealed, absent or full volume, with no room on a loss list, or a refusing journal completes with its status; else the blocks,
encrypted under the volume's key, go to a DATA record whose commit completes the command and ends its point of no return; FLUSH completes
when the earlier writes of its volume are done and, with DESTAGE, when no record is left (log 69). A row that cannot act in the present
state leaves the state as it is: the model's choice (log 4). Rests on spec/14_cqi_commands.md (R381, R383); spec/11_redundancy.md (R290,
R299); spec/12_quench_and_boot.md (R319, R322); spec/13_cqi_queues.md (R365). -/
def Obligations.WritesAndFlushes : Prop := ∀ (s : State) (q : Fin 65) (tag : Fin 32) (c : Cmd), s.notes = [] →
  let v := capVol c
  let st := (s.arm.map.vol v).get Vol.STATE
  (ioAt s q tag opWrite c →
    (∀ data m, data.length ≠ capNlb c ∨ s.hostOpen = false → runs (.write q tag data m) s fun t => t = s) ∧
    (∀ data m, data.length = capNlb c → cqReady s q →
      (st = 2 → runs (.write q tag data m) s fun t => entered s t q tag.val stSealed 0 0 ∧ t.jrn = s.jrn) ∧
      (st ≠ 1 → st ≠ 2 → runs (.write q tag data m) s fun t => entered s t q tag.val stInvalid (invalidAt 8 0) 0 ∧ t.jrn = s.jrn) ∧
      (st = 1 → lossRoom s (writeSpots s c) = false → runs (.write q tag data m) s fun t =>
        entered s t q tag.val stRefused (0xFFFFFFFF + 2 * 2 ^ 32) 0 ∧ t.jrn = s.jrn) ∧
      (st = 1 → lossRoom s (writeSpots s c) = true → isWo s v = false →
        (refusing s = true → runs (.write q tag data m) s fun t => entered s t q tag.val stJournal 0 0 ∧ t.jrn = s.jrn) ∧
        (refusing s = false → s.jrn.wait1 ≠ [] → runs (.write q tag data m) s fun t => t = s) ∧
        (refusing s = false → s.jrn.wait1 = [] → s.arm.resync = [] → stripesNeeded s c false = 0 → stripesNeeded s c true = 0 → 1 ≤ capNlb c →
          s.jrn.cseq < s.jrn.next → runs (.write q tag data m) s fun t => committing t q tag.val 0 ∧
            let bs := (List.range data.length).map fun i => cipherOf c.key (capSlba c + i) (data[i]?.getD 0#32768)
            (capNlb c ≤ 32 → sealFits s (.data v (capSlba c) bs) = true →
              (∃ r ∈ t.jrn.recs, r.body = .data v (capSlba c) bs ∧ r.owner = [(q, tag.val)] ∧ r.fin = true) ∧
              ∃ x, t.cmd? q tag.val = some x ∧ x.ponr = true) ∧
            (capNlb c ≤ 32 → sealFits s (.data v (capSlba c) bs) = false →
              t.jrn.wait1 = [{ body := .data v (capSlba c) bs, fin := true, owner := [(q, tag.val)] }]))))) ∧
  (∀ m, ioAt s q tag opFlush c → capFlags c = 0 → v ≠ 0xFF → cqReady s q → (writesBefore s c v = [] → ownedBy s (q, tag.val) = false →
      isWo s v = false ∨ woGroup s v = none → runs (.flush q tag m) s fun t => entered s t q tag.val stSuccess 0 0 ∧ t.cmd? q tag.val = none) ∧
    (writesBefore s c v ≠ [] → isWo s v = false → runs (.flush q tag m) s fun t => t.jrn = s.jrn ∧ t.out = s.out ∧
      ∃ x, t.cmd? q tag.val = some x ∧ x.running = true ∧ x.decided = false) ∧
    ((∃ x ∈ writesBefore s c v, x.ponr = false) → isWo s v = true → runs (.flush q tag m) s fun t => t = s)) ∧
  (∀ m, ioAt s q tag opFlush c → capFlags c = 1 → v ≠ 0xFF → isWo s v = false → cqReady s q → ownedBy s (q, tag.val) = false →
    (∀ r ∈ s.jrn.recs, r.retired = false → ∀ w a bs, r.body ≠ .data w a bs) → runs (.flush q tag m) s fun t =>
      entered s t q tag.val stSuccess 0 0 ∧ t.cmd? q tag.val = none)
end

