-- ==== Sys2Proof/Laws/Cells.lean ====
section
/-! SUPPORT. Sparse tables: a read after a write, and the canonical form under writes. -/
namespace Sys2Proof.Machine

section
variable {κ ν : Type} [DecidableEq κ] [DecidableEq ν]

omit [DecidableEq ν] in
@[simp] theorem Cells.get_nil (d : κ → ν) (k : κ) : Cells.get d [] k = d k := rfl

omit [DecidableEq ν] in
theorem Cells.get_erase_same (d : κ → ν) (m : List (κ × ν)) (k : κ) : Cells.get d (Cells.erase k m) k = d k := by
  induction m with
  | nil => rfl
  | cons e rest ih =>
    simp only [Cells.erase]
    split
    · exact ih
    · next h => simp [Cells.get, h, ih]

omit [DecidableEq ν] in
theorem Cells.get_erase_other (d : κ → ν) (m : List (κ × ν)) {k k' : κ} (h : k ≠ k') :
    Cells.get d (Cells.erase k m) k' = Cells.get d m k' := by
  induction m with
  | nil => rfl
  | cons e rest ih =>
    simp only [Cells.erase]
    split
    · next h1 => subst h1; simp [Cells.get, h, ih]
    · simp [Cells.get, ih]

omit [DecidableEq ν] in
theorem Cells.get_insert_other (lt : κ → κ → Bool) (d : κ → ν) (v : ν) (m : List (κ × ν)) {k k' : κ} (h : k ≠ k') :
    Cells.get d (Cells.insert lt k v m) k' = Cells.get d m k' := by
  induction m with
  | nil => simp [Cells.insert, Cells.get, h]
  | cons e rest ih =>
    simp only [Cells.insert]
    split
    · simp [Cells.get, ih]
    · simp [Cells.get, h]

/-- A table without an entry for `k`. -/
def Cells.lacks (k : κ) (m : List (κ × ν)) : Prop := ∀ e ∈ m, e.1 ≠ k

omit [DecidableEq ν] in
theorem Cells.erase_lacks (k : κ) (m : List (κ × ν)) : Cells.lacks k (Cells.erase k m) := by
  induction m with
  | nil => intro e he; cases he
  | cons e rest ih =>
    simp only [Cells.erase]
    split
    · exact ih
    · next h =>
      intro e' he'
      rcases List.mem_cons.mp he' with rfl | h'
      · exact h
      · exact ih e' h'

omit [DecidableEq ν] in
theorem Cells.get_insert_same (lt : κ → κ → Bool) (d : κ → ν) (v : ν) (k : κ) (m : List (κ × ν)) (h : Cells.lacks k m) :
    Cells.get d (Cells.insert lt k v m) k = v := by
  induction m with
  | nil => simp [Cells.insert, Cells.get]
  | cons e rest ih =>
    simp only [Cells.insert]
    split
    · have h1 : e.1 ≠ k := h e (List.mem_cons_self ..)
      simp [Cells.get, h1, ih fun e' he' => h e' (List.mem_cons_of_mem _ he')]
    · simp [Cells.get]

/-- Reading back what was written. -/
theorem Cells.get_set_same (lt : κ → κ → Bool) (d : κ → ν) (m : List (κ × ν)) (k : κ) (v : ν) :
    Cells.get d (Cells.set lt d m k v) k = v := by
  unfold Cells.set
  split
  · next h => rw [Cells.get_erase_same, h]
  · exact Cells.get_insert_same lt d v k _ (Cells.erase_lacks k m)

/-- A write leaves every other key alone. -/
theorem Cells.get_set_other (lt : κ → κ → Bool) (d : κ → ν) (m : List (κ × ν)) {k k' : κ} (v : ν) (h : k ≠ k') :
    Cells.get d (Cells.set lt d m k v) k' = Cells.get d m k' := by
  unfold Cells.set
  split
  · exact Cells.get_erase_other d m h
  · rw [Cells.get_insert_other lt d v _ h, Cells.get_erase_other d m h]

/-! ### The canonical form -/

/-- A strict order on the keys. -/
structure Cells.Order (lt : κ → κ → Bool) : Prop where
  trans : ∀ a b c, lt a b = true → lt b c = true → lt a c = true
  total : ∀ a b, lt a b = false → a ≠ b → lt b a = true

omit [DecidableEq κ] [DecidableEq ν] in
theorem Cells.above_trans {lt : κ → κ → Bool} (o : Cells.Order lt) {a b : κ} {m : List (κ × ν)} (h : lt a b = true)
    (hm : Cells.above lt b m = true) : Cells.above lt a m = true := by
  simp only [Cells.above, List.all_eq_true] at *
  exact fun e he => o.trans _ _ _ h (hm e he)

omit [DecidableEq ν] in
theorem Cells.above_erase {lt : κ → κ → Bool} {a k : κ} {m : List (κ × ν)} (h : Cells.above lt a m = true) :
    Cells.above lt a (Cells.erase k m) = true := by
  induction m with
  | nil => rfl
  | cons e rest ih =>
    simp only [Cells.above, List.all_cons, Bool.and_eq_true] at h
    simp only [Cells.erase]
    split
    · exact ih h.2
    · simp only [Cells.above, List.all_cons, Bool.and_eq_true]
      exact ⟨h.1, ih h.2⟩

theorem Cells.wf_erase {lt : κ → κ → Bool} {d : κ → ν} {k : κ} {m : List (κ × ν)} (h : Cells.wf lt d m = true) :
    Cells.wf lt d (Cells.erase k m) = true := by
  induction m with
  | nil => rfl
  | cons e rest ih =>
    simp only [Cells.wf, Bool.and_eq_true] at h
    simp only [Cells.erase]
    split
    · exact ih h.2
    · simp only [Cells.wf, Bool.and_eq_true]
      exact ⟨⟨Cells.above_erase h.1.1, h.1.2⟩, ih h.2⟩

omit [DecidableEq κ] [DecidableEq ν] in
theorem Cells.above_insert {lt : κ → κ → Bool} {a k : κ} {v : ν} {m : List (κ × ν)} (h : Cells.above lt a m = true) (hk : lt a k = true) :
    Cells.above lt a (Cells.insert lt k v m) = true := by
  induction m with
  | nil => simp [Cells.insert, Cells.above, hk]
  | cons e rest ih =>
    simp only [Cells.above, List.all_cons, Bool.and_eq_true] at h
    simp only [Cells.insert]
    split
    · simp only [Cells.above, List.all_cons, Bool.and_eq_true]
      exact ⟨h.1, ih h.2⟩
    · simp only [Cells.above, List.all_cons, Bool.and_eq_true]
      exact ⟨hk, h.1, h.2⟩

omit [DecidableEq κ] in
theorem Cells.wf_insert {lt : κ → κ → Bool} (o : Cells.Order lt) {d : κ → ν} {k : κ} {v : ν} {m : List (κ × ν)}
    (h : Cells.wf lt d m = true) (hl : Cells.lacks k m) (hv : v ≠ d k) : Cells.wf lt d (Cells.insert lt k v m) = true := by
  induction m with
  | nil => simp [Cells.insert, Cells.wf, Cells.above, hv]
  | cons e rest ih =>
    have h' := h
    simp only [Cells.wf, Bool.and_eq_true] at h
    simp only [Cells.insert]
    split
    · next hlt =>
      simp only [Cells.wf, Bool.and_eq_true]
      exact ⟨⟨Cells.above_insert h.1.1 hlt, h.1.2⟩, ih h.2 fun e' he' => hl e' (List.mem_cons_of_mem _ he')⟩
    · next hlt =>
      have hlt' : lt k e.1 = true := o.total _ _ (by simpa using hlt) (hl e (List.mem_cons_self ..))
      simp only [Cells.wf, Bool.and_eq_true]
      refine ⟨⟨?_, by simpa using hv⟩, by simpa only [Cells.wf, Bool.and_eq_true] using h'⟩
      simp only [Cells.above, List.all_cons, Bool.and_eq_true]
      exact ⟨hlt', Cells.above_trans o hlt' h.1.1⟩

/-- A write keeps the canonical form. -/
theorem Cells.wf_set {lt : κ → κ → Bool} (o : Cells.Order lt) {d : κ → ν} {m : List (κ × ν)} (k : κ) (v : ν)
    (h : Cells.wf lt d m = true) : Cells.wf lt d (Cells.set lt d m k v) = true := by
  unfold Cells.set
  split
  · exact Cells.wf_erase h
  · next hv => exact Cells.wf_insert o (Cells.wf_erase h) (Cells.erase_lacks k m) hv

end

theorem Cells.natOrder : Cells.Order Cells.natLt where
  trans a b c h1 h2 := by simp only [Cells.natLt, decide_eq_true_eq] at *; omega
  total a b h hn := by simp only [Cells.natLt, decide_eq_true_eq, decide_eq_false_iff_not] at *; omega

theorem Blk.idx_inj {a b : Blk} (h : a.idx = b.idx) : a = b := by
  cases a <;> cases b <;> simp [Blk.idx] at h <;> rfl

theorem Cells.regOrder : Cells.Order Reg.lt where
  trans a b c h1 h2 := by simp only [Reg.lt, decide_eq_true_eq] at *; omega
  total a b h hn := by
    simp only [Reg.lt, decide_eq_true_eq, decide_eq_false_iff_not] at *
    by_cases hb : a.blk.idx = b.blk.idx
    · have : ¬ (a.i = b.i ∧ a.k = b.k ∧ a.off = b.off) := by
        rintro ⟨h1, h2, h3⟩
        refine hn ?_
        cases a; cases b
        simp only [Reg.mk.injEq] at *
        exact ⟨Blk.idx_inj hb, h1, h2, h3⟩
      omega
    · omega

end Sys2Proof.Machine
end

