-- ==== Sys2Proof/Laws/Evolves.lean ====
section
/-! SUPPORT. What an operation keeps: the queue of waiting commands, the state's invariant, the blown fuses, the parts of the state
it does not touch, the engines it does not act on; and the rules by which operations compose. -/
namespace Sys2Proof.Machine

theorem Fuses.Kept.refl (a : Fuses) : Fuses.Kept a a where
  drk := by simp
  drkLock h := ⟨h, rfl⟩
  ownerHash := by simp
  ownerLock h := ⟨h, rfl⟩
  revoke := by simp
  svn := by simp
  dbgVendor h := h

/-- Bits kept twice are kept. -/
theorem and_keeps {w : Nat} {a b c : BitVec w} (h1 : a &&& b = a) (h2 : b &&& c = b) : a &&& c = a := by
  rw [← h1, BitVec.and_assoc, h2]

theorem Fuses.Kept.trans {a b c : Fuses} (h1 : Fuses.Kept a b) (h2 : Fuses.Kept b c) : Fuses.Kept a c where
  drk := and_keeps h1.drk h2.drk
  drkLock h := ⟨(h2.drkLock (h1.drkLock h).1).1, ((h2.drkLock (h1.drkLock h).1).2).trans (h1.drkLock h).2⟩
  ownerHash := and_keeps h1.ownerHash h2.ownerHash
  ownerLock h := ⟨(h2.ownerLock (h1.ownerLock h).1).1, ((h2.ownerLock (h1.ownerLock h).1).2).trans (h1.ownerLock h).2⟩
  revoke := and_keeps h1.revoke h2.revoke
  svn := and_keeps h1.svn h2.svn
  dbgVendor h := h2.dbgVendor (h1.dbgVendor h)

/-! ### Sets of parts as numbers -/

/-- Every part of the set `f` is in `m`. -/
def Sub (f m : Nat) : Prop := f &&& m = f

theorem Sub.refl (m : Nat) : Sub m m := by simp [Sub]

theorem Sub.of {f g m : Nat} (h : Sub f m) (hg : g &&& f = g) : Sub g m := by
  unfold Sub at *
  rw [← hg, Nat.and_assoc, h]

theorem Sub.bit {f m i : Nat} (h : Sub f m) (hi : f.testBit i = true) : m.testBit i = true := by
  unfold Sub at h
  rw [← h, Nat.testBit_and] at hi
  simp at hi
  exact hi.2

theorem RegGroup.bit (g : RegGroup) : (0x3FFFFFFF : Nat).testBit g.idx = true := by cases g <;> rfl

theorem EngUnit.bit (u : EngUnit) : (0x7FFC0000000 : Nat).testBit u.idx = true := by cases u <;> rfl

theorem Sub.grp {f m : Nat} (h : Sub f m) (hf : 0x3FFFFFFF &&& f = 0x3FFFFFFF) (g : RegGroup) : m.testBit g.idx = true := (h.of hf).bit g.bit

theorem Sub.units {f m : Nat} (h : Sub f m) (hf : 0x7FFC0000000 &&& f = 0x7FFC0000000) (u : EngUnit) : m.testBit u.idx = true :=
  (h.of hf).bit u.bit

theorem EngUnit.same_refl (u : EngUnit) (g : EngInt) : u.same g g := by cases u <;> first | rfl | exact ⟨rfl, rfl⟩ | exact ⟨rfl, rfl, rfl⟩ | exact ⟨rfl, rfl, rfl, rfl⟩

theorem EngUnit.same_trans {u : EngUnit} {g h k : EngInt} (h1 : u.same g h) (h2 : u.same h k) : u.same g k := by
  cases u
  case rest => exact ⟨h2.1.trans h1.1, h2.2.1.trans h1.2.1, h2.2.2.1.trans h1.2.2.1, h2.2.2.2.trans h1.2.2.2⟩
  case rty => exact ⟨h2.1.trans h1.1, h2.2.1.trans h1.2.1, h2.2.2.trans h1.2.2⟩
  case cap => exact ⟨h2.1.trans h1.1, h2.2.trans h1.2⟩
  all_goals exact Eq.trans h2 h1

/-- Registers of the engine domains are in the first twelve groups. -/
theorem Reg.group_engine {r : Reg} (h : r.blk.idx < 3) : r.group.idx < 12 := by
  obtain ⟨b, i, k, off⟩ := r
  cases b <;> simp only [Blk.idx] at h <;> first | omega | (simp only [Reg.group]; repeat' split) <;> decide

theorem notBit {m i : Nat} (h : m.testBit i = true) {p : Prop} (n : m.testBit i = false) : p := by rw [h] at n; cases n

/-! ### The relation -/

/-- `t` comes from `a` by operations that touch the parts in `M` and, of the engines, those in `P`. -/
structure Evolves (M : Nat) (P : Nat → Prop) (a t : State) : Prop where
  pending : t.pending = a.pending
  inv : a.Inv → t.Inv
  fuses : Fuses.Kept a.sec.blown t.sec.blown
  fresh : a.fresh ≤ t.fresh
  regs : ∀ r : Reg, M.testBit r.group.idx = false → t.rd r = a.rd r
  engRegs : ∀ r : Reg, r.blk.idx < 3 → ¬ P r.i → t.rd r = a.rd r
  engs : ∀ e : Eng, ¬ P e.val → t.eng[e] = a.eng[e]
  units : ∀ u : EngUnit, M.testBit u.idx = false → ∀ e : Eng, u.same a.eng[e] t.eng[e]
  time : M.testBit 43 = false → t.us = a.us
  axes : M.testBit 44 = false → t.ax = a.ax
  buses : M.testBit 45 = false → t.brk = a.brk
  queues : M.testBit 46 = false → t.mq = a.mq
  ddr : M.testBit 47 = false → t.ddr = a.ddr
  log : M.testBit 48 = false → t.events = a.events ∧ t.evSeq = a.evSeq
  encOffs : M.testBit 49 = false → t.encOffs = a.encOffs
  notes : M.testBit 50 = false → t.notes = a.notes
  ladder : M.testBit 51 = false → t.ladderMsgs = a.ladderMsgs
  journal : M.testBit 52 = false → t.jrn = a.jrn
  armature : M.testBit 53 = false → t.arm = a.arm
  host : M.testBit 54 = false → t.cqi = a.cqi
  memory : M.testBit 55 = false → t.mem = a.mem
  security : M.testBit 56 = false → t.sec = a.sec
  power : M.testBit 57 = false → t.pw = a.pw
  out : M.testBit 58 = false → t.out = a.out

variable {M : Nat} {P : Nat → Prop} {a s t : State}

theorem Evolves.refl (M : Nat) (P : Nat → Prop) (s : State) : Evolves M P s s where
  pending := rfl
  inv := id
  fuses := Fuses.Kept.refl _
  fresh := Nat.le_refl _
  regs _ _ := rfl
  engRegs _ _ _ := rfl
  engs _ _ := rfl
  units u _ e := u.same_refl _
  time _ := rfl
  axes _ := rfl
  buses _ := rfl
  queues _ := rfl
  ddr _ := rfl
  log _ := ⟨rfl, rfl⟩
  encOffs _ := rfl
  notes _ := rfl
  ladder _ := rfl
  journal _ := rfl
  armature _ := rfl
  host _ := rfl
  memory _ := rfl
  security _ := rfl
  power _ := rfl
  out _ := rfl

theorem Evolves.trans {b c : State} (h1 : Evolves M P a b) (h2 : Evolves M P b c) : Evolves M P a c where
  pending := h2.pending.trans h1.pending
  inv h := h2.inv (h1.inv h)
  fuses := h1.fuses.trans h2.fuses
  fresh := Nat.le_trans h1.fresh h2.fresh
  regs r h := (h2.regs r h).trans (h1.regs r h)
  engRegs r h p := (h2.engRegs r h p).trans (h1.engRegs r h p)
  engs e p := (h2.engs e p).trans (h1.engs e p)
  units u h e := EngUnit.same_trans (h1.units u h e) (h2.units u h e)
  time h := (h2.time h).trans (h1.time h)
  axes h := (h2.axes h).trans (h1.axes h)
  buses h := (h2.buses h).trans (h1.buses h)
  queues h := (h2.queues h).trans (h1.queues h)
  ddr h := (h2.ddr h).trans (h1.ddr h)
  log h := ⟨(h2.log h).1.trans (h1.log h).1, (h2.log h).2.trans (h1.log h).2⟩
  encOffs h := (h2.encOffs h).trans (h1.encOffs h)
  notes h := (h2.notes h).trans (h1.notes h)
  ladder h := (h2.ladder h).trans (h1.ladder h)
  journal h := (h2.journal h).trans (h1.journal h)
  armature h := (h2.armature h).trans (h1.armature h)
  host h := (h2.host h).trans (h1.host h)
  memory h := (h2.memory h).trans (h1.memory h)
  security h := (h2.security h).trans (h1.security h)
  power h := (h2.power h).trans (h1.power h)
  out h := (h2.out h).trans (h1.out h)

/-- The parts outside the set are the same. -/
theorem Evolves.part (h : Evolves M P a t) (p : Part) (hp : M.testBit p.idx = false) : p.same a t := by
  cases p with
  | regs g => exact fun r hr => h.regs r (hr ▸ hp)
  | unit u => exact h.units u hp
  | time => exact h.time hp
  | axes => exact h.axes hp
  | buses => exact h.buses hp
  | queues => exact h.queues hp
  | ddr => exact h.ddr hp
  | log => exact h.log hp
  | encOffs => exact h.encOffs hp
  | notes => exact h.notes hp
  | ladder => exact h.ladder hp
  | journal => exact h.journal hp
  | armature => exact h.armature hp
  | host => exact h.host hp
  | memory => exact h.memory hp
  | security => exact h.security hp
  | power => exact h.power hp
  | out => exact h.out hp

/-- An engine outside the set is the same. -/
theorem Evolves.engine (h : Evolves M P a t) (e : Eng) (hp : ¬ P e.val) : sameEngine e a t :=
  ⟨h.engs e hp, fun r hr => h.engRegs r hr.1 (hr.2 ▸ hp)⟩

/-! ### Composition -/

theorem Evolves.ite {c : Prop} [Decidable c] (h1 : Evolves M P a s) (h2 : Evolves M P a t) : Evolves M P a (if c then s else t) := by
  split <;> assumption

theorem Evolves.dite {c : Prop} [Decidable c] {s : c → State} {t : ¬ c → State} (h1 : ∀ h, Evolves M P a (s h))
    (h2 : ∀ h, Evolves M P a (t h)) : Evolves M P a (if h : c then s h else t h) := by
  split
  · exact h1 _
  · exact h2 _

theorem Evolves.foldl {α : Type} {f : State → α → State} (l : List α) (hf : ∀ s x, Evolves M P a s → Evolves M P a (f s x))
    {s : State} (h : Evolves M P a s) : Evolves M P a (l.foldl f s) := by
  induction l generalizing s with
  | nil => exact h
  | cons x xs ih => exact ih (hf _ _ h)

theorem Evolves.foldl_fst {α β : Type} {f : State × β → α → State × β} (l : List α)
    (hf : ∀ z x, Evolves M P a z.1 → Evolves M P a (f z x).1) {z : State × β} (h : Evolves M P a z.1) :
    Evolves M P a (l.foldl f z).1 := by
  induction l generalizing z with
  | nil => exact h
  | cons x xs ih => exact ih (hf _ _ h)

theorem Evolves.fst_ite {β : Type} {c : Prop} [Decidable c] {x y : State × β} (h1 : Evolves M P a x.1) (h2 : Evolves M P a y.1) :
    Evolves M P a (if c then x else y).1 := by split <;> assumption

theorem Evolves.snd_ite {β : Type} {c : Prop} [Decidable c] {x y : β × State} (h1 : Evolves M P a x.2) (h2 : Evolves M P a y.2) :
    Evolves M P a (if c then x else y).2 := by split <;> assumption

/-! ### Registers -/

theorem State.rd_wr (s : State) (r : Reg) (v : Word) : (s.wr r v).rd r = v := Cells.get_set_same ..

theorem State.rd_wr_other (s : State) {r q : Reg} (v : Word) (h : r ≠ q) : (s.wr r v).rd q = s.rd q := Cells.get_set_other _ _ _ _ h

theorem Evolves.wr {r : Reg} {v : Word} (hb : M.testBit r.group.idx = true) (he : r.blk.idx < 3 → P r.i) (h : Evolves M P a s) :
    Evolves M P a (s.wr r v) :=
  { h with
    inv := fun i => let j := h.inv i; ⟨Cells.wf_set Cells.regOrder _ _ j.regs, j.mq, j.ddr, j.log, j.x0⟩
    regs := fun q hq => by
      refine (State.rd_wr_other s v ?_).trans (h.regs q hq)
      rintro rfl
      exact notBit hb hq
    engRegs := fun q hq hp => by
      refine (State.rd_wr_other s v ?_).trans (h.engRegs q hq hp)
      rintro rfl
      exact hp (he hq) }

theorem Evolves.put {f : Fld} {x : Nat} (g : RegGroup) (hr : f.reg.group = g) (hb : M.testBit g.idx = true) (he : P f.reg.i)
    (h : Evolves M P a s) : Evolves M P a (s.put f x) := h.wr (hr ▸ hb) fun _ => he
theorem Evolves.putInt {f : Fld} {x : Int} (g : RegGroup) (hr : f.reg.group = g) (hb : M.testBit g.idx = true) (he : P f.reg.i)
    (h : Evolves M P a s) : Evolves M P a (s.putInt f x) := h.wr (hr ▸ hb) fun _ => he
theorem Evolves.putBool {f : Fld} {x : Bool} (g : RegGroup) (hr : f.reg.group = g) (hb : M.testBit g.idx = true) (he : P f.reg.i)
    (h : Evolves M P a s) : Evolves M P a (s.putBool f x) := h.wr (hr ▸ hb) fun _ => he
theorem Evolves.inc {f : Fld} (g : RegGroup) (hr : f.reg.group = g) (hb : M.testBit g.idx = true) (he : P f.reg.i)
    (h : Evolves M P a s) : Evolves M P a (s.inc f) := h.wr (hr ▸ hb) fun _ => he
theorem Evolves.incBy {f : Fld} {d : Nat} (g : RegGroup) (hr : f.reg.group = g) (hb : M.testBit g.idx = true) (he : P f.reg.i)
    (h : Evolves M P a s) : Evolves M P a (s.incBy f d) := h.wr (hr ▸ hb) fun _ => he
theorem Evolves.incWrap {f : Fld} (g : RegGroup) (hr : f.reg.group = g) (hb : M.testBit g.idx = true) (he : P f.reg.i)
    (h : Evolves M P a s) : Evolves M P a (s.incWrap f) := h.wr (hr ▸ hb) fun _ => he
theorem Evolves.wrE {r : Reg} {v : Word} (g : RegGroup) (hr : r.group = g) (hb : M.testBit g.idx = true) (he : P r.i)
    (h : Evolves M P a s) : Evolves M P a (s.wr r v) := h.wr (hr ▸ hb) fun _ => he

/-- Registers outside the engine domains. -/
theorem Evolves.wrG {r : Reg} {v : Word} (g : RegGroup) (hr : r.group = g) (hb : M.testBit g.idx = true) (hg : Nat.ble 12 g.idx = true)
    (h : Evolves M P a s) : Evolves M P a (s.wr r v) :=
  h.wr (hr ▸ hb) fun hl => absurd (Nat.le_of_ble_eq_true hg) (Nat.not_le_of_lt (hr ▸ Reg.group_engine hl))
theorem Evolves.putG {f : Fld} {x : Nat} (g : RegGroup) (hr : f.reg.group = g) (hb : M.testBit g.idx = true) (hg : Nat.ble 12 g.idx = true)
    (h : Evolves M P a s) : Evolves M P a (s.put f x) := h.wrG g hr hb hg
theorem Evolves.putIntG {f : Fld} {x : Int} (g : RegGroup) (hr : f.reg.group = g) (hb : M.testBit g.idx = true) (hg : Nat.ble 12 g.idx = true)
    (h : Evolves M P a s) : Evolves M P a (s.putInt f x) := h.wrG g hr hb hg
theorem Evolves.putBoolG {f : Fld} {x : Bool} (g : RegGroup) (hr : f.reg.group = g) (hb : M.testBit g.idx = true) (hg : Nat.ble 12 g.idx = true)
    (h : Evolves M P a s) : Evolves M P a (s.putBool f x) := h.wrG g hr hb hg
theorem Evolves.incG {f : Fld} (g : RegGroup) (hr : f.reg.group = g) (hb : M.testBit g.idx = true) (hg : Nat.ble 12 g.idx = true)
    (h : Evolves M P a s) : Evolves M P a (s.inc f) := h.wrG g hr hb hg
theorem Evolves.incByG {f : Fld} {d : Nat} (g : RegGroup) (hr : f.reg.group = g) (hb : M.testBit g.idx = true) (hg : Nat.ble 12 g.idx = true)
    (h : Evolves M P a s) : Evolves M P a (s.incBy f d) := h.wrG g hr hb hg
theorem Evolves.incWrapG {f : Fld} (g : RegGroup) (hr : f.reg.group = g) (hb : M.testBit g.idx = true) (hg : Nat.ble 12 g.idx = true)
    (h : Evolves M P a s) : Evolves M P a (s.incWrap f) := h.wrG g hr hb hg

theorem Evolves.putBit {f : Fld} {i : Nat} {v : Bool} (g : RegGroup) (hr : f.reg.group = g) (hb : M.testBit g.idx = true) (he : P f.reg.i)
    (h : Evolves M P a s) : Evolves M P a (s.putBit f i v) := h.wr (hr ▸ hb) fun _ => he
theorem Evolves.putBitG {f : Fld} {i : Nat} {v : Bool} (g : RegGroup) (hr : f.reg.group = g) (hb : M.testBit g.idx = true)
    (hg : Nat.ble 12 g.idx = true) (h : Evolves M P a s) : Evolves M P a (s.putBit f i v) := h.wrG g hr hb hg
theorem Evolves.clearRegG {r : Reg} (g : RegGroup) (hr : r.group = g) (hb : M.testBit g.idx = true) (hg : Nat.ble 12 g.idx = true)
    (h : Evolves M P a s) : Evolves M P a (s.clearReg r) := h.wrG g hr hb hg

/-! The groups of registers whose offset holds an index. -/

theorem Reg.group_hl {r : Reg} (b : r.blk = .eng) (hi : r.off < 0x4000) : r.group = .hl := by
  unfold Reg.group
  rw [b]
  dsimp only
  rw [if_pos hi]
theorem Reg.group_seam {r : Reg} (b : r.blk = .eng) (lo : 0x4000 ≤ r.off) (hi : r.off < 0x5000) : r.group = .seam := by
  simp only [Reg.group, b]
  repeat rw [if_neg (by omega)]
  exact if_pos hi
theorem Reg.group_wr {r : Reg} (b : r.blk = .eng) (lo : 0x5000 ≤ r.off) (hi : r.off < 0x6000) : r.group = .wr := by
  simp only [Reg.group, b]
  repeat rw [if_neg (by omega)]
  exact if_pos hi
theorem Reg.group_tmp {r : Reg} (b : r.blk = .eng) (lo : 0x6000 ≤ r.off) (hi : r.off < 0x6800) : r.group = .tmp := by
  simp only [Reg.group, b]
  repeat rw [if_neg (by omega)]
  exact if_pos hi
theorem Reg.group_rty {r : Reg} (b : r.blk = .eng) (lo : 0x6800 ≤ r.off) (hi : r.off < 0x7000) : r.group = .rty := by
  simp only [Reg.group, b]
  repeat rw [if_neg (by omega)]
  exact if_pos hi
theorem Reg.group_spn {r : Reg} (b : r.blk = .eng) (lo : 0x7000 ≤ r.off) (hi : r.off < 0x7800) : r.group = .spn := by
  simp only [Reg.group, b]
  repeat rw [if_neg (by omega)]
  exact if_pos hi
theorem Reg.group_sld {r : Reg} (b : r.blk = .eng) (lo : 0x7800 ≤ r.off) (hi : r.off < 0x7c00) : r.group = .sld := by
  simp only [Reg.group, b]
  repeat rw [if_neg (by omega)]
  exact if_pos hi
theorem Reg.group_slg {r : Reg} (b : r.blk = .eng) (lo : 0x7c00 ≤ r.off) (hi : r.off < 0x8000) : r.group = .slg := by
  simp only [Reg.group, b]
  repeat rw [if_neg (by omega)]
  exact if_pos hi
theorem Reg.group_anv {r : Reg} (b : r.blk = .eng) (lo : 0x8000 ≤ r.off) : r.group = .anv := by
  simp only [Reg.group, b]
  repeat rw [if_neg (by omega)]
theorem Reg.group_ids {r : Reg} (b : r.blk = .glb) (hi : r.off < 0x800) : r.group = .ids := by
  unfold Reg.group
  rw [b]
  dsimp only
  rw [if_pos hi]
theorem Reg.group_policy {r : Reg} (b : r.blk = .glb) (lo : 0x800 ≤ r.off) (hi : r.off < 0x900) : r.group = .policy := by
  simp only [Reg.group, b]
  repeat rw [if_neg (by omega)]
  exact if_pos hi
theorem Reg.group_journal {r : Reg} (b : r.blk = .glb) (lo : 0x900 ≤ r.off) (hi : r.off < 0xa00) : r.group = .journal := by
  simp only [Reg.group, b]
  repeat rw [if_neg (by omega)]
  exact if_pos hi
theorem Reg.group_claims {r : Reg} (b : r.blk = .glb) (lo : 0x1000 ≤ r.off) (hi : r.off < 0x1100) : r.group = .claims := by
  simp only [Reg.group, b]
  repeat rw [if_neg (by omega)]
  exact if_pos hi
theorem Reg.group_ports {r : Reg} (b : r.blk = .glb) (lo : 0x1100 ≤ r.off) (hi : r.off < 0x2000) : r.group = .ports := by
  simp only [Reg.group, b]
  repeat rw [if_neg (by omega)]
  exact if_pos hi
theorem Reg.group_power {r : Reg} (b : r.blk = .glb) (lo : 0x2000 ≤ r.off) (hi : r.off < 0x3000) : r.group = .power := by
  simp only [Reg.group, b]
  repeat rw [if_neg (by omega)]
  exact if_pos hi
theorem Reg.group_arbiter {r : Reg} (b : r.blk = .glb) (lo : 0x3000 ≤ r.off) (hi : r.off < 0x4000) : r.group = .arbiter := by
  simp only [Reg.group, b]
  repeat rw [if_neg (by omega)]
  exact if_pos hi
theorem Reg.group_cache {r : Reg} (b : r.blk = .glb) (lo : 0x4000 ≤ r.off) (hi : r.off < 0x5000) : r.group = .cache := by
  simp only [Reg.group, b]
  repeat rw [if_neg (by omega)]
  exact if_pos hi
theorem Reg.group_pools {r : Reg} (b : r.blk = .glb) (lo : 0x5000 ≤ r.off) : r.group = .pools := by
  simp only [Reg.group, b]
  repeat rw [if_neg (by omega)]

/-! ### What lies beyond the registers -/

theorem Evolves.tickFresh (h : Evolves M P a s) : Evolves M P a s.tickFresh :=
  { h with inv := fun i => let j := h.inv i; ⟨j.regs, j.mq, j.ddr, j.log, j.x0⟩, fresh := Nat.le_succ_of_le h.fresh }

theorem Evolves.withTime {x : Nat} (hb : M.testBit 43 = true) (h : Evolves M P a s) : Evolves M P a { s with us := x } :=
  { h with inv := fun i => let j := h.inv i; ⟨j.regs, j.mq, j.ddr, j.log, j.x0⟩, time := notBit hb }

theorem Evolves.withEng {x : Vector EngInt 8} (hb : ∀ u : EngUnit, M.testBit u.idx = true) (he : ∀ e : Eng, ¬ P e.val → x[e] = s.eng[e])
    (h : Evolves M P a s) : Evolves M P a { s with eng := x } :=
  { h with
    inv := fun i => let j := h.inv i; ⟨j.regs, j.mq, j.ddr, j.log, j.x0⟩
    units := fun u hu => notBit (hb u) hu
    engs := fun e p => (he e p).trans (h.engs e p) }

theorem Evolves.modUnit {e : Eng} {f : EngInt → EngInt} (U : EngUnit) (hb : M.testBit U.idx = true) (he : P e.val)
    (hf : ∀ g u, u ≠ U → u.same g (f g)) (h : Evolves M P a s) : Evolves M P a (s.modEng e f) :=
  { h with
    inv := fun i => let j := h.inv i; ⟨j.regs, j.mq, j.ddr, j.log, j.x0⟩
    engs := fun d hd => by
      have : e.val ≠ d.val := fun q => hd (q ▸ he)
      refine Eq.trans ?_ (h.engs d hd)
      show (s.eng.set e (f s.eng[e]))[d] = s.eng[d]
      simp [this]
    units := fun u hu d => by
      refine EngUnit.same_trans (h.units u hu d) ?_
      show u.same s.eng[d] (s.eng.set e (f s.eng[e]))[d]
      have hne : u ≠ U := fun q => notBit hb (q ▸ hu)
      by_cases hd : e = d
      · subst hd
        simpa using hf s.eng[e] u hne
      · have : e.val ≠ d.val := fun q => hd (Fin.ext q)
        simpa [this] using u.same_refl s.eng[d] }

theorem Evolves.modCh {e : Eng} {k : Chn} {f : ChInt → ChInt} (hb : M.testBit 31 = true) (he : P e.val) (h : Evolves M P a s) :
    Evolves M P a (s.modCh e k f) :=
  h.modUnit .chains hb he fun g u hu => by cases u <;> first | exact absurd rfl hu | rfl | exact ⟨rfl, rfl⟩ | exact ⟨rfl, rfl, rfl⟩ | exact ⟨rfl, rfl, rfl, rfl⟩
theorem Evolves.modHl {e : Eng} {f : HlInt → HlInt} (hb : M.testBit 30 = true) (he : P e.val) (h : Evolves M P a s) :
    Evolves M P a (s.modHl e f) :=
  h.modUnit .hl hb he fun g u hu => by cases u <;> first | exact absurd rfl hu | rfl | exact ⟨rfl, rfl⟩ | exact ⟨rfl, rfl, rfl⟩ | exact ⟨rfl, rfl, rfl, rfl⟩
theorem Evolves.modSeam {e : Eng} {f : SeamInt → SeamInt} (hb : M.testBit 33 = true) (he : P e.val) (h : Evolves M P a s) :
    Evolves M P a (s.modSeam e f) :=
  h.modUnit .seam hb he fun g u hu => by cases u <;> first | exact absurd rfl hu | rfl | exact ⟨rfl, rfl⟩ | exact ⟨rfl, rfl, rfl⟩ | exact ⟨rfl, rfl, rfl, rfl⟩
theorem Evolves.modWr {e : Eng} {f : WrInt → WrInt} (hb : M.testBit 34 = true) (he : P e.val) (h : Evolves M P a s) :
    Evolves M P a (s.modWr e f) :=
  h.modUnit .wr hb he fun g u hu => by cases u <;> first | exact absurd rfl hu | rfl | exact ⟨rfl, rfl⟩ | exact ⟨rfl, rfl, rfl⟩ | exact ⟨rfl, rfl, rfl, rfl⟩
theorem Evolves.modTmp {e : Eng} {f : TmpInt → TmpInt} (hb : M.testBit 36 = true) (he : P e.val) (h : Evolves M P a s) :
    Evolves M P a (s.modTmp e f) :=
  h.modUnit .tmp hb he fun g u hu => by cases u <;> first | exact absurd rfl hu | rfl | exact ⟨rfl, rfl⟩ | exact ⟨rfl, rfl, rfl⟩ | exact ⟨rfl, rfl, rfl, rfl⟩
theorem Evolves.modAnv {e : Eng} {f : AnvInt → AnvInt} (hb : M.testBit 37 = true) (he : P e.val) (h : Evolves M P a s) :
    Evolves M P a (s.modAnv e f) :=
  h.modUnit .anv hb he fun g u hu => by cases u <;> first | exact absurd rfl hu | rfl | exact ⟨rfl, rfl⟩ | exact ⟨rfl, rfl, rfl⟩ | exact ⟨rfl, rfl, rfl, rfl⟩
theorem Evolves.modLoop {e : Eng} {f : LoopInt → LoopInt} (hb : M.testBit 38 = true) (he : P e.val) (h : Evolves M P a s) :
    Evolves M P a (s.modLoop e f) :=
  h.modUnit .loop hb he fun g u hu => by cases u <;> first | exact absurd rfl hu | rfl | exact ⟨rfl, rfl⟩ | exact ⟨rfl, rfl, rfl⟩ | exact ⟨rfl, rfl, rfl, rfl⟩
theorem Evolves.modSpn {e : Eng} {f : SpnInt → SpnInt} (hb : M.testBit 40 = true) (he : P e.val) (h : Evolves M P a s) :
    Evolves M P a (s.modSpn e f) :=
  h.modUnit .spn hb he fun g u hu => by cases u <;> first | exact absurd rfl hu | rfl | exact ⟨rfl, rfl⟩ | exact ⟨rfl, rfl, rfl⟩ | exact ⟨rfl, rfl, rfl, rfl⟩
theorem Evolves.modSld {e : Eng} {f : SldInt → SldInt} (hb : M.testBit 41 = true) (he : P e.val) (h : Evolves M P a s) :
    Evolves M P a (s.modSld e f) :=
  h.modUnit .sld hb he fun g u hu => by cases u <;> first | exact absurd rfl hu | rfl | exact ⟨rfl, rfl⟩ | exact ⟨rfl, rfl, rfl⟩ | exact ⟨rfl, rfl, rfl, rfl⟩
theorem Evolves.modCap {e : Eng} {f : EngInt → List (Nat × Byte)} (hb : M.testBit 32 = true) (he : P e.val) (h : Evolves M P a s) :
    Evolves M P a (s.modEng e fun g => { g with cap := f g }) :=
  h.modUnit .cap hb he fun g u hu => by cases u <;> first | exact absurd rfl hu | rfl | exact ⟨rfl, rfl⟩ | exact ⟨rfl, rfl, rfl⟩ | exact ⟨rfl, rfl, rfl, rfl⟩
theorem Evolves.modRty {e : Eng} {f : EngInt → List LadderItem} (hb : M.testBit 35 = true) (he : P e.val) (h : Evolves M P a s) :
    Evolves M P a (s.modEng e fun g => { g with rty := f g }) :=
  h.modUnit .rty hb he fun g u hu => by cases u <;> first | exact absurd rfl hu | rfl | exact ⟨rfl, rfl⟩ | exact ⟨rfl, rfl, rfl⟩ | exact ⟨rfl, rfl, rfl, rfl⟩
theorem Evolves.modSlg {e : Eng} {f : EngInt → SlgInt} (hb : M.testBit 39 = true) (he : P e.val) (h : Evolves M P a s) :
    Evolves M P a (s.modEng e fun g => { g with slg := f g }) :=
  h.modUnit .slg hb he fun g u hu => by cases u <;> first | exact absurd rfl hu | rfl | exact ⟨rfl, rfl⟩ | exact ⟨rfl, rfl, rfl⟩ | exact ⟨rfl, rfl, rfl, rfl⟩
theorem Evolves.modTrig {e : Eng} {f0 : EngInt → Bool} (hb : M.testBit 32 = true) (he : P e.val) (h : Evolves M P a s) :
    Evolves M P a (s.modEng e fun g => { g with capTrig := f0 g }) :=
  h.modUnit .cap hb he fun g u hu => by cases u <;> first | exact absurd rfl hu | rfl | exact ⟨rfl, rfl⟩ | exact ⟨rfl, rfl, rfl⟩ | exact ⟨rfl, rfl, rfl, rfl⟩
theorem Evolves.modCapTrig {e : Eng} {f0 : EngInt → List (Nat × Byte)} {f1 : EngInt → Bool} (hb : M.testBit 32 = true) (he : P e.val) (h : Evolves M P a s) :
    Evolves M P a (s.modEng e fun g => { g with cap := f0 g, capTrig := f1 g }) :=
  h.modUnit .cap hb he fun g u hu => by cases u <;> first | exact absurd rfl hu | rfl | exact ⟨rfl, rfl⟩ | exact ⟨rfl, rfl, rfl⟩ | exact ⟨rfl, rfl, rfl, rfl⟩
theorem Evolves.modAtt {e : Eng} {f0 : EngInt → Option Attempt} (hb : M.testBit 35 = true) (he : P e.val) (h : Evolves M P a s) :
    Evolves M P a (s.modEng e fun g => { g with att := f0 g }) :=
  h.modUnit .rty hb he fun g u hu => by cases u <;> first | exact absurd rfl hu | rfl | exact ⟨rfl, rfl⟩ | exact ⟨rfl, rfl, rfl⟩ | exact ⟨rfl, rfl, rfl, rfl⟩
theorem Evolves.modSlow {e : Eng} {f0 : EngInt → Option (Nat × List ClAddr)} (hb : M.testBit 35 = true) (he : P e.val) (h : Evolves M P a s) :
    Evolves M P a (s.modEng e fun g => { g with slow := f0 g }) :=
  h.modUnit .rty hb he fun g u hu => by cases u <;> first | exact absurd rfl hu | rfl | exact ⟨rfl, rfl⟩ | exact ⟨rfl, rfl, rfl⟩ | exact ⟨rfl, rfl, rfl, rfl⟩
theorem Evolves.modEsqMem {e : Eng} {f0 : EngInt → List (Nat × Byte)} (hb : M.testBit 42 = true) (he : P e.val) (h : Evolves M P a s) :
    Evolves M P a (s.modEng e fun g => { g with esqMem := f0 g }) :=
  h.modUnit .rest hb he fun g u hu => by cases u <;> first | exact absurd rfl hu | rfl | exact ⟨rfl, rfl⟩ | exact ⟨rfl, rfl, rfl⟩ | exact ⟨rfl, rfl, rfl, rfl⟩
theorem Evolves.modWfi {e : Eng} {f : EngInt → Bool} (hb : M.testBit 42 = true) (he : P e.val) (h : Evolves M P a s) :
    Evolves M P a (s.modEng e fun g => { g with wfi := f g }) :=
  h.modUnit .rest hb he fun g u hu => by cases u <;> first | exact absurd rfl hu | rfl | exact ⟨rfl, rfl⟩ | exact ⟨rfl, rfl, rfl⟩ | exact ⟨rfl, rfl, rfl, rfl⟩
theorem Evolves.modRetained {e : Eng} {f : EngInt → Bool} (hb : M.testBit 42 = true) (he : P e.val) (h : Evolves M P a s) :
    Evolves M P a (s.modEng e fun g => { g with retained := f g }) :=
  h.modUnit .rest hb he fun g u hu => by cases u <;> first | exact absurd rfl hu | rfl | exact ⟨rfl, rfl⟩ | exact ⟨rfl, rfl, rfl⟩ | exact ⟨rfl, rfl, rfl, rfl⟩
theorem Evolves.modMech {e : Eng} {f : EngInt → Bool} (hb : M.testBit 42 = true) (he : P e.val) (h : Evolves M P a s) :
    Evolves M P a (s.modEng e fun g => { g with mechDue := f g }) :=
  h.modUnit .rest hb he fun g u hu => by cases u <;> first | exact absurd rfl hu | rfl | exact ⟨rfl, rfl⟩ | exact ⟨rfl, rfl, rfl⟩ | exact ⟨rfl, rfl, rfl, rfl⟩
theorem Evolves.modWake {e : Eng} {f h' : EngInt → Bool} (hb : M.testBit 42 = true) (he : P e.val) (h : Evolves M P a s) :
    Evolves M P a (s.modEng e fun g => { g with wfi := f g, retained := h' g }) :=
  h.modUnit .rest hb he fun g u hu => by cases u <;> first | exact absurd rfl hu | rfl | exact ⟨rfl, rfl⟩ | exact ⟨rfl, rfl, rfl⟩ | exact ⟨rfl, rfl, rfl, rfl⟩

theorem Evolves.withAx {x : Vector AxInt 4} (hb : M.testBit 44 = true) (h : Evolves M P a s) : Evolves M P a { s with ax := x } :=
  { h with inv := fun i => let j := h.inv i; ⟨j.regs, j.mq, j.ddr, j.log, j.x0⟩, axes := notBit hb }
theorem Evolves.withBrk {x : Vector BrkInt 2} (hb : M.testBit 45 = true) (h : Evolves M P a s) : Evolves M P a { s with brk := x } :=
  { h with inv := fun i => let j := h.inv i; ⟨j.regs, j.mq, j.ddr, j.log, j.x0⟩, buses := notBit hb }

theorem Evolves.withMq {q : Nat} {x : List (BitVec 128)} (hb : M.testBit 46 = true) (h : Evolves M P a s) :
    Evolves M P a { s with mq := Cells.set Cells.natLt (fun _ => []) s.mq q x } :=
  { h with inv := fun i => let j := h.inv i; ⟨j.regs, Cells.wf_set Cells.natOrder _ _ j.mq, j.ddr, j.log, j.x0⟩, queues := notBit hb }
theorem Evolves.mqPut {q : Nat} {m : BitVec 128} (hb : M.testBit 46 = true) (h : Evolves M P a s) : Evolves M P a (s.mqPut q m) := h.withMq hb

theorem Evolves.dramSet {i : Nat} {b : Block} (hb : M.testBit 47 = true) (h : Evolves M P a s) : Evolves M P a (s.dramSet i b) :=
  { h with inv := fun i => let j := h.inv i; ⟨j.regs, j.mq, Cells.wf_set Cells.natOrder _ _ j.ddr, j.log, j.x0⟩, ddr := notBit hb }

theorem Evolves.withLog {x : List EventRec} {n : Nat} (hb : M.testBit 48 = true) (hx : x.length ≤ s.events.length ∨ x.length ≤ 4096)
    (h : Evolves M P a s) : Evolves M P a { s with events := x, evSeq := n } :=
  { h with
    inv := fun i => let j := h.inv i; ⟨j.regs, j.mq, j.ddr, hx.elim (fun q => Nat.le_trans q j.log) id, j.x0⟩
    log := notBit hb }

theorem Evolves.withEncOffs {x : Vector Int 8} (hb : M.testBit 49 = true) (h : Evolves M P a s) : Evolves M P a { s with encOffs := x } :=
  { h with inv := fun i => let j := h.inv i; ⟨j.regs, j.mq, j.ddr, j.log, j.x0⟩, encOffs := notBit hb }
theorem Evolves.withNotes {x : List ArmNote} (hb : M.testBit 50 = true) (h : Evolves M P a s) : Evolves M P a { s with notes := x } :=
  { h with inv := fun i => let j := h.inv i; ⟨j.regs, j.mq, j.ddr, j.log, j.x0⟩, notes := notBit hb }
theorem Evolves.note {n : ArmNote} (hb : M.testBit 50 = true) (h : Evolves M P a s) : Evolves M P a (note n s) := h.withNotes hb
theorem Evolves.withLadder {x : List LadderMsg} (hb : M.testBit 51 = true) (h : Evolves M P a s) :
    Evolves M P a { s with ladderMsgs := x } :=
  { h with inv := fun i => let j := h.inv i; ⟨j.regs, j.mq, j.ddr, j.log, j.x0⟩, ladder := notBit hb }
theorem Evolves.withJrn {x : JrnInt} (hb : M.testBit 52 = true) (h : Evolves M P a s) : Evolves M P a { s with jrn := x } :=
  { h with inv := fun i => let j := h.inv i; ⟨j.regs, j.mq, j.ddr, j.log, j.x0⟩, journal := notBit hb }
theorem Evolves.modJrn {f : JrnInt → JrnInt} (hb : M.testBit 52 = true) (h : Evolves M P a s) : Evolves M P a (s.modJrn f) := h.withJrn hb

theorem Evolves.withArm {x : ArmInt} (hb : M.testBit 53 = true) (hx : x.plc = s.arm.plc) (h : Evolves M P a s) :
    Evolves M P a { s with arm := x } :=
  { h with inv := fun i => let j := h.inv i; ⟨j.regs, j.mq, j.ddr, j.log, fun c => hx ▸ j.x0 c⟩, armature := notBit hb }
theorem Evolves.modArm {f : ArmInt → ArmInt} (hb : M.testBit 53 = true) (hf : (f s.arm).plc = s.arm.plc) (h : Evolves M P a s) :
    Evolves M P a (s.modArm f) := h.withArm hb hf

theorem Evolves.modPlc {c : Fin 4} {f : Plc → Plc} (hb : M.testBit 53 = true)
    (hf : s.arm.plc[c].x[(0 : Fin 32)] = 0#32 → (f s.arm.plc[c]).x[(0 : Fin 32)] = 0#32) (h : Evolves M P a s) :
    Evolves M P a (s.modPlc c f) :=
  { h with
    armature := notBit hb
    inv := fun i => by
      have j := h.inv i
      refine ⟨j.regs, j.mq, j.ddr, j.log, fun d => ?_⟩
      show (s.arm.plc.set c (f s.arm.plc[c]))[d].x[(0 : Fin 32)] = 0#32
      by_cases hd : c = d
      · subst hd
        simpa using hf (j.x0 c)
      · have : c.val ≠ d.val := fun e => hd (Fin.ext e)
        simpa [Vector.getElem_set, this] using j.x0 d }

theorem Evolves.withCqi {x : CqiInt} (hb : M.testBit 54 = true) (h : Evolves M P a s) : Evolves M P a { s with cqi := x } :=
  { h with inv := fun i => let j := h.inv i; ⟨j.regs, j.mq, j.ddr, j.log, j.x0⟩, host := notBit hb }
theorem Evolves.withMem {x : MemInt} (hb : M.testBit 55 = true) (h : Evolves M P a s) : Evolves M P a { s with mem := x } :=
  { h with inv := fun i => let j := h.inv i; ⟨j.regs, j.mq, j.ddr, j.log, j.x0⟩, memory := notBit hb }
theorem Evolves.withSec {x : SecInt} (hb : M.testBit 56 = true) (hx : x.blown = s.sec.blown) (h : Evolves M P a s) :
    Evolves M P a { s with sec := x } :=
  { h with
    inv := fun i => let j := h.inv i; ⟨j.regs, j.mq, j.ddr, j.log, j.x0⟩
    fuses := by show Fuses.Kept a.sec.blown x.blown; rw [hx]; exact h.fuses
    security := notBit hb }
theorem Evolves.withPw {x : PwrInt} (hb : M.testBit 57 = true) (h : Evolves M P a s) : Evolves M P a { s with pw := x } :=
  { h with inv := fun i => let j := h.inv i; ⟨j.regs, j.mq, j.ddr, j.log, j.x0⟩, power := notBit hb }
theorem Evolves.withOut {x : List Out} (hb : M.testBit 58 = true) (h : Evolves M P a s) : Evolves M P a { s with out := x } :=
  { h with inv := fun i => let j := h.inv i; ⟨j.regs, j.mq, j.ddr, j.log, j.x0⟩, out := notBit hb }
theorem Evolves.emit {o : Out} (hb : M.testBit 58 = true) (h : Evolves M P a s) : Evolves M P a (s.emit o) := h.withOut hb
/-- The interrupt of an event goes out or not; the bit is set. -/
theorem Evolves.raise {f : Fld} (g : RegGroup) (hr : f.reg.group = g) (hb : M.testBit g.idx = true) (he : P f.reg.i)
    (ho : M.testBit 58 = true) (h : Evolves M P a s) : Evolves M P a (s.raise f) :=
  Evolves.ite ((h.put g hr hb he).emit ho) (h.put g hr hb he)
theorem Evolves.raiseG {f : Fld} (g : RegGroup) (hr : f.reg.group = g) (hb : M.testBit g.idx = true) (hg : Nat.ble 12 g.idx = true)
    (ho : M.testBit 58 = true) (h : Evolves M P a s) : Evolves M P a (s.raise f) :=
  Evolves.ite ((h.putG g hr hb hg).emit ho) (h.putG g hr hb hg)
theorem Evolves.report {x : SupEvt} (hb : M.testBit 58 = true) (h : Evolves M P a s) : Evolves M P a (s.report x) := h.withOut hb

end Sys2Proof.Machine
end

