-- ==== Sys2Proof/Laws/Ops.lean ====
section
/-! SUPPORT. One lemma per operation of Machine/Ops.lean: the parts of the state it can touch and what it needs of the engines (`Evolves`). -/

namespace Sys2Proof.Machine

variable {M : Nat} {P : Nat → Prop} {a s : State}

theorem State.msixReq_ev (x2 : _) (hm : Sub 0x440000000000000 M) (h : Evolves M P a s) :
    Evolves M P a (State.msixReq s x2) := by
  unfold State.msixReq
  refine Evolves.ite ?_ ?_
  · exact h
  · refine Evolves.ite ?_ ?_
    · refine Evolves.withCqi (hm.bit rfl) ?_
      exact h
    · refine Evolves.ite ?_ ?_
      · refine Evolves.emit (hm.bit rfl) ?_
        exact h
      · refine Evolves.ite ?_ ?_
        · exact h
        · refine Evolves.withCqi (hm.bit rfl) ?_
          exact h

theorem State.cqiEvent_ev {f : Fld} (b : RegGroup) (hr : f.reg.group = b) (hb : M.testBit b.idx = true)
    (hg : Nat.ble 12 b.idx = true) (hm : Sub 0x440000000000000 M) (h : Evolves M P a s) : Evolves M P a (State.cqiEvent s f) :=
  Evolves.ite (State.msixReq_ev _ (hm.of rfl) (h.putG b hr hb hg)) (h.putG b hr hb hg)

theorem State.logEvent_ev (x2 x3 : _) (hm : Sub 0x441000010000000 M) (h : Evolves M P a s) :
    Evolves M P a (State.logEvent s x2 x3) := by
  unfold State.logEvent
  extract_lets t
  have ht : Evolves M P a t := h.withLog (hm.bit rfl) (.inr (List.length_take_le _ _))
  exact State.cqiEvent_ev .cqi rfl (hm.bit rfl) rfl (hm.of rfl) ht

theorem State.ddrSetLine_ev (x2 x3 : _) (hm : Sub 0x80800000000000 M) (h : Evolves M P a s) :
    Evolves M P a (State.ddrSetLine s x2 x3) := by
  unfold State.ddrSetLine
  extract_lets c upd
  refine Evolves.ite ?_ (Evolves.ite ?_ ?_)
  · exact h.withMem (hm.bit rfl)
  · exact h.withMem (hm.bit rfl)
  · exact (Evolves.dramSet (i := x2) (b := x3) (hm.bit rfl) h).withMem (hm.bit rfl)

theorem State.ddrPut_ev (x2 x3 x4 : _) (hm : Sub 0x80800000000000 M) (h : Evolves M P a s) :
    Evolves M P a (State.ddrPut s x2 x3 x4) := by
  unfold State.ddrPut
  extract_lets +onlyGivenNames y1
  extract_lets +onlyGivenNames y2
  refine State.ddrSetLine_ev _ _ (hm.of rfl) ?_
  exact h

theorem State.ddrPutBytes_ev (x2 x3 : _) (hm : Sub 0x80800000000000 M) (h : Evolves M P a s) :
    Evolves M P a (State.ddrPutBytes s x2 x3) := by
  induction x3 generalizing x2 s with
  | nil => exact h
  | cons b bs ih => exact ih _ (State.ddrPut_ev _ _ _ (hm.of rfl) h)

theorem State.ddrSetCluster_ev (x2 x3 : _) (hm : Sub 0x80800000000000 M) (h : Evolves M P a s) :
    Evolves M P a (State.ddrSetCluster s x2 x3) := by
  unfold State.ddrSetCluster
  refine Evolves.foldl _ (fun s1 x2 h3 => ?_) ?_
  · refine State.ddrSetLine_ev _ _ (hm.of rfl) ?_
    exact h3
  · exact h

end Sys2Proof.Machine
end

