-- ==== Sys2Proof/Laws/RegType.lean ====
section
/-! SUPPORT. One lemma per operation of Machine/RegType.lean: the parts of the state it can touch and what it needs of the engines (`Evolves`). -/

namespace Sys2Proof.Machine

variable {M : Nat} {P : Nat → Prop} {a s : State}

theorem State.wrTyped_ev (x2 x3 x4 : _) (hm : Sub 0x3fffffff M) (hall : ∀ n, P n) (h : Evolves M P a s) :
    Evolves M P a (State.wrTyped s x2 x3 x4) := by
  unfold State.wrTyped
  refine Evolves.wrE _ rfl (hm.grp rfl _) (hall _) ?_
  exact h

end Sys2Proof.Machine
end

