-- ==== Sys2Proof/Laws/Link.lean ====
section
/-! SUPPORT. One lemma per operation of Machine/Link.lean: the parts of the state it can touch and what it needs of the engines (`Evolves`). -/

namespace Sys2Proof.Machine

variable {M : Nat} {P : Nat → Prop} {a s : State}

theorem pushWord_ev (x1 x2 : _) (hm : Sub 0x40000000 M) (e1 : P x1.val) (h : Evolves M P a s) :
    Evolves M P a (pushWord x1 x2 s) := by
  unfold pushWord
  refine Evolves.ite ?_ ?_
  · refine Evolves.modHl (hm.bit rfl) e1 ?_
    exact h
  · exact h

theorem laserOff_ev (x1 : _) (hm : Sub 0x400000040000000 M) (e1 : P x1.val) (h : Evolves M P a s) :
    Evolves M P a (laserOff x1 s) := by
  unfold laserOff
  refine Evolves.ite ?_ ?_
  · refine Evolves.modHl (hm.bit rfl) e1 ?_
    exact h
  · refine Evolves.emit (hm.bit rfl) ?_
    exact h

theorem sendLevels_ev (x1 : _) (hm : Sub 0x40000000 M) (e1 : P x1.val) (h : Evolves M P a s) :
    Evolves M P a (sendLevels x1 s) := by
  unfold sendLevels
  refine pushWord_ev _ _ (hm.of rfl) e1 ?_
  exact h

theorem pushClk_ev (x1 x2 x3 : _) (hm : Sub 0x40000001 M) (e1 : P x1.val) (h : Evolves M P a s) :
    Evolves M P a (pushClk x1 x2 x3 s) := by
  unfold pushClk
  refine Evolves.ite ?_ ?_
  · refine Evolves.modHl (hm.bit rfl) e1 ?_
    refine pushWord_ev _ _ (hm.of rfl) e1 ?_
    refine Evolves.put .hl rfl (hm.bit rfl) e1 ?_
    exact h
  · exact h

theorem sendSr_ev (x1 x2 : _) (hm : Sub 0x40000001 M) (e1 : P x1.val) (h : Evolves M P a s) :
    Evolves M P a (sendSr x1 x2 s) := by
  unfold sendSr
  extract_lets +onlyGivenNames y1
  refine pushClk_ev _ _ _ (hm.of rfl) e1 ?_
  exact h

theorem sendFw_ev (x1 x2 x3 : _) (hm : Sub 0x400000040000001 M) (e1 : P x1.val) (h : Evolves M P a s) :
    Evolves M P a (sendFw x1 x2 x3 s) := by
  unfold sendFw
  extract_lets +onlyGivenNames y1
  extract_lets +onlyGivenNames y2
  have h3 : Evolves M P a y2 := by
    unfold y2
    refine Evolves.ite ?_ ?_
    · refine Evolves.raise .hl rfl (hm.bit rfl) e1 (hm.bit rfl) ?_
      exact h
    · exact h
  clear_value y2
  extract_lets +onlyGivenNames y4
  refine pushClk_ev _ _ _ (hm.of rfl) e1 ?_
  exact h3

theorem sendTrim_ev (x1 x2 x3 x4 : _) (hm : Sub 0x40000000 M) (e1 : P x1.val) (h : Evolves M P a s) :
    Evolves M P a (sendTrim x1 x2 x3 x4 s) := by
  unfold sendTrim
  refine Evolves.ite ?_ ?_
  · refine Evolves.modHl (hm.bit rfl) e1 ?_
    exact h
  · exact h

theorem sendSpare_ev (x1 x2 : _) (hm : Sub 0x40000000 M) (e1 : P x1.val) (h : Evolves M P a s) :
    Evolves M P a (sendSpare x1 x2 s) := by
  unfold sendSpare
  refine sendTrim_ev _ _ _ _ (hm.of rfl) e1 ?_
  exact h

theorem shadowResend_ev (x1 : _) (hm : Sub 0x40000000 M) (e1 : P x1.val) (h : Evolves M P a s) :
    Evolves M P a (shadowResend x1 s) := by
  unfold shadowResend
  refine Evolves.foldl _ (fun s1 x2 h3 => ?_) ?_
  · extract_lets +onlyGivenNames y4
    have h5 : Evolves M P a y4 := by
      unfold y4
      refine sendTrim_ev _ _ _ _ (hm.of rfl) e1 ?_
      exact h3
    clear_value y4
    refine Evolves.foldl _ (fun s6 x7 h8 => ?_) ?_
    · refine sendTrim_ev _ _ _ _ (hm.of rfl) e1 ?_
      refine sendTrim_ev _ _ _ _ (hm.of rfl) e1 ?_
      exact h8
    · exact h5
  · exact h

theorem wposStep_ev (x1 : _) (hm : Sub 0x40000004 M) (e1 : P x1.val) (h : Evolves M P a s) :
    Evolves M P a (wposStep x1 s) := by
  unfold wposStep
  extract_lets +onlyGivenNames y1
  refine Evolves.modHl (hm.bit rfl) e1 ?_
  refine Evolves.put .wr rfl (hm.bit rfl) e1 ?_
  exact h

theorem clkSteer_ev (x1 x2 : _) (hm : Sub 0x400000040000001 M) (e1 : P x1.val) (h : Evolves M P a s) :
    Evolves M P a (clkSteer x1 x2 s) := by
  unfold clkSteer
  refine Evolves.ite ?_ ?_
  · refine sendFw_ev _ _ _ (hm.of rfl) e1 ?_
    exact h
  · exact h

theorem sendFrame_ev (x1 x2 x3 x4 : _) (hm : Sub 0x400000040000000 M) (e1 : P x1.val) (h : Evolves M P a s) :
    Evolves M P a (sendFrame x1 x2 x3 x4 s) := by
  unfold sendFrame
  extract_lets +onlyGivenNames y1
  extract_lets +onlyGivenNames y2
  extract_lets +onlyGivenNames y3
  refine Evolves.modHl (hm.bit rfl) e1 ?_
  refine Evolves.emit (hm.bit rfl) ?_
  exact h

theorem sendDataFrame_ev (x1 x2 : _) (hm : Sub 0x400000040000000 M) (e1 : P x1.val) (h : Evolves M P a s) :
    Evolves M P a (sendDataFrame x1 x2 s) := by
  unfold sendDataFrame
  extract_lets +onlyGivenNames y1
  extract_lets +onlyGivenNames y2
  extract_lets +onlyGivenNames y3
  extract_lets +onlyGivenNames y4
  have h5 : Evolves M P a y4 := by
    unfold y4
    refine Evolves.modHl (hm.bit rfl) e1 ?_
    exact h
  clear_value y4
  extract_lets +onlyGivenNames y6
  extract_lets +onlyGivenNames y7
  have h8 : Evolves M P a y7 := by
    unfold y7
    refine sendFrame_ev _ _ _ _ (hm.of rfl) e1 ?_
    exact h5
  clear_value y7
  refine Evolves.foldl _ (fun s9 x10 h11 => ?_) ?_
  · refine Evolves.emit (hm.bit rfl) ?_
    exact h11
  · exact h8

theorem sendTrainFrame_ev (x1 : _) (hm : Sub 0x400000040000000 M) (e1 : P x1.val) (h : Evolves M P a s) :
    Evolves M P a (sendTrainFrame x1 s) := by
  unfold sendTrainFrame
  extract_lets +onlyGivenNames y1
  extract_lets +onlyGivenNames y2
  refine sendFrame_ev _ _ _ _ (hm.of rfl) e1 ?_
  exact h

theorem execLpwRepeat_next (x1 : _) (hm : Sub 0x40000000 M) (e1 : P x1.val) :
    ∃ t, (execLpwRepeat x1 s) = .next t ∧ Evolves M P s t := by
  refine ⟨_, rfl, ?_⟩
  have h := Evolves.refl M P s
  refine sendLevels_ev _ (hm.of rfl) e1 ?_
  exact h

end Sys2Proof.Machine
end

