-- ==== Sys2Proof/Laws/Host.lean ====
section
/-! SUPPORT. One lemma per operation of Machine/Host.lean: the parts of the state it can touch and what it needs of the engines (`Evolves`). -/

namespace Sys2Proof.Machine

variable {M : Nat} {P : Nat → Prop} {a s : State}

theorem State.modQ_ev (x2 x3 : _) (hm : Sub 0x40000000000000 M) (h : Evolves M P a s) :
    Evolves M P a (State.modQ s x2 x3) := by
  unfold State.modQ
  refine Evolves.withCqi (hm.bit rfl) ?_
  exact h

theorem qShow_ev (x1 : _) (hm : Sub 0x20000000 M) (h : Evolves M P a s) :
    Evolves M P a (qShow x1 s) := by
  unfold qShow
  extract_lets +onlyGivenNames y1
  extract_lets +onlyGivenNames y2
  have h3 : Evolves M P a y2 := by
    unfold y2
    refine Evolves.putG .queue rfl (hm.bit rfl) rfl ?_
    exact h
  clear_value y2
  refine Evolves.putBoolG .queue rfl (hm.bit rfl) rfl ?_
  exact h3

theorem cqWrite_ev (x1 x2 : _) (hm : Sub 0x440000020000000 M) (h : Evolves M P a s) :
    Evolves M P a (cqWrite x1 x2 s) := by
  unfold cqWrite
  extract_lets +onlyGivenNames y1
  extract_lets +onlyGivenNames y2
  have h3 : Evolves M P a y2 := by
    unfold y2
    refine Evolves.emit (hm.bit rfl) ?_
    exact h
  clear_value y2
  extract_lets +onlyGivenNames y4
  have h5 : Evolves M P a y4 := by
    unfold y4
    refine Evolves.ite ?_ ?_
    · refine Evolves.putG .queue rfl (hm.bit rfl) rfl ?_
      refine Evolves.putG .queue rfl (hm.bit rfl) rfl ?_
      exact h3
    · refine Evolves.putG .queue rfl (hm.bit rfl) rfl ?_
      exact h3
  clear_value y4
  extract_lets +onlyGivenNames y6
  have h7 : Evolves M P a y6 := by
    unfold y6
    refine State.modQ_ev _ _ (hm.of rfl) ?_
    exact h5
  clear_value y6
  refine State.msixReq_ev _ (hm.of rfl) ?_
  exact h7

theorem cqDrain_ev (x1 x2 : _) (hm : Sub 0x440000020000000 M) (h : Evolves M P a s) :
    Evolves M P a (cqDrain x1 x2 s) := by
  induction x2 generalizing s with
  | zero => exact qShow_ev _ (hm.of rfl) h
  | succ n ih =>
    unfold cqDrain
    extract_lets t
    have ht : Evolves M P a t := h.putBoolG .queue rfl (hm.bit rfl) rfl
    split
    · exact qShow_ev _ (hm.of rfl) ht
    · exact Evolves.ite (qShow_ev _ (hm.of rfl) ht) (ih (cqWrite_ev _ _ (hm.of rfl) ht))

theorem cqFlush_ev (x1 : _) (hm : Sub 0x440000020000000 M) (h : Evolves M P a s) :
    Evolves M P a (cqFlush x1 s) := by
  unfold cqFlush
  refine cqDrain_ev _ _ (hm.of rfl) ?_
  exact h

theorem cqPost_ev (x1 x2 : _) (hm : Sub 0x440000020000000 M) (h : Evolves M P a s) :
    Evolves M P a (cqPost x1 x2 s) := by
  unfold cqPost
  refine cqFlush_ev _ (hm.of rfl) ?_
  refine State.modQ_ev _ _ (hm.of rfl) ?_
  exact h

theorem State.modCmd_ev (x2 x3 x4 : _) (hm : Sub 0x40000000000000 M) (h : Evolves M P a s) :
    Evolves M P a (State.modCmd s x2 x3 x4) := by
  unfold State.modCmd
  refine State.modQ_ev _ _ (hm.of rfl) ?_
  exact h

theorem finishD_ev (x1 x2 x3 x4 x5 : _) (hm : Sub 0x440000020000000 M) (h : Evolves M P a s) :
    Evolves M P a (finishD x1 x2 x3 x4 x5 s) := by
  unfold finishD
  split
  · exact h
  · refine Evolves.ite ?_ ?_
    · exact h
    · refine cqPost_ev _ _ (hm.of rfl) ?_
      refine State.modCmd_ev _ _ _ (hm.of rfl) ?_
      exact h

theorem finish_ev (x1 x2 x3 x4 : _) (hm : Sub 0x440000020000000 M) (h : Evolves M P a s) :
    Evolves M P a (finish x1 x2 x3 x4 s) := by
  unfold finish
  refine finishD_ev _ _ _ _ _ (hm.of rfl) ?_
  exact h

theorem finishWith_ev (x1 x2 x3 x4 : _) (hm : Sub 0x40000000000000 M) (h : Evolves M P a s) :
    Evolves M P a (finishWith x1 x2 x3 x4 s) := by
  unfold finishWith
  refine State.modCmd_ev _ _ _ (hm.of rfl) ?_
  exact h

theorem finishCommitted_ev (x1 x2 : _) (hm : Sub 0x440000020000000 M) (h : Evolves M P a s) :
    Evolves M P a (finishCommitted x1 x2 s) := by
  unfold finishCommitted
  split
  · exact h
  · split
    · exact h
    · refine finish_ev _ _ _ _ (hm.of rfl) ?_
      exact h

end Sys2Proof.Machine
end

