-- ==== Sys2Proof/Laws/Map.lean ====
section
/-! SUPPORT. One lemma per operation of Machine/Map.lean: the parts of the state it can touch and what it needs of the engines (`Evolves`). -/

namespace Sys2Proof.Machine

variable {M : Nat} {P : Nat → Prop} {a s : State}

theorem State.modDisc_ev (x2 x3 : _) (hm : Sub 0x20000000000000 M) (h : Evolves M P a s) :
    Evolves M P a (State.modDisc s x2 x3) := by
  unfold State.modDisc
  extract_lets +onlyGivenNames y1
  refine Evolves.withArm (hm.bit rfl) rfl ?_
  exact h

end Sys2Proof.Machine
end

