-- ==== Sys2Proof/Laws/Ladder.lean ====
section
/-! SUPPORT. One lemma per operation of Machine/Ladder.lean: the parts of the state it can touch and what it needs of the engines (`Evolves`). -/

namespace Sys2Proof.Machine

variable {M : Nat} {P : Nat → Prop} {a s : State}

theorem ladderMessage_ev (x1 x2 x3 : _) (hm : Sub 0x8000000000000 M) (h : Evolves M P a s) :
    Evolves M P a (ladderMessage x1 x2 x3 s) := by
  unfold ladderMessage
  refine Evolves.withLadder (hm.bit rfl) ?_
  exact h

theorem ladderDue_ev (x1 x2 x3 : _) (hm : Sub 0x800000000 M) (e1 : P x1.val) (h : Evolves M P a s) :
    Evolves M P a (ladderDue x1 x2 x3 s) := by
  unfold ladderDue
  refine Evolves.modRty (hm.bit rfl) e1 ?_
  exact h

theorem ladderShow_ev (x1 : _) (hm : Sub 0x10 M) (e1 : P x1.val) (h : Evolves M P a s) :
    Evolves M P a (ladderShow x1 s) := by
  unfold ladderShow
  refine Evolves.put .rty rfl (hm.bit rfl) e1 ?_
  exact h

theorem ladderLeave_ev (x1 x2 x3 : _) (hm : Sub 0x4000800000010 M) (e1 : P x1.val) (h : Evolves M P a s) :
    Evolves M P a (ladderLeave x1 x2 x3 s) := by
  unfold ladderLeave
  extract_lets +onlyGivenNames y1
  have h2 : Evolves M P a y1 := by
    unfold y1
    refine Evolves.modRty (hm.bit rfl) e1 ?_
    exact h
  clear_value y1
  refine Evolves.note (hm.bit rfl) ?_
  refine ladderShow_ev _ (hm.of rfl) e1 ?_
  refine Evolves.inc .rty (Reg.group_rty rfl (by dsimp only [spareRes]; omega) (by dsimp only [spareRes]; omega)) (hm.bit rfl) e1 ?_
  exact h2

theorem ladderRung7_ev (x1 x2 : _) (hm : Sub 0x4000800000010 M) (e1 : P x1.val) (h : Evolves M P a s) :
    Evolves M P a (ladderRung7 x1 x2 s) := by
  unfold ladderRung7
  refine Evolves.note (hm.bit rfl) ?_
  refine ladderLeave_ev _ _ _ (hm.of rfl) e1 ?_
  exact h

theorem ladderEnter_ev (x1 x2 x3 : _) (hm : Sub 0xc000800000010 M) (e1 : P x1.val) (h : Evolves M P a s) :
    Evolves M P a (ladderEnter x1 x2 x3 s) := by
  unfold ladderEnter
  refine Evolves.ite ?_ ?_
  · exact h
  · extract_lets +onlyGivenNames y1
    extract_lets +onlyGivenNames y2
    have h3 : Evolves M P a y2 := by
      unfold y2
      refine Evolves.modRty (hm.bit rfl) e1 ?_
      exact h
    clear_value y2
    extract_lets +onlyGivenNames y4
    have h5 : Evolves M P a y4 := by
      unfold y4
      refine ladderMessage_ev _ _ _ (hm.of rfl) ?_
      refine ladderShow_ev _ (hm.of rfl) e1 ?_
      exact h3
    clear_value y4
    refine Evolves.ite ?_ ?_
    · refine ladderRung7_ev _ _ (hm.of rfl) e1 ?_
      exact h5
    · exact h5

theorem ladderFail_ev (x1 x2 : _) (hm : Sub 0xc000800000010 M) (e1 : P x1.val) (h : Evolves M P a s) :
    Evolves M P a (ladderFail x1 x2 s) := by
  unfold ladderFail
  refine Evolves.ite ?_ ?_
  · refine Evolves.modRty (hm.bit rfl) e1 ?_
    exact h
  · extract_lets +onlyGivenNames y1
    extract_lets +onlyGivenNames y2
    have h3 : Evolves M P a y2 := by
      unfold y2
      refine Evolves.modRty (hm.bit rfl) e1 ?_
      exact h
    clear_value y2
    extract_lets +onlyGivenNames y4
    have h5 : Evolves M P a y4 := by
      unfold y4
      refine ladderMessage_ev _ _ _ (hm.of rfl) ?_
      exact h3
    clear_value y4
    refine Evolves.ite ?_ ?_
    · refine ladderRung7_ev _ _ (hm.of rfl) e1 ?_
      exact h5
    · exact h5

theorem ladderDrop_ev (x1 : _) (hm : Sub 0x800000010 M) (e1 : P x1.val) (h : Evolves M P a s) :
    Evolves M P a (ladderDrop x1 s) := by
  unfold ladderDrop
  refine ladderShow_ev _ (hm.of rfl) e1 ?_
  refine Evolves.modRty (hm.bit rfl) e1 ?_
  exact h

end Sys2Proof.Machine
end

