-- ==== Sys2Proof/Laws/Spindle.lean ====
section
/-! SUPPORT. One lemma per operation of Machine/Spindle.lean: the parts of the state it can touch and what it needs of the engines (`Evolves`). -/

namespace Sys2Proof.Machine

variable {M : Nat} {P : Nat → Prop} {a s : State}

theorem spnGateOff_ev (x1 : _) (hm : Sub 0x10000000020 M) (e1 : P x1.val) (h : Evolves M P a s) :
    Evolves M P a (spnGateOff x1 s) := by
  unfold spnGateOff
  extract_lets +onlyGivenNames y1
  have h2 : Evolves M P a y1 := by
    unfold y1
    refine Evolves.put .spn rfl (hm.bit rfl) e1 ?_
    refine Evolves.put .spn rfl (hm.bit rfl) e1 ?_
    refine Evolves.put .spn rfl (hm.bit rfl) e1 ?_
    exact h
  clear_value y1
  refine Evolves.modSpn (hm.bit rfl) e1 ?_
  exact h2

theorem spnFault_ev (x1 x2 : _) (hm : Sub 0x400010000000020 M) (e1 : P x1.val) (h : Evolves M P a s) :
    Evolves M P a (spnFault x1 x2 s) := by
  unfold spnFault
  extract_lets +onlyGivenNames y1
  have h2 : Evolves M P a y1 := by
    unfold y1
    refine spnGateOff_ev _ (hm.of rfl) e1 ?_
    exact h
  clear_value y1
  extract_lets +onlyGivenNames y3
  have h4 : Evolves M P a y3 := by
    unfold y3
    refine Evolves.put .spn rfl (hm.bit rfl) e1 ?_
    refine Evolves.put .spn rfl (hm.bit rfl) e1 ?_
    exact h2
  clear_value y3
  refine Evolves.modSpn (hm.bit rfl) e1 ?_
  refine Evolves.report (hm.bit rfl) ?_
  refine Evolves.raise .spn rfl (hm.bit rfl) e1 (hm.bit rfl) ?_
  exact h4

theorem spnOrigin_ev (x1 : _) (hm : Sub 0x10000000020 M) (e1 : P x1.val) (h : Evolves M P a s) :
    Evolves M P a (spnOrigin x1 s) := by
  unfold spnOrigin
  refine Evolves.modSpn (hm.bit rfl) e1 ?_
  refine Evolves.put .spn rfl (hm.bit rfl) e1 ?_
  refine Evolves.incWrap .spn rfl (hm.bit rfl) e1 ?_
  exact h

theorem spnEnterCatch_ev (x1 : _) (hm : Sub 0x10000000020 M) (e1 : P x1.val) (h : Evolves M P a s) :
    Evolves M P a (spnEnterCatch x1 s) := by
  unfold spnEnterCatch
  refine Evolves.put .spn rfl (hm.bit rfl) e1 ?_
  refine spnGateOff_ev _ (hm.of rfl) e1 ?_
  exact h

theorem spnFrom_ev (x1 : _) (hm : Sub 0x10000000000 M) (e1 : P x1.val) (h : Evolves M P a s) :
    Evolves M P a (spnFrom x1 s) := by
  unfold spnFrom
  refine Evolves.modSpn (hm.bit rfl) e1 ?_
  exact h

theorem spnStartOp_ev (x1 : _) (hm : Sub 0x10000000020 M) (e1 : P x1.val) (h : Evolves M P a s) :
    Evolves M P a (spnStartOp x1 s) := by
  unfold spnStartOp
  extract_lets +onlyGivenNames y1
  have h2 : Evolves M P a y1 := by
    unfold y1
    refine Evolves.put .spn rfl (hm.bit rfl) e1 ?_
    exact h
  clear_value y1
  refine Evolves.ite ?_ ?_
  · refine spnFrom_ev _ (hm.of rfl) e1 ?_
    refine spnEnterCatch_ev _ (hm.of rfl) e1 ?_
    exact h2
  · exact h2

theorem spnCoastOp_ev (x1 : _) (hm : Sub 0x10000000020 M) (e1 : P x1.val) (h : Evolves M P a s) :
    Evolves M P a (spnCoastOp x1 s) := by
  unfold spnCoastOp
  extract_lets +onlyGivenNames y1
  extract_lets +onlyGivenNames y2
  have h3 : Evolves M P a y2 := by
    unfold y2
    refine Evolves.put .spn rfl (hm.bit rfl) e1 ?_
    refine spnGateOff_ev _ (hm.of rfl) e1 ?_
    exact h
  clear_value y2
  refine Evolves.modSpn (hm.bit rfl) e1 ?_
  refine Evolves.put .spn rfl (hm.bit rfl) e1 ?_
  exact h3

theorem spnMirror_ev (x1 : _) (hm : Sub 0x10000000020 M) (e1 : P x1.val) (h : Evolves M P a s) :
    Evolves M P a (spnMirror x1 s) := by
  unfold spnMirror
  extract_lets +onlyGivenNames y1
  have h2 : Evolves M P a y1 := by
    unfold y1
    refine Evolves.putInt .spn rfl (hm.bit rfl) e1 ?_
    refine Evolves.putInt .spn rfl (hm.bit rfl) e1 ?_
    exact h
  clear_value y1
  refine Evolves.modSpn (hm.bit rfl) e1 ?_
  exact h2

theorem spnDir_ev (x1 x2 : _) (hm : Sub 0x10000000020 M) (e1 : P x1.val) (h : Evolves M P a s) :
    Evolves M P a (spnDir x1 x2 s) := by
  unfold spnDir
  extract_lets +onlyGivenNames y1
  extract_lets +onlyGivenNames y2
  have h3 : Evolves M P a y2 := by
    unfold y2
    refine Evolves.putBool .spn rfl (hm.bit rfl) e1 ?_
    exact h
  clear_value y2
  extract_lets +onlyGivenNames y4
  refine Evolves.ite ?_ ?_
  · refine Evolves.modSpn (hm.bit rfl) e1 ?_
    refine spnMirror_ev _ (hm.of rfl) e1 ?_
    refine Evolves.put .spn rfl (hm.bit rfl) e1 ?_
    exact h3
  · exact h3

theorem spnTarget_ev (x1 x2 : _) (hm : Sub 0x10000000020 M) (e1 : P x1.val) (h : Evolves M P a s) :
    Evolves M P a (spnTarget x1 x2 s) := by
  unfold spnTarget
  extract_lets +onlyGivenNames y1
  have h2 : Evolves M P a y1 := by
    unfold y1
    refine Evolves.put .spn rfl (hm.bit rfl) e1 ?_
    refine Evolves.put .spn rfl (hm.bit rfl) e1 ?_
    exact h
  clear_value y1
  refine Evolves.ite ?_ ?_
  · refine spnFrom_ev _ (hm.of rfl) e1 ?_
    refine spnEnterCatch_ev _ (hm.of rfl) e1 ?_
    exact h2
  · exact h2

theorem takeSpeed_ev (x1 x2 : _) (hm : Sub 0x10000000020 M) (e1 : P x1.val) (h : Evolves M P a s) :
    Evolves M P a (takeSpeed x1 x2 s) := by
  unfold takeSpeed
  refine Evolves.ite ?_ ?_
  · exact h
  · refine spnTarget_ev _ _ (hm.of rfl) e1 ?_
    exact h

theorem spnEngage_ev (x1 x2 : _) (hm : Sub 0x10000000020 M) (e1 : P x1.val) (h : Evolves M P a s) :
    Evolves M P a (spnEngage x1 x2 s) := by
  unfold spnEngage
  extract_lets +onlyGivenNames y1
  have h2 : Evolves M P a y1 := by
    unfold y1
    refine spnOrigin_ev _ (hm.of rfl) e1 ?_
    refine Evolves.putInt .spn rfl (hm.bit rfl) e1 ?_
    exact h
  clear_value y1
  refine Evolves.modSpn (hm.bit rfl) e1 ?_
  exact h2

theorem spnSync_ev (x1 x2 x3 : _) (hm : Sub 0x10000000020 M) (e1 : P x1.val) (h : Evolves M P a s) :
    Evolves M P a (spnSync x1 x2 x3 s) := by
  unfold spnSync
  extract_lets +onlyGivenNames y1
  refine spnEngage_ev _ _ (hm.of rfl) e1 ?_
  refine Evolves.modSpn (hm.bit rfl) e1 ?_
  exact h

theorem spnAlignStart_ev (x1 : _) (hm : Sub 0x10000000020 M) (e1 : P x1.val) (h : Evolves M P a s) :
    Evolves M P a (spnAlignStart x1 s) := by
  unfold spnAlignStart
  refine Evolves.modSpn (hm.bit rfl) e1 ?_
  refine Evolves.put .spn rfl (hm.bit rfl) e1 ?_
  exact h

theorem spnOpenFrom_ev (x1 x2 x3 : _) (hm : Sub 0x10000000020 M) (e1 : P x1.val) (h : Evolves M P a s) :
    Evolves M P a (spnOpenFrom x1 x2 x3 s) := by
  unfold spnOpenFrom
  refine Evolves.modSpn (hm.bit rfl) e1 ?_
  refine Evolves.put .spn rfl (hm.bit rfl) e1 ?_
  exact h

theorem spnCatchOp_ev (x1 x2 x3 x4 x5 : _) (hm : Sub 0x400010000000020 M) (e1 : P x1.val) (h : Evolves M P a s) :
    Evolves M P a (spnCatchOp x1 x2 x3 x4 x5 s) := by
  unfold spnCatchOp
  refine Evolves.ite ?_ ?_
  · extract_lets +onlyGivenNames y1
    extract_lets +onlyGivenNames y2
    have h3 : Evolves M P a y2 := by
      unfold y2
      refine Evolves.raise .spn rfl (hm.bit rfl) e1 (hm.bit rfl) ?_
      exact h
    clear_value y2
    refine Evolves.ite ?_ ?_
    · refine spnAlignStart_ev _ (hm.of rfl) e1 ?_
      refine Evolves.putInt .spn rfl (hm.bit rfl) e1 ?_
      refine Evolves.put .spn rfl (hm.bit rfl) e1 ?_
      exact h3
    · refine Evolves.ite ?_ ?_
      · extract_lets +onlyGivenNames y4
        have h5 : Evolves M P a y4 := by
          unfold y4
          refine Evolves.putInt .spn rfl (hm.bit rfl) e1 ?_
          exact h3
        clear_value y4
        refine Evolves.ite ?_ ?_
        · extract_lets +onlyGivenNames y6
          have h7 : Evolves M P a y6 := by
            unfold y6
            refine Evolves.put .spn rfl (hm.bit rfl) e1 ?_
            exact h5
          clear_value y6
          refine Evolves.ite ?_ ?_
          · refine spnOpenFrom_ev _ _ _ (hm.of rfl) e1 ?_
            exact h7
          · refine spnSync_ev _ _ _ (hm.of rfl) e1 ?_
            refine Evolves.put .spn rfl (hm.bit rfl) e1 ?_
            exact h7
        · refine spnSync_ev _ _ _ (hm.of rfl) e1 ?_
          refine Evolves.put .spn rfl (hm.bit rfl) e1 ?_
          refine Evolves.put .spn rfl (hm.bit rfl) e1 ?_
          exact h5
      · extract_lets +onlyGivenNames y8
        have h9 : Evolves M P a y8 := by
          unfold y8
          refine Evolves.put .spn rfl (hm.bit rfl) e1 ?_
          refine Evolves.putInt .spn rfl (hm.bit rfl) e1 ?_
          exact h3
        clear_value y8
        refine Evolves.modSpn (hm.bit rfl) e1 ?_
        refine spnSync_ev _ _ _ (hm.of rfl) e1 ?_
        refine Evolves.put .spn rfl (hm.bit rfl) e1 ?_
        exact h9
  · exact h

theorem spnHandover_ev (x1 : _) (hm : Sub 0x400010000000020 M) (e1 : P x1.val) (h : Evolves M P a s) :
    Evolves M P a (spnHandover x1 s) := by
  unfold spnHandover
  extract_lets +onlyGivenNames y1
  refine Evolves.ite ?_ ?_
  · refine Evolves.ite ?_ ?_
    · refine spnEngage_ev _ _ (hm.of rfl) e1 ?_
      refine Evolves.put .spn rfl (hm.bit rfl) e1 ?_
      exact h
    · refine Evolves.ite ?_ ?_
      · refine spnFault_ev _ _ (hm.of rfl) e1 ?_
        exact h
      · exact h
  · exact h

theorem spnHalt_ev (x1 : _) (hm : Sub 0x400010000000020 M) (e1 : P x1.val) (h : Evolves M P a s) :
    Evolves M P a (spnHalt x1 s) := by
  unfold spnHalt
  refine Evolves.raise .spn rfl (hm.bit rfl) e1 (hm.bit rfl) ?_
  refine Evolves.put .spn rfl (hm.bit rfl) e1 ?_
  refine spnGateOff_ev _ (hm.of rfl) e1 ?_
  exact h

theorem spnBrakeOp_ev (x1 : _) (hm : Sub 0x400010000000020 M) (e1 : P x1.val) (h : Evolves M P a s) :
    Evolves M P a (spnBrakeOp x1 s) := by
  unfold spnBrakeOp
  refine Evolves.ite ?_ ?_
  · refine Evolves.ite ?_ ?_
    · refine spnAlignStart_ev _ (hm.of rfl) e1 ?_
      refine Evolves.modSpn (hm.bit rfl) e1 ?_
      refine spnGateOff_ev _ (hm.of rfl) e1 ?_
      exact h
    · refine spnHalt_ev _ (hm.of rfl) e1 ?_
      exact h
  · exact h

theorem spnAtSpeedOp_ev (x1 : _) (hm : Sub 0x400010000000020 M) (e1 : P x1.val) (h : Evolves M P a s) :
    Evolves M P a (spnAtSpeedOp x1 s) := by
  unfold spnAtSpeedOp
  refine Evolves.ite ?_ ?_
  · extract_lets +onlyGivenNames y1
    have h2 : Evolves M P a y1 := by
      unfold y1
      refine Evolves.modSpn (hm.bit rfl) e1 ?_
      exact h
    clear_value y1
    refine Evolves.raise .spn rfl (hm.bit rfl) e1 (hm.bit rfl) ?_
    refine Evolves.put .spn rfl (hm.bit rfl) e1 ?_
    exact h2
  · exact h

theorem spnLos_ev (x1 : _) (hm : Sub 0x400010000000020 M) (e1 : P x1.val) (h : Evolves M P a s) :
    Evolves M P a (spnLos x1 s) := by
  unfold spnLos
  extract_lets +onlyGivenNames y1
  refine Evolves.ite ?_ ?_
  · extract_lets +onlyGivenNames y2
    have h3 : Evolves M P a y2 := by
      unfold y2
      refine Evolves.report (hm.bit rfl) ?_
      refine Evolves.raise .spn rfl (hm.bit rfl) e1 (hm.bit rfl) ?_
      refine spnGateOff_ev _ (hm.of rfl) e1 ?_
      exact h
    clear_value y2
    extract_lets +onlyGivenNames y4
    extract_lets +onlyGivenNames y5
    have h6 : Evolves M P a y5 := by
      unfold y5
      refine Evolves.modSpn (hm.bit rfl) e1 ?_
      exact h3
    clear_value y5
    refine Evolves.ite ?_ ?_
    · refine Evolves.put .spn rfl (hm.bit rfl) e1 ?_
      exact h6
    · refine spnFault_ev _ _ (hm.of rfl) e1 ?_
      exact h6
  · exact h

theorem spnIqRaw_ev (x1 x2 : _) (hm : Sub 0x10000000000 M) (e1 : P x1.val) (h : Evolves M P a s) :
    Evolves M P a (spnIqRaw x1 x2 s).2 := by
  unfold spnIqRaw
  extract_lets +onlyGivenNames y1
  extract_lets +onlyGivenNames y2
  refine Evolves.snd_ite ?_ ?_
  · dsimp only
    refine Evolves.modSpn (hm.bit rfl) e1 ?_
    exact h
  · extract_lets +onlyGivenNames y3
    extract_lets +onlyGivenNames y4
    extract_lets +onlyGivenNames y5
    extract_lets +onlyGivenNames y6
    dsimp only
    refine Evolves.modSpn (hm.bit rfl) e1 ?_
    exact h

theorem spnLimit_ev (x1 x2 x3 : _) (hm : Sub 0x400000000000020 M) (e1 : P x1.val) (h : Evolves M P a s) :
    Evolves M P a (spnLimit x1 x2 x3 s).2 := by
  unfold spnLimit
  extract_lets +onlyGivenNames y1
  extract_lets +onlyGivenNames y2
  extract_lets +onlyGivenNames y3
  extract_lets +onlyGivenNames y4
  extract_lets +onlyGivenNames y5
  extract_lets +onlyGivenNames y6
  extract_lets +onlyGivenNames y7
  extract_lets +onlyGivenNames y8
  have h9 : Evolves M P a y8 := by
    unfold y8
    refine Evolves.putBool .spn rfl (hm.bit rfl) e1 ?_
    exact h
  clear_value y8
  extract_lets +onlyGivenNames y10
  have h11 : Evolves M P a y10 := by
    unfold y10
    refine Evolves.ite ?_ ?_
    · refine Evolves.raise .spn rfl (hm.bit rfl) e1 (hm.bit rfl) ?_
      exact h9
    · exact h9
  clear_value y10
  dsimp only
  refine Evolves.putBool .spn rfl (hm.bit rfl) e1 ?_
  exact h11

theorem spnRamp_ev (x1 x2 : _) (hm : Sub 0x10000000020 M) (e1 : P x1.val) (h : Evolves M P a s) :
    Evolves M P a (spnRamp x1 x2 s) := by
  unfold spnRamp
  refine Evolves.ite ?_ ?_
  · refine Evolves.modSpn (hm.bit rfl) e1 ?_
    refine Evolves.putInt .spn rfl (hm.bit rfl) e1 ?_
    exact h
  · extract_lets +onlyGivenNames y1
    extract_lets +onlyGivenNames y2
    extract_lets +onlyGivenNames y3
    extract_lets +onlyGivenNames y4
    extract_lets +onlyGivenNames y5
    refine Evolves.modSpn (hm.bit rfl) e1 ?_
    refine Evolves.putInt .spn rfl (hm.bit rfl) e1 ?_
    exact h

theorem spnApply_ev (x1 x2 x3 : _) (hm : Sub 0x10000000000 M) (e1 : P x1.val) (h : Evolves M P a s) :
    Evolves M P a (spnApply x1 x2 x3 s) := by
  unfold spnApply
  extract_lets +onlyGivenNames y1
  extract_lets +onlyGivenNames y2
  extract_lets +onlyGivenNames y3
  extract_lets +onlyGivenNames y4
  refine Evolves.modSpn (hm.bit rfl) e1 ?_
  exact h

theorem spnLoops_ev (x1 x2 x3 x4 x5 x6 : _) (hm : Sub 0x400010000000020 M) (e1 : P x1.val) (h : Evolves M P a s) :
    Evolves M P a (spnLoops x1 x2 x3 x4 x5 x6 s) := by
  unfold spnLoops
  extract_lets +onlyGivenNames y1
  extract_lets +onlyGivenNames y2
  extract_lets +onlyGivenNames y3
  extract_lets +onlyGivenNames y4
  extract_lets +onlyGivenNames y5
  extract_lets +onlyGivenNames y6
  extract_lets +onlyGivenNames y7
  extract_lets +onlyGivenNames y8
  extract_lets +onlyGivenNames y9
  extract_lets +onlyGivenNames y10
  extract_lets +onlyGivenNames y11
  extract_lets +onlyGivenNames y12
  extract_lets +onlyGivenNames y13
  extract_lets +onlyGivenNames y14
  extract_lets +onlyGivenNames y15
  extract_lets +onlyGivenNames y16
  have h17 : Evolves M P a y16 := by
    unfold y16
    refine Evolves.modSpn (hm.bit rfl) e1 ?_
    exact h
  clear_value y16
  extract_lets +onlyGivenNames y18
  have h19 : Evolves M P a y18 := by
    unfold y18
    refine spnApply_ev _ _ _ (hm.of rfl) e1 ?_
    exact h17
  clear_value y18
  extract_lets +onlyGivenNames y20
  have h21 : Evolves M P a y20 := by
    unfold y20
    refine Evolves.ite ?_ ?_
    · refine Evolves.raise .spn rfl (hm.bit rfl) e1 (hm.bit rfl) ?_
      refine Evolves.put .spn rfl (hm.bit rfl) e1 ?_
      exact h19
    · exact h19
  clear_value y20
  refine Evolves.ite ?_ ?_
  · refine Evolves.put .spn rfl (hm.bit rfl) e1 ?_
    exact h21
  · exact h21

theorem observeStep_ev (x1 x2 x3 x4 : _) (hm : Sub 0x10000000000 M) (e1 : P x1.val) (h : Evolves M P a s) :
    Evolves M P a (observeStep x1 x2 x3 x4 s) := by
  unfold observeStep
  extract_lets +onlyGivenNames y1
  refine Evolves.modSpn (hm.bit rfl) e1 ?_
  exact h

theorem spnAngle_ev (x1 x2 : _) (hm : Sub 0x10000000022 M) (e1 : P x1.val) (h : Evolves M P a s) :
    Evolves M P a (spnAngle x1 x2 s) := by
  unfold spnAngle
  extract_lets +onlyGivenNames y1
  extract_lets +onlyGivenNames y2
  extract_lets +onlyGivenNames y3
  have h4 : Evolves M P a y3 := by
    unfold y3
    refine Evolves.modSpn (hm.bit rfl) e1 ?_
    exact h
  clear_value y3
  refine Evolves.ite ?_ ?_
  · extract_lets +onlyGivenNames y5
    extract_lets +onlyGivenNames y6
    refine Evolves.put .seam rfl (hm.bit rfl) e1 ?_
    refine Evolves.put .spn rfl (hm.bit rfl) e1 ?_
    exact h4
  · exact h4

theorem spnAlignStep_ev (x1 x2 : _) (hm : Sub 0x400010000000020 M) (e1 : P x1.val) (h : Evolves M P a s) :
    Evolves M P a (spnAlignStep x1 x2 s) := by
  unfold spnAlignStep
  extract_lets +onlyGivenNames y1
  extract_lets +onlyGivenNames y2
  refine spnLoops_ev _ _ _ _ _ _ (hm.of rfl) e1 ?_
  refine Evolves.modSpn (hm.bit rfl) e1 ?_
  exact h

theorem spnOpenStep_ev (x1 x2 : _) (hm : Sub 0x400010000000020 M) (e1 : P x1.val) (h : Evolves M P a s) :
    Evolves M P a (spnOpenStep x1 x2 s) := by
  unfold spnOpenStep
  extract_lets +onlyGivenNames y1
  extract_lets +onlyGivenNames y2
  extract_lets +onlyGivenNames y3
  extract_lets +onlyGivenNames y4
  extract_lets +onlyGivenNames y5
  extract_lets +onlyGivenNames y6
  have h7 : Evolves M P a y6 := by
    unfold y6
    refine observeStep_ev _ _ _ _ (hm.of rfl) e1 ?_
    exact h
  clear_value y6
  extract_lets +onlyGivenNames y8
  extract_lets +onlyGivenNames y9
  have h10 : Evolves M P a y9 := by
    unfold y9
    refine Evolves.modSpn (hm.bit rfl) e1 ?_
    exact h7
  clear_value y9
  refine spnLoops_ev _ _ _ _ _ _ (hm.of rfl) e1 ?_
  exact h10

theorem spnZero_ev (x1 : _) (hm : Sub 0x10000000000 M) (e1 : P x1.val) (h : Evolves M P a s) :
    Evolves M P a (spnZero x1 s) := by
  unfold spnZero
  refine Evolves.modSpn (hm.bit rfl) e1 ?_
  exact h

theorem spnRunStep_ev (x1 x2 : _) (hm : Sub 0x400010000000022 M) (e1 : P x1.val) (h : Evolves M P a s) :
    Evolves M P a (spnRunStep x1 x2 s) := by
  unfold spnRunStep
  extract_lets +onlyGivenNames y1
  extract_lets +onlyGivenNames y2
  extract_lets +onlyGivenNames y3
  have h4 : Evolves M P a y3 := by
    unfold y3
    refine observeStep_ev _ _ _ _ (hm.of rfl) e1 ?_
    exact h
  clear_value y3
  extract_lets +onlyGivenNames y5
  have h6 : Evolves M P a y5 := by
    unfold y5
    refine spnAngle_ev _ _ (hm.of rfl) e1 ?_
    refine Evolves.putInt .spn rfl (hm.bit rfl) e1 ?_
    exact h4
  clear_value y5
  extract_lets +onlyGivenNames y7
  have h8 : Evolves M P a y7 := by
    unfold y7
    refine Evolves.ite ?_ ?_
    · refine Evolves.put .spn rfl (hm.bit rfl) e1 ?_
      exact h6
    · exact h6
  clear_value y7
  extract_lets +onlyGivenNames y9
  refine Evolves.ite ?_ ?_
  · refine spnZero_ev _ (hm.of rfl) e1 ?_
    refine Evolves.put .spn rfl (hm.bit rfl) e1 ?_
    exact h8
  · refine Evolves.ite ?_ ?_
    · refine spnRamp_ev _ _ (hm.of rfl) e1 ?_
      refine spnZero_ev _ (hm.of rfl) e1 ?_
      exact h8
    · extract_lets +onlyGivenNames y10
      extract_lets +onlyGivenNames y11
      refine spnRamp_ev _ _ (hm.of rfl) e1 ?_
      refine spnLoops_ev _ _ _ _ _ _ (hm.of rfl) e1 ?_
      unfold y11
      refine spnLimit_ev _ _ _ (hm.of rfl) e1 ?_
      unfold y10
      refine spnIqRaw_ev _ _ (hm.of rfl) e1 ?_
      exact h8

theorem spnPwm_ev (x1 x2 : _) (hm : Sub 0x400010000000022 M) (e1 : P x1.val) (h : Evolves M P a s) :
    Evolves M P a (spnPwm x1 x2 s) := by
  unfold spnPwm
  extract_lets +onlyGivenNames y1
  extract_lets +onlyGivenNames y2
  extract_lets +onlyGivenNames y3
  refine Evolves.ite ?_ ?_
  · refine spnFault_ev _ _ (hm.of rfl) e1 ?_
    exact h
  · extract_lets +onlyGivenNames y4
    have h5 : Evolves M P a y4 := by
      unfold y4
      refine Evolves.modSpn (hm.bit rfl) e1 ?_
      exact h
    clear_value y4
    extract_lets +onlyGivenNames y6
    refine Evolves.ite ?_ ?_
    · refine spnZero_ev _ (hm.of rfl) e1 ?_
      exact h5
    · refine Evolves.ite ?_ ?_
      · refine spnAlignStep_ev _ _ (hm.of rfl) e1 ?_
        exact h5
      · refine Evolves.ite ?_ ?_
        · refine spnOpenStep_ev _ _ (hm.of rfl) e1 ?_
          exact h5
        · refine Evolves.ite ?_ ?_
          · refine spnRunStep_ev _ _ (hm.of rfl) e1 ?_
            exact h5
          · exact h5

theorem execSpnPwmPeriod_next (x1 x2 : _) (hm : Sub 0x400010000000022 M) (e1 : P x1.val) :
    ∃ t, (execSpnPwmPeriod x1 x2 s) = .next t ∧ Evolves M P s t := by
  refine ⟨_, rfl, ?_⟩
  have h := Evolves.refl M P s
  refine spnPwm_ev _ _ (hm.of rfl) e1 ?_
  exact h

theorem execSpnStart_next (x1 : _) (hm : Sub 0x10000000020 M) (e1 : P x1.val) :
    ∃ t, (execSpnStart x1 s) = .next t ∧ Evolves M P s t := by
  refine ⟨_, rfl, ?_⟩
  have h := Evolves.refl M P s
  refine spnStartOp_ev _ (hm.of rfl) e1 ?_
  exact h

theorem execSpnCoast_next (x1 : _) (hm : Sub 0x10000000020 M) (e1 : P x1.val) :
    ∃ t, (execSpnCoast x1 s) = .next t ∧ Evolves M P s t := by
  refine ⟨_, rfl, ?_⟩
  have h := Evolves.refl M P s
  refine spnCoastOp_ev _ (hm.of rfl) e1 ?_
  exact h

theorem execSpnDirWrite_next (x1 x2 : _) (hm : Sub 0x10000000020 M) (e1 : P x1.val) :
    ∃ t, (execSpnDirWrite x1 x2 s) = .next t ∧ Evolves M P s t := by
  refine ⟨_, rfl, ?_⟩
  have h := Evolves.refl M P s
  refine spnDir_ev _ _ (hm.of rfl) e1 ?_
  exact h

theorem execSpnTargetWrite_next (x1 x2 : _) (hm : Sub 0x10000000020 M) (e1 : P x1.val) :
    ∃ t, (execSpnTargetWrite x1 x2 s) = .next t ∧ Evolves M P s t := by
  refine ⟨_, rfl, ?_⟩
  have h := Evolves.refl M P s
  refine spnTarget_ev _ _ (hm.of rfl) e1 ?_
  exact h

theorem execSpnAlignDone_next (x1 : _) (hm : Sub 0x10000000020 M) (e1 : P x1.val) :
    ∃ t, (execSpnAlignDone x1 s) = .next t ∧ Evolves M P s t := by
  refine ⟨_, rfl, ?_⟩
  have h := Evolves.refl M P s
  refine Evolves.ite ?_ ?_
  · refine spnOpenFrom_ev _ _ _ (hm.of rfl) e1 ?_
    exact h
  · exact h

theorem execSpnBrakeDone_next (x1 : _) (hm : Sub 0x400010000000020 M) (e1 : P x1.val) :
    ∃ t, (execSpnBrakeDone x1 s) = .next t ∧ Evolves M P s t := by
  refine ⟨_, rfl, ?_⟩
  have h := Evolves.refl M P s
  refine spnBrakeOp_ev _ (hm.of rfl) e1 ?_
  exact h

theorem execSpnAtSpeed_next (x1 : _) (hm : Sub 0x400010000000020 M) (e1 : P x1.val) :
    ∃ t, (execSpnAtSpeed x1 s) = .next t ∧ Evolves M P s t := by
  refine ⟨_, rfl, ?_⟩
  have h := Evolves.refl M P s
  refine spnAtSpeedOp_ev _ (hm.of rfl) e1 ?_
  exact h

theorem execSpnLossOfSync_next (x1 : _) (hm : Sub 0x400010000000020 M) (e1 : P x1.val) :
    ∃ t, (execSpnLossOfSync x1 s) = .next t ∧ Evolves M P s t := by
  refine ⟨_, rfl, ?_⟩
  have h := Evolves.refl M P s
  refine spnLos_ev _ (hm.of rfl) e1 ?_
  exact h

theorem execSpnDriverFault_next (x1 : _) (hm : Sub 0x400010000000020 M) (e1 : P x1.val) :
    ∃ t, (execSpnDriverFault x1 s) = .next t ∧ Evolves M P s t := by
  refine ⟨_, rfl, ?_⟩
  have h := Evolves.refl M P s
  refine spnFault_ev _ _ (hm.of rfl) e1 ?_
  exact h

end Sys2Proof.Machine
end

