-- ==== Sys2Proof/Laws/Brake.lean ====
section
/-! SUPPORT. One lemma per operation of Machine/Brake.lean: the parts of the state it can touch and what it needs of the engines (`Evolves`). -/

namespace Sys2Proof.Machine

variable {M : Nat} {P : Nat → Prop} {a s : State}

theorem motBrk_ev (x1 x2 : _) (hm : Sub 0x400000008000000 M) (h : Evolves M P a s) :
    Evolves M P a (motBrk x1 x2 s) := by
  unfold motBrk
  extract_lets +onlyGivenNames y1
  have h2 : Evolves M P a y1 := by
    unfold y1
    refine Evolves.raiseG .mot rfl (hm.bit rfl) rfl (hm.bit rfl) ?_
    exact h
  clear_value y1
  refine Evolves.ite ?_ ?_
  · refine Evolves.report (hm.bit rfl) ?_
    exact h2
  · exact h2

theorem motAx_ev (x1 x2 : _) (hm : Sub 0x400000008000000 M) (h : Evolves M P a s) :
    Evolves M P a (motAx x1 x2 s) := by
  unfold motAx
  refine Evolves.raiseG .mot rfl (hm.bit rfl) rfl (hm.bit rfl) ?_
  exact h

theorem brkPut_ev (x1 x2 x3 : _) (hm : Sub 0x4000000 M) (h : Evolves M P a s) :
    Evolves M P a (brkPut x1 x2 x3 s) := by
  unfold brkPut
  split
  · refine Evolves.wrG .bus rfl (hm.bit rfl) rfl ?_
    exact h
  · refine Evolves.wrG .bus rfl (hm.bit rfl) rfl ?_
    exact h
  · refine Evolves.wrG .bus rfl (hm.bit rfl) rfl ?_
    exact h

theorem brkThreshold_ev (x1 x2 x3 : _) (hm : Sub 0x40000000c000000 M) (h : Evolves M P a s) :
    Evolves M P a (brkThreshold x1 x2 x3 s) := by
  unfold brkThreshold
  extract_lets +onlyGivenNames y1
  have h2 : Evolves M P a y1 := by
    unfold y1
    refine brkPut_ev _ _ _ (hm.of rfl) ?_
    exact h
  clear_value y1
  refine Evolves.ite ?_ ?_
  · exact h2
  · refine motBrk_ev _ _ (hm.of rfl) ?_
    exact h

theorem busZero_ev (x1 : _) (hm : Sub 0x400010000000020 M) (hall : ∀ n, P n) (h : Evolves M P a s) :
    Evolves M P a (busZero x1 s) := by
  unfold busZero
  refine Evolves.foldl _ (fun s1 x2 h3 => ?_) ?_
  · refine Evolves.ite ?_ ?_
    · exact h3
    · extract_lets +onlyGivenNames y4
      have h5 : Evolves M P a y4 := by
        unfold y4
        refine Evolves.ite ?_ ?_
        · exact h3
        · refine Evolves.raise .spn rfl (hm.bit rfl) (hall _) (hm.bit rfl) ?_
          exact h3
      clear_value y4
      refine Evolves.modSpn (hm.bit rfl) (hall _) ?_
      refine Evolves.put .spn rfl (hm.bit rfl) (hall _) ?_
      exact h5
  · exact h

theorem busFault_ev (x1 : _) (hm : Sub 0x400010000000020 M) (hall : ∀ n, P n) (h : Evolves M P a s) :
    Evolves M P a (busFault x1 s) := by
  unfold busFault
  refine Evolves.foldl _ (fun s1 x2 h3 => ?_) ?_
  · refine spnFault_ev _ _ (hm.of rfl) (hall _) ?_
    exact h3
  · exact h

theorem chopTest_ev (x1 x2 x3 : _) (hm : Sub 0x200000000000 M) (h : Evolves M P a s) :
    Evolves M P a (chopTest x1 x2 x3 s) := by
  unfold chopTest
  extract_lets +onlyGivenNames y1
  extract_lets +onlyGivenNames y2
  refine Evolves.withBrk (hm.bit rfl) ?_
  exact h

theorem brkSampleOp_ev (x1 x2 x3 x4 : _) (hm : Sub 0x40021000c000020 M) (hall : ∀ n, P n) (h : Evolves M P a s) :
    Evolves M P a (brkSampleOp x1 x2 x3 x4 s) := by
  unfold brkSampleOp
  extract_lets +onlyGivenNames y1
  extract_lets +onlyGivenNames y2
  extract_lets +onlyGivenNames y3
  extract_lets +onlyGivenNames y4
  extract_lets +onlyGivenNames y5
  have h6 : Evolves M P a y5 := by
    unfold y5
    refine Evolves.withBrk (hm.bit rfl) ?_
    exact h
  clear_value y5
  extract_lets +onlyGivenNames y7
  have h8 : Evolves M P a y7 := by
    unfold y7
    refine Evolves.putIntG .bus rfl (hm.bit rfl) rfl ?_
    refine Evolves.putIntG .bus rfl (hm.bit rfl) rfl ?_
    refine Evolves.putG .bus rfl (hm.bit rfl) rfl ?_
    exact h6
  clear_value y7
  extract_lets +onlyGivenNames y9
  extract_lets +onlyGivenNames y10
  have h11 : Evolves M P a y10 := by
    unfold y10
    refine Evolves.ite ?_ ?_
    · refine Evolves.putG .bus rfl (hm.bit rfl) rfl ?_
      exact h8
    · refine Evolves.ite ?_ ?_
      · refine Evolves.putG .bus rfl (hm.bit rfl) rfl ?_
        exact h8
      · exact h8
  clear_value y10
  extract_lets +onlyGivenNames y12
  have h13 : Evolves M P a y12 := by
    unfold y12
    refine chopTest_ev _ _ _ (hm.of rfl) ?_
    exact h11
  clear_value y12
  extract_lets +onlyGivenNames y14
  have h15 : Evolves M P a y14 := by
    unfold y14
    refine Evolves.ite ?_ ?_
    · refine Evolves.putG .bus rfl (hm.bit rfl) rfl ?_
      refine Evolves.ite ?_ ?_
      · exact h13
      · refine motBrk_ev _ _ (hm.of rfl) ?_
        exact h13
    · exact h13
  clear_value y14
  extract_lets +onlyGivenNames y16
  have h17 : Evolves M P a y16 := by
    unfold y16
    refine Evolves.ite ?_ ?_
    · refine busZero_ev _ (hm.of rfl) hall ?_
      refine Evolves.putG .bus rfl (hm.bit rfl) rfl ?_
      refine Evolves.ite ?_ ?_
      · exact h15
      · refine motBrk_ev _ _ (hm.of rfl) ?_
        exact h15
    · exact h15
  clear_value y16
  extract_lets +onlyGivenNames y18
  have h19 : Evolves M P a y18 := by
    unfold y18
    refine Evolves.ite ?_ ?_
    · refine busFault_ev _ (hm.of rfl) hall ?_
      refine Evolves.putG .bus rfl (hm.bit rfl) rfl ?_
      refine Evolves.ite ?_ ?_
      · exact h17
      · refine motBrk_ev _ _ (hm.of rfl) ?_
        exact h17
    · refine Evolves.ite ?_ ?_
      · refine Evolves.putG .bus rfl (hm.bit rfl) rfl ?_
        exact h17
      · exact h17
  clear_value y18
  refine Evolves.ite ?_ ?_
  · refine Evolves.putG .bus rfl (hm.bit rfl) rfl ?_
    refine Evolves.ite ?_ ?_
    · exact h19
    · refine motBrk_ev _ _ (hm.of rfl) ?_
      exact h19
  · refine Evolves.ite ?_ ?_
    · refine Evolves.putG .bus rfl (hm.bit rfl) rfl ?_
      exact h19
    · exact h19

theorem busRelease_ev (x1 x2 : _) (hm : Sub 0x10004000020 M) (hall : ∀ n, P n) (h : Evolves M P a s) :
    Evolves M P a (busRelease x1 x2 s) := by
  unfold busRelease
  extract_lets +onlyGivenNames y1
  refine Evolves.ite ?_ ?_
  · refine Evolves.ite ?_ ?_
    · refine Evolves.foldl _ (fun s2 x3 h4 => ?_) ?_
      · refine Evolves.put .spn rfl (hm.bit rfl) (hall _) ?_
        exact h4
      · refine Evolves.putG .bus rfl (hm.bit rfl) rfl ?_
        exact h
    · exact h
  · refine Evolves.ite ?_ ?_
    · refine Evolves.foldl _ (fun s5 x6 h7 => ?_) ?_
      · refine Evolves.ite ?_ ?_
        · extract_lets +onlyGivenNames y8
          refine Evolves.modSpn (hm.bit rfl) (hall _) ?_
          refine Evolves.put .spn rfl (hm.bit rfl) (hall _) ?_
          exact h7
        · exact h7
      · refine Evolves.putG .bus rfl (hm.bit rfl) rfl ?_
        exact h
    · exact h

theorem chopFaultOp_ev (x1 : _) (hm : Sub 0x44120001c000000 M) (h : Evolves M P a s) :
    Evolves M P a (chopFaultOp x1 s) := by
  unfold chopFaultOp
  refine Evolves.ite ?_ ?_
  · extract_lets +onlyGivenNames y1
    extract_lets +onlyGivenNames y2
    have h3 : Evolves M P a y2 := by
      unfold y2
      refine Evolves.withBrk (hm.bit rfl) ?_
      exact h
    clear_value y2
    refine State.logEvent_ev _ _ (hm.of rfl) ?_
    refine motBrk_ev _ _ (hm.of rfl) ?_
    refine Evolves.putG .bus rfl (hm.bit rfl) rfl ?_
    exact h3
  · exact h

theorem execBrkSample_next (x1 x2 x3 x4 : _) (hm : Sub 0x40021000c000020 M) (hall : ∀ n, P n) :
    ∃ t, (execBrkSample x1 x2 x3 x4 s) = .next t ∧ Evolves M P s t := by
  refine ⟨_, rfl, ?_⟩
  have h := Evolves.refl M P s
  refine brkSampleOp_ev _ _ _ _ (hm.of rfl) hall ?_
  exact h

theorem execBusThresholdRelease_next (x1 x2 : _) (hm : Sub 0x10004000020 M) (hall : ∀ n, P n) :
    ∃ t, (execBusThresholdRelease x1 x2 s) = .next t ∧ Evolves M P s t := by
  refine ⟨_, rfl, ?_⟩
  have h := Evolves.refl M P s
  refine busRelease_ev _ _ (hm.of rfl) hall ?_
  exact h

theorem execChopFault_next (x1 : _) (hm : Sub 0x44120001c000000 M) :
    ∃ t, (execChopFault x1 s) = .next t ∧ Evolves M P s t := by
  refine ⟨_, rfl, ?_⟩
  have h := Evolves.refl M P s
  refine chopFaultOp_ev _ (hm.of rfl) ?_
  exact h

theorem execBrkFaultClr_next (x1 x2 : _) (hm : Sub 0x4000000 M) :
    ∃ t, (execBrkFaultClr x1 x2 s) = .next t ∧ Evolves M P s t := by
  refine ⟨_, rfl, ?_⟩
  have h := Evolves.refl M P s
  refine Evolves.ite ?_ ?_
  · refine Evolves.putG .bus rfl (hm.bit rfl) rfl ?_
    exact h
  · exact h

theorem execBrkThresholdWrite_next (x1 x2 x3 : _) (hm : Sub 0x40000000c000000 M) :
    ∃ t, (execBrkThresholdWrite x1 x2 x3 s) = .next t ∧ Evolves M P s t := by
  refine ⟨_, rfl, ?_⟩
  have h := Evolves.refl M P s
  refine brkThreshold_ev _ _ _ (hm.of rfl) ?_
  exact h

end Sys2Proof.Machine
end

