-- ==== Sys2Proof/Laws/Sled.lean ====
section
/-! SUPPORT. One lemma per operation of Machine/Sled.lean: the parts of the state it can touch and what it needs of the engines (`Evolves`). -/

namespace Sys2Proof.Machine

variable {M : Nat} {P : Nat → Prop} {a s : State}

theorem sldShift_ev (x1 x2 : _) (hm : Sub 0x40 M) (e1 : P x1.val) (h : Evolves M P a s) :
    Evolves M P a (sldShift x1 x2 s) := by
  unfold sldShift
  refine Evolves.ite ?_ ?_
  · exact h
  · extract_lets +onlyGivenNames y1
    have h2 : Evolves M P a y1 := by
      unfold y1
      refine Evolves.putInt .sld rfl (hm.bit rfl) e1 ?_
      exact h
    clear_value y1
    refine Evolves.put .sld rfl (hm.bit rfl) e1 ?_
    refine Evolves.putInt .sld rfl (hm.bit rfl) e1 ?_
    exact h2

theorem sldToward_ev (x1 x2 x3 : _) (hm : Sub 0x20000000040 M) (e1 : P x1.val) (h : Evolves M P a s) :
    Evolves M P a (sldToward x1 x2 x3 s) := by
  unfold sldToward
  extract_lets +onlyGivenNames y1
  extract_lets +onlyGivenNames y2
  extract_lets +onlyGivenNames y3
  extract_lets +onlyGivenNames y4
  refine sldShift_ev _ _ (hm.of rfl) e1 ?_
  refine Evolves.modSld (hm.bit rfl) e1 ?_
  exact h

theorem sldDone_ev (x1 : _) (hm : Sub 0x400020000000040 M) (e1 : P x1.val) (h : Evolves M P a s) :
    Evolves M P a (sldDone x1 s) := by
  unfold sldDone
  refine Evolves.modSld (hm.bit rfl) e1 ?_
  refine Evolves.raise .sld rfl (hm.bit rfl) e1 (hm.bit rfl) ?_
  refine Evolves.put .sld rfl (hm.bit rfl) e1 ?_
  refine Evolves.put .sld rfl (hm.bit rfl) e1 ?_
  exact h

theorem sldHomeStep_ev (x1 : _) (hm : Sub 0x400020000000040 M) (e1 : P x1.val) (h : Evolves M P a s) :
    Evolves M P a (sldHomeStep x1 s) := by
  unfold sldHomeStep
  extract_lets +onlyGivenNames y1
  extract_lets +onlyGivenNames y2
  extract_lets +onlyGivenNames y3
  extract_lets +onlyGivenNames y4
  have h5 : Evolves M P a y4 := by
    unfold y4
    refine sldToward_ev _ _ _ (hm.of rfl) e1 ?_
    exact h
  clear_value y4
  extract_lets +onlyGivenNames y6
  have h7 : Evolves M P a y6 := by
    unfold y6
    refine Evolves.modSld (hm.bit rfl) e1 ?_
    exact h5
  clear_value y6
  refine Evolves.ite ?_ ?_
  · refine sldDone_ev _ (hm.of rfl) e1 ?_
    refine Evolves.put .sld rfl (hm.bit rfl) e1 ?_
    exact h7
  · exact h7

theorem encFault_ev (x1 : _) (hm : Sub 0x400000000000040 M) (e1 : P x1.val) (h : Evolves M P a s) :
    Evolves M P a (encFault x1 s) := by
  unfold encFault
  refine Evolves.raise .sld rfl (hm.bit rfl) e1 (hm.bit rfl) ?_
  refine Evolves.put .sld rfl (hm.bit rfl) e1 ?_
  refine Evolves.put .sld rfl (hm.bit rfl) e1 ?_
  exact h

theorem encCounts_ev (x1 x2 : _) (hm : Sub 0x400020000000040 M) (e1 : P x1.val) (h : Evolves M P a s) :
    Evolves M P a (encCounts x1 x2 s) := by
  unfold encCounts
  refine Evolves.ite ?_ ?_
  · extract_lets +onlyGivenNames y1
    extract_lets +onlyGivenNames y2
    have h3 : Evolves M P a y2 := by
      unfold y2
      refine Evolves.modSld (hm.bit rfl) e1 ?_
      exact h
    clear_value y2
    extract_lets +onlyGivenNames y4
    have h5 : Evolves M P a y4 := by
      unfold y4
      refine Evolves.putInt .sld rfl (hm.bit rfl) e1 ?_
      exact h3
    clear_value y4
    refine Evolves.ite ?_ ?_
    · refine encFault_ev _ (hm.of rfl) e1 ?_
      exact h5
    · exact h5
  · exact h

theorem sldPwm_ev (x1 x2 : _) (hm : Sub 0x400020000000040 M) (e1 : P x1.val) (h : Evolves M P a s) :
    Evolves M P a (sldPwm x1 x2 s) := by
  unfold sldPwm
  extract_lets +onlyGivenNames y1
  have h2 : Evolves M P a y1 := by
    unfold y1
    refine encCounts_ev _ _ (hm.of rfl) e1 ?_
    exact h
  clear_value y1
  refine Evolves.ite ?_ ?_
  · exact h2
  · refine Evolves.ite ?_ ?_
    · refine sldHomeStep_ev _ (hm.of rfl) e1 ?_
      exact h2
    · refine Evolves.ite ?_ ?_
      · refine sldToward_ev _ _ _ (hm.of rfl) e1 ?_
        exact h2
      · refine Evolves.ite ?_ ?_
        · refine sldToward_ev _ _ _ (hm.of rfl) e1 ?_
          exact h2
        · refine Evolves.ite ?_ ?_
          · extract_lets +onlyGivenNames y3
            have h4 : Evolves M P a y3 := by
              unfold y3
              refine sldToward_ev _ _ _ (hm.of rfl) e1 ?_
              exact h2
            clear_value y3
            refine Evolves.ite ?_ ?_
            · refine sldDone_ev _ (hm.of rfl) e1 ?_
              exact h4
            · exact h4
          · refine Evolves.ite ?_ ?_
            · exact h2
            · refine sldToward_ev _ _ _ (hm.of rfl) e1 ?_
              exact h2

theorem sldHold_ev (x1 : _) (hm : Sub 0x40 M) (e1 : P x1.val) (h : Evolves M P a s) :
    Evolves M P a (sldHold x1 s) := by
  unfold sldHold
  refine Evolves.ite ?_ ?_
  · refine Evolves.put .sld rfl (hm.bit rfl) e1 ?_
    exact h
  · exact h

theorem sldMove_ev (x1 : _) (hm : Sub 0x400000000000040 M) (e1 : P x1.val) (h : Evolves M P a s) :
    Evolves M P a (sldMove x1 s) := by
  unfold sldMove
  refine Evolves.ite ?_ ?_
  · refine Evolves.raise .sld rfl (hm.bit rfl) e1 (hm.bit rfl) ?_
    exact h
  · refine Evolves.put .sld rfl (hm.bit rfl) e1 ?_
    refine Evolves.put .sld rfl (hm.bit rfl) e1 ?_
    exact h

theorem sldHome_ev (x1 : _) (hm : Sub 0x400020000000040 M) (e1 : P x1.val) (h : Evolves M P a s) :
    Evolves M P a (sldHome x1 s) := by
  unfold sldHome
  refine Evolves.ite ?_ ?_
  · refine Evolves.raise .sld rfl (hm.bit rfl) e1 (hm.bit rfl) ?_
    exact h
  · extract_lets +onlyGivenNames y1
    extract_lets +onlyGivenNames y2
    have h3 : Evolves M P a y2 := by
      unfold y2
      refine Evolves.put .sld rfl (hm.bit rfl) e1 ?_
      refine Evolves.put .sld rfl (hm.bit rfl) e1 ?_
      refine Evolves.put .sld rfl (hm.bit rfl) e1 ?_
      exact h
    clear_value y2
    refine Evolves.modSld (hm.bit rfl) e1 ?_
    exact h3

theorem sldLose_ev (x1 : _) (hm : Sub 0x400000000000040 M) (e1 : P x1.val) (h : Evolves M P a s) :
    Evolves M P a (sldLose x1 s) := by
  unfold sldLose
  refine Evolves.raise .sld rfl (hm.bit rfl) e1 (hm.bit rfl) ?_
  refine Evolves.put .sld rfl (hm.bit rfl) e1 ?_
  exact h

theorem sldStop_ev (x1 : _) (hm : Sub 0x400020000000040 M) (e1 : P x1.val) (h : Evolves M P a s) :
    Evolves M P a (sldStop x1 s) := by
  unfold sldStop
  extract_lets +onlyGivenNames y1
  extract_lets +onlyGivenNames y2
  have h3 : Evolves M P a y2 := by
    unfold y2
    refine Evolves.put .sld rfl (hm.bit rfl) e1 ?_
    refine Evolves.put .sld rfl (hm.bit rfl) e1 ?_
    refine Evolves.put .sld rfl (hm.bit rfl) e1 ?_
    exact h
  clear_value y2
  extract_lets +onlyGivenNames y4
  have h5 : Evolves M P a y4 := by
    unfold y4
    refine Evolves.modSld (hm.bit rfl) e1 ?_
    exact h3
  clear_value y4
  refine Evolves.ite ?_ ?_
  · refine sldLose_ev _ (hm.of rfl) e1 ?_
    exact h5
  · exact h5

theorem sldFaultOp_ev (x1 : _) (hm : Sub 0x400020000000040 M) (e1 : P x1.val) (h : Evolves M P a s) :
    Evolves M P a (sldFaultOp x1 s) := by
  unfold sldFaultOp
  extract_lets +onlyGivenNames y1
  have h2 : Evolves M P a y1 := by
    unfold y1
    refine Evolves.put .sld rfl (hm.bit rfl) e1 ?_
    refine Evolves.put .sld rfl (hm.bit rfl) e1 ?_
    refine Evolves.put .sld rfl (hm.bit rfl) e1 ?_
    exact h
  clear_value y1
  extract_lets +onlyGivenNames y3
  have h4 : Evolves M P a y3 := by
    unfold y3
    refine Evolves.raise .sld rfl (hm.bit rfl) e1 (hm.bit rfl) ?_
    refine Evolves.put .sld rfl (hm.bit rfl) e1 ?_
    exact h2
  clear_value y3
  refine sldLose_ev _ (hm.of rfl) e1 ?_
  refine Evolves.modSld (hm.bit rfl) e1 ?_
  exact h4

theorem sldParkOp_ev (x1 : _) (hm : Sub 0x400020000000040 M) (e1 : P x1.val) (h : Evolves M P a s) :
    Evolves M P a (sldParkOp x1 s) := by
  unfold sldParkOp
  refine Evolves.ite ?_ ?_
  · extract_lets +onlyGivenNames y1
    have h2 : Evolves M P a y1 := by
      unfold y1
      refine Evolves.put .sld rfl (hm.bit rfl) e1 ?_
      exact h
    clear_value y1
    refine Evolves.ite ?_ ?_
    · refine Evolves.put .sld rfl (hm.bit rfl) e1 ?_
      exact h2
    · refine Evolves.ite ?_ ?_
      · refine Evolves.modSld (hm.bit rfl) e1 ?_
        exact h2
      · exact h2
  · refine Evolves.raise .sld rfl (hm.bit rfl) e1 (hm.bit rfl) ?_
    exact h

theorem sldParked_ev (x1 : _) (hm : Sub 0x400020000000040 M) (e1 : P x1.val) (h : Evolves M P a s) :
    Evolves M P a (sldParked x1 s) := by
  unfold sldParked
  extract_lets +onlyGivenNames y1
  refine Evolves.ite ?_ ?_
  · extract_lets +onlyGivenNames y2
    have h3 : Evolves M P a y2 := by
      unfold y2
      refine Evolves.put .sld rfl (hm.bit rfl) e1 ?_
      refine Evolves.raise .sld rfl (hm.bit rfl) e1 (hm.bit rfl) ?_
      refine Evolves.put .sld rfl (hm.bit rfl) e1 ?_
      exact h
    clear_value y2
    refine Evolves.modSld (hm.bit rfl) e1 ?_
    exact h3
  · exact h

theorem sldPowerOn_ev (x1 : _) (hm : Sub 0x20000000040 M) (e1 : P x1.val) (h : Evolves M P a s) :
    Evolves M P a (sldPowerOn x1 s) := by
  unfold sldPowerOn
  extract_lets +onlyGivenNames y1
  have h2 : Evolves M P a y1 := by
    unfold y1
    refine Evolves.put .sld rfl (hm.bit rfl) e1 ?_
    exact h
  clear_value y1
  refine Evolves.ite ?_ ?_
  · exact h2
  · refine Evolves.modSld (hm.bit rfl) e1 ?_
    refine Evolves.put .sld rfl (hm.bit rfl) e1 ?_
    exact h2

theorem sldSetPos_ev (x1 x2 : _) (hm : Sub 0x20000000040 M) (e1 : P x1.val) (h : Evolves M P a s) :
    Evolves M P a (sldSetPos x1 x2 s) := by
  unfold sldSetPos
  refine Evolves.ite ?_ ?_
  · exact h
  · extract_lets +onlyGivenNames y1
    extract_lets +onlyGivenNames y2
    have h3 : Evolves M P a y2 := by
      unfold y2
      refine Evolves.putInt .sld rfl (hm.bit rfl) e1 ?_
      exact h
    clear_value y2
    refine Evolves.ite ?_ ?_
    · refine Evolves.modSld (hm.bit rfl) e1 ?_
      refine Evolves.put .sld rfl (hm.bit rfl) e1 ?_
      exact h3
    · exact h3

theorem sldPowerLoss_ev (x1 : _) (hm : Sub 0x400020000000040 M) (e1 : P x1.val) (h : Evolves M P a s) :
    Evolves M P a (sldPowerLoss x1 s) := by
  unfold sldPowerLoss
  extract_lets +onlyGivenNames y1
  extract_lets +onlyGivenNames y2
  have h3 : Evolves M P a y2 := by
    unfold y2
    refine Evolves.ite ?_ ?_
    · refine sldLose_ev _ (hm.of rfl) e1 ?_
      exact h
    · refine Evolves.ite ?_ ?_
      · exact h
      · refine sldShift_ev _ _ (hm.of rfl) e1 ?_
        exact h
  clear_value y2
  extract_lets +onlyGivenNames y4
  have h5 : Evolves M P a y4 := by
    unfold y4
    refine Evolves.put .sld rfl (hm.bit rfl) e1 ?_
    refine Evolves.put .sld rfl (hm.bit rfl) e1 ?_
    refine Evolves.put .sld rfl (hm.bit rfl) e1 ?_
    exact h3
  clear_value y4
  refine Evolves.modSld (hm.bit rfl) e1 ?_
  exact h5

theorem encIndexOp_ev (x1 : _) (hm : Sub 0x20000000040 M) (hall : ∀ n, P n) (h : Evolves M P a s) :
    Evolves M P a (encIndexOp x1 s) := by
  unfold encIndexOp
  refine Evolves.dite (fun _ => ?_) (fun _ => ?_)
  · extract_lets +onlyGivenNames y1
    refine Evolves.ite ?_ ?_
    · extract_lets +onlyGivenNames y2
      have h3 : Evolves M P a y2 := by
        unfold y2
        refine Evolves.put .sld rfl (hm.bit rfl) (hall _) ?_
        refine Evolves.put .sld rfl (hm.bit rfl) (hall _) ?_
        refine Evolves.put .sld rfl (hm.bit rfl) (hall _) ?_
        refine Evolves.put .sld rfl (hm.bit rfl) (hall _) ?_
        exact h
      clear_value y2
      refine Evolves.modSld (hm.bit rfl) (hall _) ?_
      exact h3
    · exact h
  · exact h

theorem encIllegal_ev (x1 : _) (hm : Sub 0x400000000000040 M) (hall : ∀ n, P n) (h : Evolves M P a s) :
    Evolves M P a (encIllegal x1 s) := by
  unfold encIllegal
  refine Evolves.dite (fun _ => ?_) (fun _ => ?_)
  · refine Evolves.ite ?_ ?_
    · refine encFault_ev _ (hm.of rfl) (hall _) ?_
      exact h
    · exact h
  · exact h

theorem slgSelect_ev (x1 : _) (hm : Sub 0x80 M) (e1 : P x1.val) (h : Evolves M P a s) :
    Evolves M P a (slgSelect x1 s) := by
  unfold slgSelect
  refine Evolves.put .slg rfl (hm.bit rfl) e1 ?_
  exact h

theorem slgTake_ev (x1 : _) (hm : Sub 0x80 M) (e1 : P x1.val) (h : Evolves M P a s) :
    Evolves M P a (slgTake x1 s) := by
  unfold slgTake
  refine Evolves.put .slg rfl (hm.bit rfl) e1 ?_
  refine Evolves.put .slg rfl (hm.bit rfl) e1 ?_
  refine Evolves.put .slg rfl (hm.bit rfl) e1 ?_
  exact h

theorem slgCross_ev (x1 : _) (hm : Sub 0x80 M) (e1 : P x1.val) (h : Evolves M P a s) :
    Evolves M P a (slgCross x1 s) := by
  unfold slgCross
  extract_lets +onlyGivenNames y1
  have h2 : Evolves M P a y1 := by
    unfold y1
    refine slgSelect_ev _ (hm.of rfl) e1 ?_
    exact h
  clear_value y1
  refine Evolves.ite ?_ ?_
  · refine slgTake_ev _ (hm.of rfl) e1 ?_
    exact h2
  · exact h2

theorem slgRates_ev (x1 x2 x3 : _) (hm : Sub 0x80 M) (e1 : P x1.val) (h : Evolves M P a s) :
    Evolves M P a (slgRates x1 x2 x3 s) := by
  unfold slgRates
  extract_lets +onlyGivenNames y1
  have h2 : Evolves M P a y1 := by
    unfold y1
    refine Evolves.putBool .slg rfl (hm.bit rfl) e1 ?_
    refine Evolves.put .slg rfl (hm.bit rfl) e1 ?_
    exact h
  clear_value y1
  refine Evolves.ite ?_ ?_
  · refine Evolves.put .slg rfl (hm.bit rfl) e1 ?_
    exact h2
  · refine slgTake_ev _ (hm.of rfl) e1 ?_
    exact h2

theorem slgTurns_ev (x1 x2 : _) (hm : Sub 0x80 M) (e1 : P x1.val) (h : Evolves M P a s) :
    Evolves M P a (slgTurns x1 x2 s) := by
  unfold slgTurns
  refine Evolves.ite ?_ ?_
  · exact h
  · refine slgRates_ev _ _ _ (hm.of rfl) e1 ?_
    exact h

theorem slgStep_ev (x1 : _) (hm : Sub 0x8000000080 M) (e1 : P x1.val) (h : Evolves M P a s) :
    Evolves M P a (slgStep x1 s) := by
  unfold slgStep
  refine Evolves.ite ?_ ?_
  · extract_lets +onlyGivenNames y1
    extract_lets +onlyGivenNames y2
    extract_lets +onlyGivenNames y3
    extract_lets +onlyGivenNames y4
    have h5 : Evolves M P a y4 := by
      unfold y4
      refine Evolves.putInt .slg rfl (hm.bit rfl) e1 ?_
      exact h
    clear_value y4
    refine Evolves.modSlg (hm.bit rfl) e1 ?_
    exact h5
  · exact h

theorem slgLoadOp_ev (x1 : _) (hm : Sub 0x8000000080 M) (e1 : P x1.val) (h : Evolves M P a s) :
    Evolves M P a (slgLoadOp x1 s) := by
  unfold slgLoadOp
  refine slgSelect_ev _ (hm.of rfl) e1 ?_
  refine Evolves.modSlg (hm.bit rfl) e1 ?_
  refine Evolves.putInt .slg rfl (hm.bit rfl) e1 ?_
  exact h

theorem slgEn_ev (x1 x2 : _) (hm : Sub 0x80 M) (e1 : P x1.val) (h : Evolves M P a s) :
    Evolves M P a (slgEn x1 x2 s) := by
  unfold slgEn
  refine Evolves.ite ?_ ?_
  · exact h
  · refine Evolves.putBool .slg rfl (hm.bit rfl) e1 ?_
    exact h

theorem execSldPwmPeriod_next (x1 x2 : _) (hm : Sub 0x400020000000040 M) (e1 : P x1.val) :
    ∃ t, (execSldPwmPeriod x1 x2 s) = .next t ∧ Evolves M P s t := by
  refine ⟨_, rfl, ?_⟩
  have h := Evolves.refl M P s
  refine sldPwm_ev _ _ (hm.of rfl) e1 ?_
  exact h

theorem execSldHoldCurrent_next (x1 : _) (hm : Sub 0x40 M) (e1 : P x1.val) :
    ∃ t, (execSldHoldCurrent x1 s) = .next t ∧ Evolves M P s t := by
  refine ⟨_, rfl, ?_⟩
  have h := Evolves.refl M P s
  refine sldHold_ev _ (hm.of rfl) e1 ?_
  exact h

theorem execSldMove_next (x1 : _) (hm : Sub 0x400000000000040 M) (e1 : P x1.val) :
    ∃ t, (execSldMove x1 s) = .next t ∧ Evolves M P s t := by
  refine ⟨_, rfl, ?_⟩
  have h := Evolves.refl M P s
  refine sldMove_ev _ (hm.of rfl) e1 ?_
  exact h

theorem execSldHome_next (x1 : _) (hm : Sub 0x400020000000040 M) (e1 : P x1.val) :
    ∃ t, (execSldHome x1 s) = .next t ∧ Evolves M P s t := by
  refine ⟨_, rfl, ?_⟩
  have h := Evolves.refl M P s
  refine sldHome_ev _ (hm.of rfl) e1 ?_
  exact h

theorem execSldStop_next (x1 : _) (hm : Sub 0x400020000000040 M) (e1 : P x1.val) :
    ∃ t, (execSldStop x1 s) = .next t ∧ Evolves M P s t := by
  refine ⟨_, rfl, ?_⟩
  have h := Evolves.refl M P s
  refine sldStop_ev _ (hm.of rfl) e1 ?_
  exact h

theorem execSldPark_next (x1 : _) (hm : Sub 0x400020000000040 M) (e1 : P x1.val) :
    ∃ t, (execSldPark x1 s) = .next t ∧ Evolves M P s t := by
  refine ⟨_, rfl, ?_⟩
  have h := Evolves.refl M P s
  refine sldParkOp_ev _ (hm.of rfl) e1 ?_
  exact h

theorem execSldParkDone_next (x1 : _) (hm : Sub 0x400020000000040 M) (e1 : P x1.val) :
    ∃ t, (execSldParkDone x1 s) = .next t ∧ Evolves M P s t := by
  refine ⟨_, rfl, ?_⟩
  have h := Evolves.refl M P s
  refine sldParked_ev _ (hm.of rfl) e1 ?_
  exact h

theorem execSldPowerOn_next (x1 : _) (hm : Sub 0x20000000040 M) (e1 : P x1.val) :
    ∃ t, (execSldPowerOn x1 s) = .next t ∧ Evolves M P s t := by
  refine ⟨_, rfl, ?_⟩
  have h := Evolves.refl M P s
  refine sldPowerOn_ev _ (hm.of rfl) e1 ?_
  exact h

theorem execSldFault_next (x1 : _) (hm : Sub 0x400020000000040 M) (e1 : P x1.val) :
    ∃ t, (execSldFault x1 s) = .next t ∧ Evolves M P s t := by
  refine ⟨_, rfl, ?_⟩
  have h := Evolves.refl M P s
  refine sldFaultOp_ev _ (hm.of rfl) e1 ?_
  exact h

theorem execSldEncBad_next (x1 : _) (hm : Sub 0x400000000000040 M) (e1 : P x1.val) :
    ∃ t, (execSldEncBad x1 s) = .next t ∧ Evolves M P s t := by
  refine ⟨_, rfl, ?_⟩
  have h := Evolves.refl M P s
  refine encFault_ev _ (hm.of rfl) e1 ?_
  exact h

theorem execEncIndex_next (x1 : _) (hm : Sub 0x20000000040 M) (hall : ∀ n, P n) :
    ∃ t, (execEncIndex x1 s) = .next t ∧ Evolves M P s t := by
  refine ⟨_, rfl, ?_⟩
  have h := Evolves.refl M P s
  refine encIndexOp_ev _ (hm.of rfl) hall ?_
  exact h

theorem execEncIllegalTransition_next (x1 : _) (hm : Sub 0x400000000000040 M) (hall : ∀ n, P n) :
    ∃ t, (execEncIllegalTransition x1 s) = .next t ∧ Evolves M P s t := by
  refine ⟨_, rfl, ?_⟩
  have h := Evolves.refl M P s
  refine encIllegal_ev _ (hm.of rfl) hall ?_
  exact h

theorem execSlgAngleStep_next (x1 : _) (hm : Sub 0x8000000080 M) (e1 : P x1.val) :
    ∃ t, (execSlgAngleStep x1 s) = .next t ∧ Evolves M P s t := by
  refine ⟨_, rfl, ?_⟩
  have h := Evolves.refl M P s
  refine slgStep_ev _ (hm.of rfl) e1 ?_
  exact h

theorem execSlgLoad_next (x1 : _) (hm : Sub 0x8000000080 M) (e1 : P x1.val) :
    ∃ t, (execSlgLoad x1 s) = .next t ∧ Evolves M P s t := by
  refine ⟨_, rfl, ?_⟩
  have h := Evolves.refl M P s
  refine slgLoadOp_ev _ (hm.of rfl) e1 ?_
  exact h

theorem execSlgEnWrite_next (x1 x2 : _) (hm : Sub 0x80 M) (e1 : P x1.val) :
    ∃ t, (execSlgEnWrite x1 x2 s) = .next t ∧ Evolves M P s t := by
  refine ⟨_, rfl, ?_⟩
  have h := Evolves.refl M P s
  refine slgEn_ev _ _ (hm.of rfl) e1 ?_
  exact h

end Sys2Proof.Machine
end

