-- ==== Sys2Proof/Laws/Axes.lean ====
section
/-! SUPPORT. One lemma per operation of Machine/Axes.lean: the parts of the state it can touch and what it needs of the engines (`Evolves`). -/

namespace Sys2Proof.Machine

variable {M : Nat} {P : Nat → Prop} {a s : State}

theorem State.modAx_ev (x2 x3 : _) (hm : Sub 0x100000000000 M) (h : Evolves M P a s) :
    Evolves M P a (State.modAx s x2 x3) := by
  unfold State.modAx
  refine Evolves.withAx (hm.bit rfl) ?_
  exact h

theorem axDone_ev (x1 : _) (hm : Sub 0x40010000a000000 M) (h : Evolves M P a s) :
    Evolves M P a (axDone x1 s) := by
  unfold axDone
  refine motAx_ev _ _ (hm.of rfl) ?_
  refine State.modAx_ev _ _ (hm.of rfl) ?_
  refine Evolves.putG .axis rfl (hm.bit rfl) rfl ?_
  exact h

theorem axStop_ev (x1 : _) (hm : Sub 0x40010000a000000 M) (h : Evolves M P a s) :
    Evolves M P a (axStop x1 s) := by
  unfold axStop
  refine Evolves.ite ?_ ?_
  · refine State.modAx_ev _ _ (hm.of rfl) ?_
    exact h
  · refine axDone_ev _ (hm.of rfl) ?_
    exact h

theorem axEstop_ev (x1 : _) (hm : Sub 0x40010000a000000 M) (h : Evolves M P a s) :
    Evolves M P a (axEstop x1 s) := by
  unfold axEstop
  extract_lets +onlyGivenNames y1
  extract_lets +onlyGivenNames y2
  have h3 : Evolves M P a y2 := by
    unfold y2
    refine Evolves.putG .axis rfl (hm.bit rfl) rfl ?_
    refine Evolves.putG .axis rfl (hm.bit rfl) rfl ?_
    refine Evolves.putG .axis rfl (hm.bit rfl) rfl ?_
    exact h
  clear_value y2
  extract_lets +onlyGivenNames y4
  have h5 : Evolves M P a y4 := by
    unfold y4
    refine State.modAx_ev _ _ (hm.of rfl) ?_
    exact h3
  clear_value y4
  refine Evolves.ite ?_ ?_
  · refine motAx_ev _ _ (hm.of rfl) ?_
    refine Evolves.putG .axis rfl (hm.bit rfl) rfl ?_
    exact h5
  · exact h5

theorem axMove_ev (x1 : _) (hm : Sub 0x40010000a000000 M) (h : Evolves M P a s) :
    Evolves M P a (axMove x1 s) := by
  unfold axMove
  refine Evolves.ite ?_ ?_
  · exact h
  · extract_lets +onlyGivenNames y1
    have h2 : Evolves M P a y1 := by
      unfold y1
      refine State.modAx_ev _ _ (hm.of rfl) ?_
      exact h
    clear_value y1
    refine Evolves.ite ?_ ?_
    · refine Evolves.putG .axis rfl (hm.bit rfl) rfl ?_
      exact h2
    · refine axDone_ev _ (hm.of rfl) ?_
      exact h2

theorem axGear_ev (x1 : _) (hm : Sub 0x100002000000 M) (h : Evolves M P a s) :
    Evolves M P a (axGear x1 s) := by
  unfold axGear
  refine Evolves.ite ?_ ?_
  · extract_lets +onlyGivenNames y1
    have h2 : Evolves M P a y1 := by
      unfold y1
      refine Evolves.putG .axis rfl (hm.bit rfl) rfl ?_
      refine Evolves.putG .axis rfl (hm.bit rfl) rfl ?_
      refine Evolves.putG .axis rfl (hm.bit rfl) rfl ?_
      exact h
    clear_value y1
    extract_lets +onlyGivenNames y3
    refine State.modAx_ev _ _ (hm.of rfl) ?_
    refine Evolves.putG .axis rfl (hm.bit rfl) rfl ?_
    exact h2
  · exact h

theorem axUngear_ev (x1 : _) (hm : Sub 0x40010000a000000 M) (h : Evolves M P a s) :
    Evolves M P a (axUngear x1 s) := by
  unfold axUngear
  refine Evolves.ite ?_ ?_
  · refine axStop_ev _ (hm.of rfl) ?_
    refine Evolves.putG .axis rfl (hm.bit rfl) rfl ?_
    refine Evolves.putG .axis rfl (hm.bit rfl) rfl ?_
    exact h
  · exact h

theorem axLag_ev (x1 : _) (hm : Sub 0x40010000a000000 M) (h : Evolves M P a s) :
    Evolves M P a (axLag x1 s) := by
  unfold axLag
  extract_lets +onlyGivenNames y1
  extract_lets +onlyGivenNames y2
  have h3 : Evolves M P a y2 := by
    unfold y2
    refine Evolves.putIntG .axis rfl (hm.bit rfl) rfl ?_
    exact h
  clear_value y2
  refine Evolves.ite ?_ ?_
  · refine motAx_ev _ _ (hm.of rfl) ?_
    refine axUngear_ev _ (hm.of rfl) ?_
    refine Evolves.putG .axis rfl (hm.bit rfl) rfl ?_
    exact h3
  · exact h3

theorem axRatioChange_ev (x1 : _) (hm : Sub 0x2000000 M) (h : Evolves M P a s) :
    Evolves M P a (axRatioChange x1 s) := by
  unfold axRatioChange
  refine Evolves.ite ?_ ?_
  · refine Evolves.putG .axis rfl (hm.bit rfl) rfl ?_
    refine Evolves.putG .axis rfl (hm.bit rfl) rfl ?_
    exact h
  · exact h

theorem axCount_ev (x1 x2 : _) (hm : Sub 0x40010000a000000 M) (h : Evolves M P a s) :
    Evolves M P a (axCount x1 x2 s) := by
  unfold axCount
  refine Evolves.ite ?_ ?_
  · extract_lets +onlyGivenNames y1
    have h2 : Evolves M P a y1 := by
      unfold y1
      refine axRatioChange_ev _ (hm.of rfl) ?_
      exact h
    clear_value y1
    extract_lets +onlyGivenNames y3
    extract_lets +onlyGivenNames y4
    extract_lets +onlyGivenNames y5
    have h6 : Evolves M P a y5 := by
      unfold y5
      refine State.modAx_ev _ _ (hm.of rfl) ?_
      exact h2
    clear_value y5
    extract_lets +onlyGivenNames y7
    have h8 : Evolves M P a y7 := by
      unfold y7
      refine Evolves.putBoolG .axis rfl (hm.bit rfl) rfl ?_
      exact h6
    clear_value y7
    refine axLag_ev _ (hm.of rfl) ?_
    exact h8
  · exact h

theorem axEncCheck_ev (x1 : _) (hm : Sub 0x40010000a000000 M) (h : Evolves M P a s) :
    Evolves M P a (axEncCheck x1 s) := by
  unfold axEncCheck
  extract_lets +onlyGivenNames y1
  extract_lets +onlyGivenNames y2
  refine Evolves.ite ?_ ?_
  · refine motAx_ev _ _ (hm.of rfl) ?_
    refine axEstop_ev _ (hm.of rfl) ?_
    refine Evolves.putG .axis rfl (hm.bit rfl) rfl ?_
    exact h
  · exact h

theorem axPulse_ev (x1 x2 x3 x4 : _) (hm : Sub 0x40010000a000000 M) (h : Evolves M P a s) :
    Evolves M P a (axPulse x1 x2 x3 x4 s) := by
  unfold axPulse
  extract_lets +onlyGivenNames y1
  have h2 : Evolves M P a y1 := by
    unfold y1
    refine State.modAx_ev _ _ (hm.of rfl) ?_
    exact h
  clear_value y1
  refine Evolves.ite ?_ ?_
  · extract_lets +onlyGivenNames y3
    have h4 : Evolves M P a y3 := by
      unfold y3
      refine Evolves.emit (hm.bit rfl) ?_
      exact h2
    clear_value y3
    extract_lets +onlyGivenNames y5
    have h6 : Evolves M P a y5 := by
      unfold y5
      refine Evolves.putIntG .axis rfl (hm.bit rfl) rfl ?_
      exact h4
    clear_value y5
    extract_lets +onlyGivenNames y7
    have h8 : Evolves M P a y7 := by
      unfold y7
      refine Evolves.ite ?_ ?_
      · refine axLag_ev _ (hm.of rfl) ?_
        refine Evolves.putBoolG .axis rfl (hm.bit rfl) rfl ?_
        exact h6
      · refine Evolves.ite ?_ ?_
        · refine axDone_ev _ (hm.of rfl) ?_
          exact h6
        · exact h6
    clear_value y7
    refine axEncCheck_ev _ (hm.of rfl) ?_
    exact h8
  · refine axEncCheck_ev _ (hm.of rfl) ?_
    exact h2

theorem axSetPos_ev (x1 x2 : _) (hm : Sub 0x100002000000 M) (h : Evolves M P a s) :
    Evolves M P a (axSetPos x1 x2 s) := by
  unfold axSetPos
  refine Evolves.ite ?_ ?_
  · extract_lets +onlyGivenNames y1
    have h2 : Evolves M P a y1 := by
      unfold y1
      refine Evolves.putG .axis rfl (hm.bit rfl) rfl ?_
      refine Evolves.putG .axis rfl (hm.bit rfl) rfl ?_
      refine Evolves.wrG .axis rfl (hm.bit rfl) rfl ?_
      exact h
    clear_value y1
    refine State.modAx_ev _ _ (hm.of rfl) ?_
    exact h2
  · exact h

theorem execAxMove_next (x1 : _) (hm : Sub 0x40010000a000000 M) :
    ∃ t, (execAxMove x1 s) = .next t ∧ Evolves M P s t := by
  refine ⟨_, rfl, ?_⟩
  have h := Evolves.refl M P s
  refine axMove_ev _ (hm.of rfl) ?_
  exact h

theorem execAxStop_next (x1 : _) (hm : Sub 0x40010000a000000 M) :
    ∃ t, (execAxStop x1 s) = .next t ∧ Evolves M P s t := by
  refine ⟨_, rfl, ?_⟩
  have h := Evolves.refl M P s
  refine axStop_ev _ (hm.of rfl) ?_
  exact h

theorem execAxEstop_next (x1 : _) (hm : Sub 0x40010000a000000 M) :
    ∃ t, (execAxEstop x1 s) = .next t ∧ Evolves M P s t := by
  refine ⟨_, rfl, ?_⟩
  have h := Evolves.refl M P s
  refine axEstop_ev _ (hm.of rfl) ?_
  exact h

theorem execAxGearSet_next (x1 : _) (hm : Sub 0x100002000000 M) :
    ∃ t, (execAxGearSet x1 s) = .next t ∧ Evolves M P s t := by
  refine ⟨_, rfl, ?_⟩
  have h := Evolves.refl M P s
  refine axGear_ev _ (hm.of rfl) ?_
  exact h

theorem execAxGearClear_next (x1 : _) (hm : Sub 0x40010000a000000 M) :
    ∃ t, (execAxGearClear x1 s) = .next t ∧ Evolves M P s t := by
  refine ⟨_, rfl, ?_⟩
  have h := Evolves.refl M P s
  refine axUngear_ev _ (hm.of rfl) ?_
  exact h

theorem execAxMasterCount_next (x1 x2 x3 : _) (hm : Sub 0x40010000a000000 M) :
    ∃ t, (execAxMasterCount x1 x2 x3 s) = .next t ∧ Evolves M P s t := by
  refine ⟨_, rfl, ?_⟩
  have h := Evolves.refl M P s
  refine Evolves.ite ?_ ?_
  · refine axCount_ev _ _ (hm.of rfl) ?_
    exact h
  · exact h

theorem execAxStepPulse_next (x1 x2 x3 x4 : _) (hm : Sub 0x40010000a000000 M) :
    ∃ t, (execAxStepPulse x1 x2 x3 x4 s) = .next t ∧ Evolves M P s t := by
  refine ⟨_, rfl, ?_⟩
  have h := Evolves.refl M P s
  refine axPulse_ev _ _ _ _ (hm.of rfl) ?_
  exact h

end Sys2Proof.Machine
end

