-- ==== Sys2Proof/Laws/Flags.lean ====
section
/-! SUPPORT. One lemma per operation of Machine/Flags.lean: the parts of the state it can touch and what it needs of the engines (`Evolves`). -/

namespace Sys2Proof.Machine

variable {M : Nat} {P : Nat → Prop} {a s : State}

theorem dmSet_ev (x1 x2 x3 : _) (hm : Sub 0x2000000000 M) (e1 : P x1.val) (h : Evolves M P a s) :
    Evolves M P a (dmSet x1 x2 x3 s) := by
  unfold dmSet
  refine Evolves.modAnv (hm.bit rfl) e1 ?_
  exact h

theorem accSet_ev (x1 x2 x3 x4 : _) (hm : Sub 0x400002000000100 M) (e1 : P x1.val) (h : Evolves M P a s) :
    Evolves M P a (accSet x1 x2 x3 x4 s) := by
  unfold accSet
  extract_lets +onlyGivenNames y1
  extract_lets +onlyGivenNames y2
  have h3 : Evolves M P a y2 := by
    unfold y2
    refine Evolves.modAnv (hm.bit rfl) e1 ?_
    exact h
  clear_value y2
  refine Evolves.ite ?_ ?_
  · exact h3
  · refine Evolves.raise .anv rfl (hm.bit rfl) e1 (hm.bit rfl) ?_
    refine Evolves.modAnv (hm.bit rfl) e1 ?_
    exact h3

theorem dmStore_ev (x1 x2 x3 x4 : _) (hm : Sub 0x400002000000100 M) (e1 : P x1.val) (h : Evolves M P a s) :
    Evolves M P a (dmStore x1 x2 x3 x4 s) := by
  unfold dmStore
  extract_lets +onlyGivenNames y1
  extract_lets +onlyGivenNames y2
  extract_lets +onlyGivenNames y3
  refine Evolves.ite ?_ ?_
  · exact h
  · extract_lets +onlyGivenNames y4
    have h5 : Evolves M P a y4 := by
      unfold y4
      refine dmSet_ev _ _ _ (hm.of rfl) e1 ?_
      exact h
    clear_value y4
    extract_lets +onlyGivenNames y6
    have h7 : Evolves M P a y6 := by
      unfold y6
      refine Evolves.modAnv (hm.bit rfl) e1 ?_
      exact h5
    clear_value y6
    refine Evolves.ite ?_ ?_
    · refine Evolves.raise .anv rfl (hm.bit rfl) e1 (hm.bit rfl) ?_
      exact h7
    · exact h7

theorem expSet_ev (x1 x2 x3 : _) (hm : Sub 0x400000000000100 M) (e1 : P x1.val) (h : Evolves M P a s) :
    Evolves M P a (expSet x1 x2 x3 s) := by
  unfold expSet
  extract_lets +onlyGivenNames y1
  extract_lets +onlyGivenNames y2
  have h3 : Evolves M P a y2 := by
    unfold y2
    refine Evolves.putInt .anv (Reg.group_anv rfl (by dsimp only [spareRes]; omega)) (hm.bit rfl) e1 ?_
    exact h
  clear_value y2
  refine Evolves.ite ?_ ?_
  · exact h3
  · refine Evolves.raise .anv rfl (hm.bit rfl) e1 (hm.bit rfl) ?_
    exact h3

end Sys2Proof.Machine
end

