-- ==== Sys2Proof/Laws/Seam.lean ====
section
/-! SUPPORT. One lemma per operation of Machine/Seam.lean: the parts of the state it can touch and what it needs of the engines (`Evolves`). -/

namespace Sys2Proof.Machine

variable {M : Nat} {P : Nat → Prop} {a s : State}

theorem altNow_ev (x1 x2 : _) (hm : Sub 0x200 M) (e1 : P x1.val) (h : Evolves M P a s) :
    Evolves M P a (altNow x1 x2 s) := by
  unfold altNow
  refine Evolves.ite ?_ ?_
  · refine Evolves.put .chain rfl (hm.bit rfl) e1 ?_
    exact h
  · exact h

theorem rasShow_ev (x1 : _) (hm : Sub 0x2 M) (e1 : P x1.val) (h : Evolves M P a s) :
    Evolves M P a (rasShow x1 s) := by
  unfold rasShow
  extract_lets +onlyGivenNames y1
  extract_lets +onlyGivenNames y2
  have h3 : Evolves M P a y2 := by
    unfold y2
    refine Evolves.put .seam rfl (hm.bit rfl) e1 ?_
    exact h
  clear_value y2
  extract_lets +onlyGivenNames y4
  have h5 : Evolves M P a y4 := by
    unfold y4
    refine Evolves.put .seam rfl (hm.bit rfl) e1 ?_
    exact h3
  clear_value y4
  refine Evolves.ite ?_ ?_
  · refine Evolves.put .seam rfl (hm.bit rfl) e1 ?_
    exact h5
  · refine Evolves.put .seam rfl (hm.bit rfl) e1 ?_
    exact h5

theorem rasReleaseOne_ev (x1 x2 x3 : _) (hm : Sub 0x40c400a00000012 M) (e1 : P x1.val) (h : Evolves M P a s) :
    Evolves M P a (rasReleaseOne x1 x2 x3 s) := by
  unfold rasReleaseOne
  extract_lets +onlyGivenNames y1
  have h2 : Evolves M P a y1 := by
    unfold y1
    refine Evolves.mqPut (hm.bit rfl) ?_
    exact h
  clear_value y1
  extract_lets +onlyGivenNames y3
  have h4 : Evolves M P a y3 := by
    unfold y3
    split
    · refine Evolves.modSeam (hm.bit rfl) e1 ?_
      exact h2
    · refine Evolves.inc .seam rfl (hm.bit rfl) e1 ?_
      refine Evolves.raise .seam rfl (hm.bit rfl) e1 (hm.bit rfl) ?_
      exact h2
  clear_value y3
  extract_lets +onlyGivenNames y5
  have h6 : Evolves M P a y5 := by
    unfold y5
    split
    · refine Evolves.ite ?_ ?_
      · exact h4
      · refine ladderEnter_ev _ _ _ (hm.of rfl) e1 ?_
        exact h4
    · refine ladderEnter_ev _ _ _ (hm.of rfl) e1 ?_
      exact h4
  clear_value y5
  refine Evolves.ite ?_ ?_
  · refine Evolves.put .seam rfl (hm.bit rfl) e1 ?_
    exact h6
  · refine Evolves.put .seam rfl (hm.bit rfl) e1 ?_
    exact h6

theorem rasReleaseLoop_ev (x1 x2 x3 : _) (hm : Sub 0x40c400a00000012 M) (e1 : P x1.val)
    (h : Evolves M P a s) : Evolves M P a (rasReleaseLoop x1 x2 x3 s) := by
  induction x3 generalizing s with
  | zero => exact h
  | succ n ih =>
    unfold rasReleaseLoop
    refine Evolves.ite ?_ h
    extract_lets c
    split
    · exact ih (rasReleaseOne_ev _ _ _ (hm.of rfl) e1 h)
    · exact h

theorem rasRelease_ev (x1 x2 : _) (hm : Sub 0x40c400a00000012 M) (e1 : P x1.val) (h : Evolves M P a s) :
    Evolves M P a (rasRelease x1 x2 s) := by
  unfold rasRelease
  refine rasShow_ev _ (hm.of rfl) e1 ?_
  refine rasReleaseLoop_ev _ _ _ (hm.of rfl) e1 ?_
  exact h

theorem slotData_ev (x1 x2 x3 : _) (hm : Sub 0x80800000000000 M) (h : Evolves M P a s) :
    Evolves M P a (slotData x1 x2 x3 s) := by
  unfold slotData
  split
  · refine State.ddrSetCluster_ev _ _ (hm.of rfl) ?_
    exact h
  · exact h

theorem rasRefuse_ev (x1 x2 : _) (hm : Sub 0x40c000a00000212 M) (e1 : P x1.val) (h : Evolves M P a s) :
    Evolves M P a (rasRefuse x1 x2 s) := by
  unfold rasRefuse
  extract_lets +onlyGivenNames y1
  have h2 : Evolves M P a y1 := by
    unfold y1
    refine Evolves.raise .seam rfl (hm.bit rfl) e1 (hm.bit rfl) ?_
    refine Evolves.put .seam rfl (hm.bit rfl) e1 ?_
    exact h
  clear_value y1
  extract_lets +onlyGivenNames y3
  have h4 : Evolves M P a y3 := by
    unfold y3
    refine Evolves.modSeam (hm.bit rfl) e1 ?_
    exact h2
  clear_value y3
  extract_lets +onlyGivenNames y5
  have h6 : Evolves M P a y5 := by
    unfold y5
    refine Evolves.ite ?_ ?_
    · refine Evolves.raise .chain rfl (hm.bit rfl) e1 (hm.bit rfl) ?_
      exact h4
    · exact h4
  clear_value y5
  refine ladderEnter_ev _ _ _ (hm.of rfl) e1 ?_
  exact h6

theorem rasHold_ev (x1 x2 x3 : _) (hm : Sub 0x80800200000000 M) (e1 : P x1.val) (h : Evolves M P a s) :
    Evolves M P a (rasHold x1 x2 x3 s) := by
  unfold rasHold
  extract_lets +onlyGivenNames y1
  extract_lets +onlyGivenNames y2
  have h3 : Evolves M P a y2 := by
    unfold y2
    refine Evolves.modSeam (hm.bit rfl) e1 ?_
    exact h
  clear_value y2
  refine slotData_ev _ _ _ (hm.of rfl) ?_
  exact h3

theorem rasAccept_ev (x1 x2 : _) (hm : Sub 0x48cc00a00000212 M) (e1 : P x1.val) (h : Evolves M P a s) :
    Evolves M P a (rasAccept x1 x2 s) := by
  unfold rasAccept
  extract_lets +onlyGivenNames y1
  extract_lets +onlyGivenNames y2
  have h3 : Evolves M P a y2 := by
    unfold y2
    refine Evolves.modSeam (hm.bit rfl) e1 ?_
    exact h
  clear_value y2
  extract_lets +onlyGivenNames y4
  have h5 : Evolves M P a y4 := by
    unfold y4
    refine Evolves.ite ?_ ?_
    · refine Evolves.modAtt (hm.bit rfl) e1 ?_
      exact h3
    · exact h3
  clear_value y4
  extract_lets +onlyGivenNames y6
  have h7 : Evolves M P a y6 := by
    unfold y6
    refine Evolves.ite ?_ ?_
    · exact h5
    · split
      · refine Evolves.ite ?_ ?_
        · refine Evolves.inc .seam rfl (hm.bit rfl) e1 ?_
          exact h5
        · refine Evolves.ite ?_ ?_
          · extract_lets +onlyGivenNames y8
            have h9 : Evolves M P a y8 := by
              unfold y8
              refine Evolves.modSeam (hm.bit rfl) e1 ?_
              exact h5
            clear_value y8
            refine slotData_ev _ _ _ (hm.of rfl) ?_
            exact h9
          · exact h5
      · refine Evolves.ite ?_ ?_
        · exact h5
        · split
          · refine rasHold_ev _ _ _ (hm.of rfl) e1 ?_
            exact h5
          · refine rasRefuse_ev _ _ (hm.of rfl) e1 ?_
            exact h5
  clear_value y6
  refine rasRelease_ev _ _ (hm.of rfl) e1 ?_
  exact h7

theorem stitchGap_ev (x1 x2 : _) (hm : Sub 0x400000200000002 M) (e1 : P x1.val) (h : Evolves M P a s) :
    Evolves M P a (stitchGap x1 x2 s) := by
  unfold stitchGap
  extract_lets +onlyGivenNames y1
  have h2 : Evolves M P a y1 := by
    unfold y1
    refine Evolves.inc .seam rfl (hm.bit rfl) e1 ?_
    refine Evolves.raise .seam rfl (hm.bit rfl) e1 (hm.bit rfl) ?_
    exact h
  clear_value y1
  split
  · refine Evolves.modSeam (hm.bit rfl) e1 ?_
    exact h2
  · exact h2

theorem stitchDrop_ev (x1 x3 : _) (hm : Sub 0x200000000 M) (e1 : P x1.val) (h : Evolves M P a s) :
    Evolves M P a (stitchDrop x1 s x3) := by
  unfold stitchDrop
  refine Evolves.modSeam (hm.bit rfl) e1 ?_
  exact h

theorem partDrop_ev (x1 x2 : _) (hm : Sub 0x280000000 M) (e1 : P x1.val) (h : Evolves M P a s) :
    Evolves M P a (partDrop x1 x2 s) := by
  unfold partDrop
  split
  · refine stitchDrop_ev _ _ (hm.of rfl) e1 ?_
    refine Evolves.modCh (hm.bit rfl) e1 ?_
    exact h
  · exact h

theorem stitchJoin_ev (x1 x2 : _) (hm : Sub 0x400000200000002 M) (e1 : P x1.val) (h : Evolves M P a s) :
    Evolves M P a (stitchJoin x1 x2 s) := by
  unfold stitchJoin
  split
  · refine stitchDrop_ev _ _ (hm.of rfl) e1 ?_
    refine stitchGap_ev _ _ (hm.of rfl) e1 ?_
    exact h
  · split
    · refine stitchDrop_ev _ _ (hm.of rfl) e1 ?_
      refine stitchGap_ev _ _ (hm.of rfl) e1 ?_
      exact h
    · extract_lets +onlyGivenNames y1
      have h2 : Evolves M P a y1 := by
        unfold y1
        refine Evolves.modSeam (hm.bit rfl) e1 ?_
        exact h
      clear_value y1
      split
      · refine stitchDrop_ev _ _ (hm.of rfl) e1 ?_
        refine stitchGap_ev _ _ (hm.of rfl) e1 ?_
        exact h2
      · extract_lets +onlyGivenNames y3
        refine Evolves.modSeam (hm.bit rfl) e1 ?_
        exact h2

theorem storePart_ev (x1 x2 x3 : _) (hm : Sub 0x80800000000000 M) (h : Evolves M P a s) :
    Evolves M P a (storePart x1 x2 x3 s) := by
  unfold storePart
  refine State.ddrPutBytes_ev _ _ (hm.of rfl) ?_
  exact h

theorem endHead_ev (x1 x2 : _) (hm : Sub 0x480801280000002 M) (e1 : P x1.val) (h : Evolves M P a s) :
    Evolves M P a (endHead x1 x2 s) := by
  unfold endHead
  extract_lets +onlyGivenNames y1
  extract_lets +onlyGivenNames y2
  refine Evolves.ite ?_ ?_
  · extract_lets +onlyGivenNames y3
    have h4 : Evolves M P a y3 := by
      unfold y3
      refine Evolves.modCh (hm.bit rfl) e1 ?_
      exact h
    clear_value y3
    extract_lets +onlyGivenNames y5
    have h6 : Evolves M P a y5 := by
      unfold y5
      refine Evolves.modTmp (hm.bit rfl) e1 ?_
      exact h4
    clear_value y5
    extract_lets +onlyGivenNames y7
    have h8 : Evolves M P a y7 := by
      unfold y7
      split
      · refine Evolves.modSeam (hm.bit rfl) e1 ?_
        exact h6
      · exact h6
    clear_value y7
    split
    · refine stitchGap_ev _ _ (hm.of rfl) e1 ?_
      exact h8
    · extract_lets +onlyGivenNames y9
      have h10 : Evolves M P a y9 := by
        unfold y9
        refine storePart_ev _ _ _ (hm.of rfl) ?_
        refine Evolves.modSeam (hm.bit rfl) e1 ?_
        exact h8
      clear_value y9
      refine stitchJoin_ev _ _ (hm.of rfl) e1 ?_
      exact h10
  · refine partDrop_ev _ _ (hm.of rfl) e1 ?_
    exact h

theorem dropTails_ev (x1 : _) (hm : Sub 0x400000200000002 M) (e1 : P x1.val) (h : Evolves M P a s) :
    Evolves M P a (dropTails x1 s) := by
  unfold dropTails
  extract_lets +onlyGivenNames y1
  extract_lets +onlyGivenNames y2
  have h3 : Evolves M P a y2 := by
    unfold y2
    refine Evolves.foldl _ (fun s4 x5 h6 => ?_) ?_
    · refine stitchGap_ev _ _ (hm.of rfl) e1 ?_
      exact h6
    · exact h
  clear_value y2
  refine Evolves.modSeam (hm.bit rfl) e1 ?_
  exact h3

theorem endHeads_ev (x1 : _) (hm : Sub 0x480801280000002 M) (e1 : P x1.val) (h : Evolves M P a s) :
    Evolves M P a (endHeads x1 s) := by
  unfold endHeads
  refine dropTails_ev _ (hm.of rfl) e1 ?_
  refine Evolves.foldl _ (fun s1 x2 h3 => ?_) ?_
  · refine endHead_ev _ _ (hm.of rfl) e1 ?_
    exact h3
  · exact h

theorem passCopies_ev (x1 : _) (hm : Sub 0x200000000 M) (e1 : P x1.val) (h : Evolves M P a s) :
    Evolves M P a (passCopies x1 s) := by
  unfold passCopies
  refine Evolves.modSeam (hm.bit rfl) e1 ?_
  exact h

theorem chainHold_ev (x1 x2 x3 : _) (hm : Sub 0x80000200 M) (e1 : P x1.val) (h : Evolves M P a s) :
    Evolves M P a (chainHold x1 x2 x3 s) := by
  unfold chainHold
  extract_lets +onlyGivenNames y1
  have h2 : Evolves M P a y1 := by
    unfold y1
    refine Evolves.modCh (hm.bit rfl) e1 ?_
    exact h
  clear_value y1
  refine Evolves.ite ?_ ?_
  · exact h2
  · refine altNow_ev _ _ (hm.of rfl) e1 ?_
    refine Evolves.put .chain rfl (hm.bit rfl) e1 ?_
    refine Evolves.put .chain rfl (hm.bit rfl) e1 ?_
    exact h2

theorem setHold_ev (x1 x2 : _) (hm : Sub 0x80000200 M) (e1 : P x1.val) (h : Evolves M P a s) :
    Evolves M P a (setHold x1 x2 s) := by
  unfold setHold
  refine Evolves.foldl _ (fun s1 x2 h3 => ?_) ?_
  · refine chainHold_ev _ _ _ (hm.of rfl) e1 ?_
    exact h3
  · exact h

theorem holdMove_ev (x1 x2 x3 : _) (hm : Sub 0x80000200 M) (e1 : P x1.val) (h : Evolves M P a s) :
    Evolves M P a (holdMove x1 x2 x3 s) := by
  unfold holdMove
  refine Evolves.ite ?_ ?_
  · refine chainHold_ev _ _ _ (hm.of rfl) e1 ?_
    refine chainHold_ev _ _ _ (hm.of rfl) e1 ?_
    exact h
  · exact h

theorem seamEnd_ev (x1 : _) (hm : Sub 0x40c400a00000012 M) (e1 : P x1.val) (h : Evolves M P a s) :
    Evolves M P a (seamEnd x1 s) := by
  unfold seamEnd
  extract_lets +onlyGivenNames y1
  have h2 : Evolves M P a y1 := by
    unfold y1
    refine Evolves.raise .seam rfl (hm.bit rfl) e1 (hm.bit rfl) ?_
    refine Evolves.put .seam rfl (hm.bit rfl) e1 ?_
    exact h
  clear_value y1
  extract_lets +onlyGivenNames y3
  have h4 : Evolves M P a y3 := by
    unfold y3
    refine Evolves.put .seam rfl (hm.bit rfl) e1 ?_
    exact h2
  clear_value y3
  extract_lets +onlyGivenNames y5
  have h6 : Evolves M P a y5 := by
    unfold y5
    refine dropTails_ev _ (hm.of rfl) e1 ?_
    exact h4
  clear_value y5
  extract_lets +onlyGivenNames y7
  have h8 : Evolves M P a y7 := by
    unfold y7
    refine rasRelease_ev _ _ (hm.of rfl) e1 ?_
    exact h6
  clear_value y7
  refine Evolves.modSeam (hm.bit rfl) e1 ?_
  exact h8

theorem seamCross_ev (x1 : _) (hm : Sub 0x400000200000082 M) (e1 : P x1.val) (h : Evolves M P a s) :
    Evolves M P a (seamCross x1 s) := by
  unfold seamCross
  refine Evolves.ite ?_ ?_
  · exact h
  · extract_lets +onlyGivenNames y1
    have h2 : Evolves M P a y1 := by
      unfold y1
      refine Evolves.ite ?_ ?_
      · refine slgTurns_ev _ _ (hm.of rfl) e1 ?_
        refine Evolves.raise .seam rfl (hm.bit rfl) e1 (hm.bit rfl) ?_
        exact h
      · exact h
    clear_value y1
    extract_lets +onlyGivenNames y3
    have h4 : Evolves M P a y3 := by
      unfold y3
      refine Evolves.incWrap .seam rfl (hm.bit rfl) e1 ?_
      refine Evolves.put .seam rfl (hm.bit rfl) e1 ?_
      exact h2
    clear_value y3
    extract_lets +onlyGivenNames y5
    refine Evolves.modSeam (hm.bit rfl) e1 ?_
    exact h4

theorem seamWindow_ev (x1 x2 : _) (hm : Sub 0x48cc01a80000212 M) (e1 : P x1.val) (h : Evolves M P a s) :
    Evolves M P a (seamWindow x1 x2 s) := by
  unfold seamWindow
  refine Evolves.ite ?_ ?_
  · exact h
  · extract_lets +onlyGivenNames y1
    extract_lets +onlyGivenNames y2
    have h3 : Evolves M P a y2 := by
      unfold y2
      refine Evolves.modSeam (hm.bit rfl) e1 ?_
      exact h
    clear_value y2
    extract_lets +onlyGivenNames y4
    have h5 : Evolves M P a y4 := by
      unfold y4
      refine passCopies_ev _ (hm.of rfl) e1 ?_
      exact h3
    clear_value y4
    refine Evolves.ite ?_ ?_
    · refine rasRelease_ev _ _ (hm.of rfl) e1 ?_
      refine Evolves.put .seam rfl (hm.bit rfl) e1 ?_
      refine Evolves.put .seam rfl (hm.bit rfl) e1 ?_
      refine Evolves.put .seam rfl (hm.bit rfl) e1 ?_
      exact h5
    · refine Evolves.ite ?_ ?_
      · refine rasRelease_ev _ _ (hm.of rfl) e1 ?_
        refine Evolves.put .seam rfl (hm.bit rfl) e1 ?_
        refine Evolves.put .seam rfl (hm.bit rfl) e1 ?_
        exact h5
      · refine Evolves.ite ?_ ?_
        · extract_lets +onlyGivenNames y6
          have h7 : Evolves M P a y6 := by
            unfold y6
            refine endHeads_ev _ (hm.of rfl) e1 ?_
            exact h5
          clear_value y6
          extract_lets +onlyGivenNames y8
          have h9 : Evolves M P a y8 := by
            unfold y8
            refine setHold_ev _ _ (hm.of rfl) e1 ?_
            refine Evolves.modSeam (hm.bit rfl) e1 ?_
            refine Evolves.put .seam rfl (hm.bit rfl) e1 ?_
            exact h7
          clear_value y8
          refine rasRelease_ev _ _ (hm.of rfl) e1 ?_
          exact h9
        · refine Evolves.ite ?_ ?_
          · refine seamEnd_ev _ (hm.of rfl) e1 ?_
            refine endHeads_ev _ (hm.of rfl) e1 ?_
            refine Evolves.put .seam rfl (hm.bit rfl) e1 ?_
            exact h5
          · refine rasRelease_ev _ _ (hm.of rfl) e1 ?_
            refine Evolves.put .seam rfl (hm.bit rfl) e1 ?_
            exact h5

theorem recordJs_ev (x1 x2 : _) (hm : Sub 0x2 M) (e1 : P x1.val) (h : Evolves M P a s) :
    Evolves M P a (recordJs x1 x2 s) := by
  unfold recordJs
  extract_lets +onlyGivenNames y1
  refine Evolves.put .seam rfl (hm.bit rfl) e1 ?_
  refine Evolves.put .seam rfl (hm.bit rfl) e1 ?_
  exact h

theorem seamServo_ev (x1 x2 : _) (hm : Sub 0x200000000 M) (e1 : P x1.val) (h : Evolves M P a s) :
    Evolves M P a (seamServo x1 x2 s) := by
  unfold seamServo
  extract_lets +onlyGivenNames y1
  refine Evolves.ite ?_ ?_
  · refine Evolves.modSeam (hm.bit rfl) e1 ?_
    exact h
  · exact h

theorem seamSettle_ev (x1 x2 : _) (hm : Sub 0x80000202 M) (e1 : P x1.val) (h : Evolves M P a s) :
    Evolves M P a (seamSettle x1 x2 s) := by
  unfold seamSettle
  refine Evolves.ite ?_ ?_
  · extract_lets +onlyGivenNames y1
    have h2 : Evolves M P a y1 := by
      unfold y1
      refine Evolves.put .seam rfl (hm.bit rfl) e1 ?_
      refine Evolves.put .seam rfl (hm.bit rfl) e1 ?_
      exact h
    clear_value y1
    refine setHold_ev _ _ (hm.of rfl) e1 ?_
    refine recordJs_ev _ _ (hm.of rfl) e1 ?_
    exact h2
  · exact h

theorem seamLateOp_ev (x1 x2 : _) (hm : Sub 0x400000200000002 M) (e1 : P x1.val) (h : Evolves M P a s) :
    Evolves M P a (seamLateOp x1 x2 s) := by
  unfold seamLateOp
  refine Evolves.ite ?_ ?_
  · refine recordJs_ev _ _ (hm.of rfl) e1 ?_
    refine Evolves.modSeam (hm.bit rfl) e1 ?_
    refine Evolves.raise .seam rfl (hm.bit rfl) e1 (hm.bit rfl) ?_
    exact h
  · exact h

theorem seamStart_ev (x1 : _) (hm : Sub 0x200000082 M) (e1 : P x1.val) (h : Evolves M P a s) :
    Evolves M P a (seamStart x1 s) := by
  unfold seamStart
  refine Evolves.ite ?_ ?_
  · extract_lets +onlyGivenNames y1
    have h2 : Evolves M P a y1 := by
      unfold y1
      refine Evolves.put .seam rfl (hm.bit rfl) e1 ?_
      refine Evolves.put .seam rfl (hm.bit rfl) e1 ?_
      exact h
    clear_value y1
    extract_lets +onlyGivenNames y3
    have h4 : Evolves M P a y3 := by
      unfold y3
      refine Evolves.put .seam rfl (hm.bit rfl) e1 ?_
      refine Evolves.put .seam rfl (hm.bit rfl) e1 ?_
      exact h2
    clear_value y3
    extract_lets +onlyGivenNames y5
    have h6 : Evolves M P a y5 := by
      unfold y5
      refine slgTurns_ev _ _ (hm.of rfl) e1 ?_
      refine Evolves.put .seam rfl (hm.bit rfl) e1 ?_
      refine Evolves.put .seam rfl (hm.bit rfl) e1 ?_
      exact h4
    clear_value y5
    refine Evolves.modSeam (hm.bit rfl) e1 ?_
    exact h6
  · exact h

theorem seamCfgWrite_ev (x1 x2 : _) (hm : Sub 0x2 M) (e1 : P x1.val) (h : Evolves M P a s) :
    Evolves M P a (seamCfgWrite x1 x2 s) := by
  unfold seamCfgWrite
  extract_lets +onlyGivenNames y1
  have h2 : Evolves M P a y1 := by
    unfold y1
    refine Evolves.put .seam rfl (hm.bit rfl) e1 ?_
    exact h
  clear_value y1
  refine Evolves.ite ?_ ?_
  · refine Evolves.put .seam rfl (hm.bit rfl) e1 ?_
    refine Evolves.put .seam rfl (hm.bit rfl) e1 ?_
    exact h2
  · exact h2

theorem seamStop_ev (x1 : _) (hm : Sub 0x200000082 M) (e1 : P x1.val) (h : Evolves M P a s) :
    Evolves M P a (seamStop x1 s) := by
  unfold seamStop
  extract_lets +onlyGivenNames y1
  have h2 : Evolves M P a y1 := by
    unfold y1
    refine Evolves.put .seam rfl (hm.bit rfl) e1 ?_
    exact h
  clear_value y1
  refine Evolves.ite ?_ ?_
  · refine slgTurns_ev _ _ (hm.of rfl) e1 ?_
    refine Evolves.modSeam (hm.bit rfl) e1 ?_
    refine Evolves.put .seam rfl (hm.bit rfl) e1 ?_
    exact h2
  · exact h2

theorem seamCntClear_ev (x1 x2 : _) (hm : Sub 0x2 M) (e1 : P x1.val) (h : Evolves M P a s) :
    Evolves M P a (seamCntClear x1 x2 s) := by
  unfold seamCntClear
  extract_lets +onlyGivenNames y1
  have h2 : Evolves M P a y1 := by
    unfold y1
    refine Evolves.wrE .seam rfl (hm.bit rfl) e1 ?_
    exact h
  clear_value y1
  extract_lets +onlyGivenNames y3
  have h4 : Evolves M P a y3 := by
    unfold y3
    refine Evolves.put .seam rfl (hm.bit rfl) e1 ?_
    exact h2
  clear_value y3
  extract_lets +onlyGivenNames y5
  have h6 : Evolves M P a y5 := by
    unfold y5
    refine Evolves.put .seam rfl (hm.bit rfl) e1 ?_
    exact h4
  clear_value y5
  extract_lets +onlyGivenNames y7
  have h8 : Evolves M P a y7 := by
    unfold y7
    refine Evolves.put .seam rfl (hm.bit rfl) e1 ?_
    exact h6
  clear_value y7
  extract_lets +onlyGivenNames y9
  have h10 : Evolves M P a y9 := by
    unfold y9
    refine Evolves.put .seam rfl (hm.bit rfl) e1 ?_
    exact h8
  clear_value y9
  refine Evolves.put .seam rfl (hm.bit rfl) e1 ?_
  exact h10

theorem rasFreeSlot_ev (x1 x2 : _) (hm : Sub 0x200000002 M) (e1 : P x1.val) (h : Evolves M P a s) :
    Evolves M P a (rasFreeSlot x1 x2 s) := by
  unfold rasFreeSlot
  refine Evolves.ite ?_ ?_
  · refine rasShow_ev _ (hm.of rfl) e1 ?_
    refine Evolves.modSeam (hm.bit rfl) e1 ?_
    exact h
  · refine Evolves.put .seam rfl (hm.bit rfl) e1 ?_
    exact h

theorem execSeamSettled_next (x1 x2 : _) (hm : Sub 0x80000202 M) (e1 : P x1.val) :
    ∃ t, (execSeamSettled x1 x2 s) = .next t ∧ Evolves M P s t := by
  refine ⟨_, rfl, ?_⟩
  have h := Evolves.refl M P s
  refine seamSettle_ev _ _ (hm.of rfl) e1 ?_
  exact h

theorem execSeamLate_next (x1 x2 : _) (hm : Sub 0x400000200000002 M) (e1 : P x1.val) :
    ∃ t, (execSeamLate x1 x2 s) = .next t ∧ Evolves M P s t := by
  refine ⟨_, rfl, ?_⟩
  have h := Evolves.refl M P s
  refine seamLateOp_ev _ _ (hm.of rfl) e1 ?_
  exact h

theorem execSeamRun_next (x1 : _) (hm : Sub 0x200000082 M) (e1 : P x1.val) :
    ∃ t, (execSeamRun x1 s) = .next t ∧ Evolves M P s t := by
  refine ⟨_, rfl, ?_⟩
  have h := Evolves.refl M P s
  refine seamStart_ev _ (hm.of rfl) e1 ?_
  exact h

theorem execSeamClose_next (x1 : _) (hm : Sub 0x200000082 M) (e1 : P x1.val) :
    ∃ t, (execSeamClose x1 s) = .next t ∧ Evolves M P s t := by
  refine ⟨_, rfl, ?_⟩
  have h := Evolves.refl M P s
  refine seamStop_ev _ (hm.of rfl) e1 ?_
  exact h

theorem execSeamCntClr_next (x1 x2 : _) (hm : Sub 0x2 M) (e1 : P x1.val) :
    ∃ t, (execSeamCntClr x1 x2 s) = .next t ∧ Evolves M P s t := by
  refine ⟨_, rfl, ?_⟩
  have h := Evolves.refl M P s
  refine seamCntClear_ev _ _ (hm.of rfl) e1 ?_
  exact h

theorem execRasFree_next (x1 x2 : _) (hm : Sub 0x200000002 M) (e1 : P x1.val) :
    ∃ t, (execRasFree x1 x2 s) = .next t ∧ Evolves M P s t := by
  refine ⟨_, rfl, ?_⟩
  have h := Evolves.refl M P s
  refine rasFreeSlot_ev _ _ (hm.of rfl) e1 ?_
  exact h

end Sys2Proof.Machine
end

