-- ==== Sys2Proof/Laws/Dsp.lean ====
section
/-! SUPPORT. One lemma per operation of Machine/Dsp.lean: the parts of the state it can touch and what it needs of the engines (`Evolves`). -/

namespace Sys2Proof.Machine

variable {M : Nat} {P : Nat → Prop} {a s : State}

theorem feedStream_ev (x1 x2 x3 : _) (hm : Sub 0x80000000 M) (e1 : P x1.val) (h : Evolves M P a s) :
    Evolves M P a (feedStream x1 x2 x3 s) := by
  unfold feedStream
  refine Evolves.foldl _ (fun s1 x2 h3 => ?_) ?_
  · refine Evolves.ite ?_ ?_
    · refine Evolves.foldl _ (fun s4 x5 h6 => ?_) ?_
      · refine Evolves.ite ?_ ?_
        · extract_lets +onlyGivenNames y7
          extract_lets +onlyGivenNames y8
          refine Evolves.modCh (hm.bit rfl) e1 ?_
          exact h6
        · exact h6
      · exact h3
    · exact h3
  · exact h

theorem storeTaps_ev (x1 x2 x3 : _) (hm : Sub 0x200 M) (e1 : P x1.val) (h : Evolves M P a s) :
    Evolves M P a (storeTaps x1 x2 x3 s) := by
  unfold storeTaps
  extract_lets +onlyGivenNames y1
  have h2 : Evolves M P a y1 := by
    unfold y1
    refine Evolves.foldl _ (fun s3 x4 h5 => ?_) ?_
    · refine Evolves.foldl _ (fun s6 x7 h8 => ?_) ?_
      · refine Evolves.putInt .chain rfl (hm.bit rfl) e1 ?_
        exact h8
      · exact h5
    · exact h
  clear_value y1
  refine Evolves.ite ?_ ?_
  · refine Evolves.foldl _ (fun s9 x10 h11 => ?_) ?_
    · refine Evolves.putInt .chain rfl (hm.bit rfl) e1 ?_
      exact h11
    · exact h2
  · refine Evolves.foldl _ (fun s12 x13 h14 => ?_) ?_
    · refine Evolves.putInt .chain rfl (hm.bit rfl) e1 ?_
      exact h14
    · exact h2

theorem timingShow_ev (x1 x2 : _) (hm : Sub 0x80000200 M) (e1 : P x1.val) (h : Evolves M P a s) :
    Evolves M P a (timingShow x1 x2 s) := by
  unfold timingShow
  extract_lets +onlyGivenNames y1
  extract_lets +onlyGivenNames y2
  extract_lets +onlyGivenNames y3
  have h4 : Evolves M P a y3 := by
    unfold y3
    refine Evolves.put .chain rfl (hm.bit rfl) e1 ?_
    exact h
  clear_value y3
  extract_lets +onlyGivenNames y5
  have h6 : Evolves M P a y5 := by
    unfold y5
    refine Evolves.ite ?_ ?_
    · refine Evolves.putBool .chain rfl (hm.bit rfl) e1 ?_
      exact h4
    · exact h4
  clear_value y5
  extract_lets +onlyGivenNames y7
  have h8 : Evolves M P a y7 := by
    unfold y7
    refine Evolves.ite ?_ ?_
    · refine Evolves.put .chain rfl (hm.bit rfl) e1 ?_
      exact h6
    · exact h6
  clear_value y7
  refine Evolves.modCh (hm.bit rfl) e1 ?_
  exact h8

theorem chainBits_ev (x1 x2 : _) (hm : Sub 0x400000080000200 M) (e1 : P x1.val) (h : Evolves M P a s) :
    Evolves M P a (chainBits x1 x2 s) := by
  unfold chainBits
  refine Evolves.ite ?_ ?_
  · extract_lets +onlyGivenNames y1
    extract_lets +onlyGivenNames y2
    extract_lets +onlyGivenNames y3
    extract_lets +onlyGivenNames y4
    extract_lets +onlyGivenNames y5
    have h6 : Evolves M P a y5 := by
      unfold y5
      refine Evolves.modCh (hm.bit rfl) e1 ?_
      exact h
    clear_value y5
    extract_lets +onlyGivenNames y7
    have h8 : Evolves M P a y7 := by
      unfold y7
      refine storeTaps_ev _ _ _ (hm.of rfl) e1 ?_
      exact h6
    clear_value y7
    extract_lets +onlyGivenNames y9
    have h10 : Evolves M P a y9 := by
      unfold y9
      refine Evolves.ite ?_ ?_
      · refine Evolves.raise .chain rfl (hm.bit rfl) e1 (hm.bit rfl) ?_
        exact h8
      · exact h8
    clear_value y9
    refine timingShow_ev _ _ (hm.of rfl) e1 ?_
    exact h10
  · exact h

theorem replayPlay_ev (x1 : _) (hm : Sub 0x80000200 M) (e1 : P x1.val) (h : Evolves M P a s) :
    Evolves M P a (replayPlay x1 s) := by
  unfold replayPlay
  refine Evolves.ite ?_ ?_
  · refine Evolves.modCh (hm.bit rfl) e1 ?_
    refine Evolves.put .chain rfl (hm.bit rfl) e1 ?_
    refine Evolves.put .chain rfl (hm.bit rfl) e1 ?_
    exact h
  · exact h

theorem chValue_ev (x1 x2 x3 x4 : _) (hm : Sub 0xbfffffff M) (hall : ∀ n, P n) (h : Evolves M P a s) :
    Evolves M P a (chValue x1 x2 x3 x4 s) := by
  unfold chValue
  extract_lets +onlyGivenNames y1
  extract_lets +onlyGivenNames y2
  have h3 : Evolves M P a y2 := by
    unfold y2
    refine State.wrTyped_ev _ _ _ (hm.of rfl) hall ?_
    exact h
  clear_value y2
  refine Evolves.ite ?_ ?_
  · refine Evolves.modCh (hm.bit rfl) (hall _) ?_
    exact h3
  · exact h3

theorem capArm_ev (x1 x2 : _) (hm : Sub 0x200 M) (e1 : P x1.val) (h : Evolves M P a s) :
    Evolves M P a (capArm x1 x2 s) := by
  unfold capArm
  refine Evolves.put .chain rfl (hm.bit rfl) e1 ?_
  refine Evolves.put .chain rfl (hm.bit rfl) e1 ?_
  exact h

theorem chainSearch_ev (x1 x2 : _) (hm : Sub 0x280000200 M) (e1 : P x1.val) (h : Evolves M P a s) :
    Evolves M P a (chainSearch x1 x2 s) := by
  unfold chainSearch
  refine Evolves.modCh (hm.bit rfl) e1 ?_
  refine altNow_ev _ _ (hm.of rfl) e1 ?_
  refine Evolves.put .chain rfl (hm.bit rfl) e1 ?_
  refine Evolves.put .chain rfl (hm.bit rfl) e1 ?_
  refine partDrop_ev _ _ (hm.of rfl) e1 ?_
  exact h

theorem chainReset_ev (x1 x2 : _) (hm : Sub 0x280000200 M) (e1 : P x1.val) (h : Evolves M P a s) :
    Evolves M P a (chainReset x1 x2 s) := by
  unfold chainReset
  extract_lets +onlyGivenNames y1
  have h2 : Evolves M P a y1 := by
    unfold y1
    refine Evolves.put .chain rfl (hm.bit rfl) e1 ?_
    refine Evolves.put .chain rfl (hm.bit rfl) e1 ?_
    refine chainSearch_ev _ _ (hm.of rfl) e1 ?_
    exact h
  clear_value y1
  refine Evolves.modCh (hm.bit rfl) e1 ?_
  exact h2

end Sys2Proof.Machine
end

