-- ==== Sys2Proof/Laws/WritePath.lean ====
section
/-! SUPPORT. One lemma per operation of Machine/WritePath.lean: the parts of the state it can touch and what it needs of the engines (`Evolves`). -/

namespace Sys2Proof.Machine

variable {M : Nat} {P : Nat → Prop} {a s : State}

theorem wrRoles_ev (x1 x2 : _) (hm : Sub 0x280000200 M) (e1 : P x1.val) (h : Evolves M P a s) :
    Evolves M P a (wrRoles x1 x2 s) := by
  unfold wrRoles
  extract_lets +onlyGivenNames y1
  extract_lets +onlyGivenNames y2
  have h3 : Evolves M P a y2 := by
    unfold y2
    refine Evolves.ite ?_ ?_
    · refine chainSearch_ev _ _ (hm.of rfl) e1 ?_
      exact h
    · exact h
  clear_value y2
  extract_lets +onlyGivenNames y4
  have h5 : Evolves M P a y4 := by
    unfold y4
    refine Evolves.modCh (hm.bit rfl) e1 ?_
    exact h3
  clear_value y4
  extract_lets +onlyGivenNames y6
  have h7 : Evolves M P a y6 := by
    unfold y6
    refine Evolves.modCh (hm.bit rfl) e1 ?_
    exact h5
  clear_value y6
  extract_lets +onlyGivenNames y8
  have h9 : Evolves M P a y8 := by
    unfold y8
    refine Evolves.modCh (hm.bit rfl) e1 ?_
    exact h7
  clear_value y8
  extract_lets +onlyGivenNames y10
  have h11 : Evolves M P a y10 := by
    unfold y10
    refine Evolves.ite ?_ ?_
    · refine chainReset_ev _ _ (hm.of rfl) e1 ?_
      exact h9
    · exact h9
  clear_value y10
  refine Evolves.modCh (hm.bit rfl) e1 ?_
  exact h11

theorem wrToIdle_ev (x1 : _) (hm : Sub 0x6c0000204 M) (e1 : P x1.val) (h : Evolves M P a s) :
    Evolves M P a (wrToIdle x1 s) := by
  unfold wrToIdle
  extract_lets +onlyGivenNames y1
  have h2 : Evolves M P a y1 := by
    unfold y1
    refine Evolves.put .wr rfl (hm.bit rfl) e1 ?_
    refine Evolves.put .wr rfl (hm.bit rfl) e1 ?_
    refine Evolves.put .wr rfl (hm.bit rfl) e1 ?_
    exact h
  clear_value y1
  extract_lets +onlyGivenNames y3
  have h4 : Evolves M P a y3 := by
    unfold y3
    refine Evolves.modHl (hm.bit rfl) e1 ?_
    exact h2
  clear_value y3
  refine wrRoles_ev _ _ (hm.of rfl) e1 ?_
  refine Evolves.modWr (hm.bit rfl) e1 ?_
  exact h4

theorem wrBegin_ev (x1 x2 : _) (hm : Sub 0x680000284 M) (e1 : P x1.val) (h : Evolves M P a s) :
    Evolves M P a (wrBegin x1 x2 s) := by
  unfold wrBegin
  extract_lets +onlyGivenNames y1
  have h2 : Evolves M P a y1 := by
    unfold y1
    refine Evolves.put .wr rfl (hm.bit rfl) e1 ?_
    refine Evolves.put .wr rfl (hm.bit rfl) e1 ?_
    exact h
  clear_value y1
  extract_lets +onlyGivenNames y3
  have h4 : Evolves M P a y3 := by
    unfold y3
    refine slgTurns_ev _ _ (hm.of rfl) e1 ?_
    refine wrRoles_ev _ _ (hm.of rfl) e1 ?_
    exact h2
  clear_value y3
  refine Evolves.modWr (hm.bit rfl) e1 ?_
  exact h4

theorem wrGo_ev (x1 : _) (hm : Sub 0x400000680000284 M) (e1 : P x1.val) (h : Evolves M P a s) :
    Evolves M P a (wrGo x1 s) := by
  unfold wrGo
  refine Evolves.ite ?_ ?_
  · refine wrBegin_ev _ _ (hm.of rfl) e1 ?_
    exact h
  · refine Evolves.raise .wr rfl (hm.bit rfl) e1 (hm.bit rfl) ?_
    exact h

theorem wrOpcStart_ev (x1 : _) (hm : Sub 0x400000680000284 M) (e1 : P x1.val) (h : Evolves M P a s) :
    Evolves M P a (wrOpcStart x1 s) := by
  unfold wrOpcStart
  refine Evolves.ite ?_ ?_
  · refine wrBegin_ev _ _ (hm.of rfl) e1 ?_
    exact h
  · refine Evolves.raise .wr rfl (hm.bit rfl) e1 (hm.bit rfl) ?_
    exact h

theorem wrPost_ev (x1 x2 : _) (hm : Sub 0x4400400000004 M) (e1 : P x1.val) (h : Evolves M P a s) :
    Evolves M P a (wrPost x1 x2 s) := by
  induction x2 generalizing s with
  | zero => exact h
  | succ n ih =>
    unfold wrPost
    split
    · split
      · extract_lets t1 t2 t3 t4
        have h1 : Evolves M P a t1 := h.mqPut (hm.bit rfl)
        have h2 : Evolves M P a t2 := h1.put .wr rfl (hm.bit rfl) e1
        have h3 : Evolves M P a t3 := h2.put .wr rfl (hm.bit rfl) e1
        have h4 : Evolves M P a t4 := h3.modWr (hm.bit rfl) e1
        exact ih (h4.note (hm.bit rfl))
      · exact h
    · exact h

theorem wrDrain_ev (x1 : _) (hm : Sub 0x4044006c0000204 M) (e1 : P x1.val) (h : Evolves M P a s) :
    Evolves M P a (wrDrain x1 s) := by
  unfold wrDrain
  extract_lets +onlyGivenNames y1
  have h2 : Evolves M P a y1 := by
    unfold y1
    refine wrPost_ev _ _ (hm.of rfl) e1 ?_
    exact h
  clear_value y1
  refine Evolves.ite ?_ ?_
  · extract_lets +onlyGivenNames y3
    have h4 : Evolves M P a y3 := by
      unfold y3
      refine Evolves.ite ?_ ?_
      · exact h2
      · refine Evolves.raise .wr rfl (hm.bit rfl) e1 (hm.bit rfl) ?_
        exact h2
    clear_value y3
    refine wrToIdle_ev _ (hm.of rfl) e1 ?_
    exact h4
  · exact h2

theorem wrUnverify_ev (x1 : _) (hm : Sub 0x40c400ec0000214 M) (e1 : P x1.val) (h : Evolves M P a s) :
    Evolves M P a (wrUnverify x1 s) := by
  unfold wrUnverify
  extract_lets +onlyGivenNames y1
  extract_lets +onlyGivenNames y2
  have h3 : Evolves M P a y2 := by
    unfold y2
    refine Evolves.modWr (hm.bit rfl) e1 ?_
    exact h
  clear_value y2
  extract_lets +onlyGivenNames y4
  have h5 : Evolves M P a y4 := by
    unfold y4
    refine Evolves.foldl _ (fun s6 x7 h8 => ?_) ?_
    · refine ladderEnter_ev _ _ _ (hm.of rfl) e1 ?_
      exact h8
    · exact h3
  clear_value y4
  refine wrDrain_ev _ (hm.of rfl) e1 ?_
  exact h5

theorem gateClose_ev (x1 x2 : _) (hm : Sub 0x40000004 M) (e1 : P x1.val) (h : Evolves M P a s) :
    Evolves M P a (gateClose x1 x2 s) := by
  unfold gateClose
  extract_lets +onlyGivenNames y1
  have h2 : Evolves M P a y1 := by
    unfold y1
    refine pushWord_ev _ _ (hm.of rfl) e1 ?_
    exact h
  clear_value y1
  extract_lets +onlyGivenNames y3
  have h4 : Evolves M P a y3 := by
    unfold y3
    refine Evolves.modHl (hm.bit rfl) e1 ?_
    refine Evolves.put .wr rfl (hm.bit rfl) e1 ?_
    exact h2
  clear_value y3
  refine sendLevels_ev _ (hm.of rfl) e1 ?_
  exact h4

theorem wrAbort_ev (x1 x2 : _) (hm : Sub 0x40c400ec0000214 M) (e1 : P x1.val) (h : Evolves M P a s) :
    Evolves M P a (wrAbort x1 x2 s) := by
  unfold wrAbort
  refine Evolves.ite ?_ ?_
  · exact h
  · extract_lets +onlyGivenNames y1
    have h2 : Evolves M P a y1 := by
      unfold y1
      refine Evolves.ite ?_ ?_
      · refine Evolves.put .wr rfl (hm.bit rfl) e1 ?_
        exact h
      · refine gateClose_ev _ _ (hm.of rfl) e1 ?_
        exact h
    clear_value y1
    extract_lets +onlyGivenNames y3
    have h4 : Evolves M P a y3 := by
      unfold y3
      refine Evolves.modHl (hm.bit rfl) e1 ?_
      refine Evolves.put .wr rfl (hm.bit rfl) e1 ?_
      exact h2
    clear_value y3
    extract_lets +onlyGivenNames y5
    have h6 : Evolves M P a y5 := by
      unfold y5
      refine Evolves.report (hm.bit rfl) ?_
      refine Evolves.inc .wr rfl (hm.bit rfl) e1 ?_
      refine Evolves.raise .wr rfl (hm.bit rfl) e1 (hm.bit rfl) ?_
      exact h4
    clear_value y5
    extract_lets +onlyGivenNames y7
    have h8 : Evolves M P a y7 := by
      unfold y7
      refine Evolves.modWr (hm.bit rfl) e1 ?_
      exact h6
    clear_value y7
    refine Evolves.ite ?_ ?_
    · refine wrToIdle_ev _ (hm.of rfl) e1 ?_
      exact h8
    · extract_lets +onlyGivenNames y9
      have h10 : Evolves M P a y9 := by
        unfold y9
        refine Evolves.put .wr rfl (hm.bit rfl) e1 ?_
        exact h8
      clear_value y9
      refine Evolves.ite ?_ ?_
      · refine wrUnverify_ev _ (hm.of rfl) e1 ?_
        exact h10
      · refine wrDrain_ev _ (hm.of rfl) e1 ?_
        exact h10

theorem wrEnd_ev (x1 : _) (hm : Sub 0x440000000 M) (e1 : P x1.val) (h : Evolves M P a s) :
    Evolves M P a (wrEnd x1 s) := by
  unfold wrEnd
  extract_lets +onlyGivenNames y1
  have h2 : Evolves M P a y1 := by
    unfold y1
    refine pushWord_ev _ _ (hm.of rfl) e1 ?_
    exact h
  clear_value y1
  refine Evolves.modWr (hm.bit rfl) e1 ?_
  exact h2

theorem wrStop_ev (x1 : _) (hm : Sub 0x4000006c0000204 M) (e1 : P x1.val) (h : Evolves M P a s) :
    Evolves M P a (wrStop x1 s) := by
  unfold wrStop
  refine Evolves.ite ?_ ?_
  · refine Evolves.ite ?_ ?_
    · exact h
    · refine wrEnd_ev _ (hm.of rfl) e1 ?_
      exact h
  · refine Evolves.ite ?_ ?_
    · refine wrToIdle_ev _ (hm.of rfl) e1 ?_
      refine Evolves.raise .wr rfl (hm.bit rfl) e1 (hm.bit rfl) ?_
      exact h
    · exact h

theorem wrNotBlank_ev (x1 x2 : _) (hm : Sub 0x40c400ec0000214 M) (e1 : P x1.val) (h : Evolves M P a s) :
    Evolves M P a (wrNotBlank x1 x2 s) := by
  unfold wrNotBlank
  refine Evolves.ite ?_ ?_
  · extract_lets +onlyGivenNames y1
    have h2 : Evolves M P a y1 := by
      unfold y1
      refine Evolves.raise .wr rfl (hm.bit rfl) e1 (hm.bit rfl) ?_
      exact h
    clear_value y1
    extract_lets +onlyGivenNames y3
    refine Evolves.ite ?_ ?_
    · refine wrAbort_ev _ _ (hm.of rfl) e1 ?_
      exact h2
    · refine wrStop_ev _ (hm.of rfl) e1 ?_
      exact h2
  · exact h

theorem wrCommit_ev (x1 x2 : _) (hm : Sub 0x400000004 M) (e1 : P x1.val) (h : Evolves M P a s) :
    Evolves M P a (wrCommit x1 x2 s) := by
  unfold wrCommit
  extract_lets +onlyGivenNames y1
  extract_lets +onlyGivenNames y2
  extract_lets +onlyGivenNames y3
  extract_lets +onlyGivenNames y4
  have h5 : Evolves M P a y4 := by
    unfold y4
    refine Evolves.put .wr rfl (hm.bit rfl) e1 ?_
    exact h
  clear_value y4
  extract_lets +onlyGivenNames y6
  have h7 : Evolves M P a y6 := by
    unfold y6
    refine Evolves.modWr (hm.bit rfl) e1 ?_
    exact h5
  clear_value y6
  refine Evolves.put .wr rfl (hm.bit rfl) e1 ?_
  exact h7

theorem wrAdvance_ev (x1 : _) (hm : Sub 0x400000000 M) (e1 : P x1.val) (h : Evolves M P a s) :
    Evolves M P a (wrAdvance x1 s) := by
  unfold wrAdvance
  refine Evolves.modWr (hm.bit rfl) e1 ?_
  exact h

theorem ropcApply_ev (x1 x2 : _) (hm : Sub 0x40000004 M) (e1 : P x1.val) (h : Evolves M P a s) :
    Evolves M P a (ropcApply x1 x2 s) := by
  unfold ropcApply
  refine Evolves.ite ?_ ?_
  · extract_lets +onlyGivenNames y1
    extract_lets +onlyGivenNames y2
    extract_lets +onlyGivenNames y3
    extract_lets +onlyGivenNames y4
    extract_lets +onlyGivenNames y5
    extract_lets +onlyGivenNames y6
    extract_lets +onlyGivenNames y7
    extract_lets +onlyGivenNames y8
    extract_lets +onlyGivenNames y9
    have h10 : Evolves M P a y9 := by
      unfold y9
      refine Evolves.put .wr rfl (hm.bit rfl) e1 ?_
      exact h
    clear_value y9
    extract_lets +onlyGivenNames y11
    have h12 : Evolves M P a y11 := by
      unfold y11
      refine Evolves.ite ?_ ?_
      · exact h10
      · refine Evolves.put .wr rfl (hm.bit rfl) e1 ?_
        exact h10
    clear_value y11
    refine sendLevels_ev _ (hm.of rfl) e1 ?_
    exact h12
  · exact h

theorem ropcFeedback_ev (x1 x2 : _) (hm : Sub 0x400000000 M) (e1 : P x1.val) (h : Evolves M P a s) :
    Evolves M P a (ropcFeedback x1 x2 s) := by
  unfold ropcFeedback
  split
  · refine Evolves.ite ?_ ?_
    · extract_lets +onlyGivenNames y1
      refine Evolves.modWr (hm.bit rfl) e1 ?_
      exact h
    · exact h
  · exact h

theorem gateOpen_ev (x1 : _) (hm : Sub 0x440000004 M) (e1 : P x1.val) (h : Evolves M P a s) :
    Evolves M P a (gateOpen x1 s) := by
  unfold gateOpen
  extract_lets +onlyGivenNames y1
  have h2 : Evolves M P a y1 := by
    unfold y1
    refine Evolves.modHl (hm.bit rfl) e1 ?_
    exact h
  clear_value y1
  extract_lets +onlyGivenNames y3
  extract_lets +onlyGivenNames y4
  extract_lets +onlyGivenNames y5
  have h6 : Evolves M P a y5 := by
    unfold y5
    refine pushWord_ev _ _ (hm.of rfl) e1 ?_
    refine sendLevels_ev _ (hm.of rfl) e1 ?_
    exact h2
  clear_value y5
  refine Evolves.put .wr rfl (hm.bit rfl) e1 ?_
  refine Evolves.modWr (hm.bit rfl) e1 ?_
  exact h6

theorem wrGateOpen_ev (x1 : _) (hm : Sub 0x440000004 M) (e1 : P x1.val) (h : Evolves M P a s) :
    Evolves M P a (wrGateOpen x1 s) := by
  unfold wrGateOpen
  extract_lets +onlyGivenNames y1
  refine Evolves.put .wr rfl (hm.bit rfl) e1 ?_
  refine gateOpen_ev _ (hm.of rfl) e1 ?_
  refine ropcApply_ev _ _ (hm.of rfl) e1 ?_
  refine wrCommit_ev _ _ (hm.of rfl) e1 ?_
  exact h

theorem wrDecide_ev (x1 : _) (hm : Sub 0x400000440000004 M) (e1 : P x1.val) (h : Evolves M P a s) :
    Evolves M P a (wrDecide x1 s) := by
  unfold wrDecide
  extract_lets +onlyGivenNames y1
  refine Evolves.ite ?_ ?_
  · refine Evolves.ite ?_ ?_
    · extract_lets +onlyGivenNames y2
      refine Evolves.ite ?_ ?_
      · refine wrCommit_ev _ _ (hm.of rfl) e1 ?_
        exact h
      · refine wrEnd_ev _ (hm.of rfl) e1 ?_
        refine Evolves.raise .wr rfl (hm.bit rfl) e1 (hm.bit rfl) ?_
        exact h
    · refine wrEnd_ev _ (hm.of rfl) e1 ?_
      refine Evolves.raise .wr rfl (hm.bit rfl) e1 (hm.bit rfl) ?_
      exact h
  · exact h

theorem opcFirst_ev (x1 x2 : _) (hm : Sub 0x40000000 M) (e1 : P x1.val) (h : Evolves M P a s) :
    Evolves M P a (opcFirst x1 x2 s) := by
  unfold opcFirst
  split
  · refine pushWord_ev _ _ (hm.of rfl) e1 ?_
    exact h
  · exact h

theorem opcStart_ev (x1 x2 : _) (hm : Sub 0x4000440000004 M) (e1 : P x1.val) (h : Evolves M P a s) :
    Evolves M P a (opcStart x1 x2 s) := by
  unfold opcStart
  extract_lets +onlyGivenNames y1
  have h2 : Evolves M P a y1 := by
    unfold y1
    refine gateOpen_ev _ (hm.of rfl) e1 ?_
    exact h
  clear_value y1
  extract_lets +onlyGivenNames y3
  refine Evolves.note (hm.bit rfl) ?_
  refine Evolves.modWr (hm.bit rfl) e1 ?_
  refine opcFirst_ev _ _ (hm.of rfl) e1 ?_
  exact h2

theorem opcNext_ev (x1 : _) (hm : Sub 0x440000000 M) (e1 : P x1.val) (h : Evolves M P a s) :
    Evolves M P a (opcNext x1 s) := by
  unfold opcNext
  extract_lets +onlyGivenNames y1
  split
  · refine Evolves.ite ?_ ?_
    · refine pushWord_ev _ _ (hm.of rfl) e1 ?_
      refine Evolves.modWr (hm.bit rfl) e1 ?_
      exact h
    · exact h
  · exact h

theorem wrRunOut_ev (x1 : _) (hm : Sub 0x4044006c0000204 M) (e1 : P x1.val) (h : Evolves M P a s) :
    Evolves M P a (wrRunOut x1 s) := by
  unfold wrRunOut
  extract_lets +onlyGivenNames y1
  have h2 : Evolves M P a y1 := by
    unfold y1
    refine Evolves.modHl (hm.bit rfl) e1 ?_
    refine Evolves.put .wr rfl (hm.bit rfl) e1 ?_
    exact h
  clear_value y1
  extract_lets +onlyGivenNames y3
  have h4 : Evolves M P a y3 := by
    unfold y3
    refine Evolves.ite ?_ ?_
    · refine pushWord_ev _ _ (hm.of rfl) e1 ?_
      exact h2
    · exact h2
  clear_value y3
  extract_lets +onlyGivenNames y5
  have h6 : Evolves M P a y5 := by
    unfold y5
    refine sendLevels_ev _ (hm.of rfl) e1 ?_
    exact h4
  clear_value y5
  refine Evolves.ite ?_ ?_
  · refine wrDrain_ev _ (hm.of rfl) e1 ?_
    refine Evolves.put .wr rfl (hm.bit rfl) e1 ?_
    exact h6
  · exact h6

theorem wrClock_ev (x1 x2 : _) (hm : Sub 0x4044006c0000204 M) (e1 : P x1.val) (h : Evolves M P a s) :
    Evolves M P a (wrClock x1 x2 s) := by
  unfold wrClock
  refine Evolves.ite ?_ ?_
  · extract_lets +onlyGivenNames y1
    extract_lets +onlyGivenNames y2
    extract_lets +onlyGivenNames y3
    have h4 : Evolves M P a y3 := by
      unfold y3
      refine Evolves.modWr (hm.bit rfl) e1 ?_
      exact h
    clear_value y3
    refine Evolves.ite ?_ ?_
    · extract_lets +onlyGivenNames y5
      have h6 : Evolves M P a y5 := by
        unfold y5
        refine opcNext_ev _ (hm.of rfl) e1 ?_
        exact h4
      clear_value y5
      refine Evolves.ite ?_ ?_
      · refine wrRunOut_ev _ (hm.of rfl) e1 ?_
        exact h6
      · exact h6
    · extract_lets +onlyGivenNames y7
      have h8 : Evolves M P a y7 := by
        unfold y7
        refine wrAdvance_ev _ (hm.of rfl) e1 ?_
        exact h4
      clear_value y7
      extract_lets +onlyGivenNames y9
      have h10 : Evolves M P a y9 := by
        unfold y9
        refine Evolves.ite ?_ ?_
        · split
          · refine ropcApply_ev _ _ (hm.of rfl) e1 ?_
            exact h8
          · exact h8
        · exact h4
      clear_value y9
      refine Evolves.ite ?_ ?_
      · refine wrRunOut_ev _ (hm.of rfl) e1 ?_
        exact h10
      · exact h10
  · exact h

theorem adipTrack_ev (x1 x2 : _) (hm : Sub 0x400000000 M) (e1 : P x1.val) (h : Evolves M P a s) :
    Evolves M P a (adipTrack x1 x2 s) := by
  unfold adipTrack
  refine Evolves.modWr (hm.bit rfl) e1 ?_
  exact h

theorem wrAdip_ev (x1 x2 : _) (hm : Sub 0x40c400ec0000214 M) (e1 : P x1.val) (h : Evolves M P a s) :
    Evolves M P a (wrAdip x1 x2 s) := by
  unfold wrAdip
  extract_lets +onlyGivenNames y1
  extract_lets +onlyGivenNames y2
  extract_lets +onlyGivenNames y3
  have h4 : Evolves M P a y3 := by
    unfold y3
    refine adipTrack_ev _ _ (hm.of rfl) e1 ?_
    exact h
  clear_value y3
  extract_lets +onlyGivenNames y5
  refine Evolves.ite ?_ ?_
  · split
    · extract_lets +onlyGivenNames y6
      refine Evolves.ite ?_ ?_
      · refine Evolves.ite ?_ ?_
        · refine wrGateOpen_ev _ (hm.of rfl) e1 ?_
          exact h4
        · exact h4
      · refine Evolves.ite ?_ ?_
        · extract_lets +onlyGivenNames y7
          have h8 : Evolves M P a y7 := by
            unfold y7
            refine Evolves.inc .wr rfl (hm.bit rfl) e1 ?_
            refine Evolves.raise .wr rfl (hm.bit rfl) e1 (hm.bit rfl) ?_
            refine Evolves.raise .wr rfl (hm.bit rfl) e1 (hm.bit rfl) ?_
            exact h4
          clear_value y7
          refine wrToIdle_ev _ (hm.of rfl) e1 ?_
          refine gateClose_ev _ _ (hm.of rfl) e1 ?_
          refine Evolves.report (hm.bit rfl) ?_
          exact h8
        · exact h4
    · exact h4
  · refine Evolves.ite ?_ ?_
    · split
      · extract_lets +onlyGivenNames y9
        have h10 : Evolves M P a y9 := by
          unfold y9
          refine Evolves.modWr (hm.bit rfl) e1 ?_
          exact h4
        clear_value y9
        split
        · refine Evolves.ite ?_ ?_
          · exact h10
          · refine wrAbort_ev _ _ (hm.of rfl) e1 ?_
            refine Evolves.raise .wr rfl (hm.bit rfl) e1 (hm.bit rfl) ?_
            exact h10
        · exact h10
      · extract_lets +onlyGivenNames y11
        extract_lets +onlyGivenNames y12
        have h13 : Evolves M P a y12 := by
          unfold y12
          refine Evolves.modWr (hm.bit rfl) e1 ?_
          exact h4
        clear_value y12
        refine Evolves.ite ?_ ?_
        · refine wrAbort_ev _ _ (hm.of rfl) e1 ?_
          refine Evolves.raise .wr rfl (hm.bit rfl) e1 (hm.bit rfl) ?_
          exact h13
        · exact h13
    · refine Evolves.ite ?_ ?_
      · split
        · refine Evolves.ite ?_ ?_
          · refine opcStart_ev _ _ (hm.of rfl) e1 ?_
            exact h4
          · exact h4
        · exact h4
      · exact h4

theorem adipWord_ev (x1 x2 x3 x4 : _) (hm : Sub 0x40c400ec0000614 M) (e1 : P x1.val) (h : Evolves M P a s) :
    Evolves M P a (adipWord x1 x2 x3 x4 s) := by
  unfold adipWord
  split
  · refine Evolves.ite ?_ ?_
    · extract_lets +onlyGivenNames y1
      have h2 : Evolves M P a y1 := by
        unfold y1
        split
        · refine Evolves.put .wobble rfl (hm.bit rfl) e1 ?_
          refine Evolves.put .wobble rfl (hm.bit rfl) e1 ?_
          refine Evolves.put .wobble rfl (hm.bit rfl) e1 ?_
          exact h
        · refine Evolves.raise .wobble rfl (hm.bit rfl) e1 (hm.bit rfl) ?_
          refine Evolves.put .wobble rfl (hm.bit rfl) e1 ?_
          exact h
      clear_value y1
      refine wrAdip_ev _ _ (hm.of rfl) e1 ?_
      exact h2
    · exact h
  · refine Evolves.ite ?_ ?_
    · extract_lets +onlyGivenNames y3
      have h4 : Evolves M P a y3 := by
        unfold y3
        split
        · refine Evolves.put .wr (Reg.group_wr rfl (by dsimp only [spareRes]; omega) (by dsimp only [spareRes]; omega)) (hm.bit rfl) e1 ?_
          refine Evolves.put .wr (Reg.group_wr rfl (by dsimp only [spareRes]; omega) (by dsimp only [spareRes]; omega)) (hm.bit rfl) e1 ?_
          refine Evolves.put .wr (Reg.group_wr rfl (by dsimp only [spareRes]; omega) (by dsimp only [spareRes]; omega)) (hm.bit rfl) e1 ?_
          exact h
        · refine Evolves.put .wr (Reg.group_wr rfl (by dsimp only [spareRes]; omega) (by dsimp only [spareRes]; omega)) (hm.bit rfl) e1 ?_
          exact h
      clear_value y3
      refine Evolves.ite ?_ ?_
      · extract_lets +onlyGivenNames y5
        have h6 : Evolves M P a y5 := by
          unfold y5
          refine Evolves.put .wr rfl (hm.bit rfl) e1 ?_
          exact h4
        clear_value y5
        split
        · refine Evolves.modWr (hm.bit rfl) e1 ?_
          exact h6
        · exact h6
      · exact h4
    · exact h

theorem ilkOpen_ev (x1 : _) (hm : Sub 0x40c400ec0000214 M) (e1 : P x1.val) (h : Evolves M P a s) :
    Evolves M P a (ilkOpen x1 s) := by
  unfold ilkOpen
  extract_lets +onlyGivenNames y1
  have h2 : Evolves M P a y1 := by
    unfold y1
    refine Evolves.put .wr rfl (hm.bit rfl) e1 ?_
    refine laserOff_ev _ (hm.of rfl) e1 ?_
    exact h
  clear_value y1
  extract_lets +onlyGivenNames y3
  have h4 : Evolves M P a y3 := by
    unfold y3
    refine Evolves.report (hm.bit rfl) ?_
    refine Evolves.raise .wr rfl (hm.bit rfl) e1 (hm.bit rfl) ?_
    refine Evolves.put .wr rfl (hm.bit rfl) e1 ?_
    exact h2
  clear_value y3
  refine wrAbort_ev _ _ (hm.of rfl) e1 ?_
  exact h4

theorem laserEn_ev (x1 x2 : _) (hm : Sub 0x40c400ec0000214 M) (e1 : P x1.val) (h : Evolves M P a s) :
    Evolves M P a (laserEn x1 x2 s) := by
  unfold laserEn
  refine Evolves.ite ?_ ?_
  · refine Evolves.ite ?_ ?_
    · exact h
    · refine sendLevels_ev _ (hm.of rfl) e1 ?_
      refine Evolves.put .wr rfl (hm.bit rfl) e1 ?_
      exact h
  · refine wrAbort_ev _ _ (hm.of rfl) e1 ?_
    refine laserOff_ev _ (hm.of rfl) e1 ?_
    refine Evolves.put .wr rfl (hm.bit rfl) e1 ?_
    exact h

theorem wrProd_ev (x1 x2 : _) (hm : Sub 0x400000000000004 M) (e1 : P x1.val) (h : Evolves M P a s) :
    Evolves M P a (wrProd x1 x2 s) := by
  unfold wrProd
  extract_lets +onlyGivenNames y1
  extract_lets +onlyGivenNames y2
  refine Evolves.ite ?_ ?_
  · refine Evolves.raise .wr rfl (hm.bit rfl) e1 (hm.bit rfl) ?_
    exact h
  · refine Evolves.put .wr rfl (hm.bit rfl) e1 ?_
    exact h

theorem opcFinish_ev (x1 x2 : _) (hm : Sub 0x4000006c0000204 M) (e1 : P x1.val) (h : Evolves M P a s) :
    Evolves M P a (opcFinish x1 x2 s) := by
  unfold opcFinish
  refine Evolves.ite ?_ ?_
  · extract_lets +onlyGivenNames y1
    extract_lets +onlyGivenNames y2
    have h3 : Evolves M P a y2 := by
      unfold y2
      refine Evolves.foldl _ (fun s4 x5 h6 => ?_) ?_
      · split
        · refine Evolves.put .wr (Reg.group_wr rfl (by dsimp only [spareRes]; omega) (by dsimp only [spareRes]; omega)) (hm.bit rfl) e1 ?_
          refine Evolves.putInt .wr (Reg.group_wr rfl (by dsimp only [spareRes]; omega) (by dsimp only [spareRes]; omega)) (hm.bit rfl) e1 ?_
          exact h6
        · refine Evolves.put .wr (Reg.group_wr rfl (by dsimp only [spareRes]; omega) (by dsimp only [spareRes]; omega)) (hm.bit rfl) e1 ?_
          exact h6
      · exact h
    clear_value y2
    extract_lets +onlyGivenNames y7
    extract_lets +onlyGivenNames y8
    have h9 : Evolves M P a y8 := by
      unfold y8
      split
      · refine Evolves.put .wr rfl (hm.bit rfl) e1 ?_
        exact h3
      · exact h3
    clear_value y8
    extract_lets +onlyGivenNames y10
    have h11 : Evolves M P a y10 := by
      unfold y10
      split
      · refine Evolves.put .wr rfl (hm.bit rfl) e1 ?_
        refine Evolves.put .wr rfl (hm.bit rfl) e1 ?_
        exact h9
      · refine Evolves.put .wr rfl (hm.bit rfl) e1 ?_
        exact h9
    clear_value y10
    refine wrToIdle_ev _ (hm.of rfl) e1 ?_
    refine Evolves.raise .wr rfl (hm.bit rfl) e1 (hm.bit rfl) ?_
    exact h11
  · exact h

theorem wrCntClear_ev (x1 x2 : _) (hm : Sub 0x4 M) (e1 : P x1.val) (h : Evolves M P a s) :
    Evolves M P a (wrCntClear x1 x2 s) := by
  unfold wrCntClear
  extract_lets +onlyGivenNames y1
  have h2 : Evolves M P a y1 := by
    unfold y1
    refine Evolves.wrE .wr rfl (hm.bit rfl) e1 ?_
    exact h
  clear_value y1
  refine Evolves.put .wr rfl (hm.bit rfl) e1 ?_
  refine Evolves.put .wr rfl (hm.bit rfl) e1 ?_
  refine Evolves.put .wr rfl (hm.bit rfl) e1 ?_
  exact h2

theorem verifyResult_ev (x1 x2 : _) (hm : Sub 0x4044006c0000204 M) (e1 : P x1.val) (h : Evolves M P a s) :
    Evolves M P a (verifyResult x1 x2 s) := by
  unfold verifyResult
  split
  · exact h
  · extract_lets +onlyGivenNames y1
    extract_lets +onlyGivenNames y2
    extract_lets +onlyGivenNames y3
    have h4 : Evolves M P a y3 := by
      unfold y3
      refine Evolves.modWr (hm.bit rfl) e1 ?_
      exact h
    clear_value y3
    extract_lets +onlyGivenNames y5
    have h6 : Evolves M P a y5 := by
      unfold y5
      refine Evolves.ite ?_ ?_
      · refine Evolves.put .wr rfl (hm.bit rfl) e1 ?_
        exact h4
      · exact h4
    clear_value y5
    extract_lets +onlyGivenNames y7
    have h8 : Evolves M P a y7 := by
      unfold y7
      refine Evolves.ite ?_ ?_
      · refine Evolves.inc .wr rfl (hm.bit rfl) e1 ?_
        refine Evolves.put .wr rfl (hm.bit rfl) e1 ?_
        exact h6
      · refine Evolves.inc .wr rfl (hm.bit rfl) e1 ?_
        refine Evolves.inc .wr rfl (hm.bit rfl) e1 ?_
        refine Evolves.raise .wr rfl (hm.bit rfl) e1 (hm.bit rfl) ?_
        exact h6
    clear_value y7
    extract_lets +onlyGivenNames y9
    have h10 : Evolves M P a y9 := by
      unfold y9
      refine ropcFeedback_ev _ _ (hm.of rfl) e1 ?_
      exact h8
    clear_value y9
    extract_lets +onlyGivenNames y11
    have h12 : Evolves M P a y11 := by
      unfold y11
      refine Evolves.ite ?_ ?_
      · refine wrStop_ev _ (hm.of rfl) e1 ?_
        refine Evolves.raise .wr rfl (hm.bit rfl) e1 (hm.bit rfl) ?_
        exact h10
      · exact h10
    clear_value y11
    refine wrDrain_ev _ (hm.of rfl) e1 ?_
    exact h12

theorem execWrGo_next (x1 : _) (hm : Sub 0x400000680000284 M) (e1 : P x1.val) :
    ∃ t, (execWrGo x1 s) = .next t ∧ Evolves M P s t := by
  refine ⟨_, rfl, ?_⟩
  have h := Evolves.refl M P s
  refine wrGo_ev _ (hm.of rfl) e1 ?_
  exact h

theorem execWrOpcGo_next (x1 : _) (hm : Sub 0x400000680000284 M) (e1 : P x1.val) :
    ∃ t, (execWrOpcGo x1 s) = .next t ∧ Evolves M P s t := by
  refine ⟨_, rfl, ?_⟩
  have h := Evolves.refl M P s
  refine wrOpcStart_ev _ (hm.of rfl) e1 ?_
  exact h

theorem execWrCntClr_next (x1 x2 : _) (hm : Sub 0x4 M) (e1 : P x1.val) :
    ∃ t, (execWrCntClr x1 x2 s) = .next t ∧ Evolves M P s t := by
  refine ⟨_, rfl, ?_⟩
  have h := Evolves.refl M P s
  refine wrCntClear_ev _ _ (hm.of rfl) e1 ?_
  exact h

theorem execWrProdWrite_next (x1 x2 : _) (hm : Sub 0x400000000000004 M) (e1 : P x1.val) :
    ∃ t, (execWrProdWrite x1 x2 s) = .next t ∧ Evolves M P s t := by
  refine ⟨_, rfl, ?_⟩
  have h := Evolves.refl M P s
  refine wrProd_ev _ _ (hm.of rfl) e1 ?_
  exact h

theorem execOpcDone_next (x1 x2 : _) (hm : Sub 0x4000006c0000204 M) (e1 : P x1.val) :
    ∃ t, (execOpcDone x1 x2 s) = .next t ∧ Evolves M P s t := by
  refine ⟨_, rfl, ?_⟩
  have h := Evolves.refl M P s
  refine opcFinish_ev _ _ (hm.of rfl) e1 ?_
  exact h

theorem execIlkHoldExpire_next (x1 : _) (hm : Sub 0x4 M) (e1 : P x1.val) :
    ∃ t, (execIlkHoldExpire x1 s) = .next t ∧ Evolves M P s t := by
  refine ⟨_, rfl, ?_⟩
  have h := Evolves.refl M P s
  refine Evolves.ite ?_ ?_
  · exact h
  · refine Evolves.put .wr rfl (hm.bit rfl) e1 ?_
    exact h

theorem execIlkOpeningEnd_next (x1 : _) (hm : Sub 0x4 M) (e1 : P x1.val) :
    ∃ t, (execIlkOpeningEnd x1 s) = .next t ∧ Evolves M P s t := by
  refine ⟨_, rfl, ?_⟩
  have h := Evolves.refl M P s
  refine Evolves.ite ?_ ?_
  · refine Evolves.put .wr rfl (hm.bit rfl) e1 ?_
    refine Evolves.put .wr rfl (hm.bit rfl) e1 ?_
    exact h
  · exact h

end Sys2Proof.Machine
end

