-- ==== Sys2Proof/Laws/Temper.lean ====
section
/-! SUPPORT. One lemma per operation of Machine/Temper.lean: the parts of the state it can touch and what it needs of the engines (`Evolves`). -/

namespace Sys2Proof.Machine

variable {M : Nat} {P : Nat → Prop} {a s : State}

theorem copyToSpare_ev (x1 x2 : _) (hm : Sub 0x200 M) (e1 : P x1.val) (h : Evolves M P a s) :
    Evolves M P a (copyToSpare x1 x2 s) := by
  unfold copyToSpare
  extract_lets +onlyGivenNames y1
  have h2 : Evolves M P a y1 := by
    unfold y1
    refine Evolves.wrE .chain rfl (hm.bit rfl) e1 ?_
    refine Evolves.wrE .chain rfl (hm.bit rfl) e1 ?_
    exact h
  clear_value y1
  extract_lets +onlyGivenNames y3
  have h4 : Evolves M P a y3 := by
    unfold y3
    refine Evolves.wrE .chain rfl (hm.bit rfl) e1 ?_
    refine Evolves.wrE .chain rfl (hm.bit rfl) e1 ?_
    exact h2
  clear_value y3
  extract_lets +onlyGivenNames y5
  have h6 : Evolves M P a y5 := by
    unfold y5
    refine Evolves.foldl _ (fun s7 x8 h9 => ?_) ?_
    · refine Evolves.foldl _ (fun s10 x11 h12 => ?_) ?_
      · refine Evolves.wrE .chain rfl (hm.bit rfl) e1 ?_
        exact h12
      · exact h9
    · exact h4
  clear_value y5
  refine Evolves.foldl _ (fun s13 x14 h15 => ?_) ?_
  · refine Evolves.wrE .chain rfl (hm.bit rfl) e1 ?_
    exact h15
  · exact h6

theorem sendAdc_ev (x1 x2 : _) (hm : Sub 0x40000000 M) (e1 : P x1.val) (h : Evolves M P a s) :
    Evolves M P a (sendAdc x1 x2 s) := by
  unfold sendAdc
  extract_lets +onlyGivenNames y1
  have h2 : Evolves M P a y1 := by
    unfold y1
    refine sendTrim_ev _ _ _ _ (hm.of rfl) e1 ?_
    exact h
  clear_value y1
  refine Evolves.foldl _ (fun s3 x4 h5 => ?_) ?_
  · refine sendTrim_ev _ _ _ _ (hm.of rfl) e1 ?_
    refine sendTrim_ev _ _ _ _ (hm.of rfl) e1 ?_
    exact h5
  · exact h2

theorem savable_group {e : Eng} {r : Reg} (h : savable e r = true) : (r.group = .chain ∨ r.group = .tmp) ∧ r.i = e.val := by
  unfold savable at h
  simp only [Bool.and_eq_true, Bool.or_eq_true, beq_iff_eq, decide_eq_true_eq] at h
  obtain ⟨hi, ⟨hb, _⟩ | ⟨⟨hb, lo⟩, hl⟩⟩ := h
  · exact ⟨.inl (by unfold Reg.group; rw [hb]), hi⟩
  · exact ⟨.inr (Reg.group_tmp hb (Nat.le_trans (by decide) lo) hl), hi⟩

theorem tmpPutBack_ev (x1 : _) (hm : Sub 0x40000208 M) (e1 : P x1.val) (h : Evolves M P a s) :
    Evolves M P a (tmpPutBack x1 s) := by
  unfold tmpPutBack
  refine sendAdc_ev _ _ (hm.of rfl) e1 (Evolves.foldl _ (fun t x ht => ?_) h)
  split
  · next hx =>
    obtain ⟨hg, hi⟩ := savable_group hx
    refine ht.wr ?_ fun _ => hi ▸ e1
    cases hg with
    | inl hg => rw [hg]; exact hm.bit rfl
    | inr hg => rw [hg]; exact hm.bit rfl
  · exact ht

theorem spareRelease_ev (x1 : _) (hm : Sub 0x80000 M) (h : Evolves M P a s) :
    Evolves M P a (spareRelease x1 s) := by
  unfold spareRelease
  extract_lets +onlyGivenNames y1
  have h2 : Evolves M P a y1 := by
    unfold y1
    refine Evolves.putG .claims (Reg.group_claims rfl (by dsimp only [spareRes]; omega) (by dsimp only [spareRes]; omega)) (hm.bit rfl) rfl ?_
    exact h
  clear_value y1
  refine Evolves.putG .claims (Reg.group_claims rfl (by dsimp only [spareRes]; omega) (by dsimp only [spareRes]; omega)) (hm.bit rfl) rfl ?_
  exact h2

theorem delivSet_ev (x1 x2 : _) (hm : Sub 0x80000208 M) (e1 : P x1.val) (h : Evolves M P a s) :
    Evolves M P a (delivSet x1 x2 s) := by
  unfold delivSet
  extract_lets +onlyGivenNames y1
  extract_lets +onlyGivenNames y2
  have h3 : Evolves M P a y2 := by
    unfold y2
    refine Evolves.ite ?_ ?_
    · refine holdMove_ev _ _ _ (hm.of rfl) e1 ?_
      exact h
    · exact h
  clear_value y2
  extract_lets +onlyGivenNames y4
  have h5 : Evolves M P a y4 := by
    unfold y4
    refine Evolves.ite ?_ ?_
    · refine holdMove_ev _ _ _ (hm.of rfl) e1 ?_
      exact h3
    · exact h3
  clear_value y4
  refine Evolves.put .tmp rfl (hm.bit rfl) e1 ?_
  exact h5

theorem tmpFinish_ev (x1 : _) (hm : Sub 0x10c0080208 M) (e1 : P x1.val) (h : Evolves M P a s) :
    Evolves M P a (tmpFinish x1 s) := by
  unfold tmpFinish
  extract_lets +onlyGivenNames y1
  have h2 : Evolves M P a y1 := by
    unfold y1
    refine Evolves.put .chain rfl (hm.bit rfl) e1 ?_
    refine delivSet_ev _ _ (hm.of rfl) e1 ?_
    exact h
  clear_value y1
  extract_lets +onlyGivenNames y3
  have h4 : Evolves M P a y3 := by
    unfold y3
    refine spareRelease_ev _ (hm.of rfl) ?_
    refine sendSpare_ev _ _ (hm.of rfl) e1 ?_
    exact h2
  clear_value y3
  refine Evolves.modTmp (hm.bit rfl) e1 ?_
  refine Evolves.put .tmp rfl (hm.bit rfl) e1 ?_
  exact h4

theorem tmpAbandonWith_ev (x1 x2 x3 : _) (hm : Sub 0x10c0080208 M) (e1 : P x1.val) (h : Evolves M P a s) :
    Evolves M P a (tmpAbandonWith x1 x2 x3 s) := by
  unfold tmpAbandonWith
  refine Evolves.ite ?_ ?_
  · refine Evolves.ite ?_ ?_
    · refine tmpFinish_ev _ (hm.of rfl) e1 ?_
      exact h
    · exact h
  · refine Evolves.ite ?_ ?_
    · extract_lets +onlyGivenNames y1
      have h2 : Evolves M P a y1 := by
        unfold y1
        refine Evolves.put .tmp rfl (hm.bit rfl) e1 ?_
        refine Evolves.inc .tmp rfl (hm.bit rfl) e1 ?_
        exact h
      clear_value y1
      extract_lets +onlyGivenNames y3
      have h4 : Evolves M P a y3 := by
        unfold y3
        refine tmpPutBack_ev _ (hm.of rfl) e1 ?_
        exact h2
      clear_value y3
      refine Evolves.ite ?_ ?_
      · refine tmpFinish_ev _ (hm.of rfl) e1 ?_
        exact h4
      · refine Evolves.modTmp (hm.bit rfl) e1 ?_
        refine Evolves.put .tmp rfl (hm.bit rfl) e1 ?_
        exact h4
    · exact h

theorem claimDeny_ev (x1 x2 : _) (hm : Sub 0x80000 M) (h : Evolves M P a s) :
    Evolves M P a (claimDeny x1 x2 s) := by
  unfold claimDeny
  refine Evolves.putG .claims (Reg.group_claims rfl (by dsimp only [spareRes]; omega) (by dsimp only [spareRes]; omega)) (hm.bit rfl) rfl ?_
  refine Evolves.incG .claims (Reg.group_claims rfl (by dsimp only [spareRes]; omega) (by dsimp only [spareRes]; omega)) (hm.bit rfl) rfl ?_
  exact h

theorem tmpBegin_ev (x1 x2 : _) (hm : Sub 0x1040080208 M) (e1 : P x1.val) (h : Evolves M P a s) :
    Evolves M P a (tmpBegin x1 x2 s) := by
  unfold tmpBegin
  extract_lets +onlyGivenNames y1
  have h2 : Evolves M P a y1 := by
    unfold y1
    refine Evolves.put .tmp rfl (hm.bit rfl) e1 ?_
    refine Evolves.putG .claims (Reg.group_claims rfl (by dsimp only [spareRes]; omega) (by dsimp only [spareRes]; omega)) (hm.bit rfl) rfl ?_
    exact h
  clear_value y1
  extract_lets +onlyGivenNames y3
  have h4 : Evolves M P a y3 := by
    unfold y3
    refine Evolves.modTmp (hm.bit rfl) e1 ?_
    exact h2
  clear_value y3
  extract_lets +onlyGivenNames y5
  extract_lets +onlyGivenNames y6
  have h7 : Evolves M P a y6 := by
    unfold y6
    refine copyToSpare_ev _ _ (hm.of rfl) e1 ?_
    exact h4
  clear_value y6
  extract_lets +onlyGivenNames y8
  have h9 : Evolves M P a y8 := by
    unfold y8
    refine Evolves.put .chain rfl (hm.bit rfl) e1 ?_
    refine sendSpare_ev _ _ (hm.of rfl) e1 ?_
    exact h7
  clear_value y8
  refine Evolves.put .tmp rfl (hm.bit rfl) e1 ?_
  exact h9

theorem tmpTry_ev (x1 x2 x3 : _) (hm : Sub 0x400001040080208 M) (e1 : P x1.val) (h : Evolves M P a s) :
    Evolves M P a (tmpTry x1 x2 x3 s) := by
  unfold tmpTry
  refine Evolves.ite ?_ ?_
  · exact h
  · refine Evolves.ite ?_ ?_
    · extract_lets +onlyGivenNames y1
      have h2 : Evolves M P a y1 := by
        unfold y1
        refine Evolves.ite ?_ ?_
        · refine Evolves.modTmp (hm.bit rfl) e1 ?_
          exact h
        · exact h
      clear_value y1
      refine tmpBegin_ev _ _ (hm.of rfl) e1 ?_
      exact h2
    · extract_lets +onlyGivenNames y3
      have h4 : Evolves M P a y3 := by
        unfold y3
        refine Evolves.ite ?_ ?_
        · refine claimDeny_ev _ _ (hm.of rfl) ?_
          exact h
        · exact h
      clear_value y3
      extract_lets +onlyGivenNames y5
      have h6 : Evolves M P a y5 := by
        unfold y5
        refine Evolves.raise .tmp rfl (hm.bit rfl) e1 (hm.bit rfl) ?_
        exact h4
      clear_value y5
      refine Evolves.ite ?_ ?_
      · refine Evolves.modTmp (hm.bit rfl) e1 ?_
        exact h6
      · exact h6

theorem trialOn_ev (x1 x2 : _) (hm : Sub 0x40000200 M) (e1 : P x1.val) (h : Evolves M P a s) :
    Evolves M P a (trialOn x1 x2 s) := by
  unfold trialOn
  extract_lets +onlyGivenNames y1
  refine Evolves.ite ?_ ?_
  · refine sendTrim_ev _ _ _ _ (hm.of rfl) e1 ?_
    exact h
  · refine Evolves.ite ?_ ?_
    · refine Evolves.put .chain rfl (hm.bit rfl) e1 ?_
      exact h
    · refine Evolves.put .chain rfl (hm.bit rfl) e1 ?_
      exact h

theorem trialOff_ev (x1 x2 : _) (hm : Sub 0x40000200 M) (e1 : P x1.val) (h : Evolves M P a s) :
    Evolves M P a (trialOff x1 x2 s) := by
  unfold trialOff
  extract_lets +onlyGivenNames y1
  refine Evolves.ite ?_ ?_
  · refine sendTrim_ev _ _ _ _ (hm.of rfl) e1 ?_
    exact h
  · split
    · refine Evolves.wrE .chain rfl (hm.bit rfl) e1 ?_
      exact h
    · exact h

theorem calibStart_ev (x1 : _) (hm : Sub 0x40000208 M) (e1 : P x1.val) (h : Evolves M P a s) :
    Evolves M P a (calibStart x1 s) := by
  unfold calibStart
  refine trialOn_ev _ _ (hm.of rfl) e1 ?_
  refine Evolves.put .tmp rfl (hm.bit rfl) e1 ?_
  exact h

theorem tmpMatch_ev (x1 : _) (hm : Sub 0x4000010c0080208 M) (e1 : P x1.val) (h : Evolves M P a s) :
    Evolves M P a (tmpMatch x1 s) := by
  unfold tmpMatch
  extract_lets +onlyGivenNames y1
  extract_lets +onlyGivenNames y2
  refine Evolves.ite ?_ ?_
  · refine Evolves.ite ?_ ?_
    · refine Evolves.put .tmp rfl (hm.bit rfl) e1 ?_
      exact h
    · refine calibStart_ev _ (hm.of rfl) e1 ?_
      exact h
  · refine Evolves.ite ?_ ?_
    · refine Evolves.ite ?_ ?_
      · refine Evolves.put .tmp rfl (hm.bit rfl) e1 ?_
        exact h
      · refine tmpFinish_ev _ (hm.of rfl) e1 ?_
        refine Evolves.raise .tmp rfl (hm.bit rfl) e1 (hm.bit rfl) ?_
        exact h
    · exact h

theorem straddle_ev (x1 x2 x3 x4 : _) (hm : Sub 0x1080000000 M) (e1 : P x1.val) (h : Evolves M P a s) :
    Evolves M P a (straddle x1 x2 x3 x4 s) := by
  unfold straddle
  extract_lets +onlyGivenNames y1
  extract_lets +onlyGivenNames y2
  extract_lets +onlyGivenNames y3
  have h4 : Evolves M P a y3 := by
    unfold y3
    refine Evolves.ite ?_ ?_
    · refine Evolves.modTmp (hm.bit rfl) e1 ?_
      exact h
    · exact h
  clear_value y3
  extract_lets +onlyGivenNames y5
  have h6 : Evolves M P a y5 := by
    unfold y5
    refine Evolves.modCh (hm.bit rfl) e1 ?_
    exact h4
  clear_value y5
  refine Evolves.modCh (hm.bit rfl) e1 ?_
  exact h6

theorem tmpHandover_ev (x1 x2 : _) (hm : Sub 0x4000010c0080208 M) (e1 : P x1.val) (h : Evolves M P a s) :
    Evolves M P a (tmpHandover x1 x2 s) := by
  unfold tmpHandover
  extract_lets +onlyGivenNames y1
  extract_lets +onlyGivenNames y2
  extract_lets +onlyGivenNames y3
  refine Evolves.ite ?_ ?_
  · exact h
  · refine Evolves.ite ?_ ?_
    · extract_lets +onlyGivenNames y4
      have h5 : Evolves M P a y4 := by
        unfold y4
        refine straddle_ev _ _ _ _ (hm.of rfl) e1 ?_
        refine Evolves.raise .tmp rfl (hm.bit rfl) e1 (hm.bit rfl) ?_
        refine delivSet_ev _ _ (hm.of rfl) e1 ?_
        exact h
      clear_value y4
      refine Evolves.ite ?_ ?_
      · refine Evolves.modTmp (hm.bit rfl) e1 ?_
        exact h5
      · refine calibStart_ev _ (hm.of rfl) e1 ?_
        exact h5
    · refine Evolves.ite ?_ ?_
      · extract_lets +onlyGivenNames y6
        have h7 : Evolves M P a y6 := by
          unfold y6
          refine Evolves.ite ?_ ?_
          · refine Evolves.putG .claims (Reg.group_claims rfl (by dsimp only [spareRes]; omega) (by dsimp only [spareRes]; omega)) (hm.bit rfl) rfl ?_
            exact h
          · exact h
        clear_value y6
        refine tmpFinish_ev _ (hm.of rfl) e1 ?_
        refine straddle_ev _ _ _ _ (hm.of rfl) e1 ?_
        refine Evolves.raise .tmp rfl (hm.bit rfl) e1 (hm.bit rfl) ?_
        exact h7
      · refine Evolves.ite ?_ ?_
        · refine tmpFinish_ev _ (hm.of rfl) e1 ?_
          refine straddle_ev _ _ _ _ (hm.of rfl) e1 ?_
          exact h
        · exact h

theorem tmpStraddleDone_ev (x1 x2 : _) (hm : Sub 0x1040000208 M) (e1 : P x1.val) (h : Evolves M P a s) :
    Evolves M P a (tmpStraddleDone x1 x2 s) := by
  unfold tmpStraddleDone
  refine Evolves.ite ?_ ?_
  · refine Evolves.modTmp (hm.bit rfl) e1 ?_
    refine calibStart_ev _ (hm.of rfl) e1 ?_
    exact h
  · exact h

theorem tmpConvLimit_ev (x1 : _) (hm : Sub 0x4410010d0080208 M) (e1 : P x1.val) (h : Evolves M P a s) :
    Evolves M P a (tmpConvLimit x1 s) := by
  unfold tmpConvLimit
  extract_lets +onlyGivenNames y1
  refine Evolves.ite ?_ ?_
  · refine tmpAbandonWith_ev _ _ _ (hm.of rfl) e1 ?_
    exact h
  · refine Evolves.ite ?_ ?_
    · refine Evolves.put .tmp rfl (hm.bit rfl) e1 ?_
      refine tmpPutBack_ev _ (hm.of rfl) e1 ?_
      exact h
    · refine Evolves.ite ?_ ?_
      · extract_lets +onlyGivenNames y2
        have h3 : Evolves M P a y2 := by
          unfold y2
          refine Evolves.raise .tmp rfl (hm.bit rfl) e1 (hm.bit rfl) ?_
          refine Evolves.put .tmp rfl (hm.bit rfl) e1 ?_
          refine Evolves.put .tmp rfl (hm.bit rfl) e1 ?_
          exact h
        clear_value y2
        refine State.logEvent_ev _ _ (hm.of rfl) ?_
        refine Evolves.report (hm.bit rfl) ?_
        exact h3
      · exact h

theorem tmpApply_ev (x1 x2 x3 x4 x5 : _) (hm : Sub 0x40000208 M) (e1 : P x1.val) (h : Evolves M P a s) :
    Evolves M P a (tmpApply x1 x2 x3 x4 x5 s) := by
  unfold tmpApply
  extract_lets +onlyGivenNames y1
  extract_lets +onlyGivenNames y2
  extract_lets +onlyGivenNames y3
  have h4 : Evolves M P a y3 := by
    unfold y3
    refine Evolves.put .tmp (Reg.group_tmp rfl (by dsimp only [spareRes]; omega) (by dsimp only [spareRes]; omega)) (hm.bit rfl) e1 ?_
    exact h
  clear_value y3
  extract_lets +onlyGivenNames y5
  have h6 : Evolves M P a y5 := by
    unfold y5
    split
    · refine Evolves.foldl _ (fun s7 x8 h9 => ?_) ?_
      · refine Evolves.ite ?_ ?_
        · refine Evolves.putInt .tmp (Reg.group_tmp rfl (by dsimp only [spareRes]; omega) (by dsimp only [spareRes]; omega)) (hm.bit rfl) e1 ?_
          refine Evolves.putInt .tmp (Reg.group_tmp rfl (by dsimp only [spareRes]; omega) (by dsimp only [spareRes]; omega)) (hm.bit rfl) e1 ?_
          exact h9
        · exact h9
      · exact h4
    · exact h4
  clear_value y5
  extract_lets +onlyGivenNames y10
  have h11 : Evolves M P a y10 := by
    unfold y10
    refine Evolves.put .chain rfl (hm.bit rfl) e1 ?_
    refine Evolves.put .chain rfl (hm.bit rfl) e1 ?_
    exact h6
  clear_value y10
  extract_lets +onlyGivenNames y12
  have h13 : Evolves M P a y12 := by
    unfold y12
    refine Evolves.incWrap .tmp rfl (hm.bit rfl) e1 ?_
    refine Evolves.put .tmp (Reg.group_tmp rfl (by dsimp only [spareRes]; omega) (by dsimp only [spareRes]; omega)) (hm.bit rfl) e1 ?_
    exact h11
  clear_value y12
  refine sendAdc_ev _ _ (hm.of rfl) e1 ?_
  refine Evolves.put .tmp rfl (hm.bit rfl) e1 ?_
  refine Evolves.inc .tmp rfl (hm.bit rfl) e1 ?_
  exact h13

theorem tmpAccept_ev (x1 x2 : _) (hm : Sub 0x40000208 M) (e1 : P x1.val) (h : Evolves M P a s) :
    Evolves M P a (tmpAccept x1 x2 s) := by
  unfold tmpAccept
  extract_lets +onlyGivenNames y1
  extract_lets +onlyGivenNames y2
  refine Evolves.ite ?_ ?_
  · refine Evolves.put .tmp rfl (hm.bit rfl) e1 ?_
    refine tmpApply_ev _ _ _ _ _ (hm.of rfl) e1 ?_
    exact h
  · extract_lets +onlyGivenNames y3
    extract_lets +onlyGivenNames y4
    have h5 : Evolves M P a y4 := by
      unfold y4
      refine Evolves.inc .tmp rfl (hm.bit rfl) e1 ?_
      refine Evolves.put .tmp rfl (hm.bit rfl) e1 ?_
      exact h
    clear_value y4
    refine Evolves.put .tmp rfl (hm.bit rfl) e1 ?_
    refine tmpPutBack_ev _ (hm.of rfl) e1 ?_
    exact h5

theorem tmpWindow_ev (x1 x2 : _) (hm : Sub 0x1040000208 M) (e1 : P x1.val) (h : Evolves M P a s) :
    Evolves M P a (tmpWindow x1 x2 s) := by
  unfold tmpWindow
  extract_lets +onlyGivenNames y1
  refine Evolves.ite ?_ ?_
  · extract_lets +onlyGivenNames y2
    extract_lets +onlyGivenNames y3
    have h4 : Evolves M P a y3 := by
      unfold y3
      refine Evolves.modTmp (hm.bit rfl) e1 ?_
      refine trialOff_ev _ _ (hm.of rfl) e1 ?_
      exact h
    clear_value y3
    refine Evolves.ite ?_ ?_
    · refine trialOn_ev _ _ (hm.of rfl) e1 ?_
      refine Evolves.put .tmp rfl (hm.bit rfl) e1 ?_
      exact h4
    · refine trialOn_ev _ _ (hm.of rfl) e1 ?_
      exact h4
  · refine Evolves.ite ?_ ?_
    · extract_lets +onlyGivenNames y5
      extract_lets +onlyGivenNames y6
      have h7 : Evolves M P a y6 := by
        unfold y6
        refine Evolves.modTmp (hm.bit rfl) e1 ?_
        refine trialOff_ev _ _ (hm.of rfl) e1 ?_
        exact h
      clear_value y6
      refine Evolves.ite ?_ ?_
      · refine tmpAccept_ev _ _ (hm.of rfl) e1 ?_
        exact h7
      · refine trialOn_ev _ _ (hm.of rfl) e1 ?_
        exact h7
    · exact h

theorem tmpAbortOp_ev (x1 : _) (hm : Sub 0x10c0080208 M) (e1 : P x1.val) (h : Evolves M P a s) :
    Evolves M P a (tmpAbortOp x1 s) := by
  unfold tmpAbortOp
  refine tmpAbandonWith_ev _ _ _ (hm.of rfl) e1 ?_
  exact h

theorem tmpPreempt_ev (x1 : _) (hm : Sub 0x4000010c0080208 M) (e1 : P x1.val) (h : Evolves M P a s) :
    Evolves M P a (tmpPreempt x1 s) := by
  unfold tmpPreempt
  refine Evolves.ite ?_ ?_
  · exact h
  · extract_lets +onlyGivenNames y1
    extract_lets +onlyGivenNames y2
    have h3 : Evolves M P a y2 := by
      unfold y2
      refine Evolves.raise .tmp rfl (hm.bit rfl) e1 (hm.bit rfl) ?_
      refine Evolves.putG .claims (Reg.group_claims rfl (by dsimp only [spareRes]; omega) (by dsimp only [spareRes]; omega)) (hm.bit rfl) rfl ?_
      exact h
    clear_value y2
    extract_lets +onlyGivenNames y4
    have h5 : Evolves M P a y4 := by
      unfold y4
      refine Evolves.modTmp (hm.bit rfl) e1 ?_
      exact h3
    clear_value y4
    refine tmpAbandonWith_ev _ _ _ (hm.of rfl) e1 ?_
    exact h5

theorem spareClaim_ev (x1 : _) (hm : Sub 0x4000010c0080208 M) (e1 : P x1.val) (h : Evolves M P a s) :
    Evolves M P a (spareClaim x1 s) := by
  unfold spareClaim
  extract_lets +onlyGivenNames y1
  refine Evolves.ite ?_ ?_
  · exact h
  · refine Evolves.ite ?_ ?_
    · refine Evolves.putG .claims (Reg.group_claims rfl (by dsimp only [spareRes]; omega) (by dsimp only [spareRes]; omega)) (hm.bit rfl) rfl ?_
      exact h
    · refine Evolves.ite ?_ ?_
      · refine tmpPreempt_ev _ (hm.of rfl) e1 ?_
        exact h
      · refine claimDeny_ev _ _ (hm.of rfl) ?_
        exact h

theorem handoverClaim_ev (x1 x2 : _) (hm : Sub 0x4000010c0080208 M) (e1 : P x1.val) (h : Evolves M P a s) :
    Evolves M P a (handoverClaim x1 x2 s) := by
  unfold handoverClaim
  extract_lets +onlyGivenNames y1
  extract_lets +onlyGivenNames y2
  have h3 : Evolves M P a y2 := by
    unfold y2
    refine tmpHandover_ev _ _ (hm.of rfl) e1 ?_
    exact h
  clear_value y2
  refine Evolves.ite ?_ ?_
  · refine spareClaim_ev _ (hm.of rfl) e1 ?_
    exact h3
  · exact h3

theorem tmpFreq_ev (x1 x2 : _) (hm : Sub 0x400000000000008 M) (e1 : P x1.val) (h : Evolves M P a s) :
    Evolves M P a (tmpFreq x1 x2 s) := by
  unfold tmpFreq
  extract_lets +onlyGivenNames y1
  extract_lets +onlyGivenNames y2
  extract_lets +onlyGivenNames y3
  have h4 : Evolves M P a y3 := by
    unfold y3
    refine Evolves.put .tmp rfl (hm.bit rfl) e1 ?_
    refine Evolves.putInt .tmp rfl (hm.bit rfl) e1 ?_
    exact h
  clear_value y3
  refine Evolves.ite ?_ ?_
  · refine Evolves.raise .tmp rfl (hm.bit rfl) e1 (hm.bit rfl) ?_
    exact h4
  · exact h4

theorem adcMapWrite_ev (x1 x2 x3 : _) (hm : Sub 0x400000040000008 M) (e1 : P x1.val) (h : Evolves M P a s) :
    Evolves M P a (adcMapWrite x1 x2 x3 s) := by
  unfold adcMapWrite
  refine Evolves.ite ?_ ?_
  · exact h
  · refine Evolves.ite ?_ ?_
    · refine sendTrim_ev _ _ _ _ (hm.of rfl) e1 ?_
      refine Evolves.put .tmp (Reg.group_tmp rfl (by dsimp only [spareRes]; omega) (by dsimp only [spareRes]; omega)) (hm.bit rfl) e1 ?_
      exact h
    · refine Evolves.raise .tmp rfl (hm.bit rfl) e1 (hm.bit rfl) ?_
      exact h

theorem adcTrimWrite_ev (x1 x2 x3 x4 : _) (hm : Sub 0x40000008 M) (e1 : P x1.val) (h : Evolves M P a s) :
    Evolves M P a (adcTrimWrite x1 x2 x3 x4 s) := by
  unfold adcTrimWrite
  refine Evolves.ite ?_ ?_
  · exact h
  · refine sendTrim_ev _ _ _ _ (hm.of rfl) e1 ?_
    refine sendTrim_ev _ _ _ _ (hm.of rfl) e1 ?_
    refine Evolves.wrE .tmp (Reg.group_tmp rfl (by dsimp only [spareRes]; omega) (by dsimp only [spareRes]; omega)) (hm.bit rfl) e1 ?_
    exact h

theorem tmpCntClear_ev (x1 x2 : _) (hm : Sub 0x8 M) (e1 : P x1.val) (h : Evolves M P a s) :
    Evolves M P a (tmpCntClear x1 x2 s) := by
  unfold tmpCntClear
  extract_lets +onlyGivenNames y1
  have h2 : Evolves M P a y1 := by
    unfold y1
    refine Evolves.wrE .tmp rfl (hm.bit rfl) e1 ?_
    exact h
  clear_value y1
  refine Evolves.put .tmp rfl (hm.bit rfl) e1 ?_
  refine Evolves.put .tmp rfl (hm.bit rfl) e1 ?_
  refine Evolves.put .tmp rfl (hm.bit rfl) e1 ?_
  exact h2

theorem execTemperPeriod_next (x1 : _) (hm : Sub 0x400001040080208 M) (e1 : P x1.val) :
    ∃ t, (execTemperPeriod x1 s) = .next t ∧ Evolves M P s t := by
  refine ⟨_, rfl, ?_⟩
  have h := Evolves.refl M P s
  refine Evolves.ite ?_ ?_
  · refine tmpTry_ev _ _ _ (hm.of rfl) e1 ?_
    exact h
  · exact h

theorem execTmpStart_next (x1 : _) (hm : Sub 0x400001040080208 M) (e1 : P x1.val) :
    ∃ t, (execTmpStart x1 s) = .next t ∧ Evolves M P s t := by
  refine ⟨_, rfl, ?_⟩
  have h := Evolves.refl M P s
  refine tmpTry_ev _ _ _ (hm.of rfl) e1 ?_
  exact h

theorem execTmpAbort_next (x1 : _) (hm : Sub 0x10c0080208 M) (e1 : P x1.val) :
    ∃ t, (execTmpAbort x1 s) = .next t ∧ Evolves M P s t := by
  refine ⟨_, rfl, ?_⟩
  have h := Evolves.refl M P s
  refine tmpAbortOp_ev _ (hm.of rfl) e1 ?_
  exact h

theorem execTmpCntClr_next (x1 x2 : _) (hm : Sub 0x8 M) (e1 : P x1.val) :
    ∃ t, (execTmpCntClr x1 x2 s) = .next t ∧ Evolves M P s t := by
  refine ⟨_, rfl, ?_⟩
  have h := Evolves.refl M P s
  refine tmpCntClear_ev _ _ (hm.of rfl) e1 ?_
  exact h

theorem execTemperRetryDelay_next (x1 : _) (hm : Sub 0x400001040080208 M) (e1 : P x1.val) :
    ∃ t, (execTemperRetryDelay x1 s) = .next t ∧ Evolves M P s t := by
  refine ⟨_, rfl, ?_⟩
  have h := Evolves.refl M P s
  refine Evolves.ite ?_ ?_
  · refine tmpTry_ev _ _ _ (hm.of rfl) e1 ?_
    refine Evolves.modTmp (hm.bit rfl) e1 ?_
    exact h
  · exact h

theorem execTemperMatch_next (x1 : _) (hm : Sub 0x4000010c0080208 M) (e1 : P x1.val) :
    ∃ t, (execTemperMatch x1 s) = .next t ∧ Evolves M P s t := by
  refine ⟨_, rfl, ?_⟩
  have h := Evolves.refl M P s
  refine tmpMatch_ev _ (hm.of rfl) e1 ?_
  exact h

theorem execSpotHandover_next (x1 x2 : _) (hm : Sub 0x4000010c0080208 M) (e1 : P x1.val) :
    ∃ t, (execSpotHandover x1 x2 s) = .next t ∧ Evolves M P s t := by
  refine ⟨_, rfl, ?_⟩
  have h := Evolves.refl M P s
  refine handoverClaim_ev _ _ (hm.of rfl) e1 ?_
  exact h

theorem execTemperConvLimit_next (x1 : _) (hm : Sub 0x4410010d0080208 M) (e1 : P x1.val) :
    ∃ t, (execTemperConvLimit x1 s) = .next t ∧ Evolves M P s t := by
  refine ⟨_, rfl, ?_⟩
  have h := Evolves.refl M P s
  refine tmpConvLimit_ev _ (hm.of rfl) e1 ?_
  exact h

theorem execTemperWindowDone_next (x1 x2 : _) (hm : Sub 0x1040000208 M) (e1 : P x1.val) :
    ∃ t, (execTemperWindowDone x1 x2 s) = .next t ∧ Evolves M P s t := by
  refine ⟨_, rfl, ?_⟩
  have h := Evolves.refl M P s
  refine tmpWindow_ev _ _ (hm.of rfl) e1 ?_
  exact h

theorem execTemperFreqMeasure_next (x1 x2 : _) (hm : Sub 0x400000000000008 M) (e1 : P x1.val) :
    ∃ t, (execTemperFreqMeasure x1 x2 s) = .next t ∧ Evolves M P s t := by
  refine ⟨_, rfl, ?_⟩
  have h := Evolves.refl M P s
  refine tmpFreq_ev _ _ (hm.of rfl) e1 ?_
  exact h

theorem execTmpAdcmapWrite_next (x1 x2 x3 : _) (hm : Sub 0x400000040000008 M) (e1 : P x1.val) :
    ∃ t, (execTmpAdcmapWrite x1 x2 x3 s) = .next t ∧ Evolves M P s t := by
  refine ⟨_, rfl, ?_⟩
  have h := Evolves.refl M P s
  refine adcMapWrite_ev _ _ _ (hm.of rfl) e1 ?_
  exact h

theorem execTmpAdctrimWrite_next (x1 x2 x3 x4 : _) (hm : Sub 0x40000008 M) (e1 : P x1.val) :
    ∃ t, (execTmpAdctrimWrite x1 x2 x3 x4 s) = .next t ∧ Evolves M P s t := by
  refine ⟨_, rfl, ?_⟩
  have h := Evolves.refl M P s
  refine adcTrimWrite_ev _ _ _ _ (hm.of rfl) e1 ?_
  exact h

end Sys2Proof.Machine
end

