-- ==== Sys2Proof/Laws/LadderRun.lean ====
section
/-! SUPPORT. One lemma per operation of Machine/LadderRun.lean: the parts of the state it can touch and what it needs of the engines (`Evolves`). -/

namespace Sys2Proof.Machine

variable {M : Nat} {P : Nat → Prop} {a s : State}

theorem spareDone_ev (x1 : _) (hm : Sub 0x40080200 M) (e1 : P x1.val) (h : Evolves M P a s) :
    Evolves M P a (spareDone x1 s) := by
  unfold spareDone
  extract_lets +onlyGivenNames y1
  have h2 : Evolves M P a y1 := by
    unfold y1
    refine Evolves.put .chain rfl (hm.bit rfl) e1 ?_
    refine Evolves.put .chain rfl (hm.bit rfl) e1 ?_
    refine sendSpare_ev _ _ (hm.of rfl) e1 ?_
    exact h
  clear_value y1
  refine spareRelease_ev _ (hm.of rfl) ?_
  exact h2

theorem rampTarget_ev (x1 x2 x3 : _) (hm : Sub 0x100 M) (e1 : P x1.val) (h : Evolves M P a s) :
    Evolves M P a (rampTarget x1 x2 x3 s) := by
  unfold rampTarget
  extract_lets +onlyGivenNames y1
  have h2 : Evolves M P a y1 := by
    unfold y1
    refine Evolves.putInt .anv (Reg.group_anv rfl (by dsimp only [spareRes]; omega)) (hm.bit rfl) e1 ?_
    exact h
  clear_value y1
  refine Evolves.putBool .anv (Reg.group_anv rfl (by dsimp only [spareRes]; omega)) (hm.bit rfl) e1 ?_
  exact h2

theorem rungOffsets_ev (x1 x2 : _) (hm : Sub 0x100 M) (e1 : P x1.val) (h : Evolves M P a s) :
    Evolves M P a (rungOffsets x1 x2 s) := by
  unfold rungOffsets
  extract_lets +onlyGivenNames y1
  extract_lets +onlyGivenNames y2
  split
  · refine rampTarget_ev _ _ _ (hm.of rfl) e1 ?_
    exact h
  · refine rampTarget_ev _ _ _ (hm.of rfl) e1 ?_
    exact h
  · refine rampTarget_ev _ _ _ (hm.of rfl) e1 ?_
    exact h
  · refine rampTarget_ev _ _ _ (hm.of rfl) e1 ?_
    exact h

theorem rungSlow_ev (x1 x2 : _) (hm : Sub 0x10800000020 M) (e1 : P x1.val) (h : Evolves M P a s) :
    Evolves M P a (rungSlow x1 x2 s) := by
  unfold rungSlow
  split
  · exact h
  · extract_lets +onlyGivenNames y1
    extract_lets +onlyGivenNames y2
    extract_lets +onlyGivenNames y3
    have h4 : Evolves M P a y3 := by
      unfold y3
      refine Evolves.modSlow (hm.bit rfl) e1 ?_
      exact h
    clear_value y3
    refine spnTarget_ev _ _ (hm.of rfl) e1 ?_
    exact h4

theorem spareSetup_ev (x1 x2 x3 x4 : _) (hm : Sub 0x40000200 M) (e1 : P x1.val) (h : Evolves M P a s) :
    Evolves M P a (spareSetup x1 x2 x3 x4 s) := by
  unfold spareSetup
  extract_lets +onlyGivenNames y1
  have h2 : Evolves M P a y1 := by
    unfold y1
    refine Evolves.put .chain rfl (hm.bit rfl) e1 ?_
    refine sendSpare_ev _ _ (hm.of rfl) e1 ?_
    exact h
  clear_value y1
  extract_lets +onlyGivenNames y3
  have h4 : Evolves M P a y3 := by
    unfold y3
    refine Evolves.put .chain rfl (hm.bit rfl) e1 ?_
    refine Evolves.put .chain rfl (hm.bit rfl) e1 ?_
    exact h2
  clear_value y3
  refine capArm_ev _ _ (hm.of rfl) e1 ?_
  refine Evolves.put .chain rfl (hm.bit rfl) e1 ?_
  refine Evolves.put .chain rfl (hm.bit rfl) e1 ?_
  exact h4

theorem attemptBegin_ev (x1 x2 : _) (hm : Sub 0x10840000330 M) (e1 : P x1.val) (h : Evolves M P a s) :
    Evolves M P a (attemptBegin x1 x2 s) := by
  unfold attemptBegin
  extract_lets +onlyGivenNames y1
  extract_lets +onlyGivenNames y2
  extract_lets +onlyGivenNames y3
  extract_lets +onlyGivenNames y4
  have h5 : Evolves M P a y4 := by
    unfold y4
    refine Evolves.put .rty rfl (hm.bit rfl) e1 ?_
    refine Evolves.put .rty rfl (hm.bit rfl) e1 ?_
    exact h
  clear_value y4
  extract_lets +onlyGivenNames y6
  have h7 : Evolves M P a y6 := by
    unfold y6
    refine Evolves.ite ?_ ?_
    · refine rungOffsets_ev _ _ (hm.of rfl) e1 ?_
      exact h5
    · refine Evolves.ite ?_ ?_
      · refine altNow_ev _ _ (hm.of rfl) e1 ?_
        refine Evolves.put .chain rfl (hm.bit rfl) e1 ?_
        exact h5
      · refine Evolves.ite ?_ ?_
        · refine spareSetup_ev _ _ _ _ (hm.of rfl) e1 ?_
          exact h5
        · exact h5
  clear_value y6
  extract_lets +onlyGivenNames y8
  have h9 : Evolves M P a y8 := by
    unfold y8
    refine Evolves.ite ?_ ?_
    · refine rungSlow_ev _ _ (hm.of rfl) e1 ?_
      exact h7
    · exact h7
  clear_value y8
  refine Evolves.modAtt (hm.bit rfl) e1 ?_
  exact h9

theorem attemptOpen_ev (x1 x2 x3 x4 : _) (hm : Sub 0xa00000092 M) (e1 : P x1.val) (h : Evolves M P a s) :
    Evolves M P a (attemptOpen x1 x2 x3 x4 s) := by
  unfold attemptOpen
  extract_lets +onlyGivenNames y1
  extract_lets +onlyGivenNames y2
  extract_lets +onlyGivenNames y3
  have h4 : Evolves M P a y3 := by
    unfold y3
    refine Evolves.put .seam rfl (hm.bit rfl) e1 ?_
    exact h
  clear_value y3
  extract_lets +onlyGivenNames y5
  have h6 : Evolves M P a y5 := by
    unfold y5
    refine Evolves.put .seam rfl (hm.bit rfl) e1 ?_
    refine Evolves.put .seam rfl (hm.bit rfl) e1 ?_
    exact h4
  clear_value y5
  extract_lets +onlyGivenNames y7
  have h8 : Evolves M P a y7 := by
    unfold y7
    refine Evolves.put .seam rfl (hm.bit rfl) e1 ?_
    refine Evolves.put .seam rfl (hm.bit rfl) e1 ?_
    exact h6
  clear_value y7
  refine Evolves.ite ?_ ?_
  · refine Evolves.modAtt (hm.bit rfl) e1 ?_
    refine Evolves.put .rty rfl (hm.bit rfl) e1 ?_
    refine seamStart_ev _ (hm.of rfl) e1 ?_
    exact h8
  · exact h8

theorem ladderAttemptOp_ev (x1 x2 x3 : _) (hm : Sub 0x400011ac00803ba M) (e1 : P x1.val) (h : Evolves M P a s) :
    Evolves M P a (ladderAttemptOp x1 x2 x3 s) := by
  unfold ladderAttemptOp
  refine Evolves.ite ?_ ?_
  · exact h
  · extract_lets +onlyGivenNames y1
    have h2 : Evolves M P a y1 := by
      unfold y1
      split
      · extract_lets +onlyGivenNames y3
        have h4 : Evolves M P a y3 := by
          unfold y3
          refine Evolves.ite ?_ ?_
          · refine spareClaim_ev _ (hm.of rfl) e1 ?_
            exact h
          · exact h
        clear_value y3
        refine Evolves.ite ?_ ?_
        · exact h4
        · refine attemptBegin_ev _ _ (hm.of rfl) e1 ?_
          exact h4
      · exact h
    clear_value y1
    split
    · refine Evolves.ite ?_ ?_
      · refine attemptOpen_ev _ _ _ _ (hm.of rfl) e1 ?_
        exact h2
      · exact h2
    · exact h2

theorem attemptUndo_ev (x1 x2 : _) (hm : Sub 0x840080310 M) (e1 : P x1.val) (h : Evolves M P a s) :
    Evolves M P a (attemptUndo x1 x2 s) := by
  unfold attemptUndo
  extract_lets +onlyGivenNames y1
  have h2 : Evolves M P a y1 := by
    unfold y1
    refine Evolves.ite ?_ ?_
    · refine rampTarget_ev _ _ _ (hm.of rfl) e1 ?_
      refine rampTarget_ev _ _ _ (hm.of rfl) e1 ?_
      exact h
    · exact h
  clear_value y1
  extract_lets +onlyGivenNames y3
  have h4 : Evolves M P a y3 := by
    unfold y3
    refine Evolves.foldl _ (fun s5 x6 h7 => ?_) ?_
    · refine Evolves.ite ?_ ?_
      · refine Evolves.put .chain rfl (hm.bit rfl) e1 ?_
        exact h7
      · refine Evolves.ite ?_ ?_
        · refine Evolves.put .chain rfl (hm.bit rfl) e1 ?_
          exact h7
        · exact h7
    · exact h2
  clear_value y3
  extract_lets +onlyGivenNames y8
  have h9 : Evolves M P a y8 := by
    unfold y8
    refine Evolves.ite ?_ ?_
    · refine altNow_ev _ _ (hm.of rfl) e1 ?_
      exact h4
    · exact h4
  clear_value y8
  extract_lets +onlyGivenNames y10
  have h11 : Evolves M P a y10 := by
    unfold y10
    refine Evolves.ite ?_ ?_
    · refine spareDone_ev _ (hm.of rfl) e1 ?_
      refine Evolves.put .chain rfl (hm.bit rfl) e1 ?_
      exact h9
    · exact h9
  clear_value y10
  refine Evolves.modAtt (hm.bit rfl) e1 ?_
  refine Evolves.put .rty rfl (hm.bit rfl) e1 ?_
  exact h11

theorem speedBack_ev (x1 x2 : _) (hm : Sub 0x10800000020 M) (e1 : P x1.val) (h : Evolves M P a s) :
    Evolves M P a (speedBack x1 x2 s) := by
  unfold speedBack
  split
  · exact h
  · extract_lets +onlyGivenNames y1
    refine Evolves.ite ?_ ?_
    · refine spnTarget_ev _ _ (hm.of rfl) e1 ?_
      refine Evolves.modSlow (hm.bit rfl) e1 ?_
      exact h
    · refine Evolves.modSlow (hm.bit rfl) e1 ?_
      exact h

theorem attemptEnd_ev (x1 x2 x3 : _) (hm : Sub 0xc010840080330 M) (e1 : P x1.val) (h : Evolves M P a s) :
    Evolves M P a (attemptEnd x1 x2 x3 s) := by
  unfold attemptEnd
  extract_lets +onlyGivenNames y1
  extract_lets +onlyGivenNames y2
  have h3 : Evolves M P a y2 := by
    unfold y2
    refine attemptUndo_ev _ _ (hm.of rfl) e1 ?_
    exact h
  clear_value y2
  extract_lets +onlyGivenNames y4
  have h5 : Evolves M P a y4 := by
    unfold y4
    refine Evolves.ite ?_ ?_
    · refine Evolves.withLadder (hm.bit rfl) ?_
      exact h3
    · exact h3
  clear_value y4
  extract_lets +onlyGivenNames y6
  have h7 : Evolves M P a y6 := by
    unfold y6
    refine Evolves.ite ?_ ?_
    · refine ladderLeave_ev _ _ _ (hm.of rfl) e1 ?_
      exact h5
    · refine Evolves.ite ?_ ?_
      · refine ladderRung7_ev _ _ (hm.of rfl) e1 ?_
        refine ladderMessage_ev _ _ _ (hm.of rfl) ?_
        exact h3
      · refine ladderFail_ev _ _ (hm.of rfl) e1 ?_
        exact h3
  clear_value y6
  refine speedBack_ev _ _ (hm.of rfl) e1 ?_
  exact h7

theorem attemptRunEnd_ev (x1 x2 : _) (hm : Sub 0xc0108c0080330 M) (e1 : P x1.val) (h : Evolves M P a s) :
    Evolves M P a (attemptRunEnd x1 x2 s) := by
  unfold attemptRunEnd
  extract_lets +onlyGivenNames y1
  extract_lets +onlyGivenNames y2
  have h3 : Evolves M P a y2 := by
    unfold y2
    refine Evolves.foldl _ (fun s4 x5 h6 => ?_) ?_
    · refine ladderLeave_ev _ _ _ (hm.of rfl) e1 ?_
      exact h6
    · exact h
  clear_value y2
  refine Evolves.ite ?_ ?_
  · refine Evolves.modAtt (hm.bit rfl) e1 ?_
    refine replayPlay_ev _ (hm.of rfl) e1 ?_
    exact h3
  · refine attemptEnd_ev _ _ _ (hm.of rfl) e1 ?_
    exact h3

theorem attemptFollow_ev (x1 : _) (hm : Sub 0xc010ac00803b2 M) (e1 : P x1.val) (h : Evolves M P a s) :
    Evolves M P a (attemptFollow x1 s) := by
  unfold attemptFollow
  split
  · exact h
  · refine Evolves.ite ?_ ?_
    · refine Evolves.ite ?_ ?_
      · exact h
      · refine attemptEnd_ev _ _ _ (hm.of rfl) e1 ?_
        exact h
    · refine Evolves.ite ?_ ?_
      · refine Evolves.ite ?_ ?_
        · refine attemptRunEnd_ev _ _ (hm.of rfl) e1 ?_
          exact h
        · refine Evolves.ite ?_ ?_
          · refine seamStop_ev _ (hm.of rfl) e1 ?_
            exact h
          · exact h
      · exact h

theorem attemptVoid_ev (x1 : _) (hm : Sub 0xa40080392 M) (e1 : P x1.val) (h : Evolves M P a s) :
    Evolves M P a (attemptVoid x1 s) := by
  unfold attemptVoid
  split
  · exact h
  · refine attemptUndo_ev _ _ (hm.of rfl) e1 ?_
    refine Evolves.put .chain rfl (hm.bit rfl) e1 ?_
    refine seamStop_ev _ (hm.of rfl) e1 ?_
    exact h

theorem ladderSkipOp_ev (x1 x2 : _) (hm : Sub 0xc000800000010 M) (e1 : P x1.val) (h : Evolves M P a s) :
    Evolves M P a (ladderSkipOp x1 x2 s) := by
  unfold ladderSkipOp
  refine Evolves.ite ?_ ?_
  · split
    · refine Evolves.ite ?_ ?_
      · refine Evolves.modAtt (hm.bit rfl) e1 ?_
        exact h
      · refine ladderRung7_ev _ _ (hm.of rfl) e1 ?_
        refine ladderMessage_ev _ _ _ (hm.of rfl) ?_
        exact h
    · refine ladderRung7_ev _ _ (hm.of rfl) e1 ?_
      refine ladderMessage_ev _ _ _ (hm.of rfl) ?_
      exact h
  · exact h

end Sys2Proof.Machine
end

