-- ==== Sys2Proof/Laws/Operands.lean ====
section
/-! SUPPORT. One lemma per operation of Machine/Operands.lean: the parts of the state it can touch and what it needs of the engines (`Evolves`). -/

namespace Sys2Proof.Machine

variable {M : Nat} {P : Nat → Prop} {a s : State}

theorem opBump_ev (x1 x2 : _) (hm : Sub 0x2000000000 M) (e1 : P x1.val) (h : Evolves M P a s) :
    Evolves M P a (opBump x1 x2 s) := by
  unfold opBump
  split
  · refine Evolves.modAnv (hm.bit rfl) e1 ?_
    exact h
  · exact h

end Sys2Proof.Machine
end

