-- ==== Sys2Proof/Laws/Servo.lean ====
section
/-! SUPPORT. One lemma per operation of Machine/Servo.lean: the parts of the state it can touch and what it needs of the engines (`Evolves`). -/

namespace Sys2Proof.Machine

variable {M : Nat} {P : Nat → Prop} {a s : State}

theorem loopSetSt_ev (x1 x2 : _) (hm : Sub 0x2000000000 M) (e1 : P x1.val) (h : Evolves M P a s) :
    Evolves M P a (loopSetSt x1 x2 s) := by
  unfold loopSetSt
  refine dmSet_ev _ _ _ (hm.of rfl) e1 ?_
  exact h

theorem loopIssue_ev (x1 x2 x3 : _) (hm : Sub 0x2000000000 M) (e1 : P x1.val) (h : Evolves M P a s) :
    Evolves M P a (loopIssue x1 x2 x3 s) := by
  unfold loopIssue
  refine dmSet_ev _ _ _ (hm.of rfl) e1 ?_
  refine dmSet_ev _ _ _ (hm.of rfl) e1 ?_
  refine dmSet_ev _ _ _ (hm.of rfl) e1 ?_
  exact h

theorem loopAck_ev (x1 x2 : _) (hm : Sub 0x2000000000 M) (e1 : P x1.val) (h : Evolves M P a s) :
    Evolves M P a (loopAck x1 x2 s) := by
  unfold loopAck
  refine dmSet_ev _ _ _ (hm.of rfl) e1 ?_
  refine dmSet_ev _ _ _ (hm.of rfl) e1 ?_
  exact h

theorem portPut_ev (x1 x2 x3 : _) (hm : Sub 0x2000000100 M) (e1 : P x1.val) (h : Evolves M P a s) :
    Evolves M P a (portPut x1 x2 x3 s) := by
  unfold portPut
  refine Evolves.put .anv (Reg.group_anv rfl (by dsimp only [spareRes]; omega)) (hm.bit rfl) e1 ?_
  refine Evolves.modAnv (hm.bit rfl) e1 ?_
  exact h

theorem focusSafe_ev (x1 : _) (hm : Sub 0x2000000100 M) (e1 : P x1.val) (h : Evolves M P a s) :
    Evolves M P a (focusSafe x1 s) := by
  unfold focusSafe
  refine portPut_ev _ _ _ (hm.of rfl) e1 ?_
  exact h

theorem saMove_ev (x1 : _) (hm : Sub 0x2000000100 M) (e1 : P x1.val) (h : Evolves M P a s) :
    Evolves M P a (saMove x1 s) := by
  unfold saMove
  refine portPut_ev _ _ _ (hm.of rfl) e1 ?_
  exact h

theorem rampPut_ev (x1 x2 x3 : _) (hm : Sub 0x2000000100 M) (e1 : P x1.val) (h : Evolves M P a s) :
    Evolves M P a (rampPut x1 x2 x3 s) := by
  unfold rampPut
  extract_lets +onlyGivenNames y1
  have h2 : Evolves M P a y1 := by
    unfold y1
    refine Evolves.modAnv (hm.bit rfl) e1 ?_
    exact h
  clear_value y1
  refine Evolves.putBool .anv (Reg.group_anv rfl (by dsimp only [spareRes]; omega)) (hm.bit rfl) e1 ?_
  refine dmSet_ev _ _ _ (hm.of rfl) e1 ?_
  exact h2

theorem rampRestart_ev (x1 x2 : _) (hm : Sub 0x2000000100 M) (e1 : P x1.val) (h : Evolves M P a s) :
    Evolves M P a (rampRestart x1 x2 s) := by
  unfold rampRestart
  extract_lets +onlyGivenNames y1
  refine rampPut_ev _ _ _ (hm.of rfl) e1 ?_
  exact h

theorem closeRamp_ev (x1 x2 x3 : _) (hm : Sub 0x100 M) (e1 : P x1.val) (h : Evolves M P a s) :
    Evolves M P a (closeRamp x1 x2 x3 s) := by
  unfold closeRamp
  refine rampTarget_ev _ _ _ (hm.of rfl) e1 ?_
  refine Evolves.put .anv (Reg.group_anv rfl (by dsimp only [spareRes]; omega)) (hm.bit rfl) e1 ?_
  exact h

theorem loopReject_ev (x1 : _) (hm : Sub 0x2000000000 M) (e1 : P x1.val) (h : Evolves M P a s) :
    Evolves M P a (loopReject x1 s) := by
  unfold loopReject
  refine loopAck_ev _ _ (hm.of rfl) e1 ?_
  exact h

theorem loopRetract_ev (x1 : _) (hm : Sub 0x2000000100 M) (e1 : P x1.val) (h : Evolves M P a s) :
    Evolves M P a (loopRetract x1 s) := by
  unfold loopRetract
  extract_lets +onlyGivenNames y1
  have h2 : Evolves M P a y1 := by
    unfold y1
    refine loopIssue_ev _ _ _ (hm.of rfl) e1 ?_
    exact h
  clear_value y1
  refine Evolves.ite ?_ ?_
  · refine loopAck_ev _ _ (hm.of rfl) e1 ?_
    refine loopSetSt_ev _ _ (hm.of rfl) e1 ?_
    refine focusSafe_ev _ (hm.of rfl) e1 ?_
    exact h2
  · exact h2

theorem engineFail_ev (x1 : _) (hm : Sub 0x404036a400803f2 M) (e1 : P x1.val) (h : Evolves M P a s) :
    Evolves M P a (engineFail x1 s) := by
  unfold engineFail
  extract_lets +onlyGivenNames y1
  have h2 : Evolves M P a y1 := by
    unfold y1
    refine loopRetract_ev _ (hm.of rfl) e1 ?_
    exact h
  clear_value y1
  extract_lets +onlyGivenNames y3
  have h4 : Evolves M P a y3 := by
    unfold y3
    refine Evolves.ite ?_ ?_
    · refine spnCoastOp_ev _ (hm.of rfl) e1 ?_
      exact h2
    · refine spnTarget_ev _ _ (hm.of rfl) e1 ?_
      exact h2
  clear_value y3
  extract_lets +onlyGivenNames y5
  have h6 : Evolves M P a y5 := by
    unfold y5
    refine slgEn_ev _ _ (hm.of rfl) e1 ?_
    exact h4
  clear_value y5
  extract_lets +onlyGivenNames y7
  have h8 : Evolves M P a y7 := by
    unfold y7
    refine Evolves.ite ?_ ?_
    · exact h6
    · refine sldStop_ev _ (hm.of rfl) e1 ?_
      exact h6
  clear_value y7
  extract_lets +onlyGivenNames y9
  have h10 : Evolves M P a y9 := by
    unfold y9
    refine sldParkOp_ev _ (hm.of rfl) e1 ?_
    exact h8
  clear_value y9
  extract_lets +onlyGivenNames y11
  have h12 : Evolves M P a y11 := by
    unfold y11
    refine Evolves.modLoop (hm.bit rfl) e1 ?_
    exact h10
  clear_value y11
  extract_lets +onlyGivenNames y13
  have h14 : Evolves M P a y13 := by
    unfold y13
    refine ladderDrop_ev _ (hm.of rfl) e1 ?_
    refine attemptVoid_ev _ (hm.of rfl) e1 ?_
    exact h12
  clear_value y13
  refine Evolves.note (hm.bit rfl) ?_
  refine Evolves.report (hm.bit rfl) ?_
  exact h14

theorem recoveryFailed_ev (x1 : _) (hm : Sub 0x404036a400803f2 M) (e1 : P x1.val) (h : Evolves M P a s) :
    Evolves M P a (recoveryFailed x1 s) := by
  unfold recoveryFailed
  extract_lets +onlyGivenNames y1
  extract_lets +onlyGivenNames y2
  have h3 : Evolves M P a y2 := by
    unfold y2
    refine Evolves.modLoop (hm.bit rfl) e1 ?_
    exact h
  clear_value y2
  refine Evolves.ite ?_ ?_
  · refine engineFail_ev _ (hm.of rfl) e1 ?_
    exact h3
  · exact h3

theorem loopFault_ev (x1 x2 : _) (hm : Sub 0x40c436ec00803f6 M) (e1 : P x1.val) (h : Evolves M P a s) :
    Evolves M P a (loopFault x1 x2 s) := by
  unfold loopFault
  extract_lets +onlyGivenNames y1
  have h2 : Evolves M P a y1 := by
    unfold y1
    refine attemptVoid_ev _ (hm.of rfl) e1 ?_
    refine seamStop_ev _ (hm.of rfl) e1 ?_
    exact h
  clear_value y1
  extract_lets +onlyGivenNames y3
  have h4 : Evolves M P a y3 := by
    unfold y3
    refine Evolves.ite ?_ ?_
    · refine wrAbort_ev _ _ (hm.of rfl) e1 ?_
      refine laserOff_ev _ (hm.of rfl) e1 ?_
      exact h2
    · exact h2
  clear_value y3
  extract_lets +onlyGivenNames y5
  extract_lets +onlyGivenNames y6
  have h7 : Evolves M P a y6 := by
    unfold y6
    refine Evolves.modLoop (hm.bit rfl) e1 ?_
    exact h4
  clear_value y6
  refine Evolves.ite ?_ ?_
  · exact h7
  · refine recoveryFailed_ev _ (hm.of rfl) e1 ?_
    exact h7

theorem focusLostOp_ev (x1 x2 : _) (hm : Sub 0x40c436ec00803f6 M) (e1 : P x1.val) (h : Evolves M P a s) :
    Evolves M P a (focusLostOp x1 x2 s) := by
  unfold focusLostOp
  refine loopFault_ev _ _ (hm.of rfl) e1 ?_
  refine loopSetSt_ev _ _ (hm.of rfl) e1 ?_
  refine focusSafe_ev _ (hm.of rfl) e1 ?_
  exact h

theorem trackLostOp_ev (x1 : _) (hm : Sub 0x40c436ec00803f6 M) (e1 : P x1.val) (h : Evolves M P a s) :
    Evolves M P a (trackLostOp x1 s) := by
  unfold trackLostOp
  refine loopFault_ev _ _ (hm.of rfl) e1 ?_
  refine loopSetSt_ev _ _ (hm.of rfl) e1 ?_
  exact h

theorem loopLoss_ev (x1 x2 : _) (hm : Sub 0x40c436ec00803f6 M) (e1 : P x1.val) (h : Evolves M P a s) :
    Evolves M P a (loopLoss x1 x2 s) := by
  unfold loopLoss
  split
  · refine focusLostOp_ev _ _ (hm.of rfl) e1 ?_
    refine loopAck_ev _ _ (hm.of rfl) e1 ?_
    exact h
  · refine trackLostOp_ev _ (hm.of rfl) e1 ?_
    refine loopAck_ev _ _ (hm.of rfl) e1 ?_
    exact h

theorem loopCommand_ev (x1 x2 x3 x4 x5 : _) (hm : Sub 0x2000000000 M) (e1 : P x1.val) (hx5 : ∀ t, Evolves M P a t → Evolves M P a (x5 t)) (h : Evolves M P a s) :
    Evolves M P a (loopCommand x1 x2 x3 x4 x5 s) := by
  unfold loopCommand
  extract_lets +onlyGivenNames y1
  have h2 : Evolves M P a y1 := by
    unfold y1
    refine loopIssue_ev _ _ _ (hm.of rfl) e1 ?_
    exact h
  clear_value y1
  refine Evolves.ite ?_ ?_
  · refine Evolves.ite ?_ ?_
    · apply hx5
      exact h2
    · refine loopReject_ev _ (hm.of rfl) e1 ?_
      exact h2
  · exact h2

theorem searchNotFound_ev (x1 : _) (hm : Sub 0x404036a400803f2 M) (e1 : P x1.val) (h : Evolves M P a s) :
    Evolves M P a (searchNotFound x1 s) := by
  unfold searchNotFound
  extract_lets +onlyGivenNames y1
  extract_lets +onlyGivenNames y2
  have h3 : Evolves M P a y2 := by
    unfold y2
    refine loopAck_ev _ _ (hm.of rfl) e1 ?_
    refine loopSetSt_ev _ _ (hm.of rfl) e1 ?_
    refine focusSafe_ev _ (hm.of rfl) e1 ?_
    exact h
  clear_value y2
  extract_lets +onlyGivenNames y4
  have h5 : Evolves M P a y4 := by
    unfold y4
    refine Evolves.modLoop (hm.bit rfl) e1 ?_
    exact h3
  clear_value y4
  extract_lets +onlyGivenNames y6
  have h7 : Evolves M P a y6 := by
    unfold y6
    refine Evolves.ite ?_ ?_
    · exact h5
    · refine recoveryFailed_ev _ (hm.of rfl) e1 ?_
      exact h5
  clear_value y6
  refine Evolves.ite ?_ ?_
  · refine Evolves.note (hm.bit rfl) ?_
    refine Evolves.report (hm.bit rfl) ?_
    exact h7
  · exact h7

theorem focusSearchOp_ev (x1 x2 x3 x4 : _) (hm : Sub 0x40c436ec00803f6 M) (e1 : P x1.val) (h : Evolves M P a s) :
    Evolves M P a (focusSearchOp x1 x2 x3 x4 s) := by
  unfold focusSearchOp
  refine Evolves.ite ?_ ?_
  · refine loopCommand_ev _ _ _ _ _ (hm.of rfl) e1 ?_ ?_
    · intro s1
      intro h2
      extract_lets +onlyGivenNames y3
      have h4 : Evolves M P a y3 := by
        unfold y3
        refine saMove_ev _ (hm.of rfl) e1 ?_
        exact h2
      clear_value y3
      refine Evolves.ite ?_ ?_
      · refine loopLoss_ev _ _ (hm.of rfl) e1 ?_
        exact h4
      · refine Evolves.ite ?_ ?_
        · refine loopAck_ev _ _ (hm.of rfl) e1 ?_
          refine loopSetSt_ev _ _ (hm.of rfl) e1 ?_
          refine rampRestart_ev _ _ (hm.of rfl) e1 ?_
          refine Evolves.modLoop (hm.bit rfl) e1 ?_
          exact h4
        · refine searchNotFound_ev _ (hm.of rfl) e1 ?_
          exact h4
    · refine closeRamp_ev _ _ _ (hm.of rfl) e1 ?_
      exact h
  · exact h

theorem trackOnOp_ev (x1 x2 : _) (hm : Sub 0x40c436ec00803f6 M) (e1 : P x1.val) (h : Evolves M P a s) :
    Evolves M P a (trackOnOp x1 x2 s) := by
  unfold trackOnOp
  refine Evolves.ite ?_ ?_
  · refine loopCommand_ev _ _ _ _ _ (hm.of rfl) e1 ?_ ?_
    · intro s1
      intro h2
      split
      · refine loopLoss_ev _ _ (hm.of rfl) e1 ?_
        exact h2
      · refine loopAck_ev _ _ (hm.of rfl) e1 ?_
        refine loopSetSt_ev _ _ (hm.of rfl) e1 ?_
        refine rampRestart_ev _ _ (hm.of rfl) e1 ?_
        refine Evolves.modLoop (hm.bit rfl) e1 ?_
        exact h2
    · refine closeRamp_ev _ _ _ (hm.of rfl) e1 ?_
      exact h
  · exact h

theorem trackOffOp_ev (x1 : _) (hm : Sub 0x2000000000 M) (e1 : P x1.val) (h : Evolves M P a s) :
    Evolves M P a (trackOffOp x1 s) := by
  unfold trackOffOp
  refine Evolves.ite ?_ ?_
  · refine loopCommand_ev _ _ _ _ _ (hm.of rfl) e1 ?_ ?_
    · intro s1
      intro h2
      refine loopAck_ev _ _ (hm.of rfl) e1 ?_
      refine loopSetSt_ev _ _ (hm.of rfl) e1 ?_
      exact h2
    · exact h
  · exact h

theorem jumpOp_ev (x1 x2 x3 : _) (hm : Sub 0x40c436ec00803f6 M) (e1 : P x1.val) (h : Evolves M P a s) :
    Evolves M P a (jumpOp x1 x2 x3 s) := by
  unfold jumpOp
  refine Evolves.ite ?_ ?_
  · refine loopCommand_ev _ _ _ _ _ (hm.of rfl) e1 ?_ ?_
    · intro s1
      intro h2
      split
      · refine loopLoss_ev _ _ (hm.of rfl) e1 ?_
        exact h2
      · refine loopAck_ev _ _ (hm.of rfl) e1 ?_
        refine dmSet_ev _ _ _ (hm.of rfl) e1 ?_
        exact h2
    · exact h
  · exact h

theorem layerTurn_ev (x1 x2 : _) (hm : Sub 0x82 M) (e1 : P x1.val) (h : Evolves M P a s) :
    Evolves M P a (layerTurn x1 x2 s) := by
  unfold layerTurn
  extract_lets +onlyGivenNames y1
  refine slgRates_ev _ _ _ (hm.of rfl) e1 ?_
  refine Evolves.putBool .seam rfl (hm.bit rfl) e1 ?_
  exact h

theorem layerJumpOp_ev (x1 x2 x3 : _) (hm : Sub 0x40c436ec00803f6 M) (e1 : P x1.val) (h : Evolves M P a s) :
    Evolves M P a (layerJumpOp x1 x2 x3 s) := by
  unfold layerJumpOp
  refine Evolves.ite ?_ ?_
  · refine loopCommand_ev _ _ _ _ _ (hm.of rfl) e1 ?_ ?_
    · intro s1
      intro h2
      extract_lets +onlyGivenNames y3
      have h4 : Evolves M P a y3 := by
        unfold y3
        refine saMove_ev _ (hm.of rfl) e1 ?_
        exact h2
      clear_value y3
      refine Evolves.ite ?_ ?_
      · refine layerTurn_ev _ _ (hm.of rfl) e1 ?_
        refine loopAck_ev _ _ (hm.of rfl) e1 ?_
        refine loopSetSt_ev _ _ (hm.of rfl) e1 ?_
        refine rampRestart_ev _ _ (hm.of rfl) e1 ?_
        exact h4
      · refine loopLoss_ev _ _ (hm.of rfl) e1 ?_
        exact h4
    · refine closeRamp_ev _ _ _ (hm.of rfl) e1 ?_
      exact h
  · exact h

theorem loopNopOp_ev (x1 : _) (hm : Sub 0x2000000000 M) (e1 : P x1.val) (h : Evolves M P a s) :
    Evolves M P a (loopNopOp x1 s) := by
  unfold loopNopOp
  refine Evolves.ite ?_ ?_
  · refine loopCommand_ev _ _ _ _ _ (hm.of rfl) e1 ?_ ?_
    · intro s1
      intro h2
      refine loopAck_ev _ _ (hm.of rfl) e1 ?_
      exact h2
    · exact h
  · exact h

theorem loopTimeout_ev (x1 : _) (hm : Sub 0x40c436ec00803f6 M) (e1 : P x1.val) (h : Evolves M P a s) :
    Evolves M P a (loopTimeout x1 s) := by
  unfold loopTimeout
  refine Evolves.ite ?_ ?_
  · exact h
  · refine loopFault_ev _ _ (hm.of rfl) e1 ?_
    refine loopRetract_ev _ (hm.of rfl) e1 ?_
    exact h

theorem seekStep_ev (x1 x2 : _) (hm : Sub 0x40c43eec00803f6 M) (e1 : P x1.val) (h : Evolves M P a s) :
    Evolves M P a (seekStep x1 x2 s) := by
  unfold seekStep
  extract_lets +onlyGivenNames y1
  have h2 : Evolves M P a y1 := by
    unfold y1
    refine slgEn_ev _ _ (hm.of rfl) e1 ?_
    refine trackOffOp_ev _ (hm.of rfl) e1 ?_
    exact h
  clear_value y1
  extract_lets +onlyGivenNames y3
  have h4 : Evolves M P a y3 := by
    unfold y3
    refine sldShift_ev _ _ (hm.of rfl) e1 ?_
    refine Evolves.putInt .sld rfl (hm.bit rfl) e1 ?_
    exact h2
  clear_value y3
  extract_lets +onlyGivenNames y5
  have h6 : Evolves M P a y5 := by
    unfold y5
    refine sldDone_ev _ (hm.of rfl) e1 ?_
    exact h4
  clear_value y5
  refine trackOnOp_ev _ _ (hm.of rfl) e1 ?_
  refine slgEn_ev _ _ (hm.of rfl) e1 ?_
  refine slgLoadOp_ev _ (hm.of rfl) e1 ?_
  exact h6

theorem seekLoop_ev (x1 x2 x3 x4 x5 : _) (hm : Sub 0x40c43eec00803f6 M) (e1 : P x1.val)
    (h : Evolves M P a s) : Evolves M P a (seekLoop x1 x2 x3 x4 x5 s) := by
  induction x3 generalizing x4 x5 s with
  | zero => exact h.modLoop (hm.bit rfl) e1
  | succ n ih =>
    unfold seekLoop
    extract_lets u
    have hu : Evolves M P a u := seekStep_ev _ _ (hm.of rfl) e1 h
    split
    · exact hu
    · extract_lets r
      exact Evolves.ite hu (Evolves.ite (jumpOp_ev _ _ _ (hm.of rfl) e1 hu) (ih _ _ hu))

theorem longSeekOp_ev (x1 x2 x3 x4 : _) (hm : Sub 0x40c43eec00803f6 M) (e1 : P x1.val) (h : Evolves M P a s) :
    Evolves M P a (longSeekOp x1 x2 x3 x4 s) := by
  unfold longSeekOp
  refine Evolves.ite ?_ ?_
  · refine seekLoop_ev _ _ _ _ _ (hm.of rfl) e1 ?_
    refine takeSpeed_ev _ _ (hm.of rfl) e1 ?_
    exact h
  · exact h

theorem sledRecover_ev (x1 x2 x3 : _) (hm : Sub 0x40002c0000000c0 M) (e1 : P x1.val) (h : Evolves M P a s) :
    Evolves M P a (sledRecover x1 x2 x3 s) := by
  unfold sledRecover
  extract_lets +onlyGivenNames y1
  have h2 : Evolves M P a y1 := by
    unfold y1
    refine Evolves.ite ?_ ?_
    · refine Evolves.modLoop (hm.bit rfl) e1 ?_
      refine Evolves.put .sld rfl (hm.bit rfl) e1 ?_
      exact h
    · exact h
  clear_value y1
  extract_lets +onlyGivenNames y3
  extract_lets +onlyGivenNames y4
  extract_lets +onlyGivenNames y5
  split
  · extract_lets +onlyGivenNames y6
    extract_lets +onlyGivenNames y7
    extract_lets +onlyGivenNames y8
    have h9 : Evolves M P a y8 := by
      unfold y8
      refine Evolves.ite ?_ ?_
      · refine encFault_ev _ (hm.of rfl) e1 ?_
        exact h2
      · exact h2
    clear_value y8
    unfold y5
    refine Evolves.modLoop (hm.bit rfl) e1 ?_
    refine slgLoadOp_ev _ (hm.of rfl) e1 ?_
    refine sldSetPos_ev _ _ (hm.of rfl) e1 ?_
    exact h9
  · refine Evolves.ite ?_ ?_
    · unfold y5
      refine Evolves.modLoop (hm.bit rfl) e1 ?_
      refine sldSetPos_ev _ _ (hm.of rfl) e1 ?_
      exact h2
    · exact h2

end Sys2Proof.Machine
end

