-- ==== Sys2Proof/Laws/Anvil.lean ====
section
/-! SUPPORT. One lemma per operation of Machine/Anvil.lean: the parts of the state it can touch and what it needs of the engines (`Evolves`). -/

namespace Sys2Proof.Machine

variable {M : Nat} {P : Nat → Prop} {a s : State}

theorem satPut_ev (x1 x2 x3 : _) (hm : Sub 0x2000000100 M) (e1 : P x1.val) (h : Evolves M P a s) :
    Evolves M P a (satPut x1 x2 x3 s) := by
  unfold satPut
  refine Evolves.putBool .anv (Reg.group_anv rfl (by dsimp only [spareRes]; omega)) (hm.bit rfl) e1 ?_
  refine Evolves.modAnv (hm.bit rfl) e1 ?_
  exact h

theorem actSend_ev (x1 : _) (hm : Sub 0x2040000000 M) (e1 : P x1.val) (h : Evolves M P a s) :
    Evolves M P a (actSend x1 s) := by
  unfold actSend
  extract_lets +onlyGivenNames y1
  extract_lets +onlyGivenNames y2
  extract_lets +onlyGivenNames y3
  refine Evolves.modAnv (hm.bit rfl) e1 ?_
  refine pushWord_ev _ _ (hm.of rfl) e1 ?_
  exact h

theorem holdPorts_ev (x1 : _) (hm : Sub 0x2000000100 M) (e1 : P x1.val) (h : Evolves M P a s) :
    Evolves M P a (holdPorts x1 s) := by
  unfold holdPorts
  extract_lets +onlyGivenNames y1
  have h2 : Evolves M P a y1 := by
    unfold y1
    refine Evolves.modAnv (hm.bit rfl) e1 ?_
    exact h
  clear_value y1
  refine Evolves.foldl _ (fun s3 x4 h5 => ?_) ?_
  · refine Evolves.ite ?_ ?_
    · refine satPut_ev _ _ _ (hm.of rfl) e1 ?_
      refine portPut_ev _ _ _ (hm.of rfl) e1 ?_
      exact h5
    · exact h5
  · exact h2

theorem faultTrip_ev (x1 x2 : _) (hm : Sub 0x40c436ec00803f6 M) (e1 : P x1.val) (h : Evolves M P a s) :
    Evolves M P a (faultTrip x1 x2 s) := by
  unfold faultTrip
  extract_lets +onlyGivenNames y1
  have h2 : Evolves M P a y1 := by
    unfold y1
    refine Evolves.put .anv rfl (hm.bit rfl) e1 ?_
    refine Evolves.put .anv rfl (hm.bit rfl) e1 ?_
    refine Evolves.put .anv rfl (hm.bit rfl) e1 ?_
    exact h
  clear_value y1
  extract_lets +onlyGivenNames y3
  have h4 : Evolves M P a y3 := by
    unfold y3
    refine Evolves.put .anv rfl (hm.bit rfl) e1 ?_
    refine Evolves.put .anv rfl (hm.bit rfl) e1 ?_
    refine Evolves.put .anv rfl (hm.bit rfl) e1 ?_
    exact h2
  clear_value y3
  extract_lets +onlyGivenNames y5
  have h6 : Evolves M P a y5 := by
    unfold y5
    refine Evolves.report (hm.bit rfl) ?_
    refine Evolves.inc .anv rfl (hm.bit rfl) e1 ?_
    refine Evolves.raise .anv rfl (hm.bit rfl) e1 (hm.bit rfl) ?_
    exact h4
  clear_value y5
  extract_lets +onlyGivenNames y7
  have h8 : Evolves M P a y7 := by
    unfold y7
    refine Evolves.modAnv (hm.bit rfl) e1 ?_
    exact h6
  clear_value y7
  extract_lets +onlyGivenNames y9
  have h10 : Evolves M P a y9 := by
    unfold y9
    refine actSend_ev _ (hm.of rfl) e1 ?_
    refine holdPorts_ev _ (hm.of rfl) e1 ?_
    exact h8
  clear_value y9
  refine loopFault_ev _ _ (hm.of rfl) e1 ?_
  refine wrAbort_ev _ _ (hm.of rfl) e1 ?_
  refine laserOff_ev _ (hm.of rfl) e1 ?_
  exact h10

theorem satTrip_ev (x1 : _) (hm : Sub 0x40c436ec00803f6 M) (e1 : P x1.val) (h : Evolves M P a s) :
    Evolves M P a (satTrip x1 s) := by
  unfold satTrip
  extract_lets +onlyGivenNames y1
  have h2 : Evolves M P a y1 := by
    unfold y1
    refine Evolves.raise .anv rfl (hm.bit rfl) e1 (hm.bit rfl) ?_
    refine Evolves.put .anv rfl (hm.bit rfl) e1 ?_
    exact h
  clear_value y1
  extract_lets +onlyGivenNames y3
  have h4 : Evolves M P a y3 := by
    unfold y3
    refine Evolves.report (hm.bit rfl) ?_
    refine Evolves.inc .anv rfl (hm.bit rfl) e1 ?_
    exact h2
  clear_value y3
  extract_lets +onlyGivenNames y5
  have h6 : Evolves M P a y5 := by
    unfold y5
    refine holdPorts_ev _ (hm.of rfl) e1 ?_
    exact h4
  clear_value y5
  extract_lets +onlyGivenNames y7
  have h8 : Evolves M P a y7 := by
    unfold y7
    refine Evolves.ite ?_ ?_
    · exact h6
    · refine actSend_ev _ (hm.of rfl) e1 ?_
      exact h6
  clear_value y7
  extract_lets +onlyGivenNames y9
  have h10 : Evolves M P a y9 := by
    unfold y9
    refine Evolves.ite ?_ ?_
    · refine wrAbort_ev _ _ (hm.of rfl) e1 ?_
      refine laserOff_ev _ (hm.of rfl) e1 ?_
      exact h8
    · exact h8
  clear_value y9
  refine loopFault_ev _ _ (hm.of rfl) e1 ?_
  exact h10

theorem satCount_ev (x1 x2 : _) (hm : Sub 0x2000000000 M) (e1 : P x1.val) (h : Evolves M P a s) :
    Evolves M P a (satCount x1 x2 s) := by
  unfold satCount
  extract_lets +onlyGivenNames y1
  extract_lets +onlyGivenNames y2
  refine Evolves.modAnv (hm.bit rfl) e1 ?_
  exact h

theorem satTripOp_ev (x1 : _) (hm : Sub 0x40c436ec00803f6 M) (e1 : P x1.val) (h : Evolves M P a s) :
    Evolves M P a (satTripOp x1 s) := by
  unfold satTripOp
  refine Evolves.ite ?_ ?_
  · refine satTrip_ev _ (hm.of rfl) e1 ?_
    exact h
  · exact h

theorem rampStep_ev (x1 x2 : _) (hm : Sub 0x2000000100 M) (e1 : P x1.val) (h : Evolves M P a s) :
    Evolves M P a (rampStep x1 x2 s) := by
  unfold rampStep
  extract_lets +onlyGivenNames y1
  refine Evolves.ite ?_ ?_
  · refine Evolves.modAnv (hm.bit rfl) e1 ?_
    refine rampRestart_ev _ _ (hm.of rfl) e1 ?_
    exact h
  · extract_lets +onlyGivenNames y2
    extract_lets +onlyGivenNames y3
    extract_lets +onlyGivenNames y4
    refine rampPut_ev _ _ _ (hm.of rfl) e1 ?_
    exact h

theorem bankSwitch_ev (x1 : _) (hm : Sub 0x400002000000100 M) (e1 : P x1.val) (h : Evolves M P a s) :
    Evolves M P a (bankSwitch x1 s) := by
  unfold bankSwitch
  refine Evolves.ite ?_ ?_
  · extract_lets +onlyGivenNames y1
    extract_lets +onlyGivenNames y2
    have h3 : Evolves M P a y2 := by
      unfold y2
      refine Evolves.raise .anv rfl (hm.bit rfl) e1 (hm.bit rfl) ?_
      refine Evolves.put .anv rfl (hm.bit rfl) e1 ?_
      refine Evolves.put .anv rfl (hm.bit rfl) e1 ?_
      exact h
    clear_value y2
    refine Evolves.modAnv (hm.bit rfl) e1 ?_
    refine Evolves.put .anv rfl (hm.bit rfl) e1 ?_
    exact h3
  · exact h

theorem progStart_ev (x1 : _) (hm : Sub 0x2000000100 M) (e1 : P x1.val) (h : Evolves M P a s) :
    Evolves M P a (progStart x1 s) := by
  unfold progStart
  refine Evolves.ite ?_ ?_
  · extract_lets +onlyGivenNames y1
    have h2 : Evolves M P a y1 := by
      unfold y1
      refine Evolves.put .anv rfl (hm.bit rfl) e1 ?_
      exact h
    clear_value y1
    refine Evolves.modAnv (hm.bit rfl) e1 ?_
    refine Evolves.put .anv rfl (hm.bit rfl) e1 ?_
    exact h2
  · exact h

theorem tickStart_ev (x1 x2 x3 x4 x5 : _) (hm : Sub 0x400002000000100 M) (e1 : P x1.val) (h : Evolves M P a s) :
    Evolves M P a (tickStart x1 x2 x3 x4 x5 s) := by
  unfold tickStart
  extract_lets +onlyGivenNames y1
  have h2 : Evolves M P a y1 := by
    unfold y1
    refine satCount_ev _ _ (hm.of rfl) e1 ?_
    exact h
  clear_value y1
  extract_lets +onlyGivenNames y3
  extract_lets +onlyGivenNames y4
  extract_lets +onlyGivenNames y5
  extract_lets +onlyGivenNames y6
  extract_lets +onlyGivenNames y7
  have h8 : Evolves M P a y7 := by
    unfold y7
    refine Evolves.modAnv (hm.bit rfl) e1 ?_
    exact h2
  clear_value y7
  extract_lets +onlyGivenNames y9
  have h10 : Evolves M P a y9 := by
    unfold y9
    refine Evolves.foldl _ (fun s11 x12 h13 => ?_) ?_
    · refine Evolves.put .anv (Reg.group_anv rfl (by dsimp only [spareRes]; omega)) (hm.bit rfl) e1 ?_
      exact h13
    · exact h8
  clear_value y9
  extract_lets +onlyGivenNames y14
  have h15 : Evolves M P a y14 := by
    unfold y14
    refine Evolves.putBool .anv rfl (hm.bit rfl) e1 ?_
    exact h10
  clear_value y14
  extract_lets +onlyGivenNames y16
  have h17 : Evolves M P a y16 := by
    unfold y16
    refine Evolves.ite ?_ ?_
    · refine Evolves.inc .anv rfl (hm.bit rfl) e1 ?_
      refine Evolves.raise .anv rfl (hm.bit rfl) e1 (hm.bit rfl) ?_
      exact h15
    · exact h15
  clear_value y16
  extract_lets +onlyGivenNames y18
  have h19 : Evolves M P a y18 := by
    unfold y18
    refine Evolves.foldl _ (fun s20 x21 h22 => ?_) ?_
    · refine rampStep_ev _ _ (hm.of rfl) e1 ?_
      exact h22
    · exact h17
  clear_value y18
  extract_lets +onlyGivenNames y23
  have h24 : Evolves M P a y23 := by
    unfold y23
    refine progStart_ev _ (hm.of rfl) e1 ?_
    refine bankSwitch_ev _ (hm.of rfl) e1 ?_
    exact h19
  clear_value y23
  extract_lets +onlyGivenNames y25
  refine Evolves.modAnv (hm.bit rfl) e1 ?_
  exact h24

theorem tickDue_ev (x1 x2 x3 : _) (hm : Sub 0x40c436ec00803f6 M) (e1 : P x1.val) (h : Evolves M P a s) :
    Evolves M P a (tickDue x1 x2 x3 s) := by
  unfold tickDue
  extract_lets +onlyGivenNames y1
  refine Evolves.ite ?_ ?_
  · exact h
  · refine Evolves.ite ?_ ?_
    · refine Evolves.ite ?_ ?_
      · refine Evolves.modAnv (hm.bit rfl) e1 ?_
        refine Evolves.inc .anv rfl (hm.bit rfl) e1 ?_
        refine Evolves.raise .anv rfl (hm.bit rfl) e1 (hm.bit rfl) ?_
        exact h
      · refine faultTrip_ev _ _ (hm.of rfl) e1 ?_
        exact h
    · refine tickStart_ev _ _ _ _ _ (hm.of rfl) e1 ?_
      exact h

theorem servoSet_ev (x1 x2 x3 : _) (hm : Sub 0x40c436ec00803f7 M) (e1 : P x1.val) (h : Evolves M P a s) :
    Evolves M P a (servoSet x1 x2 x3 s) := by
  unfold servoSet
  refine Evolves.ite ?_ ?_
  · exact h
  · refine Evolves.ite ?_ ?_
    · extract_lets +onlyGivenNames y1
      have h2 : Evolves M P a y1 := by
        unfold y1
        refine Evolves.modAnv (hm.bit rfl) e1 ?_
        exact h
      clear_value y1
      extract_lets +onlyGivenNames y3
      have h4 : Evolves M P a y3 := by
        unfold y3
        refine seamServo_ev _ _ (hm.of rfl) e1 ?_
        exact h2
      clear_value y3
      refine Evolves.ite ?_ ?_
      · refine tickDue_ev _ _ _ (hm.of rfl) e1 ?_
        exact h4
      · exact h4
    · refine Evolves.raise .hl rfl (hm.bit rfl) e1 (hm.bit rfl) ?_
      exact h

theorem repeatN_ev (x1 : Nat) (x2 : State → State) (_hm : Sub 0x0 M)
    (hf : ∀ t, Evolves M P a t → Evolves M P a (x2 t)) (h : Evolves M P a s) : Evolves M P a (repeatN x1 x2 s) := by
  induction x1 generalizing s with
  | zero => exact h
  | succ n ih => exact ih (hf _ h)

theorem anvIssue_ev (x1 x2 x3 x4 x5 x6 : _) (hm : Sub 0x40c436ec00803f6 M) (e1 : P x1.val) (hx6 : ∀ t, Evolves M P a t → Evolves M P a (x6 t)) (h : Evolves M P a s) :
    Evolves M P a (anvIssue x1 x2 x3 x4 x5 x6 s) := by
  unfold anvIssue
  extract_lets +onlyGivenNames y1
  refine Evolves.ite ?_ ?_
  · exact h
  · refine Evolves.ite ?_ ?_
    · refine faultTrip_ev _ _ (hm.of rfl) e1 ?_
      exact h
    · refine Evolves.ite ?_ ?_
      · refine faultTrip_ev _ _ (hm.of rfl) e1 ?_
        exact h
      · extract_lets +onlyGivenNames y2
        extract_lets +onlyGivenNames y3
        have h4 : Evolves M P a y3 := by
          unfold y3
          refine Evolves.modAnv (hm.bit rfl) e1 ?_
          exact h
        clear_value y3
        refine repeatN_ev _ _ (hm.of rfl) ?_ ?_
        · intro s5
          intro h6
          apply hx6
          exact h6
        · refine Evolves.put .anv rfl (hm.bit rfl) e1 ?_
          exact h4

theorem anvStep_ev (x1 x2 x3 : _) (hm : Sub 0x40c436ec00803f6 M) (e1 : P x1.val) (hx3 : ∀ t, Evolves M P a t → Evolves M P a (x3 t)) (h : Evolves M P a s) :
    Evolves M P a (anvStep x1 x2 x3 s) := by
  unfold anvStep
  refine anvIssue_ev _ _ _ _ _ _ (hm.of rfl) e1 ?_ ?_
  · intro s1
    intro h2
    apply hx3
    exact h2
  · exact h

theorem accProduct_ev (x1 x2 x3 x4 x5 : _) (hm : Sub 0x400002000000100 M) (e1 : P x1.val) (h : Evolves M P a s) :
    Evolves M P a (accProduct x1 x2 x3 x4 x5 s) := by
  unfold accProduct
  extract_lets +onlyGivenNames y1
  extract_lets +onlyGivenNames y2
  extract_lets +onlyGivenNames y3
  extract_lets +onlyGivenNames y4
  have h5 : Evolves M P a y4 := by
    unfold y4
    refine Evolves.ite ?_ ?_
    · refine accSet_ev _ _ _ _ (hm.of rfl) e1 ?_
      exact h
    · refine accSet_ev _ _ _ _ (hm.of rfl) e1 ?_
      exact h
  clear_value y4
  refine opBump_ev _ _ (hm.of rfl) e1 ?_
  refine opBump_ev _ _ (hm.of rfl) e1 ?_
  exact h5

theorem accLoad_ev (x1 x2 x3 x4 : _) (hm : Sub 0x400002000000100 M) (e1 : P x1.val) (h : Evolves M P a s) :
    Evolves M P a (accLoad x1 x2 x3 x4 s) := by
  unfold accLoad
  extract_lets +onlyGivenNames y1
  extract_lets +onlyGivenNames y2
  extract_lets +onlyGivenNames y3
  extract_lets +onlyGivenNames y4
  have h5 : Evolves M P a y4 := by
    unfold y4
    refine Evolves.ite ?_ ?_
    · refine accSet_ev _ _ _ _ (hm.of rfl) e1 ?_
      exact h
    · refine accSet_ev _ _ _ _ (hm.of rfl) e1 ?_
      exact h
  clear_value y4
  refine opBump_ev _ _ (hm.of rfl) e1 ?_
  exact h5

theorem accStore_ev (x1 x2 x3 : _) (hm : Sub 0x400002000000100 M) (e1 : P x1.val) (h : Evolves M P a s) :
    Evolves M P a (accStore x1 x2 x3 s) := by
  unfold accStore
  split
  · refine opBump_ev _ _ (hm.of rfl) e1 ?_
    refine dmStore_ev _ _ _ _ (hm.of rfl) e1 ?_
    exact h
  · exact h

theorem accIntegrate_ev (x1 x2 x3 x4 : _) (hm : Sub 0x400002000000100 M) (e1 : P x1.val) (h : Evolves M P a s) :
    Evolves M P a (accIntegrate x1 x2 x3 x4 s) := by
  unfold accIntegrate
  split
  · extract_lets +onlyGivenNames y1
    extract_lets +onlyGivenNames y2
    extract_lets +onlyGivenNames y3
    have h4 : Evolves M P a y3 := by
      unfold y3
      refine Evolves.ite ?_ ?_
      · exact h
      · refine dmStore_ev _ _ _ _ (hm.of rfl) e1 ?_
        exact h
    clear_value y3
    refine opBump_ev _ _ (hm.of rfl) e1 ?_
    exact h4
  · exact h

theorem portOut_ev (x1 x2 x3 : _) (hm : Sub 0x2000000100 M) (e1 : P x1.val) (h : Evolves M P a s) :
    Evolves M P a (portOut x1 x2 x3 s) := by
  unfold portOut
  refine Evolves.ite ?_ ?_
  · refine satPut_ev _ _ _ (hm.of rfl) e1 ?_
    exact h
  · extract_lets +onlyGivenNames y1
    extract_lets +onlyGivenNames y2
    extract_lets +onlyGivenNames y3
    refine satPut_ev _ _ _ (hm.of rfl) e1 ?_
    refine Evolves.modAnv (hm.bit rfl) e1 ?_
    exact h

theorem expFromAcc_ev (x1 x2 x3 : _) (hm : Sub 0x400000000000100 M) (e1 : P x1.val) (h : Evolves M P a s) :
    Evolves M P a (expFromAcc x1 x2 x3 s) := by
  unfold expFromAcc
  split
  · refine expSet_ev _ _ _ (hm.of rfl) e1 ?_
    exact h
  · refine Evolves.raise .anv rfl (hm.bit rfl) e1 (hm.bit rfl) ?_
    refine Evolves.putInt .anv (Reg.group_anv rfl (by dsimp only [spareRes]; omega)) (hm.bit rfl) e1 ?_
    exact h

theorem rescale_ev (x1 x2 x3 x4 : _) (hm : Sub 0x400002000000100 M) (e1 : P x1.val) (h : Evolves M P a s) :
    Evolves M P a (rescale x1 x2 x3 x4 s) := by
  unfold rescale
  split
  · extract_lets +onlyGivenNames y1
    extract_lets +onlyGivenNames y2
    extract_lets +onlyGivenNames y3
    have h4 : Evolves M P a y3 := by
      unfold y3
      refine Evolves.foldl _ (fun s5 x6 h7 => ?_) ?_
      · extract_lets +onlyGivenNames y8
        refine Evolves.ite ?_ ?_
        · refine dmStore_ev _ _ _ _ (hm.of rfl) e1 ?_
          exact h7
        · refine dmStore_ev _ _ _ _ (hm.of rfl) e1 ?_
          exact h7
      · exact h
    clear_value y3
    extract_lets +onlyGivenNames y9
    have h10 : Evolves M P a y9 := by
      unfold y9
      refine Evolves.ite ?_ ?_
      · refine Evolves.raise .anv rfl (hm.bit rfl) e1 (hm.bit rfl) ?_
        exact h
      · refine Evolves.putInt .anv (Reg.group_anv rfl (by dsimp only [spareRes]; omega)) (hm.bit rfl) e1 ?_
        exact h4
    clear_value y9
    refine opBump_ev _ _ (hm.of rfl) e1 ?_
    exact h10
  · exact h

theorem rptSet_ev (x1 x2 : _) (hm : Sub 0x40c436ec00803f6 M) (e1 : P x1.val) (h : Evolves M P a s) :
    Evolves M P a (rptSet x1 x2 s) := by
  unfold rptSet
  refine Evolves.ite ?_ ?_
  · refine faultTrip_ev _ _ (hm.of rfl) e1 ?_
    exact h
  · refine anvIssue_ev _ _ _ _ _ _ (hm.of rfl) e1 ?_ ?_
    · intro s1
      intro h2
      refine Evolves.modAnv (hm.bit rfl) e1 ?_
      exact h2
    · exact h

theorem waitEnd_ev (x1 : _) (hm : Sub 0x2040000100 M) (e1 : P x1.val) (h : Evolves M P a s) :
    Evolves M P a (waitEnd x1 s) := by
  unfold waitEnd
  extract_lets +onlyGivenNames y1
  extract_lets +onlyGivenNames y2
  have h3 : Evolves M P a y2 := by
    unfold y2
    refine Evolves.put .anv rfl (hm.bit rfl) e1 ?_
    refine Evolves.put .anv rfl (hm.bit rfl) e1 ?_
    exact h
  clear_value y2
  extract_lets +onlyGivenNames y4
  have h5 : Evolves M P a y4 := by
    unfold y4
    refine Evolves.foldl _ (fun s6 x7 h8 => ?_) ?_
    · refine Evolves.put .anv (Reg.group_anv rfl (by dsimp only [spareRes]; omega)) (hm.bit rfl) e1 ?_
      exact h8
    · exact h3
  clear_value y4
  extract_lets +onlyGivenNames y9
  have h10 : Evolves M P a y9 := by
    unfold y9
    refine actSend_ev _ (hm.of rfl) e1 ?_
    exact h5
  clear_value y9
  extract_lets +onlyGivenNames y11
  have h12 : Evolves M P a y11 := by
    unfold y11
    refine Evolves.modAnv (hm.bit rfl) e1 ?_
    exact h10
  clear_value y11
  refine Evolves.ite ?_ ?_
  · refine Evolves.modAnv (hm.bit rfl) e1 ?_
    refine Evolves.put .anv rfl (hm.bit rfl) e1 ?_
    exact h12
  · exact h12

theorem anvWaitOp_ev (x1 x2 : _) (hm : Sub 0x40c436ec00803f6 M) (e1 : P x1.val) (h : Evolves M P a s) :
    Evolves M P a (anvWaitOp x1 x2 s) := by
  unfold anvWaitOp
  refine anvIssue_ev _ _ _ _ _ _ (hm.of rfl) e1 ?_ ?_
  · intro s1
    intro h2
    extract_lets +onlyGivenNames y3
    have h4 : Evolves M P a y3 := by
      unfold y3
      refine waitEnd_ev _ (hm.of rfl) e1 ?_
      exact h2
    clear_value y3
    extract_lets +onlyGivenNames y5
    refine Evolves.ite ?_ ?_
    · exact h4
    · refine tickStart_ev _ _ _ _ _ (hm.of rfl) e1 ?_
      exact h4
  · exact h

theorem rampInitMask_ev (x1 x2 : _) (hm : Sub 0x2000000100 M) (e1 : P x1.val) (h : Evolves M P a s) :
    Evolves M P a (rampInitMask x1 x2 s) := by
  unfold rampInitMask
  refine Evolves.foldl _ (fun s1 x2 h3 => ?_) ?_
  · refine Evolves.ite ?_ ?_
    · refine rampRestart_ev _ _ (hm.of rfl) e1 ?_
      exact h3
    · exact h3
  · exact h

theorem illegalOp_ev (x1 x2 : _) (hm : Sub 0x40c436ec00803f6 M) (e1 : P x1.val) (h : Evolves M P a s) :
    Evolves M P a (illegalOp x1 x2 s) := by
  unfold illegalOp
  extract_lets +onlyGivenNames y1
  refine Evolves.ite ?_ ?_
  · exact h
  · refine Evolves.ite ?_ ?_
    · refine faultTrip_ev _ _ (hm.of rfl) e1 ?_
      exact h
    · refine Evolves.ite ?_ ?_
      · refine faultTrip_ev _ _ (hm.of rfl) e1 ?_
        exact h
      · exact h

end Sys2Proof.Machine
end

