-- ==== Sys2Proof/Laws/AnvilCtl.lean ====
section
/-! SUPPORT. One lemma per operation of Machine/AnvilCtl.lean: the parts of the state it can touch and what it needs of the engines (`Evolves`). -/

namespace Sys2Proof.Machine

variable {M : Nat} {P : Nat → Prop} {a s : State}

theorem anvRunOp_ev (x1 : _) (hm : Sub 0x2000000100 M) (e1 : P x1.val) (h : Evolves M P a s) :
    Evolves M P a (anvRunOp x1 s) := by
  unfold anvRunOp
  extract_lets +onlyGivenNames y1
  have h2 : Evolves M P a y1 := by
    unfold y1
    refine Evolves.put .anv rfl (hm.bit rfl) e1 ?_
    exact h
  clear_value y1
  refine Evolves.ite ?_ ?_
  · refine Evolves.modAnv (hm.bit rfl) e1 ?_
    exact h2
  · refine Evolves.modAnv (hm.bit rfl) e1 ?_
    exact h2

theorem anvStopOp_ev (x1 : _) (hm : Sub 0x2000000100 M) (e1 : P x1.val) (h : Evolves M P a s) :
    Evolves M P a (anvStopOp x1 s) := by
  unfold anvStopOp
  extract_lets +onlyGivenNames y1
  have h2 : Evolves M P a y1 := by
    unfold y1
    refine Evolves.put .anv rfl (hm.bit rfl) e1 ?_
    exact h
  clear_value y1
  extract_lets +onlyGivenNames y3
  refine Evolves.modAnv (hm.bit rfl) e1 ?_
  exact h2

theorem anvBank_ev (x1 x2 : _) (hm : Sub 0x100 M) (e1 : P x1.val) (h : Evolves M P a s) :
    Evolves M P a (anvBank x1 x2 s) := by
  unfold anvBank
  extract_lets +onlyGivenNames y1
  have h2 : Evolves M P a y1 := by
    unfold y1
    refine Evolves.putBool .anv rfl (hm.bit rfl) e1 ?_
    exact h
  clear_value y1
  refine Evolves.putBool .anv rfl (hm.bit rfl) e1 ?_
  exact h2

theorem anvTripClear_ev (x1 : _) (hm : Sub 0x2000000100 M) (e1 : P x1.val) (h : Evolves M P a s) :
    Evolves M P a (anvTripClear x1 s) := by
  unfold anvTripClear
  extract_lets +onlyGivenNames y1
  have h2 : Evolves M P a y1 := by
    unfold y1
    refine Evolves.put .anv rfl (hm.bit rfl) e1 ?_
    refine Evolves.put .anv rfl (hm.bit rfl) e1 ?_
    exact h
  clear_value y1
  refine Evolves.modAnv (hm.bit rfl) e1 ?_
  exact h2

theorem anvCntClear_ev (x1 x2 : _) (hm : Sub 0x100 M) (e1 : P x1.val) (h : Evolves M P a s) :
    Evolves M P a (anvCntClear x1 x2 s) := by
  unfold anvCntClear
  extract_lets +onlyGivenNames y1
  have h2 : Evolves M P a y1 := by
    unfold y1
    refine Evolves.put .anv rfl (hm.bit rfl) e1 ?_
    refine Evolves.wrE .anv rfl (hm.bit rfl) e1 ?_
    exact h
  clear_value y1
  refine Evolves.put .anv rfl (hm.bit rfl) e1 ?_
  refine Evolves.put .anv rfl (hm.bit rfl) e1 ?_
  refine Evolves.put .anv rfl (hm.bit rfl) e1 ?_
  exact h2

theorem anvRampCfg_ev (x1 x2 x3 : _) (hm : Sub 0x2000000100 M) (e1 : P x1.val) (h : Evolves M P a s) :
    Evolves M P a (anvRampCfg x1 x2 x3 s) := by
  unfold anvRampCfg
  extract_lets +onlyGivenNames y1
  have h2 : Evolves M P a y1 := by
    unfold y1
    refine Evolves.put .anv (Reg.group_anv rfl (by dsimp only [spareRes]; omega)) (hm.bit rfl) e1 ?_
    refine Evolves.put .anv (Reg.group_anv rfl (by dsimp only [spareRes]; omega)) (hm.bit rfl) e1 ?_
    exact h
  clear_value y1
  refine Evolves.ite ?_ ?_
  · refine Evolves.modAnv (hm.bit rfl) e1 ?_
    exact h2
  · exact h2

theorem pmSet_ev (x1 x2 x3 x4 : _) (hm : Sub 0x2000000000 M) (e1 : P x1.val) (h : Evolves M P a s) :
    Evolves M P a (pmSet x1 x2 x3 x4 s) := by
  unfold pmSet
  refine Evolves.modAnv (hm.bit rfl) e1 ?_
  exact h

theorem anvPm_ev (x1 x2 x3 x4 : _) (hm : Sub 0x400002000000100 M) (e1 : P x1.val) (h : Evolves M P a s) :
    Evolves M P a (anvPm x1 x2 x3 x4 s) := by
  unfold anvPm
  refine Evolves.ite ?_ ?_
  · refine Evolves.raise .anv rfl (hm.bit rfl) e1 (hm.bit rfl) ?_
    exact h
  · refine pmSet_ev _ _ _ _ (hm.of rfl) e1 ?_
    exact h

theorem anvDm_ev (x1 x2 x3 : _) (hm : Sub 0x2000000000 M) (e1 : P x1.val) (h : Evolves M P a s) :
    Evolves M P a (anvDm x1 x2 x3 s) := by
  unfold anvDm
  refine dmSet_ev _ _ _ (hm.of rfl) e1 ?_
  exact h

theorem execAnvRun_next (x1 : _) (hm : Sub 0x2000000100 M) (e1 : P x1.val) :
    ∃ t, (execAnvRun x1 s) = .next t ∧ Evolves M P s t := by
  refine ⟨_, rfl, ?_⟩
  have h := Evolves.refl M P s
  refine anvRunOp_ev _ (hm.of rfl) e1 ?_
  exact h

theorem execAnvStop_next (x1 : _) (hm : Sub 0x2000000100 M) (e1 : P x1.val) :
    ∃ t, (execAnvStop x1 s) = .next t ∧ Evolves M P s t := by
  refine ⟨_, rfl, ?_⟩
  have h := Evolves.refl M P s
  refine anvStopOp_ev _ (hm.of rfl) e1 ?_
  exact h

theorem execAnvBankWrite_next (x1 x2 : _) (hm : Sub 0x100 M) (e1 : P x1.val) :
    ∃ t, (execAnvBankWrite x1 x2 s) = .next t ∧ Evolves M P s t := by
  refine ⟨_, rfl, ?_⟩
  have h := Evolves.refl M P s
  refine anvBank_ev _ _ (hm.of rfl) e1 ?_
  exact h

theorem execAnvTripClr_next (x1 : _) (hm : Sub 0x2000000100 M) (e1 : P x1.val) :
    ∃ t, (execAnvTripClr x1 s) = .next t ∧ Evolves M P s t := by
  refine ⟨_, rfl, ?_⟩
  have h := Evolves.refl M P s
  refine anvTripClear_ev _ (hm.of rfl) e1 ?_
  exact h

theorem execAnvCntClr_next (x1 x2 : _) (hm : Sub 0x100 M) (e1 : P x1.val) :
    ∃ t, (execAnvCntClr x1 x2 s) = .next t ∧ Evolves M P s t := by
  refine ⟨_, rfl, ?_⟩
  have h := Evolves.refl M P s
  refine anvCntClear_ev _ _ (hm.of rfl) e1 ?_
  exact h

theorem execAnvRampInit_next (x1 x2 x3 : _) (hm : Sub 0x2000000100 M) (e1 : P x1.val) :
    ∃ t, (execAnvRampInit x1 x2 x3 s) = .next t ∧ Evolves M P s t := by
  refine ⟨_, rfl, ?_⟩
  have h := Evolves.refl M P s
  refine anvRampCfg_ev _ _ _ (hm.of rfl) e1 ?_
  exact h

theorem execAnvPmWrite_next (x1 x2 x3 x4 : _) (hm : Sub 0x400002000000100 M) (e1 : P x1.val) :
    ∃ t, (execAnvPmWrite x1 x2 x3 x4 s) = .next t ∧ Evolves M P s t := by
  refine ⟨_, rfl, ?_⟩
  have h := Evolves.refl M P s
  refine anvPm_ev _ _ _ _ (hm.of rfl) e1 ?_
  exact h

theorem execAnvDmWrite_next (x1 x2 x3 : _) (hm : Sub 0x2000000000 M) (e1 : P x1.val) :
    ∃ t, (execAnvDmWrite x1 x2 x3 s) = .next t ∧ Evolves M P s t := by
  refine ⟨_, rfl, ?_⟩
  have h := Evolves.refl M P s
  refine anvDm_ev _ _ _ (hm.of rfl) e1 ?_
  exact h

end Sys2Proof.Machine
end

