-- ==== Sys2Proof/Laws/Channel.lean ====
section
/-! SUPPORT. One lemma per operation of Machine/Channel.lean: the parts of the state it can touch and what it needs of the engines (`Evolves`). -/

namespace Sys2Proof.Machine

variable {M : Nat} {P : Nat → Prop} {a s : State}

theorem agcGain_ev (x1 x2 x3 x4 : _) (hm : Sub 0x400000000000200 M) (e1 : P x1.val) (h : Evolves M P a s) :
    Evolves M P a (agcGain x1 x2 x3 x4 s) := by
  unfold agcGain
  extract_lets +onlyGivenNames y1
  extract_lets +onlyGivenNames y2
  extract_lets +onlyGivenNames y3
  have h4 : Evolves M P a y3 := by
    unfold y3
    refine Evolves.put .chain rfl (hm.bit rfl) e1 ?_
    exact h
  clear_value y3
  refine Evolves.ite ?_ ?_
  · refine Evolves.raise .chain rfl (hm.bit rfl) e1 (hm.bit rfl) ?_
    exact h4
  · exact h4

theorem agcOffs_ev (x1 x2 x3 : _) (hm : Sub 0x200 M) (e1 : P x1.val) (h : Evolves M P a s) :
    Evolves M P a (agcOffs x1 x2 x3 s) := by
  unfold agcOffs
  extract_lets +onlyGivenNames y1
  refine Evolves.putInt .chain rfl (hm.bit rfl) e1 ?_
  exact h

theorem agcMeasure_ev (x1 x2 x3 x4 : _) (hm : Sub 0x400000080000200 M) (e1 : P x1.val) (h : Evolves M P a s) :
    Evolves M P a (agcMeasure x1 x2 x3 x4 s) := by
  unfold agcMeasure
  extract_lets +onlyGivenNames y1
  extract_lets +onlyGivenNames y2
  extract_lets +onlyGivenNames y3
  extract_lets +onlyGivenNames y4
  have h5 : Evolves M P a y4 := by
    unfold y4
    refine Evolves.putBool .chain rfl (hm.bit rfl) e1 ?_
    refine Evolves.modCh (hm.bit rfl) e1 ?_
    exact h
  clear_value y4
  refine Evolves.ite ?_ ?_
  · extract_lets +onlyGivenNames y6
    have h7 : Evolves M P a y6 := by
      unfold y6
      refine agcOffs_ev _ _ _ (hm.of rfl) e1 ?_
      exact h5
    clear_value y6
    refine Evolves.ite ?_ ?_
    · exact h7
    · refine agcGain_ev _ _ _ _ (hm.of rfl) e1 ?_
      exact h7
  · exact h5

theorem agcSearch_ev (x1 x2 x3 : _) (hm : Sub 0x400000000000200 M) (e1 : P x1.val) (h : Evolves M P a s) :
    Evolves M P a (agcSearch x1 x2 x3 s) := by
  unfold agcSearch
  refine Evolves.ite ?_ ?_
  · split
    · exact h
    · refine agcGain_ev _ _ _ _ (hm.of rfl) e1 ?_
      exact h
  · exact h

theorem markSwitch_ev (x1 x2 : _) (hm : Sub 0x80000200 M) (e1 : P x1.val) (h : Evolves M P a s) :
    Evolves M P a (markSwitch x1 x2 s) := by
  unfold markSwitch
  extract_lets +onlyGivenNames y1
  refine Evolves.modCh (hm.bit rfl) e1 ?_
  refine Evolves.put .chain rfl (hm.bit rfl) e1 ?_
  exact h

theorem capSee_ev (x1 x2 x3 : _) (hm : Sub 0x100000000 M) (e1 : P x1.val) (h : Evolves M P a s) :
    Evolves M P a (capSee x1 x2 x3 s) := by
  unfold capSee
  refine Evolves.ite ?_ ?_
  · refine Evolves.modTrig (hm.bit rfl) e1 ?_
    exact h
  · exact h

theorem showFrame_ev (x1 x2 x3 : _) (hm : Sub 0x200 M) (e1 : P x1.val) (h : Evolves M P a s) :
    Evolves M P a (showFrame x1 x2 x3 s) := by
  unfold showFrame
  refine Evolves.put .chain rfl (hm.bit rfl) e1 ?_
  refine Evolves.put .chain rfl (hm.bit rfl) e1 ?_
  exact h

theorem keepTail_ev (x1 x2 x3 : _) (hm : Sub 0x80800280000002 M) (e1 : P x1.val) (h : Evolves M P a s) :
    Evolves M P a (keepTail x1 x2 x3 s) := by
  unfold keepTail
  extract_lets +onlyGivenNames y1
  split
  · extract_lets +onlyGivenNames y2
    extract_lets +onlyGivenNames y3
    extract_lets +onlyGivenNames y4
    have h5 : Evolves M P a y4 := by
      unfold y4
      refine storePart_ev _ _ _ (hm.of rfl) ?_
      exact h
    clear_value y4
    refine rasShow_ev _ (hm.of rfl) e1 ?_
    refine Evolves.modSeam (hm.bit rfl) e1 ?_
    refine Evolves.modCh (hm.bit rfl) e1 ?_
    exact h5
  · exact h

theorem capStore_ev (x1 x2 x3 : _) (hm : Sub 0x80800000000000 M) (h : Evolves M P a s) :
    Evolves M P a (capStore x1 x2 x3 s) := by
  unfold capStore
  extract_lets +onlyGivenNames y1
  refine State.ddrPutBytes_ev _ _ (hm.of rfl) ?_
  exact h

theorem newCluster_ev (x1 x2 x3 : _) (hm : Sub 0x80800280000002 M) (e1 : P x1.val) (h : Evolves M P a s) :
    Evolves M P a (newCluster x1 x2 x3 s) := by
  unfold newCluster
  extract_lets +onlyGivenNames y1
  extract_lets +onlyGivenNames y2
  extract_lets +onlyGivenNames y3
  have h4 : Evolves M P a y3 := by
    unfold y3
    refine keepTail_ev _ _ _ (hm.of rfl) e1 ?_
    exact h
  clear_value y3
  extract_lets +onlyGivenNames y5
  have h6 : Evolves M P a y5 := by
    unfold y5
    refine Evolves.ite ?_ ?_
    · refine capStore_ev _ _ _ (hm.of rfl) ?_
      exact h4
    · exact h4
  clear_value y5
  refine Evolves.modCh (hm.bit rfl) e1 ?_
  exact h6

theorem takeMark_ev (x1 x2 x3 x4 x5 : _) (hm : Sub 0x80800380000202 M) (e1 : P x1.val) (h : Evolves M P a s) :
    Evolves M P a (takeMark x1 x2 x3 x4 x5 s) := by
  unfold takeMark
  extract_lets +onlyGivenNames y1
  have h2 : Evolves M P a y1 := by
    unfold y1
    refine Evolves.ite ?_ ?_
    · refine newCluster_ev _ _ _ (hm.of rfl) e1 ?_
      exact h
    · exact h
  clear_value y1
  extract_lets +onlyGivenNames y3
  have h4 : Evolves M P a y3 := by
    unfold y3
    refine Evolves.modCh (hm.bit rfl) e1 ?_
    exact h2
  clear_value y3
  refine markSwitch_ev _ _ (hm.of rfl) e1 ?_
  refine showFrame_ev _ _ _ (hm.of rfl) e1 ?_
  refine Evolves.ite ?_ ?_
  · refine capSee_ev _ _ _ (hm.of rfl) e1 ?_
    exact h4
  · exact h4

theorem entryTake_ev (x1 x2 : _) (hm : Sub 0x200000002 M) (e1 : P x1.val) (h : Evolves M P a s) :
    Evolves M P a (entryTake x1 x2 s) := by
  unfold entryTake
  split
  · refine rasShow_ev _ (hm.of rfl) e1 ?_
    refine Evolves.modSeam (hm.bit rfl) e1 ?_
    exact h
  · exact h

theorem syncAcquired_ev (x1 x2 : _) (hm : Sub 0x40c400ec0000216 M) (e1 : P x1.val) (h : Evolves M P a s) :
    Evolves M P a (syncAcquired x1 x2 s) := by
  unfold syncAcquired
  extract_lets +onlyGivenNames y1
  have h2 : Evolves M P a y1 := by
    unfold y1
    refine Evolves.raise .chain rfl (hm.bit rfl) e1 (hm.bit rfl) ?_
    refine Evolves.put .chain rfl (hm.bit rfl) e1 ?_
    refine Evolves.put .chain rfl (hm.bit rfl) e1 ?_
    exact h
  clear_value y1
  extract_lets +onlyGivenNames y3
  extract_lets +onlyGivenNames y4
  have h5 : Evolves M P a y4 := by
    unfold y4
    refine Evolves.modCh (hm.bit rfl) e1 ?_
    exact h2
  clear_value y4
  extract_lets +onlyGivenNames y6
  have h7 : Evolves M P a y6 := by
    unfold y6
    refine entryTake_ev _ _ (hm.of rfl) e1 ?_
    exact h5
  clear_value y6
  refine Evolves.ite ?_ ?_
  · refine wrNotBlank_ev _ _ (hm.of rfl) e1 ?_
    exact h7
  · exact h7

theorem searchMark_ev (x1 x2 x3 x4 : _) (hm : Sub 0x40c400fc0000216 M) (e1 : P x1.val) (h : Evolves M P a s) :
    Evolves M P a (searchMark x1 x2 x3 x4 s) := by
  unfold searchMark
  extract_lets +onlyGivenNames y1
  extract_lets +onlyGivenNames y2
  extract_lets +onlyGivenNames y3
  have h4 : Evolves M P a y3 := by
    unfold y3
    refine capSee_ev _ _ _ (hm.of rfl) e1 ?_
    refine Evolves.modCh (hm.bit rfl) e1 ?_
    exact h
  clear_value y3
  extract_lets +onlyGivenNames y5
  have h6 : Evolves M P a y5 := by
    unfold y5
    refine markSwitch_ev _ _ (hm.of rfl) e1 ?_
    refine showFrame_ev _ _ _ (hm.of rfl) e1 ?_
    exact h4
  clear_value y5
  refine Evolves.ite ?_ ?_
  · refine syncAcquired_ev _ _ (hm.of rfl) e1 ?_
    exact h6
  · exact h6

theorem lockedMark_ev (x1 x2 x3 x4 x5 : _) (hm : Sub 0x80000000 M) (e1 : P x1.val) (h : Evolves M P a s) :
    Evolves M P a (lockedMark x1 x2 x3 x4 x5 s) := by
  unfold lockedMark
  extract_lets +onlyGivenNames y1
  refine Evolves.ite ?_ ?_
  · refine Evolves.modCh (hm.bit rfl) e1 ?_
    exact h
  · exact h

theorem phaseRestore_ev (x1 x2 : _) (hm : Sub 0x80000200 M) (e1 : P x1.val) (h : Evolves M P a s) :
    Evolves M P a (phaseRestore x1 x2 s) := by
  unfold phaseRestore
  refine Evolves.modCh (hm.bit rfl) e1 ?_
  refine Evolves.inc .chain rfl (hm.bit rfl) e1 ?_
  refine Evolves.put .chain rfl (hm.bit rfl) e1 ?_
  exact h

theorem provMark_ev (x1 x2 x3 x4 x5 : _) (hm : Sub 0x80800380000202 M) (e1 : P x1.val) (h : Evolves M P a s) :
    Evolves M P a (provMark x1 x2 x3 x4 x5 s) := by
  unfold provMark
  extract_lets +onlyGivenNames y1
  refine Evolves.ite ?_ ?_
  · extract_lets +onlyGivenNames y2
    have h3 : Evolves M P a y2 := by
      unfold y2
      refine Evolves.inc .chain rfl (hm.bit rfl) e1 ?_
      refine Evolves.put .chain rfl (hm.bit rfl) e1 ?_
      exact h
    clear_value y2
    extract_lets +onlyGivenNames y4
    extract_lets +onlyGivenNames y5
    have h6 : Evolves M P a y5 := by
      unfold y5
      refine Evolves.modCh (hm.bit rfl) e1 ?_
      exact h3
    clear_value y5
    refine takeMark_ev _ _ _ _ _ (hm.of rfl) e1 ?_
    exact h6
  · extract_lets +onlyGivenNames y7
    extract_lets +onlyGivenNames y8
    have h9 : Evolves M P a y8 := by
      unfold y8
      refine Evolves.ite ?_ ?_
      · refine phaseRestore_ev _ _ (hm.of rfl) e1 ?_
        exact h
      · exact h
    clear_value y8
    refine Evolves.ite ?_ ?_
    · refine Evolves.modCh (hm.bit rfl) e1 ?_
      exact h9
    · exact h9

theorem syncMark_ev (x1 x2 x3 x4 x5 x6 x7 : _) (hm : Sub 0x48cc00fc0000216 M) (e1 : P x1.val) (h : Evolves M P a s) :
    Evolves M P a (syncMark x1 x2 x3 x4 x5 x6 x7 s) := by
  unfold syncMark
  refine Evolves.ite ?_ ?_
  · extract_lets +onlyGivenNames y1
    have h2 : Evolves M P a y1 := by
      unfold y1
      refine agcMeasure_ev _ _ _ _ (hm.of rfl) e1 ?_
      exact h
    clear_value y1
    refine Evolves.ite ?_ ?_
    · refine searchMark_ev _ _ _ _ (hm.of rfl) e1 ?_
      exact h2
    · refine Evolves.ite ?_ ?_
      · refine lockedMark_ev _ _ _ _ _ (hm.of rfl) e1 ?_
        exact h2
      · refine provMark_ev _ _ _ _ _ (hm.of rfl) e1 ?_
        exact h2
  · exact h

theorem clusterFail_ev (x1 x2 : _) (hm : Sub 0x400000100000200 M) (e1 : P x1.val) (h : Evolves M P a s) :
    Evolves M P a (clusterFail x1 x2 s) := by
  unfold clusterFail
  refine Evolves.ite ?_ ?_
  · exact h
  · refine capSee_ev _ _ _ (hm.of rfl) e1 ?_
    refine Evolves.raise .chain rfl (hm.bit rfl) e1 (hm.bit rfl) ?_
    exact h

theorem straddleClear_ev (x1 x2 : _) (hm : Sub 0x1000000000 M) (e1 : P x1.val) (h : Evolves M P a s) :
    Evolves M P a (straddleClear x1 x2 s) := by
  unfold straddleClear
  refine Evolves.ite ?_ ?_
  · refine Evolves.modTmp (hm.bit rfl) e1 ?_
    exact h
  · exact h

theorem syncLost_ev (x1 x2 : _) (hm : Sub 0x48cc01fc0000216 M) (e1 : P x1.val) (h : Evolves M P a s) :
    Evolves M P a (syncLost x1 x2 s) := by
  unfold syncLost
  extract_lets +onlyGivenNames y1
  extract_lets +onlyGivenNames y2
  have h3 : Evolves M P a y2 := by
    unfold y2
    refine Evolves.inc .chain rfl (hm.bit rfl) e1 ?_
    refine Evolves.raise .chain rfl (hm.bit rfl) e1 (hm.bit rfl) ?_
    exact h
  clear_value y2
  extract_lets +onlyGivenNames y4
  have h5 : Evolves M P a y4 := by
    unfold y4
    refine chainSearch_ev _ _ (hm.of rfl) e1 ?_
    refine capSee_ev _ _ _ (hm.of rfl) e1 ?_
    exact h3
  clear_value y4
  refine Evolves.ite ?_ ?_
  · extract_lets +onlyGivenNames y6
    extract_lets +onlyGivenNames y7
    have h8 : Evolves M P a y7 := by
      unfold y7
      refine clusterFail_ev _ _ (hm.of rfl) e1 ?_
      refine Evolves.wrE .chain rfl (hm.bit rfl) e1 ?_
      exact h5
    clear_value y7
    extract_lets +onlyGivenNames y9
    have h10 : Evolves M P a y9 := by
      unfold y9
      split
      · refine Evolves.wrE .chain rfl (hm.bit rfl) e1 ?_
        exact h8
      · refine Evolves.put .chain rfl (hm.bit rfl) e1 ?_
        exact h8
    clear_value y9
    refine Evolves.ite ?_ ?_
    · refine verifyResult_ev _ _ (hm.of rfl) e1 ?_
      exact h10
    · split
      · refine Evolves.ite ?_ ?_
        · exact h10
        · extract_lets +onlyGivenNames y11
          have h12 : Evolves M P a y11 := by
            unfold y11
            refine straddleClear_ev _ _ (hm.of rfl) e1 ?_
            exact h10
          clear_value y11
          refine Evolves.ite ?_ ?_
          · refine ladderEnter_ev _ _ _ (hm.of rfl) e1 ?_
            exact h12
          · refine rasAccept_ev _ _ (hm.of rfl) e1 ?_
            refine Evolves.tickFresh ?_
            exact h12
      · exact h10
  · exact h5

theorem insertMark_ev (x1 x2 x3 : _) (hm : Sub 0x48cc01fc0000216 M) (e1 : P x1.val) (h : Evolves M P a s) :
    Evolves M P a (insertMark x1 x2 x3 s) := by
  unfold insertMark
  extract_lets +onlyGivenNames y1
  extract_lets +onlyGivenNames y2
  extract_lets +onlyGivenNames y3
  have h4 : Evolves M P a y3 := by
    unfold y3
    refine takeMark_ev _ _ _ _ _ (hm.of rfl) e1 ?_
    refine Evolves.inc .chain rfl (hm.bit rfl) e1 ?_
    exact h
  clear_value y3
  extract_lets +onlyGivenNames y5
  extract_lets +onlyGivenNames y6
  have h7 : Evolves M P a y6 := by
    unfold y6
    refine Evolves.modCh (hm.bit rfl) e1 ?_
    exact h4
  clear_value y6
  refine Evolves.ite ?_ ?_
  · refine syncLost_ev _ _ (hm.of rfl) e1 ?_
    exact h7
  · refine Evolves.put .chain rfl (hm.bit rfl) e1 ?_
    exact h7

theorem decideWindow_ev (x1 x2 x3 : _) (hm : Sub 0x48cc01fc0000216 M) (e1 : P x1.val) (h : Evolves M P a s) :
    Evolves M P a (decideWindow x1 x2 x3 s) := by
  unfold decideWindow
  split
  · refine insertMark_ev _ _ _ (hm.of rfl) e1 ?_
    exact h
  · extract_lets +onlyGivenNames y1
    have h2 : Evolves M P a y1 := by
      unfold y1
      refine takeMark_ev _ _ _ _ _ (hm.of rfl) e1 ?_
      refine Evolves.put .chain rfl (hm.bit rfl) e1 ?_
      exact h
    clear_value y1
    refine Evolves.ite ?_ ?_
    · exact h2
    · extract_lets +onlyGivenNames y3
      have h4 : Evolves M P a y3 := by
        unfold y3
        refine Evolves.putInt .chain rfl (hm.bit rfl) e1 ?_
        refine Evolves.put .chain rfl (hm.bit rfl) e1 ?_
        exact h2
      clear_value y3
      refine Evolves.modCh (hm.bit rfl) e1 ?_
      exact h4

theorem syncWindow_ev (x1 x2 x3 x4 : _) (hm : Sub 0x48cc01fc0000216 M) (e1 : P x1.val) (h : Evolves M P a s) :
    Evolves M P a (syncWindow x1 x2 x3 x4 s) := by
  unfold syncWindow
  refine Evolves.ite ?_ ?_
  · extract_lets +onlyGivenNames y1
    extract_lets +onlyGivenNames y2
    extract_lets +onlyGivenNames y3
    refine Evolves.ite ?_ ?_
    · extract_lets +onlyGivenNames y4
      have h5 : Evolves M P a y4 := by
        unfold y4
        refine Evolves.modCh (hm.bit rfl) e1 ?_
        exact h
      clear_value y4
      refine decideWindow_ev _ _ _ (hm.of rfl) e1 ?_
      refine Evolves.ite ?_ ?_
      · refine phaseRestore_ev _ _ (hm.of rfl) e1 ?_
        exact h5
      · exact h5
    · exact h
  · exact h

theorem decodeShow_ev (x1 x2 x3 x4 : _) (hm : Sub 0x400000100000200 M) (e1 : P x1.val) (h : Evolves M P a s) :
    Evolves M P a (decodeShow x1 x2 x3 x4 s) := by
  unfold decodeShow
  extract_lets +onlyGivenNames y1
  have h2 : Evolves M P a y1 := by
    unfold y1
    refine Evolves.wrE .chain rfl (hm.bit rfl) e1 ?_
    refine Evolves.wrE .chain rfl (hm.bit rfl) e1 ?_
    exact h
  clear_value y1
  extract_lets +onlyGivenNames y3
  have h4 : Evolves M P a y3 := by
    unfold y3
    refine Evolves.wrE .chain rfl (hm.bit rfl) e1 ?_
    exact h2
  clear_value y3
  extract_lets +onlyGivenNames y5
  have h6 : Evolves M P a y5 := by
    unfold y5
    split
    · refine Evolves.wrE .chain rfl (hm.bit rfl) e1 ?_
      exact h4
    · refine Evolves.put .chain rfl (hm.bit rfl) e1 ?_
      exact h4
  clear_value y5
  refine Evolves.ite ?_ ?_
  · exact h6
  · refine clusterFail_ev _ _ (hm.of rfl) e1 ?_
    exact h6

theorem captureEnd_ev (x1 x2 x3 x4 : _) (hm : Sub 0x80000200 M) (e1 : P x1.val) (h : Evolves M P a s) :
    Evolves M P a (captureEnd x1 x2 x3 x4 s) := by
  unfold captureEnd
  refine Evolves.ite ?_ ?_
  · extract_lets +onlyGivenNames y1
    have h2 : Evolves M P a y1 := by
      unfold y1
      refine Evolves.put .chain rfl (hm.bit rfl) e1 ?_
      refine Evolves.put .chain rfl (hm.bit rfl) e1 ?_
      exact h
    clear_value y1
    refine Evolves.modCh (hm.bit rfl) e1 ?_
    exact h2
  · exact h

theorem patNote_ev (x1 x2 x3 x4 : _) (hm : Sub 0x4000000000000 M) (h : Evolves M P a s) :
    Evolves M P a (patNote x1 x2 x3 x4 s) := by
  unfold patNote
  extract_lets +onlyGivenNames y1
  have h2 : Evolves M P a y1 := by
    unfold y1
    refine Evolves.note (hm.bit rfl) ?_
    exact h
  clear_value y1
  refine Evolves.ite ?_ ?_
  · exact h2
  · refine Evolves.note (hm.bit rfl) ?_
    exact h2

theorem decodeRoute_ev (x1 x2 x3 x4 : _) (hm : Sub 0x48cc37ec00803f6 M) (e1 : P x1.val) (h : Evolves M P a s) :
    Evolves M P a (decodeRoute x1 x2 x3 x4 s) := by
  unfold decodeRoute
  refine Evolves.ite ?_ ?_
  · refine Evolves.ite ?_ ?_
    · refine verifyResult_ev _ _ (hm.of rfl) e1 ?_
      exact h
    · exact h
  · split
    · exact h
    · extract_lets +onlyGivenNames y1
      have h2 : Evolves M P a y1 := by
        unfold y1
        refine straddleClear_ev _ _ (hm.of rfl) e1 ?_
        exact h
      clear_value y1
      split
      · exact h2
      · extract_lets +onlyGivenNames y3
        extract_lets +onlyGivenNames y4
        have h5 : Evolves M P a y4 := by
          unfold y4
          refine Evolves.modCh (hm.bit rfl) e1 ?_
          exact h2
        clear_value y4
        extract_lets +onlyGivenNames y6
        have h7 : Evolves M P a y6 := by
          unfold y6
          refine Evolves.ite ?_ ?_
          · refine patNote_ev _ _ _ _ (hm.of rfl) ?_
            exact h5
          · exact h5
        clear_value y6
        extract_lets +onlyGivenNames y8
        have h9 : Evolves M P a y8 := by
          unfold y8
          refine rasAccept_ev _ _ (hm.of rfl) e1 ?_
          exact h7
        clear_value y8
        refine Evolves.ite ?_ ?_
        · refine loopFault_ev _ _ (hm.of rfl) e1 ?_
          exact h9
        · exact h9

theorem decodeOne_ev (x1 x2 x3 x4 x5 : _) (hm : Sub 0x48cc37fc00803fe M) (e1 : P x1.val) (h : Evolves M P a s) :
    Evolves M P a (decodeOne x1 x2 x3 x4 x5 s) := by
  unfold decodeOne
  extract_lets +onlyGivenNames y1
  extract_lets +onlyGivenNames y2
  have h3 : Evolves M P a y2 := by
    unfold y2
    refine decodeShow_ev _ _ _ _ (hm.of rfl) e1 ?_
    exact h
  clear_value y2
  extract_lets +onlyGivenNames y4
  have h5 : Evolves M P a y4 := by
    unfold y4
    refine Evolves.ite ?_ ?_
    · refine captureEnd_ev _ _ _ _ (hm.of rfl) e1 ?_
      exact h3
    · exact h3
  clear_value y4
  refine tmpStraddleDone_ev _ _ (hm.of rfl) e1 ?_
  refine Evolves.ite ?_ ?_
  · exact h5
  · refine decodeRoute_ev _ _ _ _ (hm.of rfl) e1 ?_
    exact h5

theorem clusterDecode_ev (x1 x2 x3 : _) (hm : Sub 0x48cc37fc00803fe M) (e1 : P x1.val) (h : Evolves M P a s) :
    Evolves M P a (clusterDecode x1 x2 x3 s) := by
  unfold clusterDecode
  extract_lets +onlyGivenNames y1
  refine Evolves.ite ?_ ?_
  · refine Evolves.ite ?_ ?_
    · refine Evolves.ite ?_ ?_
      · extract_lets +onlyGivenNames y2
        have h3 : Evolves M P a y2 := by
          unfold y2
          refine Evolves.ite ?_ ?_
          · refine capStore_ev _ _ _ (hm.of rfl) ?_
            exact h
          · exact h
        clear_value y2
        refine decodeOne_ev _ _ _ _ _ (hm.of rfl) e1 ?_
        refine Evolves.modCh (hm.bit rfl) e1 ?_
        exact h3
      · exact h
    · refine Evolves.ite ?_ ?_
      · refine decodeOne_ev _ _ _ _ _ (hm.of rfl) e1 ?_
        refine Evolves.modCh (hm.bit rfl) e1 ?_
        exact h
      · exact h
  · exact h

theorem chainOn_ev (x1 x2 : _) (hm : Sub 0x200 M) (e1 : P x1.val) (h : Evolves M P a s) :
    Evolves M P a (chainOn x1 x2 s) := by
  unfold chainOn
  refine Evolves.ite ?_ ?_
  · exact h
  · refine Evolves.put .chain rfl (hm.bit rfl) e1 ?_
    exact h

theorem chainOff_ev (x1 x2 : _) (hm : Sub 0x12c0080208 M) (e1 : P x1.val) (h : Evolves M P a s) :
    Evolves M P a (chainOff x1 x2 s) := by
  unfold chainOff
  extract_lets +onlyGivenNames y1
  have h2 : Evolves M P a y1 := by
    unfold y1
    refine chainReset_ev _ _ (hm.of rfl) e1 ?_
    refine Evolves.put .chain rfl (hm.bit rfl) e1 ?_
    exact h
  clear_value y1
  refine Evolves.ite ?_ ?_
  · refine tmpAbandonWith_ev _ _ _ (hm.of rfl) e1 ?_
    exact h2
  · exact h2

theorem chCntClear_ev (x1 x2 x3 : _) (hm : Sub 0x200 M) (e1 : P x1.val) (h : Evolves M P a s) :
    Evolves M P a (chCntClear x1 x2 x3 s) := by
  unfold chCntClear
  refine Evolves.ite ?_ ?_
  · exact h
  · extract_lets +onlyGivenNames y1
    have h2 : Evolves M P a y1 := by
      unfold y1
      refine Evolves.wrE .chain rfl (hm.bit rfl) e1 ?_
      exact h
    clear_value y1
    refine Evolves.put .chain rfl (hm.bit rfl) e1 ?_
    refine Evolves.put .chain rfl (hm.bit rfl) e1 ?_
    refine Evolves.put .chain rfl (hm.bit rfl) e1 ?_
    refine Evolves.put .chain rfl (hm.bit rfl) e1 ?_
    exact h2

theorem replayDetect_ev (x1 x2 : _) (hm : Sub 0x80000000 M) (e1 : P x1.val) (h : Evolves M P a s) :
    Evolves M P a (replayDetect x1 x2 s) := by
  unfold replayDetect
  extract_lets +onlyGivenNames y1
  extract_lets +onlyGivenNames y2
  refine Evolves.modCh (hm.bit rfl) e1 ?_
  exact h

theorem rasReplay_ev (x1 x2 : _) (hm : Sub 0x48cc00a00000212 M) (e1 : P x1.val) (h : Evolves M P a s) :
    Evolves M P a (rasReplay x1 x2 s) := by
  unfold rasReplay
  extract_lets +onlyGivenNames y1
  extract_lets +onlyGivenNames y2
  extract_lets +onlyGivenNames y3
  refine Evolves.ite ?_ ?_
  · refine Evolves.ite ?_ ?_
    · split
      · extract_lets +onlyGivenNames y4
        extract_lets +onlyGivenNames y5
        have h6 : Evolves M P a y5 := by
          unfold y5
          refine Evolves.modSeam (hm.bit rfl) e1 ?_
          exact h
        clear_value y5
        extract_lets +onlyGivenNames y7
        have h8 : Evolves M P a y7 := by
          unfold y7
          refine slotData_ev _ _ _ (hm.of rfl) ?_
          exact h6
        clear_value y7
        refine rasShow_ev _ (hm.of rfl) e1 ?_
        refine Evolves.mqPut (hm.bit rfl) ?_
        exact h8
      · refine rasRefuse_ev _ _ (hm.of rfl) e1 ?_
        exact h
    · exact h
  · refine rasAccept_ev _ _ (hm.of rfl) e1 ?_
    exact h

theorem replayDeliver_ev (x1 x2 x3 x4 : _) (hm : Sub 0x48cc00a00000212 M) (e1 : P x1.val) (h : Evolves M P a s) :
    Evolves M P a (replayDeliver x1 x2 x3 x4 s) := by
  unfold replayDeliver
  split
  · extract_lets +onlyGivenNames y1
    have h2 : Evolves M P a y1 := by
      unfold y1
      refine Evolves.ite ?_ ?_
      · refine patNote_ev _ _ _ _ (hm.of rfl) ?_
        exact h
      · exact h
    clear_value y1
    refine rasReplay_ev _ _ (hm.of rfl) e1 ?_
    exact h2
  · exact h

theorem replayPass_ev (x1 x2 : _) (hm : Sub 0x48cc00b80000212 M) (e1 : P x1.val) (h : Evolves M P a s) :
    Evolves M P a (replayPass x1 x2 s) := by
  unfold replayPass
  refine Evolves.ite ?_ ?_
  · extract_lets +onlyGivenNames y1
    extract_lets +onlyGivenNames y2
    have h3 : Evolves M P a y2 := by
      unfold y2
      refine replayDetect_ev _ _ (hm.of rfl) e1 ?_
      exact h
    clear_value y2
    extract_lets +onlyGivenNames y4
    extract_lets +onlyGivenNames y5
    extract_lets +onlyGivenNames y6
    have h7 : Evolves M P a y6 := by
      unfold y6
      refine Evolves.modCh (hm.bit rfl) e1 ?_
      exact h3
    clear_value y6
    refine Evolves.ite ?_ ?_
    · extract_lets +onlyGivenNames y8
      have h9 : Evolves M P a y8 := by
        unfold y8
        refine decodeShow_ev _ _ _ _ (hm.of rfl) e1 ?_
        refine Evolves.raise .chain rfl (hm.bit rfl) e1 (hm.bit rfl) ?_
        refine Evolves.put .chain rfl (hm.bit rfl) e1 ?_
        exact h7
      clear_value y8
      refine Evolves.ite ?_ ?_
      · refine replayDeliver_ev _ _ _ _ (hm.of rfl) e1 ?_
        exact h9
      · exact h9
    · refine Evolves.put .chain rfl (hm.bit rfl) e1 ?_
      exact h7
  · exact h

theorem stitchDone_ev (x1 x2 : _) (hm : Sub 0x48cc00a00000212 M) (e1 : P x1.val) (h : Evolves M P a s) :
    Evolves M P a (stitchDone x1 x2 s) := by
  unfold stitchDone
  split
  · exact h
  · extract_lets +onlyGivenNames y1
    extract_lets +onlyGivenNames y2
    have h3 : Evolves M P a y2 := by
      unfold y2
      refine Evolves.modSeam (hm.bit rfl) e1 ?_
      exact h
    clear_value y2
    extract_lets +onlyGivenNames y4
    have h5 : Evolves M P a y4 := by
      unfold y4
      refine stitchDrop_ev _ _ (hm.of rfl) e1 ?_
      refine Evolves.inc .seam rfl (hm.bit rfl) e1 ?_
      exact h3
    clear_value y4
    extract_lets +onlyGivenNames y6
    have h7 : Evolves M P a y6 := by
      unfold y6
      refine Evolves.ite ?_ ?_
      · refine patNote_ev _ _ _ _ (hm.of rfl) ?_
        exact h5
      · exact h5
    clear_value y6
    refine rasAccept_ev _ _ (hm.of rfl) e1 ?_
    exact h7

theorem wpllLocked_ev (x1 x2 : _) (hm : Sub 0x400000000000400 M) (e1 : P x1.val) (h : Evolves M P a s) :
    Evolves M P a (wpllLocked x1 x2 s) := by
  unfold wpllLocked
  refine Evolves.ite ?_ ?_
  · refine Evolves.raise .wobble rfl (hm.bit rfl) e1 (hm.bit rfl) ?_
    refine Evolves.put .wobble rfl (hm.bit rfl) e1 ?_
    refine Evolves.put .wobble rfl (hm.bit rfl) e1 ?_
    refine Evolves.put .wobble rfl (hm.bit rfl) e1 ?_
    exact h
  · exact h

theorem wpllLost_ev (x1 : _) (hm : Sub 0x40c400ec0000615 M) (e1 : P x1.val) (h : Evolves M P a s) :
    Evolves M P a (wpllLost x1 s) := by
  unfold wpllLost
  refine Evolves.ite ?_ ?_
  · extract_lets +onlyGivenNames y1
    have h2 : Evolves M P a y1 := by
      unfold y1
      refine Evolves.raise .wobble rfl (hm.bit rfl) e1 (hm.bit rfl) ?_
      refine Evolves.put .wobble rfl (hm.bit rfl) e1 ?_
      refine Evolves.put .wobble rfl (hm.bit rfl) e1 ?_
      exact h
    clear_value y1
    extract_lets +onlyGivenNames y3
    have h4 : Evolves M P a y3 := by
      unfold y3
      refine Evolves.foldl _ (fun s5 x6 h7 => ?_) ?_
      · refine Evolves.ite ?_ ?_
        · refine Evolves.raise .chain rfl (hm.bit rfl) e1 (hm.bit rfl) ?_
          refine Evolves.put .chain rfl (hm.bit rfl) e1 ?_
          exact h7
        · exact h7
      · exact h2
    clear_value y3
    extract_lets +onlyGivenNames y8
    have h9 : Evolves M P a y8 := by
      unfold y8
      refine Evolves.ite ?_ ?_
      · refine sendSr_ev _ _ (hm.of rfl) e1 ?_
        refine Evolves.put .wobble rfl (hm.bit rfl) e1 ?_
        exact h4
      · exact h4
    clear_value y8
    refine wrAbort_ev _ _ (hm.of rfl) e1 ?_
    exact h9
  · exact h

theorem wpllResumed_ev (x1 : _) (hm : Sub 0x600 M) (e1 : P x1.val) (h : Evolves M P a s) :
    Evolves M P a (wpllResumed x1 s) := by
  unfold wpllResumed
  refine Evolves.ite ?_ ?_
  · refine Evolves.foldl _ (fun s1 x2 h3 => ?_) ?_
    · refine Evolves.put .chain rfl (hm.bit rfl) e1 ?_
      exact h3
    · refine Evolves.put .wobble rfl (hm.bit rfl) e1 ?_
      exact h
  · exact h

theorem capWrite_ev (x1 x2 : _) (hm : Sub 0x100000800 M) (e1 : P x1.val) (h : Evolves M P a s) :
    Evolves M P a (capWrite x1 x2 s) := by
  unfold capWrite
  extract_lets +onlyGivenNames y1
  have h2 : Evolves M P a y1 := by
    unfold y1
    refine Evolves.ite ?_ ?_
    · refine Evolves.modCap (hm.bit rfl) e1 ?_
      exact h
    · exact h
  clear_value y1
  extract_lets +onlyGivenNames y3
  have h4 : Evolves M P a y3 := by
    unfold y3
    refine Evolves.put .capture rfl (hm.bit rfl) e1 ?_
    refine Evolves.put .capture rfl (hm.bit rfl) e1 ?_
    refine Evolves.put .capture rfl (hm.bit rfl) e1 ?_
    refine Evolves.put .capture rfl (hm.bit rfl) e1 ?_
    refine Evolves.put .capture rfl (hm.bit rfl) e1 ?_
    exact h2
  clear_value y3
  extract_lets +onlyGivenNames y5
  have h6 : Evolves M P a y5 := by
    unfold y5
    refine Evolves.modTrig (hm.bit rfl) e1 ?_
    exact h4
  clear_value y5
  refine Evolves.ite ?_ ?_
  · refine Evolves.wrE .capture rfl (hm.bit rfl) e1 ?_
    exact h6
  · exact h6

theorem capTrig_ev (x1 x2 : _) (hm : Sub 0x800 M) (e1 : P x1.val) (h : Evolves M P a s) :
    Evolves M P a (capTrig x1 x2 s) := by
  unfold capTrig
  refine Evolves.ite ?_ ?_
  · refine Evolves.put .capture rfl (hm.bit rfl) e1 ?_
    refine Evolves.put .capture rfl (hm.bit rfl) e1 ?_
    exact h
  · exact h

theorem capFinish_ev (x1 x2 : _) (hm : Sub 0x100000800 M) (e1 : P x1.val) (h : Evolves M P a s) :
    Evolves M P a (capFinish x1 x2 s) := by
  unfold capFinish
  refine Evolves.ite ?_ ?_
  · extract_lets +onlyGivenNames y1
    refine Evolves.modCapTrig (hm.bit rfl) e1 ?_
    refine Evolves.put .capture rfl (hm.bit rfl) e1 ?_
    refine Evolves.put .capture rfl (hm.bit rfl) e1 ?_
    exact h
  · exact h

theorem execChainEnable_next (x1 x2 : _) (hm : Sub 0x200 M) (e1 : P x1.val) :
    ∃ t, (execChainEnable x1 x2 s) = .next t ∧ Evolves M P s t := by
  refine ⟨_, rfl, ?_⟩
  have h := Evolves.refl M P s
  refine chainOn_ev _ _ (hm.of rfl) e1 ?_
  exact h

theorem execChainDisable_next (x1 x2 : _) (hm : Sub 0x12c0080208 M) (e1 : P x1.val) :
    ∃ t, (execChainDisable x1 x2 s) = .next t ∧ Evolves M P s t := by
  refine ⟨_, rfl, ?_⟩
  have h := Evolves.refl M P s
  refine chainOff_ev _ _ (hm.of rfl) e1 ?_
  exact h

theorem execChCntClr_next (x1 x2 x3 : _) (hm : Sub 0x200 M) (e1 : P x1.val) :
    ∃ t, (execChCntClr x1 x2 x3 s) = .next t ∧ Evolves M P s t := by
  refine ⟨_, rfl, ?_⟩
  have h := Evolves.refl M P s
  refine chCntClear_ev _ _ _ (hm.of rfl) e1 ?_
  exact h

theorem execRplCapArm_next (x1 x2 : _) (hm : Sub 0x200 M) (e1 : P x1.val) :
    ∃ t, (execRplCapArm x1 x2 s) = .next t ∧ Evolves M P s t := by
  refine ⟨_, rfl, ?_⟩
  have h := Evolves.refl M P s
  refine capArm_ev _ _ (hm.of rfl) e1 ?_
  exact h

theorem execRplPlay_next (x1 : _) (hm : Sub 0x80000200 M) (e1 : P x1.val) :
    ∃ t, (execRplPlay x1 s) = .next t ∧ Evolves M P s t := by
  refine ⟨_, rfl, ?_⟩
  have h := Evolves.refl M P s
  refine replayPlay_ev _ (hm.of rfl) e1 ?_
  exact h

theorem execRplAbort_next (x1 : _) (hm : Sub 0x200 M) (e1 : P x1.val) :
    ∃ t, (execRplAbort x1 s) = .next t ∧ Evolves M P s t := by
  refine ⟨_, rfl, ?_⟩
  have h := Evolves.refl M P s
  refine Evolves.put .chain rfl (hm.bit rfl) e1 ?_
  exact h

theorem execWpllLock_next (x1 x2 : _) (hm : Sub 0x400000000000400 M) (e1 : P x1.val) :
    ∃ t, (execWpllLock x1 x2 s) = .next t ∧ Evolves M P s t := by
  refine ⟨_, rfl, ?_⟩
  have h := Evolves.refl M P s
  refine wpllLocked_ev _ _ (hm.of rfl) e1 ?_
  exact h

theorem execWpllResume_next (x1 : _) (hm : Sub 0x600 M) (e1 : P x1.val) :
    ∃ t, (execWpllResume x1 s) = .next t ∧ Evolves M P s t := by
  refine ⟨_, rfl, ?_⟩
  have h := Evolves.refl M P s
  refine wpllResumed_ev _ (hm.of rfl) e1 ?_
  exact h

theorem execCapCtrlWrite_next (x1 x2 : _) (hm : Sub 0x100000800 M) (e1 : P x1.val) :
    ∃ t, (execCapCtrlWrite x1 x2 s) = .next t ∧ Evolves M P s t := by
  refine ⟨_, rfl, ?_⟩
  have h := Evolves.refl M P s
  refine capWrite_ev _ _ (hm.of rfl) e1 ?_
  exact h

theorem execCapTrigger_next (x1 x2 : _) (hm : Sub 0x800 M) (e1 : P x1.val) :
    ∃ t, (execCapTrigger x1 x2 s) = .next t ∧ Evolves M P s t := by
  refine ⟨_, rfl, ?_⟩
  have h := Evolves.refl M P s
  refine capTrig_ev _ _ (hm.of rfl) e1 ?_
  exact h

theorem execCapDone_next (x1 x2 : _) (hm : Sub 0x100000800 M) (e1 : P x1.val) :
    ∃ t, (execCapDone x1 x2 s) = .next t ∧ Evolves M P s t := by
  refine ⟨_, rfl, ?_⟩
  have h := Evolves.refl M P s
  refine capFinish_ev _ _ (hm.of rfl) e1 ?_
  exact h

end Sys2Proof.Machine
end

