-- ==== Sys2Proof/Laws/HeadLink.lean ====
section
/-! SUPPORT. One lemma per operation of Machine/HeadLink.lean: the parts of the state it can touch and what it needs of the engines (`Evolves`). -/

namespace Sys2Proof.Machine

variable {M : Nat} {P : Nat → Prop} {a s : State}

theorem setLanes_ev (x1 x2 : _) (hm : Sub 0x1 M) (e1 : P x1.val) (h : Evolves M P a s) :
    Evolves M P a (setLanes x1 x2 s) := by
  unfold setLanes
  refine Evolves.put .hl rfl (hm.bit rfl) e1 ?_
  refine Evolves.put .hl rfl (hm.bit rfl) e1 ?_
  exact h

theorem linkLog_ev (x1 : _) (hm : Sub 0x441000010000000 M) (h : Evolves M P a s) :
    Evolves M P a (linkLog x1 s) := by
  unfold linkLog
  refine State.logEvent_ev _ _ (hm.of rfl) ?_
  exact h

theorem State.modLane_ev (x2 x3 x4 : _) (hm : Sub 0x40000000 M) (e2 : P x2.val) (h : Evolves M P a s) :
    Evolves M P a (State.modLane s x2 x3 x4) := by
  unfold State.modLane
  refine Evolves.modHl (hm.bit rfl) e2 ?_
  exact h

theorem linkLeave_ev (x1 : _) (hm : Sub 0x40c401ec008039f M) (e1 : P x1.val) (h : Evolves M P a s) :
    Evolves M P a (linkLeave x1 s) := by
  unfold linkLeave
  extract_lets +onlyGivenNames y1
  have h2 : Evolves M P a y1 := by
    unfold y1
    refine wrAbort_ev _ _ (hm.of rfl) e1 ?_
    refine Evolves.emit (hm.bit rfl) ?_
    exact h
  clear_value y1
  extract_lets +onlyGivenNames y3
  have h4 : Evolves M P a y3 := by
    unfold y3
    refine attemptVoid_ev _ (hm.of rfl) e1 ?_
    refine tmpAbandonWith_ev _ _ _ (hm.of rfl) e1 ?_
    exact h2
  clear_value y3
  refine Evolves.modHl (hm.bit rfl) e1 ?_
  refine Evolves.put .hl rfl (hm.bit rfl) e1 ?_
  exact h4

theorem linkFault_ev (x1 : _) (hm : Sub 0x40c436ec00803f6 M) (e1 : P x1.val) (h : Evolves M P a s) :
    Evolves M P a (linkFault x1 s) := by
  unfold linkFault
  refine Evolves.ite ?_ ?_
  · exact h
  · refine focusLostOp_ev _ _ (hm.of rfl) e1 ?_
    exact h

theorem linkFail_ev (x1 x2 : _) (hm : Sub 0x44d436ed00803f7 M) (e1 : P x1.val) (h : Evolves M P a s) :
    Evolves M P a (linkFail x1 x2 s) := by
  unfold linkFail
  extract_lets +onlyGivenNames y1
  have h2 : Evolves M P a y1 := by
    unfold y1
    refine Evolves.report (hm.bit rfl) ?_
    refine Evolves.raise .hl rfl (hm.bit rfl) e1 (hm.bit rfl) ?_
    refine Evolves.put .hl rfl (hm.bit rfl) e1 ?_
    exact h
  clear_value y1
  extract_lets +onlyGivenNames y3
  have h4 : Evolves M P a y3 := by
    unfold y3
    refine setLanes_ev _ _ (hm.of rfl) e1 ?_
    exact h2
  clear_value y3
  refine linkFault_ev _ (hm.of rfl) e1 ?_
  refine Evolves.ite ?_ ?_
  · refine linkLog_ev _ (hm.of rfl) ?_
    exact h4
  · exact h4

theorem attemptStart_ev (x1 : _) (hm : Sub 0x40000000 M) (e1 : P x1.val) (h : Evolves M P a s) :
    Evolves M P a (attemptStart x1 s) := by
  unfold attemptStart
  refine Evolves.modHl (hm.bit rfl) e1 ?_
  exact h

theorem trainStart_ev (x1 : _) (hm : Sub 0x40c401ec008039f M) (e1 : P x1.val) (h : Evolves M P a s) :
    Evolves M P a (trainStart x1 s) := by
  unfold trainStart
  extract_lets +onlyGivenNames y1
  extract_lets +onlyGivenNames y2
  have h3 : Evolves M P a y2 := by
    unfold y2
    refine Evolves.ite ?_ ?_
    · refine linkLeave_ev _ (hm.of rfl) e1 ?_
      exact h
    · refine Evolves.emit (hm.bit rfl) ?_
      exact h
  clear_value y2
  extract_lets +onlyGivenNames y4
  have h5 : Evolves M P a y4 := by
    unfold y4
    refine setLanes_ev _ _ (hm.of rfl) e1 ?_
    refine Evolves.put .hl rfl (hm.bit rfl) e1 ?_
    refine Evolves.put .hl rfl (hm.bit rfl) e1 ?_
    exact h3
  clear_value y4
  extract_lets +onlyGivenNames y6
  have h7 : Evolves M P a y6 := by
    unfold y6
    refine Evolves.put .tmp rfl (hm.bit rfl) e1 ?_
    exact h5
  clear_value y6
  refine attemptStart_ev _ (hm.of rfl) e1 ?_
  refine Evolves.modHl (hm.bit rfl) e1 ?_
  exact h7

theorem trainDone_ev (x1 : _) (hm : Sub 0x441000050000005 M) (e1 : P x1.val) (h : Evolves M P a s) :
    Evolves M P a (trainDone x1 s) := by
  unfold trainDone
  extract_lets +onlyGivenNames y1
  extract_lets +onlyGivenNames y2
  extract_lets +onlyGivenNames y3
  have h4 : Evolves M P a y3 := by
    unfold y3
    refine setLanes_ev _ _ (hm.of rfl) e1 ?_
    refine Evolves.raise .hl rfl (hm.bit rfl) e1 (hm.bit rfl) ?_
    refine Evolves.put .hl rfl (hm.bit rfl) e1 ?_
    exact h
  clear_value y3
  extract_lets +onlyGivenNames y5
  have h6 : Evolves M P a y5 := by
    unfold y5
    refine Evolves.putBool .hl rfl (hm.bit rfl) e1 ?_
    refine Evolves.putBool .hl rfl (hm.bit rfl) e1 ?_
    exact h4
  clear_value y5
  extract_lets +onlyGivenNames y7
  have h8 : Evolves M P a y7 := by
    unfold y7
    refine Evolves.ite ?_ ?_
    · exact h6
    · refine Evolves.report (hm.bit rfl) ?_
      refine Evolves.raise .hl rfl (hm.bit rfl) e1 (hm.bit rfl) ?_
      exact h6
  clear_value y7
  extract_lets +onlyGivenNames y9
  have h10 : Evolves M P a y9 := by
    unfold y9
    refine Evolves.ite ?_ ?_
    · refine linkLog_ev _ (hm.of rfl) ?_
      exact h8
    · exact h8
  clear_value y9
  extract_lets +onlyGivenNames y11
  have h12 : Evolves M P a y11 := by
    unfold y11
    refine Evolves.modHl (hm.bit rfl) e1 ?_
    refine Evolves.put .wr rfl (hm.bit rfl) e1 ?_
    exact h10
  clear_value y11
  extract_lets +onlyGivenNames y13
  have h14 : Evolves M P a y13 := by
    unfold y13
    refine Evolves.ite ?_ ?_
    · refine sendFw_ev _ _ _ (hm.of rfl) e1 ?_
      exact h12
    · refine sendSr_ev _ _ (hm.of rfl) e1 ?_
      exact h12
  clear_value y13
  refine sendLevels_ev _ (hm.of rfl) e1 ?_
  refine shadowResend_ev _ (hm.of rfl) e1 ?_
  exact h14

theorem trainFrame_ev (x1 x2 x3 x4 x5 x6 : _) (hm : Sub 0x40000001 M) (e1 : P x1.val) (h : Evolves M P a s) :
    Evolves M P a (trainFrame x1 x2 x3 x4 x5 x6 s) := by
  unfold trainFrame
  extract_lets +onlyGivenNames y1
  extract_lets +onlyGivenNames y2
  extract_lets +onlyGivenNames y3
  refine Evolves.ite ?_ ?_
  · extract_lets +onlyGivenNames y4
    have h5 : Evolves M P a y4 := by
      unfold y4
      refine Evolves.incBy .hl (Reg.group_hl rfl (by dsimp only [spareRes]; omega)) (hm.bit rfl) e1 ?_
      exact h
    clear_value y4
    extract_lets +onlyGivenNames y6
    have h7 : Evolves M P a y6 := by
      unfold y6
      refine State.modLane_ev _ _ _ (hm.of rfl) e1 ?_
      exact h5
    clear_value y6
    refine Evolves.ite ?_ ?_
    · extract_lets +onlyGivenNames y8
      have h9 : Evolves M P a y8 := by
        unfold y8
        refine State.modLane_ev _ _ _ (hm.of rfl) e1 ?_
        exact h7
      clear_value y8
      split
      · extract_lets +onlyGivenNames y10
        extract_lets +onlyGivenNames y11
        refine Evolves.ite ?_ ?_
        · refine Evolves.modHl (hm.bit rfl) e1 ?_
          exact h9
        · exact h9
      · refine Evolves.ite ?_ ?_
        · refine Evolves.modHl (hm.bit rfl) e1 ?_
          exact h9
        · exact h9
      · exact h9
    · exact h7
  · exact h

theorem trainTimeoutOp_ev (x1 : _) (hm : Sub 0x44d436ed00803f7 M) (e1 : P x1.val) (h : Evolves M P a s) :
    Evolves M P a (trainTimeoutOp x1 s) := by
  unfold trainTimeoutOp
  refine Evolves.ite ?_ ?_
  · extract_lets +onlyGivenNames y1
    refine Evolves.ite ?_ ?_
    · refine attemptStart_ev _ (hm.of rfl) e1 ?_
      refine Evolves.put .hl rfl (hm.bit rfl) e1 ?_
      exact h
    · refine linkFail_ev _ _ (hm.of rfl) e1 ?_
      exact h
  · exact h

theorem linkEnable_ev (x1 : _) (hm : Sub 0x40c401ec008039f M) (e1 : P x1.val) (h : Evolves M P a s) :
    Evolves M P a (linkEnable x1 s) := by
  unfold linkEnable
  extract_lets +onlyGivenNames y1
  have h2 : Evolves M P a y1 := by
    unfold y1
    refine Evolves.put .hl rfl (hm.bit rfl) e1 ?_
    exact h
  clear_value y1
  refine Evolves.ite ?_ ?_
  · refine trainStart_ev _ (hm.of rfl) e1 ?_
    exact h2
  · exact h2

theorem fwShow_ev (x1 : _) (hm : Sub 0x1 M) (e1 : P x1.val) (h : Evolves M P a s) :
    Evolves M P a (fwShow x1 s) := by
  unfold fwShow
  refine Evolves.ite ?_ ?_
  · exact h
  · refine Evolves.put .hl rfl (hm.bit rfl) e1 ?_
    exact h

theorem linkDisable_ev (x1 : _) (hm : Sub 0x40c401ec008039f M) (e1 : P x1.val) (h : Evolves M P a s) :
    Evolves M P a (linkDisable x1 s) := by
  unfold linkDisable
  extract_lets +onlyGivenNames y1
  have h2 : Evolves M P a y1 := by
    unfold y1
    refine Evolves.put .hl rfl (hm.bit rfl) e1 ?_
    exact h
  clear_value y1
  refine Evolves.ite ?_ ?_
  · exact h2
  · extract_lets +onlyGivenNames y3
    have h4 : Evolves M P a y3 := by
      unfold y3
      refine Evolves.ite ?_ ?_
      · refine linkLeave_ev _ (hm.of rfl) e1 ?_
        exact h2
      · refine Evolves.emit (hm.bit rfl) ?_
        exact h2
    clear_value y3
    refine setLanes_ev _ _ (hm.of rfl) e1 ?_
    refine Evolves.put .hl rfl (hm.bit rfl) e1 ?_
    exact h4

theorem linkRetrain_ev (x1 : _) (hm : Sub 0x40c401ec008039f M) (e1 : P x1.val) (h : Evolves M P a s) :
    Evolves M P a (linkRetrain x1 s) := by
  unfold linkRetrain
  refine Evolves.ite ?_ ?_
  · refine trainStart_ev _ (hm.of rfl) e1 ?_
    exact h
  · exact h

theorem linkCntClear_ev (x1 x2 : _) (hm : Sub 0x1 M) (e1 : P x1.val) (h : Evolves M P a s) :
    Evolves M P a (linkCntClear x1 x2 s) := by
  unfold linkCntClear
  refine Evolves.foldl _ (fun s1 x2 h3 => ?_) ?_
  · extract_lets +onlyGivenNames y4
    have h5 : Evolves M P a y4 := by
      unfold y4
      refine Evolves.put .hl (Reg.group_hl rfl (by dsimp only [spareRes]; omega)) (hm.bit rfl) e1 ?_
      refine Evolves.wrE .hl (Reg.group_hl rfl (by dsimp only [spareRes]; omega)) (hm.bit rfl) e1 ?_
      exact h3
    clear_value y4
    extract_lets +onlyGivenNames y6
    have h7 : Evolves M P a y6 := by
      unfold y6
      refine Evolves.ite ?_ ?_
      · exact h5
      · refine Evolves.put .hl (Reg.group_hl rfl (by dsimp only [spareRes]; omega)) (hm.bit rfl) e1 ?_
        exact h5
    clear_value y6
    refine Evolves.put .hl (Reg.group_hl rfl (by dsimp only [spareRes]; omega)) (hm.bit rfl) e1 ?_
    exact h7
  · exact h

theorem laneLadder_ev (x1 : _) (hm : Sub 0xc000800000010 M) (e1 : P x1.val) (h : Evolves M P a s) :
    Evolves M P a (laneLadder x1 s) := by
  unfold laneLadder
  extract_lets +onlyGivenNames y1
  have h2 : Evolves M P a y1 := by
    unfold y1
    refine Evolves.foldl _ (fun s3 x4 h5 => ?_) ?_
    · extract_lets +onlyGivenNames y6
      split
      · refine Evolves.ite ?_ ?_
        · refine ladderEnter_ev _ _ _ (hm.of rfl) e1 ?_
          exact h5
        · exact h5
      · exact h5
    · exact h
  clear_value y1
  refine Evolves.foldl _ (fun s7 x8 h9 => ?_) ?_
  · refine ladderEnter_ev _ _ _ (hm.of rfl) e1 ?_
    exact h9
  · exact h2

theorem slowTo8_ev (x1 : _) (hm : Sub 0x10000000020 M) (e1 : P x1.val) (h : Evolves M P a s) :
    Evolves M P a (slowTo8 x1 s) := by
  unfold slowTo8
  extract_lets +onlyGivenNames y1
  extract_lets +onlyGivenNames y2
  extract_lets +onlyGivenNames y3
  refine Evolves.ite ?_ ?_
  · refine spnTarget_ev _ _ (hm.of rfl) e1 ?_
    exact h
  · exact h

theorem laneDrop_ev (x1 x2 : _) (hm : Sub 0x44d0118d0080239 M) (e1 : P x1.val) (h : Evolves M P a s) :
    Evolves M P a (laneDrop x1 x2 s) := by
  unfold laneDrop
  extract_lets +onlyGivenNames y1
  extract_lets +onlyGivenNames y2
  have h3 : Evolves M P a y2 := by
    unfold y2
    refine Evolves.report (hm.bit rfl) ?_
    refine Evolves.raise .hl rfl (hm.bit rfl) e1 (hm.bit rfl) ?_
    refine Evolves.put .hl rfl (hm.bit rfl) e1 ?_
    exact h
  clear_value y2
  extract_lets +onlyGivenNames y4
  have h5 : Evolves M P a y4 := by
    unfold y4
    refine setLanes_ev _ _ (hm.of rfl) e1 ?_
    refine Evolves.put .hl rfl (hm.bit rfl) e1 ?_
    refine Evolves.put .hl rfl (hm.bit rfl) e1 ?_
    exact h3
  clear_value y4
  extract_lets +onlyGivenNames y6
  have h7 : Evolves M P a y6 := by
    unfold y6
    refine State.modLane_ev _ _ _ (hm.of rfl) e1 ?_
    refine Evolves.modHl (hm.bit rfl) e1 ?_
    exact h5
  clear_value y6
  extract_lets +onlyGivenNames y8
  have h9 : Evolves M P a y8 := by
    unfold y8
    refine slowTo8_ev _ (hm.of rfl) e1 ?_
    refine linkLog_ev _ (hm.of rfl) ?_
    exact h7
  clear_value y8
  extract_lets +onlyGivenNames y10
  have h11 : Evolves M P a y10 := by
    unfold y10
    refine Evolves.ite ?_ ?_
    · refine sendFw_ev _ _ _ (hm.of rfl) e1 ?_
      exact h9
    · refine sendSr_ev _ _ (hm.of rfl) e1 ?_
      exact h9
  clear_value y10
  extract_lets +onlyGivenNames y12
  have h13 : Evolves M P a y12 := by
    unfold y12
    refine Evolves.ite ?_ ?_
    · refine tmpAbandonWith_ev _ _ _ (hm.of rfl) e1 ?_
      exact h11
    · refine sendSpare_ev _ _ (hm.of rfl) e1 ?_
      exact h11
  clear_value y12
  refine laneLadder_ev _ (hm.of rfl) e1 ?_
  exact h13

theorem laneLost_ev (x1 x2 : _) (hm : Sub 0x44d437ed00803ff M) (e1 : P x1.val) (h : Evolves M P a s) :
    Evolves M P a (laneLost x1 x2 s) := by
  unfold laneLost
  extract_lets +onlyGivenNames y1
  have h2 : Evolves M P a y1 := by
    unfold y1
    refine State.modLane_ev _ _ _ (hm.of rfl) e1 ?_
    refine Evolves.inc .hl (Reg.group_hl rfl (by dsimp only [spareRes]; omega)) (hm.bit rfl) e1 ?_
    exact h
  clear_value y1
  refine Evolves.ite ?_ ?_
  · refine Evolves.ite ?_ ?_
    · refine linkFail_ev _ _ (hm.of rfl) e1 ?_
      refine linkLeave_ev _ (hm.of rfl) e1 ?_
      exact h2
    · refine Evolves.ite ?_ ?_
      · refine laneDrop_ev _ _ (hm.of rfl) e1 ?_
        exact h2
      · refine linkFault_ev _ (hm.of rfl) e1 ?_
        refine trainStart_ev _ (hm.of rfl) e1 ?_
        exact h2
  · exact h2

theorem crcCount_ev (x1 x2 x3 : _) (hm : Sub 0x400000040000001 M) (e1 : P x1.val) (h : Evolves M P a s) :
    Evolves M P a (crcCount x1 x2 x3 s) := by
  unfold crcCount
  refine Evolves.ite ?_ ?_
  · exact h
  · extract_lets +onlyGivenNames y1
    have h2 : Evolves M P a y1 := by
      unfold y1
      refine Evolves.modHl (hm.bit rfl) e1 ?_
      refine Evolves.incBy .hl (Reg.group_hl rfl (by dsimp only [spareRes]; omega)) (hm.bit rfl) e1 ?_
      exact h
    clear_value y1
    refine Evolves.ite ?_ ?_
    · refine Evolves.raise .hl rfl (hm.bit rfl) e1 (hm.bit rfl) ?_
      exact h2
    · exact h2

theorem crcFrame_ev (x1 x2 : _) (hm : Sub 0x40000000 M) (e1 : P x1.val) (h : Evolves M P a s) :
    Evolves M P a (crcFrame x1 x2 s) := by
  unfold crcFrame
  refine Evolves.modHl (hm.bit rfl) e1 ?_
  exact h

theorem f5Status_ev (x1 x2 : _) (hm : Sub 0x44d437ed00803ff M) (e1 : P x1.val) (h : Evolves M P a s) :
    Evolves M P a (f5Status x1 x2 s) := by
  unfold f5Status
  refine Evolves.ite ?_ ?_
  · extract_lets +onlyGivenNames y1
    have h2 : Evolves M P a y1 := by
      unfold y1
      refine Evolves.wrE .hl rfl (hm.bit rfl) e1 ?_
      exact h
    clear_value y1
    extract_lets +onlyGivenNames y3
    extract_lets +onlyGivenNames y4
    have h5 : Evolves M P a y4 := by
      unfold y4
      refine crcCount_ev _ _ _ (hm.of rfl) e1 ?_
      exact h2
    clear_value y4
    extract_lets +onlyGivenNames y6
    have h7 : Evolves M P a y6 := by
      unfold y6
      refine Evolves.modHl (hm.bit rfl) e1 ?_
      exact h5
    clear_value y6
    refine Evolves.ite ?_ ?_
    · refine Evolves.ite ?_ ?_
      · extract_lets +onlyGivenNames y8
        have h9 : Evolves M P a y8 := by
          unfold y8
          refine Evolves.report (hm.bit rfl) ?_
          refine Evolves.raise .hl rfl (hm.bit rfl) e1 (hm.bit rfl) ?_
          refine Evolves.inc .hl rfl (hm.bit rfl) e1 ?_
          exact h7
        clear_value y8
        refine linkLog_ev _ (hm.of rfl) ?_
        refine linkFail_ev _ _ (hm.of rfl) e1 ?_
        refine linkLeave_ev _ (hm.of rfl) e1 ?_
        exact h9
      · refine Evolves.ite ?_ ?_
        · refine Evolves.modHl (hm.bit rfl) e1 ?_
          exact h7
        · exact h7
    · exact h7
  · exact h

theorem routeGroup_ev (x1 x2 x3 : _) (hm : Sub 0x4000000c0000200 M) (e1 : P x1.val) (h : Evolves M P a s) :
    Evolves M P a (routeGroup x1 x2 x3 s) := by
  unfold routeGroup
  extract_lets +onlyGivenNames y1
  extract_lets +onlyGivenNames y2
  extract_lets +onlyGivenNames y3
  have h4 : Evolves M P a y3 := by
    unfold y3
    refine Evolves.foldl _ (fun s5 x6 h7 => ?_) ?_
    · extract_lets +onlyGivenNames y8
      refine agcSearch_ev _ _ _ (hm.of rfl) e1 ?_
      refine feedStream_ev _ _ _ (hm.of rfl) e1 ?_
      exact h7
    · exact h
  clear_value y3
  extract_lets +onlyGivenNames y9
  have h10 : Evolves M P a y9 := by
    unfold y9
    split
    · exact h4
    · refine Evolves.modHl (hm.bit rfl) e1 ?_
      exact h4
  clear_value y9
  refine Evolves.foldl _ (fun s11 x12 h13 => ?_) ?_
  · refine chainBits_ev _ _ (hm.of rfl) e1 ?_
    exact h13
  · exact h10

theorem drainLanes_ev (x1 : _) (hm : Sub 0x4000000c0000200 M) (e1 : P x1.val) (h : Evolves M P a s) :
    Evolves M P a (drainLanes x1 s) := by
  unfold drainLanes
  extract_lets +onlyGivenNames y1
  extract_lets +onlyGivenNames y2
  refine Evolves.ite ?_ ?_
  · extract_lets +onlyGivenNames y3
    extract_lets +onlyGivenNames y4
    extract_lets +onlyGivenNames y5
    have h6 : Evolves M P a y5 := by
      unfold y5
      refine Evolves.modHl (hm.bit rfl) e1 ?_
      exact h
    clear_value y5
    refine routeGroup_ev _ _ _ (hm.of rfl) e1 ?_
    exact h6
  · exact h

theorem laneTake_ev (x1 x2 x3 x4 x5 : _) (hm : Sub 0x4000000c0000201 M) (e1 : P x1.val) (h : Evolves M P a s) :
    Evolves M P a (laneTake x1 x2 x3 x4 x5 s) := by
  unfold laneTake
  extract_lets +onlyGivenNames y1
  have h2 : Evolves M P a y1 := by
    unfold y1
    refine crcFrame_ev _ _ (hm.of rfl) e1 ?_
    refine crcCount_ev _ _ _ (hm.of rfl) e1 ?_
    exact h
  clear_value y1
  extract_lets +onlyGivenNames y3
  extract_lets +onlyGivenNames y4
  have h5 : Evolves M P a y4 := by
    unfold y4
    refine Evolves.modHl (hm.bit rfl) e1 ?_
    exact h2
  clear_value y4
  refine drainLanes_ev _ (hm.of rfl) e1 ?_
  refine State.modLane_ev _ _ _ (hm.of rfl) e1 ?_
  exact h5

theorem laneFrame_ev (x1 x2 x3 x4 x5 x6 : _) (hm : Sub 0x44d437ed00803ff M) (e1 : P x1.val) (h : Evolves M P a s) :
    Evolves M P a (laneFrame x1 x2 x3 x4 x5 x6 s) := by
  unfold laneFrame
  refine Evolves.ite ?_ ?_
  · extract_lets +onlyGivenNames y1
    extract_lets +onlyGivenNames y2
    extract_lets +onlyGivenNames y3
    extract_lets +onlyGivenNames y4
    have h5 : Evolves M P a y4 := by
      unfold y4
      refine Evolves.incBy .hl (Reg.group_hl rfl (by dsimp only [spareRes]; omega)) (hm.bit rfl) e1 ?_
      exact h
    clear_value y4
    extract_lets +onlyGivenNames y6
    have h7 : Evolves M P a y6 := by
      unfold y6
      refine State.modLane_ev _ _ _ (hm.of rfl) e1 ?_
      exact h5
    clear_value y6
    refine Evolves.ite ?_ ?_
    · refine laneLost_ev _ _ (hm.of rfl) e1 ?_
      exact h7
    · refine laneTake_ev _ _ _ _ _ (hm.of rfl) e1 ?_
      exact h7
  · exact h

theorem downstreamFrame_ev (x1 : _) (hm : Sub 0x4454006d0000205 M) (e1 : P x1.val) (h : Evolves M P a s) :
    Evolves M P a (downstreamFrame x1 s) := by
  unfold downstreamFrame
  refine Evolves.ite ?_ ?_
  · extract_lets +onlyGivenNames y1
    have h2 : Evolves M P a y1 := by
      unfold y1
      refine sendTrainFrame_ev _ (hm.of rfl) e1 ?_
      exact h
    clear_value y1
    refine Evolves.ite ?_ ?_
    · refine trainDone_ev _ (hm.of rfl) e1 ?_
      exact h2
    · exact h2
  · refine Evolves.ite ?_ ?_
    · extract_lets +onlyGivenNames y3
      extract_lets +onlyGivenNames y4
      have h5 : Evolves M P a y4 := by
        unfold y4
        refine Evolves.ite ?_ ?_
        · refine Evolves.modCh (hm.bit rfl) e1 ?_
          exact h
        · exact h
      clear_value y4
      extract_lets +onlyGivenNames y6
      have h7 : Evolves M P a y6 := by
        unfold y6
        refine clkSteer_ev _ _ (hm.of rfl) e1 ?_
        exact h5
      clear_value y6
      extract_lets +onlyGivenNames y8
      refine crcFrame_ev _ _ (hm.of rfl) e1 ?_
      refine wrClock_ev _ _ (hm.of rfl) e1 ?_
      refine wposStep_ev _ (hm.of rfl) e1 ?_
      refine sendDataFrame_ev _ _ (hm.of rfl) e1 ?_
      exact h7
    · exact h

theorem execF5Silent_next (x1 : _) (hm : Sub 0x400000000000001 M) (e1 : P x1.val) :
    ∃ t, (execF5Silent x1 s) = .next t ∧ Evolves M P s t := by
  refine ⟨_, rfl, ?_⟩
  have h := Evolves.refl M P s
  refine Evolves.ite ?_ ?_
  · refine Evolves.raise .hl rfl (hm.bit rfl) e1 (hm.bit rfl) ?_
    exact h
  · exact h

theorem execTrainingFrameReceived_next (x1 x2 x3 x4 x5 x6 : _) (hm : Sub 0x40000001 M) (e1 : P x1.val) :
    ∃ t, (execTrainingFrameReceived x1 x2 x3 x4 x5 x6 s) = .next t ∧ Evolves M P s t := by
  refine ⟨_, rfl, ?_⟩
  have h := Evolves.refl M P s
  refine trainFrame_ev _ _ _ _ _ _ (hm.of rfl) e1 ?_
  exact h

theorem execHlCntClr_next (x1 x2 : _) (hm : Sub 0x1 M) (e1 : P x1.val) :
    ∃ t, (execHlCntClr x1 x2 s) = .next t ∧ Evolves M P s t := by
  refine ⟨_, rfl, ?_⟩
  have h := Evolves.refl M P s
  refine linkCntClear_ev _ _ (hm.of rfl) e1 ?_
  exact h

end Sys2Proof.Machine
end

