-- ==== Sys2Proof/Laws/Headers.lean ====
section
/-! SUPPORT. One lemma per operation of Machine/Headers.lean: the parts of the state it can touch and what it needs of the engines (`Evolves`). -/

namespace Sys2Proof.Machine

variable {M : Nat} {P : Nat → Prop} {a s : State}

theorem hdrAdd_ev (x1 x2 : _) (hm : Sub 0x10000000000000 M) (h : Evolves M P a s) :
    Evolves M P a (hdrAdd x1 x2 s) := by
  unfold hdrAdd
  extract_lets +onlyGivenNames y1
  refine Evolves.modJrn (hm.bit rfl) ?_
  exact h

end Sys2Proof.Machine
end

