-- ==== Sys2Proof/Laws/Journal.lean ====
section
/-! SUPPORT. One lemma per operation of Machine/Journal.lean: the parts of the state it can touch and what it needs of the engines (`Evolves`). -/

namespace Sys2Proof.Machine

variable {M : Nat} {P : Nat → Prop} {a s : State}

theorem takeBody_ev (x1 x2 : _) (hm : Sub 0x30000000000000 M) (h : Evolves M P a s) :
    Evolves M P a (takeBody x1 x2 s) := by
  unfold takeBody
  extract_lets +onlyGivenNames y1
  have h2 : Evolves M P a y1 := by
    unfold y1
    refine Evolves.modArm (hm.bit rfl) rfl ?_
    exact h
  clear_value y1
  extract_lets +onlyGivenNames y3
  have h4 : Evolves M P a y3 := by
    unfold y3
    refine Evolves.modJrn (hm.bit rfl) ?_
    exact h2
  clear_value y3
  refine Evolves.ite ?_ ?_
  · refine Evolves.modJrn (hm.bit rfl) ?_
    exact h4
  · exact h4

theorem jnlShow_ev (hm : Sub 0x10000000004000 M) (h : Evolves M P a s) :
    Evolves M P a (jnlShow s) := by
  unfold jnlShow
  extract_lets +onlyGivenNames y1
  have h2 : Evolves M P a y1 := by
    unfold y1
    refine Evolves.putG .journal rfl (hm.bit rfl) rfl ?_
    exact h
  clear_value y1
  extract_lets +onlyGivenNames y3
  extract_lets +onlyGivenNames y4
  have h5 : Evolves M P a y4 := by
    unfold y4
    refine Evolves.putBoolG .journal rfl (hm.bit rfl) rfl ?_
    exact h2
  clear_value y4
  refine Evolves.ite ?_ ?_
  · refine Evolves.modJrn (hm.bit rfl) ?_
    exact h5
  · exact h5

theorem sealOne_ev (x1 x2 x3 : _) (hm : Sub 0x70000000000000 M) (h : Evolves M P a s) :
    Evolves M P a (sealOne x1 x2 x3 s) := by
  unfold sealOne
  extract_lets +onlyGivenNames y1
  extract_lets +onlyGivenNames y2
  have h3 : Evolves M P a y2 := by
    unfold y2
    refine Evolves.ite ?_ ?_
    · refine Evolves.foldl _ (fun s4 x5 h6 => ?_) ?_
      · refine State.modCmd_ev _ _ _ (hm.of rfl) ?_
        exact h6
      · exact h
    · exact h
  clear_value y2
  extract_lets +onlyGivenNames y7
  extract_lets +onlyGivenNames y8
  have h9 : Evolves M P a y8 := by
    unfold y8
    refine Evolves.modJrn (hm.bit rfl) ?_
    exact h3
  clear_value y8
  refine takeBody_ev _ _ (hm.of rfl) ?_
  exact h9

theorem sealNow_ev (x1 x2 x3 : _) (hm : Sub 0x70000000004000 M) (h : Evolves M P a s) :
    Evolves M P a (sealNow x1 x2 x3 s) := by
  unfold sealNow
  extract_lets +onlyGivenNames y1
  extract_lets +onlyGivenNames y2
  have h3 : Evolves M P a y2 := by
    unfold y2
    refine Evolves.ite ?_ ?_
    · exact h
    · refine sealOne_ev _ _ _ (hm.of rfl) ?_
      exact h
  clear_value y2
  refine jnlShow_ev (hm.of rfl) ?_
  refine sealOne_ev _ _ _ (hm.of rfl) ?_
  exact h3

theorem takeCkpt_ev (x1 x2 x3 : _) (hm : Sub 0x20000000000000 M) (h : Evolves M P a s) :
    Evolves M P a (takeCkpt x1 x2 x3 s) := by
  refine Evolves.modArm (hm.bit rfl) ?_ h
  split
  · rfl
  · split <;> rfl

theorem takeNow_ev (x1 : _) (hm : Sub 0x30000000000000 M) (h : Evolves M P a s) :
    Evolves M P a (takeNow x1 s) := by
  unfold takeNow
  extract_lets +onlyGivenNames y1
  extract_lets +onlyGivenNames y2
  have h3 : Evolves M P a y2 := by
    unfold y2
    refine takeBody_ev _ _ (hm.of rfl) ?_
    refine Evolves.modJrn (hm.bit rfl) ?_
    exact h
  clear_value y2
  split
  · refine takeCkpt_ev _ _ _ (hm.of rfl) ?_
    refine hdrAdd_ev _ _ (hm.of rfl) ?_
    exact h3
  · refine hdrAdd_ev _ _ (hm.of rfl) ?_
    exact h3
  all_goals exact h3

theorem sealAsk_ev (x1 x2 x3 : _) (hm : Sub 0x470000020004000 M) (h : Evolves M P a s) :
    Evolves M P a (sealAsk x1 x2 x3 s) := by
  unfold sealAsk
  refine Evolves.ite ?_ ?_
  · refine Evolves.foldl _ (fun s1 x2 h3 => ?_) ?_
    · refine finishCommitted_ev _ _ (hm.of rfl) ?_
      exact h3
    · refine takeNow_ev _ (hm.of rfl) ?_
      exact h
  · refine Evolves.ite ?_ ?_
    · refine sealNow_ev _ _ _ (hm.of rfl) ?_
      exact h
    · extract_lets +onlyGivenNames y4
      refine jnlShow_ev (hm.of rfl) ?_
      refine Evolves.modJrn (hm.bit rfl) ?_
      exact h

theorem lossWrite_ev (x1 : _) (hm : Sub 0x470000020004000 M) (h : Evolves M P a s) :
    Evolves M P a (lossWrite x1 s) := by
  unfold lossWrite
  extract_lets +onlyGivenNames y1
  refine Evolves.ite ?_ ?_
  · exact h
  · extract_lets +onlyGivenNames y2
    have h3 : Evolves M P a y2 := by
      unfold y2
      refine sealAsk_ev _ _ _ (hm.of rfl) ?_
      exact h
    clear_value y2
    extract_lets +onlyGivenNames y4
    refine Evolves.ite ?_ ?_
    · exact h3
    · refine sealAsk_ev _ _ _ (hm.of rfl) ?_
      exact h3

theorem sealWaiting_ev (x1 : _) (hm : Sub 0x70000000004000 M) (h : Evolves M P a s) :
    Evolves M P a (sealWaiting x1 s) := by
  unfold sealWaiting
  split
  · exact h
  · refine Evolves.ite ?_ ?_
    · refine sealNow_ev _ _ _ (hm.of rfl) ?_
      refine Evolves.modJrn (hm.bit rfl) ?_
      exact h
    · exact h

theorem State.modMir_ev (x2 x3 : _) (hm : Sub 0x10000000000000 M) (h : Evolves M P a s) :
    Evolves M P a (State.modMir s x2 x3) := by
  unfold State.modMir
  refine Evolves.modJrn (hm.bit rfl) ?_
  exact h

theorem sbWrite_ev (hm : Sub 0x10000000000000 M) (h : Evolves M P a s) :
    Evolves M P a (sbWrite s) := by
  unfold sbWrite
  extract_lets +onlyGivenNames y1
  extract_lets +onlyGivenNames y2
  have h3 : Evolves M P a y2 := by
    unfold y2
    refine Evolves.ite ?_ ?_
    · refine State.modMir_ev _ _ (hm.of rfl) ?_
      exact h
    · exact h
  clear_value y2
  extract_lets +onlyGivenNames y4
  have h5 : Evolves M P a y4 := by
    unfold y4
    refine Evolves.ite ?_ ?_
    · refine State.modMir_ev _ _ (hm.of rfl) ?_
      exact h3
    · exact h3
  clear_value y4
  refine Evolves.modJrn (hm.bit rfl) ?_
  exact h5

theorem headAdvance_ev (x1 : _) (hm : Sub 0x10000000004000 M) (h : Evolves M P a s) :
    Evolves M P a (headAdvance x1 s) := by
  induction x1 generalizing s with
  | zero => exact jnlShow_ev (hm.of rfl) h
  | succ n ih =>
    unfold headAdvance
    split
    · exact jnlShow_ev (hm.of rfl) h
    · exact Evolves.ite (ih (h.modJrn (hm.bit rfl))) (jnlShow_ev (hm.of rfl) h)

theorem retireAll_ev (hm : Sub 0x10000000004000 M) (h : Evolves M P a s) :
    Evolves M P a (retireAll s) := by
  unfold retireAll
  extract_lets +onlyGivenNames y1
  have h2 : Evolves M P a y1 := by
    unfold y1
    refine headAdvance_ev _ (hm.of rfl) ?_
    exact h
  clear_value y1
  refine Evolves.ite ?_ ?_
  · refine sbWrite_ev (hm.of rfl) ?_
    exact h2
  · exact h2

theorem retireSeal_ev (hm : Sub 0x470000020004000 M) (h : Evolves M P a s) :
    Evolves M P a (retireSeal s) := by
  unfold retireSeal
  extract_lets +onlyGivenNames y1
  refine Evolves.ite ?_ ?_
  · exact h
  · extract_lets +onlyGivenNames y2
    have h3 : Evolves M P a y2 := by
      unfold y2
      refine Evolves.modArm (hm.bit rfl) rfl ?_
      exact h
    clear_value y2
    extract_lets +onlyGivenNames y4
    have h5 : Evolves M P a y4 := by
      unfold y4
      refine Evolves.modJrn (hm.bit rfl) ?_
      exact h3
    clear_value y4
    refine Evolves.ite ?_ ?_
    · exact h5
    · refine sealAsk_ev _ _ _ (hm.of rfl) ?_
      exact h5

theorem onCommit_ev (x1 : _) (hm : Sub 0x470000020004000 M) (h : Evolves M P a s) :
    Evolves M P a (onCommit x1 s) := by
  unfold onCommit
  extract_lets +onlyGivenNames y1
  have h2 : Evolves M P a y1 := by
    unfold y1
    split
    · refine Evolves.modJrn (hm.bit rfl) ?_
      exact h
    · extract_lets +onlyGivenNames y3
      extract_lets +onlyGivenNames y4
      refine Evolves.modJrn (hm.bit rfl) ?_
      exact h
    · refine hdrAdd_ev _ _ (hm.of rfl) ?_
      exact h
    · refine hdrAdd_ev _ _ (hm.of rfl) ?_
      exact h
    · refine takeCkpt_ev _ _ _ (hm.of rfl) ?_
      refine hdrAdd_ev _ _ (hm.of rfl) ?_
      exact h
    · refine lossWrite_ev _ (hm.of rfl) ?_
      exact h
    all_goals exact h
  clear_value y1
  refine Evolves.ite ?_ ?_
  · refine Evolves.foldl _ (fun s5 x6 h7 => ?_) ?_
    · refine finishCommitted_ev _ _ (hm.of rfl) ?_
      exact h7
    · exact h2
  · exact h2

theorem commitAdvance_ev (x1 : _) (hm : Sub 0x470000020004000 M) (h : Evolves M P a s) :
    Evolves M P a (commitAdvance x1 s) := by
  induction x1 generalizing s with
  | zero => exact h
  | succ n ih =>
    unfold commitAdvance
    split
    · exact h
    · refine Evolves.ite ?_ h
      exact ih (onCommit_ev _ (hm.of rfl) (((h.modJrn (hm.bit rfl)).putG .journal rfl (hm.bit rfl) rfl).putG .journal rfl (hm.bit rfl) rfl))

theorem commitAll_ev (hm : Sub 0x470000020004000 M) (h : Evolves M P a s) :
    Evolves M P a (commitAll s) := by
  unfold commitAll
  refine retireAll_ev (hm.of rfl) ?_
  refine retireSeal_ev (hm.of rfl) ?_
  refine commitAdvance_ev _ (hm.of rfl) ?_
  exact h

theorem recordWritten_ev (x1 : _) (hm : Sub 0x470000020004000 M) (h : Evolves M P a s) :
    Evolves M P a (recordWritten x1 s) := by
  unfold recordWritten
  refine Evolves.ite ?_ ?_
  · exact h
  · split
    · exact h
    · refine commitAll_ev (hm.of rfl) ?_
      refine Evolves.modJrn (hm.bit rfl) ?_
      exact h

theorem sealDrop_ev (x1 : _) (hm : Sub 0x470000020000000 M) (h : Evolves M P a s) :
    Evolves M P a (sealDrop x1 s) := by
  unfold sealDrop
  split
  · refine Evolves.foldl _ (fun s1 x2 h3 => ?_) ?_
    · refine finish_ev _ _ _ _ (hm.of rfl) ?_
      exact h3
    · exact h
  · refine Evolves.foldl _ (fun s4 x5 h6 => ?_) ?_
    · refine finishCommitted_ev _ _ (hm.of rfl) ?_
      exact h6
    · refine takeNow_ev _ (hm.of rfl) ?_
      exact h
  · refine Evolves.foldl _ (fun s7 x8 h9 => ?_) ?_
    · refine finishCommitted_ev _ _ (hm.of rfl) ?_
      exact h9
    · refine takeNow_ev _ (hm.of rfl) ?_
      exact h
  · refine Evolves.foldl _ (fun s10 x11 h12 => ?_) ?_
    · refine finishCommitted_ev _ _ (hm.of rfl) ?_
      exact h12
    · refine takeNow_ev _ (hm.of rfl) ?_
      exact h
  · refine Evolves.foldl _ (fun s13 x14 h15 => ?_) ?_
    · refine finishCommitted_ev _ _ (hm.of rfl) ?_
      exact h15
    · refine takeNow_ev _ (hm.of rfl) ?_
      exact h
  · refine Evolves.foldl _ (fun s16 x17 h18 => ?_) ?_
    · refine finishCommitted_ev _ _ (hm.of rfl) ?_
      exact h18
    · refine takeNow_ev _ (hm.of rfl) ?_
      exact h
  · refine Evolves.foldl _ (fun s19 x20 h21 => ?_) ?_
    · refine finishCommitted_ev _ _ (hm.of rfl) ?_
      exact h21
    · refine takeNow_ev _ (hm.of rfl) ?_
      exact h
  · refine Evolves.foldl _ (fun s22 x23 h24 => ?_) ?_
    · refine finishCommitted_ev _ _ (hm.of rfl) ?_
      exact h24
    · refine takeNow_ev _ (hm.of rfl) ?_
      exact h
  · refine Evolves.foldl _ (fun s25 x26 h27 => ?_) ?_
    · refine finishCommitted_ev _ _ (hm.of rfl) ?_
      exact h27
    · refine takeNow_ev _ (hm.of rfl) ?_
      exact h
  · refine Evolves.foldl _ (fun s28 x29 h30 => ?_) ?_
    · refine finishCommitted_ev _ _ (hm.of rfl) ?_
      exact h30
    · refine takeNow_ev _ (hm.of rfl) ?_
      exact h

theorem recDrop_ev (x1 : _) (hm : Sub 0x470000020000000 M) (h : Evolves M P a s) :
    Evolves M P a (recDrop x1 s) := by
  unfold recDrop
  split
  · refine Evolves.foldl _ (fun s1 x2 h3 => ?_) ?_
    · refine finish_ev _ _ _ _ (hm.of rfl) ?_
      exact h3
    · exact h
  · extract_lets +onlyGivenNames y4
    have h5 : Evolves M P a y4 := by
      unfold y4
      split
      · refine takeCkpt_ev _ _ _ (hm.of rfl) ?_
        refine hdrAdd_ev _ _ (hm.of rfl) ?_
        exact h
      · refine hdrAdd_ev _ _ (hm.of rfl) ?_
        exact h
      all_goals exact h
    clear_value y4
    refine Evolves.ite ?_ ?_
    · refine Evolves.foldl _ (fun s6 x7 h8 => ?_) ?_
      · refine finishCommitted_ev _ _ (hm.of rfl) ?_
        exact h8
      · exact h5
    · exact h5
  · extract_lets +onlyGivenNames y9
    have h10 : Evolves M P a y9 := by
      unfold y9
      split
      · refine takeCkpt_ev _ _ _ (hm.of rfl) ?_
        refine hdrAdd_ev _ _ (hm.of rfl) ?_
        exact h
      · refine hdrAdd_ev _ _ (hm.of rfl) ?_
        exact h
      all_goals exact h
    clear_value y9
    refine Evolves.ite ?_ ?_
    · refine Evolves.foldl _ (fun s11 x12 h13 => ?_) ?_
      · refine finishCommitted_ev _ _ (hm.of rfl) ?_
        exact h13
      · exact h10
    · exact h10
  · extract_lets +onlyGivenNames y14
    have h15 : Evolves M P a y14 := by
      unfold y14
      split
      · refine takeCkpt_ev _ _ _ (hm.of rfl) ?_
        refine hdrAdd_ev _ _ (hm.of rfl) ?_
        exact h
      · refine hdrAdd_ev _ _ (hm.of rfl) ?_
        exact h
      all_goals exact h
    clear_value y14
    refine Evolves.ite ?_ ?_
    · refine Evolves.foldl _ (fun s16 x17 h18 => ?_) ?_
      · refine finishCommitted_ev _ _ (hm.of rfl) ?_
        exact h18
      · exact h15
    · exact h15
  · extract_lets +onlyGivenNames y19
    have h20 : Evolves M P a y19 := by
      unfold y19
      split
      · refine takeCkpt_ev _ _ _ (hm.of rfl) ?_
        refine hdrAdd_ev _ _ (hm.of rfl) ?_
        exact h
      · refine hdrAdd_ev _ _ (hm.of rfl) ?_
        exact h
      all_goals exact h
    clear_value y19
    refine Evolves.ite ?_ ?_
    · refine Evolves.foldl _ (fun s21 x22 h23 => ?_) ?_
      · refine finishCommitted_ev _ _ (hm.of rfl) ?_
        exact h23
      · exact h20
    · exact h20
  · extract_lets +onlyGivenNames y24
    have h25 : Evolves M P a y24 := by
      unfold y24
      split
      · refine takeCkpt_ev _ _ _ (hm.of rfl) ?_
        refine hdrAdd_ev _ _ (hm.of rfl) ?_
        exact h
      · refine hdrAdd_ev _ _ (hm.of rfl) ?_
        exact h
      all_goals exact h
    clear_value y24
    refine Evolves.ite ?_ ?_
    · refine Evolves.foldl _ (fun s26 x27 h28 => ?_) ?_
      · refine finishCommitted_ev _ _ (hm.of rfl) ?_
        exact h28
      · exact h25
    · exact h25
  · extract_lets +onlyGivenNames y29
    have h30 : Evolves M P a y29 := by
      unfold y29
      split
      · refine takeCkpt_ev _ _ _ (hm.of rfl) ?_
        refine hdrAdd_ev _ _ (hm.of rfl) ?_
        exact h
      · refine hdrAdd_ev _ _ (hm.of rfl) ?_
        exact h
      all_goals exact h
    clear_value y29
    refine Evolves.ite ?_ ?_
    · refine Evolves.foldl _ (fun s31 x32 h33 => ?_) ?_
      · refine finishCommitted_ev _ _ (hm.of rfl) ?_
        exact h33
      · exact h30
    · exact h30
  · extract_lets +onlyGivenNames y34
    have h35 : Evolves M P a y34 := by
      unfold y34
      split
      · refine takeCkpt_ev _ _ _ (hm.of rfl) ?_
        refine hdrAdd_ev _ _ (hm.of rfl) ?_
        exact h
      · refine hdrAdd_ev _ _ (hm.of rfl) ?_
        exact h
      all_goals exact h
    clear_value y34
    refine Evolves.ite ?_ ?_
    · refine Evolves.foldl _ (fun s36 x37 h38 => ?_) ?_
      · refine finishCommitted_ev _ _ (hm.of rfl) ?_
        exact h38
      · exact h35
    · exact h35
  · extract_lets +onlyGivenNames y39
    have h40 : Evolves M P a y39 := by
      unfold y39
      split
      · refine takeCkpt_ev _ _ _ (hm.of rfl) ?_
        refine hdrAdd_ev _ _ (hm.of rfl) ?_
        exact h
      · refine hdrAdd_ev _ _ (hm.of rfl) ?_
        exact h
      all_goals exact h
    clear_value y39
    refine Evolves.ite ?_ ?_
    · refine Evolves.foldl _ (fun s41 x42 h43 => ?_) ?_
      · refine finishCommitted_ev _ _ (hm.of rfl) ?_
        exact h43
      · exact h40
    · exact h40
  · extract_lets +onlyGivenNames y44
    have h45 : Evolves M P a y44 := by
      unfold y44
      split
      · refine takeCkpt_ev _ _ _ (hm.of rfl) ?_
        refine hdrAdd_ev _ _ (hm.of rfl) ?_
        exact h
      · refine hdrAdd_ev _ _ (hm.of rfl) ?_
        exact h
      all_goals exact h
    clear_value y44
    refine Evolves.ite ?_ ?_
    · refine Evolves.foldl _ (fun s46 x47 h48 => ?_) ?_
      · refine finishCommitted_ev _ _ (hm.of rfl) ?_
        exact h48
      · exact h45
    · exact h45

theorem mirrorFailOp_ev (x1 : _) (hm : Sub 0x471000030004000 M) (h : Evolves M P a s) :
    Evolves M P a (mirrorFailOp x1 s) := by
  unfold mirrorFailOp
  refine Evolves.ite ?_ ?_
  · exact h
  · extract_lets +onlyGivenNames y1
    have h2 : Evolves M P a y1 := by
      unfold y1
      refine Evolves.ite ?_ ?_
      · refine Evolves.putG .journal rfl (hm.bit rfl) rfl ?_
        exact h
      · refine Evolves.putG .journal rfl (hm.bit rfl) rfl ?_
        exact h
    clear_value y1
    refine Evolves.ite ?_ ?_
    · refine commitAll_ev (hm.of rfl) ?_
      refine State.logEvent_ev _ _ (hm.of rfl) ?_
      refine Evolves.putG .journal rfl (hm.bit rfl) rfl ?_
      exact h2
    · extract_lets +onlyGivenNames y3
      have h4 : Evolves M P a y3 := by
        unfold y3
        refine State.logEvent_ev _ _ (hm.of rfl) ?_
        refine Evolves.putG .journal rfl (hm.bit rfl) rfl ?_
        exact h2
      clear_value y3
      extract_lets +onlyGivenNames y5
      extract_lets +onlyGivenNames y6
      extract_lets +onlyGivenNames y7
      have h8 : Evolves M P a y7 := by
        unfold y7
        refine Evolves.modJrn (hm.bit rfl) ?_
        exact h4
      clear_value y7
      refine Evolves.foldl _ (fun s9 x10 h11 => ?_) ?_
      · refine sealDrop_ev _ (hm.of rfl) ?_
        exact h11
      · refine Evolves.foldl _ (fun s12 x13 h14 => ?_) ?_
        · refine recDrop_ev _ (hm.of rfl) ?_
          exact h14
        · exact h8

theorem plCommit_ev (x1 x2 : _) (hm : Sub 0x70000000004000 M) (h : Evolves M P a s) :
    Evolves M P a (plCommit x1 x2 s).1 := by
  unfold plCommit
  extract_lets +onlyGivenNames y1
  refine Evolves.fst_ite ?_ ?_
  · dsimp only
    refine takeNow_ev _ (hm.of rfl) ?_
    exact h
  · refine Evolves.fst_ite ?_ ?_
    · dsimp only
      exact h
    · refine Evolves.fst_ite ?_ ?_
      · dsimp only
        exact h
      · extract_lets +onlyGivenNames y2
        have h3 : Evolves M P a y2 := by
          unfold y2
          refine sealNow_ev _ _ _ (hm.of rfl) ?_
          exact h
        clear_value y2
        dsimp only
        exact h3

theorem mapCommit_ev (x1 x2 : _) (hm : Sub 0x470000020004000 M) (h : Evolves M P a s) :
    Evolves M P a (mapCommit x1 x2 s) := by
  unfold mapCommit
  refine Evolves.ite ?_ ?_
  · refine Evolves.foldl _ (fun s1 x2 h3 => ?_) ?_
    · refine finishCommitted_ev _ _ (hm.of rfl) ?_
      exact h3
    · exact h
  · refine sealAsk_ev _ _ _ (hm.of rfl) ?_
    exact h

theorem checkpointOp_ev (hm : Sub 0x470000020004000 M) (h : Evolves M P a s) :
    Evolves M P a (checkpointOp s) := by
  unfold checkpointOp
  refine Evolves.ite ?_ ?_
  · exact h
  · extract_lets +onlyGivenNames y1
    extract_lets +onlyGivenNames y2
    extract_lets +onlyGivenNames y3
    extract_lets +onlyGivenNames y4
    have h5 : Evolves M P a y4 := by
      unfold y4
      refine Evolves.modJrn (hm.bit rfl) ?_
      exact h
    clear_value y4
    extract_lets +onlyGivenNames y6
    have h7 : Evolves M P a y6 := by
      unfold y6
      refine Evolves.ite ?_ ?_
      · refine Evolves.modJrn (hm.bit rfl) ?_
        exact h5
      · exact h5
    clear_value y6
    refine sealAsk_ev _ _ _ (hm.of rfl) ?_
    exact h7

theorem resizeOp_ev (hm : Sub 0x451000010004000 M) (h : Evolves M P a s) :
    Evolves M P a (resizeOp s) := by
  unfold resizeOp
  refine Evolves.ite ?_ ?_
  · exact h
  · extract_lets +onlyGivenNames y1
    extract_lets +onlyGivenNames y2
    have h3 : Evolves M P a y2 := by
      unfold y2
      refine Evolves.modJrn (hm.bit rfl) ?_
      exact h
    clear_value y2
    refine State.logEvent_ev _ _ (hm.of rfl) ?_
    refine jnlShow_ev (hm.of rfl) ?_
    refine sbWrite_ev (hm.of rfl) ?_
    exact h3

theorem plinthCommit_ev (x1 x2 : _) (hm : Sub 0x471000030004000 M) (h : Evolves M P a s) :
    Evolves M P a (plinthCommit x1 x2 s).1 := by
  unfold plinthCommit
  extract_lets +onlyGivenNames y1
  have h2 : Evolves M P a y1 := by
    unfold y1
    refine Evolves.ite ?_ ?_
    · refine mirrorFailOp_ev _ (hm.of rfl) ?_
      exact h
    · exact h
  clear_value y1
  extract_lets +onlyGivenNames y3
  have h4 : Evolves M P a y3 := by
    unfold y3
    refine Evolves.ite ?_ ?_
    · refine mirrorFailOp_ev _ (hm.of rfl) ?_
      exact h2
    · exact h2
  clear_value y3
  refine Evolves.fst_ite ?_ ?_
  · dsimp only
    exact h4
  · extract_lets +onlyGivenNames y5
    extract_lets +onlyGivenNames y6
    extract_lets +onlyGivenNames y7
    extract_lets +onlyGivenNames y8
    extract_lets +onlyGivenNames y9
    have h10 : Evolves M P a y9 := by
      unfold y9
      unfold y8
      refine Evolves.ite ?_ ?_
      · refine State.modMir_ev _ _ (hm.of rfl) ?_
        refine Evolves.ite ?_ ?_
        · refine State.modMir_ev _ _ (hm.of rfl) ?_
          exact h4
        · exact h4
      · refine Evolves.ite ?_ ?_
        · refine State.modMir_ev _ _ (hm.of rfl) ?_
          exact h4
        · exact h4
    clear_value y9
    extract_lets +onlyGivenNames y11
    have h12 : Evolves M P a y11 := by
      unfold y11
      refine Evolves.putG .journal rfl (hm.bit rfl) rfl ?_
      refine Evolves.putG .journal rfl (hm.bit rfl) rfl ?_
      exact h10
    clear_value y11
    extract_lets +onlyGivenNames y13
    have h14 : Evolves M P a y13 := by
      unfold y13
      refine Evolves.modJrn (hm.bit rfl) ?_
      exact h12
    clear_value y13
    dsimp only
    refine sbWrite_ev (hm.of rfl) ?_
    exact h14

theorem plFallback_ev (hm : Sub 0x10000000000000 M) (h : Evolves M P a s) :
    Evolves M P a (plFallback s) := by
  unfold plFallback
  refine Evolves.ite ?_ ?_
  · refine Evolves.modJrn (hm.bit rfl) ?_
    exact h
  · exact h

theorem execRecordSeal_next (x1 : _) (hm : Sub 0x70000000004000 M) :
    ∃ t, (execRecordSeal x1 s) = .next t ∧ Evolves M P s t := by
  refine ⟨_, rfl, ?_⟩
  have h := Evolves.refl M P s
  refine sealWaiting_ev _ (hm.of rfl) ?_
  exact h

theorem execRecordWriteDone_next (x1 : _) (hm : Sub 0x470000020004000 M) :
    ∃ t, (execRecordWriteDone x1 s) = .next t ∧ Evolves M P s t := by
  refine ⟨_, rfl, ?_⟩
  have h := Evolves.refl M P s
  refine recordWritten_ev _ (hm.of rfl) ?_
  exact h

theorem execMirrorFail_next (x1 : _) (hm : Sub 0x471000030004000 M) :
    ∃ t, (execMirrorFail x1 s) = .next t ∧ Evolves M P s t := by
  refine ⟨_, rfl, ?_⟩
  have h := Evolves.refl M P s
  refine mirrorFailOp_ev _ (hm.of rfl) ?_
  exact h

theorem execMapCheckpoint_next (hm : Sub 0x470000020004000 M) :
    ∃ t, (execMapCheckpoint s) = .next t ∧ Evolves M P s t := by
  refine ⟨_, rfl, ?_⟩
  have h := Evolves.refl M P s
  refine checkpointOp_ev (hm.of rfl) ?_
  exact h

theorem execJournalResize_next (hm : Sub 0x451000010004000 M) :
    ∃ t, (execJournalResize s) = .next t ∧ Evolves M P s t := by
  refine ⟨_, rfl, ?_⟩
  have h := Evolves.refl M P s
  refine resizeOp_ev (hm.of rfl) ?_
  exact h

theorem execPlinthFallbackWrite_next (hm : Sub 0x10000000000000 M) :
    ∃ t, (execPlinthFallbackWrite s) = .next t ∧ Evolves M P s t := by
  refine ⟨_, rfl, ?_⟩
  have h := Evolves.refl M P s
  refine plFallback_ev (hm.of rfl) ?_
  exact h

end Sys2Proof.Machine
end

