-- ==== Sys2Proof/Laws/Stripe.lean ====
section
/-! SUPPORT. One lemma per operation of Machine/Stripe.lean: the parts of the state it can touch and what it needs of the engines (`Evolves`). -/

namespace Sys2Proof.Machine

variable {M : Nat} {P : Nat → Prop} {a s : State}

theorem putMedia_ev (x1 x2 x3 : _) (hm : Sub 0x20000000000000 M) (h : Evolves M P a s) :
    Evolves M P a (putMedia x1 x2 x3 s) := by
  unfold putMedia
  refine Evolves.modArm (hm.bit rfl) rfl ?_
  exact h

theorem writeCl_ev {z : _} (x1 x2 x3 x4 x5 : _) (hm : Sub 0x20000000000000 M) (h : Evolves M P a z.1) :
    Evolves M P a (writeCl x1 x2 x3 x4 x5 z).1 := by
  induction x4 generalizing x5 z with
  | zero => exact putMedia_ev _ _ _ (hm.of rfl) h
  | succ n ih =>
    obtain ⟨s, t⟩ := z
    unfold writeCl
    split
    · exact ih _ h
    · extract_lets u v again
      have hu : Evolves M P a u := putMedia_ev _ _ _ (hm.of rfl) h
      split
      · exact hu
      · exact ih _ hu

theorem replaceCl_ev {z : _} (x1 x2 x3 x4 x5 : _) (hm : Sub 0x20000000000000 M) (h : Evolves M P a z.1) :
    Evolves M P a (replaceCl x1 x2 x3 x4 x5 z).1 := by
  unfold replaceCl
  split
  refine writeCl_ev _ _ _ _ _ (hm.of rfl) ?_
  dsimp only
  exact h

theorem rewriteCl_ev {z : _} (x1 x2 x3 x4 : _) (hm : Sub 0x20000000000000 M) (h : Evolves M P a z.1) :
    Evolves M P a (rewriteCl x1 x2 x3 x4 z).1 := by
  unfold rewriteCl
  refine Evolves.fst_ite ?_ ?_
  · refine replaceCl_ev _ _ _ _ _ (hm.of rfl) ?_
    exact h
  · extract_lets +onlyGivenNames y1
    refine Evolves.fst_ite ?_ ?_
    · refine replaceCl_ev _ _ _ _ _ (hm.of rfl) ?_
      unfold y1
      dsimp only
      refine putMedia_ev _ _ _ (hm.of rfl) ?_
      exact h
    · unfold y1
      dsimp only
      refine putMedia_ev _ _ _ (hm.of rfl) ?_
      exact h

theorem writeMember_ev {z : _} (x1 x2 x3 x4 x5 x6 : _) (hm : Sub 0x20000000000000 M) (h : Evolves M P a z.1) :
    Evolves M P a (writeMember x1 x2 x3 x4 x5 x6 z).1 := by
  unfold writeMember
  extract_lets +onlyGivenNames y1
  refine writeCl_ev _ _ _ _ _ (hm.of rfl) ?_
  exact h

theorem rewriteMember_ev {z : _} (x1 x2 x3 x4 x5 x6 : _) (hm : Sub 0x20000000000000 M) (h : Evolves M P a z.1) :
    Evolves M P a (rewriteMember x1 x2 x3 x4 x5 x6 z).1 := by
  unfold rewriteMember
  extract_lets +onlyGivenNames y1
  refine rewriteCl_ev _ _ _ _ (hm.of rfl) ?_
  exact h

theorem addLoss_ev (x1 x2 x3 x4 x5 x6 x7 : _) (hm : Sub 0x471000030004000 M) (h : Evolves M P a s) :
    Evolves M P a (addLoss x1 x2 x3 x4 x5 x6 x7 s) := by
  unfold addLoss
  refine Evolves.ite ?_ ?_
  · extract_lets +onlyGivenNames y1
    refine State.logEvent_ev _ _ (hm.of rfl) ?_
    refine sealAsk_ev _ _ _ (hm.of rfl) ?_
    exact h
  · refine State.logEvent_ev _ _ (hm.of rfl) ?_
    exact h

theorem addTodo_ev (x1 : _) (hm : Sub 0x20000000000000 M) (h : Evolves M P a s) :
    Evolves M P a (addTodo x1 s) := by
  unfold addTodo
  refine Evolves.ite ?_ ?_
  · exact h
  · refine Evolves.modArm (hm.bit rfl) rfl ?_
    exact h

theorem loseRow_ev (x1 x2 x3 x4 x5 : _) (hm : Sub 0x471000030004000 M) (h : Evolves M P a s) :
    Evolves M P a (loseRow x1 x2 x3 x4 x5 s) := by
  unfold loseRow
  extract_lets +onlyGivenNames y1
  extract_lets +onlyGivenNames y2
  extract_lets +onlyGivenNames y3
  extract_lets +onlyGivenNames y4
  have h5 : Evolves M P a y4 := by
    unfold y4
    refine Evolves.foldl _ (fun s6 x7 h8 => ?_) ?_
    · extract_lets +onlyGivenNames y9
      have h10 : Evolves M P a y9 := by
        unfold y9
        refine addLoss_ev _ _ _ _ _ _ _ (hm.of rfl) ?_
        exact h8
      clear_value y9
      refine Evolves.ite ?_ ?_
      · exact h10
      · refine addTodo_ev _ (hm.of rfl) ?_
        exact h10
    · exact h
  clear_value y4
  refine Evolves.ite ?_ ?_
  · exact h5
  · refine addTodo_ev _ (hm.of rfl) ?_
    exact h5

end Sys2Proof.Machine
end

