-- ==== Sys2Proof/Laws/Groups.lean ====
section
/-! SUPPORT. One lemma per operation of Machine/Groups.lean: the parts of the state it can touch and what it needs of the engines (`Evolves`). -/

namespace Sys2Proof.Machine

variable {M : Nat} {P : Nat → Prop} {a s : State}

theorem makeRun_ev (x1 x2 x3 x4 x5 x6 : _) (hm : Sub 0x471000030004000 M) (h : Evolves M P a s) :
    Evolves M P a (makeRun x1 x2 x3 x4 x5 x6 s) := by
  unfold makeRun
  extract_lets +onlyGivenNames y1
  extract_lets +onlyGivenNames y2
  extract_lets +onlyGivenNames y3
  split
  · exact h
  · extract_lets +onlyGivenNames y4
    have h5 : Evolves M P a y4 := by
      unfold y4
      refine mapCommit_ev _ _ (hm.of rfl) ?_
      exact h
    clear_value y4
    extract_lets +onlyGivenNames y6
    have h7 : Evolves M P a y6 := by
      unfold y6
      refine Evolves.modArm (hm.bit rfl) rfl ?_
      exact h5
    clear_value y6
    refine Evolves.ite ?_ ?_
    · refine State.logEvent_ev _ _ (hm.of rfl) ?_
      exact h7
    · exact h7

end Sys2Proof.Machine
end

