-- ==== Sys2Proof/Laws/Policy.lean ====
section
/-! SUPPORT. One lemma per operation of Machine/Policy.lean: the parts of the state it can touch and what it needs of the engines (`Evolves`). -/

namespace Sys2Proof.Machine

variable {M : Nat} {P : Nat → Prop} {a s : State}

theorem takeTurn_ev (x1 x2 x3 x4 x5 x6 : _) (hm : Sub 0x80 M) (e1 : P x1.val) (h : Evolves M P a s) :
    Evolves M P a (takeTurn x1 x2 x3 x4 x5 x6 s) := by
  unfold takeTurn
  extract_lets +onlyGivenNames y1
  refine Evolves.ite ?_ ?_
  · exact h
  · refine Evolves.ite ?_ ?_
    · refine slgTurns_ev _ _ (hm.of rfl) e1 ?_
      exact h
    · refine Evolves.ite ?_ ?_
      · refine slgTurns_ev _ _ (hm.of rfl) e1 ?_
        exact h
      · exact h

theorem changerTakes_ev (x1 : _) (hm : Sub 0x20000000000000 M) (h : Evolves M P a s) :
    Evolves M P a (changerTakes x1 s) := by
  unfold changerTakes
  refine Evolves.modArm (hm.bit rfl) rfl ?_
  exact h

theorem discOut_ev (x1 : _) (hm : Sub 0x420000000000000 M) (h : Evolves M P a s) :
    Evolves M P a (discOut x1 s) := by
  unfold discOut
  split
  · refine changerTakes_ev _ (hm.of rfl) ?_
    refine Evolves.emit (hm.bit rfl) ?_
    refine State.modDisc_ev _ _ (hm.of rfl) ?_
    exact h
  · exact h

theorem discIn_ev (x1 x2 : _) (hm : Sub 0x420004000000000 M) (e1 : P x1.val) (h : Evolves M P a s) :
    Evolves M P a (discIn x1 x2 s) := by
  unfold discIn
  extract_lets +onlyGivenNames y1
  have h2 : Evolves M P a y1 := by
    unfold y1
    refine Evolves.modLoop (hm.bit rfl) e1 ?_
    exact h
  clear_value y1
  refine changerTakes_ev _ (hm.of rfl) ?_
  refine Evolves.emit (hm.bit rfl) ?_
  refine State.modDisc_ev _ _ (hm.of rfl) ?_
  exact h2

theorem takeLoad_ev (x1 x2 : _) (hm : Sub 0x420004000000000 M) (e1 : P x1.val) (h : Evolves M P a s) :
    Evolves M P a (takeLoad x1 x2 s) := by
  unfold takeLoad
  refine Evolves.ite ?_ ?_
  · refine discIn_ev _ _ (hm.of rfl) e1 ?_
    refine discOut_ev _ (hm.of rfl) ?_
    exact h
  · exact h

theorem takeUp_ev (x1 x2 : _) (hm : Sub 0x47d014830004030 M) (hall : ∀ n, P n) (h : Evolves M P a s) :
    Evolves M P a (takeUp x1 x2 s) := by
  unfold takeUp
  split
  · refine makeRun_ev _ _ _ _ _ _ (hm.of rfl) ?_
    exact h
  · refine State.logEvent_ev _ _ (hm.of rfl) ?_
    refine Evolves.modArm (hm.bit rfl) rfl ?_
    exact h
  · refine Evolves.modArm (hm.bit rfl) rfl ?_
    exact h
  · extract_lets +onlyGivenNames y1
    split
    · refine ladderSkipOp_ev _ _ (hm.of rfl) (hall _) ?_
      refine Evolves.withLadder (hm.bit rfl) ?_
      exact h
    · exact h
  · extract_lets +onlyGivenNames y2
    split
    · extract_lets +onlyGivenNames y3
      have h4 : Evolves M P a y3 := by
        unfold y3
        refine Evolves.withLadder (hm.bit rfl) ?_
        exact h
      clear_value y3
      split
      · refine ladderDue_ev _ _ _ (hm.of rfl) (hall _) ?_
        exact h4
      · exact h4
    · exact h
  · refine takeLoad_ev _ _ (hm.of rfl) (hall _) ?_
    exact h
  · refine takeSpeed_ev _ _ (hm.of rfl) (hall _) ?_
    exact h
  all_goals exact h

theorem defaultAnswer_ev (x1 : _) (hm : Sub 0x47d0148300040b0 M) (hall : ∀ n, P n) (h : Evolves M P a s) :
    Evolves M P a (defaultAnswer x1 s) := by
  unfold defaultAnswer
  split
  · refine takeUp_ev _ _ (hm.of rfl) hall ?_
    exact h
  · refine takeUp_ev _ _ (hm.of rfl) hall ?_
    exact h
  · refine takeUp_ev _ _ (hm.of rfl) hall ?_
    exact h
  · extract_lets +onlyGivenNames y1
    have h2 : Evolves M P a y1 := by
      unfold y1
      split
      · refine takeSpeed_ev _ _ (hm.of rfl) (hall _) ?_
        exact h
      · exact h
    clear_value y1
    refine takeTurn_ev _ _ _ _ _ _ (hm.of rfl) (hall _) ?_
    exact h2

theorem defaulted_ev (x1 : _) (hm : Sub 0x47d0148300060b0 M) (hall : ∀ n, P n) (h : Evolves M P a s) :
    Evolves M P a (defaulted x1 s) := by
  unfold defaulted
  refine defaultAnswer_ev _ (hm.of rfl) hall ?_
  refine Evolves.incG .policy (Reg.group_policy rfl (by dsimp only [spareRes]; omega) (by dsimp only [spareRes]; omega)) (hm.bit rfl) rfl ?_
  exact h

theorem ask_ev (x1 : _) (hm : Sub 0x47d0148300060b0 M) (hall : ∀ n, P n) (h : Evolves M P a s) :
    Evolves M P a (ask x1 s) := by
  unfold ask
  refine Evolves.ite ?_ ?_
  · refine takeUp_ev _ _ (hm.of rfl) hall ?_
    exact h
  · refine Evolves.ite ?_ ?_
    · exact h
    · refine Evolves.ite ?_ ?_
      · refine Evolves.modPlc (hm.bit rfl) id ?_
        exact h
      · refine Evolves.ite ?_ ?_
        · refine defaulted_ev _ (hm.of rfl) hall ?_
          exact h
        · refine defaultAnswer_ev _ (hm.of rfl) hall ?_
          exact h

theorem plcWrite_ev (x1 x2 x3 : _) (hm : Sub 0x20000000000000 M) (h : Evolves M P a s) :
    Evolves M P a (plcWrite x1 x2 x3 s) := by
  unfold plcWrite
  refine Evolves.modPlc (hm.bit rfl) id ?_
  exact h

theorem plcSet_ev (x1 x2 x3 : _) (hm : Sub 0x20000000000000 M) (h : Evolves M P a s) :
    Evolves M P a (plcSet x1 x2 x3 s) := by
  unfold plcSet
  split
  · exact h
  · next hr =>
    refine h.modPlc (hm.bit rfl) fun hx => ?_
    have : x2.val ≠ 0 := fun e => hr (Fin.ext e)
    simpa [Vector.getElem_set, this] using hx

theorem policyCallOp_ev (x1 : _) (hm : Sub 0x47d0148300060b0 M) (hall : ∀ n, P n) (h : Evolves M P a s) :
    Evolves M P a (policyCallOp x1 s) := by
  unfold policyCallOp
  extract_lets +onlyGivenNames y1
  split
  · extract_lets +onlyGivenNames y2
    have h3 : Evolves M P a y2 := by
      unfold y2
      refine Evolves.modPlc (hm.bit rfl) id ?_
      exact h
    clear_value y2
    refine Evolves.ite ?_ ?_
    · refine defaulted_ev _ (hm.of rfl) hall ?_
      exact h3
    · extract_lets +onlyGivenNames y4
      extract_lets +onlyGivenNames y5
      extract_lets +onlyGivenNames y6
      have h7 : Evolves M P a y6 := by
        unfold y6
        refine plcWrite_ev _ _ _ (hm.of rfl) ?_
        refine plcWrite_ev _ _ _ (hm.of rfl) ?_
        exact h3
      clear_value y6
      extract_lets +onlyGivenNames y8
      have h9 : Evolves M P a y8 := by
        unfold y8
        refine plcWrite_ev _ _ _ (hm.of rfl) ?_
        exact h7
      clear_value y8
      extract_lets +onlyGivenNames y10
      have h11 : Evolves M P a y10 := by
        unfold y10
        refine plcSet_ev _ _ _ (hm.of rfl) ?_
        exact h9
      clear_value y10
      extract_lets +onlyGivenNames y12
      have h13 : Evolves M P a y12 := by
        unfold y12
        refine plcSet_ev _ _ _ (hm.of rfl) ?_
        refine plcSet_ev _ _ _ (hm.of rfl) ?_
        refine plcSet_ev _ _ _ (hm.of rfl) ?_
        exact h11
      clear_value y12
      refine Evolves.modPlc (hm.bit rfl) id ?_
      exact h13
  · exact h
  · exact h

theorem policyFault_ev (x1 x2 : _) (hm : Sub 0x47d0148300060b0 M) (hall : ∀ n, P n) (h : Evolves M P a s) :
    Evolves M P a (policyFault x1 x2 s) := by
  unfold policyFault
  extract_lets +onlyGivenNames y1
  extract_lets +onlyGivenNames y2
  have h3 : Evolves M P a y2 := by
    unfold y2
    refine State.logEvent_ev _ _ (hm.of rfl) ?_
    refine Evolves.incG .policy (Reg.group_policy rfl (by dsimp only [spareRes]; omega) (by dsimp only [spareRes]; omega)) (hm.bit rfl) rfl ?_
    exact h
  clear_value y2
  extract_lets +onlyGivenNames y4
  extract_lets +onlyGivenNames y5
  have h6 : Evolves M P a y5 := by
    unfold y5
    refine Evolves.modArm (hm.bit rfl) rfl ?_
    exact h3
  clear_value y5
  extract_lets +onlyGivenNames y7
  have h8 : Evolves M P a y7 := by
    unfold y7
    refine Evolves.ite ?_ ?_
    · refine State.logEvent_ev _ _ (hm.of rfl) ?_
      refine Evolves.putG .policy rfl (hm.bit rfl) rfl ?_
      exact h6
    · exact h6
  clear_value y7
  refine defaulted_ev _ (hm.of rfl) hall ?_
  exact h8

theorem coreReload_ev (x1 : _) (hm : Sub 0x20000000000000 M) (h : Evolves M P a s) :
    Evolves M P a (coreReload x1 s) := by
  unfold coreReload
  refine plcWrite_ev _ _ _ (hm.of rfl) ?_
  refine Evolves.modPlc (hm.bit rfl) id ?_
  exact h

theorem callEnd_ev (x1 : _) (hm : Sub 0x20000000000000 M) (h : Evolves M P a s) :
    Evolves M P a (callEnd x1 s) := by
  unfold callEnd
  extract_lets +onlyGivenNames y1
  have h2 : Evolves M P a y1 := by
    unfold y1
    refine Evolves.modPlc (hm.bit rfl) id ?_
    exact h
  clear_value y1
  refine Evolves.ite ?_ ?_
  · refine coreReload_ev _ (hm.of rfl) ?_
    exact h2
  · exact h2

theorem callFault_ev (x1 x2 : _) (hm : Sub 0x47d0148300060b0 M) (hall : ∀ n, P n) (h : Evolves M P a s) :
    Evolves M P a (callFault x1 x2 s) := by
  unfold callFault
  split
  · refine policyFault_ev _ _ (hm.of rfl) hall ?_
    refine callEnd_ev _ (hm.of rfl) ?_
    exact h
  · exact h

theorem policyEcallOp_ev (x1 : _) (hm : Sub 0x47d0148300060b0 M) (hall : ∀ n, P n) (h : Evolves M P a s) :
    Evolves M P a (policyEcallOp x1 s) := by
  unfold policyEcallOp
  extract_lets +onlyGivenNames y1
  split
  · exact h
  · refine Evolves.ite ?_ ?_
    · refine callFault_ev _ _ (hm.of rfl) hall ?_
      exact h
    · refine Evolves.ite ?_ ?_
      · refine defaulted_ev _ (hm.of rfl) hall ?_
        refine callEnd_ev _ (hm.of rfl) ?_
        exact h
      · refine Evolves.ite ?_ ?_
        · refine callFault_ev _ _ (hm.of rfl) hall ?_
          exact h
        · split
          · refine callFault_ev _ _ (hm.of rfl) hall ?_
            exact h
          · extract_lets +onlyGivenNames y2
            refine Evolves.ite ?_ ?_
            · refine takeUp_ev _ _ (hm.of rfl) hall ?_
              refine callEnd_ev _ (hm.of rfl) ?_
              exact h
            · refine Evolves.ite ?_ ?_
              · refine defaulted_ev _ (hm.of rfl) hall ?_
                refine callEnd_ev _ (hm.of rfl) ?_
                exact h
              · refine callFault_ev _ _ (hm.of rfl) hall ?_
                exact h

theorem budgetExpire_ev (x1 : _) (hm : Sub 0x47d0148300060b0 M) (hall : ∀ n, P n) (h : Evolves M P a s) :
    Evolves M P a (budgetExpire x1 s) := by
  unfold budgetExpire
  split
  · refine callFault_ev _ _ (hm.of rfl) hall ?_
    refine Evolves.incG .policy (Reg.group_policy rfl (by dsimp only [spareRes]; omega) (by dsimp only [spareRes]; omega)) (hm.bit rfl) rfl ?_
    exact h
  · exact h

theorem driftKeep_ev (x2 : _) (hm : Sub 0x20000000000000 M) (h : Evolves M P a s) :
    Evolves M P a (driftKeep s x2) := by
  unfold driftKeep
  split
  · refine Evolves.ite ?_ ?_
    · refine State.modDisc_ev _ _ (hm.of rfl) ?_
      exact h
    · exact h
  · exact h

theorem snapshotOp_ev (x1 : _) (hm : Sub 0x20000000000000 M) (h : Evolves M P a s) :
    Evolves M P a (snapshotOp x1 s) := by
  unfold snapshotOp
  refine Evolves.ite ?_ ?_
  · exact h
  · extract_lets +onlyGivenNames y1
    extract_lets +onlyGivenNames y2
    have h3 : Evolves M P a y2 := by
      unfold y2
      refine Evolves.modArm (hm.bit rfl) rfl ?_
      exact h
    clear_value y2
    extract_lets +onlyGivenNames y4
    have h5 : Evolves M P a y4 := by
      unfold y4
      refine Evolves.foldl _ (fun s6 x7 h8 => ?_) ?_
      · refine driftKeep_ev _ (hm.of rfl) ?_
        exact h8
      · exact h3
    clear_value y4
    extract_lets +onlyGivenNames y9
    refine Evolves.modArm (hm.bit rfl) rfl ?_
    exact h5

theorem execMeasurementSnapshot_next (x1 : _) (hm : Sub 0x20000000000000 M) :
    ∃ t, (execMeasurementSnapshot x1 s) = .next t ∧ Evolves M P s t := by
  refine ⟨_, rfl, ?_⟩
  have h := Evolves.refl M P s
  refine snapshotOp_ev _ (hm.of rfl) ?_
  exact h

end Sys2Proof.Machine
end

