-- ==== Sys2Proof/Laws/Pools.lean ====
section
/-! SUPPORT. One lemma per operation of Machine/Pools.lean: the parts of the state it can touch and what it needs of the engines (`Evolves`). -/

namespace Sys2Proof.Machine

variable {M : Nat} {P : Nat → Prop} {a s : State}

theorem State.modPool_ev (x2 x3 : _) (hm : Sub 0x80000000000000 M) (h : Evolves M P a s) :
    Evolves M P a (State.modPool s x2 x3) := by
  unfold State.modPool
  refine Evolves.withMem (hm.bit rfl) ?_
  exact h

theorem setOwners_ev (x1 x2 x3 : _) (hm : Sub 0x80000000000000 M) (h : Evolves M P a s) :
    Evolves M P a (setOwners x1 x2 x3 s) := by
  unfold setOwners
  refine State.modPool_ev _ _ (hm.of rfl) ?_
  exact h

theorem poolFree_ev (x1 x2 : _) (hm : Sub 0x1000000 M) (h : Evolves M P a s) :
    Evolves M P a (poolFree x1 x2 s) := by
  unfold poolFree
  extract_lets +onlyGivenNames y1
  have h2 : Evolves M P a y1 := by
    unfold y1
    refine Evolves.putG .pools (Reg.group_pools rfl (by dsimp only [spareRes]; omega)) (hm.bit rfl) rfl ?_
    exact h
  clear_value y1
  refine Evolves.putG .pools (Reg.group_pools rfl (by dsimp only [spareRes]; omega)) (hm.bit rfl) rfl ?_
  exact h2

theorem poolTake_ev {p : Fin 4} {x : Nat × State} (hm : Sub 0x80000000000000 M) (h : Evolves M P a s)
    (e : poolTake p s = some x) : Evolves M P a x.2 := by
  unfold poolTake at e
  extract_lets at e
  split at e
  · obtain rfl := Option.some.inj e
    dsimp only; exact State.modPool_ev p _ (hm.of rfl) h
  · split at e
    · obtain rfl := Option.some.inj e
      dsimp only; exact State.modPool_ev p _ (hm.of rfl) h
    · cases e

theorem newContents_ev (x1 x2 : _) (hm : Sub 0x80800000000000 M) (h : Evolves M P a s) :
    Evolves M P a (newContents x1 x2 s) := by
  unfold newContents
  extract_lets +onlyGivenNames y1
  extract_lets +onlyGivenNames y2
  have h3 : Evolves M P a y2 := by
    unfold y2
    refine Evolves.tickFresh ?_
    exact h
  clear_value y2
  refine Evolves.ite ?_ ?_
  · refine State.ddrPut_ev _ _ _ (hm.of rfl) ?_
    exact h3
  · refine Evolves.foldl _ (fun s4 x5 h6 => ?_) ?_
    · refine State.ddrSetLine_ev _ _ (hm.of rfl) ?_
      exact h6
    · exact h3

theorem poolGive_ev (x1 x2 x3 : _) (hm : Sub 0x80800001000000 M) (h : Evolves M P a s) :
    Evolves M P a (poolGive x1 x2 x3 s) := by
  unfold poolGive
  refine newContents_ev _ _ (hm.of rfl) ?_
  refine poolFree_ev _ _ (hm.of rfl) ?_
  refine setOwners_ev _ _ _ (hm.of rfl) ?_
  exact h

theorem poolEmpty_ev (x1 : _) (hm : Sub 0x1000000 M) (h : Evolves M P a s) :
    Evolves M P a (poolEmpty x1 s) := by
  unfold poolEmpty
  refine Evolves.putG .pools rfl (hm.bit rfl) rfl ?_
  exact h

theorem bpallocOp_ev (x1 x2 : _) (hm : Sub 0x80800001000000 M) (h : Evolves M P a s) :
    Evolves M P a (bpallocOp x1 x2 s).1 := by
  unfold bpallocOp
  split
  · exact h
  · split
    · next e => exact poolGive_ev _ _ _ (hm.of rfl) (poolTake_ev (hm.of rfl) h e)
    · refine Evolves.fst_ite ?_ (poolEmpty_ev _ (hm.of rfl) h)
      split
      · next e => exact poolGive_ev _ _ _ (hm.of rfl) (poolTake_ev (hm.of rfl) h e)
      · exact poolEmpty_ev _ (hm.of rfl) (poolEmpty_ev _ (hm.of rfl) h)

theorem badAddr_ev (x1 : _) (hm : Sub 0x1000000 M) (h : Evolves M P a s) :
    Evolves M P a (badAddr x1 s) := by
  unfold badAddr
  refine Evolves.putG .pools rfl (hm.bit rfl) rfl ?_
  refine Evolves.putG .pools rfl (hm.bit rfl) rfl ?_
  exact h

theorem bpshareOp_ev (x1 x2 : _) (hm : Sub 0x80000001000000 M) (h : Evolves M P a s) :
    Evolves M P a (bpshareOp x1 x2 s).1 := by
  unfold bpshareOp
  split
  · dsimp only
    refine badAddr_ev _ (hm.of rfl) ?_
    exact h
  · extract_lets +onlyGivenNames y1
    refine Evolves.fst_ite ?_ ?_
    · dsimp only
      exact h
    · refine Evolves.fst_ite ?_ ?_
      · dsimp only
        exact h
      · refine Evolves.fst_ite ?_ ?_
        · dsimp only
          exact h
        · dsimp only
          refine setOwners_ev _ _ _ (hm.of rfl) ?_
          exact h

theorem poolBack_ev (x1 x2 : _) (hm : Sub 0x80000001000000 M) (h : Evolves M P a s) :
    Evolves M P a (poolBack x1 x2 s) := by
  unfold poolBack
  extract_lets +onlyGivenNames y1
  have h2 : Evolves M P a y1 := by
    unfold y1
    refine setOwners_ev _ _ _ (hm.of rfl) ?_
    exact h
  clear_value y1
  refine Evolves.ite ?_ ?_
  · refine Evolves.incG .pools (Reg.group_pools rfl (by dsimp only [spareRes]; omega)) (hm.bit rfl) rfl ?_
    refine State.modPool_ev _ _ (hm.of rfl) ?_
    exact h2
  · refine poolFree_ev _ _ (hm.of rfl) ?_
    refine State.modPool_ev _ _ (hm.of rfl) ?_
    exact h2

theorem bpfreeOp_ev (x1 x2 : _) (hm : Sub 0x4c1000011000000 M) (h : Evolves M P a s) :
    Evolves M P a (bpfreeOp x1 x2 s).1 := by
  unfold bpfreeOp
  split
  · dsimp only
    refine badAddr_ev _ (hm.of rfl) ?_
    exact h
  · extract_lets +onlyGivenNames y1
    refine Evolves.fst_ite ?_ ?_
    · dsimp only
      refine State.logEvent_ev _ _ (hm.of rfl) ?_
      refine Evolves.putG .pools rfl (hm.bit rfl) rfl ?_
      refine Evolves.putG .pools rfl (hm.bit rfl) rfl ?_
      exact h
    · refine Evolves.fst_ite ?_ ?_
      · dsimp only
        refine Evolves.putG .pools rfl (hm.bit rfl) rfl ?_
        refine Evolves.putG .pools rfl (hm.bit rfl) rfl ?_
        exact h
      · refine Evolves.fst_ite ?_ ?_
        · dsimp only
          refine poolBack_ev _ _ (hm.of rfl) ?_
          exact h
        · dsimp only
          refine setOwners_ev _ _ _ (hm.of rfl) ?_
          exact h

theorem poolSweep_ev (x1 x3 : _) (hm : Sub 0x80000001000000 M) (h : Evolves M P a s) :
    Evolves M P a (poolSweep x1 s x3) := by
  unfold poolSweep
  extract_lets +onlyGivenNames y1
  extract_lets +onlyGivenNames y2
  have h3 : Evolves M P a y2 := by
    unfold y2
    refine State.modPool_ev _ _ (hm.of rfl) ?_
    exact h
  clear_value y2
  refine Evolves.ite ?_ ?_
  · exact h3
  · refine poolFree_ev _ _ (hm.of rfl) ?_
    refine Evolves.incByG .pools (Reg.group_pools rfl (by dsimp only [spareRes]; omega)) (hm.bit rfl) rfl ?_
    exact h3

theorem poolConfig_ev (x1 x2 x3 : _) (hm : Sub 0x80000001000000 M) (h : Evolves M P a s) :
    Evolves M P a (poolConfig x1 x2 x3 s) := by
  unfold poolConfig
  refine Evolves.ite ?_ ?_
  · refine Evolves.putG .pools rfl (hm.bit rfl) rfl ?_
    exact h
  · extract_lets +onlyGivenNames y1
    have h2 : Evolves M P a y1 := by
      unfold y1
      refine Evolves.ite ?_ ?_
      · refine Evolves.putG .pools (Reg.group_pools rfl (by dsimp only [spareRes]; omega)) (hm.bit rfl) rfl ?_
        exact h
      · refine Evolves.putG .pools (Reg.group_pools rfl (by dsimp only [spareRes]; omega)) (hm.bit rfl) rfl ?_
        exact h
    clear_value y1
    extract_lets +onlyGivenNames y3
    have h4 : Evolves M P a y3 := by
      unfold y3
      refine State.modPool_ev _ _ (hm.of rfl) ?_
      exact h2
    clear_value y3
    extract_lets +onlyGivenNames y5
    have h6 : Evolves M P a y5 := by
      unfold y5
      refine Evolves.putG .pools (Reg.group_pools rfl (by dsimp only [spareRes]; omega)) (hm.bit rfl) rfl ?_
      refine Evolves.putG .pools (Reg.group_pools rfl (by dsimp only [spareRes]; omega)) (hm.bit rfl) rfl ?_
      exact h4
    clear_value y5
    extract_lets +onlyGivenNames y7
    have h8 : Evolves M P a y7 := by
      unfold y7
      refine Evolves.foldl _ (fun s9 x10 h11 => ?_) ?_
      · refine poolSweep_ev _ _ (hm.of rfl) ?_
        exact h11
      · exact h6
    clear_value y7
    refine Evolves.putG .pools (Reg.group_pools rfl (by dsimp only [spareRes]; omega)) (hm.bit rfl) rfl ?_
    exact h8

theorem poolMinReset_ev (x1 : _) (hm : Sub 0x1000000 M) (h : Evolves M P a s) :
    Evolves M P a (poolMinReset x1 s) := by
  unfold poolMinReset
  refine Evolves.putG .pools (Reg.group_pools rfl (by dsimp only [spareRes]; omega)) (hm.bit rfl) rfl ?_
  exact h

theorem rowRetire_ev (x1 : _) (hm : Sub 0x4f100003100c000 M) (h : Evolves M P a s) :
    Evolves M P a (rowRetire x1 s) := by
  unfold rowRetire
  extract_lets +onlyGivenNames y1
  extract_lets +onlyGivenNames y2
  extract_lets +onlyGivenNames y3
  have h4 : Evolves M P a y3 := by
    unfold y3
    refine Evolves.ite ?_ ?_
    · exact h
    · split
      · refine plinthCommit_ev _ _ (hm.of rfl) ?_
        exact h
      · exact h
  clear_value y3
  extract_lets +onlyGivenNames y5
  extract_lets +onlyGivenNames y6
  extract_lets +onlyGivenNames y7
  have h8 : Evolves M P a y7 := by
    unfold y7
    refine Evolves.withMem (hm.bit rfl) ?_
    exact h4
  clear_value y7
  extract_lets +onlyGivenNames y9
  have h10 : Evolves M P a y9 := by
    unfold y9
    refine Evolves.ite ?_ ?_
    · exact h4
    · refine Evolves.foldl _ (fun s11 x12 h13 => ?_) ?_
      · refine poolSweep_ev _ _ (hm.of rfl) ?_
        exact h13
      · refine Evolves.incG .ddr rfl (hm.bit rfl) rfl ?_
        exact h8
  clear_value y9
  refine State.logEvent_ev _ _ (hm.of rfl) ?_
  exact h10

theorem execPoolConfigWrite_next (x1 x2 x3 : _) (hm : Sub 0x80000001000000 M) :
    ∃ t, (execPoolConfigWrite x1 x2 x3 s) = .next t ∧ Evolves M P s t := by
  refine ⟨_, rfl, ?_⟩
  have h := Evolves.refl M P s
  refine poolConfig_ev _ _ _ (hm.of rfl) ?_
  exact h

theorem execPoolMinReset_next (x1 : _) (hm : Sub 0x1000000 M) :
    ∃ t, (execPoolMinReset x1 s) = .next t ∧ Evolves M P s t := by
  refine ⟨_, rfl, ?_⟩
  have h := Evolves.refl M P s
  refine poolMinReset_ev _ (hm.of rfl) ?_
  exact h

end Sys2Proof.Machine
end

