-- ==== Sys2Proof/Laws/Forge.lean ====
section
/-! SUPPORT. One lemma per operation of Machine/Forge.lean: the parts of the state it can touch and what it needs of the engines (`Evolves`). -/

namespace Sys2Proof.Machine

variable {M : Nat} {P : Nat → Prop} {a s : State}

theorem forgeDone_ev (x1 x2 x3 : _) (hm : Sub 0x20000000000000 M) (h : Evolves M P a s) :
    Evolves M P a (forgeDone x1 x2 x3 s) := by
  unfold forgeDone
  refine Evolves.modPlc (hm.bit rfl) id ?_
  refine plcSet_ev _ _ _ (hm.of rfl) ?_
  exact h

theorem mOnly_ev (x1 x2 : _) (hm : Sub 0x47d0148300060b0 M) (hall : ∀ n, P n) (hx2 : ∀ t, Evolves M P a t → Evolves M P a (x2 t)) (h : Evolves M P a s) :
    Evolves M P a (mOnly x1 x2 s) := by
  unfold mOnly
  refine Evolves.ite ?_ ?_
  · refine callFault_ev _ _ (hm.of rfl) hall ?_
    exact h
  · apply hx2
    exact h

theorem forgeIllegal_ev (x1 : _) (hm : Sub 0x47d0148300060b0 M) (hall : ∀ n, P n) (h : Evolves M P a s) :
    Evolves M P a (forgeIllegal x1 s) := by
  unfold forgeIllegal
  refine callFault_ev _ _ (hm.of rfl) hall ?_
  exact h

theorem forgeAlloc_ev (x1 x2 x3 x4 : _) (hm : Sub 0xa0800001000000 M) (h : Evolves M P a s) :
    Evolves M P a (forgeAlloc x1 x2 x3 x4 s) := forgeDone_ev _ _ _ (hm.of rfl) (bpallocOp_ev _ _ (hm.of rfl) h)

theorem forgeFree_ev (x1 x2 x3 x4 : _) (hm : Sub 0x4e1000011000000 M) (h : Evolves M P a s) :
    Evolves M P a (forgeFree x1 x2 x3 x4 s) := forgeDone_ev _ _ _ (hm.of rfl) (bpfreeOp_ev _ _ (hm.of rfl) h)

theorem forgeShare_ev (x1 x2 x3 x4 : _) (hm : Sub 0xa0000001000000 M) (h : Evolves M P a s) :
    Evolves M P a (forgeShare x1 x2 x3 x4 s) := forgeDone_ev _ _ _ (hm.of rfl) (bpshareOp_ev _ _ (hm.of rfl) h)

theorem accessFault_ev (x1 x2 x3 : _) (hm : Sub 0x67d0148300060b0 M) (hall : ∀ n, P n) (h : Evolves M P a s) :
    Evolves M P a (accessFault x1 x2 x3 s) := by
  unfold accessFault
  extract_lets +onlyGivenNames y1
  extract_lets +onlyGivenNames y2
  have h3 : Evolves M P a y2 := by
    unfold y2
    refine Evolves.withPw (hm.bit rfl) ?_
    exact h
  clear_value y2
  extract_lets +onlyGivenNames y4
  have h5 : Evolves M P a y4 := by
    unfold y4
    refine Evolves.ite ?_ ?_
    · exact h
    · refine State.logEvent_ev _ _ (hm.of rfl) ?_
      exact h3
  clear_value y4
  refine Evolves.ite ?_ ?_
  · refine callFault_ev _ _ (hm.of rfl) hall ?_
    exact h5
  · exact h5

theorem pageTouch_ev (x1 x2 : _) (hm : Sub 0x461000010002000 M) (h : Evolves M P a s) :
    Evolves M P a (pageTouch x1 x2 s) := by
  unfold pageTouch
  refine Evolves.ite ?_ ?_
  · refine Evolves.incWrapG .policy rfl (hm.bit rfl) rfl ?_
    refine Evolves.modArm (hm.bit rfl) rfl ?_
    exact h
  · extract_lets +onlyGivenNames y1
    have h2 : Evolves M P a y1 := by
      unfold y1
      refine Evolves.incWrapG .policy rfl (hm.bit rfl) rfl ?_
      refine Evolves.modArm (hm.bit rfl) rfl ?_
      exact h
    clear_value y1
    refine Evolves.ite ?_ ?_
    · refine State.logEvent_ev _ _ (hm.of rfl) ?_
      refine Evolves.incWrapG .policy rfl (hm.bit rfl) rfl ?_
      exact h2
    · exact h2

theorem pageAnswer_ev (x1 x2 x3 x4 : _) (hm : Sub 0x461000010002000 M) (h : Evolves M P a s) :
    Evolves M P a (pageAnswer x1 x2 x3 x4 s).1 := by
  unfold pageAnswer
  refine Evolves.fst_ite ?_ ?_
  · dsimp only
    refine pageTouch_ev _ _ (hm.of rfl) ?_
    exact h
  · refine Evolves.fst_ite ?_ ?_
    · dsimp only
      exact h
    · dsimp only
      refine Evolves.incWrapG .policy rfl (hm.bit rfl) rfl ?_
      refine Evolves.modArm (hm.bit rfl) rfl ?_
      exact h

theorem plqueryOp_ev (x1 x2 x3 x4 : _) (hm : Sub 0x461000010002000 M) (h : Evolves M P a s) :
    Evolves M P a (plqueryOp x1 x2 x3 x4 s).1 := by
  unfold plqueryOp
  extract_lets +onlyGivenNames y1
  extract_lets +onlyGivenNames y2
  extract_lets +onlyGivenNames y3
  extract_lets +onlyGivenNames y4
  refine Evolves.fst_ite ?_ ?_
  · refine Evolves.fst_ite ?_ ?_
    · dsimp only
      exact h
    · extract_lets +onlyGivenNames y5
      extract_lets +onlyGivenNames y6
      extract_lets +onlyGivenNames y7
      refine pageAnswer_ev _ _ _ _ (hm.of rfl) ?_
      exact h
  · refine Evolves.fst_ite ?_ ?_
    · split
      · dsimp only
        exact h
      · refine Evolves.fst_ite ?_ ?_
        · dsimp only
          exact h
        · refine pageAnswer_ev _ _ _ _ (hm.of rfl) ?_
          exact h
    · refine Evolves.fst_ite ?_ ?_
      · extract_lets +onlyGivenNames y8
        split
        · dsimp only
          exact h
        · refine pageAnswer_ev _ _ _ _ (hm.of rfl) ?_
          exact h
      · refine Evolves.fst_ite ?_ ?_
        · refine Evolves.fst_ite ?_ ?_
          · dsimp only
            exact h
          · refine pageAnswer_ev _ _ _ _ (hm.of rfl) ?_
            exact h
        · dsimp only
          exact h

theorem forgeQuery_ev (x1 x2 x3 x4 x5 : _) (hm : Sub 0x461000010002000 M) (h : Evolves M P a s) :
    Evolves M P a (forgeQuery x1 x2 x3 x4 x5 s) := forgeDone_ev _ _ _ (hm.of rfl) (plqueryOp_ev _ _ _ _ (hm.of rfl) h)

theorem forgeCommit_ev (x1 x2 x3 x4 : _) (hm : Sub 0x67d0148300060b0 M) (hall : ∀ n, P n)
    (h : Evolves M P a s) : Evolves M P a (forgeCommit x1 x2 x3 x4 s) := by
  unfold forgeCommit
  extract_lets x n
  refine Evolves.ite (accessFault_ev _ _ _ (hm.of rfl) hall h) ?_
  split
  · exact forgeDone_ev _ _ _ (hm.of rfl) h
  · exact forgeDone_ev _ _ _ (hm.of rfl) (plCommit_ev _ _ (hm.of rfl) h)

theorem forgePut_ev (x1 x2 x3 x4 : _) (hm : Sub 0x67d4148300060b0 M) (hall : ∀ n, P n) (h : Evolves M P a s) :
    Evolves M P a (forgePut x1 x2 x3 x4 s) := by
  unfold forgePut
  extract_lets +onlyGivenNames y1
  extract_lets +onlyGivenNames y2
  refine Evolves.ite ?_ ?_
  · refine callFault_ev _ _ (hm.of rfl) hall ?_
    exact h
  · refine Evolves.ite ?_ ?_
    · refine accessFault_ev _ _ _ (hm.of rfl) hall ?_
      exact h
    · refine Evolves.ite ?_ ?_
      · refine forgeDone_ev _ _ _ (hm.of rfl) ?_
        exact h
      · refine forgeDone_ev _ _ _ (hm.of rfl) ?_
        refine Evolves.mqPut (hm.bit rfl) ?_
        exact h

theorem forgeGet_ev (x1 x2 x3 x4 : _) (hm : Sub 0x67d4148300060b0 M) (hall : ∀ n, P n) (h : Evolves M P a s) :
    Evolves M P a (forgeGet x1 x2 x3 x4 s) := by
  unfold forgeGet
  extract_lets q x
  refine Evolves.ite (callFault_ev _ _ (hm.of rfl) hall h) (Evolves.ite (accessFault_ev _ _ _ (hm.of rfl) hall h) ?_)
  split
  · exact forgeDone_ev _ _ _ (hm.of rfl) h
  · extract_lets t
    have ht : Evolves M P a t := h.withMq (hm.bit rfl)
    exact forgeDone_ev _ _ _ (hm.of rfl) (plcWrite_ev _ _ _ (hm.of rfl) ht)

theorem execGfmac8_next (x1 x2 x3 x4 : _) (hm : Sub 0x20000000000000 M) :
    ∃ t, (execGfmac8 x1 x2 x3 x4 s) = .next t ∧ Evolves M P s t := by
  refine ⟨_, rfl, ?_⟩
  have h := Evolves.refl M P s
  refine forgeDone_ev _ _ _ (hm.of rfl) ?_
  exact h

theorem execPlquery_next (x1 x2 x3 x4 x5 : _) (hm : Sub 0x461000010002000 M) :
    ∃ t, (execPlquery x1 x2 x3 x4 x5 s) = .next t ∧ Evolves M P s t := by
  refine ⟨_, rfl, ?_⟩
  have h := Evolves.refl M P s
  refine forgeQuery_ev _ _ _ _ _ (hm.of rfl) ?_
  exact h

end Sys2Proof.Machine
end

