-- ==== Sys2Proof/Laws/Rows.lean ====
section
/-! SUPPORT. One lemma per operation of Machine/Rows.lean: the parts of the state it can touch and what it needs of the engines (`Evolves`). -/

namespace Sys2Proof.Machine

variable {M : Nat} {P : Nat → Prop} {a s : State}

theorem askRun_ev (x1 x2 : _) (hm : Sub 0x47d0148300060b0 M) (hall : ∀ n, P n) (h : Evolves M P a s) :
    Evolves M P a (askRun x1 x2 s) := by
  unfold askRun
  extract_lets +onlyGivenNames y1
  extract_lets +onlyGivenNames y2
  refine Evolves.ite ?_ ?_
  · exact h
  · extract_lets +onlyGivenNames y3
    have h4 : Evolves M P a y3 := by
      unfold y3
      refine Evolves.modArm (hm.bit rfl) rfl ?_
      exact h
    clear_value y3
    refine Evolves.ite ?_ ?_
    · split
      · refine State.logEvent_ev _ _ (hm.of rfl) ?_
        refine Evolves.modArm (hm.bit rfl) rfl ?_
        exact h4
      · extract_lets +onlyGivenNames y5
        extract_lets +onlyGivenNames y6
        have h7 : Evolves M P a y6 := by
          unfold y6
          refine makeRun_ev _ _ _ _ _ _ (hm.of rfl) ?_
          exact h4
        clear_value y6
        refine mapCommit_ev _ _ (hm.of rfl) ?_
        exact h7
    · refine ask_ev _ (hm.of rfl) hall ?_
      exact h4

theorem markRow_ev (x1 x2 x3 : _) (hm : Sub 0x20000000000000 M) (h : Evolves M P a s) :
    Evolves M P a (markRow x1 x2 x3 s) := by
  unfold markRow
  extract_lets +onlyGivenNames y1
  have h2 : Evolves M P a y1 := by
    unfold y1
    refine Evolves.ite ?_ ?_
    · exact h
    · refine Evolves.modArm (hm.bit rfl) rfl ?_
      exact h
  clear_value y1
  refine addTodo_ev _ (hm.of rfl) ?_
  exact h2

theorem writeParity_ev {z : _} (x1 x2 x3 x4 x5 x6 : _) (hm : Sub 0x20000000000000 M) (h : Evolves M P a z.1) :
    Evolves M P a (writeParity x1 x2 x3 x4 x5 x6 z).1 := by
  unfold writeParity
  extract_lets +onlyGivenNames y1
  extract_lets +onlyGivenNames y2
  refine Evolves.foldl_fst _ (fun z3 x4 h5 => ?_) ?_
  · refine Evolves.fst_ite ?_ ?_
    · refine Evolves.fst_ite ?_ ?_
      · refine rewriteMember_ev _ _ _ _ _ _ (hm.of rfl) ?_
        exact h5
      · refine writeMember_ev _ _ _ _ _ _ (hm.of rfl) ?_
        exact h5
    · refine Evolves.fst_ite ?_ ?_
      · exact h5
      · dsimp only
        refine addTodo_ev _ (hm.of rfl) ?_
        exact h5
  · exact h

theorem encodeRow_ev {z : _} (x1 x2 x3 x4 x5 : _) (hm : Sub 0x20000000000000 M) (h : Evolves M P a z.1) :
    Evolves M P a (encodeRow x1 x2 x3 x4 x5 z).1 := by
  unfold encodeRow
  split
  · extract_lets +onlyGivenNames y1
    have h2 : Evolves M P a y1 := by
      unfold y1
      refine Evolves.modArm (hm.bit rfl) rfl ?_
      exact h
    clear_value y1
    refine writeParity_ev _ _ _ _ _ _ (hm.of rfl) ?_
    dsimp only
    exact h2
  · dsimp only
    refine markRow_ev _ _ _ (hm.of rfl) ?_
    exact h

theorem writeRow_ev {z : _} (x1 x2 x3 x4 x5 : _) (hm : Sub 0x20000000000000 M) (h : Evolves M P a z.1) :
    Evolves M P a (writeRow x1 x2 x3 x4 x5 z).1 := by
  unfold writeRow
  extract_lets +onlyGivenNames y1
  refine writeParity_ev _ _ _ _ _ _ (hm.of rfl) ?_
  unfold y1
  refine Evolves.foldl_fst _ (fun z2 x3 h4 => ?_) ?_
  · refine Evolves.fst_ite ?_ ?_
    · refine writeMember_ev _ _ _ _ _ _ (hm.of rfl) ?_
      exact h4
    · refine Evolves.fst_ite ?_ ?_
      · exact h4
      · dsimp only
        refine addTodo_ev _ (hm.of rfl) ?_
        exact h4
  · exact h

theorem writeStripe_ev {z : _} (x1 x2 x3 x4 : _) (hm : Sub 0x20000000000000 M) (h : Evolves M P a z.1) :
    Evolves M P a (writeStripe x1 x2 x3 x4 z).1 := by
  unfold writeStripe
  extract_lets +onlyGivenNames y1
  refine Evolves.foldl_fst _ (fun z2 x3 h4 => ?_) ?_
  · refine writeRow_ev _ _ _ _ _ (hm.of rfl) ?_
    exact h4
  · exact h

theorem fillNote_ev (x1 x2 : _) (hm : Sub 0x20000000000000 M) (h : Evolves M P a s) :
    Evolves M P a (fillNote x1 x2 s) := by
  unfold fillNote
  refine Evolves.ite ?_ ?_
  · refine Evolves.modArm (hm.bit rfl) rfl ?_
    exact h
  · exact h

end Sys2Proof.Machine
end

