-- ==== Sys2Proof/Laws/Rebuild.lean ====
section
/-! SUPPORT. One lemma per operation of Machine/Rebuild.lean: the parts of the state it can touch and what it needs of the engines (`Evolves`). -/

namespace Sys2Proof.Machine

variable {M : Nat} {P : Nat → Prop} {a s : State}

theorem modRebuild_ev (x1 x2 x3 : _) (hm : Sub 0x20000000000000 M) (h : Evolves M P a s) :
    Evolves M P a (modRebuild x1 x2 x3 s) := by
  unfold modRebuild
  refine Evolves.modArm (hm.bit rfl) rfl ?_
  exact h

theorem setDiscState_ev (x1 x2 x3 : _) (hm : Sub 0x470000020004000 M) (h : Evolves M P a s) :
    Evolves M P a (setDiscState x1 x2 x3 s) := by
  unfold setDiscState
  extract_lets +onlyGivenNames y1
  refine mapCommit_ev _ _ (hm.of rfl) ?_
  exact h

theorem rebuildStart_ev (x1 x2 x3 : _) (hm : Sub 0x470000020004000 M) (h : Evolves M P a s) :
    Evolves M P a (rebuildStart x1 x2 x3 s) := by
  unfold rebuildStart
  extract_lets +onlyGivenNames y1
  extract_lets +onlyGivenNames y2
  have h3 : Evolves M P a y2 := by
    unfold y2
    refine mapCommit_ev _ _ (hm.of rfl) ?_
    exact h
  clear_value y2
  refine Evolves.modArm (hm.bit rfl) rfl ?_
  exact h3

theorem startRebuilds_ev (hm : Sub 0x470000020004000 M) (h : Evolves M P a s) :
    Evolves M P a (startRebuilds s) := by
  unfold startRebuilds
  extract_lets +onlyGivenNames y1
  refine Evolves.foldl _ (fun s2 x3 h4 => ?_) ?_
  · refine rebuildStart_ev _ _ _ (hm.of rfl) ?_
    exact h4
  · exact h

theorem rebuildCkpt_ev (x1 : _) (hm : Sub 0x470000020004000 M) (h : Evolves M P a s) :
    Evolves M P a (rebuildCkpt x1 s) := by
  unfold rebuildCkpt
  refine sealAsk_ev _ _ _ (hm.of rfl) ?_
  exact h

theorem secondFailure_ev (x1 x2 : _) (hm : Sub 0x471000030004000 M) (h : Evolves M P a s) :
    Evolves M P a (secondFailure x1 x2 s) := by
  unfold secondFailure
  extract_lets +onlyGivenNames y1
  extract_lets +onlyGivenNames y2
  refine Evolves.ite ?_ ?_
  · exact h
  · extract_lets +onlyGivenNames y3
    have h4 : Evolves M P a y3 := by
      unfold y3
      refine State.logEvent_ev _ _ (hm.of rfl) ?_
      refine rebuildCkpt_ev _ (hm.of rfl) ?_
      exact h
    clear_value y3
    refine Evolves.ite ?_ ?_
    · extract_lets +onlyGivenNames y5
      extract_lets +onlyGivenNames y6
      refine Evolves.ite ?_ ?_
      · exact h4
      · refine addLoss_ev _ _ _ _ _ _ _ (hm.of rfl) ?_
        exact h4
    · exact h4

theorem discFailOp_ev (x1 x2 x3 : _) (hm : Sub 0x471000030004000 M) (h : Evolves M P a s) :
    Evolves M P a (discFailOp x1 x2 x3 s) := by
  unfold discFailOp
  extract_lets +onlyGivenNames y1
  refine Evolves.ite ?_ ?_
  · exact h
  · extract_lets +onlyGivenNames y2
    have h3 : Evolves M P a y2 := by
      unfold y2
      refine Evolves.foldl _ (fun s4 x5 h6 => ?_) ?_
      · refine secondFailure_ev _ _ (hm.of rfl) ?_
        exact h6
      · exact h
    clear_value y2
    refine startRebuilds_ev (hm.of rfl) ?_
    refine State.logEvent_ev _ _ (hm.of rfl) ?_
    refine setDiscState_ev _ _ _ (hm.of rfl) ?_
    exact h3

theorem patinaKeep_ev (x1 : _) (hm : Sub 0x471000030004000 M) (h : Evolves M P a s) :
    Evolves M P a (patinaKeep x1 s) := by
  unfold patinaKeep
  extract_lets +onlyGivenNames y1
  extract_lets +onlyGivenNames y2
  refine Evolves.ite ?_ ?_
  · exact h
  · extract_lets +onlyGivenNames y3
    extract_lets +onlyGivenNames y4
    extract_lets +onlyGivenNames y5
    extract_lets +onlyGivenNames y6
    extract_lets +onlyGivenNames y7
    extract_lets +onlyGivenNames y8
    have h9 : Evolves M P a y8 := by
      unfold y8
      refine mapCommit_ev _ _ (hm.of rfl) ?_
      refine State.modDisc_ev _ _ (hm.of rfl) ?_
      exact h
    clear_value y8
    refine Evolves.ite ?_ ?_
    · refine startRebuilds_ev (hm.of rfl) ?_
      refine State.logEvent_ev _ _ (hm.of rfl) ?_
      exact h9
    · exact h9

theorem patinaRead_ev (x1 x2 x3 : _) (hm : Sub 0x471000030004000 M) (h : Evolves M P a s) :
    Evolves M P a (patinaRead x1 x2 x3 s) := by
  unfold patinaRead
  refine patinaKeep_ev _ (hm.of rfl) ?_
  refine State.modDisc_ev _ _ (hm.of rfl) ?_
  exact h

theorem patinaLeft_ev (x1 x2 : _) (hm : Sub 0x471000030004000 M) (h : Evolves M P a s) :
    Evolves M P a (patinaLeft x1 x2 s) := by
  unfold patinaLeft
  refine patinaKeep_ev _ (hm.of rfl) ?_
  refine State.modDisc_ev _ _ (hm.of rfl) ?_
  exact h

theorem handOff_ev (x1 : _) (hm : Sub 0x471000030004000 M) (h : Evolves M P a s) :
    Evolves M P a (handOff x1 s) := by
  unfold handOff
  extract_lets +onlyGivenNames y1
  extract_lets +onlyGivenNames y2
  have h3 : Evolves M P a y2 := by
    unfold y2
    refine Evolves.modArm (hm.bit rfl) rfl ?_
    exact h
  clear_value y2
  extract_lets +onlyGivenNames y4
  have h5 : Evolves M P a y4 := by
    unfold y4
    refine patinaLeft_ev _ _ (hm.of rfl) ?_
    exact h3
  clear_value y4
  refine Evolves.ite ?_ ?_
  · refine discFailOp_ev _ _ _ (hm.of rfl) ?_
    exact h5
  · exact h5

theorem mediaTake_ev (x1 : _) (hm : Sub 0x471000030004000 M) (h : Evolves M P a s) :
    Evolves M P a (mediaTake x1 s) := by
  unfold mediaTake
  refine Evolves.foldl _ (fun s1 x2 h3 => ?_) ?_
  · refine handOff_ev _ (hm.of rfl) ?_
    exact h3
  · exact h

theorem targetChoose_ev (x1 x2 : _) (hm : Sub 0x471000030004000 M) (h : Evolves M P a s) :
    Evolves M P a (targetChoose x1 x2 s) := by
  unfold targetChoose
  split
  · exact h
  · refine Evolves.ite ?_ ?_
    · exact h
    · extract_lets +onlyGivenNames y1
      extract_lets +onlyGivenNames y2
      extract_lets +onlyGivenNames y3
      extract_lets +onlyGivenNames y4
      split
      · refine State.logEvent_ev _ _ (hm.of rfl) ?_
        exact h
      · split
        · refine State.logEvent_ev _ _ (hm.of rfl) ?_
          exact h
        · extract_lets +onlyGivenNames y5
          extract_lets +onlyGivenNames y6
          extract_lets +onlyGivenNames y7
          have h8 : Evolves M P a y7 := by
            unfold y7
            refine mapCommit_ev _ _ (hm.of rfl) ?_
            exact h
          clear_value y7
          extract_lets +onlyGivenNames y9
          extract_lets +onlyGivenNames y10
          have h11 : Evolves M P a y10 := by
            unfold y10
            refine modRebuild_ev _ _ _ (hm.of rfl) ?_
            exact h8
          clear_value y10
          extract_lets +onlyGivenNames y12
          have h13 : Evolves M P a y12 := by
            unfold y12
            refine Evolves.ite ?_ ?_
            · refine State.logEvent_ev _ _ (hm.of rfl) ?_
              exact h11
            · exact h11
          clear_value y12
          refine sealAsk_ev _ _ _ (hm.of rfl) ?_
          exact h13

theorem rebuildRow_ev {z : _} (x1 x2 x3 x4 : _) (hm : Sub 0x471000030004000 M)
    (h : Evolves M P a z.1) : Evolves M P a (rebuildRow x1 x2 x3 x4 z).1 := by
  unfold rebuildRow
  extract_lets s got x put
  have hput : ∀ (c : Cluster) (z : State × Tx), Evolves M P a z.1 → Evolves M P a (put c z).1 :=
    fun c z hz => writeCl_ev _ _ _ _ _ (hm.of rfl) hz
  have hl : Evolves M P a (loseRow x1 x2.run x3 x4 3 s) := loseRow_ev _ _ _ _ _ (hm.of rfl) h
  clear_value got
  split
  · exact hput _ _ h
  · exact hput _ _ h
  · exact hput _ _ hl
  · split
    · exact hput _ _ h
    · exact hput _ _ hl

theorem rebuildFinish_ev (x1 : _) (hm : Sub 0x471000030004000 M) (h : Evolves M P a s) :
    Evolves M P a (rebuildFinish x1 s) := by
  unfold rebuildFinish
  extract_lets +onlyGivenNames y1
  extract_lets +onlyGivenNames y2
  extract_lets +onlyGivenNames y3
  extract_lets +onlyGivenNames y4
  extract_lets +onlyGivenNames y5
  extract_lets +onlyGivenNames y6
  extract_lets +onlyGivenNames y7
  have h8 : Evolves M P a y7 := by
    unfold y7
    refine mapCommit_ev _ _ (hm.of rfl) ?_
    refine Evolves.modArm (hm.bit rfl) rfl ?_
    exact h
  clear_value y7
  extract_lets +onlyGivenNames y9
  extract_lets +onlyGivenNames y10
  extract_lets +onlyGivenNames y11
  extract_lets +onlyGivenNames y12
  have h13 : Evolves M P a y12 := by
    unfold y12
    refine Evolves.modJrn (hm.bit rfl) ?_
    exact h8
  clear_value y12
  refine startRebuilds_ev (hm.of rfl) ?_
  refine State.logEvent_ev _ _ (hm.of rfl) ?_
  exact h13

theorem rebuildBatch_ev (x1 x2 x3 : _) (hm : Sub 0x471000030004000 M) (h : Evolves M P a s) :
    Evolves M P a (rebuildBatch x1 x2 x3 s) := by
  unfold rebuildBatch
  split
  · exact h
  · extract_lets +onlyGivenNames y1
    refine Evolves.ite ?_ ?_
    · exact h
    · refine Evolves.ite ?_ ?_
      · exact h
      · refine Evolves.ite ?_ ?_
        · refine modRebuild_ev _ _ _ (hm.of rfl) ?_
          exact h
        · extract_lets +onlyGivenNames y2
          have h3 : Evolves M P a y2 := by
            unfold y2
            refine mediaTake_ev _ (hm.of rfl) ?_
            refine modRebuild_ev _ _ _ (hm.of rfl) ?_
            exact h
          clear_value y2
          split
          · exact h3
          · extract_lets +onlyGivenNames y4
            extract_lets +onlyGivenNames y5
            have h6 : Evolves M P a y5 := by
              unfold y5
              refine mapCommit_ev _ _ (hm.of rfl) ?_
              unfold y4
              refine Evolves.foldl_fst _ (fun z7 x8 h9 => ?_) ?_
              · refine Evolves.foldl_fst _ (fun z10 x11 h12 => ?_) ?_
                · refine rebuildRow_ev _ _ _ _ (hm.of rfl) ?_
                  exact h12
                · exact h9
              · dsimp only
                exact h3
            clear_value y5
            extract_lets +onlyGivenNames y13
            extract_lets +onlyGivenNames y14
            have h15 : Evolves M P a y14 := by
              unfold y14
              refine modRebuild_ev _ _ _ (hm.of rfl) ?_
              exact h6
            clear_value y14
            extract_lets +onlyGivenNames y16
            have h17 : Evolves M P a y16 := by
              unfold y16
              refine Evolves.ite ?_ ?_
              · refine rebuildCkpt_ev _ (hm.of rfl) ?_
                exact h15
              · exact h15
            clear_value y16
            refine Evolves.ite ?_ ?_
            · refine rebuildFinish_ev _ (hm.of rfl) ?_
              exact h17
            · exact h17

theorem repairOne_ev (x1 x2 x3 x4 x5 : _) (hm : Sub 0x471000030004000 M) (h : Evolves M P a s) :
    Evolves M P a (repairOne x1 x2 x3 x4 x5 s) := by
  unfold repairOne
  extract_lets +onlyGivenNames y1
  refine Evolves.ite ?_ ?_
  · unfold y1
    refine Evolves.modArm (hm.bit rfl) rfl ?_
    exact h
  · refine Evolves.ite ?_ ?_
    · exact h
    · split
      · extract_lets +onlyGivenNames y2
        extract_lets +onlyGivenNames y3
        refine mapCommit_ev _ _ (hm.of rfl) ?_
        unfold y3
        refine rewriteCl_ev _ _ _ _ (hm.of rfl) ?_
        dsimp only
        unfold y1
        refine Evolves.modArm (hm.bit rfl) rfl ?_
        exact h
      · extract_lets +onlyGivenNames y4
        extract_lets +onlyGivenNames y5
        refine mapCommit_ev _ _ (hm.of rfl) ?_
        unfold y5
        refine rewriteCl_ev _ _ _ _ (hm.of rfl) ?_
        dsimp only
        unfold y1
        refine Evolves.modArm (hm.bit rfl) rfl ?_
        exact h
      · refine loseRow_ev _ _ _ _ _ (hm.of rfl) ?_
        unfold y1
        refine Evolves.modArm (hm.bit rfl) rfl ?_
        exact h
      · exact h

theorem zeroOne_ev (x1 x2 x3 x4 x5 : _) (hm : Sub 0x470000020004000 M) (h : Evolves M P a s) :
    Evolves M P a (zeroOne x1 x2 x3 x4 x5 s) := by
  unfold zeroOne
  extract_lets +onlyGivenNames y1
  refine Evolves.ite ?_ ?_
  · unfold y1
    refine Evolves.modArm (hm.bit rfl) rfl ?_
    exact h
  · refine Evolves.ite ?_ ?_
    · exact h
    · extract_lets +onlyGivenNames y2
      extract_lets +onlyGivenNames y3
      refine mapCommit_ev _ _ (hm.of rfl) ?_
      unfold y3
      refine rewriteCl_ev _ _ _ _ (hm.of rfl) ?_
      dsimp only
      unfold y1
      refine Evolves.modArm (hm.bit rfl) rfl ?_
      exact h

theorem todoLast_ev (hm : Sub 0x20000000000000 M) (h : Evolves M P a s) :
    Evolves M P a (todoLast s) := by
  unfold todoLast
  refine Evolves.modArm (hm.bit rfl) rfl ?_
  exact h

theorem clusterRepair_ev (x1 : _) (hm : Sub 0x471000030004000 M) (h : Evolves M P a s) :
    Evolves M P a (clusterRepair x1 s) := by
  unfold clusterRepair
  split
  · exact h
  · extract_lets u t
    have hu : Evolves M P a u := mediaTake_ev _ (hm.of rfl) h
    have ht : Evolves M P a t := by
      unfold t
      split
      · exact repairOne_ev _ _ _ _ _ (hm.of rfl) hu
      · exact zeroOne_ev _ _ _ _ _ (hm.of rfl) hu
      · exact mapCommit_ev _ _ (hm.of rfl) (encodeRow_ev _ _ _ _ _ (hm.of rfl) hu)
    exact Evolves.ite (todoLast_ev (hm.of rfl) ht) ht

theorem scrubRow_ev (x1 x2 x3 x4 : _) (hm : Sub 0x471000030004000 M) (h : Evolves M P a s) :
    Evolves M P a (scrubRow x1 x2 x3 x4 s) := by
  unfold scrubRow
  extract_lets +onlyGivenNames y1
  extract_lets +onlyGivenNames y2
  extract_lets +onlyGivenNames y3
  refine Evolves.ite ?_ ?_
  · refine Evolves.ite ?_ ?_
    · refine loseRow_ev _ _ _ _ _ (hm.of rfl) ?_
      exact h
    · refine Evolves.foldl _ (fun s4 x5 h6 => ?_) ?_
      · refine addTodo_ev _ (hm.of rfl) ?_
        exact h6
      · exact h
  · refine Evolves.ite ?_ ?_
    · exact h
    · extract_lets +onlyGivenNames y7
      extract_lets +onlyGivenNames y8
      refine Evolves.ite ?_ ?_
      · exact h
      · extract_lets +onlyGivenNames y9
        refine State.logEvent_ev _ _ (hm.of rfl) ?_
        refine mapCommit_ev _ _ (hm.of rfl) ?_
        unfold y9
        refine Evolves.foldl_fst _ (fun z10 x11 h12 => ?_) ?_
        · extract_lets +onlyGivenNames y13
          refine rewriteCl_ev _ _ _ _ (hm.of rfl) ?_
          exact h12
        · dsimp only
          exact h

theorem scrubOp_ev (x1 x2 : _) (hm : Sub 0x471000030004000 M) (h : Evolves M P a s) :
    Evolves M P a (scrubOp x1 x2 s) := by
  unfold scrubOp
  extract_lets +onlyGivenNames y1
  extract_lets +onlyGivenNames y2
  have h3 : Evolves M P a y2 := by
    unfold y2
    refine mediaTake_ev _ (hm.of rfl) ?_
    refine State.modDisc_ev _ _ (hm.of rfl) ?_
    exact h
  clear_value y2
  refine Evolves.foldl _ (fun s4 x5 h6 => ?_) ?_
  · refine Evolves.foldl _ (fun s7 x8 h9 => ?_) ?_
    · refine Evolves.foldl _ (fun s10 x11 h12 => ?_) ?_
      · refine scrubRow_ev _ _ _ _ (hm.of rfl) ?_
        exact h12
      · exact h9
    · exact h6
  · exact h3

theorem graceExpire_ev (x1 : _) (hm : Sub 0x471000030004000 M) (h : Evolves M P a s) :
    Evolves M P a (graceExpire x1 s) := by
  unfold graceExpire
  refine Evolves.ite ?_ ?_
  · exact h
  · refine Evolves.foldl _ (fun s1 x2 h3 => ?_) ?_
    · refine discFailOp_ev _ _ _ (hm.of rfl) ?_
      exact h3
    · exact h

theorem execRebuildTargetChoose_next (x1 x2 : _) (hm : Sub 0x471000030004000 M) :
    ∃ t, (execRebuildTargetChoose x1 x2 s) = .next t ∧ Evolves M P s t := by
  refine ⟨_, rfl, ?_⟩
  have h := Evolves.refl M P s
  refine targetChoose_ev _ _ (hm.of rfl) ?_
  exact h

theorem execRebuildBatchDone_next (x1 x2 x3 : _) (hm : Sub 0x471000030004000 M) :
    ∃ t, (execRebuildBatchDone x1 x2 x3 s) = .next t ∧ Evolves M P s t := by
  refine ⟨_, rfl, ?_⟩
  have h := Evolves.refl M P s
  refine rebuildBatch_ev _ _ _ (hm.of rfl) ?_
  exact h

theorem execClusterRepair_next (x1 : _) (hm : Sub 0x471000030004000 M) :
    ∃ t, (execClusterRepair x1 s) = .next t ∧ Evolves M P s t := by
  refine ⟨_, rfl, ?_⟩
  have h := Evolves.refl M P s
  refine clusterRepair_ev _ (hm.of rfl) ?_
  exact h

theorem execScrub_next (x1 x2 : _) (hm : Sub 0x471000030004000 M) :
    ∃ t, (execScrub x1 x2 s) = .next t ∧ Evolves M P s t := by
  refine ⟨_, rfl, ?_⟩
  have h := Evolves.refl M P s
  refine scrubOp_ev _ _ (hm.of rfl) ?_
  exact h

theorem execEngGraceExpire_next (x1 : _) (hm : Sub 0x471000030004000 M) :
    ∃ t, (execEngGraceExpire x1 s) = .next t ∧ Evolves M P s t := by
  refine ⟨_, rfl, ?_⟩
  have h := Evolves.refl M P s
  refine graceExpire_ev _ (hm.of rfl) ?_
  exact h

end Sys2Proof.Machine
end

