-- ==== Sys2Proof/Laws/WriteOnce.lean ====
section
/-! SUPPORT. One lemma per operation of Machine/WriteOnce.lean: the parts of the state it can touch and what it needs of the engines (`Evolves`). -/

namespace Sys2Proof.Machine

variable {M : Nat} {P : Nat → Prop} {a s : State}

theorem modGroup_ev (x1 x2 : _) (hm : Sub 0x20000000000000 M) (h : Evolves M P a s) :
    Evolves M P a (modGroup x1 x2 s) := by
  unfold modGroup
  refine Evolves.modArm (hm.bit rfl) rfl ?_
  exact h

theorem imageWrite_ev (x1 x2 x3 : _) (hm : Sub 0x47d0148300060b0 M) (hall : ∀ n, P n) (h : Evolves M P a s) :
    Evolves M P a (imageWrite x1 x2 x3 s) := by
  unfold imageWrite
  extract_lets +onlyGivenNames y1
  have h2 : Evolves M P a y1 := by
    unfold y1
    refine Evolves.ite ?_ ?_
    · refine askRun_ev _ _ (hm.of rfl) hall ?_
      exact h
    · exact h
  clear_value y1
  extract_lets +onlyGivenNames y3
  split
  · extract_lets +onlyGivenNames y4
    extract_lets +onlyGivenNames y5
    extract_lets +onlyGivenNames y6
    extract_lets +onlyGivenNames y7
    have h8 : Evolves M P a y7 := by
      unfold y7
      refine Evolves.ite ?_ ?_
      · unfold y5
        refine writeStripe_ev _ _ _ _ (hm.of rfl) ?_
        dsimp only
        exact h2
      · refine mapCommit_ev _ _ (hm.of rfl) ?_
        unfold y5
        refine writeStripe_ev _ _ _ _ (hm.of rfl) ?_
        dsimp only
        exact h2
    clear_value y7
    extract_lets +onlyGivenNames y9
    refine fillNote_ev _ _ (hm.of rfl) ?_
    refine modGroup_ev _ _ (hm.of rfl) ?_
    exact h8
  · exact h2

theorem imagesWrite_ev (x1 x2 x3 : _) (hm : Sub 0x47d0148300060b0 M) (hall : ∀ n, P n) (h : Evolves M P a s) :
    Evolves M P a (imagesWrite x1 x2 x3 s) := by
  unfold imagesWrite
  split
  · exact h
  · refine Evolves.foldl _ (fun s1 x2 h3 => ?_) ?_
    · refine imageWrite_ev _ _ _ (hm.of rfl) hall ?_
      exact h3
    · exact h

theorem groupClose_ev (x1 x2 : _) (hm : Sub 0x47d0148300060b0 M) (hall : ∀ n, P n) (h : Evolves M P a s) :
    Evolves M P a (groupClose x1 x2 s) := by
  unfold groupClose
  refine imagesWrite_ev _ _ _ (hm.of rfl) hall ?_
  refine modGroup_ev _ _ (hm.of rfl) ?_
  exact h

theorem woJoin_ev (x1 x2 x3 x4 x5 : _) (hm : Sub 0x47d0148300060b0 M) (hall : ∀ n, P n) (h : Evolves M P a s) :
    Evolves M P a (woJoin x1 x2 x3 x4 x5 s) := by
  unfold woJoin
  extract_lets +onlyGivenNames y1
  have h2 : Evolves M P a y1 := by
    unfold y1
    refine Evolves.ite ?_ ?_
    · exact h
    · refine Evolves.modArm (hm.bit rfl) rfl ?_
      exact h
  clear_value y1
  extract_lets +onlyGivenNames y3
  have h4 : Evolves M P a y3 := by
    unfold y3
    refine modGroup_ev _ _ (hm.of rfl) ?_
    exact h2
  clear_value y3
  extract_lets +onlyGivenNames y5
  have h6 : Evolves M P a y5 := by
    unfold y5
    refine imagesWrite_ev _ _ _ (hm.of rfl) hall ?_
    exact h4
  clear_value y5
  split
  · exact h6
  · refine Evolves.ite ?_ ?_
    · refine groupClose_ev _ _ (hm.of rfl) hall ?_
      exact h6
    · exact h6

theorem groupCommit_ev (x1 : _) (hm : Sub 0x470000020004000 M) (h : Evolves M P a s) :
    Evolves M P a (groupCommit x1 s) := by
  unfold groupCommit
  split
  · exact h
  · refine Evolves.ite ?_ ?_
    · exact h
    · extract_lets +onlyGivenNames y1
      extract_lets +onlyGivenNames y2
      extract_lets +onlyGivenNames y3
      extract_lets +onlyGivenNames y4
      have h5 : Evolves M P a y4 := by
        unfold y4
        refine Evolves.modArm (hm.bit rfl) rfl ?_
        exact h
      clear_value y4
      extract_lets +onlyGivenNames y6
      extract_lets +onlyGivenNames y7
      extract_lets +onlyGivenNames y8
      have h9 : Evolves M P a y8 := by
        unfold y8
        refine hdrAdd_ev _ _ (hm.of rfl) ?_
        refine takeBody_ev _ _ (hm.of rfl) ?_
        refine Evolves.modJrn (hm.bit rfl) ?_
        exact h5
      clear_value y8
      extract_lets +onlyGivenNames y10
      have h11 : Evolves M P a y10 := by
        unfold y10
        refine Evolves.ite ?_ ?_
        · refine Evolves.modArm (hm.bit rfl) rfl ?_
          exact h9
        · refine sealAsk_ev _ _ _ (hm.of rfl) ?_
          exact h5
      clear_value y10
      extract_lets +onlyGivenNames y12
      have h13 : Evolves M P a y12 := by
        unfold y12
        refine lossWrite_ev _ (hm.of rfl) ?_
        exact h11
      clear_value y12
      refine Evolves.ite ?_ ?_
      · exact h13
      · refine sealAsk_ev _ _ _ (hm.of rfl) ?_
        exact h13

theorem headerBatch_ev (x1 x2 : _) (hm : Sub 0x470000020004000 M) (h : Evolves M P a s) :
    Evolves M P a (headerBatch x1 x2 s) := by
  unfold headerBatch
  extract_lets +onlyGivenNames y1
  extract_lets +onlyGivenNames y2
  refine Evolves.ite ?_ ?_
  · exact h
  · refine Evolves.ite ?_ ?_
    · refine Evolves.modJrn (hm.bit rfl) ?_
      exact h
    · extract_lets +onlyGivenNames y3
      extract_lets +onlyGivenNames y4
      extract_lets +onlyGivenNames y5
      extract_lets +onlyGivenNames y6
      extract_lets +onlyGivenNames y7
      extract_lets +onlyGivenNames y8
      extract_lets +onlyGivenNames y9
      extract_lets +onlyGivenNames y10
      extract_lets +onlyGivenNames y11
      have h12 : Evolves M P a y11 := by
        unfold y11
        refine Evolves.modArm (hm.bit rfl) rfl ?_
        exact h
      clear_value y11
      extract_lets +onlyGivenNames y13
      have h14 : Evolves M P a y13 := by
        unfold y13
        refine mapCommit_ev _ _ (hm.of rfl) ?_
        exact h12
      clear_value y13
      refine Evolves.ite ?_ ?_
      · refine Evolves.ite ?_ ?_
        · exact h14
        · refine Evolves.modJrn (hm.bit rfl) ?_
          exact h14
      · extract_lets +onlyGivenNames y15
        have h16 : Evolves M P a y15 := by
          unfold y15
          refine Evolves.modJrn (hm.bit rfl) ?_
          exact h14
        clear_value y15
        extract_lets +onlyGivenNames y17
        extract_lets +onlyGivenNames y18
        extract_lets +onlyGivenNames y19
        extract_lets +onlyGivenNames y20
        have h21 : Evolves M P a y20 := by
          unfold y20
          refine Evolves.modArm (hm.bit rfl) rfl ?_
          exact h16
        clear_value y20
        refine retireAll_ev (hm.of rfl) ?_
        refine Evolves.foldl _ (fun s22 x23 h24 => ?_) ?_
        · refine Evolves.foldl _ (fun s25 x26 h27 => ?_) ?_
          · refine finishCommitted_ev _ _ (hm.of rfl) ?_
            exact h27
          · exact h24
        · exact h21

theorem mapRebuild_ev (hm : Sub 0x470000030004000 M) (h : Evolves M P a s) :
    Evolves M P a (mapRebuild s) := by
  unfold mapRebuild
  refine Evolves.ite ?_ ?_
  · exact h
  · extract_lets +onlyGivenNames y1
    extract_lets +onlyGivenNames y2
    extract_lets +onlyGivenNames y3
    extract_lets +onlyGivenNames y4
    extract_lets +onlyGivenNames y5
    extract_lets +onlyGivenNames y6
    extract_lets +onlyGivenNames y7
    extract_lets +onlyGivenNames y8
    extract_lets +onlyGivenNames y9
    extract_lets +onlyGivenNames y10
    extract_lets +onlyGivenNames y11
    extract_lets +onlyGivenNames y12
    extract_lets +onlyGivenNames y13
    extract_lets +onlyGivenNames y14
    extract_lets +onlyGivenNames y15
    extract_lets +onlyGivenNames y16
    have h17 : Evolves M P a y16 := by
      unfold y16
      refine Evolves.modArm (hm.bit rfl) rfl ?_
      exact h
    clear_value y16
    extract_lets +onlyGivenNames y18
    have h19 : Evolves M P a y18 := by
      unfold y18
      refine Evolves.foldl _ (fun s20 x21 h22 => ?_) ?_
      · refine takeCkpt_ev _ _ _ (hm.of rfl) ?_
        exact h22
      · exact h17
    clear_value y18
    extract_lets +onlyGivenNames y23
    have h24 : Evolves M P a y23 := by
      unfold y23
      refine Evolves.modJrn (hm.bit rfl) ?_
      exact h19
    clear_value y23
    refine Evolves.putG .cqi rfl (hm.bit rfl) rfl ?_
    refine Evolves.putG .journal rfl (hm.bit rfl) rfl ?_
    refine sealAsk_ev _ _ _ (hm.of rfl) ?_
    exact h24

theorem execGroupCommit_next (x1 : _) (hm : Sub 0x470000020004000 M) :
    ∃ t, (execGroupCommit x1 s) = .next t ∧ Evolves M P s t := by
  refine ⟨_, rfl, ?_⟩
  have h := Evolves.refl M P s
  refine groupCommit_ev _ (hm.of rfl) ?_
  exact h

theorem execHeaderBatchWrite_next (x1 x2 : _) (hm : Sub 0x470000020004000 M) :
    ∃ t, (execHeaderBatchWrite x1 x2 s) = .next t ∧ Evolves M P s t := by
  refine ⟨_, rfl, ?_⟩
  have h := Evolves.refl M P s
  refine headerBatch_ev _ _ (hm.of rfl) ?_
  exact h

theorem execMapRebuild_next (hm : Sub 0x470000030004000 M) :
    ∃ t, (execMapRebuild s) = .next t ∧ Evolves M P s t := by
  refine ⟨_, rfl, ?_⟩
  have h := Evolves.refl M P s
  refine mapRebuild_ev (hm.of rfl) ?_
  exact h

end Sys2Proof.Machine
end

