-- ==== Sys2Proof/Laws/Rewrite.lean ====
section
/-! SUPPORT. One lemma per operation of Machine/Rewrite.lean: the parts of the state it can touch and what it needs of the engines (`Evolves`). -/

namespace Sys2Proof.Machine

variable {M : Nat} {P : Nat → Prop} {a s : State}

theorem initZero_ev (x1 x2 : _) (hm : Sub 0x471000030004000 M) (h : Evolves M P a s) :
    Evolves M P a (initZero x1 x2 s) := by
  unfold initZero
  extract_lets +onlyGivenNames y1
  extract_lets +onlyGivenNames y2
  refine Evolves.ite ?_ ?_
  · exact h
  · extract_lets +onlyGivenNames y3
    have h4 : Evolves M P a y3 := by
      unfold y3
      refine mediaTake_ev _ (hm.of rfl) ?_
      exact h
    clear_value y3
    extract_lets +onlyGivenNames y5
    refine sealAsk_ev _ _ _ (hm.of rfl) ?_
    refine mapCommit_ev _ _ (hm.of rfl) ?_
    unfold y5
    refine writeStripe_ev _ _ _ _ (hm.of rfl) ?_
    dsimp only
    exact h4

theorem destagePut_ev {z : _} (x1 x2 x3 x4 x5 x6 : _) (hm : Sub 0x20000000000000 M) (h : Evolves M P a z.1) :
    Evolves M P a (destagePut x1 x2 x3 x4 x5 x6 z).1 := by
  unfold destagePut
  refine Evolves.fst_ite ?_ ?_
  · refine writeMember_ev _ _ _ _ _ _ (hm.of rfl) ?_
    exact h
  · exact h

theorem destageDelta_ev (x1 x2 x3 x4 x5 x6 x7 : _) (hm : Sub 0x470000020004000 M) (h : Evolves M P a s) :
    Evolves M P a (destageDelta x1 x2 x3 x4 x5 x6 x7 s) := by
  unfold destageDelta
  extract_lets +onlyGivenNames y1
  extract_lets +onlyGivenNames y2
  refine mapCommit_ev _ _ (hm.of rfl) ?_
  unfold y2
  refine Evolves.foldl_fst _ (fun z3 x4 h5 => ?_) ?_
  · refine Evolves.fst_ite ?_ ?_
    · exact h5
    · refine writeMember_ev _ _ _ _ _ _ (hm.of rfl) ?_
      exact h5
  · refine destagePut_ev _ _ _ _ _ _ (hm.of rfl) ?_
    dsimp only
    exact h

theorem destageRow_ev (x1 x2 x3 x4 x5 x6 x7 : _) (hm : Sub 0x470000020004000 M) (h : Evolves M P a s) :
    Evolves M P a (destageRow x1 x2 x3 x4 x5 x6 x7 s) := by
  unfold destageRow
  extract_lets +onlyGivenNames y1
  split
  · extract_lets +onlyGivenNames y2
    refine mapCommit_ev _ _ (hm.of rfl) ?_
    refine Evolves.modArm (hm.bit rfl) rfl ?_
    unfold y2
    refine writeParity_ev _ _ _ _ _ _ (hm.of rfl) ?_
    unfold y1
    refine destagePut_ev _ _ _ _ _ _ (hm.of rfl) ?_
    dsimp only
    exact h
  · refine mapCommit_ev _ _ (hm.of rfl) ?_
    refine markRow_ev _ _ _ (hm.of rfl) ?_
    unfold y1
    refine destagePut_ev _ _ _ _ _ _ (hm.of rfl) ?_
    dsimp only
    exact h

theorem destageWrite_ev (x1 x2 x3 x4 x5 x6 : _) (hm : Sub 0x470000020004000 M)
    (h : Evolves M P a s) : Evolves M P a (destageWrite x1 x2 x3 x4 x5 x6 s) := by
  unfold destageWrite
  dsimp only
  split
  · exact Evolves.ite (destageDelta_ev _ _ _ _ _ _ _ (hm.of rfl) h) (destageRow_ev _ _ _ _ _ _ _ (hm.of rfl) h)
  all_goals exact destageRow_ev _ _ _ _ _ _ _ (hm.of rfl) h

theorem destageOp_ev (x1 x2 x3 x4 x5 : _) (hm : Sub 0x471000030004000 M) (h : Evolves M P a s) :
    Evolves M P a (destageOp x1 x2 x3 x4 x5 s) := by
  unfold destageOp
  extract_lets +onlyGivenNames y1
  extract_lets +onlyGivenNames y2
  extract_lets +onlyGivenNames y3
  refine Evolves.ite ?_ ?_
  · refine Evolves.modArm (hm.bit rfl) rfl ?_
    exact h
  · refine Evolves.ite ?_ ?_
    · exact h
    · refine Evolves.ite ?_ ?_
      · refine Evolves.ite ?_ ?_
        · exact h
        · refine Evolves.modArm (hm.bit rfl) rfl ?_
          exact h
      · refine Evolves.ite ?_ ?_
        · exact h
        · extract_lets +onlyGivenNames y4
          have h5 : Evolves M P a y4 := by
            unfold y4
            refine Evolves.modArm (hm.bit rfl) rfl ?_
            exact h
          clear_value y4
          extract_lets +onlyGivenNames y6
          have h7 : Evolves M P a y6 := by
            unfold y6
            refine Evolves.ite ?_ ?_
            · exact h5
            · refine sealAsk_ev _ _ _ (hm.of rfl) ?_
              exact h5
          clear_value y6
          refine Evolves.ite ?_ ?_
          · exact h7
          · extract_lets +onlyGivenNames y8
            have h9 : Evolves M P a y8 := by
              unfold y8
              refine mediaTake_ev _ (hm.of rfl) ?_
              exact h7
            clear_value y8
            extract_lets +onlyGivenNames y10
            have h11 : Evolves M P a y10 := by
              unfold y10
              refine Evolves.ite ?_ ?_
              · refine loseRow_ev _ _ _ _ _ (hm.of rfl) ?_
                exact h9
              · exact h9
            clear_value y10
            extract_lets +onlyGivenNames y12
            have h13 : Evolves M P a y12 := by
              unfold y12
              refine destageWrite_ev _ _ _ _ _ _ (hm.of rfl) ?_
              exact h11
            clear_value y12
            extract_lets +onlyGivenNames y14
            have h15 : Evolves M P a y14 := by
              unfold y14
              refine lossWrite_ev _ (hm.of rfl) ?_
              exact h13
            clear_value y14
            extract_lets +onlyGivenNames y16
            have h17 : Evolves M P a y16 := by
              unfold y16
              refine Evolves.modArm (hm.bit rfl) rfl ?_
              exact h15
            clear_value y16
            extract_lets +onlyGivenNames y18
            extract_lets +onlyGivenNames y19
            have h20 : Evolves M P a y19 := by
              unfold y19
              refine Evolves.ite ?_ ?_
              · exact h17
              · refine sealAsk_ev _ _ _ (hm.of rfl) ?_
                exact h17
            clear_value y19
            refine retireSeal_ev (hm.of rfl) ?_
            exact h20

theorem lockGrant_ev (hm : Sub 0x20000000000000 M) (h : Evolves M P a s) :
    Evolves M P a (lockGrant s) := by
  unfold lockGrant
  split
  · refine Evolves.modArm (hm.bit rfl) rfl ?_
    exact h
  · exact h

theorem resyncRow_ev (x1 x2 x3 x4 x5 : _) (hm : Sub 0x471000030004000 M) (h : Evolves M P a s) :
    Evolves M P a (resyncRow x1 x2 x3 x4 x5 s) := by
  unfold resyncRow
  extract_lets +onlyGivenNames y1
  extract_lets +onlyGivenNames y2
  extract_lets +onlyGivenNames y3
  extract_lets +onlyGivenNames y4
  refine Evolves.ite ?_ ?_
  · extract_lets +onlyGivenNames y5
    refine mapCommit_ev _ _ (hm.of rfl) ?_
    unfold y5
    refine encodeRow_ev _ _ _ _ _ (hm.of rfl) ?_
    dsimp only
    exact h
  · extract_lets +onlyGivenNames y6
    extract_lets +onlyGivenNames y7
    extract_lets +onlyGivenNames y8
    extract_lets +onlyGivenNames y9
    extract_lets +onlyGivenNames y10
    extract_lets +onlyGivenNames y11
    have h12 : Evolves M P a y11 := by
      unfold y11
      refine Evolves.foldl _ (fun s13 x14 h15 => ?_) ?_
      · refine Evolves.ite ?_ ?_
        · exact h15
        · refine addTodo_ev _ (hm.of rfl) ?_
          refine addLoss_ev _ _ _ _ _ _ _ (hm.of rfl) ?_
          exact h15
      · exact h
    clear_value y11
    extract_lets +onlyGivenNames y16
    have h17 : Evolves M P a y16 := by
      unfold y16
      refine Evolves.ite ?_ ?_
      · refine addLoss_ev _ _ _ _ _ _ _ (hm.of rfl) ?_
        exact h12
      · exact h12
    clear_value y16
    extract_lets +onlyGivenNames y18
    extract_lets +onlyGivenNames y19
    extract_lets +onlyGivenNames y20
    extract_lets +onlyGivenNames y21
    extract_lets +onlyGivenNames y22
    have h23 : Evolves M P a y22 := by
      unfold y22
      refine mapCommit_ev _ _ (hm.of rfl) ?_
      unfold y21
      refine writeParity_ev _ _ _ _ _ _ (hm.of rfl) ?_
      unfold y20
      refine Evolves.fst_ite ?_ ?_
      · refine writeMember_ev _ _ _ _ _ _ (hm.of rfl) ?_
        dsimp only
        exact h17
      · dsimp only
        exact h17
    clear_value y22
    refine Evolves.modArm (hm.bit rfl) rfl ?_
    exact h23

theorem resyncOp_ev (x1 : _) (hm : Sub 0x471000030004000 M) (h : Evolves M P a s) :
    Evolves M P a (resyncOp x1 s) := by
  unfold resyncOp
  split
  · exact h
  · extract_lets +onlyGivenNames y1
    have h2 : Evolves M P a y1 := by
      unfold y1
      refine mediaTake_ev _ (hm.of rfl) ?_
      exact h
    clear_value y1
    extract_lets +onlyGivenNames y3
    extract_lets +onlyGivenNames y4
    have h5 : Evolves M P a y4 := by
      unfold y4
      refine Evolves.foldl _ (fun s6 x7 h8 => ?_) ?_
      · refine Evolves.foldl _ (fun s9 x10 h11 => ?_) ?_
        · refine resyncRow_ev _ _ _ _ _ (hm.of rfl) ?_
          exact h11
        · exact h8
      · exact h2
    clear_value y4
    extract_lets +onlyGivenNames y12
    have h13 : Evolves M P a y12 := by
      unfold y12
      refine Evolves.modArm (hm.bit rfl) rfl ?_
      exact h5
    clear_value y12
    refine retireSeal_ev (hm.of rfl) ?_
    refine sealAsk_ev _ _ _ (hm.of rfl) ?_
    exact h13

theorem reshapeStripe_ev (x1 x2 x3 : _) {z : Option (State × Tx × List LossEnt)}
    (hm : Sub 0x20000000000000 M) (h : ∀ y ∈ z, Evolves M P a y.1) : ∀ y ∈ reshapeStripe x1 x2 x3 z, Evolves M P a y.1 := by
  intro y hy
  unfold reshapeStripe at hy
  split at hy
  · cases hy
  · next s t ls =>
    have hs : Evolves M P a s := h _ rfl
    split at hy
    · exact h _ hy
    · extract_lets used next at hy
      split at hy
      · cases hy
        exact fillNote_ev _ _ (hm.of rfl) (writeStripe_ev _ _ _ _ (hm.of rfl) hs)
      · cases hy

theorem initRaise_ev (x1 : _) (hm : Sub 0x20000000000000 M) (h : Evolves M P a s) :
    Evolves M P a (initRaise x1 s) := by
  unfold initRaise
  refine Evolves.modArm (hm.bit rfl) rfl ?_
  exact h

theorem reshapeEnd_ev (x1 : _) (hm : Sub 0x471000030004000 M) (h : Evolves M P a s) :
    Evolves M P a (reshapeEnd x1 s) := by
  unfold reshapeEnd
  extract_lets +onlyGivenNames y1
  extract_lets +onlyGivenNames y2
  extract_lets +onlyGivenNames y3
  extract_lets +onlyGivenNames y4
  extract_lets +onlyGivenNames y5
  extract_lets +onlyGivenNames y6
  have h7 : Evolves M P a y6 := by
    unfold y6
    refine mapCommit_ev _ _ (hm.of rfl) ?_
    refine Evolves.modArm (hm.bit rfl) rfl ?_
    exact h
  clear_value y6
  refine startRebuilds_ev (hm.of rfl) ?_
  refine State.logEvent_ev _ _ (hm.of rfl) ?_
  exact h7

theorem reshapeFold_ev (m : MediaEvents) (r : Reshape) (vs : Nat) (l : List Nat)
    {z : Option (State × Tx × List LossEnt)} (hm : Sub 0x20000000000000 M) (h : ∀ y ∈ z, Evolves M P a y.1) :
    ∀ y ∈ l.foldl (fun z i => reshapeStripe m r (vs + i) z) z, Evolves M P a y.1 := by
  induction l generalizing z with
  | nil => exact h
  | cons i l ih => exact ih (reshapeStripe_ev _ _ _ (hm.of rfl) h)

theorem reshapeCopy_ev (x1 x2 : _) (hm : Sub 0x47d0148300060b0 M) (hall : ∀ n, P n) (h : Evolves M P a s) :
    Evolves M P a (reshapeCopy x1 x2 s) := by
  unfold reshapeCopy
  split
  · exact h
  · next r _ =>
    extract_lets cap s1 n vs0 free s2
    refine Evolves.ite h (Evolves.ite ?_ (reshapeEnd_ev _ (hm.of rfl) h))
    have h1 : Evolves M P a s1 := mediaTake_ev _ (hm.of rfl) h
    have h2 : Evolves M P a s2 := Evolves.ite (askRun_ev _ _ (hm.of rfl) hall h1) h1
    split
    · exact h2
    · next u t ls e =>
      have hu : Evolves M P a u := reshapeFold_ev x2 r vs0 (List.range n) (z := some (s2, txStart s2, [])) (hm.of rfl)
        (fun y hy => by cases hy; exact h2) _ e
      extract_lets s3 s4 live s5 b s6
      have h3 : Evolves M P a s3 := initRaise_ev _ (hm.of rfl) (mapCommit_ev _ _ (hm.of rfl) hu)
      have h4 : Evolves M P a s4 := Evolves.ite h3 (sealAsk_ev _ _ _ (hm.of rfl) h3)
      have h5 : Evolves M P a s5 := h4.modArm (hm.bit rfl) rfl
      have h6 : Evolves M P a s6 := by
        refine Evolves.ite ?_ h5
        split
        · exact sealAsk_ev _ _ _ (hm.of rfl) h5
        · exact h5
      exact Evolves.ite (reshapeEnd_ev _ (hm.of rfl) h6) h6

theorem execRunInitZero_next (x1 x2 : _) (hm : Sub 0x471000030004000 M) :
    ∃ t, (execRunInitZero x1 x2 s) = .next t ∧ Evolves M P s t := by
  refine ⟨_, rfl, ?_⟩
  have h := Evolves.refl M P s
  refine initZero_ev _ _ (hm.of rfl) ?_
  exact h

theorem execDestage_next (x1 x2 x3 x4 x5 : _) (hm : Sub 0x471000030004000 M) :
    ∃ t, (execDestage x1 x2 x3 x4 x5 s) = .next t ∧ Evolves M P s t := by
  refine ⟨_, rfl, ?_⟩
  have h := Evolves.refl M P s
  refine destageOp_ev _ _ _ _ _ (hm.of rfl) ?_
  exact h

theorem execRowLockGrant_next (hm : Sub 0x20000000000000 M) :
    ∃ t, (execRowLockGrant s) = .next t ∧ Evolves M P s t := by
  refine ⟨_, rfl, ?_⟩
  have h := Evolves.refl M P s
  refine lockGrant_ev (hm.of rfl) ?_
  exact h

theorem execResync_next (x1 : _) (hm : Sub 0x471000030004000 M) :
    ∃ t, (execResync x1 s) = .next t ∧ Evolves M P s t := by
  refine ⟨_, rfl, ?_⟩
  have h := Evolves.refl M P s
  refine resyncOp_ev _ (hm.of rfl) ?_
  exact h

end Sys2Proof.Machine
end

