-- ==== Sys2Proof/Laws/Armature.lean ====
section
/-! SUPPORT. One lemma per operation of Machine/Armature.lean: the parts of the state it can touch and what it needs of the engines (`Evolves`). -/

namespace Sys2Proof.Machine

variable {M : Nat} {P : Nat → Prop} {a s : State}

theorem rung7_ev (x1 x2 : _) (hm : Sub 0x471000030004000 M) (h : Evolves M P a s) :
    Evolves M P a (rung7 x1 x2 s) := by
  unfold rung7
  split
  · exact h
  · extract_lets +onlyGivenNames y1
    have h2 : Evolves M P a y1 := by
      unfold y1
      refine handOff_ev _ (hm.of rfl) ?_
      exact h
    clear_value y1
    split
    · exact h2
    · extract_lets +onlyGivenNames y3
      refine Evolves.ite ?_ ?_
      · refine loseRow_ev _ _ _ _ _ (hm.of rfl) ?_
        exact h2
      · refine Evolves.ite ?_ ?_
        · exact h2
        · refine addTodo_ev _ (hm.of rfl) ?_
          exact h2

theorem engineGone_ev (x1 : _) (hm : Sub 0x461000010000000 M) (h : Evolves M P a s) :
    Evolves M P a (engineGone x1 s) := by
  unfold engineGone
  extract_lets +onlyGivenNames y1
  have h2 : Evolves M P a y1 := by
    unfold y1
    refine State.logEvent_ev _ _ (hm.of rfl) ?_
    exact h
  clear_value y1
  extract_lets +onlyGivenNames y3
  extract_lets +onlyGivenNames y4
  refine Evolves.modArm (hm.bit rfl) rfl ?_
  exact h2

theorem pcaUsed_ev (x1 x2 : _) (hm : Sub 0x470000020004000 M) (h : Evolves M P a s) :
    Evolves M P a (pcaUsed x1 x2 s) := by
  unfold pcaUsed
  split
  · extract_lets +onlyGivenNames y1
    extract_lets +onlyGivenNames y2
    refine mapCommit_ev _ _ (hm.of rfl) ?_
    exact h
  · exact h

theorem armNote_ev (x2 : _) (hm : Sub 0x471000030004000 M) (h : Evolves M P a s) :
    Evolves M P a (armNote s x2) := by
  unfold armNote
  split
  · refine rung7_ev _ _ (hm.of rfl) ?_
    exact h
  · split
    · refine Evolves.ite ?_ ?_
      · exact h
      · refine patinaLeft_ev _ _ (hm.of rfl) ?_
        exact h
    · exact h
  · split
    · refine patinaRead_ev _ _ _ (hm.of rfl) ?_
      exact h
    · exact h
  · exact h
  · refine engineGone_ev _ (hm.of rfl) ?_
    exact h
  · refine pcaUsed_ev _ _ (hm.of rfl) ?_
    exact h
  · split
    · refine Evolves.ite ?_ ?_
      · extract_lets +onlyGivenNames y1
        have h2 : Evolves M P a y1 := by
          unfold y1
          refine Evolves.foldl _ (fun s3 x4 h5 => ?_) ?_
          · refine secondFailure_ev _ _ (hm.of rfl) ?_
            exact h5
          · exact h
        clear_value y1
        refine startRebuilds_ev (hm.of rfl) ?_
        refine State.logEvent_ev _ _ (hm.of rfl) ?_
        refine setDiscState_ev _ _ _ (hm.of rfl) ?_
        exact h2
      · exact h
    · exact h

theorem armDrain_ev (hm : Sub 0x475000030004000 M) (h : Evolves M P a s) :
    Evolves M P a (armDrain s) := by
  unfold armDrain
  refine Evolves.ite ?_ ?_
  · exact h
  · refine Evolves.foldl _ (fun s1 x2 h3 => ?_) ?_
    · refine armNote_ev _ (hm.of rfl) ?_
      exact h3
    · refine Evolves.withNotes (hm.bit rfl) ?_
      exact h

theorem hourOp_ev (hm : Sub 0x471000030204000 M) (h : Evolves M P a s) :
    Evolves M P a (hourOp s) := by
  unfold hourOp
  extract_lets +onlyGivenNames y1
  have h2 : Evolves M P a y1 := by
    unfold y1
    refine Evolves.incG .power rfl (hm.bit rfl) rfl ?_
    exact h
  clear_value y1
  extract_lets +onlyGivenNames y3
  have h4 : Evolves M P a y3 := by
    unfold y3
    refine Evolves.modArm (hm.bit rfl) rfl ?_
    exact h2
  clear_value y3
  refine Evolves.ite ?_ ?_
  · exact h4
  · refine plinthCommit_ev _ _ (hm.of rfl) ?_
    exact h4

theorem agingOp_ev (hm : Sub 0x471000030004000 M) (h : Evolves M P a s) :
    Evolves M P a (agingOp s) := by
  unfold agingOp
  refine Evolves.ite ?_ ?_
  · exact h
  · extract_lets +onlyGivenNames y1
    have h2 : Evolves M P a y1 := by
      unfold y1
      refine Evolves.modArm (hm.bit rfl) rfl ?_
      exact h
    clear_value y1
    refine Evolves.foldl _ (fun s3 x4 h5 => ?_) ?_
    · extract_lets +onlyGivenNames y6
      have h7 : Evolves M P a y6 := by
        unfold y6
        refine State.modDisc_ev _ _ (hm.of rfl) ?_
        exact h5
      clear_value y6
      extract_lets +onlyGivenNames y8
      have h9 : Evolves M P a y8 := by
        unfold y8
        refine State.modDisc_ev _ _ (hm.of rfl) ?_
        exact h7
      clear_value y8
      refine patinaKeep_ev _ (hm.of rfl) ?_
      exact h9
    · exact h2

theorem recoverDisc_ev (x1 x2 : _) (hm : Sub 0x461000010000000 M) (h : Evolves M P a s) :
    Evolves M P a (recoverDisc x1 x2 s) := by
  unfold recoverDisc
  refine Evolves.ite ?_ ?_
  · exact h
  · split
    · refine State.modDisc_ev _ _ (hm.of rfl) ?_
      exact h
    · refine State.modDisc_ev _ _ (hm.of rfl) ?_
      exact h
    · refine State.logEvent_ev _ _ (hm.of rfl) ?_
      exact h

theorem execPoweredHour_next (hm : Sub 0x471000030204000 M) :
    ∃ t, (execPoweredHour s) = .next t ∧ Evolves M P s t := by
  refine ⟨_, rfl, ?_⟩
  have h := Evolves.refl M P s
  refine hourOp_ev (hm.of rfl) ?_
  exact h

theorem execAgingMark_next (hm : Sub 0x471000030004000 M) :
    ∃ t, (execAgingMark s) = .next t ∧ Evolves M P s t := by
  refine ⟨_, rfl, ?_⟩
  have h := Evolves.refl M P s
  refine agingOp_ev (hm.of rfl) ?_
  exact h

theorem execDiscRecovery_next (x1 x2 : _) (hm : Sub 0x461000010000000 M) :
    ∃ t, (execDiscRecovery x1 x2 s) = .next t ∧ Evolves M P s t := by
  refine ⟨_, rfl, ?_⟩
  have h := Evolves.refl M P s
  refine recoverDisc_ev _ _ (hm.of rfl) ?_
  exact h

theorem attemptGoOn_ev (x1 : _) (hm : Sub 0x40c436ec00803f6 M) (e1 : P x1.val) (h : Evolves M P a s) :
    Evolves M P a (attemptGoOn x1 s) := by
  unfold attemptGoOn
  extract_lets +onlyGivenNames y1
  extract_lets +onlyGivenNames y2
  have h3 : Evolves M P a y2 := by
    unfold y2
    refine attemptFollow_ev _ (hm.of rfl) e1 ?_
    exact h
  clear_value y2
  refine Evolves.ite ?_ ?_
  · refine jumpOp_ev _ _ _ (hm.of rfl) e1 ?_
    exact h3
  · exact h3

theorem execBpalloc_next (x1 x2 x3 x4 : _) (hm : Sub 0x4fd8148310060b0 M) (hall : ∀ n, P n) :
    ∃ t, (execBpalloc x1 x2 x3 x4 s) = .next t ∧ Evolves M P s t := by
  refine ⟨_, rfl, ?_⟩
  have h := Evolves.refl M P s
  refine armDrain_ev (hm.of rfl) ?_
  refine mOnly_ev _ _ (hm.of rfl) hall ?_ ?_
  · intro s1
    intro h2
    refine forgeAlloc_ev _ _ _ _ (hm.of rfl) ?_
    exact h2
  · exact h

theorem execBpfree_next (x1 x2 x3 x4 : _) (hm : Sub 0x4fd0148310060b0 M) (hall : ∀ n, P n) :
    ∃ t, (execBpfree x1 x2 x3 x4 s) = .next t ∧ Evolves M P s t := by
  refine ⟨_, rfl, ?_⟩
  have h := Evolves.refl M P s
  refine armDrain_ev (hm.of rfl) ?_
  refine mOnly_ev _ _ (hm.of rfl) hall ?_ ?_
  · intro s1
    intro h2
    refine forgeFree_ev _ _ _ _ (hm.of rfl) ?_
    exact h2
  · exact h

theorem execBpshare_next (x1 x2 x3 x4 : _) (hm : Sub 0x4fd0148310060b0 M) (hall : ∀ n, P n) :
    ∃ t, (execBpshare x1 x2 x3 x4 s) = .next t ∧ Evolves M P s t := by
  refine ⟨_, rfl, ?_⟩
  have h := Evolves.refl M P s
  refine armDrain_ev (hm.of rfl) ?_
  refine mOnly_ev _ _ (hm.of rfl) hall ?_ ?_
  · intro s1
    intro h2
    refine forgeShare_ev _ _ _ _ (hm.of rfl) ?_
    exact h2
  · exact h

theorem execCoreAccessFault_next (x1 x2 x3 : _) (hm : Sub 0x67d0148300060b0 M) (hall : ∀ n, P n) :
    ∃ t, (execCoreAccessFault x1 x2 x3 s) = .next t ∧ Evolves M P s t := by
  refine ⟨_, rfl, ?_⟩
  have h := Evolves.refl M P s
  refine armDrain_ev (hm.of rfl) ?_
  refine accessFault_ev _ _ _ (hm.of rfl) hall ?_
  exact h

theorem execPlcommit_next (x1 x2 x3 x4 : _) (hm : Sub 0x67d0148300060b0 M) (hall : ∀ n, P n) :
    ∃ t, (execPlcommit x1 x2 x3 x4 s) = .next t ∧ Evolves M P s t := by
  refine ⟨_, rfl, ?_⟩
  have h := Evolves.refl M P s
  refine armDrain_ev (hm.of rfl) ?_
  refine mOnly_ev _ _ (hm.of rfl) hall ?_ ?_
  · intro s1
    intro h2
    refine forgeCommit_ev _ _ _ _ (hm.of rfl) hall ?_
    exact h2
  · exact h

theorem execQget_next (x1 x2 x3 x4 : _) (hm : Sub 0x67d4148300060b0 M) (hall : ∀ n, P n) :
    ∃ t, (execQget x1 x2 x3 x4 s) = .next t ∧ Evolves M P s t := by
  refine ⟨_, rfl, ?_⟩
  have h := Evolves.refl M P s
  refine armDrain_ev (hm.of rfl) ?_
  refine forgeGet_ev _ _ _ _ (hm.of rfl) hall ?_
  exact h

theorem execQput_next (x1 x2 x3 x4 : _) (hm : Sub 0x67d4148300060b0 M) (hall : ∀ n, P n) :
    ∃ t, (execQput x1 x2 x3 x4 s) = .next t ∧ Evolves M P s t := by
  refine ⟨_, rfl, ?_⟩
  have h := Evolves.refl M P s
  refine armDrain_ev (hm.of rfl) ?_
  refine forgePut_ev _ _ _ _ (hm.of rfl) hall ?_
  exact h

theorem execChooseLoad_next (x1 x2 x3 : _) (hm : Sub 0x47d0148300060b0 M) (hall : ∀ n, P n) :
    ∃ t, (execChooseLoad x1 x2 x3 s) = .next t ∧ Evolves M P s t := by
  refine ⟨_, rfl, ?_⟩
  have h := Evolves.refl M P s
  refine armDrain_ev (hm.of rfl) ?_
  refine ask_ev _ (hm.of rfl) hall ?_
  exact h

theorem execChooseReadSource_next (x1 : _) (hm : Sub 0x47d0148300060b0 M) (hall : ∀ n, P n) :
    ∃ t, (execChooseReadSource x1 s) = .next t ∧ Evolves M P s t := by
  refine ⟨_, rfl, ?_⟩
  have h := Evolves.refl M P s
  refine armDrain_ev (hm.of rfl) ?_
  refine ask_ev _ (hm.of rfl) hall ?_
  exact h

theorem execChooseSpeed_next (x1 x2 x3 x4 x5 x6 : _) (hm : Sub 0x47d0148300060b0 M) (hall : ∀ n, P n) :
    ∃ t, (execChooseSpeed x1 x2 x3 x4 x5 x6 s) = .next t ∧ Evolves M P s t := by
  refine ⟨_, rfl, ?_⟩
  have h := Evolves.refl M P s
  refine armDrain_ev (hm.of rfl) ?_
  refine ask_ev _ (hm.of rfl) hall ?_
  exact h

theorem execChooseWriteGroup_next (x1 x2 : _) (hm : Sub 0x47d0148300060b0 M) (hall : ∀ n, P n) :
    ∃ t, (execChooseWriteGroup x1 x2 s) = .next t ∧ Evolves M P s t := by
  refine ⟨_, rfl, ?_⟩
  have h := Evolves.refl M P s
  refine armDrain_ev (hm.of rfl) ?_
  refine ask_ev _ (hm.of rfl) hall ?_
  exact h

theorem execPolicyBudgetExpire_next (x1 : _) (hm : Sub 0x47d0148300060b0 M) (hall : ∀ n, P n) :
    ∃ t, (execPolicyBudgetExpire x1 s) = .next t ∧ Evolves M P s t := by
  refine ⟨_, rfl, ?_⟩
  have h := Evolves.refl M P s
  refine armDrain_ev (hm.of rfl) ?_
  refine budgetExpire_ev _ (hm.of rfl) hall ?_
  exact h

theorem execPolicyCall_next (x1 : _) (hm : Sub 0x47d0148300060b0 M) (hall : ∀ n, P n) :
    ∃ t, (execPolicyCall x1 s) = .next t ∧ Evolves M P s t := by
  refine ⟨_, rfl, ?_⟩
  have h := Evolves.refl M P s
  refine armDrain_ev (hm.of rfl) ?_
  refine policyCallOp_ev _ (hm.of rfl) hall ?_
  exact h

theorem execPolicyEcall_next (x1 : _) (hm : Sub 0x47d0148300060b0 M) (hall : ∀ n, P n) :
    ∃ t, (execPolicyEcall x1 s) = .next t ∧ Evolves M P s t := by
  refine ⟨_, rfl, ?_⟩
  have h := Evolves.refl M P s
  refine armDrain_ev (hm.of rfl) ?_
  refine policyEcallOp_ev _ (hm.of rfl) hall ?_
  exact h

theorem execReshapeUnitCopy_next (x1 x2 : _) (hm : Sub 0x47d0148300060b0 M) (hall : ∀ n, P n) :
    ∃ t, (execReshapeUnitCopy x1 x2 s) = .next t ∧ Evolves M P s t := by
  refine ⟨_, rfl, ?_⟩
  have h := Evolves.refl M P s
  refine armDrain_ev (hm.of rfl) ?_
  refine reshapeCopy_ev _ _ (hm.of rfl) hall ?_
  exact h

theorem execGatherTimeout_next (x1 x2 : _) (hm : Sub 0x47d0148300060b0 M) (hall : ∀ n, P n) :
    ∃ t, (execGatherTimeout x1 x2 s) = .next t ∧ Evolves M P s t := by
  refine ⟨_, rfl, ?_⟩
  have h := Evolves.refl M P s
  refine armDrain_ev (hm.of rfl) ?_
  refine groupClose_ev _ _ (hm.of rfl) hall ?_
  refine mediaTake_ev _ (hm.of rfl) ?_
  exact h

theorem execLaneFrameReceived_next (x1 x2 x3 x4 x5 x6 : _) (hm : Sub 0x47d437ef00843ff M) (e1 : P x1.val) :
    ∃ t, (execLaneFrameReceived x1 x2 x3 x4 x5 x6 s) = .next t ∧ Evolves M P s t := by
  refine ⟨_, rfl, ?_⟩
  have h := Evolves.refl M P s
  refine armDrain_ev (hm.of rfl) ?_
  refine laneFrame_ev _ _ _ _ _ _ (hm.of rfl) e1 ?_
  exact h

theorem execDownstreamFrameSend_next (x1 : _) (hm : Sub 0x4754006f0004205 M) (e1 : P x1.val) :
    ∃ t, (execDownstreamFrameSend x1 s) = .next t ∧ Evolves M P s t := by
  refine ⟨_, rfl, ?_⟩
  have h := Evolves.refl M P s
  refine armDrain_ev (hm.of rfl) ?_
  refine downstreamFrame_ev _ (hm.of rfl) e1 ?_
  exact h

theorem execWrStop_next (x1 : _) (hm : Sub 0x4750006f0004204 M) (e1 : P x1.val) :
    ∃ t, (execWrStop x1 s) = .next t ∧ Evolves M P s t := by
  refine ⟨_, rfl, ?_⟩
  have h := Evolves.refl M P s
  refine armDrain_ev (hm.of rfl) ?_
  refine wrStop_ev _ (hm.of rfl) e1 ?_
  exact h

theorem execF5StatusBlock_next (x1 x2 : _) (hm : Sub 0x47d437ef00843ff M) (e1 : P x1.val) :
    ∃ t, (execF5StatusBlock x1 x2 s) = .next t ∧ Evolves M P s t := by
  refine ⟨_, rfl, ?_⟩
  have h := Evolves.refl M P s
  refine armDrain_ev (hm.of rfl) ?_
  refine f5Status_ev _ _ (hm.of rfl) e1 ?_
  exact h

theorem execLaneLockLost_next (x1 x2 : _) (hm : Sub 0x47d437ef00843ff M) (e1 : P x1.val) :
    ∃ t, (execLaneLockLost x1 x2 s) = .next t ∧ Evolves M P s t := by
  refine ⟨_, rfl, ?_⟩
  have h := Evolves.refl M P s
  refine armDrain_ev (hm.of rfl) ?_
  refine laneLost_ev _ _ (hm.of rfl) e1 ?_
  exact h

theorem execTrainTimeout_next (x1 : _) (hm : Sub 0x47d436ef00843f7 M) (e1 : P x1.val) :
    ∃ t, (execTrainTimeout x1 s) = .next t ∧ Evolves M P s t := by
  refine ⟨_, rfl, ?_⟩
  have h := Evolves.refl M P s
  refine armDrain_ev (hm.of rfl) ?_
  refine trainTimeoutOp_ev _ (hm.of rfl) e1 ?_
  exact h

theorem execHlEnable_next (x1 : _) (hm : Sub 0x47d401ef008439f M) (e1 : P x1.val) :
    ∃ t, (execHlEnable x1 s) = .next t ∧ Evolves M P s t := by
  refine ⟨_, rfl, ?_⟩
  have h := Evolves.refl M P s
  refine armDrain_ev (hm.of rfl) ?_
  refine linkEnable_ev _ (hm.of rfl) e1 ?_
  exact h

theorem execHlDisable_next (x1 : _) (hm : Sub 0x47d401ef008439f M) (e1 : P x1.val) :
    ∃ t, (execHlDisable x1 s) = .next t ∧ Evolves M P s t := by
  refine ⟨_, rfl, ?_⟩
  have h := Evolves.refl M P s
  refine armDrain_ev (hm.of rfl) ?_
  refine linkDisable_ev _ (hm.of rfl) e1 ?_
  exact h

theorem execHlRetrain_next (x1 : _) (hm : Sub 0x47d401ef008439f M) (e1 : P x1.val) :
    ∃ t, (execHlRetrain x1 s) = .next t ∧ Evolves M P s t := by
  refine ⟨_, rfl, ?_⟩
  have h := Evolves.refl M P s
  refine armDrain_ev (hm.of rfl) ?_
  refine linkRetrain_ev _ (hm.of rfl) e1 ?_
  exact h

theorem execSyncMarkDetected_next (x1 x2 x3 x4 x5 x6 x7 : _) (hm : Sub 0x4fdc00ff0004216 M) (e1 : P x1.val) :
    ∃ t, (execSyncMarkDetected x1 x2 x3 x4 x5 x6 x7 s) = .next t ∧ Evolves M P s t := by
  refine ⟨_, rfl, ?_⟩
  have h := Evolves.refl M P s
  refine armDrain_ev (hm.of rfl) ?_
  refine syncMark_ev _ _ _ _ _ _ _ (hm.of rfl) e1 ?_
  exact h

theorem execSyncWindowClose_next (x1 x2 x3 x4 : _) (hm : Sub 0x4fdc01ff0004216 M) (e1 : P x1.val) :
    ∃ t, (execSyncWindowClose x1 x2 x3 x4 s) = .next t ∧ Evolves M P s t := by
  refine ⟨_, rfl, ?_⟩
  have h := Evolves.refl M P s
  refine armDrain_ev (hm.of rfl) ?_
  refine syncWindow_ev _ _ _ _ (hm.of rfl) e1 ?_
  exact h

theorem execClusterDecoded_next (x1 x2 x3 : _) (hm : Sub 0x4fdc37ff00843fe M) (e1 : P x1.val) :
    ∃ t, (execClusterDecoded x1 x2 x3 s) = .next t ∧ Evolves M P s t := by
  refine ⟨_, rfl, ?_⟩
  have h := Evolves.refl M P s
  refine armDrain_ev (hm.of rfl) ?_
  refine attemptGoOn_ev _ (hm.of rfl) e1 ?_
  refine clusterDecode_ev _ _ _ (hm.of rfl) e1 ?_
  exact h

theorem execReplayPassDone_next (x1 x2 : _) (hm : Sub 0x4fdc36ff00843f6 M) (e1 : P x1.val) :
    ∃ t, (execReplayPassDone x1 x2 s) = .next t ∧ Evolves M P s t := by
  refine ⟨_, rfl, ?_⟩
  have h := Evolves.refl M P s
  refine armDrain_ev (hm.of rfl) ?_
  refine attemptGoOn_ev _ (hm.of rfl) e1 ?_
  refine replayPass_ev _ _ (hm.of rfl) e1 ?_
  exact h

theorem execWpllLockLost_next (x1 : _) (hm : Sub 0x47d400ef0004615 M) (e1 : P x1.val) :
    ∃ t, (execWpllLockLost x1 s) = .next t ∧ Evolves M P s t := by
  refine ⟨_, rfl, ?_⟩
  have h := Evolves.refl M P s
  refine armDrain_ev (hm.of rfl) ?_
  refine wpllLost_ev _ (hm.of rfl) e1 ?_
  exact h

theorem execAdipWordDecoded_next (x1 x2 x3 x4 : _) (hm : Sub 0x47d400ef0004614 M) (e1 : P x1.val) :
    ∃ t, (execAdipWordDecoded x1 x2 x3 x4 s) = .next t ∧ Evolves M P s t := by
  refine ⟨_, rfl, ?_⟩
  have h := Evolves.refl M P s
  refine armDrain_ev (hm.of rfl) ?_
  refine adipWord_ev _ _ _ _ (hm.of rfl) e1 ?_
  exact h

theorem execSeamCrossing_next (x1 : _) (hm : Sub 0x47d436ef00843f6 M) (e1 : P x1.val) :
    ∃ t, (execSeamCrossing x1 s) = .next t ∧ Evolves M P s t := by
  refine ⟨_, rfl, ?_⟩
  have h := Evolves.refl M P s
  refine armDrain_ev (hm.of rfl) ?_
  refine Evolves.ite ?_ ?_
  · refine attemptGoOn_ev _ (hm.of rfl) e1 ?_
    refine seamCross_ev _ (hm.of rfl) e1 ?_
    refine slgCross_ev _ (hm.of rfl) e1 ?_
    exact h
  · exact h

theorem originFollow_ev (x1 x2 : _) (hm : Sub 0xa40080392 M) (e1 : P x1.val) (h : Evolves M P a s) :
    Evolves M P a (originFollow x1 x2 s) := by
  unfold originFollow
  refine Evolves.ite ?_ ?_
  · exact h
  · refine attemptVoid_ev _ (hm.of rfl) e1 ?_
    refine seamStop_ev _ (hm.of rfl) e1 ?_
    exact h

theorem execSpnCatchDecide_next (x1 x2 x3 x4 x5 : _) (hm : Sub 0x475010a700843b2 M) (e1 : P x1.val) :
    ∃ t, (execSpnCatchDecide x1 x2 x3 x4 x5 s) = .next t ∧ Evolves M P s t := by
  refine ⟨_, rfl, ?_⟩
  have h := Evolves.refl M P s
  refine armDrain_ev (hm.of rfl) ?_
  refine originFollow_ev _ _ (hm.of rfl) e1 ?_
  refine spnCatchOp_ev _ _ _ _ _ (hm.of rfl) e1 ?_
  exact h

theorem execSpnOpenHandover_next (x1 : _) (hm : Sub 0x475010a700843b2 M) (e1 : P x1.val) :
    ∃ t, (execSpnOpenHandover x1 s) = .next t ∧ Evolves M P s t := by
  refine ⟨_, rfl, ?_⟩
  have h := Evolves.refl M P s
  refine armDrain_ev (hm.of rfl) ?_
  refine originFollow_ev _ _ (hm.of rfl) e1 ?_
  refine spnHandover_ev _ (hm.of rfl) e1 ?_
  exact h

theorem execSeamWindowClose_next (x1 x2 : _) (hm : Sub 0x4fdc37ef00843f6 M) (e1 : P x1.val) :
    ∃ t, (execSeamWindowClose x1 x2 s) = .next t ∧ Evolves M P s t := by
  refine ⟨_, rfl, ?_⟩
  have h := Evolves.refl M P s
  refine armDrain_ev (hm.of rfl) ?_
  refine attemptGoOn_ev _ (hm.of rfl) e1 ?_
  refine seamWindow_ev _ _ (hm.of rfl) e1 ?_
  exact h

theorem execStitchDecoded_next (x1 x2 : _) (hm : Sub 0x4fdc36ef00843f6 M) (e1 : P x1.val) :
    ∃ t, (execStitchDecoded x1 x2 s) = .next t ∧ Evolves M P s t := by
  refine ⟨_, rfl, ?_⟩
  have h := Evolves.refl M P s
  refine armDrain_ev (hm.of rfl) ?_
  refine attemptGoOn_ev _ (hm.of rfl) e1 ?_
  refine stitchDone_ev _ _ (hm.of rfl) e1 ?_
  exact h

theorem execLaserEnWrite_next (x1 x2 : _) (hm : Sub 0x47d400ef0004214 M) (e1 : P x1.val) :
    ∃ t, (execLaserEnWrite x1 x2 s) = .next t ∧ Evolves M P s t := by
  refine ⟨_, rfl, ?_⟩
  have h := Evolves.refl M P s
  refine armDrain_ev (hm.of rfl) ?_
  refine laserEn_ev _ _ (hm.of rfl) e1 ?_
  exact h

theorem execWrDecisionPoint_next (x1 : _) (hm : Sub 0x475000470004004 M) (e1 : P x1.val) :
    ∃ t, (execWrDecisionPoint x1 s) = .next t ∧ Evolves M P s t := by
  refine ⟨_, rfl, ?_⟩
  have h := Evolves.refl M P s
  refine armDrain_ev (hm.of rfl) ?_
  refine wrDecide_ev _ (hm.of rfl) e1 ?_
  exact h

theorem execIlkOpening_next (x1 : _) (hm : Sub 0x47d400ef0004214 M) (e1 : P x1.val) :
    ∃ t, (execIlkOpening x1 s) = .next t ∧ Evolves M P s t := by
  refine ⟨_, rfl, ?_⟩
  have h := Evolves.refl M P s
  refine armDrain_ev (hm.of rfl) ?_
  refine ilkOpen_ev _ (hm.of rfl) e1 ?_
  exact h

theorem execLadderAttempt_next (x1 x2 x3 : _) (hm : Sub 0x475011af00843ba M) (e1 : P x1.val) :
    ∃ t, (execLadderAttempt x1 x2 x3 s) = .next t ∧ Evolves M P s t := by
  refine ⟨_, rfl, ?_⟩
  have h := Evolves.refl M P s
  refine armDrain_ev (hm.of rfl) ?_
  refine ladderAttemptOp_ev _ _ _ (hm.of rfl) e1 ?_
  exact h

theorem execLadderSkip_next (x1 x2 : _) (hm : Sub 0x47d000830004010 M) (e1 : P x1.val) :
    ∃ t, (execLadderSkip x1 x2 s) = .next t ∧ Evolves M P s t := by
  refine ⟨_, rfl, ?_⟩
  have h := Evolves.refl M P s
  refine armDrain_ev (hm.of rfl) ?_
  refine ladderSkipOp_ev _ _ (hm.of rfl) e1 ?_
  exact h

theorem execLoopNop_next (x1 : _) (hm : Sub 0x475002030004000 M) (e1 : P x1.val) :
    ∃ t, (execLoopNop x1 s) = .next t ∧ Evolves M P s t := by
  refine ⟨_, rfl, ?_⟩
  have h := Evolves.refl M P s
  refine armDrain_ev (hm.of rfl) ?_
  refine loopNopOp_ev _ (hm.of rfl) e1 ?_
  exact h

theorem execFocusSearch_next (x1 x2 x3 x4 : _) (hm : Sub 0x47d436ef00843f6 M) (e1 : P x1.val) :
    ∃ t, (execFocusSearch x1 x2 x3 x4 s) = .next t ∧ Evolves M P s t := by
  refine ⟨_, rfl, ?_⟩
  have h := Evolves.refl M P s
  refine armDrain_ev (hm.of rfl) ?_
  refine focusSearchOp_ev _ _ _ _ (hm.of rfl) e1 ?_
  exact h

theorem execTrackOn_next (x1 x2 : _) (hm : Sub 0x47d436ef00843f6 M) (e1 : P x1.val) :
    ∃ t, (execTrackOn x1 x2 s) = .next t ∧ Evolves M P s t := by
  refine ⟨_, rfl, ?_⟩
  have h := Evolves.refl M P s
  refine armDrain_ev (hm.of rfl) ?_
  refine trackOnOp_ev _ _ (hm.of rfl) e1 ?_
  exact h

theorem execTrackOff_next (x1 : _) (hm : Sub 0x475002030004000 M) (e1 : P x1.val) :
    ∃ t, (execTrackOff x1 s) = .next t ∧ Evolves M P s t := by
  refine ⟨_, rfl, ?_⟩
  have h := Evolves.refl M P s
  refine armDrain_ev (hm.of rfl) ?_
  refine trackOffOp_ev _ (hm.of rfl) e1 ?_
  exact h

theorem execJump_next (x1 x2 x3 : _) (hm : Sub 0x47d436ef00843f6 M) (e1 : P x1.val) :
    ∃ t, (execJump x1 x2 x3 s) = .next t ∧ Evolves M P s t := by
  refine ⟨_, rfl, ?_⟩
  have h := Evolves.refl M P s
  refine armDrain_ev (hm.of rfl) ?_
  refine jumpOp_ev _ _ _ (hm.of rfl) e1 ?_
  exact h

theorem execLayerJump_next (x1 x2 x3 : _) (hm : Sub 0x47d436ef00843f6 M) (e1 : P x1.val) :
    ∃ t, (execLayerJump x1 x2 x3 s) = .next t ∧ Evolves M P s t := by
  refine ⟨_, rfl, ?_⟩
  have h := Evolves.refl M P s
  refine armDrain_ev (hm.of rfl) ?_
  refine layerJumpOp_ev _ _ _ (hm.of rfl) e1 ?_
  exact h

theorem execRetract_next (x1 : _) (hm : Sub 0x475002030004100 M) (e1 : P x1.val) :
    ∃ t, (execRetract x1 s) = .next t ∧ Evolves M P s t := by
  refine ⟨_, rfl, ?_⟩
  have h := Evolves.refl M P s
  refine armDrain_ev (hm.of rfl) ?_
  refine loopRetract_ev _ (hm.of rfl) e1 ?_
  exact h

theorem execLoopCmdTimeout_next (x1 : _) (hm : Sub 0x47d436ef00843f6 M) (e1 : P x1.val) :
    ∃ t, (execLoopCmdTimeout x1 s) = .next t ∧ Evolves M P s t := by
  refine ⟨_, rfl, ?_⟩
  have h := Evolves.refl M P s
  refine armDrain_ev (hm.of rfl) ?_
  refine loopTimeout_ev _ (hm.of rfl) e1 ?_
  exact h

theorem execFocusLost_next (x1 : _) (hm : Sub 0x47d436ef00843f6 M) (e1 : P x1.val) :
    ∃ t, (execFocusLost x1 s) = .next t ∧ Evolves M P s t := by
  refine ⟨_, rfl, ?_⟩
  have h := Evolves.refl M P s
  refine armDrain_ev (hm.of rfl) ?_
  refine Evolves.ite ?_ ?_
  · refine focusLostOp_ev _ _ (hm.of rfl) e1 ?_
    exact h
  · exact h

theorem execTrackLost_next (x1 : _) (hm : Sub 0x47d436ef00843f6 M) (e1 : P x1.val) :
    ∃ t, (execTrackLost x1 s) = .next t ∧ Evolves M P s t := by
  refine ⟨_, rfl, ?_⟩
  have h := Evolves.refl M P s
  refine armDrain_ev (hm.of rfl) ?_
  refine Evolves.ite ?_ ?_
  · refine trackLostOp_ev _ (hm.of rfl) e1 ?_
    exact h
  · exact h

theorem execStaleTicksFault_next (x1 : _) (hm : Sub 0x47d436ef00843f6 M) (e1 : P x1.val) :
    ∃ t, (execStaleTicksFault x1 s) = .next t ∧ Evolves M P s t := by
  refine ⟨_, rfl, ?_⟩
  have h := Evolves.refl M P s
  refine armDrain_ev (hm.of rfl) ?_
  refine Evolves.ite ?_ ?_
  · refine focusLostOp_ev _ _ (hm.of rfl) e1 ?_
    exact h
  · exact h

theorem execLongSeek_next (x1 x2 x3 x4 : _) (hm : Sub 0x47d43eef00843f6 M) (e1 : P x1.val) :
    ∃ t, (execLongSeek x1 x2 x3 x4 s) = .next t ∧ Evolves M P s t := by
  refine ⟨_, rfl, ?_⟩
  have h := Evolves.refl M P s
  refine armDrain_ev (hm.of rfl) ?_
  refine longSeekOp_ev _ _ _ _ (hm.of rfl) e1 ?_
  exact h

theorem execSledPositionRecover_next (x1 x2 x3 : _) (hm : Sub 0x47502c0300040c0 M) (e1 : P x1.val) :
    ∃ t, (execSledPositionRecover x1 x2 x3 s) = .next t ∧ Evolves M P s t := by
  refine ⟨_, rfl, ?_⟩
  have h := Evolves.refl M P s
  refine armDrain_ev (hm.of rfl) ?_
  refine sledRecover_ev _ _ _ (hm.of rfl) e1 ?_
  exact h

theorem execAnvWait_next (x1 x2 : _) (hm : Sub 0x47d436ef00843f6 M) (e1 : P x1.val) :
    ∃ t, (execAnvWait x1 x2 s) = .next t ∧ Evolves M P s t := by
  refine ⟨_, rfl, ?_⟩
  have h := Evolves.refl M P s
  refine armDrain_ev (hm.of rfl) ?_
  refine anvWaitOp_ev _ _ (hm.of rfl) e1 ?_
  exact h

theorem execIllegalInstruction_next (x1 x2 : _) (hm : Sub 0x47d436ef00843f6 M) (e1 : P x1.val) :
    ∃ t, (execIllegalInstruction x1 x2 s) = .next t ∧ Evolves M P s t := by
  refine ⟨_, rfl, ?_⟩
  have h := Evolves.refl M P s
  refine armDrain_ev (hm.of rfl) ?_
  refine illegalOp_ev _ _ (hm.of rfl) e1 ?_
  exact h

theorem execAnvSatTrip_next (x1 : _) (hm : Sub 0x47d436ef00843f6 M) (e1 : P x1.val) :
    ∃ t, (execAnvSatTrip x1 s) = .next t ∧ Evolves M P s t := by
  refine ⟨_, rfl, ?_⟩
  have h := Evolves.refl M P s
  refine armDrain_ev (hm.of rfl) ?_
  refine satTripOp_ev _ (hm.of rfl) e1 ?_
  exact h

theorem execServoSetReceived_next (x1 x2 x3 : _) (hm : Sub 0x47d436ef00843f7 M) (e1 : P x1.val) :
    ∃ t, (execServoSetReceived x1 x2 x3 s) = .next t ∧ Evolves M P s t := by
  refine ⟨_, rfl, ?_⟩
  have h := Evolves.refl M P s
  refine armDrain_ev (hm.of rfl) ?_
  refine servoSet_ev _ _ _ (hm.of rfl) e1 ?_
  exact h

theorem execAnvTickStale_next (x1 : _) (hm : Sub 0x47d436ef00843f6 M) (e1 : P x1.val) :
    ∃ t, (execAnvTickStale x1 s) = .next t ∧ Evolves M P s t := by
  refine ⟨_, rfl, ?_⟩
  have h := Evolves.refl M P s
  refine armDrain_ev (hm.of rfl) ?_
  refine tickDue_ev _ _ _ (hm.of rfl) e1 ?_
  exact h

theorem execAnvOverrun_next (x1 : _) (hm : Sub 0x47d436ef00843f6 M) (e1 : P x1.val) :
    ∃ t, (execAnvOverrun x1 s) = .next t ∧ Evolves M P s t := by
  refine ⟨_, rfl, ?_⟩
  have h := Evolves.refl M P s
  refine armDrain_ev (hm.of rfl) ?_
  refine Evolves.ite ?_ ?_
  · refine tickDue_ev _ _ _ (hm.of rfl) e1 ?_
    exact h
  · exact h

theorem execAnvNop_next (x1 : _) (hm : Sub 0x47d436ef00843f6 M) (e1 : P x1.val) :
    ∃ t, (execAnvNop x1 s) = .next t ∧ Evolves M P s t := by
  refine ⟨_, rfl, ?_⟩
  have h := Evolves.refl M P s
  refine armDrain_ev (hm.of rfl) ?_
  refine anvStep_ev _ _ _ (hm.of rfl) e1 ?_ ?_
  · intro s1
    intro h2
    unfold id
    exact h2
  · exact h

theorem execAnvMpy_next (x1 x2 x3 x4 : _) (hm : Sub 0x47d436ef00843f6 M) (e1 : P x1.val) :
    ∃ t, (execAnvMpy x1 x2 x3 x4 s) = .next t ∧ Evolves M P s t := by
  refine ⟨_, rfl, ?_⟩
  have h := Evolves.refl M P s
  refine armDrain_ev (hm.of rfl) ?_
  refine anvStep_ev _ _ _ (hm.of rfl) e1 ?_ ?_
  · intro s1
    intro h2
    refine accProduct_ev _ _ _ _ _ (hm.of rfl) e1 ?_
    exact h2
  · exact h

theorem execAnvMac_next (x1 x2 x3 x4 : _) (hm : Sub 0x47d436ef00843f6 M) (e1 : P x1.val) :
    ∃ t, (execAnvMac x1 x2 x3 x4 s) = .next t ∧ Evolves M P s t := by
  refine ⟨_, rfl, ?_⟩
  have h := Evolves.refl M P s
  refine armDrain_ev (hm.of rfl) ?_
  refine anvStep_ev _ _ _ (hm.of rfl) e1 ?_ ?_
  · intro s1
    intro h2
    refine accProduct_ev _ _ _ _ _ (hm.of rfl) e1 ?_
    exact h2
  · exact h

theorem execAnvMsu_next (x1 x2 x3 x4 : _) (hm : Sub 0x47d436ef00843f6 M) (e1 : P x1.val) :
    ∃ t, (execAnvMsu x1 x2 x3 x4 s) = .next t ∧ Evolves M P s t := by
  refine ⟨_, rfl, ?_⟩
  have h := Evolves.refl M P s
  refine armDrain_ev (hm.of rfl) ?_
  refine anvStep_ev _ _ _ (hm.of rfl) e1 ?_ ?_
  · intro s1
    intro h2
    refine accProduct_ev _ _ _ _ _ (hm.of rfl) e1 ?_
    exact h2
  · exact h

theorem execAnvLda_next (x1 x2 x3 : _) (hm : Sub 0x47d436ef00843f6 M) (e1 : P x1.val) :
    ∃ t, (execAnvLda x1 x2 x3 s) = .next t ∧ Evolves M P s t := by
  refine ⟨_, rfl, ?_⟩
  have h := Evolves.refl M P s
  refine armDrain_ev (hm.of rfl) ?_
  refine anvStep_ev _ _ _ (hm.of rfl) e1 ?_ ?_
  · intro s1
    intro h2
    refine accLoad_ev _ _ _ _ (hm.of rfl) e1 ?_
    exact h2
  · exact h

theorem execAnvAdd_next (x1 x2 x3 : _) (hm : Sub 0x47d436ef00843f6 M) (e1 : P x1.val) :
    ∃ t, (execAnvAdd x1 x2 x3 s) = .next t ∧ Evolves M P s t := by
  refine ⟨_, rfl, ?_⟩
  have h := Evolves.refl M P s
  refine armDrain_ev (hm.of rfl) ?_
  refine anvStep_ev _ _ _ (hm.of rfl) e1 ?_ ?_
  · intro s1
    intro h2
    refine accLoad_ev _ _ _ _ (hm.of rfl) e1 ?_
    exact h2
  · exact h

theorem execAnvSub_next (x1 x2 x3 : _) (hm : Sub 0x47d436ef00843f6 M) (e1 : P x1.val) :
    ∃ t, (execAnvSub x1 x2 x3 s) = .next t ∧ Evolves M P s t := by
  refine ⟨_, rfl, ?_⟩
  have h := Evolves.refl M P s
  refine armDrain_ev (hm.of rfl) ?_
  refine anvStep_ev _ _ _ (hm.of rfl) e1 ?_ ?_
  · intro s1
    intro h2
    refine accLoad_ev _ _ _ _ (hm.of rfl) e1 ?_
    exact h2
  · exact h

theorem execAnvSt_next (x1 x2 x3 : _) (hm : Sub 0x47d436ef00843f6 M) (e1 : P x1.val) :
    ∃ t, (execAnvSt x1 x2 x3 s) = .next t ∧ Evolves M P s t := by
  refine ⟨_, rfl, ?_⟩
  have h := Evolves.refl M P s
  refine armDrain_ev (hm.of rfl) ?_
  refine anvStep_ev _ _ _ (hm.of rfl) e1 ?_ ?_
  · intro s1
    intro h2
    refine accStore_ev _ _ _ (hm.of rfl) e1 ?_
    exact h2
  · exact h

theorem execAnvInt_next (x1 x2 x3 x4 : _) (hm : Sub 0x47d436ef00843f6 M) (e1 : P x1.val) :
    ∃ t, (execAnvInt x1 x2 x3 x4 s) = .next t ∧ Evolves M P s t := by
  refine ⟨_, rfl, ?_⟩
  have h := Evolves.refl M P s
  refine armDrain_ev (hm.of rfl) ?_
  refine anvStep_ev _ _ _ (hm.of rfl) e1 ?_ ?_
  · intro s1
    intro h2
    refine accIntegrate_ev _ _ _ _ (hm.of rfl) e1 ?_
    exact h2
  · exact h

theorem execAnvOut_next (x1 x2 x3 : _) (hm : Sub 0x47d436ef00843f6 M) (e1 : P x1.val) :
    ∃ t, (execAnvOut x1 x2 x3 s) = .next t ∧ Evolves M P s t := by
  refine ⟨_, rfl, ?_⟩
  have h := Evolves.refl M P s
  refine armDrain_ev (hm.of rfl) ?_
  refine anvStep_ev _ _ _ (hm.of rfl) e1 ?_ ?_
  · intro s1
    intro h2
    refine portOut_ev _ _ _ (hm.of rfl) e1 ?_
    exact h2
  · exact h

theorem execAnvExa_next (x1 x2 x3 : _) (hm : Sub 0x47d436ef00843f6 M) (e1 : P x1.val) :
    ∃ t, (execAnvExa x1 x2 x3 s) = .next t ∧ Evolves M P s t := by
  refine ⟨_, rfl, ?_⟩
  have h := Evolves.refl M P s
  refine armDrain_ev (hm.of rfl) ?_
  refine anvStep_ev _ _ _ (hm.of rfl) e1 ?_ ?_
  · intro s1
    intro h2
    refine expFromAcc_ev _ _ _ (hm.of rfl) e1 ?_
    exact h2
  · exact h

theorem execAnvShf_next (x1 x2 x3 : _) (hm : Sub 0x47d436ef00843f6 M) (e1 : P x1.val) :
    ∃ t, (execAnvShf x1 x2 x3 s) = .next t ∧ Evolves M P s t := by
  refine ⟨_, rfl, ?_⟩
  have h := Evolves.refl M P s
  refine armDrain_ev (hm.of rfl) ?_
  refine anvStep_ev _ _ _ (hm.of rfl) e1 ?_ ?_
  · intro s1
    intro h2
    refine accSet_ev _ _ _ _ (hm.of rfl) e1 ?_
    exact h2
  · exact h

theorem execAnvAcc_next (x1 x2 x3 : _) (hm : Sub 0x47d436ef00843f6 M) (e1 : P x1.val) :
    ∃ t, (execAnvAcc x1 x2 x3 s) = .next t ∧ Evolves M P s t := by
  refine ⟨_, rfl, ?_⟩
  have h := Evolves.refl M P s
  refine armDrain_ev (hm.of rfl) ?_
  refine anvStep_ev _ _ _ (hm.of rfl) e1 ?_ ?_
  · intro s1
    intro h2
    refine accSet_ev _ _ _ _ (hm.of rfl) e1 ?_
    exact h2
  · exact h

theorem execAnvMova_next (x1 x2 x3 : _) (hm : Sub 0x47d436ef00843f6 M) (e1 : P x1.val) :
    ∃ t, (execAnvMova x1 x2 x3 s) = .next t ∧ Evolves M P s t := by
  refine ⟨_, rfl, ?_⟩
  have h := Evolves.refl M P s
  refine armDrain_ev (hm.of rfl) ?_
  refine anvStep_ev _ _ _ (hm.of rfl) e1 ?_ ?_
  · intro s1
    intro h2
    refine accSet_ev _ _ _ _ (hm.of rfl) e1 ?_
    exact h2
  · exact h

theorem execAnvClr_next (x1 x2 : _) (hm : Sub 0x47d436ef00843f6 M) (e1 : P x1.val) :
    ∃ t, (execAnvClr x1 x2 s) = .next t ∧ Evolves M P s t := by
  refine ⟨_, rfl, ?_⟩
  have h := Evolves.refl M P s
  refine armDrain_ev (hm.of rfl) ?_
  refine anvStep_ev _ _ _ (hm.of rfl) e1 ?_ ?_
  · intro s1
    intro h2
    refine accSet_ev _ _ _ _ (hm.of rfl) e1 ?_
    exact h2
  · exact h

theorem execAnvLdk_next (x1 x2 x3 : _) (hm : Sub 0x47d436ef00843f6 M) (e1 : P x1.val) :
    ∃ t, (execAnvLdk x1 x2 x3 s) = .next t ∧ Evolves M P s t := by
  refine ⟨_, rfl, ?_⟩
  have h := Evolves.refl M P s
  refine armDrain_ev (hm.of rfl) ?_
  refine anvStep_ev _ _ _ (hm.of rfl) e1 ?_ ?_
  · intro s1
    intro h2
    refine accSet_ev _ _ _ _ (hm.of rfl) e1 ?_
    exact h2
  · exact h

theorem execAnvLdx_next (x1 x2 x3 : _) (hm : Sub 0x47d436ef00843f6 M) (e1 : P x1.val) :
    ∃ t, (execAnvLdx x1 x2 x3 s) = .next t ∧ Evolves M P s t := by
  refine ⟨_, rfl, ?_⟩
  have h := Evolves.refl M P s
  refine armDrain_ev (hm.of rfl) ?_
  refine anvStep_ev _ _ _ (hm.of rfl) e1 ?_ ?_
  · intro s1
    intro h2
    refine expSet_ev _ _ _ (hm.of rfl) e1 ?_
    exact h2
  · exact h

theorem execAnvAdx_next (x1 x2 x3 : _) (hm : Sub 0x47d436ef00843f6 M) (e1 : P x1.val) :
    ∃ t, (execAnvAdx x1 x2 x3 s) = .next t ∧ Evolves M P s t := by
  refine ⟨_, rfl, ?_⟩
  have h := Evolves.refl M P s
  refine armDrain_ev (hm.of rfl) ?_
  refine anvStep_ev _ _ _ (hm.of rfl) e1 ?_ ?_
  · intro s1
    intro h2
    refine expSet_ev _ _ _ (hm.of rfl) e1 ?_
    exact h2
  · exact h

theorem execAnvLdi_next (x1 x2 x3 : _) (hm : Sub 0x47d436ef00843f6 M) (e1 : P x1.val) :
    ∃ t, (execAnvLdi x1 x2 x3 s) = .next t ∧ Evolves M P s t := by
  refine ⟨_, rfl, ?_⟩
  have h := Evolves.refl M P s
  refine armDrain_ev (hm.of rfl) ?_
  refine anvStep_ev _ _ _ (hm.of rfl) e1 ?_ ?_
  · intro s1
    intro h2
    refine Evolves.modAnv (hm.bit rfl) e1 ?_
    exact h2
  · exact h

theorem execAnvAdi_next (x1 x2 x3 : _) (hm : Sub 0x47d436ef00843f6 M) (e1 : P x1.val) :
    ∃ t, (execAnvAdi x1 x2 x3 s) = .next t ∧ Evolves M P s t := by
  refine ⟨_, rfl, ?_⟩
  have h := Evolves.refl M P s
  refine armDrain_ev (hm.of rfl) ?_
  refine anvStep_ev _ _ _ (hm.of rfl) e1 ?_ ?_
  · intro s1
    intro h2
    refine Evolves.modAnv (hm.bit rfl) e1 ?_
    exact h2
  · exact h

theorem execAnvLdim_next (x1 x2 x3 : _) (hm : Sub 0x47d436ef00843f6 M) (e1 : P x1.val) :
    ∃ t, (execAnvLdim x1 x2 x3 s) = .next t ∧ Evolves M P s t := by
  refine ⟨_, rfl, ?_⟩
  have h := Evolves.refl M P s
  refine armDrain_ev (hm.of rfl) ?_
  refine anvStep_ev _ _ _ (hm.of rfl) e1 ?_ ?_
  · intro s1
    intro h2
    extract_lets +onlyGivenNames y3
    refine Evolves.modAnv (hm.bit rfl) e1 ?_
    refine opBump_ev _ _ (hm.of rfl) e1 ?_
    exact h2
  · exact h

theorem execAnvMov_next (x1 x2 x3 : _) (hm : Sub 0x47d436ef00843f6 M) (e1 : P x1.val) :
    ∃ t, (execAnvMov x1 x2 x3 s) = .next t ∧ Evolves M P s t := by
  refine ⟨_, rfl, ?_⟩
  have h := Evolves.refl M P s
  refine armDrain_ev (hm.of rfl) ?_
  refine anvStep_ev _ _ _ (hm.of rfl) e1 ?_ ?_
  · intro s1
    intro h2
    split
    · refine opBump_ev _ _ (hm.of rfl) e1 ?_
      refine opBump_ev _ _ (hm.of rfl) e1 ?_
      refine dmStore_ev _ _ _ _ (hm.of rfl) e1 ?_
      exact h2
    · exact h2
  · exact h

theorem execAnvRsc_next (x1 x2 x3 x4 : _) (hm : Sub 0x47d436ef00843f6 M) (e1 : P x1.val) :
    ∃ t, (execAnvRsc x1 x2 x3 x4 s) = .next t ∧ Evolves M P s t := by
  refine ⟨_, rfl, ?_⟩
  have h := Evolves.refl M P s
  refine armDrain_ev (hm.of rfl) ?_
  refine anvIssue_ev _ _ _ _ _ _ (hm.of rfl) e1 ?_ ?_
  · intro s1
    intro h2
    refine rescale_ev _ _ _ _ (hm.of rfl) e1 ?_
    exact h2
  · exact h

theorem execAnvRpt_next (x1 x2 : _) (hm : Sub 0x47d436ef00843f6 M) (e1 : P x1.val) :
    ∃ t, (execAnvRpt x1 x2 s) = .next t ∧ Evolves M P s t := by
  refine ⟨_, rfl, ?_⟩
  have h := Evolves.refl M P s
  refine armDrain_ev (hm.of rfl) ?_
  refine rptSet_ev _ _ (hm.of rfl) e1 ?_
  exact h

theorem execAnvBr_next (x1 x2 x3 : _) (hm : Sub 0x47d436ef00843f6 M) (e1 : P x1.val) :
    ∃ t, (execAnvBr x1 x2 x3 s) = .next t ∧ Evolves M P s t := by
  refine ⟨_, rfl, ?_⟩
  have h := Evolves.refl M P s
  refine armDrain_ev (hm.of rfl) ?_
  refine anvIssue_ev _ _ _ _ _ _ (hm.of rfl) e1 ?_ ?_
  · intro s1
    intro h2
    unfold id
    exact h2
  · exact h

theorem execAnvBrn_next (x1 x2 x3 : _) (hm : Sub 0x47d436ef00843f6 M) (e1 : P x1.val) :
    ∃ t, (execAnvBrn x1 x2 x3 s) = .next t ∧ Evolves M P s t := by
  refine ⟨_, rfl, ?_⟩
  have h := Evolves.refl M P s
  refine armDrain_ev (hm.of rfl) ?_
  refine anvIssue_ev _ _ _ _ _ _ (hm.of rfl) e1 ?_ ?_
  · intro s1
    intro h2
    unfold id
    exact h2
  · exact h

theorem execAnvRinit_next (x1 x2 : _) (hm : Sub 0x47d436ef00843f6 M) (e1 : P x1.val) :
    ∃ t, (execAnvRinit x1 x2 s) = .next t ∧ Evolves M P s t := by
  refine ⟨_, rfl, ?_⟩
  have h := Evolves.refl M P s
  refine armDrain_ev (hm.of rfl) ?_
  refine anvStep_ev _ _ _ (hm.of rfl) e1 ?_ ?_
  · intro s1
    intro h2
    refine rampInitMask_ev _ _ (hm.of rfl) e1 ?_
    exact h2
  · exact h

end Sys2Proof.Machine
end

