-- ==== Sys2Proof/Laws/Quench.lean ====
section
/-! SUPPORT. One lemma per operation of Machine/Quench.lean: the parts of the state it can touch and what it needs of the engines (`Evolves`). -/

namespace Sys2Proof.Machine

variable {M : Nat} {P : Nat → Prop} {a s : State}

theorem lasersOff_ev (hm : Sub 0x400000040000000 M) (hall : ∀ n, P n) (h : Evolves M P a s) :
    Evolves M P a (lasersOff s) := by
  unfold lasersOff
  refine Evolves.foldl _ (fun s1 x2 h3 => ?_) ?_
  · refine laserOff_ev _ (hm.of rfl) (hall _) ?_
    exact h3
  · exact h

theorem axesOff_ev (hm : Sub 0x40010000a000000 M) (h : Evolves M P a s) :
    Evolves M P a (axesOff s) := by
  unfold axesOff
  refine Evolves.foldl _ (fun s1 x2 h3 => ?_) ?_
  · refine axEstop_ev _ (hm.of rfl) ?_
    exact h3
  · exact h

theorem spinOff_ev (hm : Sub 0x10000000020 M) (hall : ∀ n, P n) (h : Evolves M P a s) :
    Evolves M P a (spinOff s) := by
  unfold spinOff
  refine Evolves.foldl _ (fun s1 x2 h3 => ?_) ?_
  · refine spnCoastOp_ev _ (hm.of rfl) (hall _) ?_
    exact h3
  · exact h

theorem sledsOff_ev (hm : Sub 0x400020000000040 M) (hall : ∀ n, P n) (h : Evolves M P a s) :
    Evolves M P a (sledsOff s) := by
  unfold sledsOff
  refine Evolves.foldl _ (fun s1 x2 h3 => ?_) ?_
  · refine Evolves.ite ?_ ?_
    · refine sldStop_ev _ (hm.of rfl) (hall _) ?_
      exact h3
    · exact h3
  · exact h

theorem exchangeLost_ev (hm : Sub 0x20000000000000 M) (h : Evolves M P a s) :
    Evolves M P a (exchangeLost s) := by
  unfold exchangeLost
  refine Evolves.foldl _ (fun s1 x2 h3 => ?_) ?_
  · refine State.modDisc_ev _ _ (hm.of rfl) ?_
    exact h3
  · refine Evolves.modArm (hm.bit rfl) rfl ?_
    exact h

theorem motorsOff_ev (hm : Sub 0x42013004a000060 M) (hall : ∀ n, P n) (h : Evolves M P a s) :
    Evolves M P a (motorsOff s) := by
  unfold motorsOff
  refine sledsOff_ev (hm.of rfl) hall ?_
  refine axesOff_ev (hm.of rfl) ?_
  refine spinOff_ev (hm.of rfl) hall ?_
  refine lasersOff_ev (hm.of rfl) hall ?_
  refine exchangeLost_ev (hm.of rfl) ?_
  exact h

theorem writesOff_ev (hm : Sub 0x40c400ec0000214 M) (hall : ∀ n, P n) (h : Evolves M P a s) :
    Evolves M P a (writesOff s) := by
  unfold writesOff
  refine Evolves.foldl _ (fun s1 x2 h3 => ?_) ?_
  · refine wrAbort_ev _ _ (hm.of rfl) (hall _) ?_
    exact h3
  · exact h

theorem tailCommit_ev (hm : Sub 0x470000020004000 M) (h : Evolves M P a s) :
    Evolves M P a (tailCommit s) := by
  unfold tailCommit
  refine Evolves.ite ?_ ?_
  · exact h
  · refine commitAll_ev (hm.of rfl) ?_
    refine Evolves.modJrn (hm.bit rfl) ?_
    exact h

theorem ownRecord_ev (x1 : _) (hm : Sub 0x470000020004000 M) (h : Evolves M P a s) :
    Evolves M P a (ownRecord x1 s) := by
  unfold ownRecord
  refine Evolves.ite ?_ ?_
  · exact h
  · refine tailCommit_ev (hm.of rfl) ?_
    refine sealNow_ev _ _ _ (hm.of rfl) ?_
    exact h

theorem mirrorsFail_ev (x1 : _) (hm : Sub 0x471000030004000 M) (h : Evolves M P a s) :
    Evolves M P a (mirrorsFail x1 s) := by
  unfold mirrorsFail
  extract_lets +onlyGivenNames y1
  have h2 : Evolves M P a y1 := by
    unfold y1
    refine Evolves.ite ?_ ?_
    · refine mirrorFailOp_ev _ (hm.of rfl) ?_
      exact h
    · exact h
  clear_value y1
  refine Evolves.ite ?_ ?_
  · refine mirrorFailOp_ev _ (hm.of rfl) ?_
    exact h2
  · exact h2

theorem quenchTail_ev (hm : Sub 0x470000020004000 M) (h : Evolves M P a s) :
    Evolves M P a (quenchTail s) := by
  unfold quenchTail
  refine tailCommit_ev (hm.of rfl) ?_
  refine Evolves.modJrn (hm.bit rfl) ?_
  exact h

theorem quenchRecord_ev (hm : Sub 0x470000020004000 M) (h : Evolves M P a s) :
    Evolves M P a (quenchRecord s).1 := by
  unfold quenchRecord
  refine Evolves.fst_ite ?_ ?_
  · dsimp only
    exact h
  · extract_lets +onlyGivenNames y1
    extract_lets +onlyGivenNames y2
    have h3 : Evolves M P a y2 := by
      unfold y2
      refine sbWrite_ev (hm.of rfl) ?_
      refine ownRecord_ev _ (hm.of rfl) ?_
      refine quenchTail_ev (hm.of rfl) ?_
      exact h
    clear_value y2
    dsimp only
    exact h3

theorem pwOf_ev (x1 : _) (hm : Sub 0x200000000000000 M) (h : Evolves M P a s) :
    Evolves M P a (pwOf x1 s) := by
  unfold pwOf
  refine Evolves.withPw (hm.bit rfl) ?_
  exact h

theorem quench_ev (x1 x2 : _) (hm : Sub 0x77d530efa004274 M) (hall : ∀ n, P n) (h : Evolves M P a s) :
    Evolves M P a (quench x1 x2 s) := by
  unfold quench
  extract_lets +onlyGivenNames y1
  extract_lets +onlyGivenNames y2
  have h3 : Evolves M P a y2 := by
    unfold y2
    refine Evolves.withSec (hm.bit rfl) rfl ?_
    exact h
  refine Evolves.ite ?_ ?_
  · refine Evolves.ite ?_ ?_
    · refine pwOf_ev _ (hm.of rfl) ?_
      exact h3
    · extract_lets +onlyGivenNames y4
      have h5 : Evolves M P a y4 := by
        unfold y4
        refine writesOff_ev (hm.of rfl) hall ?_
        refine motorsOff_ev (hm.of rfl) hall ?_
        exact h3
      clear_value y4
      extract_lets +onlyGivenNames y6
      have h7 : Evolves M P a y6 := by
        unfold y6
        refine mirrorsFail_ev _ (hm.of rfl) ?_
        refine Evolves.withNotes (hm.bit rfl) ?_
        exact h5
      clear_value y6
      extract_lets +onlyGivenNames y8
      refine pwOf_ev _ (hm.of rfl) ?_
      extract_lets +onlyGivenNames y9
      have h10 : Evolves M P a y9 := by
        unfold y9
        unfold y8
        refine quenchRecord_ev (hm.of rfl) ?_
        exact h7
      clear_value y9
      refine Evolves.withNotes (hm.bit rfl) ?_
      exact h10
  · refine pwOf_ev _ (hm.of rfl) ?_
    exact h3

theorem pfailOp_ev (x1 x2 : _) (hm : Sub 0x77d530efa004274 M) (hall : ∀ n, P n) (h : Evolves M P a s) :
    Evolves M P a (pfailOp x1 x2 s) := by
  unfold pfailOp
  refine Evolves.ite ?_ ?_
  · exact h
  · refine quench_ev _ _ (hm.of rfl) hall ?_
    refine pwOf_ev _ (hm.of rfl) ?_
    exact h

theorem regs_keep {α : Type} (l : List α) (r : α → Reg) (v : α → Word) (m : List (Reg × Word)) (q : Reg) (hq : ∀ x ∈ l, r x ≠ q) :
    Cells.get Reg.reset (l.foldl (fun t x => Cells.set Reg.lt Reg.reset t (r x) (v x)) m) q = Cells.get Reg.reset m q := by
  induction l generalizing m with
  | nil => rfl
  | cons x xs ih =>
    refine (ih _ fun y hy => hq y (List.mem_cons_of_mem _ hy)).trans ?_
    exact Cells.get_set_other _ _ _ _ (hq x (List.mem_cons_self ..))

theorem rebuilt_wf {α : Type} (l : List α) (r : α → Reg) (v : α → Word) {m : List (Reg × Word)} (h : Cells.wf Reg.lt Reg.reset m = true) :
    Cells.wf Reg.lt Reg.reset (l.foldl (fun t x => Cells.set Reg.lt Reg.reset t (r x) (v x)) m) = true := by
  induction l generalizing m with
  | nil => exact h
  | cons x xs ih => exact ih (Cells.wf_set Cells.regOrder _ _ h)

theorem regsAfter_wf (aon warm : Bool) (m : List (Reg × Word)) : Cells.wf Reg.lt Reg.reset (regsAfter aon warm m) = true :=
  rebuilt_wf m (fun x => x.1) _ rfl

theorem resetTo_ev (x1 x2 x3 : _) (hm : Sub 0x7fdffffffffffff M) (hall : ∀ n, P n) (h : Evolves M P a s) :
    Evolves M P a (resetTo x1 x2 x3 s) := by
  unfold resetTo
  extract_lets s1 t
  have h1 : Evolves M P a s1 := Evolves.foldl _ (fun _ _ hs => sldPowerLoss_ev _ (hm.of rfl) (hall _) hs) (exchangeLost_ev (hm.of rfl) h)
  have ht : Evolves M P a t :=
    { pending := h1.pending
      inv := fun _ => ⟨regsAfter_wf _ _ _, rfl, rfl, Nat.zero_le _, fun c => by
        show (Vector.replicate 4 ({} : Plc))[c].x[(0 : Fin 32)] = 0#32
        simp⟩
      fuses := h1.fuses
      fresh := h1.fresh
      regs := fun r hr => notBit (hm.grp rfl r.group) hr
      engRegs := fun r _ hp => absurd (hall _) hp
      engs := fun e hp => absurd (hall _) hp
      time := notBit (hm.bit rfl)
      units := fun u hu => notBit (hm.units rfl u) hu
      axes := notBit (hm.bit rfl)
      buses := notBit (hm.bit rfl)
      queues := notBit (hm.bit rfl)
      ddr := notBit (hm.bit rfl)
      log := notBit (hm.bit rfl)
      encOffs := h1.encOffs
      notes := notBit (hm.bit rfl)
      ladder := notBit (hm.bit rfl)
      journal := notBit (hm.bit rfl)
      armature := notBit (hm.bit rfl)
      host := notBit (hm.bit rfl)
      memory := notBit (hm.bit rfl)
      security := notBit (hm.bit rfl)
      power := notBit (hm.bit rfl)
      out := h1.out }
  exact ht.putG .power rfl (hm.bit rfl) rfl

theorem porOp_ev (hm : Sub 0x7fdffffffffffff M) (hall : ∀ n, P n) (h : Evolves M P a s) :
    Evolves M P a (porOp s) := by
  unfold porOp
  refine Evolves.putBoolG .power rfl (hm.bit rfl) rfl ?_
  refine resetTo_ev _ _ _ (hm.of rfl) hall ?_
  exact h

theorem aonOp_ev (hm : Sub 0x7fdffffffffffff M) (hall : ∀ n, P n) (h : Evolves M P a s) :
    Evolves M P a (aonOp s) := by
  unfold aonOp
  refine resetTo_ev _ _ _ (hm.of rfl) hall ?_
  exact h

theorem warmOp_ev (x1 : _) (hm : Sub 0x7fdffffffffffff M) (hall : ∀ n, P n) (h : Evolves M P a s) :
    Evolves M P a (warmOp x1 s) := by
  unfold warmOp
  refine Evolves.ite ?_ ?_
  · exact h
  · refine resetTo_ev _ _ _ (hm.of rfl) hall ?_
    exact h

theorem brownout_ev (hm : Sub 0x7fdffffffffffff M) (hall : ∀ n, P n) (h : Evolves M P a s) :
    Evolves M P a (brownout s) := by
  unfold brownout
  refine Evolves.ite ?_ ?_
  · refine resetTo_ev _ _ _ (hm.of rfl) hall ?_
    refine pwOf_ev _ (hm.of rfl) ?_
    exact h
  · exact h

theorem tailReset_ev (x1 : _) (hm : Sub 0x7fdffffffffffff M) (hall : ∀ n, P n) (h : Evolves M P a s) :
    Evolves M P a (tailReset x1 s) := by
  unfold tailReset
  refine Evolves.ite ?_ ?_
  · exact h
  · refine resetTo_ev _ _ _ (hm.of rfl) hall ?_
    refine quenchRecord_ev (hm.of rfl) ?_
    refine Evolves.withNotes (hm.bit rfl) ?_
    exact h

theorem watchdogOp_ev (hm : Sub 0x7fdffffffffffff M) (hall : ∀ n, P n) (h : Evolves M P a s) :
    Evolves M P a (watchdogOp s) := by
  unfold watchdogOp
  refine Evolves.ite ?_ ?_
  · refine warmOp_ev _ (hm.of rfl) hall ?_
    exact h
  · exact h

theorem execPfailLatch_next (x1 x2 : _) (hm : Sub 0x77d530efa004274 M) (hall : ∀ n, P n) :
    ∃ t, (execPfailLatch x1 x2 s) = .next t ∧ Evolves M P s t := by
  refine ⟨_, rfl, ?_⟩
  have h := Evolves.refl M P s
  refine armDrain_ev (hm.of rfl) ?_
  refine pfailOp_ev _ _ (hm.of rfl) hall ?_
  exact h

theorem execBrownoutReturn_next (hm : Sub 0x7fdffffffffffff M) (hall : ∀ n, P n) :
    ∃ t, (execBrownoutReturn s) = .next t ∧ Evolves M P s t := by
  refine ⟨_, rfl, ?_⟩
  have h := Evolves.refl M P s
  refine armDrain_ev (hm.of rfl) ?_
  refine brownout_ev (hm.of rfl) hall ?_
  exact h

theorem execPor_next (hm : Sub 0x7fdffffffffffff M) (hall : ∀ n, P n) :
    ∃ t, (execPor s) = .next t ∧ Evolves M P s t := by
  refine ⟨_, rfl, ?_⟩
  have h := Evolves.refl M P s
  refine armDrain_ev (hm.of rfl) ?_
  refine porOp_ev (hm.of rfl) hall ?_
  exact h

theorem execPgFall_next (hm : Sub 0x7fdffffffffffff M) (hall : ∀ n, P n) :
    ∃ t, (execPgFall s) = .next t ∧ Evolves M P s t := by
  refine ⟨_, rfl, ?_⟩
  have h := Evolves.refl M P s
  refine armDrain_ev (hm.of rfl) ?_
  refine porOp_ev (hm.of rfl) hall ?_
  exact h

theorem execVddAonPowerUp_next (hm : Sub 0x7fdffffffffffff M) (hall : ∀ n, P n) :
    ∃ t, (execVddAonPowerUp s) = .next t ∧ Evolves M P s t := by
  refine ⟨_, rfl, ?_⟩
  have h := Evolves.refl M P s
  refine armDrain_ev (hm.of rfl) ?_
  refine aonOp_ev (hm.of rfl) hall ?_
  exact h

theorem execWarmReset_next (x1 : _) (hm : Sub 0x7fdffffffffffff M) (hall : ∀ n, P n) :
    ∃ t, (execWarmReset x1 s) = .next t ∧ Evolves M P s t := by
  refine ⟨_, rfl, ?_⟩
  have h := Evolves.refl M P s
  refine armDrain_ev (hm.of rfl) ?_
  refine warmOp_ev _ (hm.of rfl) hall ?_
  exact h

theorem execWatchdogExpire_next (hm : Sub 0x7fdffffffffffff M) (hall : ∀ n, P n) :
    ∃ t, (execWatchdogExpire s) = .next t ∧ Evolves M P s t := by
  refine ⟨_, rfl, ?_⟩
  have h := Evolves.refl M P s
  refine armDrain_ev (hm.of rfl) ?_
  refine watchdogOp_ev (hm.of rfl) hall ?_
  exact h

theorem wdtRestart_ev (hm : Sub 0x200000000000000 M) (h : Evolves M P a s) :
    Evolves M P a (wdtRestart s) := by
  unfold wdtRestart
  refine pwOf_ev _ (hm.of rfl) ?_
  exact h

theorem execWdtKick_next (hm : Sub 0x200000000000000 M) :
    ∃ t, (execWdtKick s) = .next t ∧ Evolves M P s t := by
  refine ⟨_, rfl, ?_⟩
  have h := Evolves.refl M P s
  refine wdtRestart_ev (hm.of rfl) ?_
  exact h

end Sys2Proof.Machine
end

