-- ==== Sys2Proof/Laws/Boot.lean ====
section
/-! SUPPORT. One lemma per operation of Machine/Boot.lean: the parts of the state it can touch and what it needs of the engines (`Evolves`). -/

namespace Sys2Proof.Machine

variable {M : Nat} {P : Nat → Prop} {a s : State}

theorem bcrApply_ev (x1 : _) (hm : Sub 0x110000000088000 M) (h : Evolves M P a s) :
    Evolves M P a (bcrApply x1 s) := by
  unfold bcrApply
  extract_lets +onlyGivenNames y1
  extract_lets +onlyGivenNames y2
  have h3 : Evolves M P a y2 := by
    unfold y2
    refine Evolves.withSec (hm.bit rfl) rfl ?_
    exact h
  clear_value y2
  extract_lets +onlyGivenNames y4
  have h5 : Evolves M P a y4 := by
    unfold y4
    refine Evolves.modJrn (hm.bit rfl) ?_
    exact h3
  clear_value y4
  extract_lets +onlyGivenNames y6
  have h7 : Evolves M P a y6 := by
    unfold y6
    refine Evolves.putBoolG .ddr rfl (hm.bit rfl) rfl ?_
    refine Evolves.putG .ddr rfl (hm.bit rfl) rfl ?_
    exact h5
  clear_value y6
  refine Evolves.foldl _ (fun s8 x9 h10 => ?_) ?_
  · refine Evolves.ite ?_ ?_
    · refine Evolves.putG .claims (Reg.group_claims rfl (by dsimp only [spareRes]; omega) (by dsimp only [spareRes]; omega)) (hm.bit rfl) rfl ?_
      exact h10
    · exact h10
  · exact h7

theorem plinthRestore_ev (x1 x2 x3 : _) (hm : Sub 0x471000010004000 M) (h : Evolves M P a s) :
    Evolves M P a (plinthRestore x1 x2 x3 s) := by
  unfold plinthRestore
  extract_lets +onlyGivenNames y1
  extract_lets +onlyGivenNames y2
  have h3 : Evolves M P a y2 := by
    unfold y2
    refine Evolves.modJrn (hm.bit rfl) ?_
    exact h
  clear_value y2
  extract_lets +onlyGivenNames y4
  have h5 : Evolves M P a y4 := by
    unfold y4
    refine Evolves.putG .journal rfl (hm.bit rfl) rfl ?_
    exact h3
  clear_value y4
  extract_lets +onlyGivenNames y6
  have h7 : Evolves M P a y6 := by
    unfold y6
    split
    · extract_lets +onlyGivenNames y8
      refine Evolves.putG .journal rfl (hm.bit rfl) rfl ?_
      unfold y8
      refine Evolves.ite ?_ ?_
      · refine State.modMir_ev _ _ (hm.of rfl) ?_
        refine Evolves.ite ?_ ?_
        · refine State.modMir_ev _ _ (hm.of rfl) ?_
          exact h5
        · exact h5
      · refine Evolves.ite ?_ ?_
        · refine State.modMir_ev _ _ (hm.of rfl) ?_
          exact h5
        · exact h5
    · refine Evolves.putG .journal rfl (hm.bit rfl) rfl ?_
      exact h5
    · refine State.logEvent_ev _ _ (hm.of rfl) ?_
      refine Evolves.putG .journal rfl (hm.bit rfl) rfl ?_
      exact h5
  clear_value y6
  extract_lets +onlyGivenNames y9
  refine Evolves.putG .journal rfl (hm.bit rfl) rfl ?_
  refine Evolves.modArm (hm.bit rfl) rfl ?_
  exact h7

theorem ddrRepair_ev (x1 : _) (hm : Sub 0x80000000008000 M) (h : Evolves M P a s) :
    Evolves M P a (ddrRepair x1 s) := by
  unfold ddrRepair
  extract_lets +onlyGivenNames y1
  extract_lets +onlyGivenNames y2
  extract_lets +onlyGivenNames y3
  extract_lets +onlyGivenNames y4
  extract_lets +onlyGivenNames y5
  extract_lets +onlyGivenNames y6
  extract_lets +onlyGivenNames y7
  have h8 : Evolves M P a y7 := by
    unfold y7
    refine Evolves.putG .ddr rfl (hm.bit rfl) rfl ?_
    refine Evolves.putG .ddr rfl (hm.bit rfl) rfl ?_
    refine Evolves.putG .ddr rfl (hm.bit rfl) rfl ?_
    exact h
  clear_value y7
  refine Evolves.withMem (hm.bit rfl) ?_
  exact h8

theorem softRepair_ev (x1 : _) (hm : Sub 0x10000 M) (h : Evolves M P a s) :
    Evolves M P a (softRepair x1 s) := by
  unfold softRepair
  extract_lets +onlyGivenNames y1
  refine Evolves.ite ?_ ?_
  · refine Evolves.putG .sram rfl (hm.bit rfl) rfl ?_
    exact h
  · exact h

theorem keysShow_ev (hm : Sub 0x20000 M) (h : Evolves M P a s) :
    Evolves M P a (keysShow s) := by
  unfold keysShow
  extract_lets +onlyGivenNames y1
  extract_lets +onlyGivenNames y2
  refine Evolves.wrG .security rfl (hm.bit rfl) rfl ?_
  refine Evolves.wrG .security rfl (hm.bit rfl) rfl ?_
  exact h

theorem keySet_ev (x1 x2 : _) (hm : Sub 0x100000000020000 M) (h : Evolves M P a s) :
    Evolves M P a (keySet x1 x2 s) := by
  unfold keySet
  extract_lets +onlyGivenNames y1
  refine keysShow_ev (hm.of rfl) ?_
  refine Evolves.withSec (hm.bit rfl) rfl ?_
  exact h

theorem keysClear_ev (hm : Sub 0x100000000020000 M) (h : Evolves M P a s) :
    Evolves M P a (keysClear s) := by
  unfold keysClear
  refine keysShow_ev (hm.of rfl) ?_
  refine Evolves.withSec (hm.bit rfl) rfl ?_
  exact h

theorem keyRestore_ev (x1 x2 : _) (hm : Sub 0x541000010020000 M) (h : Evolves M P a s) :
    Evolves M P a (keyRestore x1 x2 s) := by
  unfold keyRestore
  split
  · refine keySet_ev _ _ (hm.of rfl) ?_
    exact h
  · refine State.logEvent_ev _ _ (hm.of rfl) ?_
    exact h

theorem keysLoad_ev (hm : Sub 0x541000010020000 M) (h : Evolves M P a s) :
    Evolves M P a (keysLoad s) := by
  unfold keysLoad
  extract_lets +onlyGivenNames y1
  extract_lets +onlyGivenNames y2
  have h3 : Evolves M P a y2 := by
    unfold y2
    refine keysShow_ev (hm.of rfl) ?_
    refine Evolves.withSec (hm.bit rfl) rfl ?_
    exact h
  clear_value y2
  refine Evolves.foldl _ (fun s4 x5 h6 => ?_) ?_
  · split
    · exact h6
    · refine keyRestore_ev _ _ (hm.of rfl) ?_
      exact h6
  · exact h3

theorem journalTake_ev (x1 x2 : _) (hm : Sub 0x10000000000000 M) (h : Evolves M P a s) :
    Evolves M P a (journalTake x1 x2 s) := by
  unfold journalTake
  extract_lets +onlyGivenNames y1
  extract_lets +onlyGivenNames y2
  refine Evolves.ite ?_ ?_
  · refine Evolves.modJrn (hm.bit rfl) ?_
    exact h
  · split
    · refine Evolves.modJrn (hm.bit rfl) ?_
      exact h
    · refine Evolves.modJrn (hm.bit rfl) ?_
      exact h
    · refine Evolves.modJrn (hm.bit rfl) ?_
      exact h
    · extract_lets +onlyGivenNames y3
      refine Evolves.modJrn (hm.bit rfl) ?_
      exact h

theorem resilver_ev (x1 x2 x3 x4 : _) (hm : Sub 0x451000010004000 M) (h : Evolves M P a s) :
    Evolves M P a (resilver x1 x2 x3 x4 s) := by
  unfold resilver
  extract_lets +onlyGivenNames y1
  extract_lets +onlyGivenNames y2
  have h3 : Evolves M P a y2 := by
    unfold y2
    refine Evolves.ite ?_ ?_
    · refine journalTake_ev _ _ (hm.of rfl) ?_
      exact h
    · refine Evolves.modJrn (hm.bit rfl) ?_
      exact h
  clear_value y2
  extract_lets +onlyGivenNames y4
  extract_lets +onlyGivenNames y5
  extract_lets +onlyGivenNames y6
  extract_lets +onlyGivenNames y7
  have h8 : Evolves M P a y7 := by
    unfold y7
    refine Evolves.putBoolG .journal rfl (hm.bit rfl) rfl ?_
    refine Evolves.putBoolG .journal rfl (hm.bit rfl) rfl ?_
    exact h3
  clear_value y7
  extract_lets +onlyGivenNames y9
  have h10 : Evolves M P a y9 := by
    unfold y9
    refine Evolves.modJrn (hm.bit rfl) ?_
    exact h8
  clear_value y9
  extract_lets +onlyGivenNames y11
  have h12 : Evolves M P a y11 := by
    unfold y11
    refine Evolves.putG .journal rfl (hm.bit rfl) rfl ?_
    refine Evolves.putG .journal rfl (hm.bit rfl) rfl ?_
    exact h10
  clear_value y11
  extract_lets +onlyGivenNames y13
  have h14 : Evolves M P a y13 := by
    unfold y13
    refine Evolves.ite ?_ ?_
    · refine Evolves.putG .journal rfl (hm.bit rfl) rfl ?_
      exact h12
    · exact h12
  clear_value y13
  refine Evolves.ite ?_ ?_
  · refine Evolves.putG .journal rfl (hm.bit rfl) rfl ?_
    exact h14
  · refine Evolves.ite ?_ ?_
    · refine State.logEvent_ev _ _ (hm.of rfl) ?_
      refine Evolves.putG .journal rfl (hm.bit rfl) rfl ?_
      exact h14
    · refine State.logEvent_ev _ _ (hm.of rfl) ?_
      refine Evolves.putG .journal rfl (hm.bit rfl) rfl ?_
      exact h14

theorem replay_ev (x1 : _) (hm : Sub 0x30000000004000 M) (h : Evolves M P a s) :
    Evolves M P a (replay x1 s) := by
  unfold replay
  extract_lets +onlyGivenNames y1
  extract_lets +onlyGivenNames y2
  extract_lets +onlyGivenNames y3
  extract_lets +onlyGivenNames y4
  have h5 : Evolves M P a y4 := by
    unfold y4
    refine Evolves.modArm (hm.bit rfl) rfl ?_
    exact h
  clear_value y4
  extract_lets +onlyGivenNames y6
  have h7 : Evolves M P a y6 := by
    unfold y6
    refine Evolves.modJrn (hm.bit rfl) ?_
    exact h5
  clear_value y6
  extract_lets +onlyGivenNames y8
  have h9 : Evolves M P a y8 := by
    unfold y8
    refine Evolves.foldl _ (fun s10 x11 h12 => ?_) ?_
    · split
      · refine takeCkpt_ev _ _ _ (hm.of rfl) ?_
        refine hdrAdd_ev _ _ (hm.of rfl) ?_
        exact h12
      · refine hdrAdd_ev _ _ (hm.of rfl) ?_
        exact h12
      · refine hdrAdd_ev _ _ (hm.of rfl) ?_
        exact h12
      all_goals exact h12
    · exact h7
  clear_value y8
  extract_lets +onlyGivenNames y13
  have h14 : Evolves M P a y13 := by
    unfold y13
    refine Evolves.modArm (hm.bit rfl) rfl ?_
    exact h9
  clear_value y13
  refine jnlShow_ev (hm.of rfl) ?_
  exact h14

theorem mapScanSet_ev (x1 x2 : _) (hm : Sub 0x441000010004000 M) (h : Evolves M P a s) :
    Evolves M P a (mapScanSet x1 x2 s) := by
  unfold mapScanSet
  extract_lets +onlyGivenNames y1
  extract_lets +onlyGivenNames y2
  have h3 : Evolves M P a y2 := by
    unfold y2
    refine Evolves.ite ?_ ?_
    · refine Evolves.putG .cqi rfl (hm.bit rfl) rfl ?_
      refine Evolves.putG .journal rfl (hm.bit rfl) rfl ?_
      exact h
    · exact h
  clear_value y2
  split
  · refine State.logEvent_ev _ _ (hm.of rfl) ?_
    refine Evolves.putG .journal rfl (hm.bit rfl) rfl ?_
    exact h3
  · exact h3

theorem bootReady_ev (x1 : _) (hm : Sub 0x671000030004000 M) (h : Evolves M P a s) :
    Evolves M P a (bootReady x1 s) := by
  unfold bootReady
  extract_lets +onlyGivenNames y1
  extract_lets +onlyGivenNames y2
  extract_lets +onlyGivenNames y3
  have h4 : Evolves M P a y3 := by
    unfold y3
    refine Evolves.ite ?_ ?_
    · refine plinthCommit_ev _ _ (hm.of rfl) ?_
      exact h
    · exact h
  clear_value y3
  extract_lets +onlyGivenNames y5
  have h6 : Evolves M P a y5 := by
    unfold y5
    refine Evolves.putG .journal rfl (hm.bit rfl) rfl ?_
    refine Evolves.putG .journal rfl (hm.bit rfl) rfl ?_
    exact h4
  clear_value y5
  extract_lets +onlyGivenNames y7
  have h8 : Evolves M P a y7 := by
    unfold y7
    refine pwOf_ev _ (hm.of rfl) ?_
    exact h6
  clear_value y7
  refine State.cqiEvent_ev .cqi rfl (hm.bit rfl) rfl (hm.of rfl) ?_
  refine Evolves.putG .cqi rfl (hm.bit rfl) rfl ?_
  refine Evolves.putBoolG .cqi rfl (hm.bit rfl) rfl ?_
  exact h8

theorem quenchCopy_ev (hm : Sub 0x200000000004000 M) (h : Evolves M P a s) :
    Evolves M P a (quenchCopy s) := by
  unfold quenchCopy
  extract_lets +onlyGivenNames y1
  extract_lets +onlyGivenNames y2
  have h3 : Evolves M P a y2 := by
    unfold y2
    refine Evolves.putBoolG .journal rfl (hm.bit rfl) rfl ?_
    refine Evolves.putBoolG .journal rfl (hm.bit rfl) rfl ?_
    refine Evolves.putBoolG .journal rfl (hm.bit rfl) rfl ?_
    exact h
  clear_value y2
  extract_lets +onlyGivenNames y4
  have h5 : Evolves M P a y4 := by
    unfold y4
    refine Evolves.putG .journal rfl (hm.bit rfl) rfl ?_
    refine Evolves.putBoolG .journal rfl (hm.bit rfl) rfl ?_
    exact h3
  clear_value y4
  refine pwOf_ev _ (hm.of rfl) ?_
  exact h5

theorem bootRest_ev (x1 x2 x3 x4 x5 : _) (hm : Sub 0x771000030024000 M) (h : Evolves M P a s) :
    Evolves M P a (bootRest x1 x2 x3 x4 x5 s) := by
  unfold bootRest
  extract_lets +onlyGivenNames y1
  extract_lets +onlyGivenNames y2
  extract_lets +onlyGivenNames y3
  have h4 : Evolves M P a y3 := by
    unfold y3
    refine keysLoad_ev (hm.of rfl) ?_
    refine plinthRestore_ev _ _ _ (hm.of rfl) ?_
    exact h
  clear_value y3
  extract_lets +onlyGivenNames y5
  have h6 : Evolves M P a y5 := by
    unfold y5
    refine Evolves.putG .journal rfl (hm.bit rfl) rfl ?_
    refine resilver_ev _ _ _ _ (hm.of rfl) ?_
    exact h4
  clear_value y5
  extract_lets +onlyGivenNames y7
  have h8 : Evolves M P a y7 := by
    unfold y7
    refine Evolves.putG .journal rfl (hm.bit rfl) rfl ?_
    refine mapScanSet_ev _ _ (hm.of rfl) ?_
    refine replay_ev _ (hm.of rfl) ?_
    exact h6
  clear_value y7
  extract_lets +onlyGivenNames y9
  have h10 : Evolves M P a y9 := by
    unfold y9
    refine Evolves.ite ?_ ?_
    · exact h8
    · refine sbWrite_ev (hm.of rfl) ?_
      exact h8
  clear_value y9
  extract_lets +onlyGivenNames y11
  have h12 : Evolves M P a y11 := by
    unfold y11
    refine ownRecord_ev _ (hm.of rfl) ?_
    exact h10
  clear_value y11
  extract_lets +onlyGivenNames y13
  have h14 : Evolves M P a y13 := by
    unfold y13
    refine quenchCopy_ev (hm.of rfl) ?_
    exact h12
  clear_value y13
  extract_lets +onlyGivenNames y15
  have h16 : Evolves M P a y15 := by
    unfold y15
    refine Evolves.ite ?_ ?_
    · exact h14
    · refine State.logEvent_ev _ _ (hm.of rfl) ?_
      exact h14
  clear_value y15
  extract_lets +onlyGivenNames y17
  have h18 : Evolves M P a y17 := by
    unfold y17
    refine State.logEvent_ev _ _ (hm.of rfl) ?_
    exact h16
  clear_value y17
  refine bootReady_ev _ (hm.of rfl) ?_
  exact h18

theorem fusesRead_ev (hm : Sub 0x100000000020000 M) (h : Evolves M P a s) :
    Evolves M P a (fusesRead s) := by
  unfold fusesRead
  extract_lets +onlyGivenNames y1
  extract_lets +onlyGivenNames y2
  have h3 : Evolves M P a y2 := by
    unfold y2
    refine Evolves.withSec (hm.bit rfl) rfl ?_
    exact h
  clear_value y2
  refine Evolves.putG .security rfl (hm.bit rfl) rfl ?_
  refine Evolves.putBoolG .security rfl (hm.bit rfl) rfl ?_
  refine Evolves.putBoolG .security rfl (hm.bit rfl) rfl ?_
  exact h3

theorem porRelease_ev (x1 x2 x3 x4 x5 x6 x7 x8 : _) (hm : Sub 0x7f10000306bc000 M) (h : Evolves M P a s) :
    Evolves M P a (porRelease x1 x2 x3 x4 x5 x6 x7 x8 s) := by
  unfold porRelease
  refine Evolves.ite ?_ ?_
  · exact h
  · extract_lets +onlyGivenNames y1
    have h2 : Evolves M P a y1 := by
      unfold y1
      refine pwOf_ev _ (hm.of rfl) ?_
      exact h
    clear_value y1
    extract_lets +onlyGivenNames y3
    have h4 : Evolves M P a y3 := by
      unfold y3
      refine Evolves.putG .journal rfl (hm.bit rfl) rfl ?_
      exact h2
    clear_value y3
    extract_lets +onlyGivenNames y5
    have h6 : Evolves M P a y5 := by
      unfold y5
      refine Evolves.putG .power rfl (hm.bit rfl) rfl ?_
      refine Evolves.putG .power rfl (hm.bit rfl) rfl ?_
      refine Evolves.putG .power rfl (hm.bit rfl) rfl ?_
      refine Evolves.putG .power rfl (hm.bit rfl) rfl ?_
      exact h4
    clear_value y5
    extract_lets +onlyGivenNames y7
    have h8 : Evolves M P a y7 := by
      unfold y7
      refine Evolves.putBoolG .power rfl (hm.bit rfl) rfl ?_
      exact h6
    clear_value y7
    extract_lets +onlyGivenNames y9
    have h10 : Evolves M P a y9 := by
      unfold y9
      refine fusesRead_ev (hm.of rfl) ?_
      refine Evolves.putG .arbiter rfl (hm.bit rfl) rfl ?_
      exact h8
    clear_value y9
    split
    · refine pwOf_ev _ (hm.of rfl) ?_
      exact h10
    · split
      · exact h10
      · extract_lets +onlyGivenNames y11
        extract_lets +onlyGivenNames y12
        extract_lets +onlyGivenNames y13
        have h14 : Evolves M P a y13 := by
          unfold y13
          refine Evolves.withSec (hm.bit rfl) rfl ?_
          exact h10
        clear_value y13
        extract_lets +onlyGivenNames y15
        have h16 : Evolves M P a y15 := by
          unfold y15
          refine bcrApply_ev _ (hm.of rfl) ?_
          exact h14
        clear_value y15
        refine Evolves.ite ?_ ?_
        · refine pwOf_ev _ (hm.of rfl) ?_
          refine Evolves.putG .ddr rfl (hm.bit rfl) rfl ?_
          exact h16
        · extract_lets +onlyGivenNames y17
          have h18 : Evolves M P a y17 := by
            unfold y17
            refine Evolves.putG .security rfl (hm.bit rfl) rfl ?_
            refine Evolves.putG .journal rfl (hm.bit rfl) rfl ?_
            refine Evolves.putG .ddr rfl (hm.bit rfl) rfl ?_
            exact h16
          clear_value y17
          extract_lets +onlyGivenNames y19
          have h20 : Evolves M P a y19 := by
            unfold y19
            refine Evolves.putG .journal rfl (hm.bit rfl) rfl ?_
            exact h18
          clear_value y19
          extract_lets +onlyGivenNames y21
          have h22 : Evolves M P a y21 := by
            unfold y21
            refine Evolves.ite ?_ ?_
            · exact h20
            · refine State.logEvent_ev _ _ (hm.of rfl) ?_
              exact h20
          clear_value y21
          extract_lets +onlyGivenNames y23
          extract_lets +onlyGivenNames y24
          have h25 : Evolves M P a y24 := by
            unfold y24
            refine ddrRepair_ev _ (hm.of rfl) ?_
            refine softRepair_ev _ (hm.of rfl) ?_
            exact h22
          clear_value y24
          refine Evolves.ite ?_ ?_
          · refine pwOf_ev _ (hm.of rfl) ?_
            exact h25
          · refine bootRest_ev _ _ _ _ _ (hm.of rfl) ?_
            exact h25

theorem holdRelease_ev (x1 x2 x3 x4 x5 : _) (hm : Sub 0x771000030024000 M) (h : Evolves M P a s) :
    Evolves M P a (holdRelease x1 x2 x3 x4 x5 s) := by
  unfold holdRelease
  refine Evolves.ite ?_ ?_
  · refine bootRest_ev _ _ _ _ _ (hm.of rfl) ?_
    exact h
  · exact h

theorem execPorRelease_next (x1 x2 x3 x4 x5 x6 x7 x8 : _) (hm : Sub 0x7f50000306bc000 M) :
    ∃ t, (execPorRelease x1 x2 x3 x4 x5 x6 x7 x8 s) = .next t ∧ Evolves M P s t := by
  refine ⟨_, rfl, ?_⟩
  have h := Evolves.refl M P s
  refine armDrain_ev (hm.of rfl) ?_
  refine porRelease_ev _ _ _ _ _ _ _ _ (hm.of rfl) ?_
  exact h

theorem execPfailHoldRelease_next (x1 x2 x3 x4 x5 : _) (hm : Sub 0x775000030024000 M) :
    ∃ t, (execPfailHoldRelease x1 x2 x3 x4 x5 s) = .next t ∧ Evolves M P s t := by
  refine ⟨_, rfl, ?_⟩
  have h := Evolves.refl M P s
  refine armDrain_ev (hm.of rfl) ?_
  refine holdRelease_ev _ _ _ _ _ (hm.of rfl) ?_
  exact h

end Sys2Proof.Machine
end

