-- ==== Sys2Proof/Laws/Power.lean ====
section
/-! SUPPORT. One lemma per operation of Machine/Power.lean: the parts of the state it can touch and what it needs of the engines (`Evolves`). -/

namespace Sys2Proof.Machine

variable {M : Nat} {P : Nat → Prop} {a s : State}

theorem engGate_ev (x1 : _) (hm : Sub 0x80002100600000 M) (e1 : P x1.val) (h : Evolves M P a s) :
    Evolves M P a (engGate x1 s) := by
  unfold engGate
  extract_lets +onlyGivenNames y1
  have h2 : Evolves M P a y1 := by
    unfold y1
    refine Evolves.modAnv (hm.bit rfl) e1 ?_
    refine Evolves.modCap (hm.bit rfl) e1 ?_
    exact h
  clear_value y1
  extract_lets +onlyGivenNames y3
  extract_lets +onlyGivenNames y4
  have h5 : Evolves M P a y4 := by
    unfold y4
    refine Evolves.withMem (hm.bit rfl) ?_
    exact h2
  clear_value y4
  refine Evolves.putBitG .power rfl (hm.bit rfl) rfl ?_
  refine Evolves.putBitG .arbiter rfl (hm.bit rfl) rfl ?_
  refine Evolves.putG .power rfl (hm.bit rfl) rfl ?_
  exact h5

theorem engSleep_ev (x1 : _) (hm : Sub 0x80002100600000 M) (e1 : P x1.val) (h : Evolves M P a s) :
    Evolves M P a (engSleep x1 s) := by
  unfold engSleep
  refine Evolves.ite ?_ ?_
  · exact h
  · refine Evolves.ite ?_ ?_
    · refine Evolves.putG .power rfl (hm.bit rfl) rfl ?_
      exact h
    · refine Evolves.ite ?_ ?_
      · refine engGate_ev _ (hm.of rfl) e1 ?_
        exact h
      · refine Evolves.putG .power rfl (hm.bit rfl) rfl ?_
        exact h

theorem engWfi_ev (x1 : _) (hm : Sub 0x80042100600000 M) (e1 : P x1.val) (h : Evolves M P a s) :
    Evolves M P a (engWfi x1 s) := by
  unfold engWfi
  refine Evolves.ite ?_ ?_
  · refine Evolves.modWfi (hm.bit rfl) e1 ?_
    exact h
  · refine Evolves.ite ?_ ?_
    · refine engGate_ev _ (hm.of rfl) e1 ?_
      refine Evolves.modWfi (hm.bit rfl) e1 ?_
      exact h
    · exact h

theorem engWake_ev (x1 : _) (hm : Sub 0x200000 M) (h : Evolves M P a s) :
    Evolves M P a (engWake x1 s) := by
  unfold engWake
  refine Evolves.ite ?_ ?_
  · refine Evolves.ite ?_ ?_
    · refine Evolves.putG .power rfl (hm.bit rfl) rfl ?_
      exact h
    · exact h
  · refine Evolves.ite ?_ ?_
    · refine Evolves.putG .power rfl (hm.bit rfl) rfl ?_
      refine Evolves.putG .power rfl (hm.bit rfl) rfl ?_
      exact h
    · exact h

theorem engReset_ev (x1 : _) (hm : Sub 0x7ffffffffff M) (hall : ∀ n, P n) (h : Evolves M P a s) :
    Evolves M P a (engReset x1 s) :=
  { h with
    inv := fun i => let j := h.inv i; ⟨rebuilt_wf s.regs (fun x => x.1) _ rfl, j.mq, j.ddr, j.log, j.x0⟩
    regs := fun r hr => notBit (hm.grp rfl r.group) hr
    engRegs := fun r _ hp => absurd (hall _) hp
    engs := fun e hp => absurd (hall _) hp
    units := fun u hu => notBit (hm.units rfl u) hu }

theorem engAwake_ev (x1 : _) (hm : Sub 0x40c47ffffffffff M) (hall : ∀ n, P n) (h : Evolves M P a s) :
    Evolves M P a (engAwake x1 s) := by
  unfold engAwake
  refine Evolves.ite ?_ ?_
  · exact h
  · extract_lets +onlyGivenNames y1
    have h2 : Evolves M P a y1 := by
      unfold y1
      refine Evolves.ite ?_ ?_
      · exact h
      · refine engReset_ev _ (hm.of rfl) hall ?_
        exact h
    clear_value y1
    extract_lets +onlyGivenNames y3
    have h4 : Evolves M P a y3 := by
      unfold y3
      refine Evolves.modWake (hm.bit rfl) (hall _) ?_
      exact h2
    clear_value y3
    extract_lets +onlyGivenNames y5
    have h6 : Evolves M P a y5 := by
      unfold y5
      refine Evolves.putBitG .power rfl (hm.bit rfl) rfl ?_
      refine Evolves.putBitG .arbiter rfl (hm.bit rfl) rfl ?_
      refine Evolves.putG .power rfl (hm.bit rfl) rfl ?_
      exact h4
    clear_value y5
    refine linkEnable_ev _ (hm.of rfl) (hall _) ?_
    refine Evolves.putBitG .power rfl (hm.bit rfl) rfl ?_
    exact h6

theorem clocksSet_ev (x1 : _) (hm : Sub 0x200000 M) (h : Evolves M P a s) :
    Evolves M P a (clocksSet x1 s) := by
  unfold clocksSet
  refine Evolves.putBoolG .power rfl (hm.bit rfl) rfl ?_
  refine Evolves.putBoolG .power rfl (hm.bit rfl) rfl ?_
  refine Evolves.putBoolG .power rfl (hm.bit rfl) rfl ?_
  refine Evolves.putBoolG .power rfl (hm.bit rfl) rfl ?_
  exact h

theorem stbyEnter_ev (hm : Sub 0x77000002022c000 M) (h : Evolves M P a s) :
    Evolves M P a (stbyEnter s) := by
  unfold stbyEnter
  refine Evolves.ite ?_ ?_
  · extract_lets +onlyGivenNames y1
    extract_lets +onlyGivenNames y2
    have h3 : Evolves M P a y2 := by
      unfold y2
      refine pwOf_ev _ (hm.of rfl) ?_
      unfold y1
      refine quenchRecord_ev (hm.of rfl) ?_
      exact h
    clear_value y2
    refine keysClear_ev (hm.of rfl) ?_
    refine clocksSet_ev _ (hm.of rfl) ?_
    refine Evolves.putG .power rfl (hm.bit rfl) rfl ?_
    refine Evolves.putG .ddr rfl (hm.bit rfl) rfl ?_
    exact h3
  · exact h

theorem stbyWake_ev (x1 : _) (hm : Sub 0x541000010228000 M) (h : Evolves M P a s) :
    Evolves M P a (stbyWake x1 s) := by
  unfold stbyWake
  refine Evolves.ite ?_ ?_
  · extract_lets +onlyGivenNames y1
    have h2 : Evolves M P a y1 := by
      unfold y1
      refine Evolves.putG .power rfl (hm.bit rfl) rfl ?_
      exact h
    clear_value y1
    refine keysLoad_ev (hm.of rfl) ?_
    refine clocksSet_ev _ (hm.of rfl) ?_
    refine Evolves.putG .power rfl (hm.bit rfl) rfl ?_
    refine Evolves.putG .ddr rfl (hm.bit rfl) rfl ?_
    exact h2
  · exact h

theorem wakeTimer_ev (x1 : _) (hm : Sub 0x541000010228000 M) (h : Evolves M P a s) :
    Evolves M P a (wakeTimer x1 s) := by
  unfold wakeTimer
  refine Evolves.ite ?_ ?_
  · exact h
  · refine Evolves.ite ?_ ?_
    · refine stbyWake_ev _ (hm.of rfl) ?_
      exact h
    · refine Evolves.putBitG .power rfl (hm.bit rfl) rfl ?_
      exact h

theorem engClockFail_ev (x1 : _) (hm : Sub 0x484076900600070 M) (e1 : P x1.val) (h : Evolves M P a s) :
    Evolves M P a (engClockFail x1 s) := by
  unfold engClockFail
  extract_lets +onlyGivenNames y1
  have h2 : Evolves M P a y1 := by
    unfold y1
    refine sldPowerLoss_ev _ (hm.of rfl) e1 ?_
    refine spnCoastOp_ev _ (hm.of rfl) e1 ?_
    exact h
  clear_value y1
  extract_lets +onlyGivenNames y3
  have h4 : Evolves M P a y3 := by
    unfold y3
    refine ladderDrop_ev _ (hm.of rfl) e1 ?_
    refine engGate_ev _ (hm.of rfl) e1 ?_
    exact h2
  clear_value y3
  extract_lets +onlyGivenNames y5
  have h6 : Evolves M P a y5 := by
    unfold y5
    refine Evolves.modRetained (hm.bit rfl) e1 ?_
    exact h4
  clear_value y5
  refine Evolves.ite ?_ ?_
  · exact h6
  · refine Evolves.note (hm.bit rfl) ?_
    refine Evolves.modLoop (hm.bit rfl) e1 ?_
    exact h6

theorem clockFail_ev (x1 : _) (hm : Sub 0x7fdffffffffffff M) (hall : ∀ n, P n) (h : Evolves M P a s) :
    Evolves M P a (clockFail x1 s) := by
  unfold clockFail
  extract_lets +onlyGivenNames y1
  have h2 : Evolves M P a y1 := by
    unfold y1
    refine Evolves.putG .power rfl (hm.bit rfl) rfl ?_
    exact h
  clear_value y1
  split
  · refine engClockFail_ev _ (hm.of rfl) (hall _) ?_
    exact h2
  · refine Evolves.putG .power rfl (hm.bit rfl) rfl ?_
    exact h2
  · refine warmOp_ev _ (hm.of rfl) hall ?_
    refine lasersOff_ev (hm.of rfl) hall ?_
    exact h2
  · refine warmOp_ev _ (hm.of rfl) hall ?_
    refine lasersOff_ev (hm.of rfl) hall ?_
    exact h2
  · refine warmOp_ev _ (hm.of rfl) hall ?_
    refine lasersOff_ev (hm.of rfl) hall ?_
    exact h2

theorem xtalFailOp_ev (hm : Sub 0x641000010200000 M) (h : Evolves M P a s) :
    Evolves M P a (xtalFailOp s) := by
  unfold xtalFailOp
  extract_lets +onlyGivenNames y1
  have h2 : Evolves M P a y1 := by
    unfold y1
    refine pwOf_ev _ (hm.of rfl) ?_
    exact h
  clear_value y1
  refine State.logEvent_ev _ _ (hm.of rfl) ?_
  refine Evolves.putG .power rfl (hm.bit rfl) rfl ?_
  refine Evolves.putG .power rfl (hm.bit rfl) rfl ?_
  exact h2

theorem tempShow_ev (x1 : _) (hm : Sub 0x40000 M) (h : Evolves M P a s) :
    Evolves M P a (tempShow x1 s) := by
  unfold tempShow
  extract_lets +onlyGivenNames y1
  have h2 : Evolves M P a y1 := by
    unfold y1
    refine Evolves.putIntG .temperature rfl (hm.bit rfl) rfl ?_
    exact h
  clear_value y1
  refine Evolves.ite ?_ ?_
  · refine Evolves.putIntG .temperature rfl (hm.bit rfl) rfl ?_
    exact h2
  · exact h2

theorem thermWarnOp_ev (x1 : _) (hm : Sub 0x441000010040000 M) (h : Evolves M P a s) :
    Evolves M P a (thermWarnOp x1 s) := by
  unfold thermWarnOp
  extract_lets +onlyGivenNames y1
  have h2 : Evolves M P a y1 := by
    unfold y1
    refine tempShow_ev _ (hm.of rfl) ?_
    exact h
  clear_value y1
  refine Evolves.ite ?_ ?_
  · refine State.logEvent_ev _ _ (hm.of rfl) ?_
    exact h2
  · exact h2

theorem thermTripOp_ev (x1 : _) (hm : Sub 0x66d530eda040274 M) (hall : ∀ n, P n) (h : Evolves M P a s) :
    Evolves M P a (thermTripOp x1 s) := by
  unfold thermTripOp
  extract_lets +onlyGivenNames y1
  have h2 : Evolves M P a y1 := by
    unfold y1
    refine tempShow_ev _ (hm.of rfl) ?_
    exact h
  clear_value y1
  refine Evolves.ite ?_ ?_
  · refine State.logEvent_ev _ _ (hm.of rfl) ?_
    refine pwOf_ev _ (hm.of rfl) ?_
    refine writesOff_ev (hm.of rfl) hall ?_
    refine motorsOff_ev (hm.of rfl) hall ?_
    exact h2
  · exact h2

theorem thermRecoverOp_ev (x1 : _) (hm : Sub 0x200000000040000 M) (h : Evolves M P a s) :
    Evolves M P a (thermRecoverOp x1 s) := by
  unfold thermRecoverOp
  extract_lets +onlyGivenNames y1
  have h2 : Evolves M P a y1 := by
    unfold y1
    refine tempShow_ev _ (hm.of rfl) ?_
    exact h
  clear_value y1
  refine Evolves.ite ?_ ?_
  · refine pwOf_ev _ (hm.of rfl) ?_
    exact h2
  · exact h2

theorem execPwrEngSleep_next (x1 : _) (hm : Sub 0x80002100600000 M) (e1 : P x1.val) :
    ∃ t, (execPwrEngSleep x1 s) = .next t ∧ Evolves M P s t := by
  refine ⟨_, rfl, ?_⟩
  have h := Evolves.refl M P s
  refine engSleep_ev _ (hm.of rfl) e1 ?_
  exact h

theorem execEsqWfi_next (x1 : _) (hm : Sub 0x80042100600000 M) (e1 : P x1.val) :
    ∃ t, (execEsqWfi x1 s) = .next t ∧ Evolves M P s t := by
  refine ⟨_, rfl, ?_⟩
  have h := Evolves.refl M P s
  refine engWfi_ev _ (hm.of rfl) e1 ?_
  exact h

theorem execPwrEngWake_next (x1 : _) (hm : Sub 0x200000 M) :
    ∃ t, (execPwrEngWake x1 s) = .next t ∧ Evolves M P s t := by
  refine ⟨_, rfl, ?_⟩
  have h := Evolves.refl M P s
  refine engWake_ev _ (hm.of rfl) ?_
  exact h

theorem execEngineWakeDone_next (x1 : _) (hm : Sub 0x47d47ffffffffff M) (hall : ∀ n, P n) :
    ∃ t, (execEngineWakeDone x1 s) = .next t ∧ Evolves M P s t := by
  refine ⟨_, rfl, ?_⟩
  have h := Evolves.refl M P s
  refine armDrain_ev (hm.of rfl) ?_
  refine engAwake_ev _ (hm.of rfl) hall ?_
  exact h

theorem execStandbyEntry_next (hm : Sub 0x77500003022c000 M) :
    ∃ t, (execStandbyEntry s) = .next t ∧ Evolves M P s t := by
  refine ⟨_, rfl, ?_⟩
  have h := Evolves.refl M P s
  refine armDrain_ev (hm.of rfl) ?_
  refine stbyEnter_ev (hm.of rfl) ?_
  exact h

theorem execStandbyWake_next (x1 : _) (hm : Sub 0x541000010228000 M) :
    ∃ t, (execStandbyWake x1 s) = .next t ∧ Evolves M P s t := by
  refine ⟨_, rfl, ?_⟩
  have h := Evolves.refl M P s
  refine stbyWake_ev _ (hm.of rfl) ?_
  exact h

theorem execWakeTimer_next (x1 : _) (hm : Sub 0x541000010228000 M) :
    ∃ t, (execWakeTimer x1 s) = .next t ∧ Evolves M P s t := by
  refine ⟨_, rfl, ?_⟩
  have h := Evolves.refl M P s
  refine wakeTimer_ev _ (hm.of rfl) ?_
  exact h

theorem execClockFailure_next (x1 : _) (hm : Sub 0x7fdffffffffffff M) (hall : ∀ n, P n) :
    ∃ t, (execClockFailure x1 s) = .next t ∧ Evolves M P s t := by
  refine ⟨_, rfl, ?_⟩
  have h := Evolves.refl M P s
  refine armDrain_ev (hm.of rfl) ?_
  refine clockFail_ev _ (hm.of rfl) hall ?_
  exact h

theorem execXtal32Fail_next (hm : Sub 0x641000010200000 M) :
    ∃ t, (execXtal32Fail s) = .next t ∧ Evolves M P s t := by
  refine ⟨_, rfl, ?_⟩
  have h := Evolves.refl M P s
  refine xtalFailOp_ev (hm.of rfl) ?_
  exact h

theorem execThermWarn_next (x1 : _) (hm : Sub 0x441000010040000 M) :
    ∃ t, (execThermWarn x1 s) = .next t ∧ Evolves M P s t := by
  refine ⟨_, rfl, ?_⟩
  have h := Evolves.refl M P s
  refine thermWarnOp_ev _ (hm.of rfl) ?_
  exact h

theorem execThermTrip_next (x1 : _) (hm : Sub 0x67d530efa044274 M) (hall : ∀ n, P n) :
    ∃ t, (execThermTrip x1 s) = .next t ∧ Evolves M P s t := by
  refine ⟨_, rfl, ?_⟩
  have h := Evolves.refl M P s
  refine armDrain_ev (hm.of rfl) ?_
  refine thermTripOp_ev _ (hm.of rfl) hall ?_
  exact h

theorem execThermRecover_next (x1 : _) (hm : Sub 0x200000000040000 M) :
    ∃ t, (execThermRecover x1 s) = .next t ∧ Evolves M P s t := by
  refine ⟨_, rfl, ?_⟩
  have h := Evolves.refl M P s
  refine thermRecoverOp_ev _ (hm.of rfl) ?_
  exact h

end Sys2Proof.Machine
end

