-- ==== Sys2Proof/Laws/Ports.lean ====
section
/-! SUPPORT. One lemma per operation of Machine/Ports.lean: the parts of the state it can touch and what it needs of the engines (`Evolves`). -/

namespace Sys2Proof.Machine

variable {M : Nat} {P : Nat → Prop} {a s : State}

theorem claimClear_ev (x1 : _) (hm : Sub 0x100000 M) (h : Evolves M P a s) :
    Evolves M P a (claimClear x1 s) := by
  unfold claimClear
  refine Evolves.ite ?_ ?_
  · refine Evolves.clearRegG .ports (Reg.group_ports rfl (by dsimp only [spareRes]; omega) (by dsimp only [spareRes]; omega)) (hm.bit rfl) rfl ?_
    exact h
  · refine Evolves.ite ?_ ?_
    · refine Evolves.clearRegG .ports (Reg.group_ports rfl (by dsimp only [spareRes]; omega) (by dsimp only [spareRes]; omega)) (hm.bit rfl) rfl ?_
      exact h
    · refine Evolves.ite ?_ ?_
      · refine Evolves.clearRegG .ports rfl (hm.bit rfl) rfl ?_
        refine Evolves.clearRegG .ports rfl (hm.bit rfl) rfl ?_
        exact h
      · refine Evolves.ite ?_ ?_
        · refine Evolves.clearRegG .ports (Reg.group_ports rfl (by dsimp only [spareRes]; omega) (by dsimp only [spareRes]; omega)) (hm.bit rfl) rfl ?_
          refine Evolves.clearRegG .ports (Reg.group_ports rfl (by dsimp only [spareRes]; omega) (by dsimp only [spareRes]; omega)) (hm.bit rfl) rfl ?_
          refine Evolves.clearRegG .ports (Reg.group_ports rfl (by dsimp only [spareRes]; omega) (by dsimp only [spareRes]; omega)) (hm.bit rfl) rfl ?_
          exact h
        · exact h

theorem claimFree_ev (x1 : _) (hm : Sub 0x200000000180000 M) (h : Evolves M P a s) :
    Evolves M P a (claimFree x1 s) := by
  unfold claimFree
  extract_lets +onlyGivenNames y1
  have h2 : Evolves M P a y1 := by
    unfold y1
    refine claimClear_ev _ (hm.of rfl) ?_
    exact h
  clear_value y1
  extract_lets +onlyGivenNames y3
  have h4 : Evolves M P a y3 := by
    unfold y3
    refine Evolves.ite ?_ ?_
    · refine pwOf_ev _ (hm.of rfl) ?_
      exact h2
    · exact h2
  clear_value y3
  refine Evolves.putG .claims (Reg.group_claims rfl (by dsimp only [spareRes]; omega) (by dsimp only [spareRes]; omega)) (hm.bit rfl) rfl ?_
  exact h4

theorem claimOp_ev (x1 x2 x3 : _) (hm : Sub 0x6000010c0180208 M) (hall : ∀ n, P n) (h : Evolves M P a s) :
    Evolves M P a (claimOp x1 x2 x3 s) := by
  unfold claimOp
  split
  · exact h
  · extract_lets +onlyGivenNames y1
    extract_lets +onlyGivenNames y2
    refine Evolves.ite ?_ ?_
    · refine Evolves.ite ?_ ?_
      · refine claimFree_ev _ (hm.of rfl) ?_
        exact h
      · exact h
    · refine Evolves.ite ?_ ?_
      · exact h
      · refine Evolves.ite ?_ ?_
        · refine Evolves.putG .claims (Reg.group_claims rfl (by dsimp only [spareRes]; omega) (by dsimp only [spareRes]; omega)) (hm.bit rfl) rfl ?_
          exact h
        · refine Evolves.dite (fun _ => ?_) (fun _ => ?_)
          · extract_lets +onlyGivenNames y3
            refine Evolves.ite ?_ ?_
            · refine tmpPreempt_ev _ (hm.of rfl) (hall _) ?_
              exact h
            · refine claimDeny_ev _ _ (hm.of rfl) ?_
              exact h
          · refine claimDeny_ev _ _ (hm.of rfl) ?_
            exact h

theorem timCaptureOp_ev (x1 x2 x3 : _) (hm : Sub 0x400000000100000 M) (h : Evolves M P a s) :
    Evolves M P a (timCaptureOp x1 x2 x3 s) := by
  unfold timCaptureOp
  extract_lets +onlyGivenNames y1
  refine Evolves.ite ?_ ?_
  · refine Evolves.emit (hm.bit rfl) ?_
    refine Evolves.putG .ports (Reg.group_ports rfl (by dsimp only [spareRes]; omega) (by dsimp only [spareRes]; omega)) (hm.bit rfl) rfl ?_
    refine Evolves.wrG .ports (Reg.group_ports rfl (by dsimp only [spareRes]; omega) (by dsimp only [spareRes]; omega)) (hm.bit rfl) rfl ?_
    refine Evolves.wrG .ports (Reg.group_ports rfl (by dsimp only [spareRes]; omega) (by dsimp only [spareRes]; omega)) (hm.bit rfl) rfl ?_
    exact h
  · exact h

theorem timMatchOp_ev (x1 : _) (hm : Sub 0x600000000100000 M) (h : Evolves M P a s) :
    Evolves M P a (timMatchOp x1 s) := by
  unfold timMatchOp
  extract_lets +onlyGivenNames y1
  refine Evolves.ite ?_ ?_
  · extract_lets +onlyGivenNames y2
    have h3 : Evolves M P a y2 := by
      unfold y2
      refine Evolves.emit (hm.bit rfl) ?_
      refine Evolves.putG .ports (Reg.group_ports rfl (by dsimp only [spareRes]; omega) (by dsimp only [spareRes]; omega)) (hm.bit rfl) rfl ?_
      refine Evolves.wrG .ports (Reg.group_ports rfl (by dsimp only [spareRes]; omega) (by dsimp only [spareRes]; omega)) (hm.bit rfl) rfl ?_
      exact h
    clear_value y2
    refine Evolves.ite ?_ ?_
    · refine pwOf_ev _ (hm.of rfl) ?_
      exact h3
    · exact h3
  · exact h

theorem pinsTake_ev (x1 : _) (hm : Sub 0x60c530ece000274 M) (hall : ∀ n, P n) (h : Evolves M P a s) :
    Evolves M P a (pinsTake x1 s) := by
  unfold pinsTake
  extract_lets +onlyGivenNames y1
  have h2 : Evolves M P a y1 := by
    unfold y1
    refine writesOff_ev (hm.of rfl) hall ?_
    refine axesOff_ev (hm.of rfl) ?_
    refine spinOff_ev (hm.of rfl) hall ?_
    refine lasersOff_ev (hm.of rfl) hall ?_
    exact h
  clear_value y1
  extract_lets +onlyGivenNames y3
  have h4 : Evolves M P a y3 := by
    unfold y3
    refine Evolves.foldl _ (fun s5 x6 h7 => ?_) ?_
    · refine sldPowerLoss_ev _ (hm.of rfl) (hall _) ?_
      exact h7
    · exact h2
  clear_value y3
  extract_lets +onlyGivenNames y8
  have h9 : Evolves M P a y8 := by
    unfold y8
    refine Evolves.putG .bus rfl (hm.bit rfl) rfl ?_
    refine Evolves.putG .bus rfl (hm.bit rfl) rfl ?_
    exact h4
  clear_value y8
  refine pwOf_ev _ (hm.of rfl) ?_
  exact h9

theorem fuseBlow_kept (f : Fuses) (n w : Nat) (d : Word) (hl : fuseLocked f n = false) : Fuses.Kept f (fuseBlow f n w d) := by
  have hor : ∀ {k : Nat} (x y : BitVec k), x &&& (x ||| y) = x := fun x y => by
    ext i hi
    simp only [BitVec.getElem_and, BitVec.getElem_or]
    cases x[i] <;> rfl
  unfold fuseBlow
  unfold fuseLocked at hl
  split <;> refine ⟨?_, ?_, ?_, ?_, ?_, ?_, ?_⟩ <;> simp_all

theorem fuseOp_ev (n w : Nat) (d : Word) (efuse failed busy : Bool) (hm : Sub 0x500000000000000 M)
    (h : Evolves M P a s) : Evolves M P a (fuseOp n w d efuse failed busy s) := by
  unfold fuseOp
  split
  · exact h.emit (hm.bit rfl)
  · split
    · exact h.emit (hm.bit rfl)
    · next hl =>
      split
      · exact h.emit (hm.bit rfl)
      · extract_lets d' t
        have hb : t.sec.blown = s.sec.blown := by
          unfold t
          split <;> rfl
        have ht : Evolves M P a t := Evolves.ite h.tickFresh h
        have hk : Fuses.Kept t.sec.blown (fuseBlow t.sec.blown n w d') := by
          refine fuseBlow_kept _ _ _ _ ?_
          rw [hb]
          simp only [Bool.or_eq_true, not_or, Bool.not_eq_true] at hl
          exact hl.1
        refine Evolves.emit (hm.bit rfl) { ht with
          inv := fun i => let j := ht.inv i; ⟨j.regs, j.mq, j.ddr, j.log, j.x0⟩
          fuses := ht.fuses.trans hk
          security := notBit (hm.bit rfl) }

theorem dbgAsk_ev (x1 : _) (hm : Sub 0x500000000000000 M) (h : Evolves M P a s) :
    Evolves M P a (dbgAsk x1 s) := by
  unfold dbgAsk
  extract_lets +onlyGivenNames y1
  extract_lets +onlyGivenNames y2
  have h3 : Evolves M P a y2 := by
    unfold y2
    refine Evolves.withSec (hm.bit rfl) rfl ?_
    exact h
  clear_value y2
  refine Evolves.emit (hm.bit rfl) ?_
  exact h3

theorem dbgTry_ev (x1 x2 : _) (hm : Sub 0x541000010020000 M) (h : Evolves M P a s) :
    Evolves M P a (dbgTry x1 x2 s) := by
  unfold dbgTry
  refine Evolves.ite ?_ ?_
  · refine Evolves.emit (hm.bit rfl) ?_
    exact h
  · extract_lets +onlyGivenNames y1
    extract_lets +onlyGivenNames y2
    extract_lets +onlyGivenNames y3
    have h4 : Evolves M P a y3 := by
      unfold y3
      refine Evolves.withSec (hm.bit rfl) rfl ?_
      exact h
    clear_value y3
    refine Evolves.ite ?_ ?_
    · extract_lets +onlyGivenNames y5
      have h6 : Evolves M P a y5 := by
        unfold y5
        refine Evolves.putG .security rfl (hm.bit rfl) rfl ?_
        exact h4
      clear_value y5
      extract_lets +onlyGivenNames y7
      extract_lets +onlyGivenNames y8
      have h9 : Evolves M P a y8 := by
        unfold y8
        refine Evolves.ite ?_ ?_
        · refine keysShow_ev (hm.of rfl) ?_
          refine Evolves.withSec (hm.bit rfl) rfl ?_
          exact h6
        · exact h6
      clear_value y8
      refine Evolves.emit (hm.bit rfl) ?_
      refine State.logEvent_ev _ _ (hm.of rfl) ?_
      exact h9
    · refine Evolves.emit (hm.bit rfl) ?_
      refine Evolves.incG .security rfl (hm.bit rfl) rfl ?_
      exact h4

theorem tapResetOp_ev (x1 : _) (hm : Sub 0x100000000000000 M) (h : Evolves M P a s) :
    Evolves M P a (tapResetOp x1 s) := by
  unfold tapResetOp
  refine Evolves.ite ?_ ?_
  · refine Evolves.withSec (hm.bit rfl) rfl ?_
    exact h
  · exact h

theorem execClaimWrite_next (x1 x2 x3 : _) (hm : Sub 0x6750010f0184208 M) (hall : ∀ n, P n) :
    ∃ t, (execClaimWrite x1 x2 x3 s) = .next t ∧ Evolves M P s t := by
  refine ⟨_, rfl, ?_⟩
  have h := Evolves.refl M P s
  refine armDrain_ev (hm.of rfl) ?_
  refine claimOp_ev _ _ _ (hm.of rfl) hall ?_
  exact h

theorem execTimCapture_next (x1 x2 x3 : _) (hm : Sub 0x400000000100000 M) :
    ∃ t, (execTimCapture x1 x2 x3 s) = .next t ∧ Evolves M P s t := by
  refine ⟨_, rfl, ?_⟩
  have h := Evolves.refl M P s
  refine timCaptureOp_ev _ _ _ (hm.of rfl) ?_
  exact h

theorem execTimMatch_next (x1 : _) (hm : Sub 0x600000000100000 M) :
    ∃ t, (execTimMatch x1 s) = .next t ∧ Evolves M P s t := by
  refine ⟨_, rfl, ?_⟩
  have h := Evolves.refl M P s
  refine timMatchOp_ev _ (hm.of rfl) ?_
  exact h

theorem execJtagExtest_next (hm : Sub 0x67d530efe004274 M) (hall : ∀ n, P n) :
    ∃ t, (execJtagExtest s) = .next t ∧ Evolves M P s t := by
  refine ⟨_, rfl, ?_⟩
  have h := Evolves.refl M P s
  refine armDrain_ev (hm.of rfl) ?_
  refine pinsTake_ev _ (hm.of rfl) hall ?_
  exact h

theorem execJtagHighz_next (hm : Sub 0x67d530efe004274 M) (hall : ∀ n, P n) :
    ∃ t, (execJtagHighz s) = .next t ∧ Evolves M P s t := by
  refine ⟨_, rfl, ?_⟩
  have h := Evolves.refl M P s
  refine armDrain_ev (hm.of rfl) ?_
  refine pinsTake_ev _ (hm.of rfl) hall ?_
  exact h

theorem execJtagClamp_next (hm : Sub 0x67d530efe004274 M) (hall : ∀ n, P n) :
    ∃ t, (execJtagClamp s) = .next t ∧ Evolves M P s t := by
  refine ⟨_, rfl, ?_⟩
  have h := Evolves.refl M P s
  refine armDrain_ev (hm.of rfl) ?_
  refine pinsTake_ev _ (hm.of rfl) hall ?_
  exact h

theorem execTapReset_next (x1 : _) (hm : Sub 0x100000000000000 M) :
    ∃ t, (execTapReset x1 s) = .next t ∧ Evolves M P s t := by
  refine ⟨_, rfl, ?_⟩
  have h := Evolves.refl M P s
  refine tapResetOp_ev _ (hm.of rfl) ?_
  exact h

theorem execFuseProg_next (x1 x2 x3 x4 x5 x6 : _) (hm : Sub 0x500000000000000 M) :
    ∃ t, (execFuseProg x1 x2 x3 x4 x5 x6 s) = .next t ∧ Evolves M P s t := by
  refine ⟨_, rfl, ?_⟩
  have h := Evolves.refl M P s
  refine fuseOp_ev _ _ _ _ _ _ (hm.of rfl) ?_
  exact h

theorem execDbgChallenge_next (x1 : _) (hm : Sub 0x500000000000000 M) :
    ∃ t, (execDbgChallenge x1 s) = .next t ∧ Evolves M P s t := by
  refine ⟨_, rfl, ?_⟩
  have h := Evolves.refl M P s
  refine dbgAsk_ev _ (hm.of rfl) ?_
  exact h

theorem execDbgUnlock_next (x1 x2 : _) (hm : Sub 0x541000010020000 M) :
    ∃ t, (execDbgUnlock x1 x2 s) = .next t ∧ Evolves M P s t := by
  refine ⟨_, rfl, ?_⟩
  have h := Evolves.refl M P s
  refine dbgTry_ev _ _ (hm.of rfl) ?_
  exact h

end Sys2Proof.Machine
end

