-- ==== Sys2Proof/Laws/Ddr.lean ====
section
/-! SUPPORT. One lemma per operation of Machine/Ddr.lean: the parts of the state it can touch and what it needs of the engines (`Evolves`). -/

namespace Sys2Proof.Machine

variable {M : Nat} {P : Nat → Prop} {a s : State}

theorem finishFault_ev (x1 x2 : _) (hm : Sub 0x440000020000000 M) (h : Evolves M P a s) :
    Evolves M P a (finishFault x1 x2 s) := by
  unfold finishFault
  refine Evolves.tickFresh ?_
  refine finish_ev _ _ _ _ (hm.of rfl) ?_
  exact h

theorem ownersFault_ev (x1 : _) (hm : Sub 0x440000020000000 M) (h : Evolves M P a s) :
    Evolves M P a (ownersFault x1 s) := by
  unfold ownersFault
  refine Evolves.foldl _ (fun s1 x2 h3 => ?_) ?_
  · refine finishFault_ev _ _ (hm.of rfl) ?_
    exact h3
  · exact h

theorem poisonRecord_ev (x1 : _) (hm : Sub 0x450000020000000 M) (h : Evolves M P a s) :
    Evolves M P a (poisonRecord x1 s) := by
  unfold poisonRecord
  split
  · exact h
  · split
    · refine Evolves.ite ?_ ?_
      · exact h
      · refine ownersFault_ev _ (hm.of rfl) ?_
        refine Evolves.modJrn (hm.bit rfl) ?_
        exact h
    all_goals exact h

theorem poisonHost_ev (x1 x2 : _) (hm : Sub 0x450000020004000 M) (h : Evolves M P a s) :
    Evolves M P a (poisonHost x1 x2 s) := by
  unfold poisonHost
  extract_lets +onlyGivenNames y1
  have h2 : Evolves M P a y1 := by
    unfold y1
    refine Evolves.modJrn (hm.bit rfl) ?_
    exact h
  clear_value y1
  refine jnlShow_ev (hm.of rfl) ?_
  refine finishFault_ev _ _ (hm.of rfl) ?_
  exact h2

theorem poisonSlot_ev (x1 x2 x3 : _) (hm : Sub 0x40c400a00000012 M) (e1 : P x1.val) (h : Evolves M P a s) :
    Evolves M P a (poisonSlot x1 x2 x3 s) := by
  unfold poisonSlot
  extract_lets +onlyGivenNames y1
  extract_lets +onlyGivenNames y2
  extract_lets +onlyGivenNames y3
  extract_lets +onlyGivenNames y4
  refine Evolves.ite ?_ ?_
  · refine ladderEnter_ev _ _ _ (hm.of rfl) e1 ?_
    exact h
  · extract_lets +onlyGivenNames y5
    have h6 : Evolves M P a y5 := by
      unfold y5
      refine Evolves.modSeam (hm.bit rfl) e1 ?_
      exact h
    clear_value y5
    refine rasRelease_ev _ _ (hm.of rfl) e1 ?_
    refine stitchDrop_ev _ _ (hm.of rfl) e1 ?_
    exact h6

theorem poisoned_ev (x1 : _) (hm : Sub 0x7fdffffffffffff M) (hall : ∀ n, P n) (h : Evolves M P a s) :
    Evolves M P a (poisoned x1 s) := by
  unfold poisoned
  split
  · exact Evolves.ite (finishFault_ev _ _ (hm.of rfl) h) h
  · exact h
  · exact poisonRecord_ev _ (hm.of rfl) h
  · exact poisonHost_ev _ _ (hm.of rfl) h
  · exact State.logEvent_ev _ _ (hm.of rfl) (h.incWrapG .policy rfl (hm.bit rfl) rfl)
  · exact poisonSlot_ev _ _ _ (hm.of rfl) (hall _) h
  · exact tailReset_ev _ (hm.of rfl) hall h
  · exact Evolves.withLog (hm.bit rfl) (.inl (List.length_filter_le _ _)) h

theorem ddrUeOp_ev (x1 x2 : _) (hm : Sub 0x7fdffffffffffff M) (hall : ∀ n, P n) (h : Evolves M P a s) :
    Evolves M P a (ddrUeOp x1 x2 s) := by
  unfold ddrUeOp
  extract_lets +onlyGivenNames y1
  have h2 : Evolves M P a y1 := by
    unfold y1
    refine Evolves.putG .ddr rfl (hm.bit rfl) rfl ?_
    refine Evolves.putG .ddr rfl (hm.bit rfl) rfl ?_
    refine Evolves.incG .ddr rfl (hm.bit rfl) rfl ?_
    exact h
  clear_value y1
  refine poisoned_ev _ (hm.of rfl) hall ?_
  refine rowRetire_ev _ (hm.of rfl) ?_
  refine State.logEvent_ev _ _ (hm.of rfl) ?_
  exact h2

theorem modMem_ev (x1 : _) (hm : Sub 0x80000000000000 M) (h : Evolves M P a s) :
    Evolves M P a (modMem x1 s) := by
  unfold modMem
  refine Evolves.withMem (hm.bit rfl) ?_
  exact h

theorem patrolCorrected_ev (x1 : _) (hm : Sub 0x4f100003100c000 M) (h : Evolves M P a s) :
    Evolves M P a (patrolCorrected x1 s) := by
  unfold patrolCorrected
  extract_lets +onlyGivenNames y1
  have h2 : Evolves M P a y1 := by
    unfold y1
    refine Evolves.incG .ddr rfl (hm.bit rfl) rfl ?_
    exact h
  clear_value y1
  extract_lets +onlyGivenNames y3
  refine Evolves.ite ?_ ?_
  · exact h2
  · extract_lets +onlyGivenNames y4
    extract_lets +onlyGivenNames y5
    have h6 : Evolves M P a y5 := by
      unfold y5
      refine modMem_ev _ (hm.of rfl) ?_
      exact h2
    clear_value y5
    refine Evolves.ite ?_ ?_
    · refine rowRetire_ev _ (hm.of rfl) ?_
      exact h6
    · exact h6

theorem patrol_ev (x1 x2 : _) (hm : Sub 0x7fdffffffffffff M) (hall : ∀ n, P n) (h : Evolves M P a s) :
    Evolves M P a (patrol x1 x2 s) := by
  unfold patrol
  refine Evolves.ite ?_ ?_
  · exact h
  · extract_lets +onlyGivenNames y1
    have h2 : Evolves M P a y1 := by
      unfold y1
      refine Evolves.ite ?_ ?_
      · refine modMem_ev _ (hm.of rfl) ?_
        exact h
      · exact h
    clear_value y1
    split
    · exact h2
    · refine patrolCorrected_ev _ (hm.of rfl) ?_
      exact h2
    · refine ddrUeOp_ev _ _ (hm.of rfl) hall ?_
      exact h2

theorem softAdd_ev (x1 x2 : _) (hm : Sub 0x471000030014000 M) (h : Evolves M P a s) :
    Evolves M P a (softAdd x1 x2 s) := by
  unfold softAdd
  extract_lets +onlyGivenNames y1
  extract_lets +onlyGivenNames y2
  refine Evolves.ite ?_ ?_
  · exact h
  · refine Evolves.ite ?_ ?_
    · refine Evolves.putG .sram rfl (hm.bit rfl) rfl ?_
      exact h
    · split
      · refine plinthCommit_ev _ _ (hm.of rfl) ?_
        exact h
      · exact h

theorem sramPos_ev (x1 x2 x3 : _) (hm : Sub 0x10000 M) (h : Evolves M P a s) :
    Evolves M P a (sramPos x1 x2 x3 s) := by
  unfold sramPos
  refine Evolves.putBoolG .sram rfl (hm.bit rfl) rfl ?_
  refine Evolves.putG .sram rfl (hm.bit rfl) rfl ?_
  refine Evolves.putG .sram rfl (hm.bit rfl) rfl ?_
  exact h

theorem sramCorrected_ev (x1 x2 : _) (hm : Sub 0x4f1000030014000 M) (h : Evolves M P a s) :
    Evolves M P a (sramCorrected x1 x2 s) := by
  unfold sramCorrected
  extract_lets +onlyGivenNames y1
  have h2 : Evolves M P a y1 := by
    unfold y1
    refine sramPos_ev _ _ _ (hm.of rfl) ?_
    refine Evolves.incG .sram rfl (hm.bit rfl) rfl ?_
    exact h
  clear_value y1
  extract_lets +onlyGivenNames y3
  extract_lets +onlyGivenNames y4
  extract_lets +onlyGivenNames y5
  refine Evolves.ite ?_ ?_
  · exact h2
  · extract_lets +onlyGivenNames y6
    have h7 : Evolves M P a y6 := by
      unfold y6
      refine modMem_ev _ (hm.of rfl) ?_
      exact h2
    clear_value y6
    refine Evolves.ite ?_ ?_
    · refine softAdd_ev _ _ (hm.of rfl) ?_
      exact h7
    · exact h7

theorem sramLost_ev (x1 x2 : _) (hm : Sub 0x441000010010000 M) (h : Evolves M P a s) :
    Evolves M P a (sramLost x1 x2 s) := by
  unfold sramLost
  refine State.logEvent_ev _ _ (hm.of rfl) ?_
  refine sramPos_ev _ _ _ (hm.of rfl) ?_
  refine Evolves.incG .sram rfl (hm.bit rfl) rfl ?_
  exact h

theorem execDdrRefresh_next (hm : Sub 0x0 M) :
    ∃ t, (execDdrRefresh s) = .next t ∧ Evolves M P s t := by
  refine ⟨_, rfl, ?_⟩
  have h := Evolves.refl M P s
  exact h

theorem execDdrPatrolScrub_next (x1 x2 : _) (hm : Sub 0x7fdffffffffffff M) (hall : ∀ n, P n) :
    ∃ t, (execDdrPatrolScrub x1 x2 s) = .next t ∧ Evolves M P s t := by
  refine ⟨_, rfl, ?_⟩
  have h := Evolves.refl M P s
  refine armDrain_ev (hm.of rfl) ?_
  refine patrol_ev _ _ (hm.of rfl) hall ?_
  exact h

end Sys2Proof.Machine
end

