-- ==== Sys2Proof/Laws/StripeCache.lean ====
section
/-! SUPPORT. One lemma per operation of Machine/StripeCache.lean: the parts of the state it can touch and what it needs of the engines (`Evolves`). -/

namespace Sys2Proof.Machine

variable {M : Nat} {P : Nat → Prop} {a s : State}

theorem modStrc_ev (x1 : _) (hm : Sub 0x80000000000000 M) (h : Evolves M P a s) :
    Evolves M P a (modStrc x1 s) := by
  unfold modStrc
  refine modMem_ev _ (hm.of rfl) ?_
  exact h

theorem strcShow_ev (hm : Sub 0x800000 M) (h : Evolves M P a s) :
    Evolves M P a (strcShow s) := by
  unfold strcShow
  extract_lets +onlyGivenNames y1
  refine Evolves.putG .cache rfl (hm.bit rfl) rfl ?_
  refine Evolves.putG .cache rfl (hm.bit rfl) rfl ?_
  refine Evolves.putG .cache rfl (hm.bit rfl) rfl ?_
  exact h

theorem linePut_ev (x1 x2 : _) (hm : Sub 0x80000000000000 M) (h : Evolves M P a s) :
    Evolves M P a (linePut x1 x2 s) := by
  unfold linePut
  refine modStrc_ev _ (hm.of rfl) ?_
  exact h

theorem lineDrop_ev (x1 : _) (hm : Sub 0x80000000000000 M) (h : Evolves M P a s) :
    Evolves M P a (lineDrop x1 s) := by
  unfold lineDrop
  refine modStrc_ev _ (hm.of rfl) ?_
  exact h

theorem served_ev (x1 x2 x3 x4 : _) (hm : Sub 0x400000000000000 M) (h : Evolves M P a s) :
    Evolves M P a (served x1 x2 x3 x4 s) := by
  unfold served
  refine Evolves.ite ?_ ?_
  · refine Evolves.emit (hm.bit rfl) ?_
    exact h
  · refine Evolves.emit (hm.bit rfl) ?_
    exact h

theorem hitLine_ev (x1 x2 x3 x4 : _) (hm : Sub 0x480000000000000 M) (h : Evolves M P a s) :
    Evolves M P a (hitLine x1 x2 x3 x4 s) := by
  unfold hitLine
  extract_lets +onlyGivenNames y1
  refine served_ev _ _ _ _ (hm.of rfl) ?_
  refine linePut_ev _ _ (hm.of rfl) ?_
  exact h

theorem direct_ev (x1 x2 x3 : _) (hm : Sub 0x400800000000000 M) (h : Evolves M P a s) :
    Evolves M P a (direct x1 x2 x3 s) := by
  unfold direct
  extract_lets +onlyGivenNames y1
  refine served_ev _ _ _ _ (hm.of rfl) ?_
  refine Evolves.ite ?_ ?_
  · exact h
  · refine Evolves.dramSet (hm.bit rfl) ?_
    exact h

theorem makeRoom_ev {ws : List Nat} {line : Nat} {x : Nat × State} (hm : Sub 0x80000000000000 M)
    (h : Evolves M P a s) (e : makeRoom ws line s = some x) : Evolves M P a x.2 := by
  unfold makeRoom at e
  extract_lets c ks ls old at e
  clear_value old
  split at e
  · obtain rfl := Option.some.inj e; exact h
  · split at e
    · cases e
    · split at e
      · cases e
      · obtain rfl := Option.some.inj e; dsimp only; exact modStrc_ev _ (hm.of rfl) h

theorem strcWait_ev (x1 x2 x3 : _) (hm : Sub 0x80000000000000 M) (h : Evolves M P a s) :
    Evolves M P a (strcWait x1 x2 x3 s) := by
  unfold strcWait
  refine modStrc_ev _ (hm.of rfl) ?_
  exact h

theorem hitSide_ev (x1 x2 x3 x4 : _) (hm : Sub 0x480800000000000 M) (h : Evolves M P a s) :
    Evolves M P a (hitSide x1 x2 x3 x4 s) := by
  unfold hitSide
  extract_lets drop
  refine Evolves.ite (Evolves.ite (served_ev _ _ _ _ (hm.of rfl) h) (direct_ev _ _ _ (hm.of rfl) (modStrc_ev _ (hm.of rfl) h))) ?_
  split
  · next e => exact hitLine_ev _ _ _ _ (hm.of rfl) (modStrc_ev _ (hm.of rfl) (makeRoom_ev (hm.of rfl) h e))
  · exact strcWait_ev _ _ _ (hm.of rfl) h

theorem missLine_ev (x1 x2 x3 : _) (hm : Sub 0x480800000000000 M) (h : Evolves M P a s) :
    Evolves M P a (missLine x1 x2 x3 s) := by
  unfold missLine
  extract_lets c whole
  refine Evolves.ite (modStrc_ev _ (hm.of rfl) h) (Evolves.ite (direct_ev _ _ _ (hm.of rfl) h)
    (Evolves.ite (strcWait_ev _ _ _ (hm.of rfl) h) ?_))
  split
  · exact strcWait_ev _ _ _ (hm.of rfl) h
  · next e =>
    have hr := makeRoom_ev (hm.of rfl) h e
    exact Evolves.ite (hitLine_ev _ _ _ _ (hm.of rfl) hr) (modStrc_ev _ (hm.of rfl) hr)

theorem strcCached_ev (x1 x2 x3 : _) (hm : Sub 0x480800000800000 M) (h : Evolves M P a s) :
    Evolves M P a (strcCached x1 x2 x3 s) := by
  unfold strcCached
  split
  · refine hitLine_ev _ _ _ _ (hm.of rfl) ?_
    refine Evolves.incWrapG .cache rfl (hm.bit rfl) rfl ?_
    exact h
  · split
    · extract_lets +onlyGivenNames y1
      refine served_ev _ _ _ _ (hm.of rfl) ?_
      refine modStrc_ev _ (hm.of rfl) ?_
      refine Evolves.incWrapG .cache rfl (hm.bit rfl) rfl ?_
      exact h
    · split
      · refine hitSide_ev _ _ _ _ (hm.of rfl) ?_
        refine Evolves.incWrapG .cache rfl (hm.bit rfl) rfl ?_
        exact h
      · refine missLine_ev _ _ _ (hm.of rfl) ?_
        refine Evolves.incWrapG .cache rfl (hm.bit rfl) rfl ?_
        exact h

theorem strcPast_ev (x1 x2 x3 : _) (hm : Sub 0x480800000800000 M) (h : Evolves M P a s) :
    Evolves M P a (strcPast x1 x2 x3 s) := by
  unfold strcPast
  split
  · extract_lets +onlyGivenNames y1
    have h2 : Evolves M P a y1 := by
      unfold y1
      refine Evolves.incWrapG .cache rfl (hm.bit rfl) rfl ?_
      exact h
    clear_value y1
    refine Evolves.ite ?_ ?_
    · refine hitLine_ev _ _ _ _ (hm.of rfl) ?_
      exact h2
    · refine direct_ev _ _ _ (hm.of rfl) ?_
      refine lineDrop_ev _ (hm.of rfl) ?_
      exact h2
  · split
    · extract_lets +onlyGivenNames y3
      refine served_ev _ _ _ _ (hm.of rfl) ?_
      refine modStrc_ev _ (hm.of rfl) ?_
      refine Evolves.incWrapG .cache rfl (hm.bit rfl) rfl ?_
      exact h
    · split
      · extract_lets +onlyGivenNames y4
        have h5 : Evolves M P a y4 := by
          unfold y4
          refine Evolves.incWrapG .cache rfl (hm.bit rfl) rfl ?_
          exact h
        clear_value y4
        refine Evolves.ite ?_ ?_
        · refine served_ev _ _ _ _ (hm.of rfl) ?_
          exact h5
        · refine direct_ev _ _ _ (hm.of rfl) ?_
          refine modStrc_ev _ (hm.of rfl) ?_
          exact h5
      · refine direct_ev _ _ _ (hm.of rfl) ?_
        refine Evolves.incWrapG .cache rfl (hm.bit rfl) rfl ?_
        exact h

theorem strcOne_ev (x1 x2 x3 : _) (hm : Sub 0x480800000800000 M) (h : Evolves M P a s) :
    Evolves M P a (strcOne x1 x2 x3 s) := by
  unfold strcOne
  extract_lets +onlyGivenNames y1
  refine Evolves.ite ?_ ?_
  · refine strcWait_ev _ _ _ (hm.of rfl) ?_
    exact h
  · refine Evolves.ite ?_ ?_
    · refine strcCached_ev _ _ _ (hm.of rfl) ?_
      exact h
    · refine strcPast_ev _ _ _ (hm.of rfl) ?_
      exact h

theorem pfStart_ev (x1 : _) (hm : Sub 0x80000000000000 M) (h : Evolves M P a s) :
    Evolves M P a (pfStart x1 s) := by
  induction x1 generalizing s with
  | zero => exact h
  | succ n ih =>
    unfold pfStart
    split
    · exact h
    · exact Evolves.ite (ih (modStrc_ev _ (hm.of rfl) h)) (Evolves.ite h (ih (modStrc_ev _ (hm.of rfl) h)))

theorem strcRetry_ev (hm : Sub 0x480800000800000 M) (h : Evolves M P a s) :
    Evolves M P a (strcRetry s) := by
  unfold strcRetry
  extract_lets +onlyGivenNames y1
  extract_lets +onlyGivenNames y2
  have h3 : Evolves M P a y2 := by
    unfold y2
    refine modStrc_ev _ (hm.of rfl) ?_
    exact h
  clear_value y2
  extract_lets +onlyGivenNames y4
  have h5 : Evolves M P a y4 := by
    unfold y4
    refine Evolves.foldl _ (fun s6 x7 h8 => ?_) ?_
    · refine strcOne_ev _ _ _ (hm.of rfl) ?_
      exact h8
    · exact h3
  clear_value y4
  refine strcShow_ev (hm.of rfl) ?_
  refine pfStart_ev _ (hm.of rfl) ?_
  exact h5

theorem strcSram_ev (x1 x2 : _) (hm : Sub 0x7fdffffffffffff M) (hall : ∀ n, P n) (h : Evolves M P a s) :
    Evolves M P a (strcSram x1 x2 s) := by
  unfold strcSram
  split
  · refine sramCorrected_ev _ _ (hm.of rfl) ?_
    exact h
  · extract_lets +onlyGivenNames y1
    have h2 : Evolves M P a y1 := by
      unfold y1
      refine sramLost_ev _ _ (hm.of rfl) ?_
      exact h
    clear_value y1
    split
    · exact h2
    · refine Evolves.ite ?_ ?_
      · refine ddrUeOp_ev _ _ (hm.of rfl) hall ?_
        refine lineDrop_ev _ (hm.of rfl) ?_
        exact h2
      · refine lineDrop_ev _ (hm.of rfl) ?_
        exact h2

theorem strcAccessOp_ev (x1 x2 x3 x4 : _) (hm : Sub 0x7fdffffffffffff M) (hall : ∀ n, P n) (h : Evolves M P a s) :
    Evolves M P a (strcAccessOp x1 x2 x3 x4 s) := by
  unfold strcAccessOp
  refine Evolves.ite ?_ ?_
  · exact h
  · extract_lets +onlyGivenNames y1
    have h2 : Evolves M P a y1 := by
      unfold y1
      split
      · refine strcSram_ev _ _ (hm.of rfl) hall ?_
        exact h
      · exact h
    clear_value y1
    refine strcShow_ev (hm.of rfl) ?_
    refine strcOne_ev _ _ _ (hm.of rfl) ?_
    exact h2

theorem fillPut_ev (x1 x2 : _) (hm : Sub 0x80000000000000 M) (h : Evolves M P a s) :
    Evolves M P a (fillPut x1 x2 s) := by
  unfold fillPut
  refine Evolves.ite ?_ ?_
  · exact h
  · split
    · refine linePut_ev _ _ (hm.of rfl) ?_
      exact h
    · refine modStrc_ev _ (hm.of rfl) ?_
      exact h

theorem fillDone_ev (x1 x2 : _) (hm : Sub 0x7fdffffffffffff M) (hall : ∀ n, P n) (h : Evolves M P a s) :
    Evolves M P a (fillDone x1 x2 s) := by
  unfold fillDone
  split
  · exact h
  · extract_lets +onlyGivenNames y1
    have h2 : Evolves M P a y1 := by
      unfold y1
      refine modStrc_ev _ (hm.of rfl) ?_
      exact h
    clear_value y1
    extract_lets +onlyGivenNames y3
    split
    · refine strcRetry_ev (hm.of rfl) ?_
      refine ddrUeOp_ev _ _ (hm.of rfl) hall ?_
      refine Evolves.foldl _ (fun s4 x5 h6 => ?_) ?_
      · refine Evolves.ite ?_ ?_
        · exact h6
        · refine direct_ev _ _ _ (hm.of rfl) ?_
          exact h6
      · exact h2
    · refine strcRetry_ev (hm.of rfl) ?_
      refine Evolves.foldl _ (fun s7 x8 h9 => ?_) ?_
      · unfold y3
        split
        · refine hitLine_ev _ _ _ _ (hm.of rfl) ?_
          exact h9
        · refine strcOne_ev _ _ _ (hm.of rfl) ?_
          exact h9
      · refine fillPut_ev _ _ (hm.of rfl) ?_
        refine Evolves.incG .ddr rfl (hm.bit rfl) rfl ?_
        exact h2
    · refine strcRetry_ev (hm.of rfl) ?_
      refine Evolves.foldl _ (fun s10 x11 h12 => ?_) ?_
      · unfold y3
        split
        · refine hitLine_ev _ _ _ _ (hm.of rfl) ?_
          exact h12
        · refine strcOne_ev _ _ _ (hm.of rfl) ?_
          exact h12
      · refine fillPut_ev _ _ (hm.of rfl) ?_
        exact h2

theorem evbWrite_ev (hm : Sub 0x480800000800000 M) (h : Evolves M P a s) :
    Evolves M P a (evbWrite s) := by
  unfold evbWrite
  split
  · exact h
  · refine strcRetry_ev (hm.of rfl) ?_
    refine modStrc_ev _ (hm.of rfl) ?_
    refine Evolves.dramSet (hm.bit rfl) ?_
    exact h

theorem prefetch_ev (x1 x2 : _) (hm : Sub 0x480800000800000 M) (h : Evolves M P a s) :
    Evolves M P a (prefetch x1 x2 s) := by
  unfold prefetch
  refine Evolves.ite ?_ ?_
  · exact h
  · extract_lets +onlyGivenNames y1
    refine strcRetry_ev (hm.of rfl) ?_
    refine modStrc_ev _ (hm.of rfl) ?_
    exact h

theorem strcOp_ev (x1 : _) (hm : Sub 0x800000 M) (hx1 : ∀ t, Evolves M P a t → Evolves M P a (x1 t)) (h : Evolves M P a s) :
    Evolves M P a (strcOp x1 s) := by
  unfold strcOp
  refine Evolves.ite ?_ ?_
  · refine Evolves.putG .cache rfl (hm.bit rfl) rfl ?_
    exact h
  · refine strcShow_ev (hm.of rfl) ?_
    apply hx1
    refine Evolves.putG .cache rfl (hm.bit rfl) rfl ?_
    exact h

theorem cleanOp_ev (hm : Sub 0x80800000000000 M) (h : Evolves M P a s) :
    Evolves M P a (cleanOp s) := by
  unfold cleanOp
  extract_lets +onlyGivenNames y1
  extract_lets +onlyGivenNames y2
  have h3 : Evolves M P a y2 := by
    unfold y2
    refine Evolves.foldl _ (fun s4 x5 h6 => ?_) ?_
    · refine Evolves.dramSet (hm.bit rfl) ?_
      exact h6
    · exact h
  clear_value y2
  refine modStrc_ev _ (hm.of rfl) ?_
  exact h3

theorem invalOp_ev (hm : Sub 0x80000000800000 M) (h : Evolves M P a s) :
    Evolves M P a (invalOp s) := by
  unfold invalOp
  extract_lets +onlyGivenNames y1
  extract_lets +onlyGivenNames y2
  have h3 : Evolves M P a y2 := by
    unfold y2
    refine modStrc_ev _ (hm.of rfl) ?_
    exact h
  clear_value y2
  refine Evolves.ite ?_ ?_
  · exact h3
  · refine Evolves.putG .cache rfl (hm.bit rfl) rfl ?_
    refine Evolves.incByG .cache rfl (hm.bit rfl) rfl ?_
    exact h3

theorem lockLine_ev (x1 x2 : _) (hm : Sub 0x80800000000000 M) (h : Evolves M P a s) :
    Evolves M P a (lockLine x1 x2 s) := by
  unfold lockLine
  extract_lets k here t hit new u
  have ht : Evolves M P a t := by
    unfold t
    cases here with
    | none => exact h
    | some l => exact Evolves.ite (h.dramSet (hm.bit rfl)) h
  have hu : Evolves M P a u := by
    unfold u
    cases hit with
    | none => exact ht
    | some l => exact lineDrop_ev _ (hm.of rfl) ht
  exact linePut_ev _ _ (hm.of rfl) (modStrc_ev _ (hm.of rfl) hu)

theorem lockFill_ev (hm : Sub 0x80800000800000 M) (h : Evolves M P a s) :
    Evolves M P a (lockFill s) := by
  unfold lockFill
  extract_lets +onlyGivenNames y1
  refine Evolves.ite ?_ ?_
  · refine strcOp_ev _ (hm.of rfl) ?_ ?_
    · intro s2
      intro h3
      refine Evolves.ite ?_ ?_
      · exact h3
      · refine Evolves.foldl _ (fun s4 x5 h6 => ?_) ?_
        · refine lockLine_ev _ _ (hm.of rfl) ?_
          exact h6
        · exact h3
    · exact h
  · refine Evolves.putG .cache rfl (hm.bit rfl) rfl ?_
    exact h

theorem strcOpEnd_ev (hm : Sub 0x800000 M) (h : Evolves M P a s) :
    Evolves M P a (strcOpEnd s) := by
  unfold strcOpEnd
  refine Evolves.ite ?_ ?_
  · extract_lets +onlyGivenNames y1
    have h2 : Evolves M P a y1 := by
      unfold y1
      refine Evolves.putG .cache rfl (hm.bit rfl) rfl ?_
      refine Evolves.putG .cache rfl (hm.bit rfl) rfl ?_
      exact h
    clear_value y1
    refine Evolves.ite ?_ ?_
    · refine Evolves.putG .cache rfl (hm.bit rfl) rfl ?_
      exact h2
    · exact h2
  · exact h

theorem strcEnableOp_ev (hm : Sub 0x800000 M) (h : Evolves M P a s) :
    Evolves M P a (strcEnableOp s) := by
  unfold strcEnableOp
  refine Evolves.ite ?_ ?_
  · refine Evolves.putG .cache rfl (hm.bit rfl) rfl ?_
    exact h
  · extract_lets +onlyGivenNames y1
    have h2 : Evolves M P a y1 := by
      unfold y1
      refine Evolves.putG .cache rfl (hm.bit rfl) rfl ?_
      exact h
    clear_value y1
    refine Evolves.ite ?_ ?_
    · refine Evolves.putG .cache rfl (hm.bit rfl) rfl ?_
      exact h2
    · exact h2

theorem strcDisableOp_ev (hm : Sub 0x800000 M) (h : Evolves M P a s) :
    Evolves M P a (strcDisableOp s) := by
  unfold strcDisableOp
  extract_lets +onlyGivenNames y1
  have h2 : Evolves M P a y1 := by
    unfold y1
    refine Evolves.putG .cache rfl (hm.bit rfl) rfl ?_
    exact h
  clear_value y1
  refine Evolves.ite ?_ ?_
  · refine Evolves.putG .cache rfl (hm.bit rfl) rfl ?_
    exact h2
  · exact h2

theorem drainEnd_ev (hm : Sub 0x480800000800000 M) (h : Evolves M P a s) :
    Evolves M P a (drainEnd s) := by
  unfold drainEnd
  refine Evolves.ite ?_ ?_
  · exact h
  · extract_lets +onlyGivenNames y1
    have h2 : Evolves M P a y1 := by
      unfold y1
      refine Evolves.foldl _ (fun s3 x4 h5 => ?_) ?_
      · refine Evolves.dramSet (hm.bit rfl) ?_
        exact h5
      · exact h
    clear_value y1
    extract_lets +onlyGivenNames y6
    have h7 : Evolves M P a y6 := by
      unfold y6
      refine modStrc_ev _ (hm.of rfl) ?_
      exact h2
    clear_value y6
    refine strcRetry_ev (hm.of rfl) ?_
    refine Evolves.putG .cache rfl (hm.bit rfl) rfl ?_
    refine Evolves.putG .cache rfl (hm.bit rfl) rfl ?_
    exact h7

theorem strcInitEnd_ev (hm : Sub 0x480800000800000 M) (h : Evolves M P a s) :
    Evolves M P a (strcInitEnd s) := by
  unfold strcInitEnd
  refine Evolves.ite ?_ ?_
  · exact h
  · refine strcRetry_ev (hm.of rfl) ?_
    refine Evolves.putG .cache rfl (hm.bit rfl) rfl ?_
    exact h

theorem windowWrite_ev (x1 x2 x3 x4 : _) (hm : Sub 0x80000000800000 M) (h : Evolves M P a s) :
    Evolves M P a (windowWrite x1 x2 x3 x4 s) := by
  unfold windowWrite
  extract_lets +onlyGivenNames y1
  refine Evolves.ite ?_ ?_
  · split
    · refine strcShow_ev (hm.of rfl) ?_
      refine linePut_ev _ _ (hm.of rfl) ?_
      exact h
    · exact h
  · refine Evolves.ite ?_ ?_
    · refine modStrc_ev _ (hm.of rfl) ?_
      exact h
    · exact h

theorem partWrite_ev (x1 x2 : _) (hm : Sub 0x800000 M) (h : Evolves M P a s) :
    Evolves M P a (partWrite x1 x2 s) := by
  unfold partWrite
  extract_lets +onlyGivenNames y1
  extract_lets +onlyGivenNames y2
  refine Evolves.ite ?_ ?_
  · refine Evolves.wrG .cache (Reg.group_cache rfl (by dsimp only [spareRes]; omega) (by dsimp only [spareRes]; omega)) (hm.bit rfl) rfl ?_
    exact h
  · refine Evolves.putG .cache rfl (hm.bit rfl) rfl ?_
    exact h

theorem strcCntClear_ev (x1 : _) (hm : Sub 0x800000 M) (h : Evolves M P a s) :
    Evolves M P a (strcCntClear x1 s) := by
  unfold strcCntClear
  refine Evolves.putG .cache rfl (hm.bit rfl) rfl ?_
  refine Evolves.putG .cache rfl (hm.bit rfl) rfl ?_
  refine Evolves.putG .cache rfl (hm.bit rfl) rfl ?_
  exact h

theorem execStrcAccess_next (x1 x2 x3 x4 x5 : _) (hm : Sub 0x7fdffffffffffff M) (hall : ∀ n, P n) :
    ∃ t, (execStrcAccess x1 x2 x3 x4 x5 s) = .next t ∧ Evolves M P s t := by
  refine ⟨_, rfl, ?_⟩
  have h := Evolves.refl M P s
  refine armDrain_ev (hm.of rfl) ?_
  refine strcAccessOp_ev _ _ _ _ (hm.of rfl) hall ?_
  exact h

theorem execStrcFillDone_next (x1 x2 : _) (hm : Sub 0x7fdffffffffffff M) (hall : ∀ n, P n) :
    ∃ t, (execStrcFillDone x1 x2 s) = .next t ∧ Evolves M P s t := by
  refine ⟨_, rfl, ?_⟩
  have h := Evolves.refl M P s
  refine armDrain_ev (hm.of rfl) ?_
  refine fillDone_ev _ _ (hm.of rfl) hall ?_
  exact h

theorem execStrcWriteback_next (hm : Sub 0x480800000800000 M) :
    ∃ t, (execStrcWriteback s) = .next t ∧ Evolves M P s t := by
  refine ⟨_, rfl, ?_⟩
  have h := Evolves.refl M P s
  refine evbWrite_ev (hm.of rfl) ?_
  exact h

theorem execStrcPrefetch_next (x1 x2 : _) (hm : Sub 0x480800000800000 M) :
    ∃ t, (execStrcPrefetch x1 x2 s) = .next t ∧ Evolves M P s t := by
  refine ⟨_, rfl, ?_⟩
  have h := Evolves.refl M P s
  refine prefetch_ev _ _ (hm.of rfl) ?_
  exact h

theorem execStrcInval_next (hm : Sub 0x80000000800000 M) :
    ∃ t, (execStrcInval s) = .next t ∧ Evolves M P s t := by
  refine ⟨_, rfl, ?_⟩
  have h := Evolves.refl M P s
  refine strcOp_ev _ (hm.of rfl) ?_ ?_
  · intro s1
    intro h2
    refine invalOp_ev (hm.of rfl) ?_
    exact h2
  · exact h

theorem execStrcClean_next (hm : Sub 0x80800000800000 M) :
    ∃ t, (execStrcClean s) = .next t ∧ Evolves M P s t := by
  refine ⟨_, rfl, ?_⟩
  have h := Evolves.refl M P s
  refine strcOp_ev _ (hm.of rfl) ?_ ?_
  · intro s1
    intro h2
    refine cleanOp_ev (hm.of rfl) ?_
    exact h2
  · exact h

theorem execStrcCleanInval_next (hm : Sub 0x80800000800000 M) :
    ∃ t, (execStrcCleanInval s) = .next t ∧ Evolves M P s t := by
  refine ⟨_, rfl, ?_⟩
  have h := Evolves.refl M P s
  refine strcOp_ev _ (hm.of rfl) ?_ ?_
  · intro s1
    intro h2
    refine invalOp_ev (hm.of rfl) ?_
    refine cleanOp_ev (hm.of rfl) ?_
    exact h2
  · exact h

theorem execStrcLockfill_next (hm : Sub 0x80800000800000 M) :
    ∃ t, (execStrcLockfill s) = .next t ∧ Evolves M P s t := by
  refine ⟨_, rfl, ?_⟩
  have h := Evolves.refl M P s
  refine lockFill_ev (hm.of rfl) ?_
  exact h

theorem execStrcOpDone_next (hm : Sub 0x800000 M) :
    ∃ t, (execStrcOpDone s) = .next t ∧ Evolves M P s t := by
  refine ⟨_, rfl, ?_⟩
  have h := Evolves.refl M P s
  refine strcOpEnd_ev (hm.of rfl) ?_
  exact h

theorem execStrcEnable_next (hm : Sub 0x800000 M) :
    ∃ t, (execStrcEnable s) = .next t ∧ Evolves M P s t := by
  refine ⟨_, rfl, ?_⟩
  have h := Evolves.refl M P s
  refine strcEnableOp_ev (hm.of rfl) ?_
  exact h

theorem execStrcDisable_next (hm : Sub 0x800000 M) :
    ∃ t, (execStrcDisable s) = .next t ∧ Evolves M P s t := by
  refine ⟨_, rfl, ?_⟩
  have h := Evolves.refl M P s
  refine strcDisableOp_ev (hm.of rfl) ?_
  exact h

theorem execStrcDrainDone_next (hm : Sub 0x480800000800000 M) :
    ∃ t, (execStrcDrainDone s) = .next t ∧ Evolves M P s t := by
  refine ⟨_, rfl, ?_⟩
  have h := Evolves.refl M P s
  refine drainEnd_ev (hm.of rfl) ?_
  exact h

theorem execStrcInitDone_next (hm : Sub 0x480800000800000 M) :
    ∃ t, (execStrcInitDone s) = .next t ∧ Evolves M P s t := by
  refine ⟨_, rfl, ?_⟩
  have h := Evolves.refl M P s
  refine strcInitEnd_ev (hm.of rfl) ?_
  exact h

theorem execStrcWindowWrite_next (x1 x2 x3 x4 : _) (hm : Sub 0x80000000800000 M) :
    ∃ t, (execStrcWindowWrite x1 x2 x3 x4 s) = .next t ∧ Evolves M P s t := by
  refine ⟨_, rfl, ?_⟩
  have h := Evolves.refl M P s
  refine windowWrite_ev _ _ _ _ (hm.of rfl) ?_
  exact h

theorem execStrcPartWrite_next (x1 x2 : _) (hm : Sub 0x800000 M) :
    ∃ t, (execStrcPartWrite x1 x2 s) = .next t ∧ Evolves M P s t := by
  refine ⟨_, rfl, ?_⟩
  have h := Evolves.refl M P s
  refine partWrite_ev _ _ (hm.of rfl) ?_
  exact h

theorem execStrcCntClr_next (x1 : _) (hm : Sub 0x800000 M) :
    ∃ t, (execStrcCntClr x1 s) = .next t ∧ Evolves M P s t := by
  refine ⟨_, rfl, ?_⟩
  have h := Evolves.refl M P s
  refine strcCntClear_ev _ (hm.of rfl) ?_
  exact h

end Sys2Proof.Machine
end

