-- ==== Sys2Proof/Laws/Arbiter.lean ====
section
/-! SUPPORT. One lemma per operation of Machine/Arbiter.lean: the parts of the state it can touch and what it needs of the engines (`Evolves`). -/

namespace Sys2Proof.Machine

variable {M : Nat} {P : Nat → Prop} {a s : State}

theorem draw_ev (x1 : _) (hm : Sub 0x400000 M) (h : Evolves M P a s) :
    Evolves M P a (draw x1 s).2 := by
  unfold draw
  extract_lets +onlyGivenNames y1
  dsimp only
  refine Evolves.putG .arbiter rfl (hm.bit rfl) rfl ?_
  exact h

theorem contest_ev (x1 x2 : _) (hm : Sub 0x400000 M) (h : Evolves M P a s) :
    Evolves M P a (contest x1 x2 s).2.2 := by
  unfold contest
  extract_lets tier fromPool lim t c3 p2 p3 classes z
  have hp : ∀ xs t, Evolves M P a t → Evolves M P a (fromPool xs t).2.2 := fun xs u hu => (draw_ev _ (hm.of rfl) hu : Evolves M P a (draw (withTickets u xs) u).2)
  split
  · exact hp _ _ h
  · split
    · exact h
    · split
      · exact hp _ _ h
      · split
        · exact hp _ _ (draw_ev _ (hm.of rfl) h)
        · exact hp _ _ h

theorem maskedClear_ev (hm : Sub 0x80000000000000 M) (h : Evolves M P a s) :
    Evolves M P a (maskedClear s) := by
  unfold maskedClear
  refine modMem_ev _ (hm.of rfl) ?_
  exact h

theorem arbOp_ev (x1 : _) (hm : Sub 0x480000000400000 M) (h : Evolves M P a s) : Evolves M P a (arbOp x1 s) := by
  unfold arbOp
  extract_lets s1 gs z t u
  have h1 : Evolves M P a s1 := maskedClear_ev (hm.of rfl) h
  refine Evolves.ite h1 ?_
  have hz : Evolves M P a z.2.2 := contest_ev _ _ (hm.of rfl) h1
  have ht : Evolves M P a t := Evolves.ite (hz.incG .arbiter rfl (hm.bit rfl) rfl) hz
  exact Evolves.emit (hm.bit rfl) (modMem_ev _ (hm.of rfl) ht)

theorem seedWrite_ev (x1 : _) (hm : Sub 0x400000 M) (h : Evolves M P a s) :
    Evolves M P a (seedWrite x1 s) := by
  unfold seedWrite
  extract_lets +onlyGivenNames y1
  refine Evolves.putG .arbiter rfl (hm.bit rfl) rfl ?_
  exact h

theorem modCu_ev (x1 x2 : _) (hm : Sub 0x100000000000000 M) (h : Evolves M P a s) :
    Evolves M P a (modCu x1 x2 s) := by
  unfold modCu
  refine Evolves.withSec (hm.bit rfl) rfl ?_
  exact h

theorem cuShow_ev (hm : Sub 0x20000 M) (h : Evolves M P a s) :
    Evolves M P a (cuShow s) := by
  unfold cuShow
  refine Evolves.putG .security rfl (hm.bit rfl) rfl ?_
  exact h

theorem jobReady_ev (x1 x2 x3 x4 x5 : _) (hm : Sub 0x540000020020000 M) (h : Evolves M P a s) :
    Evolves M P a (jobReady x1 x2 x3 x4 x5 s) := by
  unfold jobReady
  refine Evolves.ite ?_ ?_
  · exact h
  · refine Evolves.ite ?_ ?_
    · extract_lets +onlyGivenNames y1
      have h2 : Evolves M P a y1 := by
        unfold y1
        refine Evolves.emit (hm.bit rfl) ?_
        exact h
      clear_value y1
      split
      · exact h2
      · refine finish_ev _ _ _ _ (hm.of rfl) ?_
        exact h2
    · extract_lets +onlyGivenNames y3
      extract_lets +onlyGivenNames y4
      split
      · refine cuShow_ev (hm.of rfl) ?_
        refine modCu_ev _ _ (hm.of rfl) ?_
        exact h
      · refine Evolves.ite ?_ ?_
        · refine Evolves.incG .security rfl (hm.bit rfl) rfl ?_
          refine modCu_ev _ _ (hm.of rfl) ?_
          exact h
        · refine modCu_ev _ _ (hm.of rfl) ?_
          exact h

theorem jobDone_ev (x1 : _) (hm : Sub 0x100000000020000 M) (h : Evolves M P a s) :
    Evolves M P a (jobDone x1 s) := by
  unfold jobDone
  extract_lets +onlyGivenNames y1
  refine Evolves.ite ?_ ?_
  · exact h
  · extract_lets +onlyGivenNames y2
    refine cuShow_ev (hm.of rfl) ?_
    refine modCu_ev _ _ (hm.of rfl) ?_
    exact h

theorem execArbiterContest_next (x1 : _) (hm : Sub 0x480000000400000 M) :
    ∃ t, (execArbiterContest x1 s) = .next t ∧ Evolves M P s t := by
  refine ⟨_, rfl, ?_⟩
  have h := Evolves.refl M P s
  refine arbOp_ev _ (hm.of rfl) ?_
  exact h

theorem execArbSeedWrite_next (x1 : _) (hm : Sub 0x400000 M) :
    ∃ t, (execArbSeedWrite x1 s) = .next t ∧ Evolves M P s t := by
  refine ⟨_, rfl, ?_⟩
  have h := Evolves.refl M P s
  refine seedWrite_ev _ (hm.of rfl) ?_
  exact h

theorem execCipherJobReady_next (x1 x2 x3 x4 x5 : _) (hm : Sub 0x540000020020000 M) :
    ∃ t, (execCipherJobReady x1 x2 x3 x4 x5 s) = .next t ∧ Evolves M P s t := by
  refine ⟨_, rfl, ?_⟩
  have h := Evolves.refl M P s
  refine jobReady_ev _ _ _ _ _ (hm.of rfl) ?_
  exact h

theorem execCipherJobDone_next (x1 : _) (hm : Sub 0x100000000020000 M) :
    ∃ t, (execCipherJobDone x1 s) = .next t ∧ Evolves M P s t := by
  refine ⟨_, rfl, ?_⟩
  have h := Evolves.refl M P s
  refine jobDone_ev _ (hm.of rfl) ?_
  exact h

end Sys2Proof.Machine
end

