-- ==== Sys2Proof/Laws/Pcie.lean ====
section
/-! SUPPORT. One lemma per operation of Machine/Pcie.lean: the parts of the state it can touch and what it needs of the engines (`Evolves`). -/

namespace Sys2Proof.Machine

variable {M : Nat} {P : Nat → Prop} {a s : State}

theorem cfgPut_ev (x1 x2 x3 : _) (hm : Sub 0x40000000000000 M) (h : Evolves M P a s) :
    Evolves M P a (cfgPut x1 x2 x3 s) := by
  unfold cfgPut
  extract_lets +onlyGivenNames y1
  extract_lets +onlyGivenNames y2
  refine Evolves.withCqi (hm.bit rfl) ?_
  exact h

end Sys2Proof.Machine
end

