-- ==== Sys2Proof/Laws/CqiQueues.lean ====
section
/-! SUPPORT. One lemma per operation of Machine/CqiQueues.lean: the parts of the state it can touch and what it needs of the engines (`Evolves`). -/

namespace Sys2Proof.Machine

variable {M : Nat} {P : Nat → Prop} {a s : State}

theorem forget_ev (x1 x2 : _) (hm : Sub 0x30000000000000 M) (h : Evolves M P a s) :
    Evolves M P a (forget x1 x2 s) := by
  unfold forget
  extract_lets +onlyGivenNames y1
  extract_lets +onlyGivenNames y2
  have h3 : Evolves M P a y2 := by
    unfold y2
    refine Evolves.modJrn (hm.bit rfl) ?_
    exact h
  clear_value y2
  refine Evolves.modArm (hm.bit rfl) rfl ?_
  exact h3

theorem endEarly_ev (x1 x2 x3 : _) (hm : Sub 0x470000020000000 M) (h : Evolves M P a s) :
    Evolves M P a (endEarly x1 x2 x3 s) := by
  unfold endEarly
  refine finish_ev _ _ _ _ (hm.of rfl) ?_
  refine forget_ev _ _ (hm.of rfl) ?_
  exact h

theorem qerrBit_ev (x1 x2 : _) (hm : Sub 0x10000000 M) (h : Evolves M P a s) :
    Evolves M P a (qerrBit x1 x2 s) := by
  unfold qerrBit
  refine Evolves.putBitG .cqi rfl (hm.bit rfl) rfl ?_
  exact h

theorem queueFault_ev (x1 x2 x3 x4 : _) (hm : Sub 0x440000030000000 M) (h : Evolves M P a s) :
    Evolves M P a (queueFault x1 x2 x3 x4 s) := by
  unfold queueFault
  refine Evolves.ite ?_ ?_
  · exact h
  · extract_lets +onlyGivenNames y1
    have h2 : Evolves M P a y1 := by
      unfold y1
      refine Evolves.putG .queue rfl (hm.bit rfl) rfl ?_
      exact h
    clear_value y1
    extract_lets +onlyGivenNames y3
    have h4 : Evolves M P a y3 := by
      unfold y3
      refine Evolves.putG .queue rfl (hm.bit rfl) rfl ?_
      refine Evolves.putG .queue rfl (hm.bit rfl) rfl ?_
      refine Evolves.putG .queue rfl (hm.bit rfl) rfl ?_
      exact h2
    clear_value y3
    extract_lets +onlyGivenNames y5
    have h6 : Evolves M P a y5 := by
      unfold y5
      refine State.modQ_ev _ _ (hm.of rfl) ?_
      exact h4
    clear_value y5
    extract_lets +onlyGivenNames y7
    have h8 : Evolves M P a y7 := by
      unfold y7
      refine State.cqiEvent_ev .cqi rfl (hm.bit rfl) rfl (hm.of rfl) ?_
      refine qerrBit_ev _ _ (hm.of rfl) ?_
      exact h6
    clear_value y7
    refine cqPost_ev _ _ (hm.of rfl) ?_
    exact h8

theorem queueFaultAt_ev (x1 x2 : _) (hm : Sub 0x440000030000000 M) (h : Evolves M P a s) :
    Evolves M P a (queueFaultAt x1 x2 s) := by
  unfold queueFaultAt
  refine queueFault_ev _ _ _ _ (hm.of rfl) ?_
  exact h

theorem cqTake_ev (x1 x2 : _) (hm : Sub 0x440000020000000 M) (h : Evolves M P a s) :
    Evolves M P a (cqTake x1 x2 s) := by
  unfold cqTake
  refine cqFlush_ev _ (hm.of rfl) ?_
  refine State.modQ_ev _ _ (hm.of rfl) ?_
  exact h

theorem cqRead_ev (x1 x2 : _) (hm : Sub 0x440000030000000 M) (h : Evolves M P a s) :
    Evolves M P a (cqRead x1 x2 s) := by
  unfold cqRead
  refine Evolves.ite ?_ ?_
  · refine queueFaultAt_ev _ _ (hm.of rfl) ?_
    exact h
  · refine Evolves.ite ?_ ?_
    · refine queueFaultAt_ev _ _ (hm.of rfl) ?_
      exact h
    · refine cqTake_ev _ _ (hm.of rfl) ?_
      exact h

theorem idxIssue_ev (x1 : _) (hm : Sub 0x440000000000000 M) (h : Evolves M P a s) :
    Evolves M P a (idxIssue x1 s) := by
  unfold idxIssue
  extract_lets +onlyGivenNames y1
  refine Evolves.ite ?_ ?_
  · refine Evolves.emit (hm.bit rfl) ?_
    refine State.modQ_ev _ _ (hm.of rfl) ?_
    exact h
  · exact h

theorem doorSq_ev (x1 : _) (hm : Sub 0x440000000000000 M) (h : Evolves M P a s) :
    Evolves M P a (doorSq x1 s) := by
  unfold doorSq
  refine Evolves.ite ?_ ?_
  · refine idxIssue_ev _ (hm.of rfl) ?_
    refine State.modQ_ev _ _ (hm.of rfl) ?_
    exact h
  · exact h

theorem doorCq_ev (x1 x2 : _) (hm : Sub 0x440000030000000 M) (h : Evolves M P a s) :
    Evolves M P a (doorCq x1 x2 s) := by
  unfold doorCq
  refine Evolves.ite ?_ ?_
  · refine Evolves.ite ?_ ?_
    · refine cqRead_ev _ _ (hm.of rfl) ?_
      refine Evolves.emit (hm.bit rfl) ?_
      exact h
    · refine State.modQ_ev _ _ (hm.of rfl) ?_
      exact h
  · exact h

theorem fetchTo_ev (x1 x2 x3 : _) (hm : Sub 0x440000000000000 M) (h : Evolves M P a s) :
    Evolves M P a (fetchTo x1 x2 x3 s) := by
  unfold fetchTo
  extract_lets +onlyGivenNames y1
  extract_lets +onlyGivenNames y2
  refine Evolves.ite ?_ ?_
  · exact h
  · refine Evolves.emit (hm.bit rfl) ?_
    refine State.modQ_ev _ _ (hm.of rfl) ?_
    exact h

theorem lastEnd_ev (x1 : _) (hm : Sub 0x40000020000000 M) (h : Evolves M P a s) :
    Evolves M P a (lastEnd x1 s) := by
  unfold lastEnd
  extract_lets +onlyGivenNames y1
  refine Evolves.ite ?_ ?_
  · refine qShow_ev _ (hm.of rfl) ?_
    refine State.modQ_ev _ _ (hm.of rfl) ?_
    exact h
  · exact h

theorem indexDone_ev (x1 x2 x3 : _) (hm : Sub 0x440000030000000 M) (h : Evolves M P a s) :
    Evolves M P a (indexDone x1 x2 x3 s) := by
  unfold indexDone
  split
  · exact h
  · extract_lets +onlyGivenNames y1
    have h2 : Evolves M P a y1 := by
      unfold y1
      refine State.modQ_ev _ _ (hm.of rfl) ?_
      exact h
    clear_value y1
    extract_lets +onlyGivenNames y3
    have h4 : Evolves M P a y3 := by
      unfold y3
      refine Evolves.ite ?_ ?_
      · refine queueFaultAt_ev _ _ (hm.of rfl) ?_
        exact h2
      · refine Evolves.ite ?_ ?_
        · refine cqRead_ev _ _ (hm.of rfl) ?_
          exact h2
        · split
          · refine Evolves.ite ?_ ?_
            · refine fetchTo_ev _ _ _ (hm.of rfl) ?_
              refine cqTake_ev _ _ (hm.of rfl) ?_
              exact h2
            · refine cqTake_ev _ _ (hm.of rfl) ?_
              exact h2
          · refine cqTake_ev _ _ (hm.of rfl) ?_
            exact h2
    clear_value y3
    refine lastEnd_ev _ (hm.of rfl) ?_
    refine idxIssue_ev _ (hm.of rfl) ?_
    exact h4

theorem ioAdmit_ev (x1 x2 x3 x4 x5 : _) (hm : Sub 0x440000020000000 M) (h : Evolves M P a s) :
    Evolves M P a (ioAdmit x1 x2 x3 x4 x5 s) := by
  unfold ioAdmit
  extract_lets +onlyGivenNames y1
  extract_lets +onlyGivenNames y2
  split
  · refine finish_ev _ _ _ _ (hm.of rfl) ?_
    exact h
  · refine Evolves.ite ?_ ?_
    · refine finish_ev _ _ _ _ (hm.of rfl) ?_
      exact h
    · refine Evolves.ite ?_ ?_
      · refine finish_ev _ _ _ _ (hm.of rfl) ?_
        exact h
      · refine Evolves.ite ?_ ?_
        · refine finish_ev _ _ _ _ (hm.of rfl) ?_
          exact h
        · refine Evolves.ite ?_ ?_
          · refine finish_ev _ _ _ _ (hm.of rfl) ?_
            exact h
          · extract_lets +onlyGivenNames y3
            refine Evolves.ite ?_ ?_
            · refine finish_ev _ _ _ _ (hm.of rfl) ?_
              exact h
            · refine Evolves.ite ?_ ?_
              · refine finishD_ev _ _ _ _ _ (hm.of rfl) ?_
                exact h
              · refine State.modCmd_ev _ _ _ (hm.of rfl) ?_
                exact h

theorem takeIn_ev (x1 x2 x3 x4 x5 x6 x7 : _) (hm : Sub 0x440000020000000 M) (h : Evolves M P a s) :
    Evolves M P a (takeIn x1 x2 x3 x4 x5 x6 x7 s) := by
  unfold takeIn
  extract_lets +onlyGivenNames y1
  extract_lets +onlyGivenNames y2
  extract_lets +onlyGivenNames y3
  have h4 : Evolves M P a y3 := by
    unfold y3
    refine Evolves.withCqi (hm.bit rfl) ?_
    exact h
  clear_value y3
  extract_lets +onlyGivenNames y5
  have h6 : Evolves M P a y5 := by
    unfold y5
    refine qShow_ev _ (hm.of rfl) ?_
    refine State.modQ_ev _ _ (hm.of rfl) ?_
    exact h4
  clear_value y5
  refine Evolves.ite ?_ ?_
  · refine Evolves.ite ?_ ?_
    · exact h6
    · refine finish_ev _ _ _ _ (hm.of rfl) ?_
      exact h6
  · refine ioAdmit_ev _ _ _ _ _ (hm.of rfl) ?_
    exact h6

theorem slotsDone_ev (x1 x2 x3 x4 x5 : _) (hm : Sub 0x440000030000000 M) (h : Evolves M P a s) :
    Evolves M P a (slotsDone x1 x2 x3 x4 x5 s) := by
  unfold slotsDone
  extract_lets +onlyGivenNames y1
  split
  · exact h
  · refine Evolves.ite ?_ ?_
    · exact h
    · extract_lets +onlyGivenNames y2
      extract_lets +onlyGivenNames y3
      extract_lets +onlyGivenNames y4
      extract_lets +onlyGivenNames y5
      extract_lets +onlyGivenNames y6
      extract_lets +onlyGivenNames y7
      have h8 : Evolves M P a y7 := by
        unfold y7
        refine State.modQ_ev _ _ (hm.of rfl) ?_
        exact h
      clear_value y7
      extract_lets +onlyGivenNames y9
      have h10 : Evolves M P a y9 := by
        unfold y9
        refine Evolves.emit (hm.bit rfl) ?_
        refine Evolves.putG .queue rfl (hm.bit rfl) rfl ?_
        exact h8
      clear_value y9
      extract_lets +onlyGivenNames y11
      refine lastEnd_ev _ (hm.of rfl) ?_
      split
      · refine queueFault_ev _ _ _ _ (hm.of rfl) ?_
        refine Evolves.ite ?_ ?_
        · refine State.modQ_ev _ _ (hm.of rfl) ?_
          unfold y11
          refine Evolves.foldl_fst _ (fun z12 x13 h14 => ?_) ?_
          · refine Evolves.fst_ite ?_ ?_
            · dsimp only
              refine takeIn_ev _ _ _ _ _ _ _ (hm.of rfl) ?_
              exact h14
            · dsimp only
              refine takeIn_ev _ _ _ _ _ _ _ (hm.of rfl) ?_
              exact h14
          · dsimp only
            exact h10
        · unfold y11
          refine Evolves.foldl_fst _ (fun z15 x16 h17 => ?_) ?_
          · refine Evolves.fst_ite ?_ ?_
            · dsimp only
              refine takeIn_ev _ _ _ _ _ _ _ (hm.of rfl) ?_
              exact h17
            · dsimp only
              refine takeIn_ev _ _ _ _ _ _ _ (hm.of rfl) ?_
              exact h17
          · dsimp only
            exact h10
      · unfold y11
        refine Evolves.foldl_fst _ (fun z18 x19 h20 => ?_) ?_
        · refine Evolves.fst_ite ?_ ?_
          · dsimp only
            refine takeIn_ev _ _ _ _ _ _ _ (hm.of rfl) ?_
            exact h20
          · dsimp only
            refine takeIn_ev _ _ _ _ _ _ _ (hm.of rfl) ?_
            exact h20
        · dsimp only
          exact h10

theorem pbaSend_ev (x1 : _) (hm : Sub 0x440000000000000 M) (h : Evolves M P a s) :
    Evolves M P a (pbaSend x1 s) := by
  unfold pbaSend
  refine Evolves.ite ?_ ?_
  · refine State.msixReq_ev _ (hm.of rfl) ?_
    refine Evolves.withCqi (hm.bit rfl) ?_
    exact h
  · exact h

theorem msixUnmaskOp_ev (x1 : _) (hm : Sub 0x440000000000000 M) (h : Evolves M P a s) :
    Evolves M P a (msixUnmaskOp x1 s) := by
  unfold msixUnmaskOp
  refine pbaSend_ev _ (hm.of rfl) ?_
  refine Evolves.withCqi (hm.bit rfl) ?_
  exact h

theorem cqPoll_ev (x1 x2 : _) (hm : Sub 0x440000030000000 M) (h : Evolves M P a s) :
    Evolves M P a (cqPoll x1 x2 s) := by
  unfold cqPoll
  refine Evolves.ite ?_ ?_
  · refine cqRead_ev _ _ (hm.of rfl) ?_
    refine Evolves.emit (hm.bit rfl) ?_
    exact h
  · exact h

theorem hostError_ev (x1 x2 : _) (hm : Sub 0x470000030000000 M) (h : Evolves M P a s) :
    Evolves M P a (hostError x1 x2 s) := by
  unfold hostError
  extract_lets +onlyGivenNames y1
  split
  · extract_lets +onlyGivenNames y2
    refine Evolves.ite ?_ ?_
    · exact h
    · extract_lets +onlyGivenNames y3
      have h4 : Evolves M P a y3 := by
        unfold y3
        refine queueFaultAt_ev _ _ (hm.of rfl) ?_
        unfold y1
        refine State.cqiEvent_ev .cqi rfl (hm.bit rfl) rfl (hm.of rfl) ?_
        refine Evolves.emit (hm.bit rfl) ?_
        exact h
      clear_value y3
      refine lastEnd_ev _ (hm.of rfl) ?_
      refine idxIssue_ev _ (hm.of rfl) ?_
      refine State.modQ_ev _ _ (hm.of rfl) ?_
      exact h4
  · split
    · exact h
    · refine Evolves.ite ?_ ?_
      · exact h
      · extract_lets +onlyGivenNames y5
        refine finishD_ev _ _ _ _ _ (hm.of rfl) ?_
        refine forget_ev _ _ (hm.of rfl) ?_
        refine Evolves.tickFresh ?_
        unfold y1
        refine State.cqiEvent_ev .cqi rfl (hm.bit rfl) rfl (hm.of rfl) ?_
        refine Evolves.emit (hm.bit rfl) ?_
        exact h

theorem interim_ev (x1 x2 x3 : _) (hm : Sub 0x440000020000000 M) (h : Evolves M P a s) :
    Evolves M P a (interim x1 x2 x3 s) := by
  unfold interim
  split
  · exact h
  · refine Evolves.ite ?_ ?_
    · exact h
    · refine cqPost_ev _ _ (hm.of rfl) ?_
      refine State.modCmd_ev _ _ _ (hm.of rfl) ?_
      exact h

theorem deadlineOp_ev (x1 x2 : _) (hm : Sub 0x470000020000000 M) (h : Evolves M P a s) :
    Evolves M P a (deadlineOp x1 x2 s) := by
  unfold deadlineOp
  split
  · exact h
  · refine Evolves.ite ?_ ?_
    · exact h
    · refine Evolves.ite ?_ ?_
      · refine State.modCmd_ev _ _ _ (hm.of rfl) ?_
        exact h
      · refine endEarly_ev _ _ _ (hm.of rfl) ?_
        exact h

theorem ioqShow_ev (hm : Sub 0x10000000 M) (h : Evolves M P a s) :
    Evolves M P a (ioqShow s) := by
  unfold ioqShow
  refine Evolves.putG .cqi rfl (hm.bit rfl) rfl ?_
  exact h

theorem qDisable_ev (x1 x2 : _) (hm : Sub 0x440000020000000 M) (h : Evolves M P a s) :
    Evolves M P a (qDisable x1 x2 s) := by
  unfold qDisable
  extract_lets +onlyGivenNames y1
  extract_lets +onlyGivenNames y2
  have h3 : Evolves M P a y2 := by
    unfold y2
    refine Evolves.ite ?_ ?_
    · exact h
    · refine Evolves.putG .queue rfl (hm.bit rfl) rfl ?_
      exact h
  clear_value y2
  refine Evolves.ite ?_ ?_
  · refine idxIssue_ev _ (hm.of rfl) ?_
    refine qShow_ev _ (hm.of rfl) ?_
    refine State.modQ_ev _ _ (hm.of rfl) ?_
    refine Evolves.putG .queue rfl (hm.bit rfl) rfl ?_
    exact h3
  · refine Evolves.ite ?_ ?_
    · refine qShow_ev _ (hm.of rfl) ?_
      refine State.modQ_ev _ _ (hm.of rfl) ?_
      refine Evolves.putG .queue rfl (hm.bit rfl) rfl ?_
      exact h3
    · exact h3

theorem qUp_ev (x1 x2 x3 x4 : _) (hm : Sub 0x440000030000000 M) (h : Evolves M P a s) :
    Evolves M P a (qUp x1 x2 x3 x4 s) := by
  unfold qUp
  extract_lets +onlyGivenNames y1
  have h2 : Evolves M P a y1 := by
    unfold y1
    refine Evolves.putG .queue rfl (hm.bit rfl) rfl ?_
    refine Evolves.putG .queue rfl (hm.bit rfl) rfl ?_
    exact h
  clear_value y1
  extract_lets +onlyGivenNames y3
  have h4 : Evolves M P a y3 := by
    unfold y3
    refine Evolves.ite ?_ ?_
    · refine State.modQ_ev _ _ (hm.of rfl) ?_
      refine Evolves.putG .queue rfl (hm.bit rfl) rfl ?_
      refine Evolves.putG .queue rfl (hm.bit rfl) rfl ?_
      exact h2
    · exact h2
  clear_value y3
  extract_lets +onlyGivenNames y5
  have h6 : Evolves M P a y5 := by
    unfold y5
    refine qerrBit_ev _ _ (hm.of rfl) ?_
    refine Evolves.wrG .queue rfl (hm.bit rfl) rfl ?_
    exact h4
  clear_value y5
  extract_lets +onlyGivenNames y7
  have h8 : Evolves M P a y7 := by
    unfold y7
    refine Evolves.emit (hm.bit rfl) ?_
    refine State.modQ_ev _ _ (hm.of rfl) ?_
    exact h6
  clear_value y7
  split
  · refine Evolves.ite ?_ ?_
    · refine qShow_ev _ (hm.of rfl) ?_
      refine queueFaultAt_ev _ _ (hm.of rfl) ?_
      exact h8
    · refine Evolves.ite ?_ ?_
      · refine qShow_ev _ (hm.of rfl) ?_
        refine queueFaultAt_ev _ _ (hm.of rfl) ?_
        exact h8
      · refine qShow_ev _ (hm.of rfl) ?_
        refine cqTake_ev _ _ (hm.of rfl) ?_
        refine State.modQ_ev _ _ (hm.of rfl) ?_
        refine Evolves.putG .queue rfl (hm.bit rfl) rfl ?_
        exact h8
  · refine qShow_ev _ (hm.of rfl) ?_
    refine queueFaultAt_ev _ _ (hm.of rfl) ?_
    refine State.cqiEvent_ev .cqi rfl (hm.bit rfl) rfl (hm.of rfl) ?_
    refine Evolves.emit (hm.bit rfl) ?_
    exact h8

theorem qEnable_ev (x1 x2 x3 : _) (hm : Sub 0x440000030000000 M) (h : Evolves M P a s) :
    Evolves M P a (qEnable x1 x2 x3 s) := by
  unfold qEnable
  extract_lets +onlyGivenNames y1
  refine Evolves.ite ?_ ?_
  · refine Evolves.ite ?_ ?_
    · exact h
    · refine Evolves.ite ?_ ?_
      · refine Evolves.putG .queue rfl (hm.bit rfl) rfl ?_
        exact h
      · refine Evolves.ite ?_ ?_
        · exact h
        · refine qUp_ev _ _ _ _ (hm.of rfl) ?_
          exact h
  · refine Evolves.ite ?_ ?_
    · refine Evolves.ite ?_ ?_
      · refine Evolves.putG .queue rfl (hm.bit rfl) rfl ?_
        exact h
      · refine Evolves.ite ?_ ?_
        · exact h
        · refine qUp_ev _ _ _ _ (hm.of rfl) ?_
          exact h
    · exact h

theorem qEnableWrite_ev (x1 : _) (hm : Sub 0x20000000 M) (h : Evolves M P a s) :
    Evolves M P a (qEnableWrite x1 s) := by
  unfold qEnableWrite
  extract_lets +onlyGivenNames y1
  refine Evolves.ite ?_ ?_
  · refine Evolves.ite ?_ ?_
    · refine Evolves.putG .queue rfl (hm.bit rfl) rfl ?_
      exact h
    · refine Evolves.putG .queue rfl (hm.bit rfl) rfl ?_
      exact h
  · exact h

theorem heldOut_ev (hm : Sub 0x440000020000000 M) (h : Evolves M P a s) :
    Evolves M P a (heldOut s) := by
  unfold heldOut
  refine Evolves.ite ?_ ?_
  · extract_lets +onlyGivenNames y1
    extract_lets +onlyGivenNames y2
    extract_lets +onlyGivenNames y3
    have h4 : Evolves M P a y3 := by
      unfold y3
      refine Evolves.foldl _ (fun s5 x6 h7 => ?_) ?_
      · refine State.msixReq_ev _ (hm.of rfl) ?_
        exact h7
      · refine Evolves.withCqi (hm.bit rfl) ?_
        exact h
    clear_value y3
    refine Evolves.foldl _ (fun s8 x9 h10 => ?_) ?_
    · extract_lets +onlyGivenNames y11
      have h12 : Evolves M P a y11 := by
        unfold y11
        refine Evolves.ite ?_ ?_
        · exact h10
        · refine cqFlush_ev _ (hm.of rfl) ?_
          exact h10
      clear_value y11
      refine idxIssue_ev _ (hm.of rfl) ?_
      exact h12
    · exact h4
  · exact h

theorem busMaster_ev (x1 : _) (hm : Sub 0x440000030000000 M) (h : Evolves M P a s) :
    Evolves M P a (busMaster x1 s) := by
  unfold busMaster
  refine heldOut_ev (hm.of rfl) ?_
  refine Evolves.putBoolG .cqi rfl (hm.bit rfl) rfl ?_
  refine Evolves.withCqi (hm.bit rfl) ?_
  exact h

theorem cmdsEnd_ev (hm : Sub 0x70000000000000 M) (h : Evolves M P a s) :
    Evolves M P a (cmdsEnd s) := by
  unfold cmdsEnd
  extract_lets +onlyGivenNames y1
  have h2 : Evolves M P a y1 := by
    unfold y1
    refine Evolves.modJrn (hm.bit rfl) ?_
    exact h
  clear_value y1
  extract_lets +onlyGivenNames y3
  have h4 : Evolves M P a y3 := by
    unfold y3
    refine Evolves.modArm (hm.bit rfl) rfl ?_
    exact h2
  clear_value y3
  refine Evolves.withCqi (hm.bit rfl) ?_
  exact h4

theorem resetStart_ev (x1 : _) (hm : Sub 0x70000010000000 M) (h : Evolves M P a s) :
    Evolves M P a (resetStart x1 s) := by
  unfold resetStart
  refine Evolves.ite ?_ ?_
  · exact h
  · extract_lets +onlyGivenNames y1
    have h2 : Evolves M P a y1 := by
      unfold y1
      refine cmdsEnd_ev (hm.of rfl) ?_
      refine Evolves.putG .cqi rfl (hm.bit rfl) rfl ?_
      refine Evolves.putG .cqi rfl (hm.bit rfl) rfl ?_
      exact h
    clear_value y1
    refine Evolves.ite ?_ ?_
    · refine Evolves.putG .cqi rfl (hm.bit rfl) rfl ?_
      refine Evolves.withCqi (hm.bit rfl) ?_
      exact h2
    · exact h2

theorem qClear_ev (x1 : _) (hm : Sub 0x20000000 M) (h : Evolves M P a s) :
    Evolves M P a (qClear x1 s) := by
  unfold qClear
  extract_lets +onlyGivenNames y1
  have h2 : Evolves M P a y1 := by
    unfold y1
    refine Evolves.clearRegG .queue rfl (hm.bit rfl) rfl ?_
    refine Evolves.clearRegG .queue rfl (hm.bit rfl) rfl ?_
    refine Evolves.clearRegG .queue rfl (hm.bit rfl) rfl ?_
    refine Evolves.clearRegG .queue rfl (hm.bit rfl) rfl ?_
    exact h
  clear_value y1
  extract_lets +onlyGivenNames y3
  have h4 : Evolves M P a y3 := by
    unfold y3
    refine Evolves.clearRegG .queue rfl (hm.bit rfl) rfl ?_
    refine Evolves.clearRegG .queue rfl (hm.bit rfl) rfl ?_
    refine Evolves.clearRegG .queue rfl (hm.bit rfl) rfl ?_
    refine Evolves.clearRegG .queue rfl (hm.bit rfl) rfl ?_
    exact h2
  clear_value y3
  refine Evolves.clearRegG .queue rfl (hm.bit rfl) rfl ?_
  refine Evolves.clearRegG .queue rfl (hm.bit rfl) rfl ?_
  refine Evolves.clearRegG .queue rfl (hm.bit rfl) rfl ?_
  refine Evolves.clearRegG .queue rfl (hm.bit rfl) rfl ?_
  exact h4

theorem resetEnd_ev (hm : Sub 0x440000030000000 M) (h : Evolves M P a s) :
    Evolves M P a (resetEnd s) := by
  unfold resetEnd
  refine Evolves.ite ?_ ?_
  · exact h
  · extract_lets +onlyGivenNames y1
    have h2 : Evolves M P a y1 := by
      unfold y1
      refine Evolves.foldl _ (fun s3 x4 h5 => ?_) ?_
      · refine qClear_ev _ (hm.of rfl) ?_
        exact h5
      · exact h
    clear_value y1
    extract_lets +onlyGivenNames y6
    have h7 : Evolves M P a y6 := by
      unfold y6
      refine Evolves.foldl _ (fun s8 x9 h10 => ?_) ?_
      · refine Evolves.clearRegG .cqi rfl (hm.bit rfl) rfl ?_
        exact h10
      · refine Evolves.clearRegG .cqi rfl (hm.bit rfl) rfl ?_
        exact h2
    clear_value y6
    extract_lets +onlyGivenNames y11
    have h12 : Evolves M P a y11 := by
      unfold y11
      refine ioqShow_ev (hm.of rfl) ?_
      exact h7
    clear_value y11
    refine State.cqiEvent_ev .cqi rfl (hm.bit rfl) rfl (hm.of rfl) ?_
    refine Evolves.putG .cqi rfl (hm.bit rfl) rfl ?_
    refine Evolves.putG .cqi rfl (hm.bit rfl) rfl ?_
    exact h12

theorem execDoorbellSq_next (x1 : _) (hm : Sub 0x440000000000000 M) :
    ∃ t, (execDoorbellSq x1 s) = .next t ∧ Evolves M P s t := by
  refine ⟨_, rfl, ?_⟩
  have h := Evolves.refl M P s
  refine doorSq_ev _ (hm.of rfl) ?_
  exact h

theorem execDoorbellCq_next (x1 x2 : _) (hm : Sub 0x440000030000000 M) :
    ∃ t, (execDoorbellCq x1 x2 s) = .next t ∧ Evolves M P s t := by
  refine ⟨_, rfl, ?_⟩
  have h := Evolves.refl M P s
  refine doorCq_ev _ _ (hm.of rfl) ?_
  exact h

theorem execIndexReadDone_next (x1 x2 x3 : _) (hm : Sub 0x440000030000000 M) :
    ∃ t, (execIndexReadDone x1 x2 x3 s) = .next t ∧ Evolves M P s t := by
  refine ⟨_, rfl, ?_⟩
  have h := Evolves.refl M P s
  refine indexDone_ev _ _ _ (hm.of rfl) ?_
  exact h

theorem execSlotFetchDone_next (x1 x2 x3 x4 x5 : _) (hm : Sub 0x440000030000000 M) :
    ∃ t, (execSlotFetchDone x1 x2 x3 x4 x5 s) = .next t ∧ Evolves M P s t := by
  refine ⟨_, rfl, ?_⟩
  have h := Evolves.refl M P s
  refine slotsDone_ev _ _ _ _ _ (hm.of rfl) ?_
  exact h

theorem execMsixUnmask_next (x1 : _) (hm : Sub 0x440000000000000 M) :
    ∃ t, (execMsixUnmask x1 s) = .next t ∧ Evolves M P s t := by
  refine ⟨_, rfl, ?_⟩
  have h := Evolves.refl M P s
  refine msixUnmaskOp_ev _ (hm.of rfl) ?_
  exact h

theorem execCqFullPoll_next (x1 x2 : _) (hm : Sub 0x440000030000000 M) :
    ∃ t, (execCqFullPoll x1 x2 s) = .next t ∧ Evolves M P s t := by
  refine ⟨_, rfl, ?_⟩
  have h := Evolves.refl M P s
  refine cqPoll_ev _ _ (hm.of rfl) ?_
  exact h

theorem execHostMemoryError_next (x1 x2 : _) (hm : Sub 0x470000030000000 M) :
    ∃ t, (execHostMemoryError x1 x2 s) = .next t ∧ Evolves M P s t := by
  refine ⟨_, rfl, ?_⟩
  have h := Evolves.refl M P s
  refine hostError_ev _ _ (hm.of rfl) ?_
  exact h

theorem execInterimDue_next (x1 x2 x3 : _) (hm : Sub 0x440000020000000 M) :
    ∃ t, (execInterimDue x1 x2 x3 s) = .next t ∧ Evolves M P s t := by
  refine ⟨_, rfl, ?_⟩
  have h := Evolves.refl M P s
  refine interim_ev _ _ _ (hm.of rfl) ?_
  exact h

theorem execDeadlinePass_next (x1 x2 : _) (hm : Sub 0x470000020000000 M) :
    ∃ t, (execDeadlinePass x1 x2 s) = .next t ∧ Evolves M P s t := by
  refine ⟨_, rfl, ?_⟩
  have h := Evolves.refl M P s
  refine deadlineOp_ev _ _ (hm.of rfl) ?_
  exact h

theorem execQueueDisable_next (x1 x2 : _) (hm : Sub 0x440000020000000 M) :
    ∃ t, (execQueueDisable x1 x2 s) = .next t ∧ Evolves M P s t := by
  refine ⟨_, rfl, ?_⟩
  have h := Evolves.refl M P s
  refine qDisable_ev _ _ (hm.of rfl) ?_
  exact h

theorem execQueueEnable_next (x1 x2 x3 : _) (hm : Sub 0x440000030000000 M) :
    ∃ t, (execQueueEnable x1 x2 x3 s) = .next t ∧ Evolves M P s t := by
  refine ⟨_, rfl, ?_⟩
  have h := Evolves.refl M P s
  refine qEnable_ev _ _ _ (hm.of rfl) ?_
  exact h

theorem execBusMasterEnable_next (x1 : _) (hm : Sub 0x440000030000000 M) :
    ∃ t, (execBusMasterEnable x1 s) = .next t ∧ Evolves M P s t := by
  refine ⟨_, rfl, ?_⟩
  have h := Evolves.refl M P s
  refine busMaster_ev _ (hm.of rfl) ?_
  exact h

theorem execCqiFrst_next (hm : Sub 0x70000010000000 M) :
    ∃ t, (execCqiFrst s) = .next t ∧ Evolves M P s t := by
  refine ⟨_, rfl, ?_⟩
  have h := Evolves.refl M P s
  refine resetStart_ev _ (hm.of rfl) ?_
  exact h

theorem execFunctionReset_next (hm : Sub 0x70000010000000 M) :
    ∃ t, (execFunctionReset s) = .next t ∧ Evolves M P s t := by
  refine ⟨_, rfl, ?_⟩
  have h := Evolves.refl M P s
  refine resetStart_ev _ (hm.of rfl) ?_
  exact h

end Sys2Proof.Machine
end

