-- ==== Sys2Proof/Laws/CqiAdmin.lean ====
section
/-! SUPPORT. One lemma per operation of Machine/CqiAdmin.lean: the parts of the state it can touch and what it needs of the engines (`Evolves`). -/

namespace Sys2Proof.Machine

variable {M : Nat} {P : Nat → Prop} {a s : State}

theorem adminRow_ev (x1 x2 x3 : _) (hm : Sub 0x0 M) (hx3 : ∀ y1 t, Evolves M P a t → Evolves M P a (x3 y1 t)) (h : Evolves M P a s) :
    Evolves M P a (adminRow x1 x2 x3 s) := by
  unfold adminRow
  split
  · exact h
  · refine Evolves.ite ?_ ?_
    · exact h
    · apply hx3
      exact h

theorem checked_ev (x1 x2 x3 : _) (hm : Sub 0x440000020000000 M) (hx3 : ∀ t, Evolves M P a t → Evolves M P a (x3 t)) (h : Evolves M P a s) :
    Evolves M P a (checked x1 x2 x3 s) := by
  unfold checked
  split
  · refine finish_ev _ _ _ _ (hm.of rfl) ?_
    exact h
  · apply hx3
    exact h

theorem adminBad_ev (x1 x2 x3 : _) (hm : Sub 0x440000020000000 M) (h : Evolves M P a s) :
    Evolves M P a (adminBad x1 x2 x3 s) := by
  unfold adminBad
  refine finish_ev _ _ _ _ (hm.of rfl) ?_
  exact h

theorem setRunning_ev (x1 : _) (hm : Sub 0x40000000000000 M) (h : Evolves M P a s) :
    Evolves M P a (setRunning x1 s) := by
  unfold setRunning
  refine State.modCmd_ev _ _ _ (hm.of rfl) ?_
  exact h

theorem adminCommit_ev (x1 x2 x3 : _) (hm : Sub 0x470000020004000 M) (h : Evolves M P a s) :
    Evolves M P a (adminCommit x1 x2 x3 s) := by
  unfold adminCommit
  refine mapCommit_ev _ _ (hm.of rfl) ?_
  refine finishWith_ev _ _ _ _ (hm.of rfl) ?_
  exact h

theorem unlessRefusing_ev (x1 x2 : _) (hm : Sub 0x440000020000000 M) (hx2 : ∀ t, Evolves M P a t → Evolves M P a (x2 t)) (h : Evolves M P a s) :
    Evolves M P a (unlessRefusing x1 x2 s) := by
  unfold unlessRefusing
  refine Evolves.ite ?_ ?_
  · refine finish_ev _ _ _ _ (hm.of rfl) ?_
    exact h
  · apply hx2
    exact h

theorem hostWrite_ev (x1 x2 : _) (hm : Sub 0x400000000000000 M) (h : Evolves M P a s) :
    Evolves M P a (hostWrite x1 x2 s) := by
  induction x1 generalizing x2 s with
  | nil => exact h
  | cons d ds ih => exact Evolves.ite h (ih _ (h.emit (hm.bit rfl)))

theorem queueCreateOp_ev (x1 : _) (hm : Sub 0x440000030000000 M) (h : Evolves M P a s) :
    Evolves M P a (queueCreateOp x1 s) := by
  unfold queueCreateOp
  refine adminRow_ev _ _ _ (hm.of rfl) ?_ ?_
  · intro x1
    intro s2
    intro h3
    extract_lets +onlyGivenNames y4
    extract_lets +onlyGivenNames y5
    extract_lets +onlyGivenNames y6
    extract_lets +onlyGivenNames y7
    refine checked_ev _ _ _ (hm.of rfl) ?_ ?_
    · intro s8
      intro h9
      extract_lets +onlyGivenNames y10
      have h11 : Evolves M P a y10 := by
        unfold y10
        refine State.modQ_ev _ _ (hm.of rfl) ?_
        exact h9
      clear_value y10
      extract_lets +onlyGivenNames y12
      have h13 : Evolves M P a y12 := by
        unfold y12
        refine Evolves.wrG .queue rfl (hm.bit rfl) rfl ?_
        refine Evolves.wrG .queue rfl (hm.bit rfl) rfl ?_
        exact h11
      clear_value y12
      extract_lets +onlyGivenNames y14
      have h15 : Evolves M P a y14 := by
        unfold y14
        refine Evolves.wrG .queue rfl (hm.bit rfl) rfl ?_
        refine Evolves.wrG .queue rfl (hm.bit rfl) rfl ?_
        exact h13
      clear_value y14
      extract_lets +onlyGivenNames y16
      have h17 : Evolves M P a y16 := by
        unfold y16
        refine Evolves.wrG .queue rfl (hm.bit rfl) rfl ?_
        refine Evolves.wrG .queue rfl (hm.bit rfl) rfl ?_
        exact h15
      clear_value y16
      extract_lets +onlyGivenNames y18
      have h19 : Evolves M P a y18 := by
        unfold y18
        refine Evolves.putG .queue rfl (hm.bit rfl) rfl ?_
        refine Evolves.putG .queue rfl (hm.bit rfl) rfl ?_
        refine Evolves.putG .queue rfl (hm.bit rfl) rfl ?_
        refine Evolves.putG .queue rfl (hm.bit rfl) rfl ?_
        exact h17
      clear_value y18
      extract_lets +onlyGivenNames y20
      have h21 : Evolves M P a y20 := by
        unfold y20
        refine Evolves.putG .queue rfl (hm.bit rfl) rfl ?_
        refine Evolves.putG .queue rfl (hm.bit rfl) rfl ?_
        refine Evolves.putG .queue rfl (hm.bit rfl) rfl ?_
        exact h19
      clear_value y20
      refine finish_ev _ _ _ _ (hm.of rfl) ?_
      refine ioqShow_ev (hm.of rfl) ?_
      refine qShow_ev _ (hm.of rfl) ?_
      exact h21
    · exact h3
  · exact h

theorem queueDeleteOp_ev (x1 : _) (hm : Sub 0x440000030000000 M) (h : Evolves M P a s) :
    Evolves M P a (queueDeleteOp x1 s) := by
  unfold queueDeleteOp
  refine adminRow_ev _ _ _ (hm.of rfl) ?_ ?_
  · intro x1
    intro s2
    intro h3
    extract_lets +onlyGivenNames y4
    extract_lets +onlyGivenNames y5
    refine checked_ev _ _ _ (hm.of rfl) ?_ ?_
    · intro s6
      intro h7
      refine finish_ev _ _ _ _ (hm.of rfl) ?_
      refine ioqShow_ev (hm.of rfl) ?_
      refine qClear_ev _ (hm.of rfl) ?_
      refine qerrBit_ev _ _ (hm.of rfl) ?_
      refine State.modQ_ev _ _ (hm.of rfl) ?_
      exact h7
    · exact h3
  · exact h

theorem abortOp_ev (x1 : _) (hm : Sub 0x470000020000000 M) (h : Evolves M P a s) :
    Evolves M P a (abortOp x1 s) := by
  unfold abortOp
  refine adminRow_ev _ _ _ (hm.of rfl) ?_ ?_
  · intro x1
    intro s2
    intro h3
    extract_lets +onlyGivenNames y4
    extract_lets +onlyGivenNames y5
    extract_lets +onlyGivenNames y6
    refine Evolves.ite ?_ ?_
    · unfold y6
      refine Evolves.ite ?_ ?_
      · exact h3
      · refine finish_ev _ _ _ _ (hm.of rfl) ?_
        exact h3
    · refine checked_ev _ _ _ (hm.of rfl) ?_ ?_
      · intro s7
        intro h8
        split
        · refine finish_ev _ _ _ _ (hm.of rfl) ?_
          exact h8
        · refine Evolves.ite ?_ ?_
          · refine finish_ev _ _ _ _ (hm.of rfl) ?_
            exact h8
          · unfold y6
            refine Evolves.ite ?_ ?_
            · refine setRunning_ev _ (hm.of rfl) ?_
              refine endEarly_ev _ _ _ (hm.of rfl) ?_
              exact h8
            · refine finish_ev _ _ _ _ (hm.of rfl) ?_
              refine setRunning_ev _ (hm.of rfl) ?_
              refine endEarly_ev _ _ _ (hm.of rfl) ?_
              exact h8
      · exact h3
  · exact h

theorem getLogOp_ev (x1 : _) (hm : Sub 0x440000020000000 M) (h : Evolves M P a s) :
    Evolves M P a (getLogOp x1 s) := by
  unfold getLogOp
  refine adminRow_ev _ _ _ (hm.of rfl) ?_ ?_
  · intro x1
    intro s2
    intro h3
    extract_lets +onlyGivenNames y4
    extract_lets +onlyGivenNames y5
    extract_lets +onlyGivenNames y6
    refine checked_ev _ _ _ (hm.of rfl) ?_ ?_
    · intro s7
      intro h8
      refine Evolves.ite ?_ ?_
      · exact h8
      · extract_lets +onlyGivenNames y9
        extract_lets +onlyGivenNames y10
        have h11 : Evolves M P a y10 := by
          unfold y10
          refine hostWrite_ev _ _ (hm.of rfl) ?_
          exact h8
        clear_value y10
        refine finish_ev _ _ _ _ (hm.of rfl) ?_
        exact h11
    · exact h3
  · exact h

theorem settingTakes_ev (x1 : _) (hm : Sub 0x50000000000 M) (hall : ∀ n, P n) (h : Evolves M P a s) :
    Evolves M P a (settingTakes x1 s) := by
  unfold settingTakes
  refine Evolves.ite ?_ ?_
  · refine Evolves.modSpn (hm.bit rfl) (hall _) ?_
    exact h
  · refine Evolves.ite ?_ ?_
    · refine Evolves.modMech (hm.bit rfl) (hall _) ?_
      exact h
    · exact h

theorem mechApply_ev (x1 : _) (hm : Sub 0x2040000000080 M) (e1 : P x1.val) (h : Evolves M P a s) :
    Evolves M P a (mechApply x1 s) := by
  unfold mechApply
  refine Evolves.ite ?_ ?_
  · extract_lets +onlyGivenNames y1
    have h2 : Evolves M P a y1 := by
      unfold y1
      refine Evolves.withEncOffs (hm.bit rfl) ?_
      exact h
    clear_value y1
    extract_lets +onlyGivenNames y3
    have h4 : Evolves M P a y3 := by
      unfold y3
      refine Evolves.foldl _ (fun s5 x6 h7 => ?_) ?_
      · refine Evolves.put .slg (Reg.group_slg rfl (by dsimp only [spareRes]; omega) (by dsimp only [spareRes]; omega)) (hm.bit rfl) e1 ?_
        refine Evolves.putInt .slg (Reg.group_slg rfl (by dsimp only [spareRes]; omega) (by dsimp only [spareRes]; omega)) (hm.bit rfl) e1 ?_
        exact h7
      · exact h2
    clear_value y3
    refine Evolves.modMech (hm.bit rfl) e1 ?_
    exact h4
  · exact h

theorem mechAll_ev (hm : Sub 0x2040000000080 M) (hall : ∀ n, P n) (h : Evolves M P a s) :
    Evolves M P a (mechAll s) := by
  unfold mechAll
  refine Evolves.foldl _ (fun s1 x2 h3 => ?_) ?_
  · refine mechApply_ev _ (hm.of rfl) (hall _) ?_
    exact h3
  · exact h

theorem commitOr_ev (x1 x2 x3 x4 : _) (hm : Sub 0x471000030004000 M) 
    (hx4 : ∀ t, Evolves M P a t → Evolves M P a (x4 t)) (h : Evolves M P a s) : Evolves M P a (commitOr x1 x2 x3 x4 s) := by
  unfold commitOr
  extract_lets z
  have hz : Evolves M P a z.1 := plinthCommit_ev _ _ (hm.of rfl) h
  exact Evolves.ite (hx4 _ hz) (finish_ev _ _ _ _ (hm.of rfl) hz.tickFresh)

theorem setSettingsOp_ev (x1 x2 : _) (hm : Sub 0x473050030004080 M) (hall : ∀ n, P n) (h : Evolves M P a s) :
    Evolves M P a (setSettingsOp x1 x2 s) := by
  unfold setSettingsOp
  refine adminRow_ev _ _ _ (hm.of rfl) ?_ ?_
  · intro x1
    intro s2
    intro h3
    refine checked_ev _ _ _ (hm.of rfl) ?_ ?_
    · intro s4
      intro h5
      refine unlessRefusing_ev _ _ (hm.of rfl) ?_ ?_
      · intro s6
        intro h7
        split
        · exact h7
        · refine commitOr_ev _ _ _ _ (hm.of rfl) ?_ ?_
          · intro s8
            intro h9
            refine finish_ev _ _ _ _ (hm.of rfl) ?_
            refine startRebuilds_ev (hm.of rfl) ?_
            refine mechAll_ev (hm.of rfl) hall ?_
            refine Evolves.foldl _ (fun s10 x11 h12 => ?_) ?_
            · refine settingTakes_ev _ (hm.of rfl) hall ?_
              exact h12
            · exact h9
          · exact h7
      · exact h5
    · exact h3
  · exact h

theorem getSettingsOp_ev (x1 : _) (hm : Sub 0x440000020000000 M) (h : Evolves M P a s) :
    Evolves M P a (getSettingsOp x1 s) := by
  unfold getSettingsOp
  refine adminRow_ev _ _ _ (hm.of rfl) ?_ ?_
  · intro x1
    intro s2
    intro h3
    refine checked_ev _ _ _ (hm.of rfl) ?_ ?_
    · intro s4
      intro h5
      refine Evolves.ite ?_ ?_
      · exact h5
      · extract_lets +onlyGivenNames y6
        refine finish_ev _ _ _ _ (hm.of rfl) ?_
        refine hostWrite_ev _ _ (hm.of rfl) ?_
        exact h5
    · exact h3
  · exact h

theorem execQueueCreate_next (x1 : _) (hm : Sub 0x440000030000000 M) :
    ∃ t, (execQueueCreate x1 s) = .next t ∧ Evolves M P s t := by
  refine ⟨_, rfl, ?_⟩
  have h := Evolves.refl M P s
  refine queueCreateOp_ev _ (hm.of rfl) ?_
  exact h

theorem execQueueDelete_next (x1 : _) (hm : Sub 0x440000030000000 M) :
    ∃ t, (execQueueDelete x1 s) = .next t ∧ Evolves M P s t := by
  refine ⟨_, rfl, ?_⟩
  have h := Evolves.refl M P s
  refine queueDeleteOp_ev _ (hm.of rfl) ?_
  exact h

theorem execAbort_next (x1 : _) (hm : Sub 0x470000020000000 M) :
    ∃ t, (execAbort x1 s) = .next t ∧ Evolves M P s t := by
  refine ⟨_, rfl, ?_⟩
  have h := Evolves.refl M P s
  refine abortOp_ev _ (hm.of rfl) ?_
  exact h

theorem execGetLog_next (x1 : _) (hm : Sub 0x440000020000000 M) :
    ∃ t, (execGetLog x1 s) = .next t ∧ Evolves M P s t := by
  refine ⟨_, rfl, ?_⟩
  have h := Evolves.refl M P s
  refine getLogOp_ev _ (hm.of rfl) ?_
  exact h

theorem execSetSettings_next (x1 x2 : _) (hm : Sub 0x473050030004080 M) (hall : ∀ n, P n) :
    ∃ t, (execSetSettings x1 x2 s) = .next t ∧ Evolves M P s t := by
  refine ⟨_, rfl, ?_⟩
  have h := Evolves.refl M P s
  refine setSettingsOp_ev _ _ (hm.of rfl) hall ?_
  exact h

theorem execGetSettings_next (x1 : _) (hm : Sub 0x440000020000000 M) :
    ∃ t, (execGetSettings x1 s) = .next t ∧ Evolves M P s t := by
  refine ⟨_, rfl, ?_⟩
  have h := Evolves.refl M P s
  refine getSettingsOp_ev _ (hm.of rfl) ?_
  exact h

end Sys2Proof.Machine
end

