-- ==== Sys2Proof/Laws/CqiMedia.lean ====
section
/-! SUPPORT. One lemma per operation of Machine/CqiMedia.lean: the parts of the state it can touch and what it needs of the engines (`Evolves`). -/

namespace Sys2Proof.Machine

variable {M : Nat} {P : Nat → Prop} {a s : State}

theorem volCreateOp_ev (x1 : _) (hm : Sub 0x470000020004000 M) (h : Evolves M P a s) :
    Evolves M P a (volCreateOp x1 s) := by
  unfold volCreateOp
  refine adminRow_ev _ _ _ (hm.of rfl) ?_ ?_
  · intro x1
    intro s2
    intro h3
    extract_lets +onlyGivenNames y4
    extract_lets +onlyGivenNames y5
    refine checked_ev _ _ _ (hm.of rfl) ?_ ?_
    · intro s6
      intro h7
      refine unlessRefusing_ev _ _ (hm.of rfl) ?_ ?_
      · intro s8
        intro h9
        extract_lets +onlyGivenNames y10
        refine adminCommit_ev _ _ _ (hm.of rfl) ?_
        exact h9
      · exact h7
    · exact h3
  · exact h

theorem runsForget_ev (x1 x2 : _) (hm : Sub 0x20000000000000 M) (h : Evolves M P a s) :
    Evolves M P a (runsForget x1 x2 s) := by
  unfold runsForget
  refine Evolves.modArm (hm.bit rfl) rfl ?_
  exact h

theorem volDeleteOp_ev (x1 : _) (hm : Sub 0x470000020004000 M) (h : Evolves M P a s) :
    Evolves M P a (volDeleteOp x1 s) := by
  unfold volDeleteOp
  refine adminRow_ev _ _ _ (hm.of rfl) ?_ ?_
  · intro x1
    intro s2
    intro h3
    extract_lets +onlyGivenNames y4
    extract_lets +onlyGivenNames y5
    extract_lets +onlyGivenNames y6
    refine Evolves.ite ?_ ?_
    · unfold y5
      refine Evolves.ite ?_ ?_
      · exact h3
      · extract_lets +onlyGivenNames y7
        extract_lets +onlyGivenNames y8
        extract_lets +onlyGivenNames y9
        extract_lets +onlyGivenNames y10
        extract_lets +onlyGivenNames y11
        have h12 : Evolves M P a y11 := by
          unfold y11
          refine runsForget_ev _ _ (hm.of rfl) ?_
          exact h3
        clear_value y11
        extract_lets +onlyGivenNames y13
        have h14 : Evolves M P a y13 := by
          unfold y13
          refine Evolves.ite ?_ ?_
          · exact h12
          · refine sealAsk_ev _ _ _ (hm.of rfl) ?_
            exact h12
        clear_value y13
        extract_lets +onlyGivenNames y15
        have h16 : Evolves M P a y15 := by
          unfold y15
          refine Evolves.ite ?_ ?_
          · exact h14
          · refine sealAsk_ev _ _ _ (hm.of rfl) ?_
            exact h14
        clear_value y15
        refine retireSeal_ev (hm.of rfl) ?_
        refine adminCommit_ev _ _ _ (hm.of rfl) ?_
        exact h16
    · refine checked_ev _ _ _ (hm.of rfl) ?_ ?_
      · intro s17
        intro h18
        refine unlessRefusing_ev _ _ (hm.of rfl) ?_ ?_
        · intro s19
          intro h20
          extract_lets +onlyGivenNames y21
          unfold y5
          refine Evolves.ite ?_ ?_
          · refine mapCommit_ev _ _ (hm.of rfl) ?_
            refine setRunning_ev _ (hm.of rfl) ?_
            exact h20
          · extract_lets +onlyGivenNames y22
            extract_lets +onlyGivenNames y23
            extract_lets +onlyGivenNames y24
            extract_lets +onlyGivenNames y25
            extract_lets +onlyGivenNames y26
            have h27 : Evolves M P a y26 := by
              unfold y26
              refine runsForget_ev _ _ (hm.of rfl) ?_
              refine mapCommit_ev _ _ (hm.of rfl) ?_
              refine setRunning_ev _ (hm.of rfl) ?_
              exact h20
            clear_value y26
            extract_lets +onlyGivenNames y28
            have h29 : Evolves M P a y28 := by
              unfold y28
              refine Evolves.ite ?_ ?_
              · exact h27
              · refine sealAsk_ev _ _ _ (hm.of rfl) ?_
                exact h27
            clear_value y28
            extract_lets +onlyGivenNames y30
            have h31 : Evolves M P a y30 := by
              unfold y30
              refine Evolves.ite ?_ ?_
              · exact h29
              · refine sealAsk_ev _ _ _ (hm.of rfl) ?_
                exact h29
            clear_value y30
            refine retireSeal_ev (hm.of rfl) ?_
            refine adminCommit_ev _ _ _ (hm.of rfl) ?_
            exact h31
        · exact h18
      · exact h3
  · exact h

theorem volSealOp_ev (x1 x2 : _) (hm : Sub 0x47d0148300060b0 M) (hall : ∀ n, P n) (h : Evolves M P a s) :
    Evolves M P a (volSealOp x1 x2 s) := by
  unfold volSealOp
  refine adminRow_ev _ _ _ (hm.of rfl) ?_ ?_
  · intro x1
    intro s2
    intro h3
    extract_lets +onlyGivenNames y4
    refine checked_ev _ _ _ (hm.of rfl) ?_ ?_
    · intro s5
      intro h6
      refine unlessRefusing_ev _ _ (hm.of rfl) ?_ ?_
      · intro s7
        intro h8
        refine Evolves.ite ?_ ?_
        · refine finish_ev _ _ _ _ (hm.of rfl) ?_
          exact h8
        · extract_lets +onlyGivenNames y9
          extract_lets +onlyGivenNames y10
          refine Evolves.ite ?_ ?_
          · refine adminCommit_ev _ _ _ (hm.of rfl) ?_
            exact h8
          · extract_lets +onlyGivenNames y11
            have h12 : Evolves M P a y11 := by
              unfold y11
              refine mapCommit_ev _ _ (hm.of rfl) ?_
              refine finishWith_ev _ _ _ _ (hm.of rfl) ?_
              refine mediaTake_ev _ (hm.of rfl) ?_
              exact h8
            clear_value y11
            refine groupClose_ev _ _ (hm.of rfl) hall ?_
            refine modGroup_ev _ _ (hm.of rfl) ?_
            exact h12
      · exact h6
    · exact h3
  · exact h

theorem volReshapeOp_ev (x1 : _) (hm : Sub 0x470000020004000 M) (h : Evolves M P a s) :
    Evolves M P a (volReshapeOp x1 s) := by
  unfold volReshapeOp
  refine adminRow_ev _ _ _ (hm.of rfl) ?_ ?_
  · intro x1
    intro s2
    intro h3
    extract_lets +onlyGivenNames y4
    extract_lets +onlyGivenNames y5
    refine checked_ev _ _ _ (hm.of rfl) ?_ ?_
    · intro s6
      intro h7
      refine unlessRefusing_ev _ _ (hm.of rfl) ?_ ?_
      · intro s8
        intro h9
        extract_lets +onlyGivenNames y10
        refine Evolves.ite ?_ ?_
        · exact h9
        · extract_lets +onlyGivenNames y11
          extract_lets +onlyGivenNames y12
          extract_lets +onlyGivenNames y13
          extract_lets +onlyGivenNames y14
          have h15 : Evolves M P a y14 := by
            unfold y14
            refine Evolves.modArm (hm.bit rfl) rfl ?_
            exact h9
          clear_value y14
          refine adminCommit_ev _ _ _ (hm.of rfl) ?_
          exact h15
      · exact h7
    · exact h3
  · exact h

theorem mediaForget_ev (x1 : _) (hm : Sub 0x20000000000000 M) (h : Evolves M P a s) :
    Evolves M P a (mediaForget x1 s) := by
  unfold mediaForget
  refine Evolves.modArm (hm.bit rfl) rfl ?_
  exact h

theorem discRegister_ev (x1 x2 x3 x4 x5 x6 : _) (hm : Sub 0x471004030004000 M) (e4 : P x4.val) (h : Evolves M P a s) :
    Evolves M P a (discRegister x1 x2 x3 x4 x5 x6 s) := by
  unfold discRegister
  extract_lets +onlyGivenNames y1
  have h2 : Evolves M P a y1 := by
    unfold y1
    refine State.modDisc_ev _ _ (hm.of rfl) ?_
    refine mediaForget_ev _ (hm.of rfl) ?_
    exact h
  clear_value y1
  extract_lets +onlyGivenNames y3
  have h4 : Evolves M P a y3 := by
    unfold y3
    refine adminCommit_ev _ _ _ (hm.of rfl) ?_
    exact h2
  clear_value y3
  extract_lets +onlyGivenNames y5
  have h6 : Evolves M P a y5 := by
    unfold y5
    refine discIn_ev _ _ (hm.of rfl) e4 ?_
    exact h4
  clear_value y5
  refine Evolves.foldl _ (fun s7 x8 h9 => ?_) ?_
  · refine targetChoose_ev _ _ (hm.of rfl) ?_
    exact h9
  · exact h6

theorem spinFull_ev (x1 : _) (hm : Sub 0x10000000020 M) (e1 : P x1.val) (h : Evolves M P a s) :
    Evolves M P a (spinFull x1 s) := by
  unfold spinFull
  refine spnTarget_ev _ _ (hm.of rfl) e1 ?_
  refine spnStartOp_ev _ (hm.of rfl) e1 ?_
  exact h

theorem mediaLoadOp_ev (x1 x2 : _) (hm : Sub 0x471014030204020 M) (hall : ∀ n, P n) (h : Evolves M P a s) :
    Evolves M P a (mediaLoadOp x1 x2 s) := by
  unfold mediaLoadOp
  refine adminRow_ev _ _ _ (hm.of rfl) ?_ ?_
  · intro x1
    intro s2
    intro h3
    extract_lets +onlyGivenNames y4
    extract_lets +onlyGivenNames y5
    extract_lets +onlyGivenNames y6
    refine checked_ev _ _ _ (hm.of rfl) ?_ ?_
    · intro s7
      intro h8
      split
      · extract_lets +onlyGivenNames y9
        have h10 : Evolves M P a y9 := by
          unfold y9
          refine Evolves.ite ?_ ?_
          · refine State.modDisc_ev _ _ (hm.of rfl) ?_
            exact h8
          · exact h8
        clear_value y9
        refine finish_ev _ _ _ _ (hm.of rfl) ?_
        exact h10
      · split
        · unfold y6
          refine finish_ev _ _ _ _ (hm.of rfl) ?_
          refine Evolves.tickFresh ?_
          exact h8
        · split
          · refine finish_ev _ _ _ _ (hm.of rfl) ?_
            exact h8
          · refine Evolves.ite ?_ ?_
            · exact h8
            · refine Evolves.ite ?_ ?_
              · refine engWake_ev _ (hm.of rfl) ?_
                exact h8
              · split
                · unfold y6
                  refine finish_ev _ _ _ _ (hm.of rfl) ?_
                  refine Evolves.tickFresh ?_
                  exact h8
                · unfold y6
                  refine finish_ev _ _ _ _ (hm.of rfl) ?_
                  refine Evolves.tickFresh ?_
                  refine Evolves.emit (hm.bit rfl) ?_
                  refine Evolves.emit (hm.bit rfl) ?_
                  refine discOut_ev _ (hm.of rfl) ?_
                  exact h8
                · extract_lets +onlyGivenNames y11
                  extract_lets +onlyGivenNames y12
                  extract_lets +onlyGivenNames y13
                  refine State.logEvent_ev _ _ (hm.of rfl) ?_
                  refine discRegister_ev _ _ _ _ _ _ (hm.of rfl) (hall _) ?_
                  refine spinFull_ev _ (hm.of rfl) (hall _) ?_
                  refine discOut_ev _ (hm.of rfl) ?_
                  exact h8
                · refine Evolves.ite ?_ ?_
                  · unfold y6
                    refine finish_ev _ _ _ _ (hm.of rfl) ?_
                    refine Evolves.tickFresh ?_
                    refine Evolves.emit (hm.bit rfl) ?_
                    refine Evolves.emit (hm.bit rfl) ?_
                    refine discOut_ev _ (hm.of rfl) ?_
                    exact h8
                  · extract_lets +onlyGivenNames y14
                    refine discRegister_ev _ _ _ _ _ _ (hm.of rfl) (hall _) ?_
                    refine spinFull_ev _ (hm.of rfl) (hall _) ?_
                    refine discOut_ev _ (hm.of rfl) ?_
                    exact h8
    · exact h3
  · exact h

theorem mediaEjectOp_ev (x1 : _) (hm : Sub 0x470000020004000 M) (h : Evolves M P a s) :
    Evolves M P a (mediaEjectOp x1 s) := by
  refine adminRow_ev _ _ _ (hm.of rfl) (fun c t ht => ?_) h
  extract_lets d
  refine checked_ev _ _ _ (hm.of rfl) (fun u hu => ?_) ht
  extract_lets at_ u1 t1 t2 t3 hs t4 u2 u3
  refine Evolves.ite hu ?_
  have h1 : Evolves M P a u1 := by
    unfold u1
    cases at_ with
    | none => exact hu
    | some e => exact discOut_ev _ (hm.of rfl) hu
  have h2 : Evolves M P a u2 := h1.modArm (hm.bit rfl) rfl
  have h3 : Evolves M P a u3 := h2.modJrn (hm.bit rfl)
  exact adminCommit_ev _ _ _ (hm.of rfl) (mediaForget_ev _ (hm.of rfl) h3)

theorem discFailCmd_ev (x1 : _) (hm : Sub 0x471000030004000 M) (h : Evolves M P a s) :
    Evolves M P a (discFailCmd x1 s) := by
  unfold discFailCmd
  refine adminRow_ev _ _ _ (hm.of rfl) ?_ ?_
  · intro x1
    intro s2
    intro h3
    extract_lets +onlyGivenNames y4
    refine checked_ev _ _ _ (hm.of rfl) ?_ ?_
    · intro s5
      intro h6
      refine unlessRefusing_ev _ _ (hm.of rfl) ?_ ?_
      · intro s7
        intro h8
        extract_lets +onlyGivenNames y9
        have h10 : Evolves M P a y9 := by
          unfold y9
          refine Evolves.ite ?_ ?_
          · refine Evolves.modArm (hm.bit rfl) rfl ?_
            exact h8
          · exact h8
        clear_value y9
        refine Evolves.ite ?_ ?_
        · refine finish_ev _ _ _ _ (hm.of rfl) ?_
          refine startRebuilds_ev (hm.of rfl) ?_
          exact h10
        · refine discFailOp_ev _ _ _ (hm.of rfl) ?_
          refine finishWith_ev _ _ _ _ (hm.of rfl) ?_
          exact h10
      · exact h6
    · exact h3
  · exact h

theorem discMigrateOp_ev (x1 : _) (hm : Sub 0x471000030004000 M) (h : Evolves M P a s) :
    Evolves M P a (discMigrateOp x1 s) := by
  unfold discMigrateOp
  refine adminRow_ev _ _ _ (hm.of rfl) ?_ ?_
  · intro x1
    intro s2
    intro h3
    extract_lets +onlyGivenNames y4
    extract_lets +onlyGivenNames y5
    refine checked_ev _ _ _ (hm.of rfl) ?_ ?_
    · intro s6
      intro h7
      refine unlessRefusing_ev _ _ (hm.of rfl) ?_ ?_
      · intro s8
        intro h9
        refine Evolves.ite ?_ ?_
        · refine finish_ev _ _ _ _ (hm.of rfl) ?_
          exact h9
        · refine startRebuilds_ev (hm.of rfl) ?_
          refine State.logEvent_ev _ _ (hm.of rfl) ?_
          refine setDiscState_ev _ _ _ (hm.of rfl) ?_
          refine finishWith_ev _ _ _ _ (hm.of rfl) ?_
          exact h9
      · exact h7
    · exact h3
  · exact h

theorem execVolCreate_next (x1 : _) (hm : Sub 0x470000020004000 M) :
    ∃ t, (execVolCreate x1 s) = .next t ∧ Evolves M P s t := by
  refine ⟨_, rfl, ?_⟩
  have h := Evolves.refl M P s
  refine volCreateOp_ev _ (hm.of rfl) ?_
  exact h

theorem execVolDelete_next (x1 : _) (hm : Sub 0x470000020004000 M) :
    ∃ t, (execVolDelete x1 s) = .next t ∧ Evolves M P s t := by
  refine ⟨_, rfl, ?_⟩
  have h := Evolves.refl M P s
  refine volDeleteOp_ev _ (hm.of rfl) ?_
  exact h

theorem execVolSeal_next (x1 x2 : _) (hm : Sub 0x47d0148300060b0 M) (hall : ∀ n, P n) :
    ∃ t, (execVolSeal x1 x2 s) = .next t ∧ Evolves M P s t := by
  refine ⟨_, rfl, ?_⟩
  have h := Evolves.refl M P s
  refine armDrain_ev (hm.of rfl) ?_
  refine volSealOp_ev _ _ (hm.of rfl) hall ?_
  exact h

theorem execVolReshape_next (x1 : _) (hm : Sub 0x470000020004000 M) :
    ∃ t, (execVolReshape x1 s) = .next t ∧ Evolves M P s t := by
  refine ⟨_, rfl, ?_⟩
  have h := Evolves.refl M P s
  refine volReshapeOp_ev _ (hm.of rfl) ?_
  exact h

theorem execMediaLoad_next (x1 x2 : _) (hm : Sub 0x471014030204020 M) (hall : ∀ n, P n) :
    ∃ t, (execMediaLoad x1 x2 s) = .next t ∧ Evolves M P s t := by
  refine ⟨_, rfl, ?_⟩
  have h := Evolves.refl M P s
  refine mediaLoadOp_ev _ _ (hm.of rfl) hall ?_
  exact h

theorem execMediaEject_next (x1 : _) (hm : Sub 0x470000020004000 M) :
    ∃ t, (execMediaEject x1 s) = .next t ∧ Evolves M P s t := by
  refine ⟨_, rfl, ?_⟩
  have h := Evolves.refl M P s
  refine mediaEjectOp_ev _ (hm.of rfl) ?_
  exact h

theorem execDiscFail_next (x1 : _) (hm : Sub 0x471000030004000 M) :
    ∃ t, (execDiscFail x1 s) = .next t ∧ Evolves M P s t := by
  refine ⟨_, rfl, ?_⟩
  have h := Evolves.refl M P s
  refine discFailCmd_ev _ (hm.of rfl) ?_
  exact h

theorem execDiscMigrate_next (x1 : _) (hm : Sub 0x471000030004000 M) :
    ∃ t, (execDiscMigrate x1 s) = .next t ∧ Evolves M P s t := by
  refine ⟨_, rfl, ?_⟩
  have h := Evolves.refl M P s
  refine discMigrateOp_ev _ (hm.of rfl) ?_
  exact h

end Sys2Proof.Machine
end

