-- ==== Sys2Proof/Laws/CqiKeys.lean ====
section
/-! SUPPORT. One lemma per operation of Machine/CqiKeys.lean: the parts of the state it can touch and what it needs of the engines (`Evolves`). -/

namespace Sys2Proof.Machine

variable {M : Nat} {P : Nat → Prop} {a s : State}

theorem keyLoadOp_ev (x1 x2 : _) (hm : Sub 0x571000030024000 M) (h : Evolves M P a s) :
    Evolves M P a (keyLoadOp x1 x2 s) := by
  unfold keyLoadOp
  refine adminRow_ev _ _ _ (hm.of rfl) ?_ ?_
  · intro x1
    intro s2
    intro h3
    extract_lets +onlyGivenNames y4
    refine checked_ev _ _ _ (hm.of rfl) ?_ ?_
    · intro s5
      intro h6
      refine Evolves.ite ?_ ?_
      · refine adminBad_ev _ _ _ (hm.of rfl) ?_
        exact h6
      · split
        · refine adminBad_ev _ _ _ (hm.of rfl) ?_
          exact h6
        · refine Evolves.ite ?_ ?_
          · refine adminBad_ev _ _ _ (hm.of rfl) ?_
            exact h6
          · refine Evolves.ite ?_ ?_
            · exact h6
            · refine unlessRefusing_ev _ _ (hm.of rfl) ?_ ?_
              · intro s7
                intro h8
                refine commitOr_ev _ _ _ _ (hm.of rfl) ?_ ?_
                · intro s9
                  intro h10
                  refine finish_ev _ _ _ _ (hm.of rfl) ?_
                  refine keySet_ev _ _ (hm.of rfl) ?_
                  exact h10
                · exact h8
              · exact h6
    · exact h3
  · exact h

theorem keyClearOp_ev (x1 x2 : _) (hm : Sub 0x571000030024000 M) (h : Evolves M P a s) :
    Evolves M P a (keyClearOp x1 x2 s) := by
  unfold keyClearOp
  refine adminRow_ev _ _ _ (hm.of rfl) ?_ ?_
  · intro x1
    intro s2
    intro h3
    extract_lets +onlyGivenNames y4
    refine checked_ev _ _ _ (hm.of rfl) ?_ ?_
    · intro s5
      intro h6
      refine Evolves.ite ?_ ?_
      · exact h6
      · refine unlessRefusing_ev _ _ (hm.of rfl) ?_ ?_
        · intro s7
          intro h8
          refine commitOr_ev _ _ _ _ (hm.of rfl) ?_ ?_
          · intro s9
            intro h10
            refine finish_ev _ _ _ _ (hm.of rfl) ?_
            refine keySet_ev _ _ (hm.of rfl) ?_
            exact h10
          · exact h8
        · exact h6
    · exact h3
  · exact h

theorem anvImagePut_ev (x1 x2 : _) (hm : Sub 0x2000000100 M) (e1 : P x1.val) (h : Evolves M P a s) :
    Evolves M P a (anvImagePut x1 x2 s) := by
  unfold anvImagePut
  extract_lets +onlyGivenNames y1
  extract_lets +onlyGivenNames y2
  extract_lets +onlyGivenNames y3
  have h4 : Evolves M P a y3 := by
    unfold y3
    refine Evolves.foldl _ (fun s5 x6 h7 => ?_) ?_
    · refine pmSet_ev _ _ _ _ (hm.of rfl) e1 ?_
      exact h7
    · exact h
  clear_value y3
  extract_lets +onlyGivenNames y8
  have h9 : Evolves M P a y8 := by
    unfold y8
    refine Evolves.ite ?_ ?_
    · refine Evolves.put .anv rfl (hm.bit rfl) e1 ?_
      exact h4
    · refine Evolves.put .anv rfl (hm.bit rfl) e1 ?_
      exact h4
  clear_value y8
  refine Evolves.foldl _ (fun s10 x11 h12 => ?_) ?_
  · refine anvDm_ev _ _ _ (hm.of rfl) e1 ?_
    exact h12
  · exact h9

theorem anvSwitch_ev (x1 : _) (hm : Sub 0x2000000100 M) (e1 : P x1.val) (h : Evolves M P a s) :
    Evolves M P a (anvSwitch x1 s) := by
  unfold anvSwitch
  extract_lets +onlyGivenNames y1
  have h2 : Evolves M P a y1 := by
    unfold y1
    refine Evolves.ite ?_ ?_
    · refine anvTripClear_ev _ (hm.of rfl) e1 ?_
      exact h
    · exact h
  clear_value y1
  extract_lets +onlyGivenNames y3
  have h4 : Evolves M P a y3 := by
    unfold y3
    refine anvBank_ev _ _ (hm.of rfl) e1 ?_
    exact h2
  clear_value y3
  refine Evolves.ite ?_ ?_
  · exact h4
  · refine anvRunOp_ev _ (hm.of rfl) e1 ?_
    exact h4

theorem policyTake_ev (x1 : _) (hm : Sub 0x20000000002000 M) (h : Evolves M P a s) :
    Evolves M P a (policyTake x1 s) := by
  unfold policyTake
  extract_lets +onlyGivenNames y1
  extract_lets +onlyGivenNames y2
  have h3 : Evolves M P a y2 := by
    unfold y2
    refine Evolves.modArm (hm.bit rfl) rfl ?_
    exact h
  clear_value y2
  extract_lets +onlyGivenNames y4
  have h5 : Evolves M P a y4 := by
    unfold y4
    refine Evolves.putG .policy rfl (hm.bit rfl) rfl ?_
    refine Evolves.putG .policy rfl (hm.bit rfl) rfl ?_
    exact h3
  clear_value y4
  extract_lets +onlyGivenNames y6
  have h7 : Evolves M P a y6 := by
    unfold y6
    refine Evolves.ite ?_ ?_
    · exact h5
    · refine Evolves.foldl _ (fun s8 x9 h10 => ?_) ?_
      · refine Evolves.wrG .policy (Reg.group_policy rfl (by dsimp only [spareRes]; omega) (by dsimp only [spareRes]; omega)) (hm.bit rfl) rfl ?_
        exact h10
      · refine Evolves.incWrapG .policy rfl (hm.bit rfl) rfl ?_
        exact h5
  clear_value y6
  refine Evolves.foldl _ (fun s11 x12 h13 => ?_) ?_
  · refine Evolves.ite ?_ ?_
    · refine Evolves.modPlc (hm.bit rfl) id ?_
      exact h13
    · refine coreReload_ev _ (hm.of rfl) ?_
      exact h13
  · exact h7

theorem programLoadOp_ev (x1 x2 : _) (hm : Sub 0x460002020202100 M) (hall : ∀ n, P n) (h : Evolves M P a s) :
    Evolves M P a (programLoadOp x1 x2 s) := by
  unfold programLoadOp
  refine adminRow_ev _ _ _ (hm.of rfl) ?_ ?_
  · intro x1
    intro s2
    intro h3
    extract_lets +onlyGivenNames y4
    extract_lets +onlyGivenNames y5
    extract_lets +onlyGivenNames y6
    extract_lets +onlyGivenNames y7
    extract_lets +onlyGivenNames y8
    extract_lets +onlyGivenNames y9
    refine Evolves.ite ?_ ?_
    · refine Evolves.ite ?_ ?_
      · unfold y9
        refine Evolves.ite ?_ ?_
        · exact h3
        · refine finish_ev _ _ _ _ (hm.of rfl) ?_
          exact h3
      · unfold y8
        refine Evolves.ite ?_ ?_
        · exact h3
        · refine finish_ev _ _ _ _ (hm.of rfl) ?_
          exact h3
    · refine checked_ev _ _ _ (hm.of rfl) ?_ ?_
      · intro s10
        intro h11
        refine Evolves.ite ?_ ?_
        · exact h11
        · refine Evolves.ite ?_ ?_
          · split
            · refine adminBad_ev _ _ _ (hm.of rfl) ?_
              exact h11
            · unfold y9
              refine Evolves.ite ?_ ?_
              · refine policyTake_ev _ (hm.of rfl) ?_
                refine setRunning_ev _ (hm.of rfl) ?_
                exact h11
              · refine finish_ev _ _ _ _ (hm.of rfl) ?_
                refine policyTake_ev _ (hm.of rfl) ?_
                refine setRunning_ev _ (hm.of rfl) ?_
                exact h11
          · split
            · refine adminBad_ev _ _ _ (hm.of rfl) ?_
              exact h11
            · refine Evolves.ite ?_ ?_
              · refine Evolves.foldl _ (fun s12 x13 h14 => ?_) ?_
                · refine engWake_ev _ (hm.of rfl) ?_
                  exact h14
                · exact h11
              · refine Evolves.ite ?_ ?_
                · exact h11
                · extract_lets +onlyGivenNames y15
                  have h16 : Evolves M P a y15 := by
                    unfold y15
                    refine Evolves.ite ?_ ?_
                    · refine Evolves.foldl _ (fun s17 x18 h19 => ?_) ?_
                      · refine anvImagePut_ev _ _ (hm.of rfl) (hall _) ?_
                        exact h19
                      · exact h11
                    · exact h11
                  clear_value y15
                  refine Evolves.ite ?_ ?_
                  · unfold y8
                    refine Evolves.ite ?_ ?_
                    · refine Evolves.foldl _ (fun s20 x21 h22 => ?_) ?_
                      · refine anvSwitch_ev _ (hm.of rfl) (hall _) ?_
                        exact h22
                      · refine setRunning_ev _ (hm.of rfl) ?_
                        exact h16
                    · refine finish_ev _ _ _ _ (hm.of rfl) ?_
                      refine Evolves.foldl _ (fun s23 x24 h25 => ?_) ?_
                      · refine anvSwitch_ev _ (hm.of rfl) (hall _) ?_
                        exact h25
                      · refine setRunning_ev _ (hm.of rfl) ?_
                        exact h16
                  · refine finish_ev _ _ _ _ (hm.of rfl) ?_
                    exact h16
      · exact h3
  · exact h

theorem calPut_ev (x1 x2 : _) (hm : Sub 0x4000000ffffffff M) (hall : ∀ n, P n) (h : Evolves M P a s) :
    Evolves M P a (calPut x1 x2 s) := by
  unfold calPut
  extract_lets +onlyGivenNames y1
  split
  · refine adcMapWrite_ev _ _ _ (hm.of rfl) (hall _) ?_
    exact h
  · split
    · refine adcTrimWrite_ev _ _ _ _ (hm.of rfl) (hall _) ?_
      exact h
    · split
      · refine chValue_ev _ _ _ _ (hm.of rfl) hall ?_
        exact h
      · refine State.wrTyped_ev _ _ _ (hm.of rfl) hall ?_
        exact h

theorem calRestoreOp_ev (x1 x2 : _) (hm : Sub 0x4400000ffffffff M) (hall : ∀ n, P n) (h : Evolves M P a s) :
    Evolves M P a (calRestoreOp x1 x2 s) := by
  unfold calRestoreOp
  refine adminRow_ev _ _ _ (hm.of rfl) ?_ ?_
  · intro x1
    intro s2
    intro h3
    extract_lets +onlyGivenNames y4
    extract_lets +onlyGivenNames y5
    refine checked_ev _ _ _ (hm.of rfl) ?_ ?_
    · intro s6
      intro h7
      refine Evolves.ite ?_ ?_
      · exact h7
      · split
        · refine adminBad_ev _ _ _ (hm.of rfl) ?_
          exact h7
        · refine Evolves.ite ?_ ?_
          · refine engWake_ev _ (hm.of rfl) ?_
            exact h7
          · refine Evolves.ite ?_ ?_
            · refine Evolves.put .tmp rfl (hm.bit rfl) (hall _) ?_
              refine State.modCmd_ev _ _ _ (hm.of rfl) ?_
              exact h7
            · extract_lets +onlyGivenNames y8
              extract_lets +onlyGivenNames y9
              have h10 : Evolves M P a y9 := by
                unfold y9
                refine Evolves.foldl _ (fun s11 x12 h13 => ?_) ?_
                · refine calPut_ev _ _ (hm.of rfl) hall ?_
                  exact h13
                · exact h7
              clear_value y9
              extract_lets +onlyGivenNames y14
              have h15 : Evolves M P a y14 := by
                unfold y14
                refine Evolves.foldl _ (fun s16 x17 h18 => ?_) ?_
                · refine Evolves.put .chain rfl (hm.bit rfl) (hall _) ?_
                  refine Evolves.put .chain rfl (hm.bit rfl) (hall _) ?_
                  refine Evolves.put .chain rfl (hm.bit rfl) (hall _) ?_
                  exact h18
                · exact h10
              clear_value y14
              refine finish_ev _ _ _ _ (hm.of rfl) ?_
              refine Evolves.putBool .tmp rfl (hm.bit rfl) (hall _) ?_
              exact h15
    · exact h3
  · exact h

theorem secOf_ev (x1 : _) (hm : Sub 0x100000000000000 M) (hf : (x1 s.sec).blown = s.sec.blown)
    (h : Evolves M P a s) : Evolves M P a (secOf x1 s) := Evolves.withSec (hm.bit rfl) hf h

theorem norSet_ev (x1 x2 : _) (hm : Sub 0x100000000000000 M) (h : Evolves M P a s) :
    Evolves M P a (norSet x1 x2 s) := by
  unfold norSet
  refine secOf_ev _ (hm.of rfl) rfl ?_
  exact h

theorem unstage_ev (hm : Sub 0x100000000020000 M) (h : Evolves M P a s) :
    Evolves M P a (unstage s) := by
  unfold unstage
  refine secOf_ev _ (hm.of rfl) rfl ?_
  refine Evolves.putG .security rfl (hm.bit rfl) rfl ?_
  refine Evolves.putG .security rfl (hm.bit rfl) rfl ?_
  exact h

theorem fwStageOp_ev (x1 x2 : _) (hm : Sub 0x540000020020000 M) (h : Evolves M P a s) :
    Evolves M P a (fwStageOp x1 x2 s) := by
  unfold fwStageOp
  refine adminRow_ev _ _ _ (hm.of rfl) ?_ ?_
  · intro x1
    intro s2
    intro h3
    extract_lets +onlyGivenNames y4
    extract_lets +onlyGivenNames y5
    extract_lets +onlyGivenNames y6
    refine checked_ev _ _ _ (hm.of rfl) ?_ ?_
    · intro s7
      intro h8
      extract_lets +onlyGivenNames y9
      have h10 : Evolves M P a y9 := by
        unfold y9
        refine norSet_ev _ _ (hm.of rfl) ?_
        refine unstage_ev (hm.of rfl) ?_
        exact h8
      clear_value y9
      refine Evolves.ite ?_ ?_
      · refine finish_ev _ _ _ _ (hm.of rfl) ?_
        exact h10
      · split
        · refine adminBad_ev _ _ _ (hm.of rfl) ?_
          exact h10
        · extract_lets +onlyGivenNames y11
          have h12 : Evolves M P a y11 := by
            unfold y11
            refine secOf_ev _ (hm.of rfl) rfl ?_
            refine Evolves.putG .security rfl (hm.bit rfl) rfl ?_
            refine Evolves.putG .security rfl (hm.bit rfl) rfl ?_
            exact h10
          clear_value y11
          refine finish_ev _ _ _ _ (hm.of rfl) ?_
          exact h12
    · exact h3
  · exact h

theorem fwActivateOp_ev (x1 : _) (hm : Sub 0x540000020020000 M) (h : Evolves M P a s) :
    Evolves M P a (fwActivateOp x1 s) := by
  unfold fwActivateOp
  refine adminRow_ev _ _ _ (hm.of rfl) ?_ ?_
  · intro x1
    intro s2
    intro h3
    refine Evolves.ite ?_ ?_
    · exact h3
    · refine checked_ev _ _ _ (hm.of rfl) ?_ ?_
      · intro s4
        intro h5
        refine setRunning_ev _ (hm.of rfl) ?_
        refine secOf_ev _ (hm.of rfl) rfl ?_
        refine Evolves.putG .security rfl (hm.bit rfl) rfl ?_
        exact h5
      · exact h3
  · exact h

theorem fwFinish_ev (x1 x2 : _) (hm : Sub 0x541000030020000 M) (h : Evolves M P a s) :
    Evolves M P a (fwFinish x1 x2 s) := by
  unfold fwFinish
  extract_lets +onlyGivenNames y1
  extract_lets +onlyGivenNames y2
  extract_lets +onlyGivenNames y3
  extract_lets +onlyGivenNames y4
  have h5 : Evolves M P a y4 := by
    unfold y4
    refine norSet_ev _ _ (hm.of rfl) ?_
    refine unstage_ev (hm.of rfl) ?_
    exact h
  clear_value y4
  extract_lets +onlyGivenNames y6
  have h7 : Evolves M P a y6 := by
    unfold y6
    refine secOf_ev _ (hm.of rfl) rfl ?_
    refine Evolves.putG .security rfl (hm.bit rfl) rfl ?_
    exact h5
  clear_value y6
  extract_lets +onlyGivenNames y8
  have h9 : Evolves M P a y8 := by
    unfold y8
    refine State.logEvent_ev _ _ (hm.of rfl) ?_
    refine Evolves.putG .security rfl (hm.bit rfl) rfl ?_
    exact h7
  clear_value y8
  split
  · refine Evolves.ite ?_ ?_
    · refine finish_ev _ _ _ _ (hm.of rfl) ?_
      exact h9
    · exact h9
  · exact h9

theorem fwHandoverOp_ev (hm : Sub 0x541000030020000 M) (h : Evolves M P a s) :
    Evolves M P a (fwHandoverOp s) := by
  unfold fwHandoverOp
  split
  · extract_lets +onlyGivenNames y1
    refine Evolves.ite ?_ ?_
    · refine Evolves.ite ?_ ?_
      · exact h
      · unfold y1
        refine secOf_ev _ (hm.of rfl) rfl ?_
        exact h
    · refine Evolves.ite ?_ ?_
      · unfold y1
        refine secOf_ev _ (hm.of rfl) rfl ?_
        refine Evolves.withCqi (hm.bit rfl) ?_
        exact h
      · refine Evolves.ite ?_ ?_
        · refine heldOut_ev (hm.of rfl) ?_
          unfold y1
          refine secOf_ev _ (hm.of rfl) rfl ?_
          refine Evolves.withCqi (hm.bit rfl) ?_
          exact h
        · refine Evolves.ite ?_ ?_
          · unfold y1
            refine secOf_ev _ (hm.of rfl) rfl ?_
            exact h
          · refine fwFinish_ev _ _ (hm.of rfl) ?_
            exact h
  · exact h

theorem activationOut_ev (x1 : _) (hm : Sub 0x7fdffffffffffff M) (hall : ∀ n, P n) (h : Evolves M P a s) :
    Evolves M P a (activationOut x1 s) := by
  unfold activationOut
  split
  · refine Evolves.ite ?_ ?_
    · refine tailReset_ev _ (hm.of rfl) hall ?_
      refine State.logEvent_ev _ _ (hm.of rfl) ?_
      exact h
    · exact h
  · exact h

theorem execKeyLoad_next (x1 x2 : _) (hm : Sub 0x571000030024000 M) :
    ∃ t, (execKeyLoad x1 x2 s) = .next t ∧ Evolves M P s t := by
  refine ⟨_, rfl, ?_⟩
  have h := Evolves.refl M P s
  refine keyLoadOp_ev _ _ (hm.of rfl) ?_
  exact h

theorem execKeyClear_next (x1 x2 : _) (hm : Sub 0x571000030024000 M) :
    ∃ t, (execKeyClear x1 x2 s) = .next t ∧ Evolves M P s t := by
  refine ⟨_, rfl, ?_⟩
  have h := Evolves.refl M P s
  refine keyClearOp_ev _ _ (hm.of rfl) ?_
  exact h

theorem execProgramLoad_next (x1 x2 : _) (hm : Sub 0x460002020202100 M) (hall : ∀ n, P n) :
    ∃ t, (execProgramLoad x1 x2 s) = .next t ∧ Evolves M P s t := by
  refine ⟨_, rfl, ?_⟩
  have h := Evolves.refl M P s
  refine programLoadOp_ev _ _ (hm.of rfl) hall ?_
  exact h

theorem execCalRestore_next (x1 x2 : _) (hm : Sub 0x4400000ffffffff M) (hall : ∀ n, P n) :
    ∃ t, (execCalRestore x1 x2 s) = .next t ∧ Evolves M P s t := by
  refine ⟨_, rfl, ?_⟩
  have h := Evolves.refl M P s
  refine calRestoreOp_ev _ _ (hm.of rfl) hall ?_
  exact h

theorem execFwStage_next (x1 x2 : _) (hm : Sub 0x540000020020000 M) :
    ∃ t, (execFwStage x1 x2 s) = .next t ∧ Evolves M P s t := by
  refine ⟨_, rfl, ?_⟩
  have h := Evolves.refl M P s
  refine fwStageOp_ev _ _ (hm.of rfl) ?_
  exact h

theorem execFwActivate_next (x1 : _) (hm : Sub 0x540000020020000 M) :
    ∃ t, (execFwActivate x1 s) = .next t ∧ Evolves M P s t := by
  refine ⟨_, rfl, ?_⟩
  have h := Evolves.refl M P s
  refine fwActivateOp_ev _ (hm.of rfl) ?_
  exact h

theorem execFwHandover_next (hm : Sub 0x541000030020000 M) :
    ∃ t, (execFwHandover s) = .next t ∧ Evolves M P s t := by
  refine ⟨_, rfl, ?_⟩
  have h := Evolves.refl M P s
  refine fwHandoverOp_ev (hm.of rfl) ?_
  exact h

theorem execActivationTimeout_next (x1 : _) (hm : Sub 0x7fdffffffffffff M) (hall : ∀ n, P n) :
    ∃ t, (execActivationTimeout x1 s) = .next t ∧ Evolves M P s t := by
  refine ⟨_, rfl, ?_⟩
  have h := Evolves.refl M P s
  refine armDrain_ev (hm.of rfl) ?_
  refine activationOut_ev _ (hm.of rfl) hall ?_
  exact h

end Sys2Proof.Machine
end

