-- ==== Sys2Proof/Laws/CqiIo.lean ====
section
/-! SUPPORT. One lemma per operation of Machine/CqiIo.lean: the parts of the state it can touch and what it needs of the engines (`Evolves`). -/

namespace Sys2Proof.Machine

variable {M : Nat} {P : Nat → Prop} {a s : State}

theorem ioRow_ev (x1 x2 x3 x4 : _) (hm : Sub 0x0 M) (hx4 : ∀ y1 t, Evolves M P a t → Evolves M P a (x4 y1 t)) (h : Evolves M P a s) :
    Evolves M P a (ioRow x1 x2 x3 x4 s) := by
  unfold ioRow
  split
  · exact h
  · refine Evolves.ite ?_ ?_
    · exact h
    · apply hx4
      exact h

theorem hostBlocks_ev (x1 x2 : _) (hm : Sub 0x400000000000000 M) (h : Evolves M P a s) :
    Evolves M P a (hostBlocks x1 x2 s) := by
  induction x1 generalizing x2 s with
  | nil => exact h
  | cons d ds ih => exact ih _ (h.emit (hm.bit rfl))

theorem readLeaves_ev (x1 x2 : _) (hm : Sub 0x471000030004000 M) (h : Evolves M P a s) :
    Evolves M P a (readLeaves x1 x2 s) := by
  unfold readLeaves
  extract_lets +onlyGivenNames y1
  extract_lets +onlyGivenNames y2
  have h3 : Evolves M P a y2 := by
    unfold y2
    refine Evolves.foldl _ (fun s4 x5 h6 => ?_) ?_
    · refine loseRow_ev _ _ _ _ _ (hm.of rfl) ?_
      exact h6
    · exact h
  clear_value y2
  refine Evolves.foldl _ (fun s7 x8 h9 => ?_) ?_
  · split
    · extract_lets +onlyGivenNames y10
      refine Evolves.ite ?_ ?_
      · refine addTodo_ev _ (hm.of rfl) ?_
        exact h9
      · exact h9
    · exact h9
    · exact h9
    · exact h9
  · exact h3

theorem readSend_ev (x1 x2 x3 x4 : _) (hm : Sub 0x400000000000000 M) (h : Evolves M P a s) :
    Evolves M P a (readSend x1 x2 x3 x4 s) := by
  unfold readSend
  refine Evolves.ite ?_ ?_
  · exact h
  · refine hostBlocks_ev _ _ (hm.of rfl) ?_
    exact h

theorem readEnd_ev (x1 x2 x3 x4 x5 : _) (hm : Sub 0x440000020000000 M) (h : Evolves M P a s) :
    Evolves M P a (readEnd x1 x2 x3 x4 x5 s) := by
  unfold readEnd
  split
  · refine finish_ev _ _ _ _ (hm.of rfl) ?_
    exact h
  · refine finish_ev _ _ _ _ (hm.of rfl) ?_
    exact h

theorem readRange_ev (x1 x2 x3 x4 x5 x6 : _) (hm : Sub 0x471000030004000 M) (h : Evolves M P a s) :
    Evolves M P a (readRange x1 x2 x3 x4 x5 x6 s) := by
  unfold readRange
  extract_lets +onlyGivenNames y1
  have h2 : Evolves M P a y1 := by
    unfold y1
    refine mediaTake_ev _ (hm.of rfl) ?_
    exact h
  clear_value y1
  extract_lets +onlyGivenNames y3
  extract_lets +onlyGivenNames y4
  extract_lets +onlyGivenNames y5
  have h6 : Evolves M P a y5 := by
    unfold y5
    refine readLeaves_ev _ _ (hm.of rfl) ?_
    exact h2
  clear_value y5
  extract_lets +onlyGivenNames y7
  have h8 : Evolves M P a y7 := by
    unfold y7
    refine Evolves.modArm (hm.bit rfl) rfl ?_
    exact h6
  clear_value y7
  refine Evolves.ite ?_ ?_
  · refine finish_ev _ _ _ _ (hm.of rfl) ?_
    exact h8
  · extract_lets +onlyGivenNames y9
    extract_lets +onlyGivenNames y10
    extract_lets +onlyGivenNames y11
    refine readEnd_ev _ _ _ _ _ (hm.of rfl) ?_
    refine readSend_ev _ _ _ _ (hm.of rfl) ?_
    exact h8

theorem readOp_ev (x1 x2 x3 : _) (hm : Sub 0x471000030004000 M) (h : Evolves M P a s) :
    Evolves M P a (readOp x1 x2 x3 s) := by
  unfold readOp
  refine ioRow_ev _ _ _ _ (hm.of rfl) ?_ ?_
  · intro x1
    intro s2
    intro h3
    split
    · exact h3
    · refine Evolves.ite ?_ ?_
      · refine readRange_ev _ _ _ _ _ _ (hm.of rfl) ?_
        exact h3
      · exact h3
  · exact h

theorem destageAll_ev (x1 x2 : _) (hm : Sub 0x471000030204000 M) (h : Evolves M P a s) :
    Evolves M P a (destageAll x1 x2 s) := by
  unfold destageAll
  refine Evolves.foldl _ (fun s1 x2 h3 => ?_) ?_
  · extract_lets +onlyGivenNames y4
    have h5 : Evolves M P a y4 := by
      unfold y4
      refine Evolves.foldl _ (fun s6 x7 h8 => ?_) ?_
      · refine engWake_ev _ (hm.of rfl) ?_
        exact h8
      · exact h3
    clear_value y4
    refine destageOp_ev _ _ _ _ _ (hm.of rfl) ?_
    exact h5
  · exact h

theorem verifyOp_ev (x1 x2 x3 : _) (hm : Sub 0x471000030204000 M) (h : Evolves M P a s) :
    Evolves M P a (verifyOp x1 x2 x3 s) := by
  unfold verifyOp
  refine ioRow_ev _ _ _ _ (hm.of rfl) ?_ ?_
  · intro x1
    intro s2
    intro h3
    extract_lets +onlyGivenNames y4
    extract_lets +onlyGivenNames y5
    have h6 : Evolves M P a y5 := by
      unfold y5
      refine Evolves.ite ?_ ?_
      · exact h3
      · refine destageAll_ev _ _ (hm.of rfl) ?_
        exact h3
    clear_value y5
    refine Evolves.ite ?_ ?_
    · refine readRange_ev _ _ _ _ _ _ (hm.of rfl) ?_
      exact h6
    · exact h6
  · exact h

theorem noRoom_ev (x1 x2 : _) (hm : Sub 0x440000020000000 M) (h : Evolves M P a s) :
    Evolves M P a (noRoom x1 x2 s) := by
  unfold noRoom
  refine finish_ev _ _ _ _ (hm.of rfl) ?_
  exact h

theorem withRoom_ev (x1 x2 x3 x4 : _) (hm : Sub 0x47d0148300060b0 M) (hall : ∀ n, P n) (hx4 : ∀ t, Evolves M P a t → Evolves M P a (x4 t)) (h : Evolves M P a s) :
    Evolves M P a (withRoom x1 x2 x3 x4 s) := by
  unfold withRoom
  extract_lets +onlyGivenNames y1
  extract_lets +onlyGivenNames y2
  extract_lets +onlyGivenNames y3
  extract_lets +onlyGivenNames y4
  split
  · unfold y4
    refine Evolves.ite ?_ ?_
    · apply hx4
      exact h
    · exact h
  · refine Evolves.ite ?_ ?_
    · refine noRoom_ev _ _ (hm.of rfl) ?_
      exact h
    · extract_lets +onlyGivenNames y5
      have h6 : Evolves M P a y5 := by
        unfold y5
        refine askRun_ev _ _ (hm.of rfl) hall ?_
        refine State.modCmd_ev _ _ _ (hm.of rfl) ?_
        exact h
      clear_value y5
      refine Evolves.ite ?_ ?_
      · unfold y4
        refine Evolves.ite ?_ ?_
        · apply hx4
          exact h6
        · exact h6
      · refine Evolves.ite ?_ ?_
        · refine noRoom_ev _ _ (hm.of rfl) ?_
          exact h6
        · exact h6

theorem mapWrite_ev (x1 : _) (hm : Sub 0x470000020004000 M) (h : Evolves M P a s) :
    Evolves M P a (mapWrite x1 s) := by
  unfold mapWrite
  extract_lets +onlyGivenNames y1
  extract_lets +onlyGivenNames y2
  refine mapCommit_ev _ _ (hm.of rfl) ?_
  exact h

theorem sealWrite_ev (x1 x2 x3 x4 : _) (hm : Sub 0x470000020004000 M) (h : Evolves M P a s) :
    Evolves M P a (sealWrite x1 x2 x3 x4 s) := by
  unfold sealWrite
  extract_lets +onlyGivenNames y1
  extract_lets +onlyGivenNames y2
  have h3 : Evolves M P a y2 := by
    unfold y2
    refine finishWith_ev _ _ _ _ (hm.of rfl) ?_
    exact h
  clear_value y2
  refine Evolves.foldl _ (fun s4 x5 h6 => ?_) ?_
  · split
    · refine sealAsk_ev _ _ _ (hm.of rfl) ?_
      exact h6
    · exact h6
  · exact h3

theorem woWrite_ev (x1 x2 x3 x4 x5 : _) (hm : Sub 0x47d0148300060b0 M) (hall : ∀ n, P n) (h : Evolves M P a s) :
    Evolves M P a (woWrite x1 x2 x3 x4 x5 s) := by
  unfold woWrite
  refine Evolves.ite ?_ ?_
  · exact h
  · refine withRoom_ev _ _ _ _ (hm.of rfl) hall ?_ ?_
    · intro s1
      intro h2
      extract_lets +onlyGivenNames y3
      have h4 : Evolves M P a y3 := by
        unfold y3
        refine finishWith_ev _ _ _ _ (hm.of rfl) ?_
        refine State.modCmd_ev _ _ _ (hm.of rfl) ?_
        exact h2
      clear_value y3
      refine woJoin_ev _ _ _ _ _ (hm.of rfl) hall ?_
      refine mediaTake_ev _ (hm.of rfl) ?_
      exact h4
    · exact h

theorem rwWrite_ev (x1 x2 x3 x4 : _) (hm : Sub 0x47d0148300060b0 M) (hall : ∀ n, P n) (h : Evolves M P a s) :
    Evolves M P a (rwWrite x1 x2 x3 x4 s) := by
  unfold rwWrite
  refine Evolves.ite ?_ ?_
  · refine finish_ev _ _ _ _ (hm.of rfl) ?_
    exact h
  · refine Evolves.ite ?_ ?_
    · exact h
    · refine Evolves.ite ?_ ?_
      · exact h
      · refine withRoom_ev _ _ _ _ (hm.of rfl) hall ?_ ?_
        · intro s1
          intro h2
          refine sealWrite_ev _ _ _ _ (hm.of rfl) ?_
          refine mapWrite_ev _ (hm.of rfl) ?_
          exact h2
        · exact h

theorem writeOp_ev (x1 x2 x3 x4 : _) (hm : Sub 0x47d0148300060b0 M) (hall : ∀ n, P n) (h : Evolves M P a s) :
    Evolves M P a (writeOp x1 x2 x3 x4 s) := by
  unfold writeOp
  refine ioRow_ev _ _ _ _ (hm.of rfl) ?_ ?_
  · intro x1
    intro s2
    intro h3
    extract_lets +onlyGivenNames y4
    extract_lets +onlyGivenNames y5
    refine Evolves.ite ?_ ?_
    · exact h3
    · refine Evolves.ite ?_ ?_
      · refine finish_ev _ _ _ _ (hm.of rfl) ?_
        exact h3
      · refine Evolves.ite ?_ ?_
        · refine finish_ev _ _ _ _ (hm.of rfl) ?_
          exact h3
        · refine Evolves.ite ?_ ?_
          · refine noRoom_ev _ _ (hm.of rfl) ?_
            refine State.logEvent_ev _ _ (hm.of rfl) ?_
            exact h3
          · extract_lets +onlyGivenNames y6
            refine Evolves.ite ?_ ?_
            · refine woWrite_ev _ _ _ _ _ (hm.of rfl) hall ?_
              exact h3
            · refine rwWrite_ev _ _ _ _ (hm.of rfl) hall ?_
              exact h3
  · exact h

theorem flushOp_ev (x1 x2 x3 : _) (hm : Sub 0x47d0148302060b0 M) (hall : ∀ n, P n) (h : Evolves M P a s) :
    Evolves M P a (flushOp x1 x2 x3 s) := by
  unfold flushOp
  refine ioRow_ev _ _ _ _ (hm.of rfl) ?_ ?_
  · intro x1
    intro s2
    intro h3
    extract_lets +onlyGivenNames y4
    extract_lets +onlyGivenNames y5
    extract_lets +onlyGivenNames y6
    extract_lets +onlyGivenNames y7
    refine Evolves.ite ?_ ?_
    · extract_lets +onlyGivenNames y8
      have h9 : Evolves M P a y8 := by
        unfold y8
        refine Evolves.ite ?_ ?_
        · refine Evolves.foldl _ (fun s10 x11 h12 => ?_) ?_
          · refine destageAll_ev _ _ (hm.of rfl) ?_
            exact h12
          · exact h3
        · exact h3
      clear_value y8
      refine Evolves.ite ?_ ?_
      · refine finish_ev _ _ _ _ (hm.of rfl) ?_
        exact h9
      · exact h9
    · refine Evolves.ite ?_ ?_
      · exact h3
      · extract_lets +onlyGivenNames y13
        extract_lets +onlyGivenNames y14
        have h15 : Evolves M P a y14 := by
          unfold y14
          refine State.modCmd_ev _ _ _ (hm.of rfl) ?_
          exact h3
        clear_value y14
        extract_lets +onlyGivenNames y16
        extract_lets +onlyGivenNames y17
        have h18 : Evolves M P a y17 := by
          unfold y17
          refine Evolves.ite ?_ ?_
          · refine finishWith_ev _ _ _ _ (hm.of rfl) ?_
            exact h15
          · exact h15
        clear_value y17
        extract_lets +onlyGivenNames y19
        have h20 : Evolves M P a y19 := by
          unfold y19
          refine Evolves.ite ?_ ?_
          · exact h18
          · refine mediaTake_ev _ (hm.of rfl) ?_
            exact h18
        clear_value y19
        extract_lets +onlyGivenNames y21
        have h22 : Evolves M P a y21 := by
          unfold y21
          refine Evolves.foldl _ (fun s23 x24 h25 => ?_) ?_
          · refine groupClose_ev _ _ (hm.of rfl) hall ?_
            refine modGroup_ev _ _ (hm.of rfl) ?_
            exact h25
          · exact h20
        clear_value y21
        extract_lets +onlyGivenNames y26
        have h27 : Evolves M P a y26 := by
          unfold y26
          refine Evolves.ite ?_ ?_
          · refine Evolves.foldl _ (fun s28 x29 h30 => ?_) ?_
            · refine destageAll_ev _ _ (hm.of rfl) ?_
              exact h30
            · exact h22
          · exact h22
        clear_value y26
        refine Evolves.ite ?_ ?_
        · refine finish_ev _ _ _ _ (hm.of rfl) ?_
          exact h27
        · exact h27
  · exact h

theorem execRead_next (x1 x2 x3 : _) (hm : Sub 0x475000030004000 M) :
    ∃ t, (execRead x1 x2 x3 s) = .next t ∧ Evolves M P s t := by
  refine ⟨_, rfl, ?_⟩
  have h := Evolves.refl M P s
  refine armDrain_ev (hm.of rfl) ?_
  refine readOp_ev _ _ _ (hm.of rfl) ?_
  exact h

theorem execWrite_next (x1 x2 x3 x4 : _) (hm : Sub 0x47d0148300060b0 M) (hall : ∀ n, P n) :
    ∃ t, (execWrite x1 x2 x3 x4 s) = .next t ∧ Evolves M P s t := by
  refine ⟨_, rfl, ?_⟩
  have h := Evolves.refl M P s
  refine armDrain_ev (hm.of rfl) ?_
  refine writeOp_ev _ _ _ _ (hm.of rfl) hall ?_
  exact h

theorem execVerify_next (x1 x2 x3 : _) (hm : Sub 0x475000030204000 M) :
    ∃ t, (execVerify x1 x2 x3 s) = .next t ∧ Evolves M P s t := by
  refine ⟨_, rfl, ?_⟩
  have h := Evolves.refl M P s
  refine armDrain_ev (hm.of rfl) ?_
  refine verifyOp_ev _ _ _ (hm.of rfl) ?_
  exact h

theorem execFlush_next (x1 x2 x3 : _) (hm : Sub 0x47d0148302060b0 M) (hall : ∀ n, P n) :
    ∃ t, (execFlush x1 x2 x3 s) = .next t ∧ Evolves M P s t := by
  refine ⟨_, rfl, ?_⟩
  have h := Evolves.refl M P s
  refine armDrain_ev (hm.of rfl) ?_
  refine flushOp_ev _ _ _ (hm.of rfl) hall ?_
  exact h

end Sys2Proof.Machine
end

