-- ==== Sys2Proof/Laws/Bus.lean ====
section
/-! SUPPORT. One lemma per operation of Machine/Bus.lean: the parts of the state it can touch and what it needs of the engines (`Evolves`). -/

namespace Sys2Proof.Machine

variable {M : Nat} {P : Nat → Prop} {a s : State}

theorem State.memSet_ev (x2 x3 x4 : _) (hm : Sub 0xa0040100000000 M) (hall : ∀ n, P n) (h : Evolves M P a s) :
    Evolves M P a (State.memSet s x2 x3 x4) := by
  unfold State.memSet
  extract_lets +onlyGivenNames y1
  split
  · exact h
  · refine Evolves.modPlc (hm.bit rfl) id ?_
    exact h
  · refine modMem_ev _ (hm.of rfl) ?_
    exact h
  · refine Evolves.modEsqMem (hm.bit rfl) (hall _) ?_
    exact h
  · refine modMem_ev _ (hm.of rfl) ?_
    exact h
  · refine Evolves.modCap (hm.bit rfl) (hall _) ?_
    exact h

theorem State.memWord_ev (x2 x3 x4 x5 : _) (hm : Sub 0xa0040100000000 M) (hall : ∀ n, P n) (h : Evolves M P a s) :
    Evolves M P a (State.memWord s x2 x3 x4 x5) := by
  unfold State.memWord
  refine Evolves.foldl _ (fun s1 x2 h3 => ?_) ?_
  · refine Evolves.ite ?_ ?_
    · refine State.memSet_ev _ _ _ (hm.of rfl) hall ?_
      exact h3
    · exact h3
  · exact h

theorem chkSet_ev (x1 x2 : _) (hm : Sub 0x80000000000000 M) (h : Evolves M P a s) :
    Evolves M P a (chkSet x1 x2 s) := by
  unfold chkSet
  refine modMem_ev _ (hm.of rfl) ?_
  exact h

theorem chkWrite_ev (x1 x2 : _) (hm : Sub 0x80000000000000 M) (h : Evolves M P a s) :
    Evolves M P a (chkWrite x1 x2 s) := by
  unfold chkWrite
  refine chkSet_ev _ _ (hm.of rfl) ?_
  exact h

theorem memWrite_ev (x1 x2 x3 x4 x5 : _) (hm : Sub 0xa0040100000000 M) (hall : ∀ n, P n) (h : Evolves M P a s) :
    Evolves M P a (memWrite x1 x2 x3 x4 x5 s) := by
  unfold memWrite
  refine Evolves.ite ?_ ?_
  · exact h
  · refine chkWrite_ev _ _ (hm.of rfl) ?_
    refine State.memWord_ev _ _ _ _ (hm.of rfl) hall ?_
    exact h

theorem queueWord_ev (x1 x2 x3 : _) (hm : Sub 0xa0440100000000 M) (hall : ∀ n, P n) (h : Evolves M P a s) :
    Evolves M P a (queueWord x1 x2 x3 s) := by
  unfold queueWord
  extract_lets +onlyGivenNames y1
  extract_lets +onlyGivenNames y2
  have h3 : Evolves M P a y2 := by
    unfold y2
    refine State.memWord_ev _ _ _ _ (hm.of rfl) hall ?_
    exact h
  clear_value y2
  refine Evolves.ite ?_ ?_
  · exact h3
  · refine Evolves.mqPut (hm.bit rfl) ?_
    exact h3

theorem windowWord_ev (x1 x2 x3 x4 x5 x6 : _) (hm : Sub 0x80000000800000 M) (h : Evolves M P a s) :
    Evolves M P a (windowWord x1 x2 x3 x4 x5 x6 s) := by
  unfold windowWord
  extract_lets +onlyGivenNames y1
  refine chkWrite_ev _ _ (hm.of rfl) ?_
  refine windowWrite_ev _ _ _ _ (hm.of rfl) ?_
  exact h

theorem regLatch_ev (x1 : _) (hm : Sub 0x200000000000000 M) (h : Evolves M P a s) :
    Evolves M P a (regLatch x1 s) := by
  unfold regLatch
  refine Evolves.ite ?_ ?_
  · refine Evolves.withPw (hm.bit rfl) ?_
    exact h
  · refine Evolves.ite ?_ ?_
    · refine Evolves.withPw (hm.bit rfl) ?_
      exact h
    · exact h

theorem sramFault_ev (x1 x2 : _) (hm : Sub 0x7fdffffffffffff M) (hall : ∀ n, P n) (h : Evolves M P a s) :
    Evolves M P a (sramFault x1 x2 s) := by
  unfold sramFault
  extract_lets +onlyGivenNames y1
  have h2 : Evolves M P a y1 := by
    unfold y1
    refine sramLost_ev _ _ (hm.of rfl) ?_
    exact h
  clear_value y1
  split
  · refine Evolves.ite ?_ ?_
    · refine coreReload_ev _ (hm.of rfl) ?_
      refine callFault_ev _ _ (hm.of rfl) hall ?_
      exact h2
    · refine poisoned_ev _ (hm.of rfl) hall ?_
      exact h2
  · refine poisoned_ev _ (hm.of rfl) hall ?_
    exact h2
  · refine poisoned_ev _ (hm.of rfl) hall ?_
    exact h2
  · refine poisoned_ev _ (hm.of rfl) hall ?_
    exact h2
  · refine poisoned_ev _ (hm.of rfl) hall ?_
    exact h2
  · refine poisoned_ev _ (hm.of rfl) hall ?_
    exact h2
  · refine poisoned_ev _ (hm.of rfl) hall ?_
    exact h2

theorem sramLoad_ev (x1 x2 x3 x4 : _) (hm : Sub 0x7fdffffffffffff M) (hall : ∀ n, P n) (hx4 : ∀ y1 t, Evolves M P a t → Evolves M P a (x4 y1 t)) (h : Evolves M P a s) :
    Evolves M P a (sramLoad x1 x2 x3 x4 s).2 := by
  unfold sramLoad
  extract_lets +onlyGivenNames y1
  refine Evolves.snd_ite ?_ ?_
  · dsimp only
    refine Evolves.putG .sram rfl (hm.bit rfl) rfl ?_
    exact h
  · refine Evolves.snd_ite ?_ ?_
    · dsimp only
      exact h
    · split
      · dsimp only
        refine sramCorrected_ev _ _ (hm.of rfl) ?_
        refine chkSet_ev _ _ (hm.of rfl) ?_
        apply hx4
        exact h
      · dsimp only
        refine sramFault_ev _ _ (hm.of rfl) hall ?_
        exact h

theorem memFix_ev (x1 x2 x3 : _) (hm : Sub 0xa0040100000000 M) (hall : ∀ n, P n) (h : Evolves M P a s) :
    Evolves M P a (memFix x1 x2 x3 s) := by
  unfold memFix
  refine State.memWord_ev _ _ _ _ (hm.of rfl) hall ?_
  refine State.memWord_ev _ _ _ _ (hm.of rfl) hall ?_
  exact h

theorem queueRead_ev (x1 x2 : _) (hm : Sub 0x400000000000 M) (h : Evolves M P a s) :
    Evolves M P a (queueRead x1 x2 s).2 := by
  unfold queueRead
  split
  · dsimp only
    exact h
  · dsimp only
    refine Evolves.ite ?_ ?_
    · refine Evolves.withMq (hm.bit rfl) ?_
      exact h
    · exact h

end Sys2Proof.Machine
end

