-- ==== Sys2Proof/Laws/RegWrite.lean ====
section
/-! SUPPORT. One lemma per operation of Machine/RegWrite.lean: the parts of the state it can touch and what it needs of the engines (`Evolves`). -/

namespace Sys2Proof.Machine

variable {M : Nat} {P : Nat → Prop} {a s : State}

theorem onBit_ev (x1 x2 x3 : _) (hm : Sub 0x0 M) (hx3 : ∀ t, Evolves M P a t → Evolves M P a (x3 t)) (h : Evolves M P a s) :
    Evolves M P a (onBit x1 x2 x3 s) := by
  unfold onBit
  refine Evolves.ite ?_ ?_
  · apply hx3
    exact h
  · exact h

theorem typedBut_ev (x1 x2 x3 : _) (hm : Sub 0x3fffffff M) (hall : ∀ n, P n) (h : Evolves M P a s) :
    Evolves M P a (typedBut x1 x2 x3 s) := by
  unfold typedBut
  refine State.wrTyped_ev _ _ _ (hm.of rfl) hall ?_
  exact h

theorem typed_ev (x1 x2 : _) (hm : Sub 0x3fffffff M) (hall : ∀ n, P n) (h : Evolves M P a s) :
    Evolves M P a (typed x1 x2 s) := by
  unfold typed
  refine State.wrTyped_ev _ _ _ (hm.of rfl) hall ?_
  exact h

theorem hlWrite_ev (x1 x2 x3 x4 : _) (hm : Sub 0x40c401effffffff M) (hall : ∀ n, P n) (h : Evolves M P a s) :
    Evolves M P a (hlWrite x1 x2 x3 x4 s) := by
  unfold hlWrite
  refine Evolves.ite ?_ ?_
  · extract_lets +onlyGivenNames y1
    extract_lets +onlyGivenNames y2
    extract_lets +onlyGivenNames y3
    have h4 : Evolves M P a y3 := by
      unfold y3
      refine typedBut_ev _ _ _ (hm.of rfl) hall ?_
      exact h
    clear_value y3
    extract_lets +onlyGivenNames y5
    have h6 : Evolves M P a y5 := by
      unfold y5
      refine Evolves.ite ?_ ?_
      · refine linkEnable_ev _ (hm.of rfl) (hall _) ?_
        exact h4
      · refine Evolves.ite ?_ ?_
        · refine linkDisable_ev _ (hm.of rfl) (hall _) ?_
          exact h4
        · exact h4
    clear_value y5
    refine onBit_ev _ _ _ (hm.of rfl) ?_ ?_
    · intro s7
      intro h8
      refine linkCntClear_ev _ _ (hm.of rfl) (hall _) ?_
      exact h8
    · refine onBit_ev _ _ _ (hm.of rfl) ?_ ?_
      · intro s9
        intro h10
        refine linkRetrain_ev _ (hm.of rfl) (hall _) ?_
        exact h10
      · exact h6
  · refine Evolves.ite ?_ ?_
    · extract_lets +onlyGivenNames y11
      have h12 : Evolves M P a y11 := by
        unfold y11
        refine typed_ev _ _ (hm.of rfl) hall ?_
        exact h
      clear_value y11
      refine Evolves.ite ?_ ?_
      · refine fwShow_ev _ (hm.of rfl) (hall _) ?_
        exact h12
      · refine Evolves.ite ?_ ?_
        · refine sendFw_ev _ _ _ (hm.of rfl) (hall _) ?_
          exact h12
        · refine sendSr_ev _ _ (hm.of rfl) (hall _) ?_
          exact h12
    · refine typed_ev _ _ (hm.of rfl) hall ?_
      exact h

theorem chWrite_ev (x1 x2 x3 x4 x5 : _) (hm : Sub 0x12ffffffff M) (hall : ∀ n, P n) (h : Evolves M P a s) :
    Evolves M P a (chWrite x1 x2 x3 x4 x5 s) := by
  unfold chWrite
  extract_lets +onlyGivenNames y1
  extract_lets +onlyGivenNames y2
  extract_lets +onlyGivenNames y3
  extract_lets +onlyGivenNames y4
  extract_lets +onlyGivenNames y5
  refine Evolves.ite ?_ ?_
  · extract_lets +onlyGivenNames y6
    refine Evolves.ite ?_ ?_
    · refine Evolves.ite ?_ ?_
      · refine chainOff_ev _ _ (hm.of rfl) (hall _) ?_
        exact h
      · exact h
    · extract_lets +onlyGivenNames y7
      have h8 : Evolves M P a y7 := by
        unfold y7
        refine altNow_ev _ _ (hm.of rfl) (hall _) ?_
        refine typedBut_ev _ _ _ (hm.of rfl) hall ?_
        exact h
      clear_value y7
      extract_lets +onlyGivenNames y9
      have h10 : Evolves M P a y9 := by
        unfold y9
        refine Evolves.ite ?_ ?_
        · refine Evolves.ite ?_ ?_
          · exact h8
          · refine chainOff_ev _ _ (hm.of rfl) (hall _) ?_
            exact h8
        · refine Evolves.put .chain rfl (hm.bit rfl) (hall _) ?_
          exact h8
      clear_value y9
      refine onBit_ev _ _ _ (hm.of rfl) ?_ ?_
      · intro s11
        intro h12
        refine chCntClear_ev _ _ _ (hm.of rfl) (hall _) ?_
        exact h12
      · exact h10
  · refine Evolves.ite ?_ ?_
    · refine Evolves.ite ?_ ?_
      · refine chValue_ev _ _ _ _ (hm.of rfl) hall ?_
        exact h
      · exact h
    · refine Evolves.ite ?_ ?_
      · refine Evolves.ite ?_ ?_
        · refine typed_ev _ _ (hm.of rfl) hall ?_
          exact h
        · exact h
      · refine Evolves.ite ?_ ?_
        · refine Evolves.ite ?_ ?_
          · refine typed_ev _ _ (hm.of rfl) hall ?_
            exact h
          · exact h
        · refine Evolves.ite ?_ ?_
          · refine Evolves.ite ?_ ?_
            · refine typed_ev _ _ (hm.of rfl) hall ?_
              exact h
            · exact h
          · refine Evolves.ite ?_ ?_
            · refine Evolves.ite ?_ ?_
              · exact h
              · refine chValue_ev _ _ _ _ (hm.of rfl) hall ?_
                exact h
            · refine Evolves.ite ?_ ?_
              · extract_lets +onlyGivenNames y13
                have h14 : Evolves M P a y13 := by
                  unfold y13
                  refine Evolves.ite ?_ ?_
                  · refine capArm_ev _ _ (hm.of rfl) (hall _) ?_
                    exact h
                  · refine Evolves.put .chain rfl (hm.bit rfl) (hall _) ?_
                    exact h
                clear_value y13
                refine Evolves.ite ?_ ?_
                · refine onBit_ev _ _ _ (hm.of rfl) ?_ ?_
                  · intro s15
                    intro h16
                    refine replayPlay_ev _ (hm.of rfl) (hall _) ?_
                    exact h16
                  · refine onBit_ev _ _ _ (hm.of rfl) ?_ ?_
                    · intro s17
                      intro h18
                      refine Evolves.put .chain rfl (hm.bit rfl) (hall _) ?_
                      exact h18
                    · exact h14
                · exact h14
              · refine typed_ev _ _ (hm.of rfl) hall ?_
                exact h

theorem wobWrite_ev (x1 x2 x3 : _) (hm : Sub 0x13fffffff M) (hall : ∀ n, P n) (h : Evolves M P a s) :
    Evolves M P a (wobWrite x1 x2 x3 s) := by
  unfold wobWrite
  refine Evolves.ite ?_ ?_
  · refine capWrite_ev _ _ (hm.of rfl) (hall _) ?_
    exact h
  · refine Evolves.ite ?_ ?_
    · refine onBit_ev _ _ _ (hm.of rfl) ?_ ?_
      · intro s1
        intro h2
        refine wpllResumed_ev _ (hm.of rfl) (hall _) ?_
        exact h2
      · refine typed_ev _ _ (hm.of rfl) hall ?_
        exact h
    · refine typed_ev _ _ (hm.of rfl) hall ?_
      exact h

theorem seamWrite_ev (x1 x2 x3 x4 : _) (hm : Sub 0x23fffffff M) (hall : ∀ n, P n) (h : Evolves M P a s) :
    Evolves M P a (seamWrite x1 x2 x3 x4 s) := by
  unfold seamWrite
  extract_lets +onlyGivenNames y1
  refine Evolves.ite ?_ ?_
  · extract_lets +onlyGivenNames y2
    have h3 : Evolves M P a y2 := by
      unfold y2
      refine Evolves.ite ?_ ?_
      · refine Evolves.put .seam rfl (hm.bit rfl) (hall _) ?_
        exact h
      · exact h
    clear_value y2
    extract_lets +onlyGivenNames y4
    have h5 : Evolves M P a y4 := by
      unfold y4
      refine Evolves.ite ?_ ?_
      · refine seamStart_ev _ (hm.of rfl) (hall _) ?_
        exact h3
      · refine seamStop_ev _ (hm.of rfl) (hall _) ?_
        exact h3
    clear_value y4
    refine onBit_ev _ _ _ (hm.of rfl) ?_ ?_
    · intro s6
      intro h7
      refine seamCntClear_ev _ _ (hm.of rfl) (hall _) ?_
      exact h7
    · exact h5
  · refine Evolves.ite ?_ ?_
    · refine seamCfgWrite_ev _ _ (hm.of rfl) (hall _) ?_
      exact h
    · refine Evolves.ite ?_ ?_
      · refine Evolves.ite ?_ ?_
        · refine typed_ev _ _ (hm.of rfl) hall ?_
          exact h
        · exact h
      · refine Evolves.ite ?_ ?_
        · refine rasFreeSlot_ev _ _ (hm.of rfl) (hall _) ?_
          exact h
        · refine typed_ev _ _ (hm.of rfl) hall ?_
          exact h

theorem wrWrite_ev (x1 x2 x3 x4 : _) (hm : Sub 0x40c400effffffff M) (hall : ∀ n, P n) (h : Evolves M P a s) :
    Evolves M P a (wrWrite x1 x2 x3 x4 s) := by
  unfold wrWrite
  extract_lets +onlyGivenNames y1
  refine Evolves.ite ?_ ?_
  · extract_lets +onlyGivenNames y2
    have h3 : Evolves M P a y2 := by
      unfold y2
      refine laserEn_ev _ _ (hm.of rfl) (hall _) ?_
      exact h
    clear_value y2
    extract_lets +onlyGivenNames y4
    have h5 : Evolves M P a y4 := by
      unfold y4
      refine onBit_ev _ _ _ (hm.of rfl) ?_ ?_
      · intro s6
        intro h7
        refine wrStop_ev _ (hm.of rfl) (hall _) ?_
        exact h7
      · exact h3
    clear_value y4
    extract_lets +onlyGivenNames y8
    have h9 : Evolves M P a y8 := by
      unfold y8
      refine onBit_ev _ _ _ (hm.of rfl) ?_ ?_
      · intro s10
        intro h11
        refine wrOpcStart_ev _ (hm.of rfl) (hall _) ?_
        exact h11
      · refine onBit_ev _ _ _ (hm.of rfl) ?_ ?_
        · intro s12
          intro h13
          refine wrGo_ev _ (hm.of rfl) (hall _) ?_
          exact h13
        · exact h5
    clear_value y8
    refine onBit_ev _ _ _ (hm.of rfl) ?_ ?_
    · intro s14
      intro h15
      refine wrCntClear_ev _ _ (hm.of rfl) (hall _) ?_
      exact h15
    · exact h9
  · refine Evolves.ite ?_ ?_
    · refine Evolves.ite ?_ ?_
      · refine typed_ev _ _ (hm.of rfl) hall ?_
        exact h
      · exact h
    · refine Evolves.ite ?_ ?_
      · refine Evolves.ite ?_ ?_
        · exact h
        · refine typed_ev _ _ (hm.of rfl) hall ?_
          exact h
      · refine Evolves.ite ?_ ?_
        · refine wrProd_ev _ _ (hm.of rfl) (hall _) ?_
          exact h
        · refine typed_ev _ _ (hm.of rfl) hall ?_
          exact h

theorem tmpWrite_ev (x1 x2 x3 x4 x5 : _) (hm : Sub 0x4000010ffffffff M) (hall : ∀ n, P n) (h : Evolves M P a s) :
    Evolves M P a (tmpWrite x1 x2 x3 x4 x5 s) := by
  unfold tmpWrite
  refine Evolves.ite ?_ ?_
  · extract_lets +onlyGivenNames y1
    have h2 : Evolves M P a y1 := by
      unfold y1
      refine typed_ev _ _ (hm.of rfl) hall ?_
      exact h
    clear_value y1
    extract_lets +onlyGivenNames y3
    have h4 : Evolves M P a y3 := by
      unfold y3
      refine onBit_ev _ _ _ (hm.of rfl) ?_ ?_
      · intro s5
        intro h6
        refine tmpAbortOp_ev _ (hm.of rfl) (hall _) ?_
        exact h6
      · exact h2
    clear_value y3
    extract_lets +onlyGivenNames y7
    have h8 : Evolves M P a y7 := by
      unfold y7
      refine onBit_ev _ _ _ (hm.of rfl) ?_ ?_
      · intro s9
        intro h10
        refine tmpTry_ev _ _ _ (hm.of rfl) (hall _) ?_
        exact h10
      · exact h4
    clear_value y7
    refine onBit_ev _ _ _ (hm.of rfl) ?_ ?_
    · intro s11
      intro h12
      refine tmpCntClear_ev _ _ (hm.of rfl) (hall _) ?_
      exact h12
    · exact h8
  · refine Evolves.ite ?_ ?_
    · refine adcMapWrite_ev _ _ _ (hm.of rfl) (hall _) ?_
      exact h
    · refine Evolves.ite ?_ ?_
      · refine Evolves.ite ?_ ?_
        · refine adcTrimWrite_ev _ _ _ _ (hm.of rfl) (hall _) ?_
          exact h
        · exact h
      · refine Evolves.ite ?_ ?_
        · refine typed_ev _ _ (hm.of rfl) hall ?_
          exact h
        · refine Evolves.ite ?_ ?_
          · refine Evolves.wrE _ rfl (hm.grp rfl _) (hall _) ?_
            exact h
          · refine typed_ev _ _ (hm.of rfl) hall ?_
            exact h

theorem spnWrite_ev (x1 x2 x3 : _) (hm : Sub 0x1003fffffff M) (hall : ∀ n, P n) (h : Evolves M P a s) :
    Evolves M P a (spnWrite x1 x2 x3 s) := by
  unfold spnWrite
  extract_lets +onlyGivenNames y1
  refine Evolves.ite ?_ ?_
  · extract_lets +onlyGivenNames y2
    have h3 : Evolves M P a y2 := by
      unfold y2
      refine typedBut_ev _ _ _ (hm.of rfl) hall ?_
      exact h
    clear_value y2
    extract_lets +onlyGivenNames y4
    have h5 : Evolves M P a y4 := by
      unfold y4
      refine spnDir_ev _ _ (hm.of rfl) (hall _) ?_
      exact h3
    clear_value y4
    refine Evolves.ite ?_ ?_
    · refine spnStartOp_ev _ (hm.of rfl) (hall _) ?_
      exact h5
    · refine Evolves.ite ?_ ?_
      · refine spnCoastOp_ev _ (hm.of rfl) (hall _) ?_
        exact h5
      · exact h5
  · refine Evolves.ite ?_ ?_
    · refine spnTarget_ev _ _ (hm.of rfl) (hall _) ?_
      refine typedBut_ev _ _ _ (hm.of rfl) hall ?_
      exact h
    · refine Evolves.ite ?_ ?_
      · refine Evolves.ite ?_ ?_
        · refine typed_ev _ _ (hm.of rfl) hall ?_
          exact h
        · exact h
      · refine typed_ev _ _ (hm.of rfl) hall ?_
        exact h

theorem sldWrite_ev (x1 x2 x3 : _) (hm : Sub 0x40002803fffffff M) (hall : ∀ n, P n) (h : Evolves M P a s) :
    Evolves M P a (sldWrite x1 x2 x3 s) := by
  unfold sldWrite
  refine Evolves.ite ?_ ?_
  · extract_lets +onlyGivenNames y1
    extract_lets +onlyGivenNames y2
    extract_lets +onlyGivenNames y3
    have h4 : Evolves M P a y3 := by
      unfold y3
      refine Evolves.ite ?_ ?_
      · refine sldPowerOn_ev _ (hm.of rfl) (hall _) ?_
        exact h
      · refine Evolves.ite ?_ ?_
        · refine sldParkOp_ev _ (hm.of rfl) (hall _) ?_
          exact h
        · exact h
    clear_value y3
    extract_lets +onlyGivenNames y5
    have h6 : Evolves M P a y5 := by
      unfold y5
      refine onBit_ev _ _ _ (hm.of rfl) ?_ ?_
      · intro s7
        intro h8
        refine sldStop_ev _ (hm.of rfl) (hall _) ?_
        exact h8
      · exact h4
    clear_value y5
    extract_lets +onlyGivenNames y9
    have h10 : Evolves M P a y9 := by
      unfold y9
      refine onBit_ev _ _ _ (hm.of rfl) ?_ ?_
      · intro s11
        intro h12
        refine sldHome_ev _ (hm.of rfl) (hall _) ?_
        exact h12
      · refine onBit_ev _ _ _ (hm.of rfl) ?_ ?_
        · intro s13
          intro h14
          refine sldMove_ev _ (hm.of rfl) (hall _) ?_
          exact h14
        · exact h6
    clear_value y9
    refine onBit_ev _ _ _ (hm.of rfl) ?_ ?_
    · intro s15
      intro h16
      refine encFault_ev _ (hm.of rfl) (hall _) ?_
      exact h16
    · exact h10
  · refine Evolves.ite ?_ ?_
    · refine sldSetPos_ev _ _ (hm.of rfl) (hall _) ?_
      exact h
    · refine Evolves.ite ?_ ?_
      · extract_lets +onlyGivenNames y17
        have h18 : Evolves M P a y17 := by
          unfold y17
          refine slgRates_ev _ _ _ (hm.of rfl) (hall _) ?_
          exact h
        clear_value y17
        refine slgEn_ev _ _ (hm.of rfl) (hall _) ?_
        refine onBit_ev _ _ _ (hm.of rfl) ?_ ?_
        · intro s19
          intro h20
          refine slgLoadOp_ev _ (hm.of rfl) (hall _) ?_
          exact h20
        · exact h18
      · refine Evolves.ite ?_ ?_
        · refine Evolves.ite ?_ ?_
          · exact h
          · refine typed_ev _ _ (hm.of rfl) hall ?_
            exact h
        · refine typed_ev _ _ (hm.of rfl) hall ?_
          exact h

theorem anvWrite_ev (x1 x2 x3 x4 : _) (hm : Sub 0x203fffffff M) (hall : ∀ n, P n) (h : Evolves M P a s) :
    Evolves M P a (anvWrite x1 x2 x3 x4 s) := by
  unfold anvWrite
  refine Evolves.ite ?_ ?_
  · extract_lets +onlyGivenNames y1
    extract_lets +onlyGivenNames y2
    extract_lets +onlyGivenNames y3
    have h4 : Evolves M P a y3 := by
      unfold y3
      refine anvBank_ev _ _ (hm.of rfl) (hall _) ?_
      exact h
    clear_value y3
    extract_lets +onlyGivenNames y5
    have h6 : Evolves M P a y5 := by
      unfold y5
      refine onBit_ev _ _ _ (hm.of rfl) ?_ ?_
      · intro s7
        intro h8
        refine anvTripClear_ev _ (hm.of rfl) (hall _) ?_
        exact h8
      · exact h4
    clear_value y5
    extract_lets +onlyGivenNames y9
    have h10 : Evolves M P a y9 := by
      unfold y9
      refine Evolves.ite ?_ ?_
      · refine anvRunOp_ev _ (hm.of rfl) (hall _) ?_
        exact h6
      · refine Evolves.ite ?_ ?_
        · refine anvStopOp_ev _ (hm.of rfl) (hall _) ?_
          exact h6
        · exact h6
    clear_value y9
    refine onBit_ev _ _ _ (hm.of rfl) ?_ ?_
    · intro s11
      intro h12
      refine anvCntClear_ev _ _ (hm.of rfl) (hall _) ?_
      exact h12
    · exact h10
  · refine Evolves.ite ?_ ?_
    · refine anvRampCfg_ev _ _ _ (hm.of rfl) (hall _) ?_
      exact h
    · refine Evolves.ite ?_ ?_
      · refine rampTarget_ev _ _ _ (hm.of rfl) (hall _) ?_
        exact h
      · refine typed_ev _ _ (hm.of rfl) hall ?_
        exact h

theorem engWrite_ev (x1 x2 x3 x4 x5 : _) (hm : Sub 0x40c43beffffffff M) (hall : ∀ n, P n) (h : Evolves M P a s) :
    Evolves M P a (engWrite x1 x2 x3 x4 x5 s) := by
  unfold engWrite
  refine Evolves.ite ?_ ?_
  · refine typed_ev _ _ (hm.of rfl) hall ?_
    exact h
  · refine Evolves.ite ?_ ?_
    · refine hlWrite_ev _ _ _ _ (hm.of rfl) hall ?_
      exact h
    · refine Evolves.ite ?_ ?_
      · refine seamWrite_ev _ _ _ _ (hm.of rfl) hall ?_
        exact h
      · refine Evolves.ite ?_ ?_
        · refine wrWrite_ev _ _ _ _ (hm.of rfl) hall ?_
          exact h
        · refine Evolves.ite ?_ ?_
          · refine tmpWrite_ev _ _ _ _ _ (hm.of rfl) hall ?_
            exact h
          · refine Evolves.ite ?_ ?_
            · refine spnWrite_ev _ _ _ (hm.of rfl) hall ?_
              exact h
            · refine Evolves.ite ?_ ?_
              · refine sldWrite_ev _ _ _ (hm.of rfl) hall ?_
                exact h
              · refine anvWrite_ev _ _ _ _ (hm.of rfl) hall ?_
                exact h

theorem axWrite_ev (x1 x2 x3 : _) (hm : Sub 0x40010003fffffff M) (hall : ∀ n, P n) (h : Evolves M P a s) :
    Evolves M P a (axWrite x1 x2 x3 s) := by
  unfold axWrite
  refine Evolves.ite ?_ ?_
  · extract_lets +onlyGivenNames y1
    extract_lets +onlyGivenNames y2
    extract_lets +onlyGivenNames y3
    have h4 : Evolves M P a y3 := by
      unfold y3
      refine typedBut_ev _ _ _ (hm.of rfl) hall ?_
      exact h
    clear_value y3
    extract_lets +onlyGivenNames y5
    have h6 : Evolves M P a y5 := by
      unfold y5
      refine Evolves.ite ?_ ?_
      · refine axGear_ev _ (hm.of rfl) ?_
        exact h4
      · refine Evolves.ite ?_ ?_
        · refine axUngear_ev _ (hm.of rfl) ?_
          exact h4
        · exact h4
    clear_value y5
    extract_lets +onlyGivenNames y7
    have h8 : Evolves M P a y7 := by
      unfold y7
      refine onBit_ev _ _ _ (hm.of rfl) ?_ ?_
      · intro s9
        intro h10
        refine axMove_ev _ (hm.of rfl) ?_
        exact h10
      · exact h6
    clear_value y7
    refine onBit_ev _ _ _ (hm.of rfl) ?_ ?_
    · intro s11
      intro h12
      refine axEstop_ev _ (hm.of rfl) ?_
      exact h12
    · refine onBit_ev _ _ _ (hm.of rfl) ?_ ?_
      · intro s13
        intro h14
        refine axStop_ev _ (hm.of rfl) ?_
        exact h14
      · exact h8
  · refine Evolves.ite ?_ ?_
    · refine axSetPos_ev _ _ (hm.of rfl) ?_
      exact h
    · refine Evolves.ite ?_ ?_
      · refine Evolves.ite ?_ ?_
        · exact h
        · refine typed_ev _ _ (hm.of rfl) hall ?_
          exact h
      · refine typed_ev _ _ (hm.of rfl) hall ?_
        exact h

theorem brkWrite_ev (x1 x2 x3 x4 : _) (hm : Sub 0x40000003fffffff M) (hall : ∀ n, P n) (h : Evolves M P a s) :
    Evolves M P a (brkWrite x1 x2 x3 x4 s) := by
  unfold brkWrite
  refine Evolves.ite ?_ ?_
  · refine onBit_ev _ _ _ (hm.of rfl) ?_ ?_
    · intro s1
      intro h2
      refine Evolves.ite ?_ ?_
      · refine Evolves.putG .bus rfl (hm.bit rfl) rfl ?_
        exact h2
      · exact h2
    · refine typed_ev _ _ (hm.of rfl) hall ?_
      exact h
  · refine Evolves.ite ?_ ?_
    · refine brkThreshold_ev _ _ _ (hm.of rfl) ?_
      exact h
    · refine Evolves.ite ?_ ?_
      · refine brkThreshold_ev _ _ _ (hm.of rfl) ?_
        exact h
      · refine Evolves.ite ?_ ?_
        · refine brkThreshold_ev _ _ _ (hm.of rfl) ?_
          exact h
        · refine typed_ev _ _ (hm.of rfl) hall ?_
          exact h

theorem queueWrite_ev (x1 x2 x3 x4 : _) (hm : Sub 0x44000003fffffff M) (hall : ∀ n, P n) (h : Evolves M P a s) :
    Evolves M P a (queueWrite x1 x2 x3 x4 s) := by
  unfold queueWrite
  refine Evolves.ite ?_ ?_
  · refine Evolves.ite ?_ ?_
    · refine qDisable_ev _ _ (hm.of rfl) ?_
      exact h
    · refine qEnableWrite_ev _ (hm.of rfl) ?_
      exact h
  · refine Evolves.ite ?_ ?_
    · extract_lets +onlyGivenNames y1
      extract_lets +onlyGivenNames y2
      have h3 : Evolves M P a y2 := by
        unfold y2
        refine Evolves.ite ?_ ?_
        · refine Evolves.ite ?_ ?_
          · refine State.modQ_ev _ _ (hm.of rfl) ?_
            exact h
          · exact h
        · exact h
      clear_value y2
      extract_lets +onlyGivenNames y4
      have h5 : Evolves M P a y4 := by
        unfold y4
        refine Evolves.ite ?_ ?_
        · refine doorSq_ev _ (hm.of rfl) ?_
          exact h3
        · exact h3
      clear_value y4
      refine Evolves.ite ?_ ?_
      · refine idxIssue_ev _ (hm.of rfl) ?_
        exact h5
      · exact h5
    · refine Evolves.ite ?_ ?_
      · refine Evolves.ite ?_ ?_
        · refine Evolves.ite ?_ ?_
          · exact h
          · refine Evolves.wrE _ rfl (hm.grp rfl _) (hall _) ?_
            exact h
        · refine Evolves.ite ?_ ?_
          · exact h
          · extract_lets +onlyGivenNames y6
            extract_lets +onlyGivenNames y7
            have h8 : Evolves M P a y7 := by
              unfold y7
              refine typed_ev _ _ (hm.of rfl) hall ?_
              exact h
            clear_value y7
            extract_lets +onlyGivenNames y9
            have h10 : Evolves M P a y9 := by
              unfold y9
              split
              · refine State.modQ_ev _ _ (hm.of rfl) ?_
                exact h8
              · exact h8
            clear_value y9
            refine Evolves.ite ?_ ?_
            · refine State.modQ_ev _ _ (hm.of rfl) ?_
              exact h10
            · exact h10
      · refine Evolves.ite ?_ ?_
        · refine Evolves.wrE _ rfl (hm.grp rfl _) (hall _) ?_
          exact h
        · refine typed_ev _ _ (hm.of rfl) hall ?_
          exact h

theorem cqiWrite_ev (x1 x2 : _) (hm : Sub 0x7000003fffffff M) (hall : ∀ n, P n) (h : Evolves M P a s) :
    Evolves M P a (cqiWrite x1 x2 s) := by
  unfold cqiWrite
  refine Evolves.ite ?_ ?_
  · refine onBit_ev _ _ _ (hm.of rfl) ?_ ?_
    · intro s1
      intro h2
      refine resetStart_ev _ (hm.of rfl) ?_
      exact h2
    · refine typed_ev _ _ (hm.of rfl) hall ?_
      exact h
  · refine typed_ev _ _ (hm.of rfl) hall ?_
    exact h

theorem pbaAll_ev (hm : Sub 0x440000000000000 M) (h : Evolves M P a s) :
    Evolves M P a (pbaAll s) := by
  unfold pbaAll
  refine Evolves.foldl _ (fun s1 x2 h3 => ?_) ?_
  · refine pbaSend_ev _ (hm.of rfl) ?_
    exact h3
  · exact h

theorem msixWrite_ev (x1 x2 : _) (hm : Sub 0x440000000000000 M) (h : Evolves M P a s) :
    Evolves M P a (msixWrite x1 x2 s) := by
  unfold msixWrite
  extract_lets +onlyGivenNames y1
  refine Evolves.ite ?_ ?_
  · exact h
  · refine Evolves.ite ?_ ?_
    · refine Evolves.ite ?_ ?_
      · refine Evolves.withCqi (hm.bit rfl) ?_
        exact h
      · refine msixUnmaskOp_ev _ (hm.of rfl) ?_
        exact h
    · refine Evolves.withCqi (hm.bit rfl) ?_
      exact h

theorem configWrite_ev (x1 x2 x3 : _) (hm : Sub 0x470000030000000 M) (h : Evolves M P a s) :
    Evolves M P a (configWrite x1 x2 x3 s) := by
  unfold configWrite
  extract_lets +onlyGivenNames y1
  have h2 : Evolves M P a y1 := by
    unfold y1
    refine cfgPut_ev _ _ _ (hm.of rfl) ?_
    exact h
  clear_value y1
  refine Evolves.ite ?_ ?_
  · refine busMaster_ev _ (hm.of rfl) ?_
    exact h2
  · refine Evolves.ite ?_ ?_
    · refine Evolves.ite ?_ ?_
      · refine Evolves.withCqi (hm.bit rfl) ?_
        exact h2
      · refine Evolves.ite ?_ ?_
        · refine resetStart_ev _ (hm.of rfl) ?_
          refine Evolves.withCqi (hm.bit rfl) ?_
          exact h2
        · exact h2
    · refine Evolves.ite ?_ ?_
      · refine pbaAll_ev (hm.of rfl) ?_
        refine Evolves.withCqi (hm.bit rfl) ?_
        exact h2
      · refine Evolves.ite ?_ ?_
        · refine resetStart_ev _ (hm.of rfl) ?_
          exact h2
        · exact h2

theorem claimedWrite_ev (x1 x2 x3 : _) (hm : Sub 0x3fffffff M) (hall : ∀ n, P n) (h : Evolves M P a s) :
    Evolves M P a (claimedWrite x1 x2 x3 s) := by
  unfold claimedWrite
  refine Evolves.ite ?_ ?_
  · extract_lets +onlyGivenNames y1
    refine Evolves.ite ?_ ?_
    · refine typed_ev _ _ (hm.of rfl) hall ?_
      exact h
    · exact h
  · refine Evolves.ite ?_ ?_
    · extract_lets +onlyGivenNames y2
      refine Evolves.ite ?_ ?_
      · exact h
      · refine Evolves.ite ?_ ?_
        · extract_lets +onlyGivenNames y3
          extract_lets +onlyGivenNames y4
          extract_lets +onlyGivenNames y5
          extract_lets +onlyGivenNames y6
          refine typedBut_ev _ _ _ (hm.of rfl) hall ?_
          exact h
        · refine typed_ev _ _ (hm.of rfl) hall ?_
          exact h
    · extract_lets +onlyGivenNames y7
      refine Evolves.ite ?_ ?_
      · refine typed_ev _ _ (hm.of rfl) hall ?_
        exact h
      · exact h

theorem pwrWrite_ev (x1 x2 : _) (hm : Sub 0x7fdffffffffffff M) (hall : ∀ n, P n) (h : Evolves M P a s) :
    Evolves M P a (pwrWrite x1 x2 s) := by
  unfold pwrWrite
  refine Evolves.ite ?_ ?_
  · refine Evolves.foldl _ (fun s1 x2 h3 => ?_) ?_
    · extract_lets +onlyGivenNames y4
      have h5 : Evolves M P a y4 := by
        unfold y4
        refine Evolves.ite ?_ ?_
        · refine engSleep_ev _ (hm.of rfl) (hall _) ?_
          exact h3
        · exact h3
      clear_value y4
      refine Evolves.ite ?_ ?_
      · refine engWake_ev _ (hm.of rfl) ?_
        exact h5
      · exact h5
    · exact h
  · refine Evolves.ite ?_ ?_
    · refine onBit_ev _ _ _ (hm.of rfl) ?_ ?_
      · intro s6
        intro h7
        refine warmOp_ev _ (hm.of rfl) hall ?_
        exact h7
      · refine typed_ev _ _ (hm.of rfl) hall ?_
        exact h
    · refine Evolves.ite ?_ ?_
      · refine onBit_ev _ _ _ (hm.of rfl) ?_ ?_
        · intro s8
          intro h9
          refine wdtRestart_ev (hm.of rfl) ?_
          exact h9
        · refine typed_ev _ _ (hm.of rfl) hall ?_
          exact h
      · refine typed_ev _ _ (hm.of rfl) hall ?_
        exact h

theorem arbWrite_ev (x1 x2 : _) (hm : Sub 0x3fffffff M) (hall : ∀ n, P n) (h : Evolves M P a s) :
    Evolves M P a (arbWrite x1 x2 s) := by
  unfold arbWrite
  refine Evolves.ite ?_ ?_
  · refine seedWrite_ev _ (hm.of rfl) ?_
    exact h
  · refine typed_ev _ _ (hm.of rfl) hall ?_
    exact h

theorem strcWrite_ev (x1 x2 x3 : _) (hm : Sub 0x48080003fffffff M) (hall : ∀ n, P n) (h : Evolves M P a s) :
    Evolves M P a (strcWrite x1 x2 x3 s) := by
  unfold strcWrite
  refine Evolves.ite ?_ ?_
  · extract_lets +onlyGivenNames y1
    extract_lets +onlyGivenNames y2
    extract_lets +onlyGivenNames y3
    have h4 : Evolves M P a y3 := by
      unfold y3
      refine typedBut_ev _ _ _ (hm.of rfl) hall ?_
      exact h
    clear_value y3
    extract_lets +onlyGivenNames y5
    have h6 : Evolves M P a y5 := by
      unfold y5
      refine Evolves.ite ?_ ?_
      · refine strcEnableOp_ev (hm.of rfl) ?_
        exact h4
      · refine Evolves.ite ?_ ?_
        · refine strcDisableOp_ev (hm.of rfl) ?_
          exact h4
        · exact h4
    clear_value y5
    extract_lets +onlyGivenNames y7
    have h8 : Evolves M P a y7 := by
      unfold y7
      split
      · refine strcOp_ev _ (hm.of rfl) ?_ ?_
        · intro s9
          intro h10
          refine invalOp_ev (hm.of rfl) ?_
          exact h10
        · exact h6
      · refine strcOp_ev _ (hm.of rfl) ?_ ?_
        · intro s11
          intro h12
          refine cleanOp_ev (hm.of rfl) ?_
          exact h12
        · exact h6
      · refine strcOp_ev _ (hm.of rfl) ?_ ?_
        · intro s13
          intro h14
          refine invalOp_ev (hm.of rfl) ?_
          refine cleanOp_ev (hm.of rfl) ?_
          exact h14
        · exact h6
      · refine lockFill_ev (hm.of rfl) ?_
        exact h6
      · exact h6
    clear_value y7
    refine onBit_ev _ _ _ (hm.of rfl) ?_ ?_
    · intro s15
      intro h16
      refine strcCntClear_ev _ (hm.of rfl) ?_
      exact h16
    · exact h8
  · refine Evolves.ite ?_ ?_
    · refine partWrite_ev _ _ (hm.of rfl) ?_
      exact h
    · refine Evolves.ite ?_ ?_
      · refine prefetch_ev _ _ (hm.of rfl) ?_
        exact h
      · refine typed_ev _ _ (hm.of rfl) hall ?_
        exact h

theorem poolWrite_ev (x1 x2 : _) (hm : Sub 0x8000003fffffff M) (hall : ∀ n, P n) (h : Evolves M P a s) :
    Evolves M P a (poolWrite x1 x2 s) := by
  unfold poolWrite
  extract_lets +onlyGivenNames y1
  refine Evolves.ite ?_ ?_
  · refine poolConfig_ev _ _ _ (hm.of rfl) ?_
    exact h
  · refine Evolves.ite ?_ ?_
    · refine poolConfig_ev _ _ _ (hm.of rfl) ?_
      exact h
    · refine Evolves.ite ?_ ?_
      · refine poolMinReset_ev _ (hm.of rfl) ?_
        exact h
      · refine typed_ev _ _ (hm.of rfl) hall ?_
        exact h

theorem glbWrite_ev (x1 x2 x3 x4 : _) (hm : Sub 0x7fdffffffffffff M) (hall : ∀ n, P n) (h : Evolves M P a s) :
    Evolves M P a (glbWrite x1 x2 x3 x4 s) := by
  unfold glbWrite
  extract_lets +onlyGivenNames y1
  refine Evolves.ite ?_ ?_
  · refine Evolves.ite ?_ ?_
    · refine typed_ev _ _ (hm.of rfl) hall ?_
      exact h
    · exact h
  · refine Evolves.ite ?_ ?_
    · refine Evolves.ite ?_ ?_
      · refine Evolves.ite ?_ ?_
        · refine typed_ev _ _ (hm.of rfl) hall ?_
          exact h
        · exact h
      · refine Evolves.ite ?_ ?_
        · refine Evolves.ite ?_ ?_
          · refine typed_ev _ _ (hm.of rfl) hall ?_
            exact h
          · exact h
        · refine typed_ev _ _ (hm.of rfl) hall ?_
          exact h
    · refine Evolves.ite ?_ ?_
      · refine Evolves.dite (fun _ => ?_) (fun _ => ?_)
        · refine claimOp_ev _ _ _ (hm.of rfl) hall ?_
          exact h
        · exact h
      · refine Evolves.ite ?_ ?_
        · refine claimedWrite_ev _ _ _ (hm.of rfl) hall ?_
          exact h
        · refine Evolves.ite ?_ ?_
          · refine Evolves.ite ?_ ?_
            · refine pwrWrite_ev _ _ (hm.of rfl) hall ?_
              exact h
            · exact h
          · refine Evolves.ite ?_ ?_
            · refine Evolves.ite ?_ ?_
              · refine arbWrite_ev _ _ (hm.of rfl) hall ?_
                exact h
              · exact h
            · refine Evolves.ite ?_ ?_
              · refine Evolves.ite ?_ ?_
                · refine strcWrite_ev _ _ _ (hm.of rfl) hall ?_
                  exact h
                · exact h
              · refine Evolves.ite ?_ ?_
                · refine poolWrite_ev _ _ (hm.of rfl) hall ?_
                  exact h
                · exact h

theorem regWrite_ev (x1 x2 x3 x4 : _) (hm : Sub 0x7fdffffffffffff M) (hall : ∀ n, P n) (h : Evolves M P a s) :
    Evolves M P a (regWrite x1 x2 x3 x4 s) := by
  unfold regWrite
  refine Evolves.ite ?_ ?_
  · exact h
  · split
    · refine engWrite_ev _ _ _ _ _ (hm.of rfl) hall ?_
      exact h
    · refine chWrite_ev _ _ _ _ _ (hm.of rfl) hall ?_
      exact h
    · refine wobWrite_ev _ _ _ (hm.of rfl) hall ?_
      exact h
    · refine glbWrite_ev _ _ _ _ (hm.of rfl) hall ?_
      exact h
    · refine axWrite_ev _ _ _ (hm.of rfl) hall ?_
      exact h
    · refine brkWrite_ev _ _ _ _ (hm.of rfl) hall ?_
      exact h
    · refine typed_ev _ _ (hm.of rfl) hall ?_
      exact h
    · refine cqiWrite_ev _ _ (hm.of rfl) hall ?_
      exact h
    · refine queueWrite_ev _ _ _ _ (hm.of rfl) hall ?_
      exact h

theorem regAccess_ev (x1 x2 x3 x4 x5 x6 : _) (hm : Sub 0x7fdffffffffffff M) (hall : ∀ n, P n) (h : Evolves M P a s) :
    Evolves M P a (regAccess x1 x2 x3 x4 x5 x6 s) := by
  unfold regAccess
  refine Evolves.ite ?_ ?_
  · refine regWrite_ev _ _ _ _ (hm.of rfl) hall ?_
    exact h
  · exact h

theorem destWrite_ev (x1 x2 x3 x4 x5 x6 x7 : _) (hm : Sub 0x7fdffffffffffff M) (hall : ∀ n, P n) (h : Evolves M P a s) :
    Evolves M P a (destWrite x1 x2 x3 x4 x5 x6 x7 s) := by
  unfold destWrite
  extract_lets +onlyGivenNames y1
  split
  · exact h
  · refine Evolves.ite ?_ ?_
    · refine configWrite_ev _ _ _ (hm.of rfl) ?_
      exact h
    · exact h
  · refine regAccess_ev _ _ _ _ _ _ (hm.of rfl) hall ?_
    exact h
  · refine Evolves.ite ?_ ?_
    · refine anvPm_ev _ _ _ _ (hm.of rfl) (hall _) ?_
      exact h
    · exact h
  · refine Evolves.ite ?_ ?_
    · refine anvDm_ev _ _ _ (hm.of rfl) (hall _) ?_
      exact h
    · exact h
  · refine Evolves.ite ?_ ?_
    · refine msixWrite_ev _ _ (hm.of rfl) ?_
      exact h
    · exact h
  · refine memWrite_ev _ _ _ _ _ (hm.of rfl) hall ?_
    exact h
  · refine Evolves.ite ?_ ?_
    · refine queueWord_ev _ _ _ (hm.of rfl) hall ?_
      exact h
    · exact h
  · refine windowWord_ev _ _ _ _ _ _ (hm.of rfl) ?_
    exact h
  · refine Evolves.foldl _ (fun s2 x3 h4 => ?_) ?_
    · refine Evolves.ite ?_ ?_
      · refine State.ddrPut_ev _ _ _ (hm.of rfl) ?_
        exact h4
      · exact h4
    · exact h

theorem registerWriteOp_ev (x1 x2 x3 x4 x5 x6 : _) (hm : Sub 0x7fdffffffffffff M) (hall : ∀ n, P n) (h : Evolves M P a s) :
    Evolves M P a (registerWriteOp x1 x2 x3 x4 x5 x6 s) := by
  unfold registerWriteOp
  extract_lets +onlyGivenNames y1
  refine Evolves.ite ?_ ?_
  · refine destWrite_ev _ _ _ _ _ _ _ (hm.of rfl) hall ?_
    exact h
  · split
    · exact h
    · refine Evolves.ite ?_ ?_
      · exact h
      · refine Evolves.ite ?_ ?_
        · refine accessFault_ev _ _ _ (hm.of rfl) hall ?_
          exact h
        · refine destWrite_ev _ _ _ _ _ _ _ (hm.of rfl) hall ?_
          exact h

theorem execRegisterWrite_next (x1 x2 x3 x4 x5 x6 : _) (hm : Sub 0x7fdffffffffffff M) (hall : ∀ n, P n) :
    ∃ t, (execRegisterWrite x1 x2 x3 x4 x5 x6 s) = .next t ∧ Evolves M P s t := by
  refine ⟨_, rfl, ?_⟩
  have h := Evolves.refl M P s
  refine armDrain_ev (hm.of rfl) ?_
  refine registerWriteOp_ev _ _ _ _ _ _ (hm.of rfl) hall ?_
  exact h

end Sys2Proof.Machine
end

