-- ==== Sys2Proof/Laws/State.lean ====
section
/-! SUPPORT. Reading back what an update wrote: registers, fields, and every field of the state after each kind of update. -/
namespace Sys2Proof.Machine

variable (s : State)

/-! ### Fields of a register word -/

theorem Fld.getLsbD_mask (f : Fld) (h : f.lo + f.w ≤ 32) (i : Nat) :
    f.mask.getLsbD i = (decide (f.lo ≤ i) && decide (i < f.lo + f.w)) := by
  unfold Fld.mask
  rw [BitVec.getLsbD_shiftLeft, BitVec.getLsbD_ofNat, Nat.testBit_two_pow_sub_one]
  by_cases h1 : f.lo ≤ i <;> by_cases h2 : i < f.lo + f.w <;> simp [h1, h2] <;> omega

theorem Fld.testBit_of (f : Fld) (v : Word) (i : Nat) : (f.of v).testBit i = (decide (i < f.w) && v.getLsbD (f.lo + i)) := by
  unfold Fld.of
  rw [Nat.testBit_mod_two_pow, Nat.testBit_shiftRight]
  rfl

theorem Fld.getLsbD_into (f : Fld) (h : f.lo + f.w ≤ 32) (v : Word) (x i : Nat) (hi : i < 32) :
    (f.into v x).getLsbD i = if f.lo ≤ i ∧ i < f.lo + f.w then x.testBit (i - f.lo) else v.getLsbD i := by
  unfold Fld.into
  rw [BitVec.getLsbD_or, BitVec.getLsbD_and, BitVec.getLsbD_not, f.getLsbD_mask h, BitVec.getLsbD_shiftLeft, BitVec.getLsbD_ofNat,
    Nat.testBit_mod_two_pow]
  by_cases h1 : f.lo ≤ i <;> by_cases h2 : i < f.lo + f.w <;> simp [h1, h2, hi]
  · have h3 : ¬ i < f.lo := by omega
    have h4 : i - f.lo < 32 := by omega
    have h5 : i - f.lo < f.w := by omega
    simp [h3, h4, h5]
  · intro _ h5
    omega

/-- A field reads what was put into it. -/
theorem Fld.of_into (f : Fld) (h : f.lo + f.w ≤ 32) (v : Word) (x : Nat) : f.of (f.into v x) = x % 2 ^ f.w := by
  refine Nat.eq_of_testBit_eq fun i => ?_
  rw [f.testBit_of, Nat.testBit_mod_two_pow]
  by_cases h1 : i < f.w
  · have h2 : f.lo + i < f.lo + f.w := by omega
    rw [f.getLsbD_into h v x _ (by omega)]
    simp [h1, h2]
  · simp [h1]

/-- A field reads as before when another one that does not overlap it is put. -/
theorem Fld.of_into_apart (f g : Fld) (hf : f.lo + f.w ≤ 32) (hg : g.lo + g.w ≤ 32) (h : f.lo + f.w ≤ g.lo ∨ g.lo + g.w ≤ f.lo)
    (v : Word) (x : Nat) : g.of (f.into v x) = g.of v := by
  refine Nat.eq_of_testBit_eq fun i => ?_
  rw [g.testBit_of, g.testBit_of]
  by_cases h1 : i < g.w
  · rw [f.getLsbD_into hf v x _ (by omega), if_neg (by omega)]
  · simp [h1]

/-! ### Registers and fields of the state -/

theorem State.get_put (f : Fld) (x : Nat) (h : f.lo + f.w ≤ 32) : (s.put f x).get f = x % 2 ^ f.w := by
  unfold State.get State.put
  rw [State.rd_wr, f.of_into h]

theorem State.get_put_reg {f g : Fld} (x : Nat) (h : f.reg ≠ g.reg) : (s.put f x).get g = s.get g := by
  unfold State.get State.put
  rw [State.rd_wr_other _ _ h]

theorem State.get_put_apart {f g : Fld} (x : Nat) (hf : f.lo + f.w ≤ 32) (hg : g.lo + g.w ≤ 32)
    (h : f.lo + f.w ≤ g.lo ∨ g.lo + g.w ≤ f.lo) : (s.put f x).get g = s.get g := by
  by_cases hr : f.reg = g.reg
  · unfold State.get State.put
    rw [hr, State.rd_wr, f.of_into_apart g hf hg h]
  · exact s.get_put_reg x hr

/-- The same for fields written out, in the form simplification uses. -/
@[simp] theorem State.get_put_mk (r : Reg) (lo w x : Nat) (h : lo + w ≤ 32) : (s.put ⟨r, lo, w⟩ x).get ⟨r, lo, w⟩ = x % 2 ^ w :=
  s.get_put ⟨r, lo, w⟩ x h
@[simp] theorem State.get_put_mk_reg (r q : Reg) (lo w lo' w' x : Nat) (h : r ≠ q) :
    (s.put ⟨r, lo, w⟩ x).get ⟨q, lo', w'⟩ = s.get ⟨q, lo', w'⟩ := s.get_put_reg (f := ⟨r, lo, w⟩) (g := ⟨q, lo', w'⟩) x h
@[simp] theorem State.get_put_mk_apart (r q : Reg) (lo w lo' w' x : Nat) (hf : lo + w ≤ 32) (hg : lo' + w' ≤ 32)
    (h : lo + w ≤ lo' ∨ lo' + w' ≤ lo) : (s.put ⟨r, lo, w⟩ x).get ⟨q, lo', w'⟩ = s.get ⟨q, lo', w'⟩ :=
  s.get_put_apart (f := ⟨r, lo, w⟩) (g := ⟨q, lo', w'⟩) x hf hg h
@[simp] theorem State.get_wr_mk (r : Reg) (lo w : Nat) (v : Word) : (s.wr r v).get ⟨r, lo, w⟩ = (⟨r, lo, w⟩ : Fld).of v := by
  unfold State.get
  rw [State.rd_wr]
@[simp] theorem State.get_wr_mk_other (r q : Reg) (lo w : Nat) (v : Word) (h : r ≠ q) :
    (s.wr r v).get ⟨q, lo, w⟩ = s.get ⟨q, lo, w⟩ := by
  unfold State.get
  rw [State.rd_wr_other _ _ h]
@[simp] theorem State.rd_wr_same (r : Reg) (v : Word) : (s.wr r v).rd r = v := State.rd_wr s r v
@[simp] theorem State.rd_wr_ne (r q : Reg) (v : Word) (h : r ≠ q) : (s.wr r v).rd q = s.rd q := State.rd_wr_other s v h
@[simp] theorem State.rd_put_mk (r q : Reg) (lo w x : Nat) (h : r ≠ q) : (s.put ⟨r, lo, w⟩ x).rd q = s.rd q := State.rd_wr_other _ _ h
theorem State.isSet_eq (g : Fld) : s.isSet g = (s.get g != 0) := rfl
theorem State.putBool_eq (f : Fld) (b : Bool) : s.putBool f b = s.put f (if b then 1 else 0) := rfl
theorem State.inc_eq (f : Fld) : s.inc f = s.put f (satInc (2 ^ f.w - 1) (s.get f)) := rfl
theorem State.incBy_eq (f : Fld) (d : Nat) : s.incBy f d = s.put f (satAdd (2 ^ f.w - 1) (s.get f) d) := rfl
theorem State.incWrap_eq (f : Fld) : s.incWrap f = s.put f (s.get f + 1) := rfl

theorem State.rd_put_other {f : Fld} {r : Reg} (x : Nat) (h : f.reg ≠ r) : (s.put f x).rd r = s.rd r := State.rd_wr_other _ _ h

/-! ### Updates of an engine's units -/

@[simp] theorem State.modHl_eq (e : Eng) (f : HlInt → HlInt) : s.modHl e f = s.modEng e fun g => { g with hl := f g.hl } := (rfl)
@[simp] theorem State.modSeam_eq (e : Eng) (f : SeamInt → SeamInt) : s.modSeam e f = s.modEng e fun g => { g with seam := f g.seam } := (rfl)
@[simp] theorem State.modWr_eq (e : Eng) (f : WrInt → WrInt) : s.modWr e f = s.modEng e fun g => { g with wr := f g.wr } := (rfl)
@[simp] theorem State.modTmp_eq (e : Eng) (f : TmpInt → TmpInt) : s.modTmp e f = s.modEng e fun g => { g with tmp := f g.tmp } := (rfl)
@[simp] theorem State.modAnv_eq (e : Eng) (f : AnvInt → AnvInt) : s.modAnv e f = s.modEng e fun g => { g with anv := f g.anv } := (rfl)
@[simp] theorem State.modLoop_eq (e : Eng) (f : LoopInt → LoopInt) : s.modLoop e f = s.modEng e fun g => { g with loop := f g.loop } := (rfl)
@[simp] theorem State.modSpn_eq (e : Eng) (f : SpnInt → SpnInt) : s.modSpn e f = s.modEng e fun g => { g with spn := f g.spn } := (rfl)
@[simp] theorem State.modSld_eq (e : Eng) (f : SldInt → SldInt) : s.modSld e f = s.modEng e fun g => { g with sld := f g.sld } := (rfl)
@[simp] theorem State.isSet_put_mk (r : Reg) (lo w x : Nat) (h : lo + w ≤ 32) : (s.put ⟨r, lo, w⟩ x).isSet ⟨r, lo, w⟩ = (x % 2 ^ w != 0) := by
  rw [State.isSet_eq, s.get_put_mk r lo w x h]
@[simp] theorem State.isSet_put_mk_reg (r q : Reg) (lo w lo' w' x : Nat) (h : r ≠ q) :
    (s.put ⟨r, lo, w⟩ x).isSet ⟨q, lo', w'⟩ = s.isSet ⟨q, lo', w'⟩ := by
  rw [State.isSet_eq, s.get_put_mk_reg r q lo w lo' w' x h, State.isSet_eq]
@[simp] theorem State.isSet_put_mk_apart (r q : Reg) (lo w lo' w' x : Nat) (hf : lo + w ≤ 32) (hg : lo' + w' ≤ 32)
    (h : lo + w ≤ lo' ∨ lo' + w' ≤ lo) : (s.put ⟨r, lo, w⟩ x).isSet ⟨q, lo', w'⟩ = s.isSet ⟨q, lo', w'⟩ := by
  rw [State.isSet_eq, s.get_put_mk_apart r q lo w lo' w' x hf hg h, State.isSet_eq]

/-! ### Fields of the state after an update -/

@[simp] theorem State.wr_pending (r : Reg) (v : Word) : (s.wr r v).pending = s.pending := (rfl)
@[simp] theorem State.wr_us (r : Reg) (v : Word) : (s.wr r v).us = s.us := (rfl)
@[simp] theorem State.wr_eng (r : Reg) (v : Word) : (s.wr r v).eng = s.eng := (rfl)
@[simp] theorem State.wr_ax (r : Reg) (v : Word) : (s.wr r v).ax = s.ax := (rfl)
@[simp] theorem State.wr_brk (r : Reg) (v : Word) : (s.wr r v).brk = s.brk := (rfl)
@[simp] theorem State.wr_mq (r : Reg) (v : Word) : (s.wr r v).mq = s.mq := (rfl)
@[simp] theorem State.wr_ddr (r : Reg) (v : Word) : (s.wr r v).ddr = s.ddr := (rfl)
@[simp] theorem State.wr_events (r : Reg) (v : Word) : (s.wr r v).events = s.events := (rfl)
@[simp] theorem State.wr_evSeq (r : Reg) (v : Word) : (s.wr r v).evSeq = s.evSeq := (rfl)
@[simp] theorem State.wr_encOffs (r : Reg) (v : Word) : (s.wr r v).encOffs = s.encOffs := (rfl)
@[simp] theorem State.wr_fresh (r : Reg) (v : Word) : (s.wr r v).fresh = s.fresh := (rfl)
@[simp] theorem State.wr_notes (r : Reg) (v : Word) : (s.wr r v).notes = s.notes := (rfl)
@[simp] theorem State.wr_ladderMsgs (r : Reg) (v : Word) : (s.wr r v).ladderMsgs = s.ladderMsgs := (rfl)
@[simp] theorem State.wr_jrn (r : Reg) (v : Word) : (s.wr r v).jrn = s.jrn := (rfl)
@[simp] theorem State.wr_arm (r : Reg) (v : Word) : (s.wr r v).arm = s.arm := (rfl)
@[simp] theorem State.wr_cqi (r : Reg) (v : Word) : (s.wr r v).cqi = s.cqi := (rfl)
@[simp] theorem State.wr_mem (r : Reg) (v : Word) : (s.wr r v).mem = s.mem := (rfl)
@[simp] theorem State.wr_sec (r : Reg) (v : Word) : (s.wr r v).sec = s.sec := (rfl)
@[simp] theorem State.wr_pw (r : Reg) (v : Word) : (s.wr r v).pw = s.pw := (rfl)
@[simp] theorem State.wr_out (r : Reg) (v : Word) : (s.wr r v).out = s.out := (rfl)

@[simp] theorem State.put_pending (f : Fld) (x : Nat) : (s.put f x).pending = s.pending := (rfl)
@[simp] theorem State.put_us (f : Fld) (x : Nat) : (s.put f x).us = s.us := (rfl)
@[simp] theorem State.put_eng (f : Fld) (x : Nat) : (s.put f x).eng = s.eng := (rfl)
@[simp] theorem State.put_ax (f : Fld) (x : Nat) : (s.put f x).ax = s.ax := (rfl)
@[simp] theorem State.put_brk (f : Fld) (x : Nat) : (s.put f x).brk = s.brk := (rfl)
@[simp] theorem State.put_mq (f : Fld) (x : Nat) : (s.put f x).mq = s.mq := (rfl)
@[simp] theorem State.put_ddr (f : Fld) (x : Nat) : (s.put f x).ddr = s.ddr := (rfl)
@[simp] theorem State.put_events (f : Fld) (x : Nat) : (s.put f x).events = s.events := (rfl)
@[simp] theorem State.put_evSeq (f : Fld) (x : Nat) : (s.put f x).evSeq = s.evSeq := (rfl)
@[simp] theorem State.put_encOffs (f : Fld) (x : Nat) : (s.put f x).encOffs = s.encOffs := (rfl)
@[simp] theorem State.put_fresh (f : Fld) (x : Nat) : (s.put f x).fresh = s.fresh := (rfl)
@[simp] theorem State.put_notes (f : Fld) (x : Nat) : (s.put f x).notes = s.notes := (rfl)
@[simp] theorem State.put_ladderMsgs (f : Fld) (x : Nat) : (s.put f x).ladderMsgs = s.ladderMsgs := (rfl)
@[simp] theorem State.put_jrn (f : Fld) (x : Nat) : (s.put f x).jrn = s.jrn := (rfl)
@[simp] theorem State.put_arm (f : Fld) (x : Nat) : (s.put f x).arm = s.arm := (rfl)
@[simp] theorem State.put_cqi (f : Fld) (x : Nat) : (s.put f x).cqi = s.cqi := (rfl)
@[simp] theorem State.put_mem (f : Fld) (x : Nat) : (s.put f x).mem = s.mem := (rfl)
@[simp] theorem State.put_sec (f : Fld) (x : Nat) : (s.put f x).sec = s.sec := (rfl)
@[simp] theorem State.put_pw (f : Fld) (x : Nat) : (s.put f x).pw = s.pw := (rfl)
@[simp] theorem State.put_out (f : Fld) (x : Nat) : (s.put f x).out = s.out := (rfl)

@[simp] theorem State.putInt_pending (f : Fld) (x : Int) : (s.putInt f x).pending = s.pending := (rfl)
@[simp] theorem State.putInt_us (f : Fld) (x : Int) : (s.putInt f x).us = s.us := (rfl)
@[simp] theorem State.putInt_eng (f : Fld) (x : Int) : (s.putInt f x).eng = s.eng := (rfl)
@[simp] theorem State.putInt_ax (f : Fld) (x : Int) : (s.putInt f x).ax = s.ax := (rfl)
@[simp] theorem State.putInt_brk (f : Fld) (x : Int) : (s.putInt f x).brk = s.brk := (rfl)
@[simp] theorem State.putInt_mq (f : Fld) (x : Int) : (s.putInt f x).mq = s.mq := (rfl)
@[simp] theorem State.putInt_ddr (f : Fld) (x : Int) : (s.putInt f x).ddr = s.ddr := (rfl)
@[simp] theorem State.putInt_events (f : Fld) (x : Int) : (s.putInt f x).events = s.events := (rfl)
@[simp] theorem State.putInt_evSeq (f : Fld) (x : Int) : (s.putInt f x).evSeq = s.evSeq := (rfl)
@[simp] theorem State.putInt_encOffs (f : Fld) (x : Int) : (s.putInt f x).encOffs = s.encOffs := (rfl)
@[simp] theorem State.putInt_fresh (f : Fld) (x : Int) : (s.putInt f x).fresh = s.fresh := (rfl)
@[simp] theorem State.putInt_notes (f : Fld) (x : Int) : (s.putInt f x).notes = s.notes := (rfl)
@[simp] theorem State.putInt_ladderMsgs (f : Fld) (x : Int) : (s.putInt f x).ladderMsgs = s.ladderMsgs := (rfl)
@[simp] theorem State.putInt_jrn (f : Fld) (x : Int) : (s.putInt f x).jrn = s.jrn := (rfl)
@[simp] theorem State.putInt_arm (f : Fld) (x : Int) : (s.putInt f x).arm = s.arm := (rfl)
@[simp] theorem State.putInt_cqi (f : Fld) (x : Int) : (s.putInt f x).cqi = s.cqi := (rfl)
@[simp] theorem State.putInt_mem (f : Fld) (x : Int) : (s.putInt f x).mem = s.mem := (rfl)
@[simp] theorem State.putInt_sec (f : Fld) (x : Int) : (s.putInt f x).sec = s.sec := (rfl)
@[simp] theorem State.putInt_pw (f : Fld) (x : Int) : (s.putInt f x).pw = s.pw := (rfl)
@[simp] theorem State.putInt_out (f : Fld) (x : Int) : (s.putInt f x).out = s.out := (rfl)

@[simp] theorem State.putBool_pending (f : Fld) (x : Bool) : (s.putBool f x).pending = s.pending := (rfl)
@[simp] theorem State.putBool_us (f : Fld) (x : Bool) : (s.putBool f x).us = s.us := (rfl)
@[simp] theorem State.putBool_eng (f : Fld) (x : Bool) : (s.putBool f x).eng = s.eng := (rfl)
@[simp] theorem State.putBool_ax (f : Fld) (x : Bool) : (s.putBool f x).ax = s.ax := (rfl)
@[simp] theorem State.putBool_brk (f : Fld) (x : Bool) : (s.putBool f x).brk = s.brk := (rfl)
@[simp] theorem State.putBool_mq (f : Fld) (x : Bool) : (s.putBool f x).mq = s.mq := (rfl)
@[simp] theorem State.putBool_ddr (f : Fld) (x : Bool) : (s.putBool f x).ddr = s.ddr := (rfl)
@[simp] theorem State.putBool_events (f : Fld) (x : Bool) : (s.putBool f x).events = s.events := (rfl)
@[simp] theorem State.putBool_evSeq (f : Fld) (x : Bool) : (s.putBool f x).evSeq = s.evSeq := (rfl)
@[simp] theorem State.putBool_encOffs (f : Fld) (x : Bool) : (s.putBool f x).encOffs = s.encOffs := (rfl)
@[simp] theorem State.putBool_fresh (f : Fld) (x : Bool) : (s.putBool f x).fresh = s.fresh := (rfl)
@[simp] theorem State.putBool_notes (f : Fld) (x : Bool) : (s.putBool f x).notes = s.notes := (rfl)
@[simp] theorem State.putBool_ladderMsgs (f : Fld) (x : Bool) : (s.putBool f x).ladderMsgs = s.ladderMsgs := (rfl)
@[simp] theorem State.putBool_jrn (f : Fld) (x : Bool) : (s.putBool f x).jrn = s.jrn := (rfl)
@[simp] theorem State.putBool_arm (f : Fld) (x : Bool) : (s.putBool f x).arm = s.arm := (rfl)
@[simp] theorem State.putBool_cqi (f : Fld) (x : Bool) : (s.putBool f x).cqi = s.cqi := (rfl)
@[simp] theorem State.putBool_mem (f : Fld) (x : Bool) : (s.putBool f x).mem = s.mem := (rfl)
@[simp] theorem State.putBool_sec (f : Fld) (x : Bool) : (s.putBool f x).sec = s.sec := (rfl)
@[simp] theorem State.putBool_pw (f : Fld) (x : Bool) : (s.putBool f x).pw = s.pw := (rfl)
@[simp] theorem State.putBool_out (f : Fld) (x : Bool) : (s.putBool f x).out = s.out := (rfl)

@[simp] theorem State.inc_pending (f : Fld) : (s.inc f).pending = s.pending := (rfl)
@[simp] theorem State.inc_us (f : Fld) : (s.inc f).us = s.us := (rfl)
@[simp] theorem State.inc_eng (f : Fld) : (s.inc f).eng = s.eng := (rfl)
@[simp] theorem State.inc_ax (f : Fld) : (s.inc f).ax = s.ax := (rfl)
@[simp] theorem State.inc_brk (f : Fld) : (s.inc f).brk = s.brk := (rfl)
@[simp] theorem State.inc_mq (f : Fld) : (s.inc f).mq = s.mq := (rfl)
@[simp] theorem State.inc_ddr (f : Fld) : (s.inc f).ddr = s.ddr := (rfl)
@[simp] theorem State.inc_events (f : Fld) : (s.inc f).events = s.events := (rfl)
@[simp] theorem State.inc_evSeq (f : Fld) : (s.inc f).evSeq = s.evSeq := (rfl)
@[simp] theorem State.inc_encOffs (f : Fld) : (s.inc f).encOffs = s.encOffs := (rfl)
@[simp] theorem State.inc_fresh (f : Fld) : (s.inc f).fresh = s.fresh := (rfl)
@[simp] theorem State.inc_notes (f : Fld) : (s.inc f).notes = s.notes := (rfl)
@[simp] theorem State.inc_ladderMsgs (f : Fld) : (s.inc f).ladderMsgs = s.ladderMsgs := (rfl)
@[simp] theorem State.inc_jrn (f : Fld) : (s.inc f).jrn = s.jrn := (rfl)
@[simp] theorem State.inc_arm (f : Fld) : (s.inc f).arm = s.arm := (rfl)
@[simp] theorem State.inc_cqi (f : Fld) : (s.inc f).cqi = s.cqi := (rfl)
@[simp] theorem State.inc_mem (f : Fld) : (s.inc f).mem = s.mem := (rfl)
@[simp] theorem State.inc_sec (f : Fld) : (s.inc f).sec = s.sec := (rfl)
@[simp] theorem State.inc_pw (f : Fld) : (s.inc f).pw = s.pw := (rfl)
@[simp] theorem State.inc_out (f : Fld) : (s.inc f).out = s.out := (rfl)

@[simp] theorem State.incBy_pending (f : Fld) (d : Nat) : (s.incBy f d).pending = s.pending := (rfl)
@[simp] theorem State.incBy_us (f : Fld) (d : Nat) : (s.incBy f d).us = s.us := (rfl)
@[simp] theorem State.incBy_eng (f : Fld) (d : Nat) : (s.incBy f d).eng = s.eng := (rfl)
@[simp] theorem State.incBy_ax (f : Fld) (d : Nat) : (s.incBy f d).ax = s.ax := (rfl)
@[simp] theorem State.incBy_brk (f : Fld) (d : Nat) : (s.incBy f d).brk = s.brk := (rfl)
@[simp] theorem State.incBy_mq (f : Fld) (d : Nat) : (s.incBy f d).mq = s.mq := (rfl)
@[simp] theorem State.incBy_ddr (f : Fld) (d : Nat) : (s.incBy f d).ddr = s.ddr := (rfl)
@[simp] theorem State.incBy_events (f : Fld) (d : Nat) : (s.incBy f d).events = s.events := (rfl)
@[simp] theorem State.incBy_evSeq (f : Fld) (d : Nat) : (s.incBy f d).evSeq = s.evSeq := (rfl)
@[simp] theorem State.incBy_encOffs (f : Fld) (d : Nat) : (s.incBy f d).encOffs = s.encOffs := (rfl)
@[simp] theorem State.incBy_fresh (f : Fld) (d : Nat) : (s.incBy f d).fresh = s.fresh := (rfl)
@[simp] theorem State.incBy_notes (f : Fld) (d : Nat) : (s.incBy f d).notes = s.notes := (rfl)
@[simp] theorem State.incBy_ladderMsgs (f : Fld) (d : Nat) : (s.incBy f d).ladderMsgs = s.ladderMsgs := (rfl)
@[simp] theorem State.incBy_jrn (f : Fld) (d : Nat) : (s.incBy f d).jrn = s.jrn := (rfl)
@[simp] theorem State.incBy_arm (f : Fld) (d : Nat) : (s.incBy f d).arm = s.arm := (rfl)
@[simp] theorem State.incBy_cqi (f : Fld) (d : Nat) : (s.incBy f d).cqi = s.cqi := (rfl)
@[simp] theorem State.incBy_mem (f : Fld) (d : Nat) : (s.incBy f d).mem = s.mem := (rfl)
@[simp] theorem State.incBy_sec (f : Fld) (d : Nat) : (s.incBy f d).sec = s.sec := (rfl)
@[simp] theorem State.incBy_pw (f : Fld) (d : Nat) : (s.incBy f d).pw = s.pw := (rfl)
@[simp] theorem State.incBy_out (f : Fld) (d : Nat) : (s.incBy f d).out = s.out := (rfl)

@[simp] theorem State.incWrap_pending (f : Fld) : (s.incWrap f).pending = s.pending := (rfl)
@[simp] theorem State.incWrap_us (f : Fld) : (s.incWrap f).us = s.us := (rfl)
@[simp] theorem State.incWrap_eng (f : Fld) : (s.incWrap f).eng = s.eng := (rfl)
@[simp] theorem State.incWrap_ax (f : Fld) : (s.incWrap f).ax = s.ax := (rfl)
@[simp] theorem State.incWrap_brk (f : Fld) : (s.incWrap f).brk = s.brk := (rfl)
@[simp] theorem State.incWrap_mq (f : Fld) : (s.incWrap f).mq = s.mq := (rfl)
@[simp] theorem State.incWrap_ddr (f : Fld) : (s.incWrap f).ddr = s.ddr := (rfl)
@[simp] theorem State.incWrap_events (f : Fld) : (s.incWrap f).events = s.events := (rfl)
@[simp] theorem State.incWrap_evSeq (f : Fld) : (s.incWrap f).evSeq = s.evSeq := (rfl)
@[simp] theorem State.incWrap_encOffs (f : Fld) : (s.incWrap f).encOffs = s.encOffs := (rfl)
@[simp] theorem State.incWrap_fresh (f : Fld) : (s.incWrap f).fresh = s.fresh := (rfl)
@[simp] theorem State.incWrap_notes (f : Fld) : (s.incWrap f).notes = s.notes := (rfl)
@[simp] theorem State.incWrap_ladderMsgs (f : Fld) : (s.incWrap f).ladderMsgs = s.ladderMsgs := (rfl)
@[simp] theorem State.incWrap_jrn (f : Fld) : (s.incWrap f).jrn = s.jrn := (rfl)
@[simp] theorem State.incWrap_arm (f : Fld) : (s.incWrap f).arm = s.arm := (rfl)
@[simp] theorem State.incWrap_cqi (f : Fld) : (s.incWrap f).cqi = s.cqi := (rfl)
@[simp] theorem State.incWrap_mem (f : Fld) : (s.incWrap f).mem = s.mem := (rfl)
@[simp] theorem State.incWrap_sec (f : Fld) : (s.incWrap f).sec = s.sec := (rfl)
@[simp] theorem State.incWrap_pw (f : Fld) : (s.incWrap f).pw = s.pw := (rfl)
@[simp] theorem State.incWrap_out (f : Fld) : (s.incWrap f).out = s.out := (rfl)

@[simp] theorem State.modEng_regs (e : Eng) (f : EngInt → EngInt) : (s.modEng e f).regs = s.regs := (rfl)
@[simp] theorem State.modEng_pending (e : Eng) (f : EngInt → EngInt) : (s.modEng e f).pending = s.pending := (rfl)
@[simp] theorem State.modEng_us (e : Eng) (f : EngInt → EngInt) : (s.modEng e f).us = s.us := (rfl)
@[simp] theorem State.modEng_eng (e : Eng) (f : EngInt → EngInt) : (s.modEng e f).eng = s.eng.set e (f s.eng[e]) := (rfl)
@[simp] theorem State.modEng_ax (e : Eng) (f : EngInt → EngInt) : (s.modEng e f).ax = s.ax := (rfl)
@[simp] theorem State.modEng_brk (e : Eng) (f : EngInt → EngInt) : (s.modEng e f).brk = s.brk := (rfl)
@[simp] theorem State.modEng_mq (e : Eng) (f : EngInt → EngInt) : (s.modEng e f).mq = s.mq := (rfl)
@[simp] theorem State.modEng_ddr (e : Eng) (f : EngInt → EngInt) : (s.modEng e f).ddr = s.ddr := (rfl)
@[simp] theorem State.modEng_events (e : Eng) (f : EngInt → EngInt) : (s.modEng e f).events = s.events := (rfl)
@[simp] theorem State.modEng_evSeq (e : Eng) (f : EngInt → EngInt) : (s.modEng e f).evSeq = s.evSeq := (rfl)
@[simp] theorem State.modEng_encOffs (e : Eng) (f : EngInt → EngInt) : (s.modEng e f).encOffs = s.encOffs := (rfl)
@[simp] theorem State.modEng_fresh (e : Eng) (f : EngInt → EngInt) : (s.modEng e f).fresh = s.fresh := (rfl)
@[simp] theorem State.modEng_notes (e : Eng) (f : EngInt → EngInt) : (s.modEng e f).notes = s.notes := (rfl)
@[simp] theorem State.modEng_ladderMsgs (e : Eng) (f : EngInt → EngInt) : (s.modEng e f).ladderMsgs = s.ladderMsgs := (rfl)
@[simp] theorem State.modEng_jrn (e : Eng) (f : EngInt → EngInt) : (s.modEng e f).jrn = s.jrn := (rfl)
@[simp] theorem State.modEng_arm (e : Eng) (f : EngInt → EngInt) : (s.modEng e f).arm = s.arm := (rfl)
@[simp] theorem State.modEng_cqi (e : Eng) (f : EngInt → EngInt) : (s.modEng e f).cqi = s.cqi := (rfl)
@[simp] theorem State.modEng_mem (e : Eng) (f : EngInt → EngInt) : (s.modEng e f).mem = s.mem := (rfl)
@[simp] theorem State.modEng_sec (e : Eng) (f : EngInt → EngInt) : (s.modEng e f).sec = s.sec := (rfl)
@[simp] theorem State.modEng_pw (e : Eng) (f : EngInt → EngInt) : (s.modEng e f).pw = s.pw := (rfl)
@[simp] theorem State.modEng_out (e : Eng) (f : EngInt → EngInt) : (s.modEng e f).out = s.out := (rfl)
@[simp] theorem State.modEng_rd (e : Eng) (f : EngInt → EngInt) (r' : Reg) : (s.modEng e f).rd r' = s.rd r' := (rfl)
@[simp] theorem State.modEng_get (e : Eng) (f : EngInt → EngInt) (g : Fld) : (s.modEng e f).get g = s.get g := (rfl)
@[simp] theorem State.modEng_isSet (e : Eng) (f : EngInt → EngInt) (g : Fld) : (s.modEng e f).isSet g = s.isSet g := (rfl)

@[simp] theorem State.emit_regs (o : Out) : (s.emit o).regs = s.regs := (rfl)
@[simp] theorem State.emit_pending (o : Out) : (s.emit o).pending = s.pending := (rfl)
@[simp] theorem State.emit_us (o : Out) : (s.emit o).us = s.us := (rfl)
@[simp] theorem State.emit_eng (o : Out) : (s.emit o).eng = s.eng := (rfl)
@[simp] theorem State.emit_ax (o : Out) : (s.emit o).ax = s.ax := (rfl)
@[simp] theorem State.emit_brk (o : Out) : (s.emit o).brk = s.brk := (rfl)
@[simp] theorem State.emit_mq (o : Out) : (s.emit o).mq = s.mq := (rfl)
@[simp] theorem State.emit_ddr (o : Out) : (s.emit o).ddr = s.ddr := (rfl)
@[simp] theorem State.emit_events (o : Out) : (s.emit o).events = s.events := (rfl)
@[simp] theorem State.emit_evSeq (o : Out) : (s.emit o).evSeq = s.evSeq := (rfl)
@[simp] theorem State.emit_encOffs (o : Out) : (s.emit o).encOffs = s.encOffs := (rfl)
@[simp] theorem State.emit_fresh (o : Out) : (s.emit o).fresh = s.fresh := (rfl)
@[simp] theorem State.emit_notes (o : Out) : (s.emit o).notes = s.notes := (rfl)
@[simp] theorem State.emit_ladderMsgs (o : Out) : (s.emit o).ladderMsgs = s.ladderMsgs := (rfl)
@[simp] theorem State.emit_jrn (o : Out) : (s.emit o).jrn = s.jrn := (rfl)
@[simp] theorem State.emit_arm (o : Out) : (s.emit o).arm = s.arm := (rfl)
@[simp] theorem State.emit_cqi (o : Out) : (s.emit o).cqi = s.cqi := (rfl)
@[simp] theorem State.emit_mem (o : Out) : (s.emit o).mem = s.mem := (rfl)
@[simp] theorem State.emit_sec (o : Out) : (s.emit o).sec = s.sec := (rfl)
@[simp] theorem State.emit_pw (o : Out) : (s.emit o).pw = s.pw := (rfl)
@[simp] theorem State.emit_out (o : Out) : (s.emit o).out = s.out ++ [o] := (rfl)
@[simp] theorem State.emit_rd (o : Out) (r' : Reg) : (s.emit o).rd r' = s.rd r' := (rfl)
@[simp] theorem State.emit_get (o : Out) (g : Fld) : (s.emit o).get g = s.get g := (rfl)
@[simp] theorem State.emit_isSet (o : Out) (g : Fld) : (s.emit o).isSet g = s.isSet g := (rfl)

@[simp] theorem State.report_regs (x : SupEvt) : (s.report x).regs = s.regs := (rfl)
@[simp] theorem State.report_pending (x : SupEvt) : (s.report x).pending = s.pending := (rfl)
@[simp] theorem State.report_us (x : SupEvt) : (s.report x).us = s.us := (rfl)
@[simp] theorem State.report_eng (x : SupEvt) : (s.report x).eng = s.eng := (rfl)
@[simp] theorem State.report_ax (x : SupEvt) : (s.report x).ax = s.ax := (rfl)
@[simp] theorem State.report_brk (x : SupEvt) : (s.report x).brk = s.brk := (rfl)
@[simp] theorem State.report_mq (x : SupEvt) : (s.report x).mq = s.mq := (rfl)
@[simp] theorem State.report_ddr (x : SupEvt) : (s.report x).ddr = s.ddr := (rfl)
@[simp] theorem State.report_events (x : SupEvt) : (s.report x).events = s.events := (rfl)
@[simp] theorem State.report_evSeq (x : SupEvt) : (s.report x).evSeq = s.evSeq := (rfl)
@[simp] theorem State.report_encOffs (x : SupEvt) : (s.report x).encOffs = s.encOffs := (rfl)
@[simp] theorem State.report_fresh (x : SupEvt) : (s.report x).fresh = s.fresh := (rfl)
@[simp] theorem State.report_notes (x : SupEvt) : (s.report x).notes = s.notes := (rfl)
@[simp] theorem State.report_ladderMsgs (x : SupEvt) : (s.report x).ladderMsgs = s.ladderMsgs := (rfl)
@[simp] theorem State.report_jrn (x : SupEvt) : (s.report x).jrn = s.jrn := (rfl)
@[simp] theorem State.report_arm (x : SupEvt) : (s.report x).arm = s.arm := (rfl)
@[simp] theorem State.report_cqi (x : SupEvt) : (s.report x).cqi = s.cqi := (rfl)
@[simp] theorem State.report_mem (x : SupEvt) : (s.report x).mem = s.mem := (rfl)
@[simp] theorem State.report_sec (x : SupEvt) : (s.report x).sec = s.sec := (rfl)
@[simp] theorem State.report_pw (x : SupEvt) : (s.report x).pw = s.pw := (rfl)
@[simp] theorem State.report_out (x : SupEvt) : (s.report x).out = s.out ++ [.sup x] := (rfl)
@[simp] theorem State.report_rd (x : SupEvt) (r' : Reg) : (s.report x).rd r' = s.rd r' := (rfl)
@[simp] theorem State.report_get (x : SupEvt) (g : Fld) : (s.report x).get g = s.get g := (rfl)
@[simp] theorem State.report_isSet (x : SupEvt) (g : Fld) : (s.report x).isSet g = s.isSet g := (rfl)

@[simp] theorem State.tickFresh_regs : s.tickFresh.regs = s.regs := (rfl)
@[simp] theorem State.tickFresh_pending : s.tickFresh.pending = s.pending := (rfl)
@[simp] theorem State.tickFresh_us : s.tickFresh.us = s.us := (rfl)
@[simp] theorem State.tickFresh_eng : s.tickFresh.eng = s.eng := (rfl)
@[simp] theorem State.tickFresh_ax : s.tickFresh.ax = s.ax := (rfl)
@[simp] theorem State.tickFresh_brk : s.tickFresh.brk = s.brk := (rfl)
@[simp] theorem State.tickFresh_mq : s.tickFresh.mq = s.mq := (rfl)
@[simp] theorem State.tickFresh_ddr : s.tickFresh.ddr = s.ddr := (rfl)
@[simp] theorem State.tickFresh_events : s.tickFresh.events = s.events := (rfl)
@[simp] theorem State.tickFresh_evSeq : s.tickFresh.evSeq = s.evSeq := (rfl)
@[simp] theorem State.tickFresh_encOffs : s.tickFresh.encOffs = s.encOffs := (rfl)
@[simp] theorem State.tickFresh_fresh : s.tickFresh.fresh = s.fresh + 1 := (rfl)
@[simp] theorem State.tickFresh_notes : s.tickFresh.notes = s.notes := (rfl)
@[simp] theorem State.tickFresh_ladderMsgs : s.tickFresh.ladderMsgs = s.ladderMsgs := (rfl)
@[simp] theorem State.tickFresh_jrn : s.tickFresh.jrn = s.jrn := (rfl)
@[simp] theorem State.tickFresh_arm : s.tickFresh.arm = s.arm := (rfl)
@[simp] theorem State.tickFresh_cqi : s.tickFresh.cqi = s.cqi := (rfl)
@[simp] theorem State.tickFresh_mem : s.tickFresh.mem = s.mem := (rfl)
@[simp] theorem State.tickFresh_sec : s.tickFresh.sec = s.sec := (rfl)
@[simp] theorem State.tickFresh_pw : s.tickFresh.pw = s.pw := (rfl)
@[simp] theorem State.tickFresh_out : s.tickFresh.out = s.out := (rfl)
@[simp] theorem State.tickFresh_rd (r' : Reg) : s.tickFresh.rd r' = s.rd r' := (rfl)
@[simp] theorem State.tickFresh_get (g : Fld) : s.tickFresh.get g = s.get g := (rfl)
@[simp] theorem State.tickFresh_isSet (g : Fld) : s.tickFresh.isSet g = s.isSet g := (rfl)

@[simp] theorem State.mqPut_regs (q : Nat) (m : BitVec 128) : (s.mqPut q m).regs = s.regs := (rfl)
@[simp] theorem State.mqPut_pending (q : Nat) (m : BitVec 128) : (s.mqPut q m).pending = s.pending := (rfl)
@[simp] theorem State.mqPut_us (q : Nat) (m : BitVec 128) : (s.mqPut q m).us = s.us := (rfl)
@[simp] theorem State.mqPut_eng (q : Nat) (m : BitVec 128) : (s.mqPut q m).eng = s.eng := (rfl)
@[simp] theorem State.mqPut_ax (q : Nat) (m : BitVec 128) : (s.mqPut q m).ax = s.ax := (rfl)
@[simp] theorem State.mqPut_brk (q : Nat) (m : BitVec 128) : (s.mqPut q m).brk = s.brk := (rfl)
@[simp] theorem State.mqPut_ddr (q : Nat) (m : BitVec 128) : (s.mqPut q m).ddr = s.ddr := (rfl)
@[simp] theorem State.mqPut_events (q : Nat) (m : BitVec 128) : (s.mqPut q m).events = s.events := (rfl)
@[simp] theorem State.mqPut_evSeq (q : Nat) (m : BitVec 128) : (s.mqPut q m).evSeq = s.evSeq := (rfl)
@[simp] theorem State.mqPut_encOffs (q : Nat) (m : BitVec 128) : (s.mqPut q m).encOffs = s.encOffs := (rfl)
@[simp] theorem State.mqPut_fresh (q : Nat) (m : BitVec 128) : (s.mqPut q m).fresh = s.fresh := (rfl)
@[simp] theorem State.mqPut_notes (q : Nat) (m : BitVec 128) : (s.mqPut q m).notes = s.notes := (rfl)
@[simp] theorem State.mqPut_ladderMsgs (q : Nat) (m : BitVec 128) : (s.mqPut q m).ladderMsgs = s.ladderMsgs := (rfl)
@[simp] theorem State.mqPut_jrn (q : Nat) (m : BitVec 128) : (s.mqPut q m).jrn = s.jrn := (rfl)
@[simp] theorem State.mqPut_arm (q : Nat) (m : BitVec 128) : (s.mqPut q m).arm = s.arm := (rfl)
@[simp] theorem State.mqPut_cqi (q : Nat) (m : BitVec 128) : (s.mqPut q m).cqi = s.cqi := (rfl)
@[simp] theorem State.mqPut_mem (q : Nat) (m : BitVec 128) : (s.mqPut q m).mem = s.mem := (rfl)
@[simp] theorem State.mqPut_sec (q : Nat) (m : BitVec 128) : (s.mqPut q m).sec = s.sec := (rfl)
@[simp] theorem State.mqPut_pw (q : Nat) (m : BitVec 128) : (s.mqPut q m).pw = s.pw := (rfl)
@[simp] theorem State.mqPut_out (q : Nat) (m : BitVec 128) : (s.mqPut q m).out = s.out := (rfl)
@[simp] theorem State.mqPut_rd (q : Nat) (m : BitVec 128) (r' : Reg) : (s.mqPut q m).rd r' = s.rd r' := (rfl)
@[simp] theorem State.mqPut_get (q : Nat) (m : BitVec 128) (g : Fld) : (s.mqPut q m).get g = s.get g := (rfl)
@[simp] theorem State.mqPut_isSet (q : Nat) (m : BitVec 128) (g : Fld) : (s.mqPut q m).isSet g = s.isSet g := (rfl)

@[simp] theorem State.dramSet_regs (i : Nat) (b : Block) : (s.dramSet i b).regs = s.regs := (rfl)
@[simp] theorem State.dramSet_pending (i : Nat) (b : Block) : (s.dramSet i b).pending = s.pending := (rfl)
@[simp] theorem State.dramSet_us (i : Nat) (b : Block) : (s.dramSet i b).us = s.us := (rfl)
@[simp] theorem State.dramSet_eng (i : Nat) (b : Block) : (s.dramSet i b).eng = s.eng := (rfl)
@[simp] theorem State.dramSet_ax (i : Nat) (b : Block) : (s.dramSet i b).ax = s.ax := (rfl)
@[simp] theorem State.dramSet_brk (i : Nat) (b : Block) : (s.dramSet i b).brk = s.brk := (rfl)
@[simp] theorem State.dramSet_mq (i : Nat) (b : Block) : (s.dramSet i b).mq = s.mq := (rfl)
@[simp] theorem State.dramSet_events (i : Nat) (b : Block) : (s.dramSet i b).events = s.events := (rfl)
@[simp] theorem State.dramSet_evSeq (i : Nat) (b : Block) : (s.dramSet i b).evSeq = s.evSeq := (rfl)
@[simp] theorem State.dramSet_encOffs (i : Nat) (b : Block) : (s.dramSet i b).encOffs = s.encOffs := (rfl)
@[simp] theorem State.dramSet_fresh (i : Nat) (b : Block) : (s.dramSet i b).fresh = s.fresh := (rfl)
@[simp] theorem State.dramSet_notes (i : Nat) (b : Block) : (s.dramSet i b).notes = s.notes := (rfl)
@[simp] theorem State.dramSet_ladderMsgs (i : Nat) (b : Block) : (s.dramSet i b).ladderMsgs = s.ladderMsgs := (rfl)
@[simp] theorem State.dramSet_jrn (i : Nat) (b : Block) : (s.dramSet i b).jrn = s.jrn := (rfl)
@[simp] theorem State.dramSet_arm (i : Nat) (b : Block) : (s.dramSet i b).arm = s.arm := (rfl)
@[simp] theorem State.dramSet_cqi (i : Nat) (b : Block) : (s.dramSet i b).cqi = s.cqi := (rfl)
@[simp] theorem State.dramSet_mem (i : Nat) (b : Block) : (s.dramSet i b).mem = s.mem := (rfl)
@[simp] theorem State.dramSet_sec (i : Nat) (b : Block) : (s.dramSet i b).sec = s.sec := (rfl)
@[simp] theorem State.dramSet_pw (i : Nat) (b : Block) : (s.dramSet i b).pw = s.pw := (rfl)
@[simp] theorem State.dramSet_out (i : Nat) (b : Block) : (s.dramSet i b).out = s.out := (rfl)
@[simp] theorem State.dramSet_rd (i : Nat) (b : Block) (r' : Reg) : (s.dramSet i b).rd r' = s.rd r' := (rfl)
@[simp] theorem State.dramSet_get (i : Nat) (b : Block) (g : Fld) : (s.dramSet i b).get g = s.get g := (rfl)
@[simp] theorem State.dramSet_isSet (i : Nat) (b : Block) (g : Fld) : (s.dramSet i b).isSet g = s.isSet g := (rfl)

@[simp] theorem State.modJrn_regs (f : JrnInt → JrnInt) : (s.modJrn f).regs = s.regs := (rfl)
@[simp] theorem State.modJrn_pending (f : JrnInt → JrnInt) : (s.modJrn f).pending = s.pending := (rfl)
@[simp] theorem State.modJrn_us (f : JrnInt → JrnInt) : (s.modJrn f).us = s.us := (rfl)
@[simp] theorem State.modJrn_eng (f : JrnInt → JrnInt) : (s.modJrn f).eng = s.eng := (rfl)
@[simp] theorem State.modJrn_ax (f : JrnInt → JrnInt) : (s.modJrn f).ax = s.ax := (rfl)
@[simp] theorem State.modJrn_brk (f : JrnInt → JrnInt) : (s.modJrn f).brk = s.brk := (rfl)
@[simp] theorem State.modJrn_mq (f : JrnInt → JrnInt) : (s.modJrn f).mq = s.mq := (rfl)
@[simp] theorem State.modJrn_ddr (f : JrnInt → JrnInt) : (s.modJrn f).ddr = s.ddr := (rfl)
@[simp] theorem State.modJrn_events (f : JrnInt → JrnInt) : (s.modJrn f).events = s.events := (rfl)
@[simp] theorem State.modJrn_evSeq (f : JrnInt → JrnInt) : (s.modJrn f).evSeq = s.evSeq := (rfl)
@[simp] theorem State.modJrn_encOffs (f : JrnInt → JrnInt) : (s.modJrn f).encOffs = s.encOffs := (rfl)
@[simp] theorem State.modJrn_fresh (f : JrnInt → JrnInt) : (s.modJrn f).fresh = s.fresh := (rfl)
@[simp] theorem State.modJrn_notes (f : JrnInt → JrnInt) : (s.modJrn f).notes = s.notes := (rfl)
@[simp] theorem State.modJrn_ladderMsgs (f : JrnInt → JrnInt) : (s.modJrn f).ladderMsgs = s.ladderMsgs := (rfl)
@[simp] theorem State.modJrn_jrn (f : JrnInt → JrnInt) : (s.modJrn f).jrn = f s.jrn := (rfl)
@[simp] theorem State.modJrn_arm (f : JrnInt → JrnInt) : (s.modJrn f).arm = s.arm := (rfl)
@[simp] theorem State.modJrn_cqi (f : JrnInt → JrnInt) : (s.modJrn f).cqi = s.cqi := (rfl)
@[simp] theorem State.modJrn_mem (f : JrnInt → JrnInt) : (s.modJrn f).mem = s.mem := (rfl)
@[simp] theorem State.modJrn_sec (f : JrnInt → JrnInt) : (s.modJrn f).sec = s.sec := (rfl)
@[simp] theorem State.modJrn_pw (f : JrnInt → JrnInt) : (s.modJrn f).pw = s.pw := (rfl)
@[simp] theorem State.modJrn_out (f : JrnInt → JrnInt) : (s.modJrn f).out = s.out := (rfl)
@[simp] theorem State.modJrn_rd (f : JrnInt → JrnInt) (r' : Reg) : (s.modJrn f).rd r' = s.rd r' := (rfl)
@[simp] theorem State.modJrn_get (f : JrnInt → JrnInt) (g : Fld) : (s.modJrn f).get g = s.get g := (rfl)
@[simp] theorem State.modJrn_isSet (f : JrnInt → JrnInt) (g : Fld) : (s.modJrn f).isSet g = s.isSet g := (rfl)

@[simp] theorem State.modArm_regs (f : ArmInt → ArmInt) : (s.modArm f).regs = s.regs := (rfl)
@[simp] theorem State.modArm_pending (f : ArmInt → ArmInt) : (s.modArm f).pending = s.pending := (rfl)
@[simp] theorem State.modArm_us (f : ArmInt → ArmInt) : (s.modArm f).us = s.us := (rfl)
@[simp] theorem State.modArm_eng (f : ArmInt → ArmInt) : (s.modArm f).eng = s.eng := (rfl)
@[simp] theorem State.modArm_ax (f : ArmInt → ArmInt) : (s.modArm f).ax = s.ax := (rfl)
@[simp] theorem State.modArm_brk (f : ArmInt → ArmInt) : (s.modArm f).brk = s.brk := (rfl)
@[simp] theorem State.modArm_mq (f : ArmInt → ArmInt) : (s.modArm f).mq = s.mq := (rfl)
@[simp] theorem State.modArm_ddr (f : ArmInt → ArmInt) : (s.modArm f).ddr = s.ddr := (rfl)
@[simp] theorem State.modArm_events (f : ArmInt → ArmInt) : (s.modArm f).events = s.events := (rfl)
@[simp] theorem State.modArm_evSeq (f : ArmInt → ArmInt) : (s.modArm f).evSeq = s.evSeq := (rfl)
@[simp] theorem State.modArm_encOffs (f : ArmInt → ArmInt) : (s.modArm f).encOffs = s.encOffs := (rfl)
@[simp] theorem State.modArm_fresh (f : ArmInt → ArmInt) : (s.modArm f).fresh = s.fresh := (rfl)
@[simp] theorem State.modArm_notes (f : ArmInt → ArmInt) : (s.modArm f).notes = s.notes := (rfl)
@[simp] theorem State.modArm_ladderMsgs (f : ArmInt → ArmInt) : (s.modArm f).ladderMsgs = s.ladderMsgs := (rfl)
@[simp] theorem State.modArm_jrn (f : ArmInt → ArmInt) : (s.modArm f).jrn = s.jrn := (rfl)
@[simp] theorem State.modArm_arm (f : ArmInt → ArmInt) : (s.modArm f).arm = f s.arm := (rfl)
@[simp] theorem State.modArm_cqi (f : ArmInt → ArmInt) : (s.modArm f).cqi = s.cqi := (rfl)
@[simp] theorem State.modArm_mem (f : ArmInt → ArmInt) : (s.modArm f).mem = s.mem := (rfl)
@[simp] theorem State.modArm_sec (f : ArmInt → ArmInt) : (s.modArm f).sec = s.sec := (rfl)
@[simp] theorem State.modArm_pw (f : ArmInt → ArmInt) : (s.modArm f).pw = s.pw := (rfl)
@[simp] theorem State.modArm_out (f : ArmInt → ArmInt) : (s.modArm f).out = s.out := (rfl)
@[simp] theorem State.modArm_rd (f : ArmInt → ArmInt) (r' : Reg) : (s.modArm f).rd r' = s.rd r' := (rfl)
@[simp] theorem State.modArm_get (f : ArmInt → ArmInt) (g : Fld) : (s.modArm f).get g = s.get g := (rfl)
@[simp] theorem State.modArm_isSet (f : ArmInt → ArmInt) (g : Fld) : (s.modArm f).isSet g = s.isSet g := (rfl)

/-! ### An event bit that is set, with its interrupt -/

theorem State.raise_eq (f : Fld) : s.raise f = s.put f 1 ∨ s.raise f = (s.put f 1).emit (.irq f) := by
  unfold State.raise; dsimp only; split <;> simp
@[simp] theorem State.raise_pending (f : Fld) : (s.raise f).pending = s.pending := by obtain h | h := s.raise_eq f <;> rw [h] <;> rfl
@[simp] theorem State.raise_us (f : Fld) : (s.raise f).us = s.us := by obtain h | h := s.raise_eq f <;> rw [h] <;> rfl
@[simp] theorem State.raise_eng (f : Fld) : (s.raise f).eng = s.eng := by obtain h | h := s.raise_eq f <;> rw [h] <;> rfl
@[simp] theorem State.raise_ax (f : Fld) : (s.raise f).ax = s.ax := by obtain h | h := s.raise_eq f <;> rw [h] <;> rfl
@[simp] theorem State.raise_brk (f : Fld) : (s.raise f).brk = s.brk := by obtain h | h := s.raise_eq f <;> rw [h] <;> rfl
@[simp] theorem State.raise_mq (f : Fld) : (s.raise f).mq = s.mq := by obtain h | h := s.raise_eq f <;> rw [h] <;> rfl
@[simp] theorem State.raise_ddr (f : Fld) : (s.raise f).ddr = s.ddr := by obtain h | h := s.raise_eq f <;> rw [h] <;> rfl
@[simp] theorem State.raise_events (f : Fld) : (s.raise f).events = s.events := by obtain h | h := s.raise_eq f <;> rw [h] <;> rfl
@[simp] theorem State.raise_evSeq (f : Fld) : (s.raise f).evSeq = s.evSeq := by obtain h | h := s.raise_eq f <;> rw [h] <;> rfl
@[simp] theorem State.raise_encOffs (f : Fld) : (s.raise f).encOffs = s.encOffs := by obtain h | h := s.raise_eq f <;> rw [h] <;> rfl
@[simp] theorem State.raise_fresh (f : Fld) : (s.raise f).fresh = s.fresh := by obtain h | h := s.raise_eq f <;> rw [h] <;> rfl
@[simp] theorem State.raise_notes (f : Fld) : (s.raise f).notes = s.notes := by obtain h | h := s.raise_eq f <;> rw [h] <;> rfl
@[simp] theorem State.raise_ladderMsgs (f : Fld) : (s.raise f).ladderMsgs = s.ladderMsgs := by obtain h | h := s.raise_eq f <;> rw [h] <;> rfl
@[simp] theorem State.raise_jrn (f : Fld) : (s.raise f).jrn = s.jrn := by obtain h | h := s.raise_eq f <;> rw [h] <;> rfl
@[simp] theorem State.raise_arm (f : Fld) : (s.raise f).arm = s.arm := by obtain h | h := s.raise_eq f <;> rw [h] <;> rfl
@[simp] theorem State.raise_cqi (f : Fld) : (s.raise f).cqi = s.cqi := by obtain h | h := s.raise_eq f <;> rw [h] <;> rfl
@[simp] theorem State.raise_mem (f : Fld) : (s.raise f).mem = s.mem := by obtain h | h := s.raise_eq f <;> rw [h] <;> rfl
@[simp] theorem State.raise_sec (f : Fld) : (s.raise f).sec = s.sec := by obtain h | h := s.raise_eq f <;> rw [h] <;> rfl
@[simp] theorem State.raise_pw (f : Fld) : (s.raise f).pw = s.pw := by obtain h | h := s.raise_eq f <;> rw [h] <;> rfl
@[simp] theorem State.raise_regs (f : Fld) : (s.raise f).regs = (s.put f 1).regs := by obtain h | h := s.raise_eq f <;> rw [h] <;> rfl
@[simp] theorem State.raise_rd (f : Fld) (r : Reg) : (s.raise f).rd r = (s.put f 1).rd r := by obtain h | h := s.raise_eq f <;> rw [h] <;> rfl
@[simp] theorem State.raise_get (f g : Fld) : (s.raise f).get g = (s.put f 1).get g := by obtain h | h := s.raise_eq f <;> rw [h] <;> rfl
@[simp] theorem State.raise_isSet (f g : Fld) : (s.raise f).isSet g = (s.put f 1).isSet g := by obtain h | h := s.raise_eq f <;> rw [h] <;> rfl

end Sys2Proof.Machine
end

