-- ==== Sys2Proof/Laws/Tick.lean ====
section
/-! SUPPORT. One lemma per operation of Machine/Tick.lean: the parts of the state it can touch and what it needs of the engines (`Evolves`). -/

namespace Sys2Proof.Machine

variable {M : Nat} {P : Nat → Prop} {a s : State}

theorem rtcShow_ev (hm : Sub 0x200000 M) (h : Evolves M P a s) :
    Evolves M P a (rtcShow s) := by
  unfold rtcShow
  extract_lets +onlyGivenNames y1
  have h2 : Evolves M P a y1 := by
    unfold y1
    refine Evolves.putG .power rfl (hm.bit rfl) rfl ?_
    exact h
  clear_value y1
  extract_lets +onlyGivenNames y3
  have h4 : Evolves M P a y3 := by
    unfold y3
    refine Evolves.putG .power rfl (hm.bit rfl) rfl ?_
    exact h2
  clear_value y3
  refine Evolves.putG .power rfl (hm.bit rfl) rfl ?_
  exact h4

theorem rtcTick_ev (hm : Sub 0x200000000200000 M) (h : Evolves M P a s) :
    Evolves M P a (rtcTick s) := by
  unfold rtcTick
  extract_lets +onlyGivenNames y1
  refine Evolves.ite ?_ ?_
  · exact h
  · refine rtcShow_ev (hm.of rfl) ?_
    refine pwOf_ev _ (hm.of rfl) ?_
    exact h

theorem wdtTick_ev (hm : Sub 0x200000000000000 M) (h : Evolves M P a s) :
    Evolves M P a (wdtTick s) := by
  unfold wdtTick
  refine Evolves.ite ?_ ?_
  · refine pwOf_ev _ (hm.of rfl) ?_
    exact h
  · exact h

theorem timTick_ev (hm : Sub 0x100000 M) (h : Evolves M P a s) :
    Evolves M P a (timTick s) := by
  unfold timTick
  refine Evolves.ite ?_ ?_
  · exact h
  · refine Evolves.foldl _ (fun s1 x2 h3 => ?_) ?_
    · refine Evolves.ite ?_ ?_
      · exact h3
      · refine Evolves.wrG .ports (Reg.group_ports rfl (by dsimp only [spareRes]; omega) (by dsimp only [spareRes]; omega)) (hm.bit rfl) rfl ?_
        exact h3
    · exact h

theorem idleTick_ev (hm : Sub 0x6420c0030300080 M) (hall : ∀ n, P n) (h : Evolves M P a s) :
    Evolves M P a (idleTick s) := by
  unfold idleTick
  extract_lets +onlyGivenNames y1
  have h2 : Evolves M P a y1 := by
    unfold y1
    refine timTick_ev (hm.of rfl) ?_
    refine wdtTick_ev (hm.of rfl) ?_
    refine rtcTick_ev (hm.of rfl) ?_
    exact h
  clear_value y1
  refine mechAll_ev (hm.of rfl) hall ?_
  refine resetEnd_ev (hm.of rfl) ?_
  refine Evolves.withTime (hm.bit rfl) ?_
  exact h2

end Sys2Proof.Machine
end

