-- ==== Sys2Proof/Machine/Layout.lean ====
section
/-! DEFINITION. The bytes of what lies in MRAM, NAND and the header areas: little-endian fields, checks and tags (R8, R244,
R281, R282, R313-R318, R333, R337). -/
namespace Sys2Proof.Machine

/-- Bytes filled up with zeros to a length. -/
def padTo (n : Nat) (bs : List Byte) : List Byte := bs ++ List.replicate (n - bs.length) 0#8

/-- Bytes with their CRC-32C behind them. -/
def withCrc (bs : List Byte) : List Byte := bs ++ leBytes 4 (crc32c bs).toNat

/-- Bytes 0-11 of a map page's header (R244). -/
def pageHead (m : MapImg) (p : Nat) : List Byte :=
  leBytes 2 (m.page p).typ ++ leBytes 2 0 ++ leBytes 4 p ++ leBytes 4 (m.page p).gen

/-- Bytes 16-4,095 of a map page: its records, which never straddle pages (R244). -/
def pageBody (m : MapImg) (p : Nat) : List Byte :=
  let z := slotSize (m.page p).typ
  padTo 4080 ((List.range (4080 / z)).flatMap fun i => leBytes z (m.slot (256 * p + i)).toNat)

/-- A map page; the CRC leaves its own place out (R244). -/
def pageBytes (m : MapImg) (p : Nat) : List Byte :=
  pageHead m p ++ leBytes 4 (crc32c (pageHead m p ++ pageBody m p)).toNat ++ pageBody m p

/-- A superblock slot of mirror A (false) or B (true) (R314). -/
def Super.bytes (b : Bool) (x : Super) : List Byte :=
  withCrc (padTo 2044 (leBytes 4 0x51424C4B ++ leBytes 2 1 ++ leBytes 1 b.toNat ++ leBytes 1 x.plActive.toNat ++ leBytes 4 x.useq
    ++ leBytes 4 x.cap ++ leBytes 4 (x.cap * 2 ^ 20 - 65536) ++ leBytes 8 x.headSeq ++ leBytes 4 x.headOfs ++ leBytes 4 x.plGen
    ++ leBytes 8 x.jid))

/-- The entries of a Plinth copy, each filled up to a multiple of 4 bytes (R333). -/
def plEntBytes (ents : List (Nat × List Byte)) : List Byte :=
  ents.flatMap fun x => leBytes 2 x.1 ++ leBytes 2 x.2.length ++ padTo ((x.2.length + 3) / 4 * 4) x.2

/-- A Plinth copy (R333). -/
def PlCopy.bytes (c : PlCopy) : List Byte :=
  let es := plEntBytes c.ents
  withCrc (padTo 16380 (leBytes 4 0x504C4E54 ++ leBytes 4 c.gen ++ leBytes 2 1 ++ leBytes 2 c.ents.length ++ leBytes 4 es.length ++ es))

/-- TYPE of a record (R317). -/
def JBody.typ : JBody → Nat
  | .data .. => 1 | .map .. => 2 | .dirty _ => 3 | .retire _ => 4 | .checkpoint .. => 5 | .loss .. => 6
  | .mapckpt .. => 7 | .quench .. => 8 | .boot .. => 9 | .pad _ => 10

/-- A0 of a record (R317). -/
def JBody.a0 : JBody → Nat
  | .data v _ bs => v + bs.length * 2 ^ 16
  | .map _ es => es.length
  | .dirty es => es.length
  | .retire ss => ss.length
  | .loss _ es => es.length
  | .boot c .. => c
  | .checkpoint .. | .mapckpt .. | .quench .. | .pad _ => 0

/-- A1 of a record (R317). -/
def JBody.a1 : JBody → Nat
  | .data _ lba _ => lba
  | .map g _ => g
  | .loss r _ => if r then 2 else 1
  | .dirty _ | .retire _ | .checkpoint .. | .mapckpt .. | .quench .. | .boot .. | .pad _ => 0

/-- A map edit (R318). -/
def Edit.bytes (e : Edit) : List Byte :=
  leBytes 4 e.page ++ leBytes 2 e.off ++ leBytes 2 e.len ++ padTo ((e.len + 3) / 4 * 4) (leBytes e.len e.val)

/-- The payload of a record with its SEQ, which an added loss entry takes (R298, R317). -/
def JBody.payload (seq : Nat) : JBody → List Byte
  | .data _ _ bs => bs.flatMap blockBytes
  | .map _ es => es.flatMap Edit.bytes
  | .dirty es => es.flatMap fun x => leBytes 4 x.1 ++ leBytes 2 x.2.1 ++ leBytes 1 x.2.2.1 ++ leBytes 1 (if x.2.2.2 then 0 else 1)
  | .retire ss => ss.flatMap fun n => leBytes 8 n
  | .checkpoint run kind b => leBytes 4 run ++ leBytes 4 kind ++ leBytes 8 b
  | .loss r es => es.flatMap fun x => leBytes 32 (lossBits (if r then x else { x with seq := seq })).toNat
  | .mapckpt g c => leBytes 8 g ++ leBytes 8 c
  | .quench t n => leBytes 8 t ++ leBytes 4 n ++ leBytes 4 0
  | .boot _ t g => leBytes 8 t ++ leBytes 4 g ++ leBytes 4 0
  | .pad n => leBytes (n - 64) 0

/-- What a record's tag covers: header, payload and padding (R315, R316). -/
def JRec.covered (jid : Nat) (r : JRec) : List Byte :=
  padTo (r.size - 16) (leBytes 4 0x514A5243 ++ leBytes 1 r.body.typ ++ leBytes 1 r.fin.toNat ++ leBytes 2 0 ++ leBytes 8 r.seq
    ++ leBytes 4 r.body.len ++ leBytes 4 r.body.a0 ++ leBytes 8 r.body.a1 ++ leBytes 8 jid ++ leBytes 8 0 ++ r.body.payload r.seq)

/-- A record of the ring with its tag under the map record key (R315, R316). -/
def JRec.bytes (key : BitVec 256) (jid : Nat) (r : JRec) : List Byte :=
  let p := r.covered jid
  p ++ leBytes 16 (gcmTag key (0xFFFFFFFF#32 ++ BitVec.ofNat 64 r.seq) p).toNat

/-- A header record (R282). -/
def HdrRec.bytes (r : HdrRec) : List Byte :=
  leBytes 2 r.typ ++ leBytes 1 r.vol ++ leBytes 1 0 ++ leBytes 8 r.seq ++ leBytes 4 r.group ++ leBytes 112 r.body.toNat

/-- Bytes 0-15 of a header cluster (R281). -/
def HdrCl.head (h : HdrCl) : List Byte :=
  leBytes 4 0x48435244 ++ leBytes 2 h.disc ++ leBytes 1 h.layer ++ leBytes 1 0 ++ leBytes 4 h.hseq ++ leBytes 2 h.recs.length ++ leBytes 2 0

/-- A header cluster (R281). -/
def HdrCl.bytes (key : BitVec 256) (h : HdrCl) : List Byte :=
  let body := padTo (65536 - 128) (h.recs.flatMap HdrRec.bytes)
  let iv := BitVec.ofNat 96 (h.disc + h.layer * 2 ^ 16 + h.hseq * 2 ^ 32)
  h.head ++ leBytes 16 (gcmTag key iv (h.head ++ body)).toNat ++ leBytes 96 0 ++ body

/-- The tag of an anchor, over the bytes that name CKPT_GEN, SEQ_C and the index (R337). -/
def anchorTag (key : BitVec 256) (gen : Nat) (ad : List Byte) : BitVec 128 :=
  gcmTag key (0xFFFFFFFE#32 ++ BitVec.ofNat 64 gen) ad

/-- Byte `i` of an optional store. -/
def byteAt (x : Option (List Byte)) (i : Nat) : Option Byte := x.bind fun bs => bs[i]?

/-- A byte of a mirror's MRAM (R313); none where nothing that stands determines it. -/
def mramByte (s : State) (b : Bool) (a : Nat) : Option Byte :=
  let m := s.jrn.mir[mirIx b]
  if a < 0x800 then byteAt (m.super[0].map (Super.bytes b)) a
  else if a < 0x1000 then byteAt (m.super[1].map (Super.bytes b)) (a - 0x800)
  else if a < 0x5000 then byteAt (m.pl[0].map PlCopy.bytes) (a - 0x1000)
  else if a < 0x9000 then byteAt (m.pl[1].map PlCopy.bytes) (a - 0x5000)
  else if a < 0x10000 then some 0#8
  else
    let o := a - 0x10000
    match s.jrn.recs.find? fun r => (if b then r.onB else r.onA) && decide (r.ofs ≤ o) && decide (o < r.ofs + r.size) with
    | some r => byteAt (s.sec.mapKey.map fun k => r.bytes k s.jrn.jid) (o - r.ofs)
    | none => none

end Sys2Proof.Machine
end

