-- ==== Sys2Proof/Machine/TestPins.lean ====
section
/-! DEFINITION. What the test pins and the test access port show: the levels of TMUX0-TMUX3, the code of TDAC, IDCODE and the
instruction codes of the TAP (R477-R479); how the output pins are held in reset and on engines that are not fitted (R469). -/
namespace Sys2Proof.Machine

/-- The level of a source of the test multiplexer; the one-cycle pulses, which last 40 ns, show as low (R477, log 108). -/
def tmuxSource (s : State) (src : Nat) (e : Eng) (k : Nat) : Bool :=
  match src with
  | 0x01 => true
  | 0x10 => s.isSet (SEAM_STAT.IN_WIN e)
  | 0x11 => s.isSet (SEAM_STAT.JUMPING e)
  | 0x12 => s.isSet (WR_STAT.GATE e)
  | 0x14 => s.isSet (ANV_STAT.SAT_TRIP e) || s.isSet (ANV_STAT.FAULT_TRIP e)
  | 0x17 => s.get (CH_STAT.FLY_STATE e (min 4 k)) == flyLocked
  | 0x1A => s.get (TMP_STAT.DELIV e) != 4
  | 0x20 => s.pw.pfail
  | _ => false

/-- The level of a TMUX pin (R475, R477). -/
def tmuxLevel (s : State) (i : Fin 4) : Bool :=
  let e : Eng := Fin.ofNat 8 (s.get (TMUX_SEL.ENG i.val))
  s.isSet (TMUX_SEL.INV i.val) != tmuxSource s (s.get (TMUX_SEL.SRC i.val)) e (s.get (TMUX_SEL.CH i.val))

/-- The newest of a chain's AGC outputs that its own path holds, as a byte (R478). -/
def agcByte (s : State) (e : Eng) (k : Chn) : Int :=
  match ownPath s e k with
  | none => 0
  | some j => clampInt (-128) 127 (rshRound (((s.eng[e].ch[k].dsp.inp[j].getLast?).map Smp.v).getD 0) 10)

/-- The newest of a chain's equaliser outputs, as a byte (R478). -/
def equByte (s : State) (e : Eng) (k : Chn) : Int :=
  (eqByte (((s.eng[e].ch[k].dsp.z.head?).map Smp.v).getD 0)).toInt

/-- A source value of TDAC as a 24-bit number, saturated; `idx` beyond the ports, inputs, chains or buses gives 0 (R478, log 108). -/
def tdacValue (s : State) (src : Nat) (e : Eng) (idx : Nat) : BitVec 24 :=
  let sat (x : Int) : BitVec 24 := BitVec.ofInt 24 (clampInt (-2 ^ 23) (2 ^ 23 - 1) x)
  let byte (f : State → Eng → Chn → Int) : BitVec 24 := if h : idx < 5 then sat (f s e ⟨idx, h⟩ * 2 ^ 16) else 0#24
  match src with
  | 1 => if idx < 8 then BitVec.ofNat 24 (s.get (ANV_PORT.VALUE e idx)) else 0#24
  | 2 => BitVec.ofNat 24 (s.get (ANV_IN.VALUE e idx))
  | 3 => byte agcByte
  | 4 => byte equByte
  | 5 => sat (divFree (s.eng[e].spn.iq * 2 ^ 23) (s.get (SPN_LIM.IMAX e)))
  | 6 => sat (divFree (s.getInt (SPN_SPEED.OBS e) * 2 ^ 23) 16384)
  | 7 => if idx < 2 then sat (divFree (s.get (BRK_STAT.VBUS idx) * 2 ^ 23) (s.get (BRK_SCALE.VSCALE idx))) else 0#24
  | _ => 0#24

/-- The code TDAC drives, 0.2 V + CODE x 1.4 V / 1,024: TDAC_VAL.CODE directly, or bits [23:14] of v XOR 0x80_0000 (R478). -/
def tdacCode (s : State) : Nat :=
  if s.get TDAC_SEL.SRC = 0 then s.get TDAC_VAL.CODE
  else bits (tdacValue s (s.get TDAC_SEL.SRC) (Fin.ofNat 8 (s.get TDAC_SEL.ENG)) (s.get TDAC_SEL.IDX) ^^^ 0x800000#24) 14 10

/-- The instructions of the test access port (R479). -/
inductive TapInstr | extest | idcode | sample | highz | clamp | mailbox | fuseProg | coreDbg | bypass
deriving DecidableEq, Repr

/-- The instruction a code selects; CORE_DBG is BYPASS below debug level 2 (R444, R479). -/
def tapInstr (s : State) (code : BitVec 8) : TapInstr :=
  match code.toNat with
  | 0x00 => .extest
  | 0x01 => .idcode
  | 0x02 => .sample
  | 0x03 => .highz
  | 0x04 => .clamp
  | 0x10 => .mailbox
  | 0x11 => .fuseProg
  | 0x12 => if s.get GLB_SEC_STAT.DBG_LEVEL = 2 then .coreDbg else .bypass
  | _ => .bypass

/-- The instruction after a TAP reset, and what IDCODE shifts out (R479). -/
def tapAfterReset : TapInstr := .idcode
def idcode : Word := 0x1C832B4F#32

/-! ### Pins outside normal operation (R469) -/

/-- The outputs R469 tells apart: gates and EN of a spindle or sled driver, STEP of an axis, a chopper gate, the lanes of a head link, the
rest. -/
inductive OutPin | spm (e : Eng) | sld (e : Eng) | step (a : Fin 4) | brkGate (b : Fin 2) | lanes (e : Eng) | other
deriving DecidableEq, Repr

/-- How an output is held: low, high-impedance with its pull-down, powered down, or driven by its block. -/
inductive PadHold | low | pullDown | off | driven
deriving DecidableEq, Repr

/-- Before POR release gate outputs and STEP are low and every other output floats; an engine that is not fitted keeps its drivers low
and its lanes off (R440, R469). -/
def padHold (s : State) (p : OutPin) : PadHold :=
  match p, s.pw.life == .reset with
  | .spm _, true | .sld _, true | .step _, true | .brkGate _, true => .low
  | .lanes _, true | .other, true => .pullDown
  | .spm e, false | .sld e, false => if engFitted s e then .driven else .low
  | .lanes e, false => if engFitted s e then .driven else .off
  | .step _, false | .brkGate _, false | .other, false => .driven

/-- The interlock input of an engine reads closed; that of an engine that is not fitted reads open (R140, R469). -/
def ilkClosed (s : State) (e : Eng) : Bool := engFitted s e && !s.isSet (WR_STAT.ILK_OPEN e)

end Sys2Proof.Machine
end

