-- ==== Sys2Proof/WellFormed.lean ====
section
/-! DEFINITION. What the spec says of a command's operands beyond their types: sizes of codewords, frames and runs, tiers and
counts. What stands outside sends well-formed commands; the step itself takes any. -/
namespace Sys2Proof

/-- The symbols in error of a codeword of `n` symbols: each named once (R90, R91). -/
def errorsWf (n : Nat) (w : List Nat) : Bool := (w.all fun i => decide (i < n)) && w.eraseDups.length == w.length

/-- A decoded cluster: 24 BIS words RS(62,30) and 304 LDC words RS(248,216) (Demodulation and decoding). -/
def Decoded.wf (d : Decoded) : Bool :=
  d.bis.length == 24 && d.bis.all (errorsWf 62) && d.ldc.length == 304 && d.ldc.all (errorsWf 248)

/-- A tier of R21; C3 lies in tier 3 (R424). -/
def ArbReq.wf (r : ArbReq) : Bool := decide (1 ≤ r.tier) && decide (r.tier ≤ 5) && (!r.c3 || r.tier == 3)

/-- Disc identifiers are 0 to 4,095 (R248); only written clusters with a code other than OK are named (R137). -/
def MediaEvents.wf (m : MediaEvents) : Bool :=
  (m.bad.all fun x => decide (x.1 < 4096)) && (m.fails.all fun x => decide (x.1 < 4096 ∧ x.2.2 ≠ 0))

/-- Classes 0 to 5 (R267). -/
def LoadCand.wf (c : LoadCand) : Bool := decide (c.cls ≤ 5)

/-- A disc has one to four layers (R248). -/
def Found.wf : Found → Bool
  | .empty | .unsupported | .unfocusable => true
  | .disc _ layers _ _ _ _ => decide (1 ≤ layers) && decide (layers ≤ 4)

/-- What a row's media work met. -/
def Instr.media : Instr → MediaEvents
  | .gatherTimeout _ m | .runInitZero _ m | .destage _ _ _ _ m | .resync m | .clusterRepair m | .rebuildBatchDone _ _ m
  | .reshapeUnitCopy _ m | .scrub _ m | .volSeal _ m | .read _ _ m | .write _ _ _ m | .verify _ _ m | .flush _ _ m => m
  | _ => {}

/-- The operands are what the spec allows them to be. -/
def Instr.wf (i : Instr) : Bool :=
  i.media.wf && match i with
  | .arbiterContest reqs => reqs.toList.all fun r => r.all ArbReq.wf
  | .laneFrameReceived _ _ _ p _ _ | .trainingFrameReceived _ _ _ p _ _ => p.length == 15
  | .servoSetReceived _ bs _ => decide (bs.length ≤ 4)
  | .clusterDecoded _ _ d | .replayPassDone _ d | .stitchDecoded _ d => d.wf
  | .chooseLoad _ cur cands => cur.wf && cands.all LoadCand.wf
  | .mediaLoad _ found => found.wf
  | .slotFetchDone _ slots _ _ _ => !slots.isEmpty
  | .write _ _ data _ => !data.isEmpty
  | _ => true

end Sys2Proof
end

