-- ==== Sys2Proof/Tests/Slice0.lean ====
section
/-! SUPPORT. The model's own tests: for every statement a state and operands that meet its hypotheses (`witness_…`, one clause
for each of the statement's cases), ill-formed operands that the checks refuse (`illformed_…`), and the spec's worked
examples with a few steps (`test_…`). -/
-- One theorem after the other: each of these waits for the kernel, and together they would take a thread each.
set_option Elab.async false
open Sys2Proof Sys2Proof.Machine
namespace Sys2Proof.Tests

/-! ### States that meet the hypotheses of the statements -/

/-- The state after reset with some register fields changed. -/
def st (l : List (Fld × Nat)) : State := l.foldl (fun s x => s.put x.1 x.2) .reset

/-- A map record from its parts. -/
def mrec (l : List (MF × Nat)) : MRec := l.foldl (fun r x => r.put x.1 x.2) 0#512

/-- The map with a page of runs at 71 and one of extents at 72, and the records given (by key, rising). -/
def mapSt (recs : List (Nat × MRec)) (s : State := State.reset) (f : ArmInt → ArmInt := id) : State :=
  { s with arm := f { s.arm with map := { s.arm.map with pages := [(71, { typ := pgRun, gen := 0 }), (72, { typ := pgExt, gen := 0 })], recs := recs } } }

/-- An available disc `d` of medium `m` with free space, at home in engine `e`. -/
def disc (d m e : Nat) : MRec :=
  mrec [(Dsc.DISC, d), (Dsc.MEDIUM, m), (Dsc.LAYERS, 1), (Dsc.HOME, e), (Dsc.MAG, d), (Dsc.STATE, 1), (Dsc.FREE, 100000), (Dsc.NEXT 0, 4096)]

/-- A journal of 16 MiB on two usable mirrors. -/
def jrnSt (f : JrnInt → JrnInt := id) (l : List (Fld × Nat) := []) : State :=
  let s := st ([(GLB_JNL_STAT.MRAM_A, 1), (GLB_JNL_STAT.MRAM_B, 1)] ++ l)
  { s with jrn := f { s.jrn with cap := 16, bcrCap := 16, jid := 1 } }

/-- Engine 7's Anvil program runs, with some register fields and internal values changed. -/
def anvSt (l : List (Fld × Nat)) (f : AnvInt → AnvInt := id) : State :=
  (st ((ANV_STAT.RUNNING 7, 1) :: l)).modAnv 7 fun a => f { a with waiting := false }

/-- A complete servo set. -/
def servoSet : List (LinkBlock × Bool) := [(0, false), (1, false), (2, false), (3, false)]

theorem witness_AnvilAccumulators : anvGoes (anvSt []) 7 := by unfold anvGoes; decide

theorem witness_AnvilStores :
    (anvGoes (anvSt [] fun a => { a with sat := 0x80#8 }) 7 ∧ opAddr (anvSt []) 7 0x7FF#12 = some 2047 ∧
      (anvSt [] fun a => { a with sat := 0x80#8 }).eng[(7 : Eng)].anv.sat.getLsbD 7 = true) ∧
    (anvGoes (anvSt []) 7 ∧ opAddr (anvSt []) 7 0#12 = some 0 ∧ (anvSt []).eng[(7 : Eng)].anv.sat.getLsbD 7 = false) ∧
    (let s := anvSt [(ANV_STAT.SAT_TRIP 7, 1), (ANV_SUP.HOLD_MASK 7, 0x80)];
      anvGoes s 7 ∧ portHeld s 7 7 = true) ∧ portHeld (anvSt []) 7 7 = false := by unfold anvGoes; decide

theorem witness_AnvilIndexesAndExponents :
    (opAddr (anvSt []) 7 (0x700#12) = some 0x700 ∧ 0x700 % 128 + rscCount 0 ≤ 128 ∧ 0x700 / 128 < 15 ∧
      -16 ≤ anvX (anvSt [(ANV_X.X 7 14, 8)]) 7 14 + (7#4).toInt ∧ anvX (anvSt [(ANV_X.X 7 14, 8)]) 7 14 + (7#4).toInt ≤ 15) ∧
    (let s := anvSt [(ANV_X.X 7 14, 9)];
      ¬ (-16 ≤ anvX s 7 14 + (7#4).toInt ∧ anvX s 7 14 + (7#4).toInt ≤ 15)) ∧
    (let s := anvSt [(ANV_X.X 7 14, 15)];
      anvGoes s 7 ∧ clampInt (-16) 15 (anvX s 7 14 + (1#5).toInt) ≠ anvX s 7 14 + (1#5).toInt) ∧
    (accMant (accOf (anvSt []) 7 3) (-16)).natAbs < 2 ^ 22 ∧
    (2 ^ 22 ≤ (accMant (accOf (anvSt [] fun a => { a with acc := a.acc.set 3 ⟨2 ^ 47 - 1, 15⟩ }) 7 3) 15).natAbs) := by
  unfold anvGoes; decide

theorem witness_AnvilFlowAndRepeats :
    (anvGoes (anvSt []) 7 ∧ (anvSt []).get (ANV_STAT.PC 7) ≠ 2047 ∧ (anvSt []).eng[(7 : Eng)].anv.due = 0 ∧
      anvIllegal (0x1C#6 ++ 0#26) = true) ∧
    (anvGoes (anvSt [(ANV_STAT.PC 7, 2047)]) 7 ∧ (anvSt [(ANV_STAT.PC 7, 2047)]).get (ANV_STAT.PC 7) = 2047) ∧
    (let s := anvSt [] fun a => { a with rpt := some 256 };
      s.isSet (ANV_STAT.RUNNING 7) = true ∧ s.eng[(7 : Eng)].anv.waiting = false ∧ s.eng[(7 : Eng)].anv.rpt = some 256 ∧
      noRptOp (bits (0x16#6 ++ 0#26) 26 6) = true ∧ noRptOp (bits (0x1A#6 ++ 0#26) 26 6) = true) := by
  unfold anvGoes; decide

theorem witness_AnvilTicksAndControl :
    (let s := st [(engPower 7, 2)];
      engRuns s 7 = true ∧ (s.isSet (ANV_STAT.RUNNING 7) = true → s.eng[(7 : Eng)].anv.waiting = true)) ∧
    (let s := st [(HL_STAT.STATE 7, hlUp), (engPower 7, 2)];
      engRuns s 7 = true ∧ linkUp s 7 = true ∧ setComplete servoSet = true ∧ (16 : Int).natAbs ≤ 16 ∧
      (s.isSet (ANV_STAT.RUNNING 7) = true → s.eng[(7 : Eng)].anv.waiting = true) ∧ setComplete [] = false) ∧
    (let s := anvSt [(engPower 7, 2)];
      engRuns s 7 = true ∧ s.isSet (ANV_STAT.RUNNING 7) = true ∧ s.eng[(7 : Eng)].anv.waiting = false ∧ s.eng[(7 : Eng)].anv.due = 0) ∧
    (let s := anvSt [(engPower 7, 3)] fun a => { a with due := 1 };
      engRuns s 7 = true ∧ s.isSet (ANV_STAT.RUNNING 7) = true ∧ s.eng[(7 : Eng)].anv.waiting = false ∧ s.eng[(7 : Eng)].anv.due ≠ 0) ∧
    (let s := anvSt [] fun a => { a with satCnt := a.satCnt.set 7 (2000 * 1728) };
      satLimit s 7 ≤ s.eng[(7 : Eng)].anv.satCnt[(7 : Fin 8)]) ∧
    (∀ q : Fin 8, State.reset.eng[(7 : Eng)].anv.satCnt[q] < satLimit State.reset 7) ∧ State.reset.notes = [] ∧
    (let s := st [(ANV_CTRL.BANK 7, 1), (ANV_STAT.SW_PEND 7, 1)];
      (true == s.isSet (ANV_STAT.BANK_ACT 7) || (s.isSet (ANV_STAT.SW_PEND 7) && true == s.isSet (ANV_CTRL.BANK 7))) = true) ∧
    (true == State.reset.isSet (ANV_STAT.BANK_ACT 7) ||
      (State.reset.isSet (ANV_STAT.SW_PEND 7) && true == State.reset.isSet (ANV_CTRL.BANK 7))) = false := by decide

theorem witness_AnvilFaultTrips :
    (let s := anvSt [(ANV_STAT.PC 7, 2046)];
      s.isSet (ANV_STAT.RUNNING 7) = true ∧ s.eng[(7 : Eng)].anv.waiting = false ∧ s.eng[(7 : Eng)].anv.rpt = none ∧
      s.get (ANV_STAT.PC 7) ≠ 2047 ∧ anvIllegal (0x3F#6 ++ 0#26) = true) ∧
    (anvGoes (anvSt []) 7 ∧ opIsPort 0xFFF#12 = true) ∧
    (let s := anvSt [] fun a => { a with rpt := some 1 };
      s.eng[(7 : Eng)].anv.rpt = some 1 ∧ noRptOp (bits (0x18#6 ++ 0#26) 26 6) = true) ∧
    (anvGoes (anvSt [(ANV_STAT.PC 7, 2047)]) 7 ∧ (anvSt [(ANV_STAT.PC 7, 2047)]).get (ANV_STAT.PC 7) = 2047) ∧
    (let s := anvSt [(engPower 7, 2)] fun a => { a with due := 1 };
      engRuns s 7 = true ∧ s.isSet (ANV_STAT.RUNNING 7) = true ∧ s.eng[(7 : Eng)].anv.waiting = false ∧ s.eng[(7 : Eng)].anv.due ≠ 0) := by
  unfold anvGoes; decide

theorem witness_AnvilPortClamp :
    (let s := anvSt [(ANV_CLAMP.HI 7 7, 0)];
      anvGoes s 7 ∧ portHeld s 7 7 = false ∧ s.getInt (ANV_CLAMP.LO 7 7) ≤ 0 ∧ 0 ≤ s.getInt (ANV_CLAMP.HI 7 7)) ∧
    (let s := anvSt [(ANV_CLAMP.LO 7 7, 1), (ANV_CLAMP.HI 7 7, 0x1FFF)];
      anvGoes s 7 ∧ portHeld s 7 7 = false ∧ 0 < s.getInt (ANV_CLAMP.LO 7 7)) ∧
    (let s := anvSt [(ANV_CLAMP.LO 7 7, 0x3FFE), (ANV_CLAMP.HI 7 7, 0x3FFF)];
      anvGoes s 7 ∧ portHeld s 7 7 = false ∧ s.getInt (ANV_CLAMP.LO 7 7) ≤ s.getInt (ANV_CLAMP.HI 7 7) ∧ s.getInt (ANV_CLAMP.HI 7 7) < 0) ∧
    (let s := anvSt [(ANV_CLAMP.LO 7 7, 1), (ANV_CLAMP.HI 7 7, 0)];
      anvGoes s 7 ∧ portHeld s 7 7 = false ∧ s.getInt (ANV_CLAMP.HI 7 7) < s.getInt (ANV_CLAMP.LO 7 7)) := by
  unfold anvGoes; decide

theorem witness_AnvilFrames : anvGoes (anvSt []) 7 ∧ (anvSt []).notes = [] ∧ opIsPort 0x7FF#12 = false ∧
    (anvSt []).get (ANV_STAT.PC 7) ≠ 2047 := by unfold anvGoes; decide

/-- Engine 7's loop program runs in loop state `n`, with some register fields changed. -/
def loopAt (n : Nat) (l : List (Fld × Nat) := []) (f : LoopInt → LoopInt := id) : State :=
  ((anvSt l).modAnv 7 fun a => { a with dm := [(0x7E5, BitVec.ofNat 24 n)] }).modLoop 7 f

/-- Focus search conditions of R203. -/
def searchRegs : List (Fld × Nat) :=
  [(HL_STAT.STATE 7, hlDegraded), (WR_CTRL.LASER_EN 7, 1), (SPN_STAT.STATE 7, spnRun), (SPN_SPD.TARGET 7, 2000), (SPN_SPEED.OBS 7, 1900)]

theorem witness_LoopCommands :
    (let s := loopAt 0 searchRegs;
      loopReady s 7 ∧ searchMay s 7 = true ∧ loopSt s 7 = 0) ∧
    (loopReady (loopAt 2) 7 ∧ loopSt (loopAt 2) 7 = 2) ∧ (loopReady (loopAt 7) 7 ∧ loopSt (loopAt 7) 7 = 7) ∧
    (loopReady (loopAt 3) 7 ∧ loopSt (loopAt 3) 7 = 3) ∧
    (let s := loopAt 6 searchRegs;
      loopReady s 7 ∧ searchMay s 7 = true ∧ loopSt s 7 ≠ 0 ∧ loopSt s 7 ≠ 2 ∧ loopSt s 7 ≠ 7 ∧ loopSt s 7 ≠ 3) ∧
    (let s := (loopAt 4).modAnv 7 fun a => { a with dm := [(0x7E0, 1), (0x7E5, 4)] };
      dmGet s 7 0x7E0 ≠ dmGet s 7 0x7E3 ∧ s.isSet (ANV_STAT.RUNNING 7) = true ∧ s.eng[(7 : Eng)].loop.fault = 0 ∧ loopSt s 7 = 4) ∧
    (loopSt (loopAt 1) 7 ≠ 0 ∧ loopSt (loopAt 1) 7 ≠ 6) := by unfold loopReady; decide

theorem witness_SeeksAndGearing :
    (let s := (loopAt 3 [(SLD_STAT.LOST 7, 0)]).modSld 7 fun d => { d with powered := true };
      loopReady s 7 ∧ loopSt s 7 = 3 ∧ s.isSet (SLD_STAT.LOST 7) = false ∧ s.eng[(7 : Eng)].loop.seekLost = false ∧
      s.eng[(7 : Eng)].sld.powered = true ∧ s.isSet (SLD_STAT.FAULT 7) = false ∧ s.isSet (SLD_STAT.HOMING 7) = false) ∧
    (State.reset.isSet (SLD_ENC.EN 7) = false ∧ State.reset.isSet (SLD_STAT.MOVING 7) = false ∧ sldRest State.reset 7 = true) ∧
    (let s := st [(SLG_CTRL.EN 7, 1), (SPN_STAT.ANG_VALID 7, 1)];
      s.isSet (SLG_CTRL.EN 7) = true ∧ s.isSet (SPN_STAT.ANG_VALID 7) = true) ∧
    (let s := st [(SLG_CTRL.EN 7, 1)];
      (s.isSet (SLG_CTRL.EN 7) && s.isSet (SPN_STAT.ANG_VALID 7)) = false) ∧
    (let s := st [(SLG_STAT.ENTRY 7, 14)];
      s.get (SLG_STAT.ENTRY 7) < 15) ∧
    (let s := st [(SLD_STAT.LOST 7, 1)];
      (false && s.isSet (SLD_STAT.LOST 7)) = false ∧ s.isSet (SLD_STAT.LOST 7) = true) := by unfold loopReady; decide

theorem witness_SledMotionAndPower :
    (let s := (st [(SLD_ENC.EN 7, 1), (SLD_STAT.MOVING 7, 1), (SLD_CTRL.PWR 7, 1)]).modSld 7 fun d => { d with powered := true };
      s.isSet (SLD_ENC.EN 7) = true ∧ 500 < (501 : Int).natAbs ∧ s.eng[(7 : Eng)].sld.powered = true ∧ s.isSet (SLD_STAT.HOMING 7) = false ∧
      s.eng[(7 : Eng)].sld.parking = false ∧ s.isSet (SLG_CTRL.EN 7) = false ∧ s.isSet (SLD_STAT.MOVING 7) = true ∧
      sldPos s 7 = s.getInt (SLD_TGT.VALUE 7) ∧ s.eng[(7 : Eng)].sld.vel = 0 ∧ s.eng[(7 : Eng)].sld.frac = 0 ∧ sldReject s 7 = false) ∧
    (let s := State.reset.modSld 7 fun d => { d with powered := true };
      s.eng[(7 : Eng)].sld.powered = true ∧ sldRest s 7 = true ∧ sldReject s 7 = true ∧ (sldRest s 7 && !s.isSet (SLG_CTRL.EN 7)) = true ∧
      s.isSet (SLD_STAT.FAULT 7) = false) ∧
    (let s := State.reset.modSld 7 fun d => { d with vel := 1 };
      (s.get (SLD_CFG.V_SAFE 7) * 100 * 50000 : Int) < (s.get (SLD_CFG.V_SAFE 7) * 100 * 50000 + 1 : Int) ∧
      (sldRest s 7 && !s.isSet (SLG_CTRL.EN 7)) = false ∧ s.eng[(7 : Eng)].sld.powered = false) ∧
    (let s := State.reset.modSld 7 fun d => { d with parking := true };
      s.eng[(7 : Eng)].sld.parking = true ∧ s.eng[(7 : Eng)].sld.vel = 0 ∧ s.get (SLD_STAT.IDX 7) % 256 = 0) ∧
    (st [(SLD_STAT.FAULT 7, 1)]).isSet (SLD_STAT.FAULT 7) = true ∧ (7 : Fin 12).val = (7 : Eng).val := by decide


/-- Engine 7 with some register fields and internal values changed. -/
def engSt (l : List (Fld × Nat)) (f : EngInt → EngInt := id) : State := (st l).modEng 7 f

/-- A training marker of lane 3: BTYPE 0x33, VER 1, the lanes 1 to 3, and TSTATE; as it comes over a line that has sent zeros. -/
def trainMarker (state : Nat) : LinkBlock :=
  (scrambleAll false 0#58 [BitVec.ofNat 64 (0x33 + 3 * 2 ^ 8 + state * 2 ^ 12 + 0xE * 2 ^ 14 + 2 ^ 18)]).2.headD 0#64

/-- Lanes 1 to 3 of engine 7 in block lock, with markers of the same frame; lane `u` later by `skew` blocks. -/
def lanesSt (phase : TPhase) (u : Fin 4) (skew : Nat) (l : List (Fld × Nat)) : State :=
  let lane (n : Nat) : RxLane := { lock := true, mark := some (0, n) }
  engSt ((HL_STAT.STATE 7, hlTraining) :: l) fun g => { g with hl := { g.hl with phase := phase, rx := #v[{}, lane 0, lane 0, lane 0].set u (lane skew) } }

theorem witness_HeadLinkTraining :
    (let s := st [(engPower 7, 2)];
      s.get (HL_STAT.STATE 7) = hlOff ∧ engRuns s 7 = true) ∧
    (let s := st [(HL_STAT.STATE 7, hlUp), (HL_CTRL.ENABLE 7, 1), (engPower 7, 3)];
      s.get (HL_STAT.STATE 7) ≠ hlOff ∧ linkUp s 7 = true ∧ s.isSet (HL_CTRL.ENABLE 7) = true ∧ engRuns s 7 = true) ∧
    (let s := lanesSt .locking 2 8 [];
      let d := scrambleAll true s.eng[(7 : Eng)].hl.rx[(3 : Spot)].scr [trainMarker 0];
      let m := d.2.headD 0#64;
      let rx := s.eng[(7 : Eng)].hl.rx.set 3 { hdrSteps s.eng[(7 : Eng)].hl.rx[(3 : Spot)] 0#16 with scr := d.1, mark := some (bits m 10 2, 0) };
      let want := bits m 14 4 &&& (0xF#4 &&& ~~~ BitVec.ofNat 4 (s.get (HL_CTRL.LANE_EXCL 7))).toNat;
      s.get (HL_STAT.STATE 7) = hlTraining ∧ bits m 0 8 = 0x33 ∧ bits m 8 2 = (3 : Spot).val ∧ bits m 18 4 = 1 ∧
      s.eng[(7 : Eng)].hl.phase = .locking ∧ 3 ≤ popcount 4 (bestLanes rx want) ∧ bestLanes rx want = want) ∧
    (let s := lanesSt .locking 2 9 [];
      let rx := s.eng[(7 : Eng)].hl.rx;
      popcount 4 (bestLanes rx 0xE) < 3) ∧
    (let s := lanesSt .aligned 3 0 [];
      s.get (HL_STAT.STATE 7) = hlTraining ∧ s.eng[(7 : Eng)].hl.phase = .aligned ∧
      bits ((scrambleAll true s.eng[(7 : Eng)].hl.rx[(3 : Spot)].scr [trainMarker 2]).2.headD 0#64) 12 2 = 2) ∧
    ((lanesSt .ready 3 0 []).get (HL_STAT.STATE 7) = hlTraining ∧ (lanesSt .ready 3 0 []).eng[(7 : Eng)].hl.phase = .ready ∧
      (lanesSt .locking 3 0 []).eng[(7 : Eng)].hl.phase ≠ .ready ∧ (lanesSt .locking 3 0 []).notes = []) ∧
    (let s := st [(HL_STAT.STATE 7, hlTraining), (HL_CFG.MAX_ATTEMPT 7, 0)];
      s.get (HL_STAT.STATE 7) = hlTraining ∧ s.get (HL_STAT.ATTEMPT 7) < max 1 (s.get (HL_CFG.MAX_ATTEMPT 7))) ∧
    (let s := st [(HL_STAT.STATE 7, hlTraining), (HL_CFG.MAX_ATTEMPT 7, 0), (HL_STAT.ATTEMPT 7, 1)];
      max 1 (s.get (HL_CFG.MAX_ATTEMPT 7)) ≤ s.get (HL_STAT.ATTEMPT 7)) := by decide +kernel

theorem witness_HeadLinkLanes :
    (let s := st [(HL_STAT.STATE 7, hlUp), (HL_STAT.ACTIVE_MASK 7, 8), (HL_CTRL.AUTO_DROP 7, 1)];
      linkUp s 7 = true ∧ s.get (HL_STAT.STATE 7) = hlUp ∧ s.eng[(7 : Eng)].hl.umaskPend = false ∧ s.isSet (HL_CTRL.AUTO_DROP 7) = true ∧
      (s.get (HL_STAT.ACTIVE_MASK 7)).testBit (3 : Spot).val = true ∧
      steering s 7 = false ∧ s.isSet (WR_STAT.GATE 7) = false ∧ s.eng[(7 : Eng)].hl.syms = []) ∧
    (let s := engSt [(HL_STAT.STATE 7, hlUp), (HL_STAT.ACTIVE_MASK 7, 8)] fun g => { g with hl := { g.hl with rx := Vector.replicate 4 { lock := true, inv := 15 } } };
      let l := s.eng[(7 : Eng)].hl.rx[(3 : Spot)];
      (s.get (HL_STAT.ACTIVE_MASK 7)).testBit (3 : Spot).val = true ∧ (l.lock && !(hdrSteps l 0x8000#16).lock) = true ∧
      (l.lock && !(hdrSteps l 0#16).lock) = false ∧ s.notes = []) ∧
    (let s := st [(HL_STAT.STATE 7, hlDegraded), (HL_STAT.ACTIVE_MASK 7, 8)];
      linkUp s 7 = true ∧ s.get (HL_STAT.STATE 7) = hlDegraded ∧ (s.get (HL_STAT.ACTIVE_MASK 7)).testBit (3 : Spot).val = true) ∧
    (bits (0x101#64) 0 8 = 1 ∧ bits (0x101#64) 8 1 = 1) ∧ (bits (1#64) 0 8 = 1 ∧ bits (1#64) 8 1 = 0) := by decide

/-- Engine 7 may start a write run. -/
def goRegs : List (Fld × Nat) :=
  [(WR_CTRL.LASER_EN 7, 1), (HL_STAT.STATE 7, hlUp), (HL_RATE.STEERED 7, 1), (WPLL_STAT.LOCK 7, 1)]

/-- A physical cluster address: layer and cluster. -/
def clAt (layer : BitVec 3) (cluster : BitVec 28) : ClAddr := { layer := layer, cluster := cluster }

theorem witness_WriteRuns :
    (let s := st ((WR_PROD.PROD 7, 1) :: goRegs);
      wrGoOk s 7 = true ∧ 1 ≤ ringFill s 7 (s.get (WR_PROD.PROD 7))) ∧
    (wrGoOk State.reset 7 = false ∧ ringFill State.reset 7 (State.reset.get (WR_PROD.PROD 7)) = 0) ∧
    (st [(WR_STAT.STATE 7, wrArmed)]).get (WR_STAT.STATE 7) = wrArmed ∧
    (let x : WrEntry := { idx := 0, desc := ⟨0, 0, 0⟩, data := Vector.replicate 16 0, phase := .writing, res := none, endUs := 0 };
      let s := engSt [(WR_STAT.STATE 7, wrWriting), (HL_STAT.STATE 7, hlUp), (WR_STAT.GATE 7, 1)] fun g =>
        { g with wr := { g.wr with entries := [x], count := 1, pos := clusterBits } };
      s.get (WR_STAT.STATE 7) = wrWriting ∧ s.eng[(7 : Eng)].wr.closing = false ∧ linkUp s 7 = true ∧ s.isSet (WR_STAT.GATE 7) = true ∧
      steering s 7 = false ∧ clusterBits * s.eng[(7 : Eng)].wr.count ≤ s.eng[(7 : Eng)].wr.pos + ((wposNext s 7).1 - s.eng[(7 : Eng)].wr.wait) ∧
      (s.eng[(7 : Eng)].wr.entries.any fun x => x.phase == .committed) = false ∧ ringHas s 7 = false) ∧
    (let s := engSt [(WR_STAT.STATE 7, wrWriting), (WR_PROD.PROD 7, 1)] fun g => { g with wr := { g.wr with lastAddr := some 0xFFFFFFFF#32 } };
      ringHas s 7 = true ∧ s.eng[(7 : Eng)].wr.closing = false ∧ (s.eng[(7 : Eng)].wr.entries.any fun x => x.phase == .committed) = false ∧ s.eng[(7 : Eng)].wr.lastAddr = some ((ringDesc s 7 (s.get (WR_CONS.NEXT 7))).addr - 1#32)) ∧
    (let s := engSt [(WR_STAT.STATE 7, wrOpc)] fun g => { g with wr := { g.wr with pos := clusterBits, levels := [(0#32, 9#16)] } };
      s.get (WR_STAT.STATE 7) = wrOpc ∧ clusterBits ≤ s.eng[(7 : Eng)].wr.pos ∧
      (s.eng[(7 : Eng)].wr.levels.find? fun x =>
        x.1 == clWord ⟨BitVec.ofNat 28 (s.get (WR_OPC_ADDR.CLUSTER 7)), BitVec.ofNat 3 (s.get (WR_OPC_ADDR.LAYER 7))⟩ false) = some (0#32, 9#16)) ∧
    (let s := st [(WR_PROD.PROD 7, 64)];
      ringFill s 7 (64#7).toNat ≤ 64 ∧ ringFill s 7 (s.get (WR_PROD.PROD 7)) ≤ ringFill s 7 (64#7).toNat ∧ 64 < ringFill s 7 (65#7).toNat) ∧
    (let s := st [(WR_PROD.PROD 7, 64), (WR_STAT.STATE 7, wrArmed)];
      ringFill s 7 (63#7).toNat < ringFill s 7 (s.get (WR_PROD.PROD 7)) ∧ s.get (WR_STAT.STATE 7) ≠ wrIdle) ∧
    ((st [(WR_STAT.ILK_OPEN 7, 1)]).isSet (WR_STAT.ILK_OPEN 7) = true ∧ (st [(WR_STAT.ILK_HOLD 7, 1)]).isSet (WR_STAT.ILK_HOLD 7) = true ∧
      (st [(WR_STAT.ILK_OPEN 7, 1)]).notes = []) ∧
    ((st [(WR_STAT.ILK_OPEN 7, 0), (WR_STAT.ILK_HOLD 7, 0)]).isSet (WR_STAT.ILK_OPEN 7) = false ∧
      (st [(WR_STAT.ILK_OPEN 7, 0), (WR_STAT.ILK_HOLD 7, 0)]).isSet (WR_STAT.ILK_HOLD 7) = false) ∧
    (let s := st [(WPLL_CTRL.ENABLE 7, 1)];
      s.isSet (WPLL_CTRL.ENABLE 7) = true ∧ s.get (WR_STAT.STATE 7) = wrIdle ∧ s.notes = [] ∧ State.reset.isSet (WPLL_CTRL.ENABLE 7) = false) ∧
    (let s := engSt [(WPLL_CTRL.ENABLE 7, 1), (WR_STAT.STATE 7, wrArmed), (WR_PROD.PROD 7, 1)] fun g =>
        { g with wr := { g.wr with adip := some (clAt 0 0xFFFFFFF), adipIdx := some 2 } };
      s.isSet (WPLL_CTRL.ENABLE 7) = true ∧ s.get (WR_STAT.STATE 7) = wrArmed ∧
      (adipTrack 7 (some (clAt 0 0)) s).eng[(7 : Eng)].wr.adipIdx = some 0 ∧
      clWord (clAt 0 0) false = (ringDesc s 7 (s.get (WR_CONS.NEXT 7))).addr) := by decide +kernel

/-- Chain 4 of engine 7 enabled, with some register fields and internal values changed. -/
def chSt (l : List (Fld × Nat)) (f : ChInt → ChInt := id) : State := (st ((CH_CTRL.ENABLE 7 4, 1) :: l)).modCh 7 4 f

theorem witness_Flywheel :
    (State.reset.get (SYNC_CFG.SYNC_TOL 7 4) < 16 ∧ State.reset.notes = []) ∧
    (let s := chSt [(CH_STAT.FLY_STATE 7 4, flyLocked), (SYNC_CFG.SYNC_TOL 7 4, 2)];
      chRuns s 7 4 = true ∧ s.eng[(7 : Eng)].ch[(4 : Chn)].dsp.out = false ∧ 2 ≤ s.get (SYNC_CFG.SYNC_TOL 7 4) ∧ s.get (CH_STAT.FLY_STATE 7 4) = flyLocked ∧
      s.eng[(7 : Eng)].ch[(4 : Chn)].mark + frameBits ≤ (frameBits - 3) + 3 ∧ frameBits + 3 ≤ s.eng[(7 : Eng)].ch[(4 : Chn)].mark + frameBits + 3 ∧
      chooseCand (s.eng[(7 : Eng)].ch[(4 : Chn)].mark + frameBits) s.eng[(7 : Eng)].ch[(4 : Chn)].cands = none ∧
      s.get (CH_STAT.MISS_RUN 7 4) < 2) ∧
    (let s := chSt [(SYNC_CFG.LOCK_N 7 4, 2)] fun c => { c with acq := 1 };
      chRuns s 7 4 = true ∧ s.get (CH_STAT.FLY_STATE 7 4) = flySearch ∧ 0 < s.eng[(7 : Eng)].ch[(4 : Chn)].acq ∧
      (495 : Fin 496).val = 494 + 1 ∧ max 1 (s.get (SYNC_CFG.LOCK_N 7 4)) ≤ s.eng[(7 : Eng)].ch[(4 : Chn)].acq + 1) ∧
    (let s := chSt [(SYNC_CFG.LOCK_N 7 4, 3)] fun c => { c with acq := 1 };
      s.eng[(7 : Eng)].ch[(4 : Chn)].acq + 1 < max 1 (s.get (SYNC_CFG.LOCK_N 7 4))) ∧
    (let s := chSt [(CH_STAT.FLY_STATE 7 4, flyLocked), (CH_STAT.MISS_RUN 7 4, 2)] fun c => { c with cands := [⟨frameBits, 0, 1⟩] };
      chRuns s 7 4 = true ∧ 2 ≤ s.get (CH_STAT.MISS_RUN 7 4) ∧ chooseCand frameBits s.eng[(7 : Eng)].ch[(4 : Chn)].cands = some ⟨frameBits, 0, 1⟩) ∧
    (let s := chSt [(CH_STAT.FLY_STATE 7 4, flyLocked)] fun c => { c with cands := [⟨frameBits + 3, 0, 1⟩] };
      chooseCand frameBits s.eng[(7 : Eng)].ch[(4 : Chn)].cands = some ⟨frameBits + 3, 0, 1⟩ ∧ frameBits + 3 ≠ frameBits) ∧
    (let s := chSt [(CH_STAT.FLY_STATE 7 4, flyProv)];
      chRuns s 7 4 = true ∧ s.get (CH_STAT.FLY_STATE 7 4) = flyProv) := by decide

/-- A decoded cluster with no errors. -/
def cleanDecode : Decoded :=
  { bis := List.replicate 24 [], ldc := List.replicate 304 [], edc := 0#32, addr := some (clAt 0 0),
    data := Vector.replicate 16 0, lv := ⟨0, 0, 0⟩ }

/-- A failed EDC check makes a decode fail; with no codewords and no failed check, within R72, it succeeds. -/
theorem decode_edc_bad (s : State) (e : Eng) (k : Chn) (d : Decoded) (x : DecodeIn) (h : d.edc ≠ 0#32) : (decodeView s e k d x).ok = false := by
  simp [decodeView, h]
theorem decode_none_ok (s : State) (e : Eng) (k : Chn) (d : Decoded) (x : DecodeIn) (hb : d.bis = []) (hl : d.ldc = []) (he : d.edc = 0#32)
    (hx : x.lost = false) : (decodeView s e k d x).ok = true := by
  simp [decodeView, numbered, hb, hl, he, hx]

theorem witness_DecodingWobbleAndCapture_passes (s : State) (x : DecodeIn) (hx : x.lost = false) :
    (decodeView s 7 4 { cleanDecode with bis := [], ldc := [] } x).ok = true ∧ (decodeView s 7 4 { cleanDecode with edc := 1#32 } x).ok = false :=
  ⟨decode_none_ok _ _ _ _ _ rfl rfl rfl hx, decode_edc_bad _ _ _ _ _ (by decide)⟩

theorem witness_DecodingWobbleAndCapture :
    (let s := (chSt [] fun c => { c with frame := 495, obs := .whole });
      decodes s 7 4 = true ∧ 495 ≤ s.eng[(7 : Eng)].ch[(4 : Chn)].frame ∧ s.eng[(7 : Eng)].ch[(4 : Chn)].obs = .whole ∧
      s.eng[(7 : Eng)].ch[(4 : Chn)].seamHold = false) ∧
    (let s := (chSt [] fun c => { c with frame := 494, doneObs := .whole });
      decodes s 7 4 = true ∧ s.eng[(7 : Eng)].ch[(4 : Chn)].frame < 495 ∧ s.eng[(7 : Eng)].ch[(4 : Chn)].doneObs = .whole) ∧
    (let s := st [(TMP_STAT.STATE 7, tmpCalib)];
      tmpActive s 7 = true ∧ ¬ (tmpActive s 7 = true ∧ (3 : Chn) = 4)) ∧
    (let s := st [(CH_CTRL.REPLAY 7 4, 1)];
      s.isSet (CH_CTRL.REPLAY 7 4) = true ∧ s.isSet (CH_STAT.REPLAY_BUSY 7 4) = false) ∧
    (let s := st [(CH_CTRL.REPLAY 7 4, 1), (CH_STAT.REPLAY_BUSY 7 4, 1), (RPL_CTRL.PASS 7 4, 3)];
      s.isSet (CH_STAT.REPLAY_BUSY 7 4) = true ∧ s.eng[(7 : Eng)].att = none ∧ iterMax s 7 ≤ s.get (RPL_CTRL.PASS 7 4) + 1) ∧
    (let s := st [(CH_STAT.REPLAY_BUSY 7 4, 1), (DEC_CFG.ITER_MAX 7 4, 2)];
      s.eng[(7 : Eng)].att = none ∧ s.get (RPL_CTRL.PASS 7 4) + 1 < iterMax s 7) ∧
    (let s := st [(WPLL_CTRL.ENABLE 7, 1), (WPLL_STAT.LOCK 7, 1), (HL_RATE.STEERED 7, 1), (CH_CTRL.TR_MODE 7 4, 1), (WR_STAT.STATE 7, wrArmed)];
      s.isSet (WPLL_CTRL.ENABLE 7) = true ∧ s.isSet (WPLL_STAT.LOCK 7) = true ∧ s.isSet (HL_RATE.STEERED 7) = true ∧
      s.isSet (CH_CTRL.TR_MODE 7 4) = true ∧ s.get (WR_STAT.STATE 7) ≠ wrIdle) ∧
    (romIn State.reset 7 = false ∧ State.reset.isSet (WPLL_STAT.LOCK 7) = false) ∧
    (let rom := mapSt [(discKey 3, (disc 3 3 7))] State.reset fun a => { a with discs := [(3, { loc := .engine 7 })] };
      romIn rom 7 = true) ∧
    State.reset.eng[(7 : Eng)].capTrig = false ∧
    (let s := engSt [(CAP_CTRL.ARM 7, 1)] fun g => { g with capTrig := true };
      s.eng[(7 : Eng)].capTrig = true ∧ s.isSet (CAP_CTRL.ARM 7) = true ∧ s.isSet (CAP_STAT.TRIGGERED 7) = false ∧ (1#32).getLsbD 0 = true) ∧
    (let s := st [(CAP_CTRL.ARM 7, 1), (CAP_STAT.TRIGGERED 7, 1)];
      s.isSet (CAP_CTRL.ARM 7) = true ∧ s.isSet (CAP_STAT.TRIGGERED 7) = true) := by decide +kernel

/-- A seam block of engine 7 with an open window. -/
def winSt (state : Nat) (cross : Bool) : State :=
  engSt [(SEAM_STAT.STATE 7, state)] fun g => { g with seam := { g.seam with openWin := true, closeCross := cross } }

/-- A cluster in rung 2 of the ladder. -/
def item5 : LadderItem := ⟨clAt 0 5, 3, 2, 1, none⟩
/-- Its attempt with spot 0 or another. -/
def att5 (spot : Nat) (run : Bool) : Attempt := ⟨item5, spot, 3, run, false, [clAt 0 5], false, []⟩
/-- Engine 7 with that cluster in its ladder and an attempt or none; its link is up, and tracking on. -/
def rtySt (a : Option Attempt) (l : List (Fld × Nat) := []) : State :=
  (engSt ([(HL_STAT.STATE 7, hlUp), (SLD_STAT.LOST 7, 0), (GLB_DDR_CFG.CAP, 16), (ANV_RAMP_CFG.DONE 7 0, 1), (ANV_RAMP_CFG.DONE 7 1, 1)] ++ l) fun g =>
    { g with rty := [item5], att := a }).modAnv 7 fun x => { x with dm := [(0x7E5, 3#24)] }

theorem witness_SeamRunsAndLadder :
    (let s := st [(GLB_DDR_CFG.CAP, 16)];
      s.get (SEAM_STAT.STATE 7) = seamIdle ∧ seamRunOk s 7 = true) ∧
    (let s := st [(SEAM_STAT.STATE 7, seamOpening), (SPN_STAT.ANG_VALID 7, 1)];
      s.get (SEAM_STAT.STATE 7) ≠ seamIdle ∧ s.isSet (SPN_STAT.ANG_VALID 7) = true ∧ s.get (SEAM_STAT.STATE 7) = seamOpening) ∧
    (let s := winSt seamOpening false;
      s.eng[(7 : Eng)].seam.openWin = true ∧ s.get (SEAM_STAT.STATE 7) = seamOpening) ∧
    (let s := winSt seamRunning false;
      s.eng[(7 : Eng)].seam.openWin = true ∧ s.get (SEAM_STAT.STATE 7) = seamRunning) ∧
    (let s := winSt seamClosing true;
      s.eng[(7 : Eng)].seam.openWin = true ∧ s.get (SEAM_STAT.STATE 7) = seamClosing ∧ s.eng[(7 : Eng)].seam.closeCross = true) ∧
    (let s := engSt [(SEAM_STAT.JUMPING 7, 1), (SEAM_SETTLE.N 7, 15)] fun g => { g with seam := { g.seam with inside := 15 } };
      s.isSet (SEAM_STAT.JUMPING 7) = true ∧ seamQuiet s 7 = true) ∧
    (seamQuiet State.reset 7 = false ∧ State.reset.isSet (SPN_STAT.ANG_VALID 7) = false) ∧
    (let s := engSt [] fun g => { g with seam := { g.seam with used := [63] } };
      (63 : Fin 64).val ∈ s.eng[(7 : Eng)].seam.used ∧ (0 : Fin 64).val ∉ s.eng[(7 : Eng)].seam.used) ∧
    (let j : StitchJob := ⟨clAt 0 1, 0, 0, 0, 0, 1, {}, {}⟩;
      let s := engSt [] fun g => { g with seam := { g.seam with jobs := [j], busy := [0, 1] } };
      s.eng[(7 : Eng)].seam.jobs = [j]) ∧
    (let s := rtySt none;
      (s.eng[(7 : Eng)].rty.any fun i => i.addr == clAt 0 5) = true ∧ s.eng[(7 : Eng)].att = none ∧ ladderNext s 7 = some item5 ∧
      ladderPaused s 7 = false ∧ s.get (SEAM_STAT.STATE 7) = seamIdle ∧ writing s 7 = false ∧ rungSpare item5.rung = false) ∧
    (let s := rtySt (some (att5 1 false));
      s.eng[(7 : Eng)].att = some (att5 1 false) ∧ (s.eng[(7 : Eng)].rty.any fun i => i.addr == (att5 1 false).item.addr) = true ∧
      attemptReady s 7 (att5 1 false) = true ∧ ladderPaused s 7 = false ∧ s.get (SEAM_STAT.STATE 7) = seamIdle ∧ writing s 7 = false ∧
      (clAt 0 4).layer = (att5 1 false).item.addr.layer ∧ (clAt 0 4).cluster.toNat ≤ (att5 1 false).item.addr.cluster.toNat ∧
      (s.get (RAS_BASE.BASE 7) + 1) * 2 ^ 23 ≤ ddrBytes s) ∧
    (let s := (rtySt (some (att5 0 true)) [(SEAM_STAT.STATE 7, seamClosing)]).modEng 7 fun g =>
        { g with seam := { g.seam with openWin := true, closeCross := true } };
      s.eng[(7 : Eng)].att = some (att5 0 true) ∧ (att5 0 true).running = true ∧ (att5 0 true).replay = false ∧
      (att5 0 true).read.contains (att5 0 true).item.addr = true ∧ s.eng[(7 : Eng)].seam.openWin = true ∧
      s.get (SEAM_STAT.STATE 7) = seamClosing ∧ s.eng[(7 : Eng)].seam.closeCross = true) ∧
    (State.reset.eng[(7 : Eng)].rty = [] ∧ State.reset.eng[(7 : Eng)].att = none ∧ State.reset.notes = []) := by decide +kernel

theorem witness_SeamRunDiscarded :
    (let s := st [(RAS_FIRST.CLUSTER 7, 1)];
      s.get (RAS_LAST.CLUSTER 7) < s.get (RAS_FIRST.CLUSTER 7)) ∧
    (let s := st [(RAS_LAST.LAYER 7, 1)];
      s.get (RAS_FIRST.LAYER 7) ≠ s.get (RAS_LAST.LAYER 7)) ∧
    (let s := st [(GLB_DDR_CFG.CAP, 8), (RAS_BASE.BASE 7, 1024)];
      s.get GLB_DDR_CFG.CAP * 2 ^ 30 < (s.get (RAS_BASE.BASE 7) + 1) * 2 ^ 23) := by decide +kernel

/-- Engine 7 may start a Temper session of any target. -/
def temperRegs : List (Fld × Nat) :=
  [(HL_STAT.STATE 7, hlUp), (CH_STAT.FLY_STATE 7 0, 1), (CH_STAT.AGC_OK 7 0, 1), (TMP_CTRL.EN 7, 1)]

/-- A trial window's result. -/
def trial (new : BitVec 16) : WindowResult := ⟨1, new, 64, Vector.replicate 10 0, Vector.replicate 10 0, 0⟩

/-- A session of target 3 at a sync boundary of both chains. -/
def boundarySt (state : Nat) : State :=
  let mark (c : ChInt) : ChInt := { c with frame := 7, marks := [6, 7] }
  ((st [(TMP_STAT.STATE 7, state), (TMP_STAT.TARGET 7, 3), (TMP_STAT.DELIV 7, 4), (CH_STAT.FLY_STATE 7 3, flyLocked),
    (CH_STAT.FLY_STATE 7 4, flyLocked)]).modCh 7 3 mark).modCh 7 4 mark

theorem witness_TemperSessions :
    (let s := st temperRegs;
      tmpActive s 7 = false ∧ tmpStartOk s 7 (tmpTarget s 7) = true ∧ spareFree s 7 = true ∧ s.isSet (TMP_CTRL.EN 7) = true ∧
      tmpStartOk s 7 s.eng[(7 : Eng)].tmp.rotation = true) ∧
    (tmpActive State.reset 7 = false ∧ tmpStartOk State.reset 7 (tmpTarget State.reset 7) = false ∧ State.reset.isSet (TMP_CTRL.EN 7) = false) ∧
    (let s := st ((CLAIM_RES.OWNER (spareRes 7), idEsq 7) :: temperRegs);
      tmpActive s 7 = false ∧ tmpStartOk s 7 (tmpTarget s 7) = true ∧ spareFree s 7 = false) ∧
    (let s := engSt temperRegs fun g => { g with tmp := { g.tmp with retry := true, retryTarget := 4 } };
      s.eng[(7 : Eng)].tmp.retry = true ∧ tmpActive s 7 = false ∧ tmpStartOk s 7 s.eng[(7 : Eng)].tmp.retryTarget = true ∧ spareFree s 7 = true) ∧
    ((st [(TMP_STAT.STATE 7, tmpAbandon)]).get (TMP_STAT.STATE 7) = tmpAbandon) ∧
    (let s := st [(TMP_STAT.STATE 7, tmpShadow), (TMP_STAT.DELIV 7, 4)];
      tmpActive s 7 = true ∧ s.get (TMP_STAT.STATE 7) ≠ tmpAbandon ∧ s.get (TMP_STAT.DELIV 7) = 4 ∧ s.get (TMP_STAT.STATE 7) = tmpShadow) ∧
    (let s := st [(TMP_STAT.STATE 7, tmpCalib), (TMP_STAT.DELIV 7, 3)];
      tmpActive s 7 = true ∧ s.get (TMP_STAT.STATE 7) ≠ tmpAbandon ∧ s.get (TMP_STAT.DELIV 7) ≠ 4 ∧ s.eng[(7 : Eng)].ch[(4 : Chn)].seamHold = false ∧ s.get (TMP_STAT.STATE 7) = tmpCalib) ∧
    (let s := st [(TMP_STAT.STATE 7, tmpVerify), (TMP_STAT.TARGET 7, 3)];
      s.get (TMP_STAT.STATE 7) = tmpVerify ∧ s.get (TMP_STAT.TARGET 7) < 4) ∧
    (let s := st [(TMP_STAT.STATE 7, tmpRestore), (TMP_STAT.TARGET 7, 4)];
      s.get (TMP_STAT.STATE 7) = tmpRestore ∧ 4 ≤ s.get (TMP_STAT.TARGET 7)) ∧
    (let s := boundarySt tmpTakeover;
      s.get (TMP_STAT.STATE 7) = tmpTakeover ∧ s.get (TMP_STAT.DELIV 7) = 4 ∧ syncBoundary s 7 (targetChain (s.get (TMP_STAT.TARGET 7))) 4 = true ∧
      s.eng[(7 : Eng)].tmp.outgoing = none ∧ s.eng[(7 : Eng)].ch[targetChain (s.get (TMP_STAT.TARGET 7))].obs ≠ .whole) ∧
    (let s := boundarySt tmpHandback;
      s.get (TMP_STAT.STATE 7) = tmpHandback ∧ syncBoundary s 7 (targetChain (s.get (TMP_STAT.TARGET 7))) 4 = true) ∧
    syncBoundary State.reset 7 (targetChain (State.reset.get (TMP_STAT.TARGET 7))) 4 = false ∧
    (let s := engSt [(TMP_STAT.STATE 7, tmpCalib)] fun g => { g with tmp := { g.tmp with run1 := List.replicate 10 (trial 1) } };
      s.get (TMP_STAT.STATE 7) = tmpCalib ∧ 10 ≤ s.eng[(7 : Eng)].tmp.run1.length) ∧
    (let s := engSt [(TMP_STAT.STATE 7, tmpRepeat), (TMP_STAT.TARGET 7, 4)] fun g =>
        { g with tmp := { g.tmp with run1 := List.replicate 11 (trial 1), run2 := List.replicate 10 (trial 1) } };
      s.get (TMP_STAT.STATE 7) = tmpRepeat ∧ 10 ≤ s.eng[(7 : Eng)].tmp.run2.length ∧
      (runsAgree s 7 4 s.eng[(7 : Eng)].tmp.run1 (s.eng[(7 : Eng)].tmp.run2 ++ [trial 1]) && notWorse s 7 (trial 1)) = true ∧
      notWorse s 7 (trial 0xFFFF) = false) ∧
    (popcount 10 (0x3FC#32).toNat = 8 ∧ popcount 10 (0x3FF#32).toNat ≠ 8) := by decide +kernel

theorem witness_SpindleStartsStopsAndFaults :
    (State.reset.get (SPN_STAT.STATE 7) = spnOff ∧ (State.reset.isSet (SPN_CTRL.DIR 7) != false) = false) ∧
    (let s := st [(SPN_STAT.STATE 7, spnRun)];
      s.get (SPN_STAT.STATE 7) ≠ spnOff ∧ (s.isSet (SPN_CTRL.DIR 7) != true) = true ∧ s.get (SPN_STAT.STATE 7) = spnRun ∧
      s.getInt (SPN_SPEED.REF 7) = s.get (SPN_SPD.TARGET 7) ∧ spnNear s 7 = true ∧ s.eng[(7 : Eng)].spn.gate = 0) ∧
    (let s := st [(SPN_STAT.STATE 7, spnBrake)];
      s.get (SPN_STAT.STATE 7) = spnBrake ∧ s.eng[(7 : Eng)].spn.restart = false) ∧
    (let s := (st [(SPN_STAT.STATE 7, spnBrake)]).modSpn 7 fun p => { p with restart := true };
      s.get (SPN_STAT.STATE 7) = spnBrake ∧ s.eng[(7 : Eng)].spn.restart = true) ∧
    (let s := (st [(SPN_STAT.STATE 7, spnRun), (SPN_CTRL.RECATCH 7, 1), (SPN_OBS.LOS_N 7, 15)]).modSpn 7 fun p => { p with bad := 15 };
      s.isSet (SPN_CTRL.RECATCH 7) = true ∧ max 1 (s.get (SPN_OBS.LOS_N 7)) ≤ s.eng[(7 : Eng)].spn.bad ∧
      (s.eng[(7 : Eng)].spn.losTimes.filter fun t => decide (s.us < t + 10000000)).length + 1 < 3) ∧
    (let s := (st [(SPN_OBS.LOS_N 7, 0)]);
      s.eng[(7 : Eng)].spn.bad < max 1 (s.get (SPN_OBS.LOS_N 7))) ∧
    (let s := (st [(SPN_STAT.STATE 7, spnRun)]).modSpn 7 fun p => { p with losTimes := [0, 0], bad := 15 };
      max 1 (s.get (SPN_OBS.LOS_N 7)) ≤ s.eng[(7 : Eng)].spn.bad ∧ 3 ≤ (s.eng[(7 : Eng)].spn.losTimes.filter fun t => decide (s.us < t + 10000000)).length + 1) ∧
    (let s := (st [(SPN_STAT.STATE 7, spnRun)]).modSpn 7 fun p => { p with gate := 1, oc := true };
      s.eng[(7 : Eng)].spn.gate ≠ 0 ∧ overCurrent s 7 ⟨32767, 0⟩ = true ∧ s.eng[(7 : Eng)].spn.oc = true) ∧
    (let s := (st [(SPN_STAT.STATE 7, spnRun), (SPN_SPD.TARGET 7, 1)]).modSpn 7 fun p => { p with gate := 1, oc := true };
      overCurrent s 7 ⟨0, 0⟩ = false ∧ s.get (SPN_SPD.TARGET 7) ≠ 0 ∧ s.isSet (SPN_STAT.ZERO_VEC 7) = false) ∧
    ((st [(SPN_STAT.STATE 7, spnAlign)]).isSet (SPN_STAT.ZERO_VEC 7) = false ∧ (st [(SPN_STAT.STATE 7, spnOpen)]).get (SPN_STAT.STATE 7) = spnOpen) ∧
    (let s := st [(SPN_STAT.STATE 7, spnBrake)];
      s.get (SPN_STAT.STATE 7) = spnBrake ∧ s.eng[(7 : Eng)].spn.gate ≠ 2) := by decide +kernel

theorem witness_SpindleCatchAndHandover :
    (let s := st [(SPN_STAT.STATE 7, spnCatch), (SPN_SPD.TARGET 7, 400), (SPN_START.HAND_RPM 7, 400), (SPN_OBS.CATCH_EDGES 7, 3), (SPN_MOTOR.POLES 7, 4)];
      s.get (SPN_STAT.STATE 7) = spnCatch ∧ 2 < max 3 (s.get (SPN_OBS.CATCH_EDGES 7)) ∧ max 3 (s.get (SPN_OBS.CATCH_EDGES 7)) ≤ 3 ∧
      catchRpm s 7 1000000 = 250 ∧ catchRpm s 7 625000 = 400 ∧ catchRpm s 7 500000 = 500 ∧
      (250 ≤ s.get (SPN_SPD.TARGET 7) ∧ 250 < s.get (SPN_START.HAND_RPM 7)) ∧
      (400 ≤ s.get (SPN_SPD.TARGET 7) ∧ s.get (SPN_START.HAND_RPM 7) ≤ 400) ∧ s.get (SPN_SPD.TARGET 7) < 500 ∧ 500 < 2 ^ 15) ∧
    (st [(SPN_STAT.STATE 7, spnAlign)]).get (SPN_STAT.STATE 7) = spnAlign ∧
    (let s := (st [(SPN_STAT.STATE 7, spnOpen)]).modSpn 7 fun p => { p with good := 32 };
      s.get (SPN_STAT.STATE 7) = spnOpen ∧ 32 ≤ s.eng[(7 : Eng)].spn.good) ∧
    (let s := (st [(SPN_STAT.STATE 7, spnOpen)]).modSpn 7 fun p => { p with good := 31, tried := 64 };
      s.eng[(7 : Eng)].spn.good < 32 ∧ 64 ≤ s.eng[(7 : Eng)].spn.tried) ∧
    (let s := (st [(SPN_STAT.STATE 7, spnOpen)]).modSpn 7 fun p => { p with good := 31, tried := 63 };
      s.eng[(7 : Eng)].spn.good < 32 ∧ s.eng[(7 : Eng)].spn.tried < 64 ∧ s.notes = []) := by decide +kernel

/-- The mean R226 takes when one sample is held, in 10 mV. -/
def firstMean (v : Nat) : Nat := (meanOf (((v :: State.reset.brk[(1 : Fin 2)].samples).take 4).map Int.ofNat)).toNat

theorem witness_MotorBuses :
    (firstMean 65535 = 65535 ∧ State.reset.get (BRK_OV3.CHOP_ON 1) < firstMean 65535 ∧ State.reset.get (BRK_OV12.OV1 1) < firstMean 65535 ∧
      State.reset.get (BRK_OV12.OV2 1) < firstMean 65535 ∧ State.reset.get (BRK_OV3.OV3 1) < firstMean 65535 ∧
      State.reset.get (BRK_CFG.UV 1) + 10 * State.reset.get (BRK_CFG.HYST 1) < firstMean 65535 ∧ busOf 4 = 1) ∧
    (firstMean 0 + 10 * State.reset.get (BRK_CFG.HYST 1) < State.reset.get (BRK_OV3.CHOP_ON 1) ∧ firstMean 0 < State.reset.get (BRK_CFG.UV 1) ∧
      firstMean 0 ≤ State.reset.get (BRK_OV12.OV2 1) ∧ firstMean 0 ≤ State.reset.get (BRK_OV3.OV3 1)) ∧
    (State.reset.get (BRK_STAT.VBUS 1) + 10 * State.reset.get (BRK_CFG.HYST 1) < State.reset.get (BRK_OV12.OV1 1) ∧
      State.reset.get (BRK_STAT.VBUS 1) + 10 * State.reset.get (BRK_CFG.HYST 1) < State.reset.get (BRK_OV12.OV2 1)) ∧
    (chopFaulty State.reset 1 = false ∧
      chopFaulty { State.reset with brk := State.reset.brk.set 1 { State.reset.brk[(1 : Fin 2)] with weak := 20 } } 1 = true ∧
      chopFaulty { State.reset with brk := State.reset.brk.set 1 { State.reset.brk[(1 : Fin 2)] with overs := 200 } } 1 = true) ∧
    Req.host ≠ .sup ∧
    (let t := brkPut 1 0 (State.reset.rd (BRK_OV12.reg 1)) State.reset;
      brkOrder (t.get (BRK_CFG.UV 1)) (t.get (BRK_OV3.CHOP_ON 1)) (t.get (BRK_OV12.OV1 1)) (t.get (BRK_OV12.OV2 1)) (t.get (BRK_OV3.OV3 1))
        (10 * t.get (BRK_CFG.HYST 1)) = true) ∧
    (let t := brkPut 1 0 0#32 State.reset;
      brkOrder (t.get (BRK_CFG.UV 1)) (t.get (BRK_OV3.CHOP_ON 1)) (t.get (BRK_OV12.OV1 1)) (t.get (BRK_OV12.OV2 1)) (t.get (BRK_OV3.OV3 1))
        (10 * t.get (BRK_CFG.HYST 1)) = false) := by decide +kernel

theorem witness_Axes :
    (let s := st [(AX_CTRL.GEAR 3, 1), (AX_STAT.GEARED 3, 1), (AX_CTRL.CHG_ARM 3, 1)];
      s.isSet (AX_CTRL.GEAR 3) = true ∧ s.isSet (AX_STAT.GEARED 3) = true ∧ s.isSet (AX_STAT.MOVING 3) = false ∧
      (s.isSet (AX_CTRL.CHG_ARM 3) && decide (s.ax[(3 : Fin 4)].count = s.getInt (AX_CHG_POS.CHG_POS 3))) = true) ∧
    (let s := st [(AX_TGT.VALUE 3, 1)];
      s.isSet (AX_CTRL.GEAR 3) = false ∧ s.get (AX_POS.VALUE 3) ≠ s.get (AX_TGT.VALUE 3)) ∧
    (State.reset.isSet (AX_CTRL.GEAR 3) = false ∧ State.reset.isSet (AX_STAT.MOVING 3) = false ∧ State.reset.isSet (AX_STAT.GEARED 3) = false ∧
      State.reset.get (AX_POS.VALUE 3) = State.reset.get (AX_TGT.VALUE 3) ∧ State.reset.isSet (AX_CTRL.ENC_CHK 3) = false) ∧
    (let s := st [(AX_STAT.MOVING 3, 1), (AX_CTRL.ENC_CHK 3, 1), (AX_ENC.TOL 3, 0)];
      s.isSet (AX_STAT.MOVING 3) = true ∧ s.isSet (AX_STAT.GEARED 3) = false ∧ s.isSet (AX_CTRL.ENC_CHK 3) = true ∧
      s.get (AX_ENC.TOL 3) < ((1 : Int) - (s.ax[(3 : Fin 4)].encBase + divFree ((s.ax[(3 : Fin 4)].encCount + 0) * s.get (AX_ENC.E_RATIO 3)) 4096)).natAbs) ∧
    (let s := (st [(AX_STAT.GEARED 3, 1), (AX_CTRL.GEAR 3, 1), (AX_VMAX.LAG_MAX 3, 0)]).put (AX_RATIO.RATIO 3) 65536;
      64 * s.get (AX_VMAX.LAG_MAX 3) < (s.ax[(3 : Fin 4)].target + (s.ax[(3 : Fin 4)].rem + signed 24 (s.get (AX_RATIO.RATIO 3))) / 65536
        - s.getInt (AX_POS.VALUE 3)).natAbs) ∧
    (let s := st [(AX_STAT.MOVING 3, 1), (AX_TGT.VALUE 3, 1)];
      s.isSet (AX_STAT.GEARED 3) = false ∧ unsigned 32 (s.getInt (AX_POS.VALUE 3) + 1) = s.get (AX_TGT.VALUE 3) ∧
      s.ax[(3 : Fin 4)].stopping = false) ∧
    (let s := st [(AX_STAT.GEARED 3, 1), (AX_CTRL.SRC 3, 11)];
      s.get (AX_CTRL.SRC 3) = (11 : Fin 12).val ∧ s.get (AX_CTRL.SRC 3) ≠ (0 : Fin 12).val) ∧
    (let s := (st [(AX_STAT.GEARED 3, 1), (AX_VMAX.LAG_MAX 3, 1)]).put (AX_RATIO.RATIO 3) 65536;
      (s.ax[(3 : Fin 4)].target + (s.ax[(3 : Fin 4)].rem + signed 24 (s.get (AX_RATIO.RATIO 3))) / 65536
        - s.getInt (AX_POS.VALUE 3)).natAbs ≤ 64 * s.get (AX_VMAX.LAG_MAX 3)) := by decide +kernel

/-- The state with Hearth and Bellows changed: by default the part runs. -/
def run (s : State) (f : PwrInt → PwrInt := id) : State := { s with pw := f { s.pw with life := .running } }

/-- Every engine asleep, the sleds parked, no host link: standby may be entered. -/
def stbyRegs : List (Fld × Nat) := (PWR_STBY.EN, 1) :: (List.finRange 8).flatMap fun e => [(engPower e, 0), (SLD_STAT.PARKED e, 1)]

theorem witness_SleepStandbyAndTemperature :
    (let s := st [(engPower 7, 2), (SLD_STAT.PARKED 7, 1)];
      s.get (engPower 7) = 2 ∧ sleepOk s 7 = true ∧ s.eng[(7 : Eng)].wfi = false) ∧
    (let s := engSt [(engPower 7, 2), (SLD_STAT.PARKED 7, 1)] fun g => { g with wfi := true };
      s.get (engPower 7) = 2 ∧ sleepOk s 7 = true ∧ s.eng[(7 : Eng)].wfi = true) ∧
    (let s := st [(engPower 7, 2), (SLD_STAT.PARKED 7, 0)];
      sleepOk s 7 = false) ∧
    (let s := engSt [(engPower 7, 1)] fun g => { g with retained := true };
      s.get (engPower 7) = 1 ∧ s.eng[(7 : Eng)].retained = true ∧ s.get (HL_STAT.STATE 7) = hlOff) ∧
    ((st [(engPower 7, 0)]).get (engPower 7) = 0 ∧ engFitted State.reset 7 = true ∧ (st [(engPower 7, 3)]).get (engPower 7) = 3) ∧
    (let b : Bcr := ⟨0, 0, 8, false, 0, 1, 0x7F, 0xF, 0, true, true⟩;
      engFitted { State.reset with sec := { State.reset.sec with bcr := some b } } 7 = false) ∧
    (1760 ≤ (1760#16).toInt ∧ (1759#16).toInt < 1760 ∧ 1920 ≤ (1920#16).toInt ∧ (1919#16).toInt < 1920 ∧ State.reset.notes = []) ∧
    (let s := run { st stbyRegs with cqi := { State.reset.cqi with d3 := true } };
      stbyOk s = true) ∧
    (stbyOk State.reset = false) ∧
    (let s := run (st [(PWR_STATE.STATE, 2), (PWR_WAKE_EN.SRC, 8)]);
      s.get PWR_STATE.STATE = 2 ∧ (s.get PWR_WAKE_EN.SRC).testBit (3 : Fin 4).val = true ∧ s.pw.life = .running ∧
      (s.get PWR_WAKE_EN.SRC).testBit (0 : Fin 4).val = false) ∧
    (let s := run State.reset fun p => { p with rtc := 32768 * (2 ^ 32 + 5) };
      rtcSec (s.put (PWR_TMR.AT 1) 5) % 2 ^ 32 = (s.put (PWR_TMR.AT 1) 5).get (PWR_TMR.AT 1) ∧ s.get PWR_STATE.STATE ≠ 2 ∧
      rtcSec s % 2 ^ 32 ≠ s.get (PWR_TMR.AT 1)) ∧
    ((run State.reset).pw.pfail = false ∧ (run State.reset).pw.life ≠ .reset) := by decide +kernel

theorem witness_ClaimsAndTimers :
    (reqId (.esq 7) = some 15 ∧ (15#32).toNat % 64 = 15 ∧ State.reset.get (CLAIM_RES.OWNER (36 : Fin 37)) = 0x3F ∧ mayClaim 15 36 = true ∧
      mayClaim 15 28 = true ∧ mayClaim 15 29 = false) ∧
    (let s := st [(CLAIM_RES.OWNER (28 : Fin 37), 15)];
      (28 : Fin 37).val < 29 ∧ s.get (CLAIM_RES.OWNER (28 : Fin 37)) ≠ 0x3F ∧ reqId (.esq 7) = some (s.get (CLAIM_RES.OWNER (28 : Fin 37))) ∧
      (0xBF#32).toNat % 64 = 0x3F ∧ (0xBF#32).getLsbD 7 = true ∧ s.get (CLAIM_RES.OWNER (28 : Fin 37)) ≠ 0x3E) ∧
    (let s := st [(CLAIM_RES.OWNER (spareRes 7), idTemper 7), (TMP_STAT.STATE 7, tmpCalib)];
      (15#32).toNat % 64 = idEsq 7 ∧ s.get (CLAIM_RES.OWNER (spareRes 7)) = idTemper 7 ∧ s.isSet (CLAIM_RES.PEND (spareRes 7)) = false ∧
      tmpActive s 7 = true ∧ s.get (TMP_STAT.STATE 7) ≠ tmpAbandon) ∧
    (let s := st [(CLAIM_RES.OWNER (spareRes 7), idTemper 7), (CLAIM_RES.PEND (spareRes 7), 1)];
      s.get (CLAIM_RES.OWNER (spareRes 7)) = idTemper 7 ∧ s.isSet (CLAIM_RES.PEND (spareRes 7)) = true) ∧
    (reqId .host = none ∧ State.reset.notes = []) ∧
    (let s := st [(TIM_CTRL.MODE 11, 1), (TIM_CTRL.SRC 11, 27), (TIM_CTRL.EDGE 11, 1)];
      s.get (TIM_CTRL.MODE 11) = 1 ∧ timSrcOk (s.get (TIM_CTRL.SRC 11)) = true ∧ s.get (TIM_CTRL.EDGE 11) = (if true then 1 else 0)) ∧
    ((st [(TIM_CTRL.MODE 11, 2)]).get (TIM_CTRL.MODE 11) = 2 ∧ (st [(TIM_CTRL.MODE 11, 3)]).get (TIM_CTRL.MODE 11) = 3 ∧
      (st [(TIM_CTRL.MODE 11, 1)]).get (TIM_CTRL.MODE 11) < 2) := by decide +kernel

theorem witness_FusesDebugAndTest :
    (fuseLocked State.reset.sec.blown 3 = false ∧ 32 * 11 < fuseWidth 3 ∧ ¬ (32 * 12 < fuseWidth 3) ∧ fuseLocked State.reset.sec.blown 0x80 = true ∧
      State.reset.get PWR_STATE.STATE = 0 ∧ State.reset.pw.pfail = false ∧ (st [(PWR_STATE.STATE, 2)]).get PWR_STATE.STATE ≠ 0) ∧
    ((st [(GLB_SEC_STAT.DBG_FAILS, 3)]).get GLB_SEC_STAT.DBG_FAILS = 3) ∧
    (let s := { st [(GLB_SEC_STAT.DBG_FAILS, 2)] with sec := { State.reset.sec with challenge := some 1 } };
      s.get GLB_SEC_STAT.DBG_FAILS < 3 ∧ s.sec.challenge.isSome = true ∧ signerOk s .owner = true ∧ signerOk s .nobody = false) ∧
    State.reset.sec.challenge = none ∧ (st [(WR_STAT.STATE 7, wrArmed)]).get (WR_STAT.STATE 7) ≠ wrIdle := by decide +kernel

theorem witness_Resets :
    State.reset.Inv ∧
    (let s := run (st [(PWR_WDT.EN, 1)]);
      s.isSet PWR_WDT.EN = true ∧ s.pw.pfail = false ∧ s.pw.life ≠ .reset ∧ s.notes = []) ∧
    (let s := run (st [(PWR_WDT.EN, 0)]) fun p => { p with pfail := true };
      s.pw.pfail = true ∧ s.isSet PWR_WDT.EN = false ∧ s.notes = []) ∧
    (∃ r i, Reg.info r = some i ∧ ∀ f ∈ i.fields, f.hearth = false ∧ f.ty ≠ .rws) := by
  refine ⟨⟨?_, ?_, ?_, ?_, ?_⟩, ?_, ?_, ⟨HL_STAT.reg 7, _, rfl, ?_⟩⟩ <;> decide +kernel

/-- A valid image, activated `n` times. -/
def goodImg (n : Nat) : Img :=
  ⟨true, 1, 0, 0, 20967424, true, true, n, ⟨0, 0, 8, false, 0, 1, 0xFF, 0xF, 0, true, true⟩⟩

theorem witness_PowerFailureAndBoot :
    ((run State.reset).pw.pfail = false ∧ (run State.reset).pw.life = .running ∧ (run State.reset).get PWR_STATE.STATE ≠ 2) ∧
    ((run (st [(PWR_STATE.STATE, 2)])).get PWR_STATE.STATE = 2 ∧ (run (st [(PWR_STATE.STATE, 2)])).notes = []) ∧
    ((run State.reset fun p => { p with life := .stopped }).pw.life = .stopped ∧ (run State.reset fun p => { p with life := .hold }).pw.life = .hold) ∧
    (State.reset.pw.life = .reset ∧ State.reset.notes = []) ∧
    imgOk State.reset.sec.blown (goodImg 0) = true ∧ imgOk State.reset.sec.blown { goodImg 0 with sig := false } = false ∧
    (let nor : Vector (Option Img) 2 := #v[some (goodImg 1), some (goodImg 2)];
      nor[(0 : Fin 2)] = some (goodImg 1) ∧ nor[(1 : Fin 2)] = some (goodImg 2) ∧ (goodImg 1).actSeq < (goodImg 2).actSeq ∧
      (State.reset.pw.bootCnt + 1#4).toNat % 6 = 1) := by decide +kernel

/-- A class-`cls` volume 0 of geometry 2 + 1. -/
def vol0 (cls state : Nat) : MRec := mrec [(Vol.STATE, state), (Vol.CLASS, cls), (Vol.K, 2), (Vol.M, 1), (Vol.KEY, 255), (Vol.CAP, 4096)]
/-- Run 1 of volume 0 on discs 0, 1 and 2. -/
def run1 (state : Nat) : MRec :=
  mrec [(Run.RUN, 1), (Run.K, 2), (Run.M, 1), (Run.STATE, state), (Run.VOL, 0), (Run.STRIPES, 32), (Run.DISC 0, 0), (Run.DISC 1, 1), (Run.DISC 2, 2)]
/-- A map of volume 0, four discs and run 1, whose stripe 0 holds the volume's stripe 0. -/
def map1 (cls medium runState : Nat) : List (Nat × MRec) :=
  [(0, vol0 cls 1), (discKey 0, disc 0 medium 0), (discKey 1, disc 1 medium 1), (discKey 2, disc 2 medium 4), (discKey 3, disc 3 medium 5),
    (71 * 256, run1 runState), (72 * 256, mrec [(Ext.VS, 0), (Ext.COUNT, 1), (Ext.RUN, 1), (Ext.OFS, 0)])]

/-- A read request of stripe 31, member 0, of run 1. -/
def req1 : ReadReq :=
  { ladder := false, cls := 1, run := 1, stripe := 31, need := 0, bytes := 4096, deadlineMs := none, remainMs := 0, qtimeUs := Vector.replicate 8 0 }

/-- Core 0 in policy call `a`, which has returned with a7 and a0. -/
def inCall (a : Ask) (a7 a0 : Word) (s : State := State.reset) : State :=
  { s with arm := { s.arm with plc := s.arm.plc.set 0 { s.arm.plc[(0 : Fin 4)] with call := some (a, 0), user := true, x := (s.arm.plc[(0 : Fin 4)].x.set 17 a7).set 10 a0 } } }

/-- Two members of run 1 out: `d` failed, disc 1 failed. -/
def twoOut : State := mapSt [(discKey 0, (disc 0 2 0).put Dsc.STATE 2), (discKey 1, (disc 1 2 1).put Dsc.STATE 2), (discKey 2, disc 2 2 4), (71 * 256, run1 1)]

/-- Member 0 of run 1 failed. -/
def oneOut : State := mapSt [(discKey 0, (disc 0 2 0).put Dsc.STATE 2), (discKey 1, disc 1 2 1), (discKey 2, disc 2 2 4), (71 * 256, run1 1)]
/-- Member 1 of run 1 failed. -/
def otherOut : State := mapSt [(discKey 0, disc 0 2 0), (discKey 1, (disc 1 2 1).put Dsc.STATE 2), (discKey 2, disc 2 2 4), (71 * 256, run1 1)]
/-- Discs 0 to 3 with a zone of 2^20 clusters. -/
def bigSt (s : State) : State :=
  [0, 1, 2, 3].foldl (fun (s : State) d => s.modDisc d fun x => { x with zone := Vector.replicate 4 (0, 2 ^ 20) }) s

theorem witness_PolicyDecisions :
    (asksFor (.chooseReadSource req1) (.source req1) ∧ twoOut.notes = [] ∧ askFixed (.source req1) = false ∧
      askNeeded twoOut (.source req1) = false ∧ askNeeded (mapSt (map1 1 2 1)) (.source req1) = true) ∧
    (askFixed (.source { req1 with ladder := true, cls := 4 }) = true) ∧
    (polActive (st [(GLB_POL_STAT.ACTIVE, 8)]) 4 = true ∧ polActive State.reset 4 = false ∧ polActive State.reset 3 = false) ∧
    ((defaultSpeed State.reset 7 24000 24000 0 0 0).isSome = true ∧ State.reset.isSet (BRK_STAT.CHOP_FAULT (busOf 7)) = false) ∧
    (let cur : LoadCand := ⟨4095, 5, none, 0⟩;
      defaultLoad cur [⟨7, 0, some 1, 4⟩] = some 7 ∧ exchangeMay State.reset 7 = true ∧ loadedIn State.reset 7 ≠ some 7 ∧ defaultLoad cur [] = none) := by
  refine ⟨⟨.inr (.inl ⟨_, rfl, rfl⟩), ?_⟩, ?_⟩ <;> decide +kernel

theorem source_reconstructs (s : State) (r : ReadReq) (hl : r.ladder = false) (h : (mstate s r.run r.stripe r.need != 0) = true) :
    ∃ set, defaultSource s r = .reconstruct set := ⟨setMask (bestSet s r), by simp [defaultSource, hl, h]⟩
theorem witness_PolicyDecisions_source :
    (∃ set, defaultSource oneOut req1 = .reconstruct set) ∧ polActive oneOut 2 = false ∧ polLoaded oneOut 2 = false ∧ req1.ladder = false ∧
    askNeeded oneOut (.source req1) = true ∧ defaultSource otherOut req1 = .direct ∧ askNeeded otherOut (.source req1) = true :=
  ⟨source_reconstructs _ _ rfl (by decide +kernel), by decide +kernel⟩
theorem witness_PolicyDecisions_group :
    (let s := bigSt (mapSt (map1 1 2 1));
      let k := volK s 0;
      let m := volM s 0;
      polActive s 1 = false ∧ polLoaded s 1 = false ∧ defaultGroup State.reset 1 1 3 1 = none ∧ refusing s = false ∧
      defaultGroup s ((s.arm.map.vol 0).get Vol.CLASS) 1 k m = some ([0, 1, 2], false) ∧
      (reserveAll s 1 ((List.range 3).zip [0, 1, 2]) (((((freeRec (txStart s).1.newRun k (2 ^ 48 - 1) 1).put Run.M m).put Run.STATE 1).put
        Run.VOL 0).put Run.RELAXED (if magRule s [0, 1, 2] m then 0 else 1)) (txStart s)).isSome = true) := by decide +kernel

theorem witness_PolicyCalls :
    (let s := mapSt [] (st [(GLB_POL_STAT.ACTIVE, 8)]) fun a => { a with plc := a.plc.set 3 { a.plc[(3 : Fin 4)] with queue := [.speed 7 1 0 0 0 0] } };
      s.notes = [] ∧ s.arm.plc[(3 : Fin 4)].call = none ∧ s.arm.plc[(3 : Fin 4)].queue = [.speed 7 1 0 0 0 0] ∧ polActive s 4 = true) ∧
    (State.reset.arm.plc[(3 : Fin 4)].queue = [] ∧ State.reset.arm.plc[(3 : Fin 4)].call = none) ∧
    (let s := inCall (.speed 7 1 0 0 0 0) 0#32 2#32;
      s.arm.plc[(0 : Fin 4)].call = some (.speed 7 1 0 0 0 0, 0) ∧ s.arm.plc[(0 : Fin 4)].x[(17 : Fin 32)] = 0#32 ∧
      s.arm.plc[(0 : Fin 4)].x[(10 : Fin 32)] ≠ 0#32 ∧ s.arm.plc[(0 : Fin 4)].x[(10 : Fin 32)] ≠ 1#32) ∧
    (let s := { inCall (.speed 7 1 0 0 0 0) 1#32 0#32 with us := 9999999 };
      s.arm.plc[(0 : Fin 4)].x[(17 : Fin 32)] ≠ 0#32 ∧
      7 ≤ ((List.replicate 7 0).filter fun t => decide (s.us < t + 10000000)).length) ∧
    (let s := inCall (.speed 7 1 0 0 0 0) 0#32 1#32;
      s.arm.plc[(0 : Fin 4)].x[(10 : Fin 32)] = 1#32) ∧
    (let s := inCall (.speed 7 1 0 0 0 0) 0#32 0#32;
      parseAnswer s (.speed 7 1 0 0 0 0) (plcRead s 0 (Config.polAddr 3).toNat 64) = some (.speed 0) ∧
      answerValid s s.arm.map.disc [] (.speed 7 1 0 0 0 0) (.speed 0) = true) := by decide +kernel

theorem witness_MeasurementsAndHours :
    ({ State.reset with us := 2000 }.us % 1000 = 0 ∧ { State.reset with us := 1999 }.us % 1000 ≠ 0) ∧
    (refusing State.reset = false ∧ mirOk (st [(GLB_JNL_STAT.MRAM_B, 1)]) true = true ∧ refusing (st [(GLB_JNL_STAT.STATE, jnlRefusing)]) = true) ∧
    (State.reset.arm.hours = 0) ∧
    (let s := mapSt (map1 1 2 1) State.reset fun a => { a with hours := 720 };
      s.arm.hours ≠ 0 ∧ s.arm.hours % 720 = 0 ∧ (registered s).count 3 = 1 ∧ 4 ∉ registered s) ∧
    (let s := mapSt [] State.reset fun a => { a with discs := [(4095, { loc := .unknown })] };
      (s.discInt 4095).loc = .unknown ∧ (s.discInt 0).loc ≠ .unknown) := by decide +kernel

/-- A core's register 5 and 6 hold values. -/
def core0 (x5 x6 : Word) (s : State := State.reset) : State :=
  { s with arm := { s.arm with plc := s.arm.plc.set 0 { s.arm.plc[(0 : Fin 4)] with x := (s.arm.plc[(0 : Fin 4)].x.set 5 x5).set 6 x6 } } }

/-- Pool 3 begins at 512 MiB with two buffers; its first is owned as given. -/
def poolSt (owners : List Byte) (freed : List Nat) (s : State := State.reset) : State :=
  let t := s.put (POOL_NUM.COUNT 3) 2 |>.put (POOL_BASE.BASE 3) 512 |>.put (POOL_FREE.FREE 3) 1
  { t with mem := { t.mem with pool := t.mem.pool.set 3 { t.mem.pool[(3 : Fin 4)] with owners := if owners.isEmpty then [] else [(2097152, owners)], freed := freed, next := 1 } } }

theorem witness_ForgePools :
    (State.reset.arm.plc[(0 : Fin 4)].user = false ∧ (5 : Fin 32) ≠ 0) ∧
    (let s := poolSt [] [2097152] (core0 1048576#32 1#32);
      ((List.finRange 4).find? fun p => decide ((plcX s 0 5).toNat ≤ 256 * poolUnits p)) = some 3 ∧ s.mem.pool[(3 : Fin 4)].freed = [2097152] ∧
      2097152 < 2 ^ 32 ∧ 0 < s.get (POOL_FREE.FREE 3)) ∧
    (let s := core0 1048576#32 1#32;
      poolTake 3 s = none) ∧
    (let s := core0 256#32 1#32 (st [(POOL_CFG.SPILL, 0)]);
      ((List.finRange 4).find? fun p => decide ((plcX s 0 5).toNat ≤ 256 * poolUnits p)) = some 0 ∧ (s.get POOL_CFG.SPILL).testBit 0 = false) ∧
    (let s := poolSt [2#8] [] (core0 2097152#32 1#32);
      poolOf s (plcX s 0 5).toNat = some 3 ∧ ownerByte (plcX s 0 6) ∉ ownersOf s 3 (plcX s 0 5).toNat ∧
      ownersOf s 3 (plcX s 0 5).toNat ≠ [] ∧ (ownersOf s 3 (plcX s 0 5).toNat).length < 4) ∧
    (let s := poolSt [2#8, 3#8, 4#8, 5#8] [] (core0 2097152#32 1#32);
      4 ≤ (ownersOf s 3 (plcX s 0 5).toNat).length ∧ ownerByte (plcX s 0 6) ∉ ownersOf s 3 (plcX s 0 5).toNat) ∧
    (let s := poolSt [] [] (core0 2097152#32 1#32);
      poolOf s (plcX s 0 5).toNat = some 3 ∧ ownersOf s 3 (plcX s 0 5).toNat = []) ∧
    (let s := poolSt [1#8, 2#8] [] (core0 2097152#32 1#32);
      ownerByte (plcX s 0 6) ∈ ownersOf s 3 (plcX s 0 5).toNat ∧ ownersOf s 3 (plcX s 0 5).toNat ≠ [ownerByte (plcX s 0 6)]) ∧
    (let s := poolSt [1#8] [] (core0 2097152#32 1#32);
      ownersOf s 3 (plcX s 0 5).toNat = [ownerByte (plcX s 0 6)] ∧ s.mem.badBlocks = [] ∧ s.mem.pool[(3 : Fin 4)].owners ≠ []) ∧
    (poolOf State.reset 0 = none ∧ State.reset.mem.pool[(3 : Fin 4)].owners = [] ∧ State.reset.notes = []) ∧
    (let s := inCall (.speed 7 1 0 0 0 0) 0#32 0#32;
      s.arm.plc[(0 : Fin 4)].user = true ∧ s.arm.plc[(0 : Fin 4)].call ≠ none) := by decide +kernel

theorem witness_ForgeMapAndQueues :
    ((plcX (core0 7#32 0#32) 0 5).toNat % 256 = 7 ∧ (plcX (core0 0#32 0#32) 0 5).toNat % 256 = 0) ∧
    (let s := mapSt (map1 1 2 1) (core0 1#32 3#32);
      (plcX s 0 5).toNat = 1 ∧ (plcX s 0 6).toNat < 4096 ∧ (s.arm.map.disc (plcX s 0 6).toNat).get Dsc.STATE ≠ 0 ∧ discKey (plcX s 0 6).toNat / 256 < 71 ∧
      discKey 4095 / 256 < 71) ∧
    (let s := core0 0x21000000#32 8#32;
      s.arm.plc[(0 : Fin 4)].user = false ∧ sramOk (plcX s 0 5).toNat (plcX s 0 6).toNat = true ∧
      parseEdits s.arm.map (plcX s 0 6).toNat (sramRead s (plcX s 0 5).toNat (plcX s 0 6).toNat) = none) ∧
    (let s := core0 0x21200000#32 0#32;
      sramOk (plcX s 0 5).toNat (plcX s 0 6).toNat = true ∧
      parseEdits s.arm.map (plcX s 0 6).toNat (sramRead s (plcX s 0 5).toNat (plcX s 0 6).toNat) = some [] ∧ refusing s = false) ∧
    (let s := core0 0x21200000#32 0#32 (jrnSt);
      refusing s = false ∧ s.jrn.wait1 = [] ∧ sealFits s (.map 0 []) = true ∧ s.jrn.ckptRun = false ∧ padNeed s (.map 0 []) = 0 ∧ s.jrn.next < 2 ^ 32 - 2) ∧
    (let s := core0 63#32 0x1007FFF0#32;
      queueOk s 0 (plcX s 0 5).toNat = true ∧ msgOk s 0 ((plcX s 0 6).toNat / 16 * 16) true = true ∧ s.mqGet 63 = [] ∧
      Config.mqFull 63 (s.mqGet 63).length = false) ∧
    (let s := inCall (.speed 7 1 0 0 0 0) 0#32 0#32 (core0 63#32 0x10000000#32);
      s.arm.plc[(0 : Fin 4)].user = true ∧ s.arm.plc[(0 : Fin 4)].call ≠ none ∧ (plcX s 0 5).toNat = 63 ∧ localOk 0 0x10000000 = true ∧
      pmpOk s 0 0x10000000 16 false = false) ∧
    (bits (0x00C5B50B#32) 0 7 = 0x0B ∧ bits (0x00C5B50B#32) 25 7 = 0 ∧ bits (0x00C5B50B#32) 12 3 = 3 ∧ bits (0x00C5B50B#32) 7 5 = 10 ∧
      bits (0x00C5B50B#32) 15 5 = 11 ∧ bits (0x00C5B50B#32) 20 5 = 12 ∧ bits (0x0000402B#32) 0 7 = 0x2B ∧ 4 ≤ bits (0x0000402B#32) 12 3) ∧
    (let s := { core0 63#32 0x10000000#32 with mq := [(63, [5#128])] };
      s.mqGet (plcX s 0 5).toNat = [5#128]) ∧
    (localOk 0 0x10080000 = false ∧ (64 : Nat) ≤ 64) := by decide +kernel


/-- The first record, which mirror A holds when `a` says so. -/
def rec1 (a : Bool) : JRec := { seq := 1, fin := true, body := .retire [], ofs := 0, size := 64, owner := [], onA := a, onB := false, retired := false }

theorem witness_Journal :
    (let s := jrnSt fun j => { j with wait2 := [⟨.dirty [(1, 0, 0, false)], true, []⟩] };
      s.jrn.wait2 = [⟨.dirty [(1, 0, 0, false)], true, []⟩] ∧ sealFits s (.dirty [(1, 0, 0, false)]) = true ∧ refusing s = false ∧
      padNeed s (.dirty [(1, 0, 0, false)]) = 0) ∧
    (let s := jrnSt fun j => { j with tail := 16 * 2 ^ 20 - 65536 - 64, wait1 := [⟨.dirty [(1, 0, 0, false)], true, []⟩] };
      sealFits s (.dirty [(1, 0, 0, false)]) = true ∧ padNeed s (.dirty [(1, 0, 0, false)]) ≠ 0) ∧
    (State.reset.jrn.wait1 = [] ∧ State.reset.jrn.wait2 = []) ∧
    (let s := jrnSt fun j => { j with recs := [rec1 true], next := 2 };
      mirOk s true = true ∧ s.jrn.recs = [rec1 true] ∧ s.jrn.cseq < (rec1 true).seq ∧ (rec1 true).onB = false ∧ (rec1 true).onA = true) ∧
    (let s := jrnSt fun j => { j with recs := [rec1 false], next := 2 };
      mirOk s true = true ∧ mirOk s false = true ∧ (rec1 false).onA = false) ∧
    (let s := jrnSt id [(GLB_JNL_STAT.MRAM_A, 0)];
      mirOk s false = false ∧ mirOk s true = true) ∧
    (let s := jrnSt fun j => { j with ckptRun := true, plFallDue := true };
      s.jrn.ckptRun = true ∧ s.jrn.plFallDue = true) ∧
    (let s := jrnSt fun j => { j with changed := [71] };
      s.jrn.ckptRun = false ∧ s.jrn.changed ≠ [] ∧ refusing s = false) ∧
    (let s := jrnSt id [(GLB_JNL_STAT.STATE, jnlRefusing)];
      s.jrn.ckptRun = false ∧ refusing s = true) ∧
    (let s := jrnSt fun j => { j with bcrCap := 32 };
      s.jrn.cap ≠ s.jrn.bcrCap ∧ s.jrn.recs = [] ∧ refusing s = false) ∧
    ((jrnSt).jrn.cap = (jrnSt).jrn.bcrCap ∧ (jrnSt).jrn.plFallDue = false) := by decide +kernel

/-- An open group of volume 255 with one image. -/
def group255 (closed : Bool) (placed : Option (Nat × Nat × List Nat)) : Group :=
  { vol := 255, images := [{ vs := 0, old := false, blocks := [], placed := placed }], defects := [], cmds := [], closed := closed }

theorem witness_WriteGroupsAndHeaders :
    (let s := mapSt [] State.reset fun a => { a with groups := [group255 false none] };
      s.notes = [] ∧ woGroup s (255 : Fin 256).val = some (group255 false none) ∧ (group255 false none).closed = false) ∧
    woGroup State.reset 255 = none ∧
    (let s := mapSt [] State.reset fun a => { a with groups := [group255 true (some (1, 0, []))] };
      woGroup s (255 : Fin 256).val = some (group255 true (some (1, 0, []))) ∧ (group255 true (some (1, 0, []))).closed = true ∧
      ((group255 true (some (1, 0, []))).images.all fun i => i.placed.isSome) = true ∧ refusing s = false) ∧
    ((State.reset.jrn.hdrDue.filter fun x => x.2.1 = 3) = [] ∧ (State.reset.arm.map.disc 3).get Dsc.STATE = 0) ∧
    (let s := { mapSt (map1 0 1 1) with jrn := { State.reset.jrn with hdrDue := [(1, 3, [])] } };
      (s.jrn.hdrDue.filter fun x => x.2.1 = 3) = [(1, 3, [])] ∧ (∀ y ∈ s.arm.hdrs, y.disc ≠ 3) ∧ (s.arm.map.disc 3).get Dsc.STATE = 1 ∧ hdrFull (s.arm.map.disc 3) = false) ∧
    ((st [(GLB_BOOT.MAP_SCAN, 1)]).isSet GLB_BOOT.MAP_SCAN = true ∧ (st [(GLB_BOOT.MAP_SCAN, 1)]).arm.hdrs = [] ∧ (st [(GLB_BOOT.MAP_SCAN, 0)]).isSet GLB_BOOT.MAP_SCAN = false) := by decide +kernel

/-- A committed DATA record of volume 0, LBA 0. -/
def dataRec : JRec :=
  { seq := 1, fin := true, body := .data 0 0 [7#32768], ofs := 0, size := 4224, owner := [], onA := true, onB := true, retired := false }

/-- Volume 0 of class RW with one block in the journal. -/
def destSt (f : ArmInt → ArmInt := id) (dirty : List DirtyBit := []) : State :=
  let s := jrnSt fun j => { j with recs := [dataRec], cseq := 1, next := 3 }
  mapSt (map1 1 2 1) s fun a => f { a with map := { a.map with dirty := dirty } }

/-- Run 1 of one stripe, which holds the volume's stripe 0, with its region to be resynchronised. -/
def tinySt : State :=
  mapSt ((map1 1 2 1).map fun x => if x.1 = 71 * 256 then (x.1, x.2.put Run.STRIPES 1) else x) State.reset fun a => { a with resync := [(1, 0, 0)] }
/-- The members of a row of run 1 can be written, at places all different. -/
def rowPlaces (s : State) (stripe row : Nat) : Bool :=
  let at_ (x : Nat) : Nat := mediaKey (whereIs s 1 stripe row x).1 (whereIs s 1 stripe row x).2
  (List.range 3).all fun x => writable s 1 stripe x && (List.range 3).all fun x' => at_ x != at_ x' || x == x'
/-- So can those of its one stripe. -/
def tinyPlaces (s : State) : Bool :=
  let at_ (c x : Nat) : Nat := mediaKey (whereIs s 1 0 c x).1 (whereIs s 1 0 c x).2
  decide ((s.arm.map.run 1).get Run.STRIPES = 1 ∧ (s.arm.map.run 1).get Run.K + (s.arm.map.run 1).get Run.M = 3) &&
    (List.range 16).all fun c => (List.range 3).all fun x => writable s 1 0 x && (List.range 16).all fun c' => (List.range 3).all fun x' =>
      at_ c x != at_ c' x' || decide (c = c' ∧ x = x')

theorem witness_DestagingAndResync :
    ((State.reset.arm.map.run? 1).isNone = true) ∧
    (let s := mapSt (map1 1 2 1) State.reset fun a => { a with initB := [(1, 31)] };
      (s.arm.map.run? 1).isNone = false ∧ (s.arm.map.run 1).get Run.STATE ≠ 0 ∧ isWo s ((s.arm.map.run 1).get Run.VOL) = false ∧
      initOf s 1 < (s.arm.map.run 1).get Run.STRIPES ∧
      ((runMembers (s.arm.map.run 1)).all fun j => writable s 1 (initOf s 1) j || memberErased s 1 (initOf s 1) j) = true ∧ refusing s = false ∧
      (s.arm.map.run 1).get Run.K ≤ (2 : Fin 8).val ∧ recordsOf s 1 0 15 0 = []) ∧
    (let s := destSt;
      recordsOf s 1 0 0 0 ≠ [] ∧ (0 : Fin 8).val < (s.arm.map.run 1).get Run.K ∧
      (s.arm.resync.any fun x => x.1 = 1 && x.2.1 = 0 / 16) = false ∧ rowLocked s 1 0 0 0 = false ∧ memberOut s 1 0 0 = false ∧ refusing s = false ∧
      s.jrn.cseq < s.jrn.next ∧ dirtyAsked s 1 0 0 = false ∧ dirtyWaits s 1 0 0 = false ∧ s.arm.resync = [] ∧
      (s.arm.lockWait.find? fun w => !rowLocked s w.1 w.2.1 w.2.2.1 w.2.2.2) = none) ∧
    (let s := destSt fun a => { a with resync := [(1, 0, 0)] };
      (s.arm.resync.any fun x => x.1 = 1 && x.2.1 = 0 / 16) = true ∧ s.arm.resync = (1, 0, 0) :: []) ∧
    (let s := destSt fun a => { a with locks := [(1, 0, 0, 1)] };
      rowLocked s 1 0 0 0 = true ∧ lockKey 1 0 0 0 ∉ s.arm.lockWait) ∧
    (let s := destSt id [{ run := 1, g := 0, j := 0, seq := 1 }];
      s.arm.locks = [] ∧ memberOut s 1 0 0 = false ∧ dirtySet s 1 0 0 = true ∧ s.arm.map.loss = [] ∧
      s.arm.incons.contains (1, 0, 0) = false ∧ s.arm.todo = [] ∧ rowPlaces s 0 0 = true) ∧
    (let s := tinySt;
      s.arm.resync = [(1, 0, 0)] ∧ refusing s = false ∧ s.jrn.recs = [] ∧ s.arm.todo = [] ∧ tinyPlaces s = true) ∧
    (let s := destSt fun a => { a with lockWait := [(1, 0, 0, 1)] };
      (s.arm.lockWait.find? fun w => !rowLocked s w.1 w.2.1 w.2.2.1 w.2.2.2) = some (1, 0, 0, 1)) := by decide +kernel

/-- Member 0 of run 1 under rebuild. -/
def rebuild1 (st : Nat) (chosen : Bool) : Rebuild :=
  { run := 1, j := 0, st := st, target := 3, layer := 0, first := 4096, b := 0, migrate := false, oldRun := 1, chosen := chosen, last := 32, ckpt := 0 }

/-- Run 1 with member 0 failed and under rebuild; disc 3 is free. -/
def rebSt (x : Rebuild) (free : Bool := true) (down1 : Bool := false) (locks : List (Nat × Nat × Nat × Nat) := []) : State :=
  let d1 := if down1 then (disc 1 2 1).put Dsc.STATE 2 else disc 1 2 1
  let recs := [(0, vol0 1 1), (discKey 0, (disc 0 2 0).put Dsc.STATE 2), (discKey 1, d1), (discKey 2, disc 2 2 4)] ++
    (if free then [(discKey 3, disc 3 2 5)] else []) ++ [(71 * 256, run1 1)]
  (mapSt recs State.reset fun a => { a with rebuilds := [x], locks := locks }).modDisc 3 fun d => { d with zone := Vector.replicate 4 (0, 2 ^ 20) }

def isRebuilt : Got → Bool
  | .rebuilt _ => true
  | .direct _ | .lost | .out => false

theorem witness_RebuildsAndReshapes :
    State.reset.rebuild? 1 0 = none ∧
    (let s := rebSt (rebuild1 1 true);
      s.rebuild? 1 0 = some (rebuild1 1 true) ∧ (rebuild1 1 true).chosen = true ∧ (rebuild1 1 true).st ≠ 0 ∧
      ((batchOf (rebuild1 1 true)).any fun i => s.arm.locks.any fun l => l.1 = 1 && l.2.1 = i) = false ∧ (rebuild1 1 true).migrate = false ∧
      (s.arm.map.run 1).get Run.K ≤ sourcesNow s 1 0 0 ∧ (rebuild1 1 true).b + 16 < (rebuild1 1 true).last ∧ s.arm.map.loss = [] ∧
      (rebuild1 1 true).first + 16 * (rebuild1 1 true).last ≤ 2 ^ 28 ∧
      ((runMembers (s.arm.map.run 1)).all fun x => x == 0 || (decide ((s.arm.map.run 1).get (Run.DISC x) ≠ (rebuild1 1 true).target) && (s.rebuild? 1 x).isNone)) = true ∧
      ((batchOf (rebuild1 1 true)).all fun i => (List.range 16).all fun row => isRebuilt (reconstruct s {} 1 i row 0 none)) = true) ∧
    (let s := rebSt (rebuild1 0 false) false;
      ((sortBy (discBefore s) (registered s)).filter (targetFits s (rebuild1 0 false))) = []) ∧
    (let s := rebSt (rebuild1 0 false);
      let r := rebuild1 0 false;
      s.rebuild? 1 0 = some r ∧ r.chosen = false ∧
      (((sortBy (discBefore s) (registered s)).filter (targetFits s r)).find? fun d => magRule s
        ((((runMembers (s.arm.map.run 1)).filter fun i => i != 0).map fun i => (s.arm.map.run 1).get (Run.DISC i)) ++ [d]) ((s.arm.map.run 1).get Run.M)) = some 3 ∧
      (reserve s 3 ((s.arm.map.run 1).get Run.STRIPES) (txStart s)).isSome = true) ∧
    (let s := rebSt (rebuild1 1 true) true false [(1, 15, 0, 1)];
      ((batchOf (rebuild1 1 true)).any fun i => s.arm.locks.any fun l => l.1 = 1 && l.2.1 = i) = true) ∧
    (let s := { rebSt (rebuild1 1 true) with pw := { State.reset.pw with hotOut := true } };
      sourcesNow s 1 0 0 < (s.arm.map.run 1).get Run.K ∧
      ((runMembers (s.arm.map.run 1)).any fun i => i != 0 && memberOut s 1 0 i && !memberErased s 1 0 i) = true) ∧
    (let r : Reshape := { vol := 0, k := 1, m := 1, live := 0, ckpt := 0 };
      let s := mapSt (map1 1 2 1) State.reset fun a => { a with reshapes := [r] };
      s.notes = [] ∧ (s.arm.reshapes.find? fun r => r.vol = (0 : Fin 256).val) = some r ∧
      (s.arm.rebuilds.any fun x => (s.arm.map.run x.run).get Run.VOL = 0) = false ∧ r.live + unitLbas s r < (s.arm.map.vol 0).get Vol.CAP ∧
      (∀ i < r.k, stripeMapped s r (r.live / (256 * volK s 0) + i) = false) ∧
      r.k ≤ (openRuns s 0 false).foldl (fun z x => z + (x.get Run.STRIPES - runUsed s (x.get Run.RUN))) 0) ∧
    (let r : Reshape := { vol := 0, k := 1, m := 1, live := 4096, ckpt := 0 };
      let s := mapSt (map1 1 2 1) State.reset fun a => { a with reshapes := [r] };
      (s.arm.map.vol 0).get Vol.CAP ≤ r.live) ∧
    (let s := rebSt (rebuild1 1 true);
      (s.arm.rebuilds.any fun x => (s.arm.map.run x.run).get Run.VOL = 0) = true) ∧
    (State.reset.arm.reshapes.find? fun r => r.vol = 0) = none := by decide +kernel

theorem witness_RepairAndScrub :
    State.reset.arm.todo = [] ∧
    (let s := mapSt (map1 1 2 1) State.reset fun a => { a with todo := [.repair 1 0 0 0] };
      s.arm.todo = [.repair 1 0 0 0] ∧ (s.arm.map.run? 1).isNone = false ∧ (s.rebuild? 1 0).isNone = true ∧ memberErased s 1 0 0 = false ∧
      memberOut s 1 0 0 = false ∧ isRebuilt (reconstruct s {} 1 0 0 0 none) = true ∧ Todo.repair 1 0 0 0 ∉ ([] : List Todo) ∧
      writable s 1 0 0 = true ∧ ({} : MediaEvents).bad = [] ∧ failOf {} (whereIs s 1 0 0 0).1 (whereIs s 1 0 0 0).2 = 0 ∧
      ((txStart s).1.disc (whereIs s 1 0 0 0).1).get Dsc.MEDIUM ≠ 1) ∧
    (let s := { mapSt (map1 1 2 1) with pw := { State.reset.pw with hotOut := true } };
      memberOut s 1 0 0 = true) ∧
    (State.reset.arm.map.run? 2).isNone = true ∧
    (let loss : LossEnt := ⟨1, 0, 0, 0, 1#8, 1#16, 0, 0, 0xFFFF#16⟩;
      let s := mapSt (map1 1 2 1) State.reset fun a => { a with todo := [.zero 1 0 0 0], map := { a.map with loss := [loss] } };
      s.arm.todo = [.zero 1 0 0 0] ∧ onLoss s 1 0 0 0 = true ∧ memberErased s 1 0 0 = false ∧ memberOut s 1 0 0 = false) ∧
    (((State.reset.arm.map.all pgRun).map Prod.snd).filter fun r => r.get Run.STATE != 0 && (runDiscs r).contains 3) = [] ∧
    (let s := tinySt;
      (((s.arm.map.all pgRun).map Prod.snd).filter fun r => r.get Run.STATE != 0 && (runDiscs r).contains 0) = [s.arm.map.run 1] ∧
      (s.arm.map.run 1).get Run.RUN = 1 ∧ runWritten s 1 = 1 ∧ s.arm.todo = [] ∧ tinyPlaces s = true ∧
      ∀ c < 16, ∀ x < 3, ((txStart s).1.disc (whereIs s 1 0 c x).1).get Dsc.MEDIUM ≠ 1) ∧
    engineOut State.reset 5 = false ∧
    (let s := { mapSt (map1 1 2 1) with pw := { State.reset.pw with hotOut := true } };
      engineOut s 5 = true ∧ ((registered s).filter fun d => homeOf s d == 5) = [3] ∧ discState s 3 ≠ 0 ∧ discState s 3 ≠ 2 ∧ discState s 3 ≠ 3) := by decide +kernel

/-- No defect record redirects a cluster of the target. -/
theorem witness_RebuildsAndReshapes_target (a : ClAddr) : (rebSt (rebuild1 1 true)).arm.map.redirect (rebuild1 1 true).target a = a := by
  rfl

/-- The part runs with host access: READY, bus mastering, queue 0 and 64 active. -/
def hostSt (l : List (Fld × Nat) := []) (f : Fin 65 → QInt → QInt := fun _ x => x) (q : Fin 65 := 64) : State :=
  let s := run (st ([(CQI_STAT.READY, 1), (QB_STAT.STATE 0, qActive), (QB_STAT.STATE 64, qActive), (QB_CFG.SQ_LOG2 64, 4), (QB_CFG.CQ_LOG2 64, 6),
    (QB_CFG.SQ_LOG2 0, 4), (QB_CFG.CQ_LOG2 0, 6), (QB_STAT.IDLE 64, 0)] ++ l))
  { s with cqi := { s.cqi with bme := true, msixEn := true, q := s.cqi.q.set q (f q s.cqi.q[q]) } }

theorem witness_DoorbellsAndIndexReads :
    (let s := hostSt;
      doorsOpen s = true ∧ s.get (QB_STAT.STATE 64) = qActive ∧ s.hostOpen = true ∧ s.cqi.q[(64 : Fin 65)].idx = none ∧ cqServed s 64 = true ∧
      (0#16).toNat < cqSize s 64 ∧ headPast s 64 (0#16).toNat = false ∧ cqSize s 64 ≤ (64#16).toNat ∧ headPast s 64 (63#16).toNat = true) ∧
    (let s := { hostSt with cqi := { hostSt.cqi with bme := false } };
      doorsOpen s = true ∧ cqServed s 64 = true ∧ s.hostOpen = false) ∧
    (doorsOpen (st [(CQI_STAT.RESETTING, 1)]) = false ∧ cqServed State.reset 64 = false ∧ State.reset.isSet (QB_STAT.CQ_FULL 64) = false) ∧
    (let s := hostSt [] fun _ x => { x with idx := some (some 7) };
      s.cqi.q[(64 : Fin 65)].idx = some (some 7) ∧ sqSize s 64 ≤ (16#16).toNat ∧ (15#16).toNat < sqSize s 64 ∧
      ((15#16).toNat + sqSize s 64 - s.cqi.q[(64 : Fin 65)].head) % sqSize s 64 ≠ 0) ∧
    (let s := hostSt [] fun _ x => { x with idx := some (some 7), head := 15 };
      ((15#16).toNat + sqSize s 64 - s.cqi.q[(64 : Fin 65)].head) % sqSize s 64 = 0) ∧
    (let s := hostSt [(QB_STAT.CQ_FULL 64, 1)];
      s.isSet (QB_STAT.CQ_FULL 64) = true ∧ s.hostOpen = true ∧ cqServed s 64 = true) := by decide +kernel

/-- A capsule of `len` bytes: OPC, FLAGS, LEN, then byte values by offset. -/
def capsule (opc flags len : Nat) (l : List (Nat × Nat)) : List Byte :=
  (List.range len).map fun i => BitVec.ofNat 8
    (if i = 0 then opc else if i = 1 then flags else if i = 2 then len % 256 else if i = 3 then len / 256 else ((l.find? fun x => x.1 = i).map Prod.snd).getD 0)

/-- A command with that capsule and tag 31. -/
def cmdOf (cap : List Byte) : Cmd := { tag := 31, cap := cap, origin := 0, order := 1 }

/-- Commands outstanding on a queue. -/
def withCmds (q : Fin 65) (cs : List Cmd) (s : State := hostSt) : State :=
  { s with cqi := { s.cqi with q := s.cqi.q.set q { s.cqi.q[q] with cmds := cs } } }

/-- A first and last slot: TAG 31, its capsule's OPC and a LEN of 16. -/
def slot1 (opc : Nat) : BitVec 512 := BitVec.ofNat 512 (3 + 31 * 2 ^ 8 + opc * 2 ^ 32 + 16 * 2 ^ 48)

theorem witness_SlotsAndErrors :
    State.reset.cqi.q[(64 : Fin 65)].fetch = [] ∧
    (let s := hostSt [] fun _ x => { x with fetch := [(1, 5)] };
      s.cqi.q[(64 : Fin 65)].fetch = [(1, 5)] ∧ s.cqi.q[(64 : Fin 65)].part = [] ∧ s.get (QB_STAT.STATE 64) = qActive ∧
      slotCause (s.cqi.q[(64 : Fin 65)].cmds.map Cmd.tag) [] 0#512 = some 2) ∧
    (let s := hostSt [] (fun _ x => { x with fetch := [(1, 5)] }) 0;
      s.cqi.q[q0].fetch = [(1, 5)] ∧ s.cqi.q[q0].part = [] ∧ slotCause (s.cqi.q[q0].cmds.map Cmd.tag) [] (slot1 0x14) = none ∧
      bits (slot1 0x14) 1 1 = 1 ∧ 1 ≤ bits (slot1 0x14) 32 8 ∧ bits (slot1 0x14) 32 8 ≤ 0x14) ∧
    (let s := hostSt [] fun _ x => { x with idx := some none };
      s.cqi.q[(64 : Fin 65)].idx ≠ none) ∧
    (let c := cmdOf (capsule 0x40 0 32 [(4, 1)]);
      let s := withCmds 64 [c];
      s.cmd? 64 (31 : Fin 32).val = some c ∧ c.decided = false ∧ c.interim = false ∧ capDeadline c ≠ 0 ∧ c.ponr = false ∧
      s.cqi.q[(64 : Fin 65)].due = [] ∧ cqFull s 64 = false ∧ s.hostOpen = true) ∧
    (let c : Cmd := { cmdOf (capsule 0x41 0 32 [(4, 1)]) with ponr := true };
      (withCmds 64 [c]).cmd? 64 31 = some c ∧ c.decided = false ∧ c.ponr = true ∧ capDeadline c ≠ 0) ∧
    (let c : Cmd := { cmdOf (capsule 0x41 0 32 []) with decided := true };
      (withCmds 64 [c]).cmd? 64 31 = some c ∧ c.decided = true ∧ capDeadline c = 0) ∧
    hostSt.cmd? 64 31 = none := by decide +kernel

theorem witness_QueueStates :
    (hostSt.get (QB_STAT.STATE 64) = qActive ∧ hostSt.cqi.q[(64 : Fin 65)].last = false ∧ doorsOpen hostSt = true ∧ hostSt.hostOpen = true ∧
      hostSt.cqi.q[(64 : Fin 65)].idx = none ∧ (hostSt [(QB_STAT.STATE 64, qError)]).get (QB_STAT.STATE 64) = qError ∧ (64 : Fin 65) ≠ q0 ∧ State.reset.get (QB_STAT.STATE 64) = qNone) ∧
    (let s := hostSt [(QB_STAT.STATE 64, qDisabled)];
      s.get (QB_STAT.STATE 64) = qDisabled ∧ s.isSet (QB_STAT.IDLE 64) = false) ∧
    (let s := hostSt [(QB_STAT.STATE 64, qDisabled), (QB_STAT.IDLE 64, 1)];
      s.get (QB_STAT.STATE 64) = qDisabled ∧ s.isSet (QB_STAT.IDLE 64) = true ∧ cfgOk s 64 = true ∧ s.hostOpen = true ∧
      s.cqi.q[(64 : Fin 65)].newRing = false ∧ (15#16).toNat < sqSize s 64 ∧ (0#16).toNat < cqSize s 64 ∧ headPast s 64 (0#16).toNat = false) ∧
    (let s := hostSt [(QB_STAT.STATE 0, qNone)];
      s.get (QB_STAT.STATE q0) = qNone ∧ cfgOk s q0 = true ∧ s.isSet CQI_STAT.READY = true ∧ s.hostOpen = true ∧ s.cqi.q[q0].due = [] ∧
      (15#16).toNat < sqSize s q0) ∧
    (State.reset.get (QB_STAT.STATE q0) = qNone ∧ State.reset.isSet CQI_STAT.READY = false) := by decide +kernel

theorem witness_HostFunction :
    (let s := { hostSt with cqi := { hostSt.cqi with pba := BitVec.twoPow 129 128 } };
      s.cqi.pba.getLsbD (128 : Fin 129).val = true ∧ s.cqi.msixEn = true ∧ s.cqi.fmask = false ∧ s.hostOpen = true) ∧
    (hostSt.cqi.paused = false ∧ hostSt.isSet CQI_STAT.RESETTING = false ∧ hostSt.pw.pfail = false ∧ hostSt.pw.life = .running ∧
      hostSt.cqi.pba.getLsbD 128 = false) ∧ State.reset.pw.life ≠ .running := by decide +kernel

/-- The stripe cache in a state, with partition 7 of group 15 (way 15) alone valid, and its contents changed. -/
def strcSt (state : Nat) (l : List (Fld × Nat) := []) (f : StrcInt → StrcInt := id) : State :=
  let s := st ([(STRC_STAT.STATE, state), (STRC_PART.WAYS 7, 0x8000), (STRC_PART.VALID 7, 1), (STRC_PMAP1.PART7, 7), (STRC_PART.VALID 0, 0)] ++ l)
  { s with mem := { s.mem with strc := f s.mem.strc } }

/-- A line of the stripe cache at a key. -/
def sline (key line : Nat) (dirty : Bool) : Nat × SLine := (key, ⟨line, dirty, 9#32768, 0⟩)

theorem witness_StripeCacheAccesses :
    ((strcSt strcInit).get STRC_STAT.STATE = strcInit ∧ (strcSt strcInit).notes = [] ∧ fabOn (strcSt strcInit) = true) ∧
    (fabOn (strcSt strcOn [(PWR_STATE.STATE, 2)]) = false) ∧
    (let s := strcSt strcOn [] fun c => { c with wait := [(63, 6, .read)] };
      fabOn s = true ∧ strcAhead s 63 5 = true ∧ strcAhead s 62 5 = false ∧ (63 : Nat) = 4 * (15 : Fin 16).val + (3 : Fin 4).val) ∧
    (let s := strcSt strcOn [] fun c => { c with lines := [sline (16 * setIx 5 + 15) 5 false] };
      s.get STRC_STAT.STATE ≠ strcInit ∧ lineHit s 5 = some (sline (16 * setIx 5 + 15) 5 false) ∧ strcOpen s 15 ∧ ¬ strcOpen s 0) ∧
    (let s := strcSt strcOn [] fun c => { c with lines := [sline (16 * setIx 5 + 15) 5 true] };
      lineHit s 5 = some (sline (16 * setIx 5 + 15) 5 true) ∧ ¬ strcOpen s 0 ∧ Access.whole 0 ≠ .read) ∧
    (let s := strcSt strcOn [] fun c => { c with evb := [(5, 8#32768)] };
      lineHit s 5 = none ∧ s.mem.strc.evb.find? (fun x => x.1 = 5) = some (5, 8#32768)) ∧
    (let s := strcSt strcOn [] fun c => { c with side := [(5, 8#32768)] };
      ¬ strcOpen s 0 ∧ lineHit s 5 = none ∧ (∀ x ∈ s.mem.strc.evb, x.1 ≠ 5) ∧ s.mem.strc.side.find? (fun x => x.1 = 5) = some (5, 8#32768)) ∧
    (let s := strcSt strcOn;
      ¬ strcOpen s 0 ∧ strcOpen s 15 ∧ strcLacks s 5 ∧ (∀ f ∈ s.mem.strc.fills, f.line ≠ 5) ∧ s.mem.strc.fills.length < 16 ∧
      15 ∈ waysOf s 15 ∧ (∀ l ∈ s.mem.strc.lines, l.1 ≠ 16 * setIx 5 + 15) ∧ ∀ f ∈ s.mem.strc.fills, f.way ≠ some (16 * setIx 5 + 15)) ∧
    (let s := strcSt strcOn [] fun c => { c with fills := [{ line := 5, way := some 95, wait := [(63, .read)] }] };
      s.mem.strc.fills = [{ line := 5, way := some 95, wait := [(4 * (15 : Fin 16).val + (3 : Fin 4).val, .read)] }] ∧ strcOpen s 15 ∧ lineHit s 5 = none ∧ strcQuiet s) ∧
    (let s := strcSt strcOn [] fun c => { c with fills := [{ line := 5, way := none, wait := [] }] };
      s.mem.strc.fills = [{ line := 5, way := none, wait := [] }] ∧ strcQuiet s) := by
  unfold strcOpen strcLacks strcQuiet
  and_intros <;> decide +kernel

theorem witness_StripeCacheTrafficAndStates :
    State.reset.mem.strc.evb = [] ∧
    (let s := strcSt strcOn [] fun c => { c with evb := [(5, 8#32768)] };
      s.mem.strc.evb = (5, 8#32768) :: [] ∧ strcQuiet s ∧ s.get STRC_STAT.STATE = strcOn ∧ s.mem.strc.fills.length < 16) ∧
    (State.reset.get STRC_STAT.STATE ≠ strcOn) ∧
    (¬ strcOpMay (strcSt strcDraining)) ∧ ¬ strcOpMay (strcSt strcOn [(STRC_STAT.OP_BUSY, 1)]) ∧
    (let s := strcSt strcOn [(STRC_OPA.LINE, 5), (STRC_OPL.COUNT, 1), (STRC_LOCK.WAYS, 2), (STRC_CTRL.OP_WAY, 1)] fun c => { c with lines := [sline 95 5 true] };
      strcOpMay s ∧ s.mem.strc.lines.filter (fun x => x.2.dirty && inRange s x.2.line) = [sline 95 5 true] ∧
      (s.get STRC_LOCK.WAYS).testBit (s.get STRC_CTRL.OP_WAY) = true ∧ s.get STRC_STAT.STATE = strcOn) ∧
    (let s := strcSt strcOff [(STRC_LOCK.WAYS, 2), (STRC_CTRL.OP_WAY, 1)];
      strcOpMay s ∧ (s.get STRC_LOCK.WAYS).testBit (s.get STRC_CTRL.OP_WAY) = true ∧ s.get STRC_STAT.STATE ≠ strcOn) ∧
    ((strcSt strcOn [(STRC_LOCK.WAYS, 0)]).get STRC_LOCK.WAYS).testBit ((strcSt strcOn [(STRC_LOCK.WAYS, 0)]).get STRC_CTRL.OP_WAY) = false ∧
    ((strcSt strcOn [(STRC_STAT.OP_BUSY, 1)]).isSet STRC_STAT.OP_BUSY = true ∧ (strcSt strcOn).isSet STRC_STAT.OP_BUSY = false) ∧
    (let s := strcSt strcDraining [] fun c => { c with lines := [sline 95 5 true] };
      s.get STRC_STAT.STATE = strcDraining ∧ strcQuiet s ∧ s.mem.strc.evb = [] ∧ s.mem.strc.lines = [sline 95 5 true]) ∧
    ((strcSt strcInit).get STRC_STAT.STATE = strcInit ∧ strcQuiet (strcSt strcInit)) ∧
    (let k := 16 * (63 : Fin 64).val + (15 : Fin 16).val;
      let s := strcSt strcOff [(STRC_LOCK.WAYS, 0x8000)] fun c => { c with lines := [sline k 5 false] };
      (s.get STRC_LOCK.WAYS).testBit (15 : Fin 16).val = true ∧ s.mem.strc.lines.find? (fun x => x.1 = k) = some (sline k 5 false)) ∧
    (let s := strcSt strcOff [(STRC_LOCK.WAYS, 0x8000)];
      (s.get STRC_LOCK.WAYS).testBit 15 = true ∧ (∀ x ∈ s.mem.strc.lines, x.1 ≠ 1023) ∧ (s.get STRC_LOCK.WAYS).testBit 0 = false ∧ s.get STRC_STAT.STATE = strcOff) ∧
    (let s := strcSt strcOn;
      (s.get STRC_LOCK.WAYS).testBit 15 = false ∧ s.get STRC_STAT.STATE ≠ strcOff ∧
      2 ≤ popcount 16 ((0x10003#32).toNat % 2 ^ 16) ∧
      (∀ j : Fin 8, j ≠ 6 → s.isSet (STRC_PART.VALID j.val) = true → s.get (STRC_PART.WAYS j.val) &&& (0x10003#32).toNat % 2 ^ 16 = 0) ∧
      popcount 16 ((0x10001#32).toNat % 2 ^ 16) < 2 ∧ (7 : Fin 8) ≠ 6 ∧ s.isSet (STRC_PART.VALID (7 : Fin 8).val) = true ∧
      s.get (STRC_PART.WAYS (7 : Fin 8).val) &&& (0x1C000#32).toNat % 2 ^ 16 ≠ 0) := by
  unfold strcQuiet strcOpMay
  and_intros <;> decide +kernel

/-- Requests by group. -/
def reqs (l : List (Nat × Nat)) : Vector (Option ArbReq) 16 :=
  Vector.ofFn fun g : Fin 16 => (l.find? fun x => x.1 = g.val).map fun x => { tier := x.2, c3 := false }

/-- Unmasked contestants of a state. -/
def contestants (s : State) (rs : Vector (Option ArbReq) 16) : List Nat :=
  (List.range 16).filter fun g => (rs[g]?.getD none).isSome && !(s.get ARB_STAT.MASK).testBit g

/-- The state with loss counts of group 15 and contests without a tier-4 win. -/
def arbSt (loss c4 : Nat) : State :=
  let s := st [(ARB_STAT.MASK, 0), (ARB_CFG.STARVE_LIM, 4)]
  { s with mem := { s.mem with losses := s.mem.losses.set 15 loss, sinceC4 := c4 } }

theorem witness_ArbiterContests :
    (contestants (arbSt 0 0) (reqs []) = [] ∧ (∀ g : Fin 16, ∀ r, (reqs [(15, 5), (0, 1)])[g] = some r → 1 ≤ r.tier ∧ r.tier ≤ 5)) ∧
    (contestants (arbSt 0 0) (reqs [(15, 5), (0, 1)])).filter (fun g => tierOf (reqs [(15, 5), (0, 1)]) g = 1) = [0] ∧
    (let rs := reqs [(15, 5), (0, 2)];
      let gs := contestants (arbSt 4 0) rs;
      gs.filter (fun g => tierOf rs g = 1) = [] ∧
      gs.find? (fun g => max 1 ((arbSt 4 0).get ARB_CFG.STARVE_LIM) ≤ (arbSt 4 0).mem.losses[g]?.getD 0) = some 15) ∧
    (let rs := reqs [(15, 4), (0, 2)];
      let s := arbSt 3 15;
      contestants s rs ≠ [] ∧ (contestants s rs).filter (fun g => tierOf rs g = 1) = [] ∧
      (∀ g : Fin 16, s.mem.losses[g] < max 1 (s.get ARB_CFG.STARVE_LIM)) ∧ (contestants s rs).filter (fun g => tierOf rs g = 4) ≠ [] ∧ 15 ≤ s.mem.sinceC4) ∧
    (let rs := reqs [(15, 4), (0, 2), (1, 2)];
      let s := arbSt 3 14;
      (contestants s rs).filter (fun g => tierOf rs g = 1) = [] ∧ (∀ g : Fin 16, s.mem.losses[g] < max 1 (s.get ARB_CFG.STARVE_LIM)) ∧ s.mem.sinceC4 < 15 ∧
      (∀ g ∈ contestants s rs, 2 ≤ tierOf rs g) ∧ (contestants s rs).filter (fun g => tierOf rs g = 2) ≠ []) := by decide +kernel

/-- Slot 63 holds a key; unit 0 runs a job and unit 1 has more work. -/
def cuSt (u0 : CuInt) : State :=
  { State.reset with sec := { State.reset.sec with keys := [(59, 1)], cu := #v[u0, { queue := [⟨2, 59, 100⟩] }] } }

theorem witness_SeedsCiphersAndDdr :
    (slotLoaded State.reset 59 = false ∧ fabOn State.reset = true ∧ fabOn (st [(PWR_STATE.STATE, 2)]) = false) ∧
    (let c := cmdOf (capsule 0x40 0 32 []);
      (withCmds 64 [c]).cmd? 64 31 = some c ∧ c.decided = false ∧ cqReady (withCmds 64 [c]) 64) ∧
    (let s := cuSt {};
      slotLoaded s (59#6).toNat = true ∧ ((0 : Fin 2) = 1 ↔ cuWork s.sec.cu[(1 : Fin 2)] 2 < cuWork s.sec.cu[(0 : Fin 2)] 2) ∧
      s.sec.cu[(0 : Fin 2)].run = none) ∧
    (let s := cuSt { run := some ⟨3, 59, 1⟩ };
      ((0 : Fin 2) = 1 ↔ cuWork s.sec.cu[(1 : Fin 2)] 2 < cuWork s.sec.cu[(0 : Fin 2)] 2) ∧ s.sec.cu[(0 : Fin 2)].run = some ⟨3, 59, 1⟩ ∧
      (2 : Fin 4).val < 3 ∧ (2#2).getLsbD 0 = false ∧ (1#2).getLsbD 0 = true ∧
      s.sec.cu[(0 : Fin 2)].susp = [] ∧ s.sec.cu[(0 : Fin 2)].queue = []) ∧
    (let s := cuSt { run := some ⟨0, 59, 1⟩, susp := [⟨2, 59, 1⟩], queue := [⟨2, 59, 1⟩] };
      s.sec.cu[(0 : Fin 2)].run ≠ none ∧ s.sec.cu[(0 : Fin 2)].susp = ⟨2, 59, 1⟩ :: [] ∧ (∀ j ∈ s.sec.cu[(0 : Fin 2)].queue, 2 ≤ j.prio)) ∧
    (let s := cuSt { run := some ⟨0, 59, 1⟩, susp := [⟨3, 59, 1⟩], queue := [⟨2, 59, 1⟩] };
      s.sec.cu[(0 : Fin 2)].queue = ⟨2, 59, 1⟩ :: [] ∧ ∀ r ∈ s.sec.cu[(0 : Fin 2)].susp, 2 < r.prio) ∧
    (let s := st [(GLB_DDR_STAT.STATE, 1), (GLB_DDR_CFG.CAP, 16)];
      s.get GLB_DDR_STAT.STATE = 1 ∧ 8 * (0x7FFFFFFF#31).toNat < ddrBytes s ∧ 0x7FFFFFFF#31 ≠ 0#31 ∧ rowKey (8 * (0x7FFFFFFF#31).toNat) ∉ s.mem.ceSeen ∧
      s.notes = []) ∧
    (let s := { State.reset with mem := { State.reset.mem with ceSeen := [rowKey 8], ceRows := [(rowKey 8, 2)] } };
      rowKey 8 ∈ s.mem.ceSeen ∧ Cells.get (fun _ => 0) s.mem.ceRows (rowKey 8) = 2) ∧
    State.reset.get GLB_DDR_STAT.STATE ≠ 1 ∧
    (let c := cmdOf (capsule 0x40 0 32 []);
      let s := withCmds 64 [c];
      s.cmd? 64 31 = some c ∧ c.ponr = false ∧ c.decided = false ∧ 31 < 32 ∧ s.notes = [] ∧ s.cqi.q[(64 : Fin 65)].due = [] ∧ cqFull s 64 = false ∧ s.hostOpen = true) := by
  unfold cqReady
  decide +kernel

theorem witness_RegisterFieldTypes : ∃ i f, Reg.info (HL_STAT.reg 7) = some i ∧ f ∈ i.fields ∧ 0 < f.w :=
  ⟨_, _, rfl, List.mem_cons_self .., by decide⟩

/-- The address of the last word of queue 63, for SUP. -/
def lastQueueWord : Word := BitVec.ofNat 32 (0x21000000 + 1024 * Config.mqBlock.val + 16 * 63 + 12)
theorem lastQueueWord_spec : ∃ m : Nat, m < 2048 ∧ Config.mqWindow.toNat = 0x21000000 + 1024 * m ∧ lastQueueWord.toNat = 0x21000000 + 1024 * m + 1020 := by
  unfold Config.mqWindow lastQueueWord
  generalize Config.mqBlock = x
  have h := x.isLt
  refine ⟨x.val, h, ?_, ?_⟩
  · rw [BitVec.toNat_ofNat, Nat.mod_eq_of_lt (by omega)]
  · rw [BitVec.toNat_ofNat, Nat.mod_eq_of_lt (by omega)]
theorem witness_RegisterWrites_queue : coreMay State.reset .sup lastQueueWord.toNat = true ∧ coreDest State.reset .sup lastQueueWord.toNat = .queue 63 3 ∧
    lastQueueWord.toNat % 4 = 0 ∧ Config.mqFull 63 (State.reset.mqGet 63).length = false := by
  obtain ⟨m, h, hb, hq⟩ := lastQueueWord_spec
  rw [hq]
  refine ⟨?_, ?_, by omega, rfl⟩
  · unfold coreMay
    repeat rw [if_neg (by omega)]
    rw [if_pos (by omega)]; rfl
  · have e : 0x21000000 + 1024 * m + 1020 - (0x21000000 + 1024 * m) = 1020 := Nat.add_sub_cancel_left ..
    unfold coreDest
    repeat rw [if_neg (by omega)]
    rw [if_pos (by omega), sharedDest, hb]
    rw [if_pos (by omega), e]

theorem witness_RegisterWrites :
    (reqId .sec = some 7 ∧ coreMay State.reset .sec (0x50000000#32).toNat = false ∧ inUMode State.reset .sec = false ∧ State.reset.pw.accFault.getLsbD 7 = false ∧
      storeMisaligned (0x50000000#32).toNat 0xF#4 = false ∧ State.reset.notes = []) ∧
    (storeMisaligned (0x40000102#32).toNat 0xF#4 = true ∧ storeMisaligned (0x40000101#32).toNat 0x6#4 = true) ∧
    (let s := inCall (.speed 7 1 0 0 0 0) 0#32 0#32;
      s.arm.plc[(0 : Fin 4)].user = true ∧ s.arm.plc[(0 : Fin 4)].call ≠ none ∧ storeMisaligned (0x10000000#32).toNat 0x1#4 = false ∧
      coreMay s (.plc 0) (0x10000000#32).toNat = true ∧ pmpOk s 0 (0x10000000#32).toNat (popcount 4 (0x1#4).toNat) true = false) ∧
    (coreMay State.reset .sup (0x40000102#32).toNat = true ∧ (0x40000102#32).toNat % 4 ≠ 0 ∧ (0x7#4 : BitVec 4) ≠ 0xF#4 ∧
      coreDest State.reset .sup (0x40000102#32).toNat = .reg ⟨.glb, 0, 0, 0x102⟩ ∧
      hostWriteDest (st [(GLB_SEC_STAT.DBG_LEVEL, 1)]) 0x21D8000 = .dm 7 0 ∧ hostWriteDest State.reset 0x10000000 = .msix 0) ∧
    (coreMay State.reset .sup (0x1007FFFC#32).toNat = true ∧ coreDest State.reset .sup (0x1007FFFC#32).toNat = .mem (.plc 0) 0x1007FFFC) ∧
    (let s := st [(GLB_DDR_CFG.CAP, 16), (GLB_DDRWIN.BASE 6, 112)];
      coreMay s .sup (0x80000000#32).toNat = true ∧ windowAddr s .sup (0x80000000#32).toNat = 112 * 2 ^ 27 ∧ 112 * 2 ^ 27 < ddrBytes s) ∧
    ((0x8014 : Nat) ∈ [0x1008, 0x100C, 0x4014, 0x4018, 0x500C, 0x5010, 0x6010, 0x6014, 0x7010, 0x7014, 0x7824, 0x7828, 0x8010, 0x8014]) ∧
    (0 < (st [(GLB_SEC_STAT.DBG_LEVEL, 1)]).get GLB_SEC_STAT.DBG_LEVEL ∧ State.reset.get GLB_SEC_STAT.DBG_LEVEL = 0) ∧
    ((6 : Fin 16).val < 7 ∧ (112#32).toNat % 128 ≤ 112 ∧ 112 < (113#32).toNat % 128) ∧ (0x4000FFFC % 4 = 0 ∧ 0x40005000 ≤ 0x4000FFFC ∧ 0x4000FFFC < 0x40010000) ∧
    (State.reset.cqi.q[(64 : Fin 65)].dbSq = false ∧ State.reset.cqi.q[(64 : Fin 65)].dbCq = false ∧ (1#32).toNat % 4 = 1) ∧
    ((0x18 : Nat) < 0x1C ∧ 0x18 % 4 = 0 ∧ (64 : Fin 65) ≠ q0 ∧ cfgFree hostSt q0 = false) ∧
    ((st [(SEAM_STAT.STATE 7, seamRunning)]).get (SEAM_STAT.STATE 7) ≠ seamIdle ∧ (st [(WR_STAT.STATE 7, wrArmed)]).get (WR_STAT.STATE 7) ≠ wrIdle ∧
      (st [(AX_CTRL.GEAR 3, 1)]).isSet (AX_CTRL.GEAR 3) = true) ∧
    ((1#4).getLsbD 0 = true ∧ (8#4).getLsbD 3 = true ∧ (2#4).getLsbD 1 = true ∧ (0x8000#32).getLsbD 15 = true ∧ hostSt.pw.life = .running) := by decide +kernel

/-- The number `x` in `n` bytes from byte `off` on, as byte values by offset. -/
def le (off n x : Nat) : List (Nat × Nat) := (List.range n).map fun i => (off + i, x / 256 ^ i % 256)
/-- One data descriptor of a capsule, at byte 32. -/
def sg (addr len : Nat) : List (Nat × Nat) := le 32 8 addr ++ le 40 4 len
/-- An admin command of tag 31 outstanding in a state. -/
def adm (opc flags len : Nat) (l : List (Nat × Nat)) (s : State := hostSt) : State := withCmds 0 [cmdOf (capsule opc flags len l)] s
/-- The capsule of QUEUE_CREATE. -/
def qcCap (n : Nat) : List Byte := capsule 1 0 40 ([(8, n), (9, 4), (10, 0xA8), (11, 127)] ++ le 16 8 0x1000 ++ le 24 8 0x2000 ++ le 32 8 64)

theorem witness_AdminQueuesAndSettings_queues :
    (let s := adm 7 0 16 [];
      s.notes = [] ∧ ∀ x, s.cmd? q0 (31 : Fin 32).val = some x → x.decided = true ∨ x.fin ≠ none ∨ capOpc x ≠ 1) ∧
    (adminRowOf (.volDelete 31) 8 31 ∧ adminAt (adm 8 2 16 []) 31 8 (cmdOf (capsule 8 2 16 [])) ∧ cqReady (adm 8 2 16 []) q0 ∧
      2 ≤ capFlags (cmdOf (capsule 8 2 16 []))) ∧
    (let c := cmdOf (qcCap 64);
      let s := withCmds 0 [c] (hostSt [(QB_STAT.STATE 64, qNone)]);
      adminAt s 31 0x01 c ∧ cqReady s q0 ∧ framed c 0 (capLen c == 40) [(8, 4), (16, 24)] ∧ 1 ≤ capNum c 8 1 ∧ capNum c 8 1 ≤ 64 ∧
      s.get (QB_STAT.STATE (capQueue c)) = qNone ∧ 1 ≤ capNum c 9 1 ∧ capNum c 9 1 ≤ 4 ∧ 4 ≤ capNum c 10 1 % 16 ∧ capNum c 10 1 % 16 ≤ 8 ∧
      6 ≤ capNum c 10 1 / 16 ∧ capNum c 10 1 / 16 ≤ 10 ∧ capNum c 11 1 ≤ 127 ∧ capNum c 16 8 % 4096 = 0 ∧ capNum c 24 8 % 4096 = 0 ∧ capNum c 32 8 % 64 = 0) ∧
    (let c := cmdOf (qcCap 65);
      let s := withCmds 0 [c] hostSt;
      adminAt s 31 0x01 c ∧ cqReady s q0 ∧ framed c 0 (capLen c == 40) [(8, 4), (16, 24)] ∧ 64 < capNum c 8 1) ∧
    (let c := cmdOf (capsule 2 0 16 [(8, 64)]);
      let s := withCmds 0 [c] (hostSt [(QB_STAT.STATE 64, qDisabled), (QB_STAT.IDLE 64, 1)]);
      adminAt s 31 0x02 c ∧ cqReady s q0 ∧ framed c 0 (lenTo c 16) [(8, 1)] ∧ 1 ≤ capNum c 8 1 ∧ capNum c 8 1 ≤ 64 ∧
      s.get (QB_STAT.STATE (capQueue c)) = qDisabled ∧ s.isSet (QB_STAT.IDLE (capQueue c)) = true) ∧
    (let c := cmdOf (capsule 2 0 16 [(8, 64)]);
      let s := withCmds 0 [c];
      adminAt s 31 0x02 c ∧ cqReady s q0 ∧ framed c 0 (lenTo c 16) [(8, 1)] ∧ s.get (QB_STAT.STATE (capQueue c)) ≠ qDisabled) ∧
    (let c := cmdOf (capsule 3 0 16 [(8, 64), (9, 31)]);
      let x := cmdOf (capsule 0x40 0 16 []);
      let s := withCmds 0 [c];
      adminAt s 31 0x03 c ∧ cqReady s q0 ∧ framed c 0 (lenTo c 16) [(8, 2)] ∧ 1 ≤ capNum c 8 1 ∧ capNum c 8 1 ≤ 64 ∧ s.cmd? (capQueue c) (capNum c 9 1) = none ∧
      ((withCmds 64 [{ x with ponr := true }] s).cmd? (capQueue c) (capNum c 9 1) = some { x with ponr := true }) ∧
      (adminAt (withCmds 64 [x] s) 31 0x03 c ∧ (withCmds 64 [x] s).cmd? (capQueue c) (capNum c 9 1) = some x ∧ capNum c 9 1 < 32 ∧
        cqReady (withCmds 64 [x] s) (capQueue c))) := by
  unfold adminRowOf adminAt cqReady framed
  refine ⟨?_, ⟨by simp, ?_⟩, ?_⟩
  all_goals and_intros
  all_goals decide +kernel

theorem witness_AdminQueuesAndSettings_logs :
    (let c := cmdOf (capsule 4 0 48 ([(8, 6)] ++ sg 0 32));
      adminAt (withCmds 0 [c]) 31 0x04 c ∧ cqReady (withCmds 0 [c]) q0 ∧ framed c 0 (!sgLenBad c) [(8, 1), (16, 12), (32, 480)] ∧ 5 < capNum c 8 1) ∧
    (let c := cmdOf (capsule 4 0 48 ([(8, 5)] ++ le 16 8 7 ++ le 24 4 1 ++ sg 0xFFFFFFFFFFFFFFFC 32));
      let s := withCmds 0 [c];
      adminAt s 31 0x04 c ∧ cqReady s q0 ∧ framed c 0 (!sgLenBad c) [(8, 1), (16, 12), (32, 480)] ∧ 1 ≤ capNum c 8 1 ∧ capNum c 8 1 ≤ 5 ∧
      (sgChk c (capNum c 24 4 * logSize (capNum c 8 1))).2.2 = false) ∧
    (let c := cmdOf (capsule 4 0 48 ([(8, 4)] ++ le 16 8 255 ++ le 24 4 1 ++ sg 0 64));
      let s := withCmds 0 [c];
      let es := (logEntries s (capNum c 8 1) (capNum c 16 8)).take (capNum c 24 4);
      sgAll c = [0x400000000000000000#128] ∧ es.flatten ≠ [] ∧ es.flatten.length ≤ sgLen 0x400000000000000000#128) ∧
    (let c := cmdOf (capsule 5 0 24 ([(16, 0x17), (18, 1), (20, 9)]));
      let s := withCmds 0 [c];
      adminAt s 31 0x05 c ∧ cqReady s q0 ∧ framed c 0 (lenTo c 16) [(16, 480)] ∧ settingsWalk c 120 16 = .inl (16, 0x17)) ∧
    (let c := cmdOf (capsule 5 0 24 ([(16, 0x17), (18, 1), (20, 8)]));
      let s := withCmds 0 [c];
      adminAt s 31 0x05 c ∧ cqReady s q0 ∧ framed c 0 (lenTo c 16) [(16, 480)] ∧ settingsWalk c 120 16 = .inr [(0x17, [8#8])] ∧
      refusing (withCmds 0 [c] (hostSt [(GLB_JNL_STAT.STATE, jnlRefusing)])) = true ∧
      adminAt (withCmds 0 [c] (hostSt [(GLB_JNL_STAT.STATE, jnlRefusing)])) 31 0x05 c ∧
      refusing s = false ∧ plinthMay (withCmds 0 [c] (hostSt [(GLB_JNL_STAT.MRAM_B, 1)]))) ∧
    (let c := cmdOf (capsule 6 0 48 (sg 8 4));
      let s := withCmds 0 [c] { hostSt with jrn := { hostSt.jrn with ents := [(0x17, [8#8])] } };
      adminAt s 31 0x06 c ∧ cqReady s q0 ∧ framed c 0 (!sgLenBad c) [(32, 480)] ∧ descWalk 1025 false 32 (capDescs c) c.segs = .inr [0x40000000000000008#128] ∧
      (settingsBytes s).take 4 ≠ []) := by
  unfold adminAt cqReady framed plinthMay
  and_intros
  all_goals decide +kernel

/-- Volume 255's record key and volume 255 of a class and state. -/
def vol255 (cls state : Nat) : Nat × MRec := (256 * 4 + 3, vol0 cls state)
/-- The map of `map1` with volume 255, in the running part with a command. -/
def admMap (opc flags len : Nat) (l : List (Nat × Nat)) (cls state : Nat) (f : ArmInt → ArmInt := id) (s : State := hostSt) : State :=
  adm opc flags len l (mapSt ((0, vol0 1 1) :: vol255 cls state :: (map1 1 2 1).drop 1) s f)
/-- The command of `admMap`. -/
def admC (opc flags len : Nat) (l : List (Nat × Nat)) : Cmd := cmdOf (capsule opc flags len l)
/-- VOL_CREATE of volume 255: class 1, 4 + 3, no key, the largest capacity. -/
def vcBytes : List (Nat × Nat) := [(8, 255), (9, 1), (10, 0x35), (11, 255)] ++ le 16 5 (2 ^ 37)

theorem witness_AdminVolumesAndDiscs_volumes :
    (let c := admC 7 0 21 vcBytes;
      (framed c 0 (lenTo c 21) [(8, 4), (16, 5)] ∧ capNum c 9 1 ≤ 1 ∧ kmBad (capNum c 10 1) = false ∧ (capNum c 11 1 ≤ 59 ∨ capNum c 11 1 = 0xFF) ∧
        1 ≤ capNum c 16 5 ∧ capNum c 16 5 ≤ 2 ^ 37) ∧
      (let s := adm 7 0 21 vcBytes;
        adminAt s 31 0x07 c ∧ s.notes = [] ∧ cqReady s q0 ∧ s.jrn.cseq < s.jrn.next ∧ (s.arm.map.vol (capVol c)).get Vol.STATE = 0 ∧ refusing s = false) ∧
      refusing (adm 7 0 21 vcBytes (hostSt [(GLB_JNL_STAT.STATE, jnlRefusing)])) = true ∧
      ((admMap 7 0 21 vcBytes 1 1).arm.map.vol (capVol c)).get Vol.STATE ≠ 0) ∧
    (let c := admC 8 0 16 [(8, 255)];
      framed c 0 (lenTo c 16) [(8, 1)] ∧ adminAt (admMap 8 0 16 [(8, 255)] 1 3) 31 0x08 c ∧
      ((admMap 8 0 16 [(8, 255)] 1 3).arm.map.vol (capVol c)).get Vol.STATE = 3 ∧
      (let s := withCmds 64 [admC 0x40 0 16 [(8, 255)]] (admMap 8 0 16 [(8, 255)] 1 1);
        adminAt s 31 0x08 c ∧ (s.arm.map.vol (capVol c)).get Vol.STATE = 1 ∧ refusing s = false ∧ volBusy s (capVol c) = true) ∧
      volBusy (admMap 8 0 16 [(8, 255)] 1 1) (capVol c) = false) ∧
    (let c := admC 9 0 16 [(8, 255)];
      framed c 0 (lenTo c 16) [(8, 1)] ∧
      (let s := admMap 9 0 16 [(8, 255)] 1 1;
        adminAt s 31 0x09 c ∧ refusing s = false ∧ (s.arm.map.vol (capVol c)).get Vol.STATE = 1 ∧ woGroup s (capVol c) = none) ∧
      ((admMap 9 0 16 [(8, 255)] 1 2).arm.map.vol (capVol c)).get Vol.STATE = 2 ∧ ((admMap 9 0 16 [(8, 255)] 1 0).arm.map.vol (capVol c)).get Vol.STATE = 0) ∧
    (let c := admC 10 0 16 [(8, 255), (9, 0x35)];
      framed c 0 (lenTo c 16) [(8, 2)] ∧ kmBad (capNum c 9 1) = false ∧
      (let s := admMap 10 0 16 [(8, 255), (9, 0x35)] 1 1;
        adminAt s 31 0x0A c ∧ volUp s (capVol c) = true ∧ (∀ r ∈ s.arm.reshapes, r.vol ≠ capVol c) ∧
        capNum c 9 1 ≠ volK s (capVol c) + 16 * volM s (capVol c) ∧ refusing s = false ∧ s.arm.rebuilds = []) ∧
      (let s := admMap 10 0 16 [(8, 0), (9, 0x35)] 1 1 fun a => { a with rebuilds := [rebuild1 0 true] };
        ∃ r ∈ s.arm.rebuilds, r.run ∈ volRuns s.arm.map (capVol (admC 10 0 16 [(8, 0), (9, 0x35)])))) := by
  unfold adminAt cqReady framed
  and_intros
  all_goals decide +kernel

theorem witness_AdminVolumesAndDiscs_discs :
    (let b := [(8, 3), (10, 0)];
      let c := admC 11 0 16 b;
      let s := admMap 11 0 16 b 1 1;
      framed c 0 (lenTo c 16) [(8, 1), (10, 2)] ∧ adminAt s 31 0x0B c ∧ s.jrn.cseq < s.jrn.next ∧
      (registered s).find? (fun d => (s.arm.map.disc d).get Dsc.MAG == capNum c 8 1 && (s.arm.map.disc d).get Dsc.SLOT == capNum c 10 2) = some 3) ∧
    (let b := [(8, 255), (10, 255), (11, 255)];
      let c := admC 11 0 16 b;
      let held (s : State) := (registered s).find? fun d => (s.arm.map.disc d).get Dsc.MAG == capNum c 8 1 && (s.arm.map.disc d).get Dsc.SLOT == capNum c 10 2;
      let free (s : State) := (List.range 4096).find? fun d => discState s d = 0;
      framed c 0 (lenTo c 16) [(8, 1), (10, 2)] ∧
      (let s := admMap 11 0 16 b 1 1 id (hostSt ((List.finRange 8).map fun e => (engPower e, 2)));
        mediumOk 2 3 = true ∧ mediumOk 2 4 = false ∧ mediumOk 3 3 = false ∧ adminAt s 31 0x0B c ∧ held s = none ∧ free s = some 4 ∧ homeFor s = some 2 ∧ exchangeMay s 2 = true ∧ s.get (engPower 2) = 2 ∧ refusing s = false ∧
        s.arm.rebuilds = []) ∧
      homeFor (run (admMap 11 0 16 b 1 1) fun p => { p with hotOut := true }) = none ∧
      exchangeMay (admMap 11 0 16 b 1 1 id (hostSt [(SEAM_STAT.STATE 2, seamRunning)])) 2 = false) ∧
    (let b := le 8 2 2;
      let c := admC 12 0 16 b;
      let s := admMap 12 0 16 b 1 1;
      framed c 0 (lenTo c 16) [(8, 2)] ∧ adminAt s 31 0x0C c ∧ capNum c 8 2 < 4096 ∧ discState s (capNum c 8 2) ≠ 0 ∧ discHolds s (capNum c 8 2) = true) ∧
    (let b := le 8 2 3;
      let c := admC 12 0 16 b;
      let s := admMap 12 0 16 b 1 1;
      framed c 0 (lenTo c 16) [(8, 2)] ∧ adminAt s 31 0x0C c ∧ discState s (capNum c 8 2) ≠ 0 ∧ discHolds s (capNum c 8 2) = false ∧
      (∀ e : Eng, loadedIn s e ≠ some (capNum c 8 2)) ∧ refusing s = false ∧
      (∀ x ∈ (mapSoon s).all pgDef, x.1 / 256 ≠ discKey (capNum c 8 2) / 256) ∧
      ∀ x ∈ (mapSoon s).all pgRun, x.1 / 256 ≠ discKey (capNum c 8 2) / 256) ∧
    (let b := le 8 2 3;
      let c := admC 13 1 16 b;
      let s := admMap 13 1 16 b 1 1;
      framed c 1 (lenTo c 16) [(8, 2)] ∧ adminAt s 31 0x0D c ∧ discState s (capNum c 8 2) ≠ 0 ∧ discState s (capNum c 8 2) ≠ 2 ∧ s.arm.rebuilds = []) ∧
    (let c := admC 13 1 16 (le 8 2 0);
      adminAt (adm 13 1 16 (le 8 2 0) (mapSt [(discKey 0, (disc 0 2 0).put Dsc.STATE 2)] hostSt)) 31 0x0D c ∧
      discState (adm 13 1 16 (le 8 2 0) (mapSt [(discKey 0, (disc 0 2 0).put Dsc.STATE 2)] hostSt)) (capNum c 8 2) = 2) ∧
    (let b := le 8 2 0;
      let c := admC 14 0 16 b;
      let s (n : Nat) := adm 14 0 16 b (mapSt [(discKey 0, (disc 0 2 0).put Dsc.STATE n)] hostSt);
      framed c 0 (lenTo c 16) [(8, 2)] ∧ adminAt (s 1) 31 0x0E c ∧ capNum c 8 2 < 4096 ∧ discState (s 1) (capNum c 8 2) = 1 ∧ refusing (s 1) = false ∧
      adminAt (s 5) 31 0x0E c ∧ discState (s 5) (capNum c 8 2) = 5 ∧ refusing (s 5) = false ∧ adminAt (s 2) 31 0x0E c ∧ discState (s 2) (capNum c 8 2) = 2) := by
  unfold adminAt framed
  and_intros
  all_goals decide +kernel

/-- Every disc identifier registered. -/
def fullLib : List (Nat × MRec) := (List.range 4096).map fun d => (discKey d, mrec [(Dsc.STATE, 1)])

theorem fullLib_get (k : Nat) : Cells.get (fun _ => 0#512) fullLib k = mrec [(Dsc.STATE, 1)] ∨ Cells.get (fun _ => 0#512) fullLib k = 0#512 := by
  have : ∀ l : List Nat, Cells.get (fun _ => 0#512) (l.map fun d => (discKey d, mrec [(Dsc.STATE, 1)])) k = mrec [(Dsc.STATE, 1)] ∨
      Cells.get (fun _ => 0#512) (l.map fun d => (discKey d, mrec [(Dsc.STATE, 1)])) k = 0#512 := by
    intro l; induction l with
    | nil => exact .inr rfl
    | cons d l ih => by_cases h : discKey d = k <;> simp [Cells.get, h, ih]
  exact this _

theorem fullLib_hit (d : Nat) (hd : d < 4096) : Cells.get (fun _ => 0#512) fullLib (discKey d) = mrec [(Dsc.STATE, 1)] := by
  have : ∀ l : List Nat, d ∈ l → Cells.get (fun _ => 0#512) (l.map fun d => (discKey d, mrec [(Dsc.STATE, 1)])) (discKey d) = mrec [(Dsc.STATE, 1)] := by
    intro l; induction l with
    | nil => simp
    | cons x l ih =>
      intro h
      by_cases e : discKey x = discKey d
      · simp [Cells.get, e]
      · have : d ∈ l := by
          rcases List.mem_cons.1 h with rfl | h
          · exact absurd rfl e
          · exact h
        simp [Cells.get, e, ih this]
  exact this _ (List.mem_range.2 hd)

theorem adm_disc (o f n : Nat) (l : List (Nat × Nat)) (recs : List (Nat × MRec)) (s : State) (d : Nat) :
    (adm o f n l (mapSt recs s)).arm.map.disc d = Cells.get (fun _ => 0#512) recs (discKey d) := rfl

theorem adm_discState (o f n : Nat) (l : List (Nat × Nat)) (recs : List (Nat × MRec)) (s : State) (d : Nat) :
    discState (adm o f n l (mapSt recs s)) d = MRec.get (Cells.get (fun _ => 0#512) recs (discKey d)) Dsc.STATE := rfl

theorem witness_AdminVolumesAndDiscs_full :
    let c := admC 11 0 16 [(8, 255)]
    let s := adm 11 0 16 [(8, 255)] (mapSt fullLib hostSt)
    adminAt s 31 0x0B c ∧ cqReady s q0 ∧ s.jrn.cseq < s.jrn.next ∧ framed c 0 (lenTo c 16) [(8, 1), (10, 2)] ∧
    ((registered s).find? fun d => (s.arm.map.disc d).get Dsc.MAG == capNum c 8 1 && (s.arm.map.disc d).get Dsc.SLOT == capNum c 10 2) = none ∧
    ((List.range 4096).find? fun d => discState s d = 0) = none := by
  intro c s
  refine ⟨?_, ?_, ?_, ?_, ?_, ?_⟩
  · unfold adminAt; decide +kernel
  · unfold cqReady; decide +kernel
  · decide +kernel
  · unfold framed; decide +kernel
  · refine List.find?_eq_none.2 fun d _ => ?_
    have hc : capNum c 8 1 = 255 := by decide +kernel
    have hm : (s.arm.map.disc d).get Dsc.MAG = 0 := by
      rw [adm_disc]
      rcases fullLib_get (discKey d) with h | h <;> rw [h] <;> decide +kernel
    simp [hc, hm]
  · refine List.find?_eq_none.2 fun d hd => ?_
    have hm : discState s d = 1 := by
      rw [adm_discState, fullLib_hit d (List.mem_range.1 hd)]; decide +kernel
    simp [hm]

/-- An Anvil image of one word, NOP, that starts at 0; its CRC is CRC-32C of four zero bytes. -/
def anvImage : List Byte :=
  [0x41, 0x4E, 0x56, 0x4C, 1, 0, 0, 0, 0, 0, 0, 0, 0xC7, 0x4B, 0x67, 0x48, 0, 0, 0, 0].map fun x => BitVec.ofNat 8 x
/-- A policy image of four bytes of code and one entry of core 0 at 0: no data, 1 KiB of stack. -/
def polImage (entry : Nat) : List Byte :=
  (List.range 68).map fun i => BitVec.ofNat 8 ((((le 0 4 0x59434C50 ++ le 4 4 1 ++ le 8 4 4 ++ le 20 4 1024 ++ le 24 4 entry).find? fun x => x.1 = i).map Prod.snd).getD 0)
/-- A PROGRAM_LOAD of a kind, mask and length. -/
def plBytes (kind mask len : Nat) : List (Nat × Nat) := [(8, kind), (9, mask)] ++ le 12 4 len ++ sg 0 len
/-- A CAL_RESTORE of engine 7 with one entry. -/
def crBytes : List (Nat × Nat) := [(8, 7)] ++ le 12 4 1 ++ sg 0 8

theorem witness_KeysAndPrograms_keys :
    (let b := [(8, 60)];
      framed (admC 15 0 88 b) 0 (lenTo (admC 15 0 88 b) 88) [(8, 1), (16, 72)] ∧ adminAt (adm 15 0 88 b) 31 0x0F (admC 15 0 88 b) ∧ 59 < capNum (admC 15 0 88 b) 8 1) ∧
    (let b := [(8, 59)];
      let c := admC 15 0 88 b;
      framed c 0 (lenTo c 88) [(8, 1), (16, 72)] ∧ adminAt (adm 15 0 88 b) 31 0x0F c ∧ cqReady (adm 15 0 88 b) q0 ∧ capNum c 8 1 ≤ 59 ∧
      (adm 15 0 88 b (hostSt [(GLB_SEC_STAT.DBG_LEVEL, 2)])).get GLB_SEC_STAT.DBG_LEVEL = 2 ∧ (adm 15 0 88 b).get GLB_SEC_STAT.DBG_LEVEL ≠ 2 ∧
      refusing (adm 15 0 88 b (hostSt [(GLB_JNL_STAT.STATE, jnlRefusing)])) = true ∧ refusing (adm 15 0 88 b) = false ∧
      plinthMay (adm 15 0 88 b (hostSt [(GLB_JNL_STAT.MRAM_A, 1)]))) ∧
    (let b := [(8, 59)];
      let c := admC 16 0 16 b;
      let old : Cmd := { admC 0x40 0 16 [(8, 255)] with key := some 1 };
      let s := withCmds 64 [old] (adm 16 0 16 b (mapSt [(256 * 4 + 3, (vol0 1 1).put Vol.KEY 59)] hostSt));
      framed c 0 (lenTo c 16) [(8, 1)] ∧ adminAt s 31 0x10 c ∧ capNum c 8 1 ≤ 59 ∧ slotBusy s (capNum c 8 1) = true) ∧
    (let b := [(8, 59)];
      let s := adm 16 0 16 b (hostSt [(GLB_JNL_STAT.MRAM_A, 1)]);
      adminAt s 31 0x10 (admC 16 0 16 b) ∧ cqReady s q0 ∧ slotBusy s (capNum (admC 16 0 16 b) 8 1) = false ∧ refusing s = false ∧ plinthMay s) := by
  unfold adminAt cqReady framed plinthMay
  and_intros
  all_goals decide +kernel

theorem witness_KeysAndPrograms_programs :
    (let b := plBytes 1 0 68;
      let c := admC 17 0 48 b;
      framed c 1 (sgLenOk c (capNum c 12 4)) [(8, 2), (12, 4), (32, 480)] ∧ (sgChk c (capNum c 12 4)).2.2 = false ∧ adminAt (adm 17 0 48 b) 31 0x11 c ∧ cqReady (adm 17 0 48 b) q0 ∧
      capNum c 8 1 = 1 ∧ ([] : List Byte).length ≠ capNum c 12 4 ∧ (polImage 4).length = capNum c 12 4 ∧ polImageBad (polImage 4) = some 4 ∧ polImageBad (polImage 2) = none ∧
      polImage 2 ≠ [] ∧ ∀ k : Fin 4, (adm 17 0 48 b).arm.plc[k].call = none) ∧
    (let b := plBytes 0 0x80 20;
      let c := admC 17 0 48 b;
      let s := adm 17 0 48 b (hostSt [(engPower 7, 2)]);
      framed c 1 (sgLenOk c (capNum c 12 4)) [(8, 2), (12, 4), (32, 480)] ∧ (sgChk c (capNum c 12 4)).2.2 = false ∧ adminAt s 31 0x11 c ∧ cqReady s q0 ∧
      capNum c 8 1 = 0 ∧ maskEngs (capNum c 9 1) = [7] ∧ engFitted s 7 = true ∧ s.get (engPower 7) = 2 ∧ s.isSet (ANV_STAT.SW_PEND 7) = false ∧ capFlags c = 0 ∧
      anvImage.length = capNum c 12 4 ∧ anvImageBad anvImage = none ∧ (0#8 :: anvImage.tail).length = capNum c 12 4 ∧ anvImageBad (0#8 :: anvImage.tail) = some 1) ∧
    (let b := [(8, 2), (9, 0x80)];
      let c := admC 17 0 32 b;
      let s := adm 17 0 32 b (hostSt [(engPower 7, 2)]);
      framed c 1 (sgLenOk c (capNum c 12 4)) [(8, 2), (12, 4), (32, 480)] ∧ (sgChk c (capNum c 12 4)).2.2 = false ∧ adminAt s 31 0x11 c ∧ cqReady s q0 ∧
      capNum c 8 1 = 2 ∧ capNum c 12 4 = 0 ∧ maskEngs (capNum c 9 1) = [7]) ∧
    (let c := admC 18 0 48 crBytes;
      let s := adm 18 0 48 crBytes (hostSt [(engPower 7, 2)]);
      framed c 0 (sgLenOk c (8 * capNum c 12 4)) [(8, 1), (12, 4), (32, 480)] ∧ (sgChk c (8 * capNum c 12 4)).2.2 = false ∧ adminAt s 31 0x12 c ∧ cqReady s q0 ∧
      capNum c 8 1 = (7 : Eng).val ∧ engFitted s 7 = true ∧ ([] : List (Word × Word)).length ≠ capNum c 12 4 ∧
      [((0x2018#32 : Word), 5#32)].length = capNum c 12 4 ∧ s.get (engPower 7) = 2 ∧ s.get (TMP_STAT.STATE 7) = tmpIdle ∧ writing s 7 = false ∧
      (let r := engReg 7 (0x2018#32 : Word).toNat; r.blk = .ch ∧ r.k = (0 : Chn).val ∧ r ≠ AGC_GAIN.reg 7 0 ∧ r ≠ RED.reg 7 0) ∧
      (hostSt [(engPower 7, 2), (TMP_STAT.STATE 7, tmpCalib)]).get (TMP_STAT.STATE 7) ≠ tmpIdle ∧ calHas 7 0x2018#32 = true ∧ calHas 7 0x2000#32 = false) := by
  unfold adminAt cqReady framed
  and_intros
  all_goals decide +kernel

/-- Staged image and hand of the activation, with an FW_ACTIVATE of tag 31 that has begun. -/
def actSt (n : Nat) (s : State := hostSt) : State :=
  let s := withCmds 0 [{ admC 20 0 16 [] with running := true }] s
  { s with sec := { s.sec with staged := some (goodImg 0), hand := some (31, n) } }

theorem witness_FirmwareUpdates :
    (let b := le 16 4 0x3FF000 ++ le 20 4 (20 * 2 ^ 20) ++ sg 0 (4 * 2 ^ 20);
      ∀ f : Fin 2, (let c := admC 19 f.val 48 b;
        let s := adm 19 f.val 48 b;
        cqReady s q0 ∧ adminAt s 31 0x13 c ∧ framed c 1 (!sgLenBad c) [(16, 8), (32, 480)] ∧ s.sec.hand = none ∧
        descWalk 1025 false 32 (capDescs c) c.segs = .inr [0x4000000000000000000000#128] ∧ sgLen 0x4000000000000000000000#128 = 4 * 2 ^ 20 ∧
        capNum c 16 4 % 4096 = 0 ∧ capNum c 16 4 + 4 * 2 ^ 20 ≤ capNum c 20 4 ∧ capNum c 20 4 ≤ 20 * 2 ^ 20 ∧ capFlags c = f.val ∧
        stageBad s { goodImg 0 with hash := false } = some 2 ∧ stageBad s (goodImg 0) = none)) ∧
    (let s := { adm 19 0 16 [] with sec := { State.reset.sec with hand := some (0, 0) } };
      cqReady s q0 ∧ adminAt s 31 0x13 (admC 19 0 16 []) ∧ s.sec.hand ≠ none) ∧
    (let s := { adm 20 0 16 [] with sec := { State.reset.sec with hand := some (0, 0) } };
      adminAt s 31 0x14 (admC 20 0 16 []) ∧ s.sec.hand ≠ none) ∧
    (let s := adm 20 0 16 [];
      cqReady s q0 ∧ adminAt s 31 0x14 (admC 20 0 16 []) ∧ s.sec.hand = none ∧ s.sec.staged = none) ∧
    (let s := { adm 20 0 16 [] with sec := { State.reset.sec with staged := some (goodImg 0) } };
      adminAt s 31 0x14 (admC 20 0 16 []) ∧ framed (admC 20 0 16 []) 0 (lenTo (admC 20 0 16 []) 16) [] ∧ s.sec.hand = none ∧ s.sec.staged ≠ none) ∧
    ((actSt 14).sec.hand = some (31, 14) ∧ (actSt 14).sec.staged = some (goodImg 0) ∧ (∀ k : Fin 4, 14 = 8 + k.val → (actSt 14).arm.plc[k].call = none)) ∧
    ((actSt 11 (inCall (.speed 7 1 0 0 0 0) 0#32 0#32)).sec.hand = some (31, 11) ∧ (actSt 11 (inCall (.speed 7 1 0 0 0 0) 0#32 0#32)).sec.staged = some (goodImg 0)) ∧
    (let s := actSt 15;
      let x : Cmd := { admC 20 0 16 [] with running := true };
      s.sec.hand = some (31, 15) ∧ cqReady s q0 ∧ s.cmd? q0 31 = some x ∧ x.running = true ∧ x.decided = false ∧ x.ponr = false ∧ capOpc x = 0x14) ∧
    ((actSt 15).notes = [] ∧ (actSt 14).pw.pfail = false ∧ (actSt 14).pw.life = .running ∧
      (actSt 8 (inCall (.speed 7 1 0 0 0 0) 0#32 0#32)).arm.plc[(0 : Fin 4)].call ≠ none) := by
  unfold adminAt cqReady framed
  and_intros
  all_goals decide +kernel

/-- A command of tag 31 and an I/O opcode: volume, first LBA, blocks, one descriptor of `len` bytes where `len` is not 0. -/
def ioC (opc flags v lba n len : Nat) : Cmd :=
  admC opc flags (if len = 0 then 32 else 48) ([(8, v)] ++ le 12 4 n ++ le 16 8 lba ++ if len = 0 then [] else sg 0x1000 len)
/-- The map of `map1` in the running part, with a command on queue 64, and with the parts of Armature and the journal changed. -/
def ioMap (c : Cmd) (f : ArmInt → ArmInt := id) (j : JrnInt → JrnInt := id) (cls : Nat := 1) (l : List (Fld × Nat) := []) : State :=
  let s := withCmds 64 [c] (mapSt (map1 cls 2 1) (hostSt l) f)
  { s with jrn := j s.jrn }
/-- A loss entry of member 0, row 0, of the first two stripes of run 1. -/
def loss1 (blocks : BitVec 16) : LossEnt :=
  { run := 1, sFirst := 0, sLast := 1, vol := 0, members := 1, rows := 1, seq := 1, reason := 1, blocks := blocks }
/-- Loss entries and members failed, in Armature. -/
def withLoss (xs : List LossEnt) (a : ArmInt) : ArmInt := { a with map := { a.map with loss := xs } }
/-- Disc `d` in a STATE. -/
def withDisc (d n : Nat) (a : ArmInt) : ArmInt := { a with map := a.map.setRec (discKey d) ((a.map.disc d).put Dsc.STATE n) }
/-- The descriptor of one block. -/
def sg1 : BitVec 128 := 0x10000000000000001000#128

def Got.isDirect : Got → Bool
  | .direct _ => true
  | .rebuilt _ | .lost | .out => false
theorem direct_of (g : Got) (h : Got.isDirect g = true) : ∃ w, g = .direct w := by cases g <;> first | exact ⟨_, rfl⟩ | cases h
theorem rebuilt_of (g : Got) (h : isRebuilt g = true) : ∃ w, g = .rebuilt w := by cases g <;> first | exact ⟨_, rfl⟩ | cases h

theorem witness_ReadsAndVerifies :
    (let c := ioC 0x40 0 0 512 2 8192;
      let s := ioMap c;
      s.notes = [] ∧ ioAt s 64 31 opRead c ∧ descsOf c (capNlb c * 4096) = .inr [0x20000000000000001000#128] ∧ cqReady s 64 ∧
      (∀ i, i < capNlb c → srcOf s false (capVol c) (capSlba c + i) = .unwritten) ∧ ∀ x, s.cmd? 64 31 = some x → capOpc x ≠ opWrite) ∧
    (let c := ioC 0x40 0 0 0 1 4096;
      descsOf c (capNlb c * 4096) = .inr [sg1] ∧ capNlb c = 1 ∧ c.key = none ∧
      (let s := ioMap c (withLoss [loss1 1]);
        ioAt s 64 31 opRead c ∧ cqReady s 64 ∧ ∀ i, i < capNlb c → srcOf s false (capVol c) (capSlba c + i) = .gone) ∧
      (let s := ioMap c (withLoss [loss1 1]) fun j => { j with recs := [dataRec] };
        ioAt s 64 31 opRead c ∧ cqReady s 64 ∧ srcOf s false (capVol c) (capSlba c) = .journal 7#32768 ∧ (7#32768 : Block) ≠ 0#32768 ∧
        ioAt (withCmds 64 [{ c with key := some 1 }] s) 64 31 opRead { c with key := some 1 }) ∧
      (let s := ioMap c;
        ioAt s 64 31 opRead c ∧ cqReady s 64 ∧ srcOf s false (capVol c) (capSlba c) = .media ⟨1, 0, 0, 0, 0⟩ ∧
        Got.isDirect (fetchCl s {} false (spotKey ⟨1, 0, 0, 0, 0⟩)) = true) ∧
      (let s := ioMap c (withDisc 0 2);
        ioAt s 64 31 opRead c ∧ cqReady s 64 ∧ srcOf s false (capVol c) (capSlba c) = .media ⟨1, 0, 0, 0, 0⟩ ∧
        isRebuilt (fetchCl s {} false (spotKey ⟨1, 0, 0, 0, 0⟩)) = true) ∧
      (let s := ioMap c fun a => { withDisc 0 2 a with incons := [(1, 0, 0)] };
        ioAt s 64 31 opRead c ∧ cqReady s 64 ∧ srcOf s false (capVol c) (capSlba c) = .media ⟨1, 0, 0, 0, 0⟩ ∧
        fetchCl s {} false (spotKey ⟨1, 0, 0, 0, 0⟩) = .out) ∧
      (let s := { ioMap c with cqi := { (ioMap c).cqi with bme := false } };
        ioAt s 64 31 opRead c ∧ s.hostOpen = false)) ∧
    (let c := ioC 0x42 0 0 0 1 0;
      let s := ioMap c (withLoss [loss1 1]);
      ioAt s 64 31 opVerify c ∧ cqReady s 64 ∧ undestaged s (capVol c) (capSlba c) (capNlb c) s.jrn.next = [] ∧ 1 ≤ capNlb c ∧
      ∀ i, i < capNlb c → srcOf s true (capVol c) (capSlba c + i) = .gone) ∧
    (let c := ioC 0x42 0 0 512 2 0;
      let s := ioMap c;
      ioAt s 64 31 opVerify c ∧ cqReady s 64 ∧ undestaged s (capVol c) (capSlba c) (capNlb c) s.jrn.next = [] ∧
      ∀ i, i < capNlb c → srcOf s true (capVol c) (capSlba c + i) = .unwritten) := by
  unfold ioAt cqReady
  and_intros
  all_goals decide +kernel

theorem loss_full (ps : List Spot250) (x : LossEnt) (s : State) (n : Nat) (hl : s.arm.map.loss = List.replicate n x) (hn : 7282 ≤ n)
    (hx : (lossAfter ps [x] != [x] && !(lossAfter ps [x]).isEmpty) = true) : lossRoom s ps = false := by
  have : ((List.replicate n x).filter fun x => lossAfter ps [x] != [x] && !(lossAfter ps [x]).isEmpty) = List.replicate n x :=
    List.filter_eq_self.2 fun y hy => by rw [List.eq_of_mem_replicate hy]; exact hx
  unfold lossRoom
  simp only [hl, this, List.length_replicate]
  cases n with
  | zero => omega
  | succ n => simp [List.replicate_succ]; omega

theorem witness_WritesAndFlushes_fullLossList :
    let c := ioC 0x41 0 0 0 1 4096
    let s := ioMap c (withLoss (List.replicate 7282 (loss1 1)))
    ioAt s 64 31 opWrite c ∧ cqReady s 64 ∧ [0#32768].length = capNlb c ∧ (s.arm.map.vol (capVol c)).get Vol.STATE = 1 ∧ lossRoom s (writeSpots s c) = false := by
  intro c s
  refine ⟨?_, ?_, ?_, ?_, ?_⟩
  · unfold ioAt; decide +kernel
  · unfold cqReady; decide +kernel
  · decide +kernel
  · decide +kernel
  · have hp : writeSpots s c = [⟨1, 0, 0, 0, 0⟩] := by decide +kernel
    rw [hp]
    exact loss_full _ (loss1 1) s 7282 rfl (Nat.le_refl _) (by decide +kernel)

theorem witness_WritesAndFlushes :
    (let c := ioC 0x41 0 0 512 2 8192;
      ([] : List Block).length ≠ capNlb c ∧ ioAt (ioMap c) 64 31 opWrite c ∧ [0#32768, 1#32768].length = capNlb c) ∧
    (let c := ioC 0x41 0 255 0 1 4096;
      let s (n : Nat) := withCmds 64 [c] (mapSt [vol255 1 n] hostSt);
      ioAt (s 2) 64 31 opWrite c ∧ cqReady (s 2) 64 ∧ ((s 2).arm.map.vol (capVol c)).get Vol.STATE = 2 ∧
      ioAt (s 3) 64 31 opWrite c ∧ cqReady (s 3) 64 ∧ ((s 3).arm.map.vol (capVol c)).get Vol.STATE = 3) ∧
    (let c := ioC 0x41 0 0 0 1 4096;
      let ok (s : State) := ioAt s 64 31 opWrite c ∧ cqReady s 64 ∧ [0#32768].length = capNlb c ∧ (s.arm.map.vol (capVol c)).get Vol.STATE = 1 ∧
        lossRoom s (writeSpots s c) = true ∧ isWo s (capVol c) = false;
      let b : JBody := .data (capVol c) (capSlba c) ((List.range 1).map fun i => cipherOf c.key (capSlba c + i) ([0#32768][i]?.getD 0#32768));
      (ok (ioMap c id id 1 [(GLB_JNL_STAT.STATE, jnlRefusing)]) ∧ refusing (ioMap c id id 1 [(GLB_JNL_STAT.STATE, jnlRefusing)]) = true) ∧
      (let s := ioMap c id fun j => { j with wait1 := [{ body := .dirty [], fin := true, owner := [] }] };
        ok s ∧ refusing s = false ∧ s.jrn.wait1 ≠ []) ∧
      (let s := ioMap c id fun j => { j with cap := 16 };
        ok s ∧ refusing s = false ∧ s.jrn.wait1 = [] ∧ s.arm.resync = [] ∧ stripesNeeded s c false = 0 ∧ stripesNeeded s c true = 0 ∧
        1 ≤ capNlb c ∧ capNlb c ≤ 32 ∧ s.jrn.cseq < s.jrn.next ∧ sealFits s b = true) ∧
      (let s := ioMap c;
        ok s ∧ refusing s = false ∧ s.jrn.wait1 = [] ∧ s.arm.resync = [] ∧ stripesNeeded s c false = 0 ∧ stripesNeeded s c true = 0 ∧
        s.jrn.cseq < s.jrn.next ∧ sealFits s b = false)) ∧
    (let c := { ioC 0x43 0 0 0 0 0 with order := 2 };
      let w := { ioC 0x41 0 0 0 1 4096 with tag := 0 };
      (let s := ioMap c;
        ioAt s 64 31 opFlush c ∧ capFlags c = 0 ∧ capVol c ≠ 0xFF ∧ cqReady s 64 ∧ writesBefore s c (capVol c) = [] ∧ ownedBy s (64, 31) = false ∧
        isWo s (capVol c) = false) ∧
      (let s := withCmds 64 [c, w] (ioMap c);
        ioAt s 64 31 opFlush c ∧ cqReady s 64 ∧ writesBefore s c (capVol c) ≠ [] ∧ isWo s (capVol c) = false) ∧
      (let s := withCmds 64 [c, w] (ioMap c id id 0);
        ioAt s 64 31 opFlush c ∧ cqReady s 64 ∧ (∃ x ∈ writesBefore s c (capVol c), x.ponr = false) ∧ isWo s (capVol c) = true) ∧
      (woGroup (ioMap c id id 0) (capVol c) = none ∧ ioAt (ioMap c id id 0) 64 31 opFlush c)) ∧
    (let c := ioC 0x43 1 0 0 0 0;
      let s := ioMap c;
      ioAt s 64 31 opFlush c ∧ capFlags c = 1 ∧ capVol c ≠ 0xFF ∧ cqReady s 64 ∧ isWo s (capVol c) = false ∧ ownedBy s (64, 31) = false ∧ s.jrn.recs = []) := by
  unfold ioAt cqReady
  and_intros
  all_goals decide +kernel

/-! ### States with commands waiting, and the invariant -/

theorem witness_StepRunsTheFrontCommand : { State.reset with pending := [.anvNop 7, .anvNop 0] }.pending = .anvNop 7 :: [.anvNop 0] := rfl

theorem witness_IdleStepPassesAMicrosecond : State.reset.pending = [] ∧ (State.reset.pw.life = .reset → State.reset.pw.xtalFail = false) := by decide

theorem witness_EveryCommandCompletesWithinItsParts : Part.axes ∉ touches (.anvNop 7) ∧ engineOf (.anvNop 7) = some 7 ∧ (0 : Eng) ≠ 7 := by decide

theorem witness_StepKeepsInv : State.reset.Inv ∧ step State.reset = .next (idleTick State.reset) := ⟨by constructor <;> decide, rfl⟩

theorem witness_StepKeepsFusesAndTakesOneCommand : State.reset.notes = [] ∧ step State.reset = .next (idleTick State.reset) := ⟨rfl, rfl⟩

/-! ### Ill-formed operands, each refused by its check -/

theorem illformed_codeword : errorsWf 62 [61, 61] = false ∧ errorsWf 62 [62] = false ∧ errorsWf 62 [61, 0] = true := by decide
theorem illformed_cluster : Instr.wf (.clusterDecoded 7 4 { cleanDecode with bis := [] }) = false ∧
    Instr.wf (.stitchDecoded 7 { cleanDecode with ldc := List.replicate 303 [] }) = false ∧
    Instr.wf (.replayPassDone 7 { cleanDecode with ldc := List.replicate 304 [248] }) = false ∧ Instr.wf (.clusterDecoded 7 4 cleanDecode) = true := by
  decide +kernel
theorem illformed_contest : Instr.wf (.arbiterContest (reqs [(15, 6)])) = false ∧ Instr.wf (.arbiterContest (reqs [(15, 0)])) = false ∧
    ArbReq.wf ⟨2, true⟩ = false := by decide
theorem illformed_mediaEvents : Instr.wf (.scrub 0 ⟨[(4096, clAt 0 0)], [], []⟩) = false ∧ Instr.wf (.resync ⟨[], [(0, clAt 0 0, 0)], []⟩) = false := by decide
theorem illformed_candidate : Instr.wf (.chooseLoad 7 ⟨0, 5, none, 0⟩ [⟨1, 6, none, 0⟩]) = false := by decide
theorem illformed_disc : Instr.wf (.mediaLoad 31 (.disc 0 0 0 (Vector.replicate 4 (0, 0)) (Vector.replicate 4 0) (Vector.replicate 4 0))) = false ∧
    Instr.wf (.mediaLoad 31 (.disc 0 5 0 (Vector.replicate 4 (0, 0)) (Vector.replicate 4 0) (Vector.replicate 4 0))) = false := by decide
theorem illformed_frames : Instr.wf (.laneFrameReceived 7 3 0 [] 0 0) = false ∧ Instr.wf (.servoSetReceived 7 (List.replicate 5 (0, false)) 0) = false := by decide
theorem illformed_slots : Instr.wf (.slotFetchDone 64 [] [] 0 0) = false ∧ Instr.wf (.write 64 31 [] {}) = false := by decide

/-! ### The spec's worked examples, and small steps -/

/-- The state after a step with one command waiting. -/
def after (i : Instr) (s : State) : State :=
  match step { s with pending := [i] } with
  | .next t => t
  | .fault _ | .refused _ => s

/-- No row of the table has a word. -/
theorem test_no_words : decodeTableWord 32 0x00C5B50B = none ∧ State.reset.withFetchWord 32 0x00C5B50B = State.reset := ⟨rfl, rfl⟩
/-- Worked example of 00: GLB_ID reads 0xC8321000. -/
theorem test_part_id : State.reset.rd GLB_ID.reg = 0xC8321000#32 := by decide +kernel
/-- Worked example of 02: the fields of HL_STAT = 0x9E3. -/
theorem test_link_status : (let s := State.reset.wr (HL_STAT.reg 3) 0x9E3#32;
    [s.get (HL_STAT.STATE 3), s.get (HL_STAT.ACTIVE_MASK 3), s.get (HL_STAT.CLK_LANE 3), s.get (HL_STAT.SPARE_STREAM 3), s.get (HL_STAT.RATE_CAP 3)]) = [3, 0xE, 1, 0, 1] := by
  decide +kernel
/-- Worked example of 07: MPY of Ki in block 4 (X4 = -8) by e in block 2 gives AE = -8 and a = 3,221,225 x 2^15. -/
theorem test_mpy : accOf (after (.anvMpy 7 1 0x200#12 0x100#12)
    ((anvSt [(ANV_X.X 7 4, 24)]).modAnv 7 fun a => { a with dm := [(0x100, 0x200000#24), (0x200, 0x3126E9#24)] })) 7 1 = ⟨3221225 * 2 ^ 15, -8⟩ := by decide +kernel
/-- Worked example of 07: INT of that accumulator adds 3,146 to a word of block 2. -/
theorem test_int : dmGet (after (.anvInt 7 1 0x101#12 7)
    ((anvSt []).modAnv 7 fun a => { a with dm := [(0x101, 1#24)], acc := a.acc.set 1 ⟨3221225 * 2 ^ 15, -8⟩ })) 7 0x101 = 3147#24 := by decide +kernel
/-- Worked example of 08: the position of a sled recovered from an address; LOAD follows. -/
theorem test_sled_recovers : sledAt (st [(SLG_MPT.MPT 6 0, 35791)]) 6 45124700 35000 = 39406 := by decide +kernel
/-- Worked example of 10: LBA 1,000,000 of volume 4 (k = 5) lies at stripe 121, member 1, blocks of cluster 4. -/
theorem test_lba : resolve (mapSt [(4, mrec [(Vol.STATE, 1), (Vol.CLASS, 1), (Vol.K, 5), (Vol.M, 2)]), (71 * 256, mrec [(Run.RUN, 0x31), (Run.K, 5), (Run.M, 2), (Run.STATE, 1), (Run.VOL, 4)]),
      (72 * 256, mrec [(Ext.VS, 700), (Ext.COUNT, 200), (Ext.RUN, 0x31), (Ext.OFS, 40)])]) 4 1000000 = some ⟨0x31, 121, 1, 4, 0⟩ := by decide +kernel
/-- Worked example of 10: the default speed of an engine that reads 90,000 kB/s is 6,000 rpm. -/
theorem test_speed : defaultSpeed (st [(SPN_SPD.TARGET 2, 10000)]) 2 38000 42250 90000 40 100 = some 6000 := by decide +kernel
/-- The Forge word of GFMAC8 x10, x11, x12, and the same word with funct7 = 1 (R271). -/
theorem test_forge_word : forgeDecode 0 0x00C5B50B#32 = some (some (.gfmac8 0 10 11 12)) ∧ forgeDecode 0 0x02C5B50B#32 = some none := by decide +kernel
/-- Worked example of 10: GFMAC8 of 0, 0x0003_0080 and 0x0003_0002. -/
theorem test_gfmac8 : (after (.gfmac8 0 7 5 6) (core0 0x00030080#32 0x00030002#32)).arm.plc[(0 : Fin 4)].x[(7 : Fin 32)] = 0x0005001D#32 := by decide +kernel
/-- Worked example of 11: the coefficients of parity row 1 and P1. -/
theorem test_parity : [coef 1 0, coef 1 1, coef 1 2] = [0x8F#8, 0xA6#8, 0x46#8] ∧
    gfMul 0x1D#8 0x8F#8 0x12#8 ^^^ gfMul 0x1D#8 0xA6#8 0x34#8 ^^^ gfMul 0x1D#8 0x46#8 0x56#8 = 0xBF#8 := by decide +kernel
/-- Worked example of 12: a DATA record of 32 blocks takes 131,136 bytes. -/
theorem test_record_size : (JBody.data 0 0 (List.replicate 32 0#32768)).size = 131136 := by decide +kernel
/-- Worked example of 15: the first contest draws 0x2000_0000 and 0x4000_0000 and grants group 10. -/
theorem test_contest : (let rs : Vector (Option ArbReq) 16 := Vector.ofFn fun g => if g = 8 ∨ g = 9 then some ⟨3, true⟩ else if g = 10 then some ⟨3, false⟩ else none;
    let s := after (.arbiterContest rs) (st [(ARB_STAT.MASK, 0), (ARB_SEED.LFSR, 0x10000000)]);
    (s.get ARB_SEED.LFSR, s.mem.losses.toList)) = (0x40000000, [0, 0, 0, 0, 0, 0, 0, 0, 1, 1, 0, 0, 0, 0, 0, 0]) := by decide +kernel
/-- CRC-32C of the nine digits (the published check value of the polynomial R8 names). -/
theorem test_crc32c : crc32c ([0x31, 0x32, 0x33, 0x34, 0x35, 0x36, 0x37, 0x38, 0x39].map (BitVec.ofNat 8)) = 0xE3069283#32 := by decide +kernel

end Sys2Proof.Tests
end

section
/-! What a write leaves in a register, bit by bit (R9, R11, R13), and the state after reset (R10). -/
namespace Sys2Proof.Machine

/-- What a bit of a field holds after `v` is written over the stored `w`, by the field's type (R9). -/
def RegTy.bitWritten (ty : RegTy) (v w : Bool) : Bool :=
  match ty with
  | .rw | .rws => v
  | .w1c => w && !v
  | .w1s => w || v
  | .ro | .wo => w

/-- The field holds bit `n` of its register. -/
def FldInfo.holds (f : FldInfo) (n : Nat) : Bool := decide (f.lo ≤ n) && decide (n < f.lo + f.w)

theorem FldInfo.holds_iff {f : FldInfo} {n : Nat} : f.holds n = true ↔ f.lo ≤ n ∧ n < f.lo + f.w := by simp [FldInfo.holds]

/-- The fields of a register table lie inside the word and do not overlap. -/
def RegInfo.LaidOut (t : RegInfo) : Prop :=
  (∀ f ∈ t.fields, f.lo + f.w ≤ 32) ∧ t.fields.Pairwise fun f g => f.lo + f.w ≤ g.lo ∨ g.lo + g.w ≤ f.lo

/-- The register map of the spec is laid out well, block by block. -/
theorem Blk.regs_laidOut (b : Blk) : ∀ t ∈ b.regs, t.LaidOut := by
  unfold RegInfo.LaidOut
  cases b <;> decide +kernel

theorem Reg.info_laidOut {r : Reg} {t : RegInfo} (h : r.info = some t) : t.LaidOut := by
  rw [Reg.info, Option.ite_none_right_eq_some] at h
  exact r.blk.regs_laidOut t (List.mem_of_find?_eq_some h.2)

theorem beMask_whole : beMask 0xF#4 = BitVec.allOnes 32 := by decide

theorem getLsbD_fieldWritten (r : Reg) (f : FldInfo) (h : f.lo + f.w ≤ 32) (v w : Word) {n : Nat} (hn : n < 32) :
    (fieldWritten r (beMask 0xF#4) v w f).getLsbD n =
      if f.holds n then f.ty.bitWritten (v.getLsbD n) (w.getLsbD n) else w.getLsbD n := by
  have hm : (Fld.mask ⟨r, f.lo, f.w⟩).getLsbD n = f.holds n := Fld.getLsbD_mask ⟨r, f.lo, f.w⟩ h n
  unfold fieldWritten RegTy.bitWritten
  cases hh : f.holds n <;> cases f.ty <;>
    simp only [beMask_whole, BitVec.and_allOnes, BitVec.getLsbD_or, BitVec.getLsbD_and, BitVec.getLsbD_not, hm, hh, hn] <;> simp

/-- The fields that do not hold a bit leave it as it was. -/
theorem getLsbD_foldl_fieldWritten_other (r : Reg) (v : Word) {n : Nat} (hn : n < 32) (fs : List FldInfo)
    (hin : ∀ f ∈ fs, f.lo + f.w ≤ 32) (ho : ∀ f ∈ fs, ¬ f.holds n) (w : Word) :
    (fs.foldl (fieldWritten r (beMask 0xF#4) v) w).getLsbD n = w.getLsbD n := by
  induction fs generalizing w with
  | nil => rfl
  | cons g gs ih =>
    rw [List.forall_mem_cons] at hin ho
    rw [List.foldl_cons, ih hin.2 ho.2, getLsbD_fieldWritten r g hin.1 v w hn, if_neg ho.1]

/-- A bit of one of the fields, which do not overlap, takes what that field's type says. -/
theorem getLsbD_foldl_fieldWritten (r : Reg) (v : Word) {n : Nat} (hn : n < 32) {f : FldInfo} (hf : f.holds n) (fs : List FldInfo)
    (hin : ∀ f ∈ fs, f.lo + f.w ≤ 32) (hap : fs.Pairwise fun f g => f.lo + f.w ≤ g.lo ∨ g.lo + g.w ≤ f.lo) (hm : f ∈ fs) (w : Word) :
    (fs.foldl (fieldWritten r (beMask 0xF#4) v) w).getLsbD n = f.ty.bitWritten (v.getLsbD n) (w.getLsbD n) := by
  induction fs generalizing w with
  | nil => cases hm
  | cons g gs ih =>
    rw [List.forall_mem_cons] at hin
    obtain ⟨hg, hgs⟩ := List.pairwise_cons.mp hap
    rw [List.foldl_cons]
    obtain rfl | hm := List.mem_cons.mp hm
    · have ho : ∀ x ∈ gs, ¬ x.holds n := fun x hx => by have := hg x hx; rw [FldInfo.holds_iff] at *; omega
      rw [getLsbD_foldl_fieldWritten_other r v hn gs hin.2 ho, getLsbD_fieldWritten r f hin.1 v w hn, if_pos hf]
    · have ho : ¬ g.holds n := by have := hg f hm; rw [FldInfo.holds_iff] at *; omega
      rw [ih hin.2 hgs hm, getLsbD_fieldWritten r g hin.1 v w hn, if_neg ho]

/-- A whole word written over `w`: a bit of a field takes what the field's type says. -/
theorem getLsbD_wordWritten {r : Reg} {t : RegInfo} (h : r.info = some t) {f : FldInfo} (hf : f ∈ t.fields) (v w : Word) {n : Nat}
    (hn : f.holds n) : (wordWritten r 0xF#4 v w).getLsbD n = f.ty.bitWritten (v.getLsbD n) (w.getLsbD n) := by
  obtain ⟨hin, hap⟩ := Reg.info_laidOut h
  have hn32 : n < 32 := by have := hin f hf; rw [FldInfo.holds_iff] at hn; omega
  unfold wordWritten
  rw [h]
  exact getLsbD_foldl_fieldWritten r v hn32 hn t.fields hin hap hf w

theorem State.reset_inv : State.reset.Inv where
  regs := rfl
  mq := rfl
  ddr := rfl
  log := Nat.zero_le _
  x0 := by decide

end Sys2Proof.Machine

open Sys2Proof Sys2Proof.Machine

/-- Settles O53: each bit of a field is written by that field alone, since the fields of a register do not overlap. -/
theorem registerFieldTypes : Obligations.RegisterFieldTypes := by
  unfold Obligations.RegisterFieldTypes
  intro r i f v w hi hf g j hj
  have hbit : (g.of (wordWritten r 0xF#4 v w)).testBit j = f.ty.bitWritten ((g.of v).testBit j) ((g.of w).testBit j) := by
    simp only [Fld.testBit_of, g, hj, decide_true, Bool.true_and]
    exact getLsbD_wordWritten hi hf v w (FldInfo.holds_iff.mpr ⟨Nat.le_add_right .., Nat.add_lt_add_left hj _⟩)
  rw [hbit]
  cases f.ty <;> rfl

/-- Settles O4: the register file, the queues and the memories of the state after reset are empty, and READY is a bit of a register whose
reset value is 0. -/
theorem resetState : Obligations.ResetState := by
  have hready : State.reset.get CQI_STAT.READY = 0 := by decide +kernel
  exact ⟨⟨fun _ => rfl, rfl, rfl, rfl, rfl, rfl, hready, rfl⟩, State.reset_inv⟩

end

section
/-! The placement cores are left alone (registers, mode, call in progress, memory) by what follows the end of a policy call: the default's
answer, and what Armature takes up before the step ends. Operations that leave the whole of Armature alone come from the model's `Evolves`
lemmas; the others are followed here. -/
namespace Sys2Proof.Machine

/-- What every step of a fold keeps, the fold keeps. -/
theorem foldl_keeps {α β γ : Type} (g : β → γ) {f : β → α → β} (h : ∀ b x, g (f b x) = g b) (l : List α) (b : β) :
    g (l.foldl f b) = g b := by
  induction l generalizing b with
  | nil => rfl
  | cons x xs ih => rw [List.foldl_cons, ih, h]

variable (s : State)

/-! ### Operations that leave Armature alone -/

@[simp] theorem State.logEvent_arm (c : EvCode) (l : List Nat) : (s.logEvent c l).arm = s.arm :=
  (State.logEvent_ev c l (.refl _) (.refl _ (fun _ => True) s)).armature rfl
@[simp] theorem jnlShow_arm : (jnlShow s).arm = s.arm := (jnlShow_ev (.refl _) (.refl _ (fun _ => True) s)).armature rfl
@[simp] theorem hdrAdd_arm (n : Nat) (b : JBody) : (hdrAdd n b s).arm = s.arm :=
  (hdrAdd_ev n b (.refl _) (.refl _ (fun _ => True) s)).armature rfl
@[simp] theorem finishCommitted_arm (n : Nat) (o : Fin 65 × Nat) : (finishCommitted n o s).arm = s.arm :=
  (finishCommitted_ev n o (.refl _) (.refl _ (fun _ => True) s)).armature rfl
@[simp] theorem takeSpeed_arm (e : Eng) (n : Nat) : (takeSpeed e n s).arm = s.arm :=
  (takeSpeed_ev e n (.refl _) trivial (.refl _ (fun _ => True) s)).armature rfl
@[simp] theorem takeTurn_arm (e : Eng) (a b c d n : Nat) : (takeTurn e a b c d n s).arm = s.arm :=
  (takeTurn_ev e a b c d n (.refl _) trivial (.refl _ (fun _ => True) s)).armature rfl
@[simp] theorem ladderSkipOp_arm (e : Eng) (c : ClAddr) : (ladderSkipOp e c s).arm = s.arm :=
  (ladderSkipOp_ev e c (.refl _) trivial (.refl _ (fun _ => True) s)).armature rfl
@[simp] theorem ladderDue_arm (e : Eng) (c : ClAddr) (n : Nat) : (ladderDue e c n s).arm = s.arm :=
  (ladderDue_ev e c n (.refl _) trivial (.refl _ (fun _ => True) s)).armature rfl

/-! ### Sealing -/

@[simp] theorem takeCkpt_plc (r k b : Nat) : (takeCkpt r k b s).arm.plc = s.arm.plc := by
  simp only [takeCkpt, State.modArm_arm]
  split
  · rfl
  · split <;> rfl
@[simp] theorem takeBody_plc (n : Nat) (b : JBody) : (takeBody n b s).arm.plc = s.arm.plc := by
  unfold takeBody
  extract_lets t u
  split <;> simp [u, t]
@[simp] theorem takeNow_plc (b : JBody) : (takeNow b s).arm.plc = s.arm.plc := by
  unfold takeNow
  cases b <;> simp
@[simp] theorem sealOne_plc (b : JBody) (fin : Bool) (owner : List (Fin 65 × Nat)) : (sealOne b fin owner s).arm.plc = s.arm.plc := by
  unfold sealOne
  extract_lets n t r u
  have ht : t.arm = s.arm := by
    unfold t
    split
    · refine foldl_keeps State.arm (fun _ _ => ?_) owner s
      rfl
    · rfl
  simp [u, ht]
@[simp] theorem sealNow_plc (b : JBody) (fin : Bool) (owner : List (Fin 65 × Nat)) : (sealNow b fin owner s).arm.plc = s.arm.plc := by
  simp only [sealNow, jnlShow_arm, sealOne_plc]
  split <;> simp
@[simp] theorem foldl_finishCommitted_arm (n : State → Nat) (l : List (Fin 65 × Nat)) :
    (l.foldl (fun (s : State) o => finishCommitted (n s) o s) s).arm = s.arm :=
  foldl_keeps State.arm (fun s o => finishCommitted_arm s (n s) o) l s
@[simp] theorem sealAsk_plc (b : JBody) (fin : Bool) (owner : List (Fin 65 × Nat)) : (sealAsk b fin owner s).arm.plc = s.arm.plc := by
  have hwait (f : JrnInt → JrnInt) : (jnlShow (s.modJrn f)).arm.plc = s.arm.plc := by rw [jnlShow_arm]; rfl
  unfold sealAsk
  by_cases hr : refusing s = true
  · rw [if_pos hr, foldl_finishCommitted_arm _ (fun _ => 0), takeNow_plc]
  · rw [if_neg hr]
    dsimp only
    by_cases hf : ((if b.second = true then s.jrn.wait2 else s.jrn.wait1).isEmpty && sealFits s b) = true
    · rw [if_pos hf, sealNow_plc]
    · rw [if_neg hf, hwait]
@[simp] theorem mapCommit_plc (t : Tx) (owner : List (Fin 65 × Nat)) : (mapCommit t owner s).arm.plc = s.arm.plc := by
  unfold mapCommit
  split <;> simp

/-! ### Answers taken up -/

@[simp] theorem makeRun_plc (v n k m : Nat) (ds : List Nat) (rel : Bool) : (makeRun v n k m ds rel s).arm.plc = s.arm.plc := by
  unfold makeRun
  extract_lets t id r
  split
  · rfl
  · extract_lets u w
    split <;> simp [w, u]
@[simp] theorem State.modDisc_plc (d : Nat) (f : DiscInt → DiscInt) : (s.modDisc d f).arm.plc = s.arm.plc := rfl
@[simp] theorem discOut_plc (e : Eng) : (discOut e s).arm.plc = s.arm.plc := by
  unfold discOut
  split <;> rfl
@[simp] theorem takeLoad_plc (e : Eng) (d : Nat) : (takeLoad e d s).arm.plc = s.arm.plc := by
  unfold takeLoad
  split
  · exact discOut_plc s e
  · rfl
@[simp] theorem takeUp_plc (a : Ask) (r : Answer) : (takeUp a r s).arm.plc = s.arm.plc := by
  unfold takeUp
  split
  · simp
  · simp
  · rfl
  · dsimp only
    split <;> simp
  · dsimp only
    split
    · split <;> simp
    · rfl
  · simp
  · simp
  all_goals rfl
@[simp] theorem defaultAnswer_plc (a : Ask) : (defaultAnswer a s).arm.plc = s.arm.plc := by
  cases a with
  | group v n => simp [defaultAnswer]
  | source r => simp [defaultAnswer]
  | load e cur cs => simp [defaultAnswer]
  | speed e a b c d n =>
    simp only [defaultAnswer, takeTurn_arm]
    split <;> simp
@[simp] theorem policyFault_plc (a : Ask) (cause : Nat) : (policyFault a cause s).arm.plc = s.arm.plc := by
  unfold policyFault defaulted
  extract_lets e t ts u w
  have hw : w.arm.plc = s.arm.plc := by
    unfold w
    split <;> simp [u, t]
  simp [hw]

/-! ### What Armature takes up before the step ends -/

@[simp] theorem rebuildStart_plc (run j : Nat) (g : Bool) : (rebuildStart run j g s).arm.plc = s.arm.plc := by simp [rebuildStart]
@[simp] theorem startRebuilds_plc : (startRebuilds s).arm.plc = s.arm.plc := by
  unfold startRebuilds
  extract_lets room
  generalize List.take room (rebuildWants s) = l
  refine foldl_keeps (fun s : State => s.arm.plc) (fun t x => ?_) l s
  simp only [rebuildStart_plc]
@[simp] theorem setDiscState_plc (d st : Nat) (owner : List (Fin 65 × Nat)) : (setDiscState d st owner s).arm.plc = s.arm.plc := by
  simp [setDiscState]
@[simp] theorem addLoss_plc (run a b : Nat) (m : BitVec 8) (r x : BitVec 16) (c : Nat) : (addLoss run a b m r x c s).arm.plc = s.arm.plc := by
  unfold addLoss
  split <;> simp
@[simp] theorem addTodo_plc (x : Todo) : (addTodo x s).arm.plc = s.arm.plc := by
  unfold addTodo
  split <;> simp
@[simp] theorem secondFailure_plc (d : Nat) (r : Rebuild) : (secondFailure d r s).arm.plc = s.arm.plc := by
  unfold secondFailure
  extract_lets rr is t lost stop
  have ht : t.arm.plc = s.arm.plc := by simp [t, rebuildCkpt]
  split
  · rfl
  · split
    · split <;> simp [ht]
    · exact ht
theorem foldl_secondFailure_plc (d : Nat) (l : List Rebuild) :
    (l.foldl (fun (s : State) r => secondFailure d r s) s).arm.plc = s.arm.plc :=
  foldl_keeps (fun s : State => s.arm.plc) (fun s r => secondFailure_plc s d r) l s
@[simp] theorem discFailOp_plc (d cause : Nat) (owner : List (Fin 65 × Nat)) : (discFailOp d cause owner s).arm.plc = s.arm.plc := by
  unfold discFailOp
  extract_lets st t
  split
  · rfl
  · simp [t, foldl_secondFailure_plc]
@[simp] theorem patinaKeep_plc (d : Nat) : (patinaKeep d s).arm.plc = s.arm.plc := by
  unfold patinaKeep
  extract_lets x r p t o o' go u
  split
  · rfl
  · split <;> simp [u]
@[simp] theorem handOff_plc (d : Nat) : (handOff d s).arm.plc = s.arm.plc := by
  unfold handOff
  extract_lets n t u
  split <;> simp [u, t, patinaLeft]
@[simp] theorem loseRow_plc (m : MediaEvents) (run stripe row c : Nat) : (loseRow m run stripe row c s).arm.plc = s.arm.plc := by
  unfold loseRow
  extract_lets k js full t
  have ht : t.arm.plc = s.arm.plc := by
    refine foldl_keeps (fun s : State => s.arm.plc) (fun s j => ?_) js s
    split <;> simp
  split <;> simp [ht]
@[simp] theorem rung7_plc (e : Eng) (c : ClAddr) : (rung7 e c s).arm.plc = s.arm.plc := by
  unfold rung7
  split
  · rfl
  · extract_lets t
    have ht : t.arm.plc = s.arm.plc := by simp [t]
    split
    · exact ht
    · split
      · simp [ht]
      · split <;> simp [ht]
@[simp] theorem engineGone_plc (e : Eng) : (engineGone e s).arm.plc = s.arm.plc := by simp [engineGone]
@[simp] theorem pcaUsed_plc (e : Eng) (c : ClAddr) : (pcaUsed e c s).arm.plc = s.arm.plc := by
  unfold pcaUsed
  split <;> simp
@[simp] theorem armNote_plc (n : ArmNote) : (armNote s n).arm.plc = s.arm.plc := by
  unfold armNote
  split
  · simp
  · split
    · split <;> simp [patinaLeft]
    · rfl
  · split <;> simp [patinaRead]
  · rfl
  · simp
  · simp
  · split
    · split
      · simp [foldl_secondFailure_plc]
      · rfl
    · rfl
@[simp] theorem armDrain_plc : (armDrain s).arm.plc = s.arm.plc := by
  unfold armDrain
  split
  · rfl
  · exact foldl_keeps (fun s : State => s.arm.plc) armNote_plc s.notes _

/-! ### The end of a policy call (R18, R258) -/

variable (c : Fin 4)

@[simp] theorem State.modPlc_plc (f : Plc → Plc) : (s.modPlc c f).arm.plc = s.arm.plc.set c (f s.arm.plc[c]) := rfl

/-- The call in progress is over, and the core has left U mode, whether or not an image that waits is taken. -/
theorem callEnd_ends : (callEnd c s).arm.plc[c].call = none ∧ (callEnd c s).arm.plc[c].user = false := by
  unfold callEnd
  extract_lets t
  have ht : t.arm.plc[c].call = none ∧ t.arm.plc[c].user = false := by simp [t]
  split
  · simpa [coreReload, plcWrite] using ht
  · exact ht

theorem callFault_ends (cause : Nat) (hc : s.arm.plc[c].call ≠ none) :
    (callFault c cause s).arm.plc[c].call = none ∧ (callFault c cause s).arm.plc[c].user = false := by
  unfold callFault
  split
  · rw [policyFault_plc]
    exact callEnd_ends s c
  · contradiction

end Sys2Proof.Machine
end

section
/-! Where a whole word written to an address arrives: the address maps (R23 to R28, R242, R374) as rules for the registers they lead to, and
what follows for a write of such a register (R9, R12, R13). -/
namespace Sys2Proof.Machine

variable {s : State} {rq : Req} {v hw addr : Word} {be : BitVec 4} {same : BitVec 15} {a off id : Nat} {r : Reg}

/-! ### The end of the step -/

/-- Nothing is taken up where nothing was noted. -/
theorem settled_of_notes (h : s.notes = []) : settled s = .next s := by simp [settled, armDrain, h]

theorem settled_of_evolves {M : Nat} {P : Nat → Prop} {t : State} (h : s.notes = []) (ht : Evolves M P s t) (hb : M.testBit 50 = false) :
    settled t = .next t := settled_of_notes ((ht.notes hb).trans h)

theorem runs_of_settled {c : Instr} {t : State} {p : State → Prop} (he : exec c s = settled t) (hn : t.notes = []) (hp : p t) :
    runs c s p := ⟨t, he.trans (settled_of_notes hn), hp⟩

theorem runs_same {c : Instr} (he : exec c s = settled s) (hn : s.notes = []) : runs c s fun t => t = s :=
  runs_of_settled he hn rfl

/-! ### The write of a requester -/

theorem exec_registerWrite : exec (.registerWrite rq addr be v hw same) s = settled (registerWriteOp rq addr be v hw same s) := rfl

theorem registerWriteOp_host :
    registerWriteOp .host addr be v hw same s = destWrite .host be v hw same (addr.toNat % 4 == 0) (hostWriteDest s addr.toNat) s := by
  simp [registerWriteOp]

theorem registerWriteOp_core (hid : reqId rq = some id) :
    registerWriteOp rq addr be v hw same s =
      if storeMisaligned addr.toNat be then s
      else if !coreMay s rq addr.toNat || !pmpMay s rq addr.toNat (popcount 4 be.toNat) true then accessFault (Fin.ofNat 16 id) addr true s
      else destWrite rq be v hw same (addr.toNat % 4 == 0) (coreDest s rq addr.toNat) s := by
  have hne : rq ≠ .host := by rintro rfl; cases hid
  unfold registerWriteOp
  rw [if_neg hne, hid]

theorem pmpMay_of_not_inUMode (h : inUMode s rq = false) (n : Nat) (w : Bool) : pmpMay s rq a n w = true := by
  cases rq <;> simp_all [inUMode, pmpMay]

theorem registerWriteOp_may (hid : reqId rq = some id) (hal : storeMisaligned addr.toNat be = false) (hmay : coreMay s rq addr.toNat = true)
    (hu : inUMode s rq = false) :
    registerWriteOp rq addr be v hw same s = destWrite rq be v hw same (addr.toNat % 4 == 0) (coreDest s rq addr.toNat) s := by
  rw [registerWriteOp_core hid, hal, hmay, pmpMay_of_not_inUMode hu]
  rfl

theorem storeMisaligned_whole : storeMisaligned a 0xF#4 = (a % 4 != 0) := rfl

/-- A whole word that a processor may write reaches what its address names. -/
theorem exec_core_word (hid : reqId rq = some id) (hu : inUMode s rq = false) (ha : a < 2 ^ 32) (h4 : a % 4 = 0)
    (hmay : coreMay s rq a = true) : exec (.registerWrite rq (BitVec.ofNat 32 a) 0xF#4 v hw same) s =
      settled (destWrite rq 0xF#4 v hw same true (coreDest s rq a) s) := by
  have hn : (BitVec.ofNat 32 a).toNat = a := Nat.mod_eq_of_lt ha
  rw [exec_registerWrite, registerWriteOp_may hid _ _ hu, hn, h4]
  · rfl
  · rw [hn, storeMisaligned_whole, h4]; rfl
  · rw [hn, hmay]

/-! ### Writes that reach a register -/

/-- A whole word that the requester writes to the address reaches the register. -/
def ReachesReg (s : State) (rq : Req) (a : Nat) (r : Reg) : Prop := ∀ v hw same,
  exec (.registerWrite rq (BitVec.ofNat 32 a) 0xF#4 v hw same) s = settled (regWrite rq same r (raced r hw v (s.rd r)) s)

theorem reachesReg_core (hid : reqId rq = some id) (hu : inUMode s rq = false) (ha : a < 2 ^ 32) (h4 : a % 4 = 0)
    (hmay : coreMay s rq a = true) (hd : coreDest s rq a = .reg r) : ReachesReg s rq a r := by
  intro v hw same
  rw [exec_core_word hid hu ha h4 hmay, hd]
  rfl

theorem reachesReg_host (ha : a < 2 ^ 32) (h4 : a % 4 = 0) (hd : hostWriteDest s a = .reg r) : ReachesReg s .host a r := by
  intro v hw same
  have hn : (BitVec.ofNat 32 a).toNat = a := Nat.mod_eq_of_lt ha
  rw [exec_registerWrite, registerWriteOp_host, hn, hd, h4]
  rfl

/-- Where hardware changes no bit in the same cycle, the whole value counts (R13). -/
theorem raced_zero (r : Reg) (v w : Word) : raced r 0#32 v w = v := by
  unfold raced
  split
  · rfl
  · refine foldl_keeps id (fun v f => ?_) _ v
    cases f.ty <;> simp only [BitVec.and_zero, BitVec.not_zero, BitVec.and_allOnes, BitVec.or_zero]

theorem ReachesReg.nothing (h : ReachesReg s rq a r) (hn : s.notes = []) (hr : ∀ x same, regWrite rq same r x s = s) :
    writesNothing rq a v s := by
  intro hw same
  rw [h, hr, settled_of_notes hn]

theorem ReachesReg.plain (h : ReachesReg s rq a r) (hn : s.notes = []) (hr : ∀ x same, regWrite rq same r x s = typed r x s) :
    writesPlain rq a v r s := by
  intro hw same
  rw [h, hr]
  exact settled_of_notes hn

theorem ReachesReg.writesAs {c : Instr} (h : ReachesReg s rq a r) (hr : ∀ same, settled (regWrite rq same r v s) = exec c s) :
    writesAs rq a v c s := by
  intro same
  rw [h, raced_zero, hr]

/-! ### The address maps -/

theorem coreMay_glb (h1 : 0x40000000 ≤ a) (h2 : a < 0x40010000) : coreMay s rq a = true := by
  unfold coreMay
  repeat rw [if_neg (by omega)]
  exact if_pos ⟨h1, h2⟩

theorem coreDest_glb (h1 : 0x40000000 ≤ a) (h2 : a < 0x40010000) : coreDest s rq a = .reg ⟨.glb, 0, 0, a - 0x40000000⟩ := by
  unfold coreDest
  repeat rw [if_neg (by omega)]
  exact if_pos ⟨h1, h2⟩

/-- The global registers (R24, R25). -/
theorem reachesReg_glb (hid : reqId rq = some id) (hu : inUMode s rq = false) (ha : a = 0x40000000 + off) (ho : off < 0x10000)
    (h4 : off % 4 = 0) : ReachesReg s rq a ⟨.glb, 0, 0, off⟩ := by
  refine reachesReg_core hid hu (by omega) (by omega) (coreMay_glb (by omega) (by omega)) ?_
  rw [coreDest_glb (by omega) (by omega), ha, Nat.add_sub_cancel_left]

theorem coreMay_eng_sup (h1 : 0x48000000 ≤ a) (h2 : a < 0x48200000) : coreMay s .sup a = true := by
  unfold coreMay
  repeat rw [if_neg (by omega)]
  exact if_pos ⟨h1, h2⟩

theorem coreMay_eng_esq (e : Eng) (ho : off < 0x40000) : coreMay s (.esq e) (0x48000000 + 0x40000 * e.val + off) = true := by
  have he := e.isLt
  have hq : Fin.ofNat 8 ((0x48000000 + 0x40000 * e.val + off - 0x48000000) / 0x40000) = e := by
    apply Fin.ext
    simp only [Fin.ofNat]
    omega
  unfold coreMay
  repeat rw [if_neg (by omega)]
  rw [if_pos (by omega), hq]
  simp

theorem coreDest_eng (h1 : 0x48000000 ≤ a) (h2 : a < 0x48200000) : coreDest s rq a = engDest (a - 0x48000000) := by
  unfold coreDest
  repeat rw [if_neg (by omega)]
  exact if_pos ⟨h1, h2⟩

/-- The layout of an engine block, for its registers outside the chains, its program memory and its data memory (R27, R28). -/
theorem engDest_split (e : Eng) (ho : off < 0x40000) :
    Fin.ofNat 8 ((0x40000 * e.val + off) / 0x40000) = e ∧ (0x40000 * e.val + off) % 0x40000 = off := by
  have he := e.isLt
  constructor
  · apply Fin.ext
    simp only [Fin.ofNat]
    omega
  · omega

theorem engDest_reg (e : Eng) (ho : off < 0x10000) (hc : off < 0x2000 ∨ 0x3400 ≤ off) :
    engDest (0x40000 * e.val + off) = .reg ⟨.eng, e.val, 0, off⟩ := by
  obtain ⟨he, hm⟩ := engDest_split e (off := off) (by omega)
  unfold engDest
  rw [he, hm, if_pos ho, engReg, if_neg (by omega)]

theorem reachesReg_eng (e : Eng) (hrq : rq = .sup ∨ rq = .esq e) (ho : off < 0x10000) (hc : off < 0x2000 ∨ 0x3400 ≤ off) (h4 : off % 4 = 0) :
    ReachesReg s rq (0x48000000 + 0x40000 * e.val + off) ⟨.eng, e.val, 0, off⟩ := by
  have he := e.isLt
  have hd : coreDest s rq (0x48000000 + 0x40000 * e.val + off) = .reg ⟨.eng, e.val, 0, off⟩ := by
    rw [coreDest_eng (by omega) (by omega), Nat.add_assoc, Nat.add_sub_cancel_left, engDest_reg e ho hc]
  obtain rfl | rfl := hrq
  · exact reachesReg_core rfl rfl (by omega) (by omega) (coreMay_eng_sup (by omega) (by omega)) hd
  · exact reachesReg_core rfl rfl (by omega) (by omega) (coreMay_eng_esq e (by omega)) hd

theorem hostWriteDest_eng (hdbg : 0 < s.get GLB_SEC_STAT.DBG_LEVEL) (h1 : 0x2000000 ≤ a) (h2 : a < 0x2200000) :
    hostWriteDest s a = engDest (a - 0x2000000) := by
  unfold hostWriteDest hostDest
  repeat rw [if_neg (by omega)]
  exact if_pos ⟨h1, h2⟩

theorem reachesReg_eng_host (e : Eng) (hdbg : 0 < s.get GLB_SEC_STAT.DBG_LEVEL) (ho : off < 0x10000) (hc : off < 0x2000 ∨ 0x3400 ≤ off)
    (h4 : off % 4 = 0) : ReachesReg s .host (0x2000000 + 0x40000 * e.val + off) ⟨.eng, e.val, 0, off⟩ := by
  have he := e.isLt
  refine reachesReg_host (by omega) (by omega) ?_
  rw [hostWriteDest_eng hdbg (by omega) (by omega), Nat.add_assoc, Nat.add_sub_cancel_left, engDest_reg e ho hc]

/-- While debug is locked the host changes nothing behind an engine block (R26). -/
theorem writesNothing_eng_host (e : Eng) (hn : s.notes = []) (hdbg : s.get GLB_SEC_STAT.DBG_LEVEL = 0) (ho : off < 0x40000) :
    writesNothing .host (0x2000000 + 0x40000 * e.val + off) v s := by
  have he := e.isLt
  intro hw same
  have hd : hostWriteDest s (0x2000000 + 0x40000 * e.val + off) = .nothing := by
    unfold hostWriteDest
    rw [if_neg (by omega), if_pos ⟨by omega, by omega, hdbg⟩]
  have ha : (BitVec.ofNat 32 (0x2000000 + 0x40000 * e.val + off)).toNat = 0x2000000 + 0x40000 * e.val + off := Nat.mod_eq_of_lt (by omega)
  rw [exec_registerWrite, registerWriteOp_host, ha, hd]
  exact settled_of_notes hn

/-- The motion block (R242). -/
theorem reachesReg_motion (h1 : 0x54000000 ≤ a) (h2 : a < 0x54010000) (h4 : a % 4 = 0) (hd : motionDest (a - 0x54000000) = .reg r) :
    ReachesReg s .sup a r := by
  refine reachesReg_core rfl rfl (by omega) h4 ?_ ?_
  · unfold coreMay
    repeat rw [if_neg (by omega)]
    exact if_pos ⟨h1, h2⟩
  · unfold coreDest
    repeat rw [if_neg (by omega)]
    rw [if_pos ⟨h1, h2⟩, hd]

/-- The queue blocks, for the host (R374). -/
theorem reachesReg_queue (q : Fin 65) (ho : off < 0x100) (h4 : off % 4 = 0) :
    ReachesReg s .host (0x1000000 + 0x100 * q.val + off) ⟨.qb, q.val, 0, off⟩ := by
  have hq := q.isLt
  refine reachesReg_host (by omega) (by omega) ?_
  unfold hostWriteDest hostDest
  repeat rw [if_neg (by omega)]
  have hi : (0x1000000 + 0x100 * q.val + off - 0x1000000) / 0x100 = q.val := by omega
  have hm : (0x1000000 + 0x100 * q.val + off - 0x1000000) % 0x100 = off := by omega
  rw [if_pos (by omega), queueDest, if_pos (by omega), hi, hm]

/-! ### The registers that exist -/

theorem Reg.info_isSome {r : Reg} (hi : r.i < r.blk.count) (hk : r.k = 0) (h : (r.blk.regs.find? fun t => t.covers r.off).isSome = true) :
    r.info.isNone = false := by
  rw [Reg.info, if_pos ⟨hi, by rw [hk]; split <;> decide⟩]
  simpa using h

theorem regWrite_eng (e : Eng) (h : (engRegs.find? fun t => t.covers off).isSome = true) :
    regWrite rq same ⟨.eng, e.val, 0, off⟩ v s = engWrite rq e same ⟨.eng, e.val, 0, off⟩ v s := by
  unfold regWrite
  rw [Reg.info_isSome e.isLt rfl h]
  simp

theorem regWrite_glb (h : (glbRegs.find? fun t => t.covers off).isSome = true) :
    regWrite rq same ⟨.glb, 0, 0, off⟩ v s = glbWrite rq same ⟨.glb, 0, 0, off⟩ v s := by
  unfold regWrite
  rw [Reg.info_isSome Nat.one_pos rfl h]
  simp

theorem regWrite_ax (x : Fin 4) (h : (axRegs.find? fun t => t.covers off).isSome = true) :
    regWrite rq same ⟨.ax, x.val, 0, off⟩ v s = axWrite x ⟨.ax, x.val, 0, off⟩ v s := by
  unfold regWrite
  rw [Reg.info_isSome x.isLt rfl h]
  simp

theorem regWrite_brk (b : Fin 2) (h : (brkRegs.find? fun t => t.covers off).isSome = true) :
    regWrite rq same ⟨.brk, b.val, 0, off⟩ v s = brkWrite rq b ⟨.brk, b.val, 0, off⟩ v s := by
  unfold regWrite
  rw [Reg.info_isSome b.isLt rfl h]
  simp

theorem regWrite_mot (h : (motRegs.find? fun t => t.covers off).isSome = true) :
    regWrite rq same ⟨.mot, 0, 0, off⟩ v s = typed ⟨.mot, 0, 0, off⟩ v s := by
  unfold regWrite
  rw [Reg.info_isSome Nat.one_pos rfl h]
  simp

theorem regWrite_queue (q : Fin 65) (h : (qbRegs.find? fun t => t.covers off).isSome = true) :
    regWrite rq same ⟨.qb, q.val, 0, off⟩ v s = queueWrite (rq == .host) q ⟨.qb, q.val, 0, off⟩ v s := by
  unfold regWrite
  rw [Reg.info_isSome q.isLt rfl h]
  simp

end Sys2Proof.Machine
end

section
/-! What a whole word written to a register does where the register has a row of its own, keeps plain fields, or takes no write in the present
state: the clauses of R25, R123, R146, R210, R242, R374, R409, R420 and R475 on `regWrite`. -/
namespace Sys2Proof.Machine

variable {s : State} {rq : Req} {v x : Word} {same : BitVec 15} {a off id : Nat}

/-! ### Global registers by their offset (R25) -/

theorem glbWrite_window (h1 : 0x100 ≤ off) (h2 : off < 0x140) : glbWrite rq same ⟨.glb, 0, 0, off⟩ v s =
    if rq == .sup && off < 0x11C && v.toNat % 128 ≤ 112 then typed ⟨.glb, 0, 0, off⟩ v s else s := by
  unfold glbWrite
  exact if_pos ⟨h1, h2⟩

theorem glbWrite_claim (r : Fin 37) : glbWrite rq same ⟨.glb, 0, 0, 0x1000 + 4 * r.val⟩ v s = claimOp rq r v s := by
  have hr := r.isLt
  have hi : (0x1000 + 4 * r.val - 0x1000) / 4 = r.val := by omega
  unfold glbWrite
  dsimp only
  rw [if_neg (by omega), if_neg (by omega), if_pos (by omega), dif_pos (by omega)]
  exact congrArg (claimOp rq · v s) (Fin.ext hi)

theorem glbWrite_power (h1 : 0x2000 ≤ off) (h2 : off < 0x3000) : glbWrite rq same ⟨.glb, 0, 0, off⟩ v s =
    if rq == .sup then pwrWrite ⟨.glb, 0, 0, off⟩ v s else s := by
  unfold glbWrite
  dsimp only
  repeat rw [if_neg (by omega)]
  exact if_pos h2

theorem glbWrite_arbiter (h1 : 0x3000 ≤ off) (h2 : off < 0x4000) : glbWrite rq same ⟨.glb, 0, 0, off⟩ v s =
    if rq == .sup then arbWrite ⟨.glb, 0, 0, off⟩ v s else s := by
  unfold glbWrite
  dsimp only
  repeat rw [if_neg (by omega)]
  exact if_pos h2

theorem glbWrite_cache (h1 : 0x4000 ≤ off) (h2 : off < 0x5000) : glbWrite rq same ⟨.glb, 0, 0, off⟩ v s =
    if rq == .sup || isPlc rq then strcWrite same ⟨.glb, 0, 0, off⟩ v s else s := by
  unfold glbWrite
  dsimp only
  repeat rw [if_neg (by omega)]
  exact if_pos h2

theorem glbWrite_pools (h1 : 0x5000 ≤ off) : glbWrite rq same ⟨.glb, 0, 0, off⟩ v s =
    if rq == .sup then poolWrite ⟨.glb, 0, 0, off⟩ v s else s := by
  unfold glbWrite
  dsimp only
  repeat rw [if_neg (by omega)]

/-- Power, arbiter and pools are SUP's (R25). -/
theorem glbWrite_not_sup (hrq : rq ≠ .sup) (h : (0x2000 ≤ off ∧ off < 0x4000) ∨ 0x5000 ≤ off) :
    glbWrite rq same ⟨.glb, 0, 0, off⟩ v s = s := by
  have hb : (rq == .sup) = false := by simpa using hrq
  by_cases h5 : 0x5000 ≤ off
  · rw [glbWrite_pools h5, hb]; rfl
  · by_cases h3 : off < 0x3000
    · rw [glbWrite_power (by omega) h3, hb]; rfl
    · rw [glbWrite_arbiter (by omega) (by omega), hb]; rfl

/-- A write of a register that does not exist does nothing; of a global one, what `glbWrite` says. -/
theorem regWrite_glb_nothing (h : ∀ x, glbWrite rq same ⟨.glb, 0, 0, off⟩ x s = s) : regWrite rq same ⟨.glb, 0, 0, off⟩ v s = s := by
  unfold regWrite
  split
  · rfl
  · exact h v

theorem writesNothing_not_sup (hn : s.notes = []) (hid : reqId rq = some id) (hrq : rq ≠ .sup) (hu : inUMode s rq = false) (h4 : a % 4 = 0)
    (h : (0x40002000 ≤ a ∧ a < 0x40004000) ∨ (0x40005000 ≤ a ∧ a < 0x40010000)) : writesNothing rq a v s :=
  (reachesReg_glb hid hu (off := a - 0x40000000) (by omega) (by omega) (by omega)).nothing hn fun _ _ =>
    regWrite_glb_nothing fun _ => glbWrite_not_sup hrq (by omega)

/-! ### The DDR4 windows (R25, log 99) -/

variable (c : Fin 16)

theorem reachesReg_window (hid : reqId rq = some id) (hu : inUMode s rq = false) :
    ReachesReg s rq (0x40000100 + 4 * c.val) (GLB_DDRWIN.reg c.val) :=
  reachesReg_glb hid hu (by omega) (by omega) (by omega)

theorem regWrite_window (c : Fin 16) : regWrite rq same (GLB_DDRWIN.reg c.val) v s =
    if rq == .sup && c.val < 7 && v.toNat % 128 ≤ 112 then typed (GLB_DDRWIN.reg c.val) v s else s := by
  have hf : ∀ c : Fin 16, (glbRegs.find? fun t => t.covers (0x100 + 4 * c.val)).isSome = true := by decide +kernel
  have hc : (0x100 + 4 * c.val < 0x11C) ↔ c.val < 7 := by omega
  rw [regWrite_glb (hf c), glbWrite_window (by omega) (by omega), decide_eq_decide.mpr hc]

theorem regWrite_window_base (hc : c.val < 7) (hv : v.toNat % 128 ≤ 112) :
    regWrite .sup same (GLB_DDRWIN.reg c.val) v s = typed (GLB_DDRWIN.reg c.val) v s := by
  rw [regWrite_window]
  simp [hc, hv]

theorem regWrite_window_closed (h : rq ≠ .sup ∨ 7 ≤ c.val ∨ 112 < v.toNat % 128) : regWrite rq same (GLB_DDRWIN.reg c.val) v s = s := by
  rw [regWrite_window, if_neg]
  simp only [Bool.and_eq_true, beq_iff_eq, decide_eq_true_eq]
  rintro ⟨⟨hsup, hc⟩, hv⟩
  obtain h | h | h := h
  · exact h hsup
  · omega
  · omega

theorem writesNothing_window_fixed (hn : s.notes = []) (hc : 7 ≤ c.val) : writesNothing .sup (0x40000100 + 4 * c.val) v s :=
  (reachesReg_window c rfl rfl).nothing hn fun _ _ => regWrite_window_closed c (.inr (.inl hc))

theorem writesNothing_window_not_sup (hn : s.notes = []) (hid : reqId rq = some id) (hrq : rq ≠ .sup) (hu : inUMode s rq = false) :
    writesNothing rq (0x40000100 + 4 * c.val) v s :=
  (reachesReg_window c hid hu).nothing hn fun _ _ => regWrite_window_closed c (.inl hrq)

theorem runs_window_base (hn : s.notes = []) (hc : c.val < 7) (hv : v.toNat % 128 ≤ 112) :
    runs (.registerWrite .sup (BitVec.ofNat 32 (0x40000100 + 4 * c.val)) 0xF#4 v 0#32 same) s fun t =>
      t = s.wr (GLB_DDRWIN.reg c.val) (wordWritten (GLB_DDRWIN.reg c.val) 0xF#4 v (s.rd (GLB_DDRWIN.reg c.val))) := by
  refine runs_of_settled (t := typed (GLB_DDRWIN.reg c.val) v s) ?_ hn rfl
  rw [reachesReg_window c rfl rfl, raced_zero, regWrite_window_base c hc hv]

theorem runs_window_beyond (hn : s.notes = []) (hv : 112 < v.toNat % 128) :
    runs (.registerWrite .sup (BitVec.ofNat 32 (0x40000100 + 4 * c.val)) 0xF#4 v 0#32 same) s fun t => t = s := by
  refine runs_same ?_ hn
  rw [reachesReg_window c rfl rfl, raced_zero, regWrite_window_closed c (.inr (.inr hv))]

/-! ### Registers with a row of their own -/

theorem writesAs_arbSeed (hn : s.notes = []) : writesAs .sup 0x40003044 v (.arbSeedWrite v) s := by
  refine (reachesReg_glb (off := 0x3044) rfl rfl rfl (by decide) rfl).writesAs fun same => ?_
  have hw : regWrite .sup same ⟨.glb, 0, 0, 0x3044⟩ v s = seedWrite v s := by
    rw [regWrite_glb (by decide +kernel), glbWrite_arbiter (by decide) (by decide)]
    simp [arbWrite]
  rw [hw, settled_of_evolves hn (seedWrite_ev v (.refl _) (.refl _ (fun _ => True) s)) rfl]
  rfl

theorem writesAs_strcPart (hn : s.notes = []) (i : Fin 8) : writesAs .sup (0x40004010 + 4 * i.val) v (.strcPartWrite i v) s := by
  refine (reachesReg_glb (off := 0x4010 + 4 * i.val) rfl rfl (by omega) (by omega) (by omega)).writesAs fun same => ?_
  have hf : ∀ i : Fin 8, (glbRegs.find? fun t => t.covers (0x4010 + 4 * i.val)).isSome = true := by decide +kernel
  have hi : Fin.ofNat 8 ((0x4010 + 4 * i.val - 0x4010) / 4) = i := Fin.ext (by simp only [Fin.ofNat]; omega)
  have hw : regWrite .sup same ⟨.glb, 0, 0, 0x4010 + 4 * i.val⟩ v s = partWrite i v s := by
    rw [regWrite_glb (hf i), glbWrite_cache (by omega) (by omega)]
    simp only [strcWrite, Reg.mk.injEq]
    rw [if_pos (by rfl), if_neg (by omega), if_pos (by omega), hi]
  rw [hw, settled_of_evolves hn (partWrite_ev i v (.refl _) (.refl _ (fun _ => True) s)) rfl]
  rfl

theorem writesAs_strcPrefetch (hn : s.notes = []) :
    writesAs .sup 0x40004048 v (.strcPrefetch (v.extractLsb' 0 22) (Fin.ofNat 16 (v.toNat / 2 ^ 22))) s := by
  refine (reachesReg_glb (off := 0x4048) rfl rfl rfl (by decide) rfl).writesAs fun same => ?_
  have hw : regWrite .sup same ⟨.glb, 0, 0, 0x4048⟩ v s = prefetch (STRC_PF.LINE.of v) (STRC_PF.N.of v) s := by
    rw [regWrite_glb (by decide +kernel), glbWrite_cache (by decide) (by decide)]
    simp [strcWrite]
  have hl : STRC_PF.LINE.of v = (v.extractLsb' 0 22).toNat := by simp [Fld.of]
  have hnn : STRC_PF.N.of v = (Fin.ofNat 16 (v.toNat / 2 ^ 22)).val := by simp [Fld.of, Nat.shiftRight_eq_div_pow]
  rw [hw, settled_of_evolves hn (prefetch_ev _ _ (.refl _) (.refl _ (fun _ => True) s)) rfl, hl, hnn]
  rfl

theorem poolWrite_config (p : Fin 4) (count : Bool) :
    poolWrite ⟨.glb, 0, 0, 0x5000 + 16 * p.val + (if count then 4 else 0)⟩ v s = poolConfig p count v s := by
  have hp : Fin.ofNat 4 ((0x5000 + 16 * p.val + (if count then 4 else 0) - 0x5000) / 0x10) = p :=
    Fin.ext (by simp only [Fin.ofNat]; split <;> omega)
  unfold poolWrite
  dsimp only
  rw [hp]
  cases count
  · exact if_pos (by simp; omega)
  · rw [if_neg (by simp; omega)]
    exact if_pos (by simp; omega)

theorem writesAs_poolConfig (hn : s.notes = []) (p : Fin 4) (count : Bool) :
    writesAs .sup (0x40005000 + 16 * p.val + if count then 4 else 0) v (.poolConfigWrite p count v) s := by
  refine (reachesReg_glb (off := 0x5000 + 16 * p.val + if count then 4 else 0) rfl rfl (by omega) (by split <;> omega)
    (by split <;> omega)).writesAs fun same => ?_
  have hf : ∀ (p : Fin 4) (count : Bool), (glbRegs.find? fun t => t.covers (0x5000 + 16 * p.val + if count then 4 else 0)).isSome = true := by
    decide +kernel
  rw [regWrite_glb (hf p count), glbWrite_pools (by omega)]
  refine Eq.trans ?_ (settled_of_evolves hn (poolConfig_ev p count v (.refl _) (.refl _ (fun _ => True) s)) rfl)
  exact congrArg settled (poolWrite_config p count)

theorem writesAs_claim (hid : reqId rq = some id) (hu : inUMode s rq = false) (r : Fin 37) :
    writesAs rq (0x40001000 + 4 * r.val) v (.claimWrite rq r v) s := by
  refine (reachesReg_glb (off := 0x1000 + 4 * r.val) hid hu (by omega) (by omega) (by omega)).writesAs fun same => ?_
  have hf : ∀ r : Fin 37, (glbRegs.find? fun t => t.covers (0x1000 + 4 * r.val)).isSome = true := by decide +kernel
  rw [regWrite_glb (hf r), glbWrite_claim]
  rfl

theorem motionDest_brk (b : Fin 2) (ho : off < 0x100) : motionDest (0x1000 + 0x100 * b.val + off) = .reg ⟨.brk, b.val, 0, off⟩ := by
  have hi : (0x1000 + 0x100 * b.val + off - 0x1000) / 0x100 = b.val := by omega
  have hm : (0x1000 + 0x100 * b.val + off) % 0x100 = off := by omega
  unfold motionDest
  rw [if_neg (by omega), if_pos (by omega), hi, hm]

theorem brkWrite_threshold (b : Fin 2) (k : Fin 3) : brkWrite rq b ⟨.brk, b.val, 0, 4 + 4 * k.val⟩ v s = brkThreshold b k v s := by
  obtain rfl | rfl | rfl : k = 0 ∨ k = 1 ∨ k = 2 := by omega
  · simp [brkWrite]
  · simp [brkWrite]
  · simp [brkWrite]

theorem writesAs_brkThreshold (hn : s.notes = []) (b : Fin 2) (k : Fin 3) :
    writesAs .sup (0x54001004 + 0x100 * b.val + 4 * k.val) v (.brkThresholdWrite b k v) s := by
  have ha : 0x54001004 + 0x100 * b.val + 4 * k.val - 0x54000000 = 0x1000 + 0x100 * b.val + (4 + 4 * k.val) := by omega
  have hf : ∀ k : Fin 3, (brkRegs.find? fun t => t.covers (4 + 4 * k.val)).isSome = true := by decide +kernel
  refine (reachesReg_motion (by omega) (by omega) (by omega) (ha ▸ motionDest_brk b (by omega))).writesAs fun same => ?_
  rw [regWrite_brk b (hf k), brkWrite_threshold, settled_of_evolves hn (brkThreshold_ev b k v (.refl _) (.refl _ (fun _ => True) s)) rfl]
  rfl

theorem engWrite_adcMap (e : Eng) (k : Chn) : engWrite rq e same ⟨.eng, e.val, 0, 0x6100 + 4 * k.val⟩ v s = adcMapWrite e k v s := by
  have hk : Fin.ofNat 5 ((0x6100 + 4 * k.val - 0x6100) / 4) = k := Fin.ext (by simp only [Fin.ofNat]; omega)
  unfold engWrite tmpWrite
  simp only [Reg.mk.injEq]
  repeat rw [if_neg (by omega)]
  rw [if_pos (by omega), if_neg (by omega), if_pos (by omega), hk]

theorem writesAs_adcMap (hn : s.notes = []) (e : Eng) (k : Chn) :
    writesAs .sup (0x48006100 + 0x40000 * e.val + 4 * k.val) v (.tmpAdcmapWrite e k v) s := by
  have ha : 0x48006100 + 0x40000 * e.val + 4 * k.val = 0x48000000 + 0x40000 * e.val + (0x6100 + 4 * k.val) := by omega
  have hf : ∀ k : Chn, (engRegs.find? fun t => t.covers (0x6100 + 4 * k.val)).isSome = true := by decide +kernel
  refine (ha ▸ reachesReg_eng e (.inl rfl) (by omega) (by omega) (by omega) : ReachesReg s _ _ _).writesAs fun same => ?_
  rw [regWrite_eng e (hf k), engWrite_adcMap, settled_of_evolves hn (adcMapWrite_ev e k v (.refl _) trivial (.refl _ (fun _ => True) s)) rfl]
  rfl

theorem engWrite_rampCfg (e : Eng) (k : Fin 8) : engWrite rq e same ⟨.eng, e.val, 0, 0x8204 + 8 * k.val⟩ v s = anvRampCfg e k v s := by
  have hk : Fin.ofNat 8 ((0x8204 + 8 * k.val - 0x8204) / 8) = k := Fin.ext (by simp only [Fin.ofNat]; omega)
  unfold engWrite anvWrite
  simp only [Reg.mk.injEq]
  repeat rw [if_neg (by omega)]
  rw [if_pos (by omega), hk]

theorem writesAs_rampCfg (hn : s.notes = []) (e : Eng) (k : Fin 8) :
    writesAs .sup (0x48008204 + 0x40000 * e.val + 8 * k.val) v (.anvRampInit e k v) s := by
  have ha : 0x48008204 + 0x40000 * e.val + 8 * k.val = 0x48000000 + 0x40000 * e.val + (0x8204 + 8 * k.val) := by omega
  have hf : ∀ k : Fin 8, (engRegs.find? fun t => t.covers (0x8204 + 8 * k.val)).isSome = true := by decide +kernel
  refine (ha ▸ reachesReg_eng e (.inl rfl) (by omega) (by omega) (by omega) : ReachesReg s _ _ _).writesAs fun same => ?_
  rw [regWrite_eng e (hf k), engWrite_rampCfg, settled_of_evolves hn (anvRampCfg_ev e k v (.refl _) trivial (.refl _ (fun _ => True) s)) rfl]
  rfl

end Sys2Proof.Machine
end

section
/-! Registers of the engines, the motion block and the queues: plain ones, those a state closes, the doorbell; and the memories of the Anvil
engines (R28, R123, R146, R198, R210, R242, R351, R370, R374). -/
namespace Sys2Proof.Machine

variable {s : State} {rq : Req} {v : Word} {same : BitVec 15} {a off : Nat} (e : Eng)

/-! ### Anvil memory -/

theorem coreDest_eng_split (ho : off < 0x40000) :
    coreDest s rq (0x48000000 + 0x40000 * e.val + off) = engDest (0x40000 * e.val + off) := by
  have he := e.isLt
  rw [coreDest_eng (by omega) (by omega), Nat.add_assoc, Nat.add_sub_cancel_left]

theorem engDest_pm (b : Bool) (a : BitVec 11) :
    engDest (0x40000 * e.val + (0x10000 + (if b then 0x2000 else 0) + 4 * a.toNat)) = .pm e b a.toNat := by
  have ha := a.isLt
  obtain ⟨he, hm⟩ := engDest_split e (off := 0x10000 + (if b then 0x2000 else 0) + 4 * a.toNat) (by split <;> omega)
  unfold engDest
  rw [he, hm]
  cases b
  · have hx : (0x10000 + (if false = true then 0x2000 else 0) + 4 * a.toNat - 0x10000) / 4 = a.toNat := by simp
    rw [if_neg (by simp), if_pos (by simp; omega), hx]
  · have hx : (0x10000 + (if true = true then 0x2000 else 0) + 4 * a.toNat - 0x12000) / 4 = a.toNat := by simp
    rw [if_neg (by simp; omega), if_neg (by simp), if_pos (by simp; omega), hx]

theorem engDest_dm (a : BitVec 11) : engDest (0x40000 * e.val + (0x18000 + 4 * a.toNat)) = .dm e a.toNat := by
  have ha := a.isLt
  have hx : (0x18000 + 4 * a.toNat - 0x18000) / 4 = a.toNat := by omega
  obtain ⟨he, hm⟩ := engDest_split e (off := 0x18000 + 4 * a.toNat) (by omega)
  unfold engDest
  rw [he, hm]
  repeat rw [if_neg (by omega)]
  rw [if_pos (by omega), hx]

theorem writesAs_anvPm (hn : s.notes = []) (b : Bool) (a : BitVec 11) :
    writesAs .sup (0x48010000 + 0x40000 * e.val + (if b then 0x2000 else 0) + 4 * a.toNat) v (.anvPmWrite e b a v) s := by
  intro same
  have he := e.isLt
  have ha := a.isLt
  have hsum : 0x48010000 + 0x40000 * e.val + (if b then 0x2000 else 0) + 4 * a.toNat =
      0x48000000 + 0x40000 * e.val + (0x10000 + (if b then 0x2000 else 0) + 4 * a.toNat) := by omega
  have hlt : (if b then 0x2000 else 0) ≤ 0x2000 := by split <;> omega
  have h4 : (if b then 0x2000 else 0) % 4 = 0 := by split <;> rfl
  rw [hsum, exec_core_word rfl rfl (by omega) (by omega) (coreMay_eng_sup (by omega) (by omega)), coreDest_eng_split e (by omega),
    engDest_pm]
  exact settled_of_evolves hn (anvPm_ev e b a.toNat v (.refl _) trivial (.refl _ (fun _ => True) s)) rfl

theorem writesAs_anvDm (hn : s.notes = []) (a : BitVec 11) :
    writesAs .sup (0x48018000 + 0x40000 * e.val + 4 * a.toNat) v (.anvDmWrite e a v) s := by
  intro same
  have he := e.isLt
  have ha := a.isLt
  have hsum : 0x48018000 + 0x40000 * e.val + 4 * a.toNat = 0x48000000 + 0x40000 * e.val + (0x18000 + 4 * a.toNat) := by omega
  rw [hsum, exec_core_word rfl rfl (by omega) (by omega) (coreMay_eng_sup (by omega) (by omega)), coreDest_eng_split e (by omega),
    engDest_dm]
  exact settled_of_evolves hn (anvDm_ev e a.toNat v (.refl _) trivial (.refl _ (fun _ => True) s)) rfl

/-! ### Plain registers -/

/-- The event and enable registers of an engine's units. -/
def eventOffsets : List Nat :=
  [0x1008, 0x100C, 0x4014, 0x4018, 0x500C, 0x5010, 0x6010, 0x6014, 0x7010, 0x7014, 0x7824, 0x7828, 0x8010, 0x8014]

theorem eventOffsets_exist : ∀ off ∈ eventOffsets,
    (engRegs.find? fun t => t.covers off).isSome = true ∧ off < 0x10000 ∧ (off < 0x2000 ∨ 0x3400 ≤ off) ∧ off % 4 = 0 := by
  decide +kernel

/-- Each unit writes its event and enable registers by their types alone. -/
theorem engWrite_event (h : off ∈ eventOffsets) : engWrite rq e same ⟨.eng, e.val, 0, off⟩ v s = typed ⟨.eng, e.val, 0, off⟩ v s := by
  simp only [eventOffsets, List.mem_cons, List.not_mem_nil, or_false] at h
  rcases h with rfl | rfl | rfl | rfl | rfl | rfl | rfl | rfl | rfl | rfl | rfl | rfl | rfl | rfl
  · simp [engWrite, hlWrite]
  · simp [engWrite, hlWrite]
  · simp [engWrite, seamWrite]
  · simp [engWrite, seamWrite]
  · simp [engWrite, wrWrite]
  · simp [engWrite, wrWrite]
  · simp [engWrite, tmpWrite]
  · simp [engWrite, tmpWrite]
  · simp [engWrite, spnWrite]
  · simp [engWrite, spnWrite]
  · simp [engWrite, sldWrite]
  · simp [engWrite, sldWrite]
  · simp [engWrite, anvWrite]
  · simp [engWrite, anvWrite]

theorem regWrite_event (h : off ∈ eventOffsets) : regWrite rq same ⟨.eng, e.val, 0, off⟩ v s = typed ⟨.eng, e.val, 0, off⟩ v s := by
  rw [regWrite_eng e (eventOffsets_exist off h).1, engWrite_event e h]

theorem writesPlain_event (hn : s.notes = []) (hrq : rq = .sup ∨ rq = .esq e) (h : off ∈ eventOffsets) :
    writesPlain rq (0x48000000 + 0x40000 * e.val + off) v ⟨.eng, e.val, 0, off⟩ s := by
  obtain ⟨-, ho, hc, h4⟩ := eventOffsets_exist off h
  exact (reachesReg_eng e hrq ho hc h4).plain hn fun _ _ => regWrite_event e h

theorem writesPlain_event_host (hn : s.notes = []) (hdbg : 0 < s.get GLB_SEC_STAT.DBG_LEVEL) (h : off ∈ eventOffsets) :
    writesPlain .host (0x2000000 + 0x40000 * e.val + off) v ⟨.eng, e.val, 0, off⟩ s := by
  obtain ⟨-, ho, hc, h4⟩ := eventOffsets_exist off h
  exact (reachesReg_eng_host e hdbg ho hc h4).plain hn fun _ _ => regWrite_event e h

theorem writesPlain_motion (hn : s.notes = []) (h : off = 0x2000 ∨ off = 0x2004) :
    writesPlain .sup (0x54000000 + off) v ⟨.mot, 0, 0, off⟩ s := by
  have hf : (motRegs.find? fun t => t.covers off).isSome = true := by obtain rfl | rfl := h <;> decide +kernel
  have hd : motionDest (0x54000000 + off - 0x54000000) = .reg ⟨.mot, 0, 0, off⟩ := by
    rw [Nat.add_sub_cancel_left]
    unfold motionDest
    rw [if_neg (by omega), if_neg (by omega), if_pos (by omega)]
  exact (reachesReg_motion (by omega) (by omega) (by omega) hd).plain hn fun _ _ => regWrite_mot hf

/-! ### Writes that the state discards -/

theorem writesNothing_runBounds (hn : s.notes = []) (h : off = 0x4034 ∨ off = 0x4038) (hs : s.get (SEAM_STAT.STATE e) ≠ seamIdle) :
    writesNothing .sup (0x48000000 + 0x40000 * e.val + off) v s := by
  have hf : (engRegs.find? fun t => t.covers off).isSome = true := by obtain rfl | rfl := h <;> decide +kernel
  have hb : (s.get (SEAM_STAT.STATE e) == seamIdle) = false := by simpa using hs
  refine (reachesReg_eng e (.inl rfl) (by omega) (by omega) (by omega)).nothing hn fun x same => ?_
  rw [regWrite_eng e hf]
  obtain rfl | rfl := h <;> simp [engWrite, seamWrite, hb]

theorem writesNothing_wrCfg (hn : s.notes = []) (hs : s.get (WR_STAT.STATE e) ≠ wrIdle) :
    writesNothing .sup (0x48000000 + 0x40000 * e.val + (WR_CFG.reg e).off) v s := by
  refine (reachesReg_eng e (off := 0x5004) (.inl rfl) (by decide) (by decide) rfl).nothing hn fun x same => ?_
  rw [regWrite_eng e (by decide +kernel)]
  simp [engWrite, wrWrite, hs]

theorem writesNothing_ratio (hn : s.notes = []) (x : Fin 4) (hg : s.isSet (AX_CTRL.GEAR x) = true) :
    writesNothing .sup (0x54000018 + 0x100 * x.val) v s := by
  have hd : motionDest (0x54000018 + 0x100 * x.val - 0x54000000) = .reg (AX_RATIO.reg x.val) := by
    have hi : (0x54000018 + 0x100 * x.val - 0x54000000) / 0x100 = x.val := by omega
    have hm : (0x54000018 + 0x100 * x.val - 0x54000000) % 0x100 = 0x18 := by omega
    unfold motionDest
    rw [if_pos (by omega), hi, hm]
  refine (reachesReg_motion (by omega) (by omega) (by omega) hd).nothing hn fun y same => ?_
  rw [regWrite_ax x (by decide +kernel)]
  simp [axWrite, hg]

/-- Queues the host does not configure: queues 1 to 64, and queue 0 outside NONE and DISABLED with IDLE (R370, R374). -/
theorem writesNothing_queueCfg (hn : s.notes = []) (q : Fin 65) (ho : off < 0x1C) (h4 : off % 4 = 0) (hq : q ≠ q0 ∨ cfgFree s q0 = false) :
    writesNothing .host (0x1000000 + 0x100 * q.val + off) v s := by
  refine (reachesReg_queue q (by omega) h4).nothing hn fun x same => ?_
  have hf : (qbRegs.find? fun t => t.covers off).isSome = true := by
    have hall : ∀ o : Fin 0x1C, o.val % 4 = 0 → (qbRegs.find? fun t => t.covers o.val).isSome = true := by decide +kernel
    exact hall ⟨off, ho⟩ h4
  rw [regWrite_queue q hf]
  unfold queueWrite
  rw [if_neg (by simp only [Reg.mk.injEq]; omega), if_neg (by simp only [Reg.mk.injEq]; omega), if_pos ho]
  by_cases hq0 : q = q0
  · subst hq0
    have hc : cfgFree s q0 = false := by simpa using hq
    simp [hc]
  · rw [if_pos hq0]
    rfl

/-! ### Doorbells -/

variable (q : Fin 65)

theorem idxIssue_of_no_doorbell (h1 : s.cqi.q[q].dbSq = false) (h2 : s.cqi.q[q].dbCq = false) : idxIssue q s = s := by
  unfold idxIssue
  simp only [h1, h2]
  simp

/-- An index read serves every doorbell registered so far, so that a second one is not issued. -/
theorem idxIssue_idem : idxIssue q (idxIssue q s) = idxIssue q s := by
  by_cases h : (s.hostOpen && s.cqi.q[q].idx.isNone && (s.cqi.q[q].dbSq || s.cqi.q[q].dbCq)) = true
  · have he : idxIssue q s = (s.modQ q fun i => { i with
        idx := some (if i.dbSq then some i.dbAt else none), dbSq := false, dbCq := false }).emit (.idxRead q.val) := if_pos h
    refine idxIssue_of_no_doorbell q ?_ ?_ <;> simp [he, State.modQ]
  · have he : idxIssue q s = s := if_neg h
    rw [he, he]

theorem idxIssue_doorSq (h1 : s.cqi.q[q].dbSq = false) (h2 : s.cqi.q[q].dbCq = false) : idxIssue q (doorSq q s) = doorSq q s := by
  unfold doorSq
  split
  · exact idxIssue_idem q
  · exact idxIssue_of_no_doorbell q h1 h2

/-- A doorbell for the submission queue alone (R351, R374). -/
theorem queueWrite_doorSq (h1 : s.cqi.q[q].dbSq = false) (h2 : s.cqi.q[q].dbCq = false) (hv : v.toNat % 4 = 1) :
    queueWrite true q (QB_DB.reg q) v s = doorSq q s := by
  have hsq : (QB_DB.SQ q).of v = 1 := by simp only [Fld.of]; omega
  have hcq : (QB_DB.CQ q).of v = 0 := by simp only [Fld.of, Nat.shiftRight_eq_div_pow]; omega
  unfold queueWrite
  simp only [Reg.mk.injEq, hsq, hcq]
  simp [idxIssue_doorSq q h1 h2]

theorem writesAs_doorSq (hn : s.notes = []) (h1 : s.cqi.q[q].dbSq = false) (h2 : s.cqi.q[q].dbCq = false) (hv : v.toNat % 4 = 1) :
    writesAs .host (0x1000028 + 0x100 * q.val) v (.doorbellSq q) s := by
  have ha : 0x1000028 + 0x100 * q.val = 0x1000000 + 0x100 * q.val + 0x28 := by omega
  refine (ha ▸ reachesReg_queue q (by decide) rfl : ReachesReg s _ _ _).writesAs fun same => ?_
  have hw : regWrite .host same ⟨.qb, q.val, 0, 0x28⟩ v s = doorSq q s := by
    rw [regWrite_queue q (by decide +kernel)]
    exact queueWrite_doorSq q h1 h2 hv
  rw [hw, settled_of_evolves hn (doorSq_ev q (.refl _) (.refl _ (fun _ => True) s)) rfl]
  rfl

end Sys2Proof.Machine
end

section
/-! Stores to memory, byte by byte: the memories of the cores and engines, DDR4 behind the stripe cache, and the message queues (R8, R20, R25,
R414, R416). -/
namespace Sys2Proof.Machine

variable {s : State} {rq : Req} {v hw addr : Word} {be : BitVec 4} {same : BitVec 15} {a id : Nat} {k : Mem}

/-! ### Memories -/

/-- A byte of a memory reads what was stored there last. -/
theorem State.memGet_memSet (hk : k ≠ .rom) (a b : Nat) (x : Byte) :
    (s.memSet k a x).memGet k b = if a = b then x else s.memGet k b := by
  have hset (m : List (Nat × Byte)) : Cells.get (fun _ => 0#8) (Cells.set Cells.natLt (fun _ => 0#8) m a x) b =
      if a = b then x else Cells.get (fun _ => 0#8) m b := by
    split
    · next h => rw [← h, Cells.get_set_same]
    · next h => rw [Cells.get_set_other _ _ _ _ h]
  cases k with
  | rom => exact absurd rfl hk
  | plc c => simpa [State.memSet, State.memGet] using hset _
  | core => exact hset _
  | esq e => simpa [State.memSet, State.memGet, State.modEng] using hset _
  | shared => exact hset _
  | cap e => simpa [State.memSet, State.memGet, State.modEng] using hset _

@[simp] theorem State.memSet_regs (k : Mem) (a : Nat) (x : Byte) : (s.memSet k a x).regs = s.regs := by cases k <;> rfl
@[simp] theorem State.memSet_mq (k : Mem) (a : Nat) (x : Byte) : (s.memSet k a x).mq = s.mq := by cases k <;> rfl

/-- Stores of the enabled bytes of a word, one after the other: each lies where it was put, and no other byte of the word changes. -/
theorem foldl_store {σ β : Type} {get : σ → Nat → β} {put : σ → Nat → β → σ} {x : Nat → β}
    (hput : ∀ t a b j, get (put t a (x j)) b = if a = b then x j else get t b) (a i : Nat) (l : List Nat) (hl : l.Nodup) (t : σ) :
    get (l.foldl (fun (t : σ) j => if be.getLsbD j then put t (a + j) (x j) else t) t) (a + i) =
      if i ∈ l ∧ be.getLsbD i = true then x i else get t (a + i) := by
  induction l generalizing t with
  | nil => simp
  | cons j js ih =>
    obtain ⟨hj, hjs⟩ := List.nodup_cons.mp hl
    rw [List.foldl_cons, ih hjs]
    by_cases hij : i = j
    · subst hij
      by_cases hb : be.getLsbD i <;> simp [hj, hb, hput]
    · by_cases hb : be.getLsbD j <;> simp [hij, Ne.symm hij, hb, hput]

/-- A store to a memory changes the bytes enabled and no other byte of its word. -/
theorem State.memGet_memWord (hk : k ≠ .rom) (a : Nat) (i : Fin 4) :
    (s.memWord k a be v).memGet k (a + i.val) = if be.getLsbD i.val then v.extractLsb' (8 * i.val) 8 else s.memGet k (a + i.val) := by
  unfold State.memWord
  rw [foldl_store (get := fun t b => t.memGet k b) (put := fun t b y => t.memSet k b y) (x := fun j => v.extractLsb' (8 * j) 8)
    (fun t a b j => State.memGet_memSet hk a b _) a i.val _ List.nodup_range s]
  simp

theorem State.memWord_keeps {γ : Type} (g : State → γ) (h : ∀ (s : State) a x, g (s.memSet k a x) = g s) (a : Nat) :
    g (s.memWord k a be v) = g s := by
  refine foldl_keeps g (fun t j => ?_) _ s
  split
  · exact h ..
  · rfl

theorem memGet_chkWrite (p : Nat) (k : Mem) (b : Nat) : (chkWrite rq p s).memGet k b = s.memGet k b := by cases k <;> rfl

theorem memWrite_regs : (memWrite rq k a be v s).regs = s.regs := by
  unfold memWrite
  split
  · rfl
  · exact State.memWord_keeps State.regs (fun _ _ _ => State.memSet_regs ..) a

theorem memGet_memWrite (hk : k ≠ .rom) (a : Nat) (i : Fin 4) :
    (memWrite rq k a be v s).memGet k (a + i.val) = if be.getLsbD i.val then v.extractLsb' (8 * i.val) 8 else s.memGet k (a + i.val) := by
  unfold memWrite
  split
  · next h => simp [h]
  · rw [memGet_chkWrite, State.memGet_memWord hk]

/-! ### DDR4 -/

/-- Entries changed without their key are found where they were. -/
theorem find?_map_of_key {α : Type} {key : α → Nat} {f : α → α} (hk : ∀ x, key (f x) = key x) (l : List α) (j : Nat) :
    (l.map f).find? (fun x => key x = j) = (l.find? fun x => key x = j).map f := by
  rw [List.find?_map]
  congr 2
  funext x
  simp [hk]

/-- The data of a cached line after a write of line `i`. -/
theorem find?_lines_upd (c : List (Nat × SLine)) (i j : Nat) (b : Block) (hl : c.any (fun l => l.2.line = i) = true) :
    ((c.map fun l => if l.2.line = i then (l.1, { l.2 with data := b, dirty := true }) else l).find? fun l => l.2.line = j).map (·.2.data) =
      if i = j then some b else (c.find? fun l => l.2.line = j).map (·.2.data) := by
  rw [find?_map_of_key (key := fun l : Nat × SLine => l.2.line) (fun l => by split <;> rfl)]
  cases hf : c.find? fun l => l.2.line = j with
  | some l =>
    have hlj : l.2.line = j := by simpa using List.find?_some hf
    by_cases hij : i = j
    · simp [hij, hlj]
    · simp [hij, hlj, Ne.symm hij]
  | none =>
    have hij : i ≠ j := by
      rintro rfl
      obtain ⟨l, hm, hli⟩ := List.any_eq_true.mp hl
      exact List.find?_eq_none.mp hf l hm hli
    simp [hij]

/-- The data of a line in the eviction buffer after a write of line `i`. -/
theorem find?_evb_upd (c : List (Nat × Block)) (i j : Nat) (b : Block) (hl : c.any (fun l => l.1 = i) = true) :
    ((c.map fun l => if l.1 = i then (i, b) else l).find? fun l => l.1 = j).map (·.2) =
      if i = j then some b else (c.find? fun l => l.1 = j).map (·.2) := by
  rw [find?_map_of_key (key := fun l : Nat × Block => l.1) (fun l => by split <;> simp_all)]
  cases hf : c.find? fun l => l.1 = j with
  | some l =>
    have hlj : l.1 = j := by simpa using List.find?_some hf
    by_cases hij : i = j
    · simp [hij, hlj]
    · simp [hij, hlj, Ne.symm hij]
  | none =>
    have hij : i ≠ j := by
      rintro rfl
      obtain ⟨l, hm, hli⟩ := List.any_eq_true.mp hl
      exact List.find?_eq_none.mp hf l hm hli
    simp [hij]

theorem find?_none_of_not_any {α : Type} {p : α → Bool} {l : List α} (h : ¬ l.any p = true) : l.find? p = none :=
  List.find?_eq_none.mpr fun x hx hp => h (List.any_eq_true.mpr ⟨x, hx, hp⟩)

/-- A line as every requester sees it, by where it is held. -/
theorem State.ddrLine_eq (s : State) (j : Nat) : s.ddrLine j =
    ((s.mem.strc.lines.find? fun l => l.2.line = j).map (·.2.data)).getD
      (((s.mem.strc.evb.find? fun l => l.1 = j).map (·.2)).getD (s.dramLine j)) := by
  unfold State.ddrLine
  cases s.mem.strc.lines.find? fun l => l.2.line = j with
  | some l => rfl
  | none => cases s.mem.strc.evb.find? fun l => l.1 = j <;> rfl

/-- A line reads what was written to it last, wherever it is held (R416). -/
theorem State.ddrLine_ddrSetLine (i j : Nat) (b : Block) : (s.ddrSetLine i b).ddrLine j = if i = j then b else s.ddrLine j := by
  rw [State.ddrLine_eq, State.ddrLine_eq s]
  unfold State.ddrSetLine
  by_cases hl : s.mem.strc.lines.any (fun l => l.2.line = i) = true
  · rw [if_pos hl]
    dsimp only
    rw [find?_lines_upd _ i j b hl]
    split <;> rfl
  · rw [if_neg hl]
    have hnl := find?_none_of_not_any hl
    by_cases he : s.mem.strc.evb.any (fun l => l.1 = i) = true
    · rw [if_pos he]
      dsimp only
      rw [find?_evb_upd _ i j b he]
      by_cases hij : i = j
      · subst hij
        rw [hnl, if_pos rfl, if_pos rfl]
        rfl
      · rw [if_neg hij, if_neg hij]
        rfl
    · rw [if_neg he]
      have hne := find?_none_of_not_any he
      by_cases hij : i = j
      · subst hij
        simp [hnl, hne, State.dramLine, State.dramSet, Cells.get_set_same]
      · simp [hij, State.dramLine, State.dramSet, Cells.get_set_other _ _ _ _ hij]

/-- A byte of a line. -/
def lineByte (b : Block) (o : Nat) : Nat := (b.toNat >>> (8 * o)) % 2 ^ 8

theorem testBit_lineByte (b : Block) (o i : Nat) : (lineByte b o).testBit i = (decide (i < 8) && b.getLsbD (8 * o + i)) := by
  rw [lineByte, Nat.testBit_mod_two_pow, Nat.testBit_shiftRight]
  rfl

theorem State.ddrNum_byte (a : Nat) : s.ddrNum a 1 = lineByte (s.ddrLine (a / 4096)) (a % 4096) := rfl

/-- The line that `ddrPut` writes for one byte holds it there, and what it held elsewhere. -/
theorem lineByte_put (b : Block) {o o' : Nat} (ho' : o' < 4096) (x : Nat) :
    lineByte ((b &&& ~~~ ((BitVec.ofNat 32768 (2 ^ (8 * 1) - 1)) <<< (8 * o))) |||
      ((BitVec.ofNat 32768 x <<< (8 * o)) &&& ((BitVec.ofNat 32768 (2 ^ (8 * 1) - 1)) <<< (8 * o)))) o' =
        if o = o' then x % 2 ^ 8 else lineByte b o' := by
  have hmask (n : Nat) (hn : n < 32768) : ((BitVec.ofNat 32768 (2 ^ (8 * 1) - 1)) <<< (8 * o)).getLsbD n =
      (decide (8 * o ≤ n) && decide (n < 8 * o + 8)) := by
    rw [BitVec.getLsbD_shiftLeft, BitVec.getLsbD_ofNat, Nat.testBit_two_pow_sub_one]
    by_cases h1 : 8 * o ≤ n <;> by_cases h2 : n < 8 * o + 8 <;> simp [h1, h2, hn] <;> omega
  refine Nat.eq_of_testBit_eq fun i => ?_
  rw [testBit_lineByte]
  by_cases hi : i < 8
  · have hn : 8 * o' + i < 32768 := by omega
    rw [BitVec.getLsbD_or, BitVec.getLsbD_and, BitVec.getLsbD_and, BitVec.getLsbD_not, hmask _ hn, BitVec.getLsbD_shiftLeft,
      BitVec.getLsbD_ofNat]
    by_cases hoo : o = o'
    · subst hoo
      have h8 : 8 * o + i - 8 * o = i := by omega
      have h8' : i < 32768 := by omega
      rw [if_pos rfl, Nat.testBit_mod_two_pow, h8]
      simp [hi, hn, h8']
    · have hout : (decide (8 * o ≤ 8 * o' + i) && decide (8 * o' + i < 8 * o + 8)) = false := by
        simp only [Bool.and_eq_false_iff, decide_eq_false_iff_not]
        omega
      rw [hout, if_neg hoo, testBit_lineByte]
      simp [hn]
  · have hx : (x % 2 ^ 8).testBit i = false := by rw [Nat.testBit_mod_two_pow]; simp [hi]
    split
    · rw [hx]; simp [hi]
    · simp [hi, testBit_lineByte]

theorem State.ddrNum_ddrPut_byte (a b x : Nat) : (s.ddrPut a 1 x).ddrNum b 1 = if a = b then x % 2 ^ 8 else s.ddrNum b 1 := by
  unfold State.ddrPut
  rw [State.ddrNum_byte, State.ddrLine_ddrSetLine]
  by_cases hl : a / 4096 = b / 4096
  · have hab : a % 4096 = b % 4096 ↔ a = b := by omega
    rw [if_pos hl, lineByte_put _ (Nat.mod_lt _ (by decide)), hl]
    simp only [hab]
    rfl
  · have hab : a ≠ b := fun h => hl (h ▸ rfl)
    rw [if_neg hl, if_neg hab]
    rfl

theorem State.ddrSetLine_keeps {γ : Type} (g : State → γ) (hd : ∀ (s : State) i b, g (s.dramSet i b) = g s)
    (hm : ∀ (s : State) m, g { s with mem := m } = g s) (i : Nat) (b : Block) : g (s.ddrSetLine i b) = g s := by
  unfold State.ddrSetLine
  extract_lets c upd
  split
  · exact hm ..
  · split
    · exact hm ..
    · rw [hm, hd]

theorem State.ddrPut_keeps {γ : Type} (g : State → γ) (hd : ∀ (s : State) i b, g (s.dramSet i b) = g s)
    (hm : ∀ (s : State) m, g { s with mem := m } = g s) (a n x : Nat) : g (s.ddrPut a n x) = g s := by
  unfold State.ddrPut
  exact State.ddrSetLine_keeps g hd hm _ _

theorem destWrite_ddr_keeps {γ : Type} (g : State → γ) (hd : ∀ (s : State) i b, g (s.dramSet i b) = g s)
    (hm : ∀ (s : State) m, g { s with mem := m } = g s) : g (destWrite rq be v hw same true (.ddr a) s) = g s := by
  unfold destWrite
  refine foldl_keeps g (fun t j => ?_) _ s
  split
  · exact State.ddrPut_keeps g hd hm _ _ _
  · rfl

/-- The bytes of a word stored in DDR4. -/
theorem ddrNum_destWrite_ddr (h4 : a % 4 = 0) (i : Fin 4) :
    (destWrite rq 0xF#4 v hw same true (.ddr a) s).ddrNum (a + i.val) 1 = (v.extractLsb' (8 * i.val) 8).toNat := by
  have ha4 : a / 4 * 4 = a := by omega
  have henabled : ∀ i : Fin 4, (0xF#4).getLsbD i.val = true := by decide
  have hbyte := foldl_store (be := 0xF#4) (get := fun (t : State) b => t.ddrNum b 1) (put := fun t b y => t.ddrPut b 1 y)
    (x := fun j => bits v (8 * j) 8) (fun t a b j => by simp [State.ddrNum_ddrPut_byte, bits]) a i.val (.range 4) List.nodup_range s
  unfold destWrite
  dsimp only
  rw [ha4, hbyte, if_pos ⟨List.mem_range.mpr i.isLt, henabled i⟩]
  simp [bits]

/-! ### Stores of a processor -/

/-- A store to a memory (R17, R20). -/
theorem runs_store_mem (hn : s.notes = []) (hid : reqId rq = some id) (hmay : coreMay s rq addr.toNat = true) (hu : inUMode s rq = false)
    (hal : storeMisaligned addr.toNat be = false) (hd : coreDest s rq addr.toNat = .mem k a) (hk : k ≠ .rom) :
    runs (.registerWrite rq addr be v hw same) s fun t => t.regs = s.regs ∧ ∀ i : Fin 4, t.memGet k (a / 4 * 4 + i.val) =
      if be.getLsbD i.val then v.extractLsb' (8 * i.val) 8 else s.memGet k (a / 4 * 4 + i.val) := by
  refine runs_of_settled (t := memWrite rq k (a / 4 * 4) be v s) ?_ ?_ ⟨memWrite_regs, memGet_memWrite hk _⟩
  · rw [exec_registerWrite, registerWriteOp_may hid hal hmay hu, hd]
    rfl
  · exact ((memWrite_ev rq k _ be v (.refl _) (fun _ => trivial) (.refl _ (fun _ => True) s)).notes rfl).trans hn

theorem coreDest_ddr (h : 0x80000000 ≤ a) : coreDest s rq a = .ddr (windowAddr s rq a) := by
  unfold coreDest
  repeat rw [if_neg (by omega)]
  exact if_pos h

theorem windowAddr_lt (h : 0x80000000 ≤ a) (hmay : coreMay s rq a = true) : windowAddr s rq a < ddrBytes s := by
  unfold coreMay at hmay
  repeat rw [if_neg (by omega)] at hmay
  simp only [Bool.and_eq_true, decide_eq_true_eq] at hmay
  exact hmay.2

/-- A store of a word through a core's DDR window (R25). -/
theorem runs_store_ddr (hn : s.notes = []) (hid : reqId rq = some id) (hmay : coreMay s rq addr.toNat = true) (hu : inUMode s rq = false)
    (h4 : addr.toNat % 4 = 0) (h8 : 0x80000000 ≤ addr.toNat) (ha : a = windowAddr s rq addr.toNat) :
    runs (.registerWrite rq addr 0xF#4 v hw same) s fun t => t.regs = s.regs ∧ a < ddrBytes s ∧
      ∀ i : Fin 4, t.ddrNum (a + i.val) 1 = (v.extractLsb' (8 * i.val) 8).toNat := by
  have ha4 : a % 4 = 0 := by
    have hw : a = _ * 2 ^ 27 + _ := ha
    omega
  refine runs_of_settled (t := destWrite rq 0xF#4 v hw same true (.ddr a) s) ?_
    ((destWrite_ddr_keeps State.notes (fun _ _ _ => rfl) (fun _ _ => rfl)).trans hn)
    ⟨destWrite_ddr_keeps State.regs (fun _ _ _ => rfl) (fun _ _ => rfl), ha ▸ windowAddr_lt h8 hmay, ddrNum_destWrite_ddr ha4⟩
  rw [exec_registerWrite, registerWriteOp_may hid (by rw [storeMisaligned_whole, h4]; rfl) hmay hu, h4, coreDest_ddr h8, ← ha]
  rfl

/-- The last word of a message puts it into its queue (R20). -/
theorem runs_store_message {q : Nat} (hn : s.notes = []) (hid : reqId rq = some id) (hmay : coreMay s rq addr.toNat = true)
    (hu : inUMode s rq = false) (hd : coreDest s rq addr.toNat = .queue q 3) (h4 : addr.toNat % 4 = 0)
    (hfull : Config.mqFull q (s.mqGet q).length = false) :
    runs (.registerWrite rq addr 0xF#4 v hw same) s fun t =>
      t.mqGet q = s.mqGet q ++ [BitVec.ofNat 128 (t.memNum .shared (Config.mqWindow.toNat + 16 * q) 16)] := by
  refine runs_of_settled (t := queueWord q 3 v s) ?_ ?_ ?_
  · rw [exec_registerWrite, registerWriteOp_may hid (by rw [storeMisaligned_whole, h4]; rfl) hmay hu, h4, hd]
    rfl
  · exact ((queueWord_ev q 3 v (.refl _) (fun _ => trivial) (.refl _ (fun _ => True) s)).notes rfl).trans hn
  · unfold queueWord
    extract_lets b t
    have ht : t.mqGet q = s.mqGet q := congrArg (Cells.get (fun _ => []) · q) (State.memWord_keeps State.mq (fun _ _ _ => State.memSet_mq ..) _)
    rw [if_neg (by simp [ht, hfull])]
    exact (Cells.get_set_same ..).trans (by rw [ht]; rfl)

end Sys2Proof.Machine
end

section
/-! The host's writes of the configuration space and of the MSI-X table: Bus Master Enable, the enable and mask bits of MSI-X, the function
reset, the mask bit of a vector (R345, R346, R371, R372, R491). -/
namespace Sys2Proof.Machine

variable {s : State} {v hw : Word} {be : BitVec 4} {same : BitVec 15} {off : Nat}

/-! ### What messages and completions leave as it is -/

/-- What the host has set for requests and messages of the part: Bus Master Enable, the MSI-X enable and function mask, the vectors' mask bits. -/
def CqiInt.gates (c : CqiInt) : Bool × Bool × Bool × BitVec 129 := (c.bme, c.msixEn, c.fmask, c.mask)

@[simp] theorem State.msixReq_gates (n : Nat) : (s.msixReq n).cqi.gates = s.cqi.gates := by
  unfold State.msixReq
  split
  · rfl
  · split
    · rfl
    · split
      · rfl
      · split <;> rfl

@[simp] theorem State.modQ_gates (q : Fin 65) (f : QInt → QInt) : (s.modQ q f).cqi.gates = s.cqi.gates := rfl

@[simp] theorem idxIssue_gates (q : Fin 65) : (idxIssue q s).cqi.gates = s.cqi.gates := by
  unfold idxIssue
  dsimp only
  split <;> simp

@[simp] theorem cqWrite_gates (q : Fin 65) (c : Cqe) : (cqWrite q c s).cqi.gates = s.cqi.gates := by
  unfold cqWrite
  extract_lets t s1 s2 s3
  have h2 : s2.cqi.gates = s.cqi.gates := by
    simp only [s2]
    split <;> rfl
  rw [State.msixReq_gates, State.modQ_gates, h2]

theorem cqDrain_gates (q : Fin 65) (n : Nat) (s : State) : (cqDrain q n s).cqi.gates = s.cqi.gates := by
  induction n generalizing s with
  | zero => rfl
  | succ n ih =>
    unfold cqDrain
    dsimp only
    split
    · rfl
    · split
      · rfl
      · rw [ih, cqWrite_gates]
        rfl

@[simp] theorem cqFlush_gates (q : Fin 65) : (cqFlush q s).cqi.gates = s.cqi.gates := cqDrain_gates ..

@[simp] theorem heldOut_gates : (heldOut s).cqi.gates = s.cqi.gates := by
  unfold heldOut
  dsimp only
  split
  · refine (foldl_keeps (fun s : State => s.cqi.gates) (fun t q => ?_) _ _).trans
      (foldl_keeps (fun s : State => s.cqi.gates) (fun t n => State.msixReq_gates n) _ _)
    rw [idxIssue_gates]
    split <;> simp
  · rfl

@[simp] theorem pbaSend_gates (n : Nat) : (pbaSend n s).cqi.gates = s.cqi.gates := by
  unfold pbaSend
  split
  · rw [State.msixReq_gates]
    rfl
  · rfl

@[simp] theorem pbaAll_gates : (pbaAll s).cqi.gates = s.cqi.gates :=
  foldl_keeps (fun s : State => s.cqi.gates) (fun _ n => pbaSend_gates n) _ _

theorem CqiInt.bme_of_gates {c d : CqiInt} (h : c.gates = d.gates) : c.bme = d.bme := congrArg (·.1) h
theorem CqiInt.msixEn_of_gates {c d : CqiInt} (h : c.gates = d.gates) : c.msixEn = d.msixEn := congrArg (·.2.1) h
theorem CqiInt.fmask_of_gates {c d : CqiInt} (h : c.gates = d.gates) : c.fmask = d.fmask := congrArg (·.2.2.1) h
theorem CqiInt.mask_of_gates {c d : CqiInt} (h : c.gates = d.gates) : c.mask = d.mask := congrArg (·.2.2.2) h

/-! ### The configuration space -/

theorem hostWriteDest_config (ho : off < 0x1000) : hostWriteDest s (0x20000000 + off) = .config off := by
  unfold hostWriteDest hostDest
  repeat rw [if_neg (by omega)]
  rw [if_pos (by omega), Nat.add_sub_cancel_left]

/-- An aligned write of the configuration space. -/
theorem runs_config {p : State → Prop} (hn : s.notes = []) (ho : off < 0x1000) (h4 : off % 4 = 0) (hp : p (configWrite off be v s)) :
    runs (.registerWrite .host (BitVec.ofNat 32 (0x20000000 + off)) be v hw same) s p := by
  have ha : (BitVec.ofNat 32 (0x20000000 + off)).toNat = 0x20000000 + off := Nat.mod_eq_of_lt (by omega)
  have h4' : (0x20000000 + off) % 4 = 0 := by omega
  refine runs_of_settled ?_ (((configWrite_ev off be v (.refl _) (.refl _ (fun _ => True) s)).notes rfl).trans hn) hp
  rw [exec_registerWrite, registerWriteOp_host, ha, hostWriteDest_config ho, h4']
  rfl

theorem configWrite_command (hb : be.getLsbD 0 = true) :
    configWrite 0x4 be v s = busMaster (v.getLsbD 2) (cfgPut 1 (beMask be) v s) := if_pos ⟨rfl, hb⟩

theorem configWrite_msix (hb : be.getLsbD 3 = true) : configWrite 0x50 be v s =
    pbaAll { cfgPut 20 (beMask be) v s with
      cqi := { (cfgPut 20 (beMask be) v s).cqi with msixEn := v.getLsbD 31, fmask := v.getLsbD 30 } } := by
  unfold configWrite
  rw [if_neg (by simp), if_neg (by simp), if_pos ⟨rfl, hb⟩]

theorem configWrite_device (hb : be.getLsbD 1 = true) (hv : v.getLsbD 15 = true) :
    configWrite 0x68 be v s = resetStart true (cfgPut 26 (beMask be) v s) := by
  unfold configWrite
  rw [if_neg (by simp), if_neg (by simp), if_neg (by simp), if_pos ⟨rfl, hb, hv⟩]

/-- Bus Master Enable: the part issues requests, and CQI_STAT.BME_WAIT says that it may not (R346). -/
theorem busMaster_sets (on : Bool) : (busMaster on s).cqi.bme = on ∧ (busMaster on s).isSet CQI_STAT.BME_WAIT = !on := by
  unfold busMaster
  constructor
  · rw [CqiInt.bme_of_gates heldOut_gates]
    rfl
  · have hrd := (heldOut_ev (.refl _) (.refl _ (fun _ => True)
      (({ s with cqi := { s.cqi with bme := on } } : State).putBool CQI_STAT.BME_WAIT (!on)))).regs CQI_STAT.reg rfl
    rw [State.isSet, State.get, hrd, ← State.get, State.putBool_eq, State.get_put _ _ _ (by decide)]
    cases on <;> rfl

/-- What the function reset of a running part does, as far as its end is read here: the three bits of CQI_STAT, one after the other. -/
theorem resetStart_running (h : s.pw.life = .running) : ∃ t : State, resetStart true s = t.put CQI_STAT.BME_WAIT 1 ∧
    t.regs = ((s.put CQI_STAT.READY 0).put CQI_STAT.RESETTING 1).regs ∧ t.cqi.bme = false ∧ t.cqi.mask = BitVec.allOnes 129 := by
  have hl : (s.pw.life != .running) = false := by rw [h]; rfl
  unfold resetStart
  rw [hl]
  exact ⟨_, rfl, rfl, rfl, rfl⟩

/-- The function reset begins: the part is not ready, and the host's configuration is as after power-up (R371, R372). -/
theorem resetStart_config (h : s.pw.life = .running) :
    (resetStart true s).get CQI_STAT.READY = 0 ∧ (resetStart true s).get CQI_STAT.RESETTING = 1 ∧
      (resetStart true s).cqi.bme = false ∧ (resetStart true s).cqi.mask = BitVec.allOnes 129 := by
  obtain ⟨t, ht, hregs, hbme, hmask⟩ := resetStart_running h
  have hget (f : Fld) : t.get f = ((s.put CQI_STAT.READY 0).put CQI_STAT.RESETTING 1).get f := by
    rw [State.get, State.rd, hregs]
    rfl
  rw [ht]
  refine ⟨?_, ?_, hbme, hmask⟩
  · rw [State.get_put_apart _ _ (by decide) (by decide) (by decide), hget,
      State.get_put_apart _ _ (by decide) (by decide) (by decide), State.get_put _ _ _ (by decide)]
    rfl
  · rw [State.get_put_apart _ _ (by decide) (by decide) (by decide), hget, State.get_put _ _ _ (by decide)]
    rfl

theorem runs_busMaster (hn : s.notes = []) (hb : be.getLsbD 0 = true) :
    runs (.registerWrite .host 0x20000004#32 be v hw same) s fun t =>
      t.cqi.bme = v.getLsbD 2 ∧ t.isSet CQI_STAT.BME_WAIT = !v.getLsbD 2 := by
  refine runs_config (off := 0x4) hn (by decide) rfl ?_
  rw [configWrite_command hb]
  exact busMaster_sets _

theorem runs_msixControl (hn : s.notes = []) (hb : be.getLsbD 3 = true) :
    runs (.registerWrite .host 0x20000050#32 be v hw same) s fun t => t.cqi.msixEn = v.getLsbD 31 ∧ t.cqi.fmask = v.getLsbD 30 := by
  refine runs_config (off := 0x50) hn (by decide) rfl ?_
  rw [configWrite_msix hb]
  exact ⟨CqiInt.msixEn_of_gates pbaAll_gates, CqiInt.fmask_of_gates pbaAll_gates⟩

theorem runs_functionReset (hn : s.notes = []) (hb : be.getLsbD 1 = true) (hv : v.getLsbD 15 = true) (hl : s.pw.life = .running) :
    runs (.registerWrite .host 0x20000068#32 be v hw same) s fun t => t.get CQI_STAT.READY = 0 ∧ t.get CQI_STAT.RESETTING = 1 ∧
      t.cqi.bme = false ∧ t.cqi.mask = BitVec.allOnes 129 := by
  refine runs_config (off := 0x68) hn (by decide) rfl ?_
  rw [configWrite_device hb hv]
  exact resetStart_config hl

/-! ### The mask bit of a vector -/

theorem hostWriteDest_msix (ho : off < 0x4000) : hostWriteDest s (0x10000000 + off) = .msix off := by
  unfold hostWriteDest hostDest
  repeat rw [if_neg (by omega)]
  rw [if_pos (by omega), Nat.add_sub_cancel_left]

theorem msixWrite_control {i : Nat} (hi : i < 129) : msixWrite (12 + 16 * i) v s =
    if v.getLsbD 0 then { s with cqi := { s.cqi with mask := s.cqi.mask ||| BitVec.twoPow 129 i } } else msixUnmaskOp i s := by
  have hq : (12 + 16 * i) / 16 = i := by omega
  unfold msixWrite
  rw [hq]
  dsimp only
  rw [if_neg (by omega), if_pos (by omega)]

theorem msixWrite_mask {i : Nat} (hi : i < 129) : (msixWrite (12 + 16 * i) v s).cqi.mask.getLsbD i = v.getLsbD 0 := by
  rw [msixWrite_control hi]
  split
  · next h => simp [h, hi]
  · next h =>
    rw [msixUnmaskOp, CqiInt.mask_of_gates (pbaSend_gates i), Bool.eq_false_iff.mpr h]
    simp [hi]

theorem runs_msixMask (hn : s.notes = []) (i : Fin 129) :
    runs (.registerWrite .host (BitVec.ofNat 32 (0x1000000C + 16 * i.val)) 0xF#4 v hw same) s fun t =>
      t.cqi.mask.getLsbD i.val = v.getLsbD 0 := by
  have hi := i.isLt
  have hsum : 0x1000000C + 16 * i.val = 0x10000000 + (12 + 16 * i.val) := by omega
  have ha : (BitVec.ofNat 32 (0x1000000C + 16 * i.val)).toNat = 0x1000000C + 16 * i.val := Nat.mod_eq_of_lt (by omega)
  have h4 : (0x10000000 + (12 + 16 * i.val)) % 4 = 0 := by omega
  refine runs_of_settled (t := msixWrite (12 + 16 * i.val) v s) ?_ ?_ (msixWrite_mask hi)
  · rw [exec_registerWrite, registerWriteOp_host, ha, hsum, hostWriteDest_msix (by omega), h4]
    rfl
  · exact ((msixWrite_ev (12 + 16 * i.val) v (.refl _) (.refl _ (fun _ => True) s)).notes rfl).trans hn

end Sys2Proof.Machine
end

section
/-! Writes that do not take place, access faults, and the whole of O54 (R9, R12, R18, R24). -/
namespace Sys2Proof.Machine

variable {s : State} {rq : Req} {v hw addr : Word} {be : BitVec 4} {same : BitVec 15} {id : Nat}

/-! ### Misaligned and partial writes -/

/-- What takes whole words only: registers, the memories of the Anvil engines, the message queues and the MSI-X table (R12). -/
def Dest.TakesWords (d : Dest) : Prop :=
  (∃ r, d = .reg r) ∨ (∃ e b a, d = .pm e b a) ∨ (∃ e a, d = .dm e a) ∨ (∃ q w, d = .queue q w) ∨ ∃ a, d = .msix a

theorem destWrite_partial {d : Dest} (hd : d.TakesWords) {aligned : Bool} (hw' : (aligned && be == 0xF#4) = false) :
    destWrite rq be v hw same aligned d s = s := by
  obtain ⟨r, rfl⟩ | ⟨e, b, a, rfl⟩ | ⟨e, a, rfl⟩ | ⟨q, w, rfl⟩ | ⟨a, rfl⟩ := hd <;> simp [destWrite, regAccess, hw']

theorem registerWriteOp_misaligned (hid : reqId rq = some id) (h : storeMisaligned addr.toNat be = true) :
    registerWriteOp rq addr be v hw same s = s := by rw [registerWriteOp_core hid, if_pos h]

theorem registerWriteOp_partial (hrq : rq = .host ∨ (reqId rq).isSome = true ∧ coreMay s rq addr.toNat = true) (hu : inUMode s rq = false)
    (hd : Dest.TakesWords (if rq = .host then hostWriteDest s addr.toNat else coreDest s rq addr.toNat))
    (h : addr.toNat % 4 ≠ 0 ∨ be ≠ 0xF#4) : registerWriteOp rq addr be v hw same s = s := by
  have hwhole : (addr.toNat % 4 == 0 && be == 0xF#4) = false := by
    rw [Bool.and_eq_false_iff, beq_eq_false_iff_ne, beq_eq_false_iff_ne]
    exact h
  obtain rfl | ⟨hsome, hmay⟩ := hrq
  · rw [registerWriteOp_host]
    exact destWrite_partial hd hwhole
  · obtain ⟨id, hid⟩ := Option.isSome_iff_exists.mp hsome
    have hne : rq ≠ .host := by rintro rfl; cases hid
    rw [if_neg hne] at hd
    cases hal : storeMisaligned addr.toNat be with
    | true => exact registerWriteOp_misaligned hid hal
    | false =>
      rw [registerWriteOp_may hid hal hmay hu]
      exact destWrite_partial hd hwhole

theorem runs_partial (hn : s.notes = []) (hrq : rq = .host ∨ (reqId rq).isSome = true ∧ coreMay s rq addr.toNat = true)
    (hu : inUMode s rq = false) (hd : Dest.TakesWords (if rq = .host then hostWriteDest s addr.toNat else coreDest s rq addr.toNat))
    (h : addr.toNat % 4 ≠ 0 ∨ be ≠ 0xF#4) : runs (.registerWrite rq addr be v hw same) s fun t => t = s := by
  refine runs_same ?_ hn
  rw [exec_registerWrite, registerWriteOp_partial hrq hu hd h]

theorem runs_misaligned (hn : s.notes = []) (hid : reqId rq = some id) (h : storeMisaligned addr.toNat be = true) :
    runs (.registerWrite rq addr be v hw same) s fun t => t = s := by
  refine runs_same ?_ hn
  rw [exec_registerWrite, registerWriteOp_misaligned hid h]

/-! ### Access faults -/

/-- The first access fault of a core is remembered and logged; those after it change nothing (R24). -/
def faultRecorded (core : Fin 16) (addr : Word) (s : State) : State :=
  if s.pw.accFault.getLsbD core.val then s
  else ({ s with pw := { s.pw with accFault := s.pw.accFault ||| BitVec.twoPow 16 core.val } } : State).logEvent .accessFault [core.val, addr.toNat]

theorem accessFault_eq (core : Fin 16) (w : Bool) : accessFault core addr w s =
    if core.val < 4 ∧ (faultRecorded core addr s).arm.plc[core.val % 4].user then
      callFault (Fin.ofNat 4 core.val) pfAccess (faultRecorded core addr s)
    else faultRecorded core addr s := rfl

section
variable (core : Fin 16)

/-- A part of the state that neither the record of the fault nor the event log holds. -/
theorem faultRecorded_keeps {γ : Type} (g : State → γ) (hp : ∀ p, g { s with pw := p } = g s)
    (hl : ∀ (t : State) c l, g (t.logEvent c l) = g t) : g (faultRecorded core addr s) = g s := by
  unfold faultRecorded
  split
  · rfl
  · rw [hl, hp]

theorem faultRecorded_arm : (faultRecorded core addr s).arm = s.arm :=
  faultRecorded_keeps core State.arm (fun _ => rfl) fun _ _ _ => State.logEvent_arm ..

theorem faultRecorded_eng : (faultRecorded core addr s).eng = s.eng := by
  refine faultRecorded_keeps core State.eng (fun _ => rfl) fun t c l => ?_
  exact Vector.ext fun i hi => (State.logEvent_ev c l (.refl _) (.refl _ (fun _ => False) t)).engs ⟨i, hi⟩ id

theorem faultRecorded_notes : (faultRecorded core addr s).notes = s.notes :=
  faultRecorded_keeps core State.notes (fun _ => rfl) fun t c l => (State.logEvent_ev c l (.refl _) (.refl _ (fun _ => True) t)).notes rfl

theorem Reg.group_ne_cqi {r : Reg} (h : r.blk ≠ .cqi) : r.group ≠ .cqi := by
  have hite {c : Prop} [Decidable c] {x y : RegGroup} (hx : x ≠ .cqi) (hy : y ≠ .cqi) : (if c then x else y) ≠ .cqi := by
    split <;> assumption
  obtain ⟨blk, i, j, off⟩ := r
  cases blk
  case cqi => exact absurd rfl h
  all_goals
    unfold Reg.group
    dsimp only
    repeat refine hite (by decide) ?_
    decide

theorem testBit_logEvent_group {x : RegGroup} (h : x ≠ .cqi) : Nat.testBit 0x441000010000000 x.idx = false := by
  revert h
  cases x <;> decide

theorem faultRecorded_rd {r : Reg} (h : r.blk ≠ .cqi) : (faultRecorded core addr s).rd r = s.rd r :=
  faultRecorded_keeps core (fun s : State => s.rd r) (fun _ => rfl)
    fun t c l => (State.logEvent_ev c l (.refl _) (.refl _ (fun _ => True) t)).regs r (testBit_logEvent_group (Reg.group_ne_cqi h))

theorem faultRecorded_accFault : (faultRecorded core addr s).pw.accFault.getLsbD core.val = true := by
  unfold faultRecorded
  split
  · assumption
  · rw [(State.logEvent_ev _ _ (.refl _) (.refl _ (fun _ => True) _)).power rfl]
    simp

theorem State.logEvent_head (t : State) (c : EvCode) (l : List Nat) :
    ((t.logEvent c l).events.head?.map fun x => (x.code, x.args)) = some (c, l) := by
  unfold State.logEvent
  rw [((State.cqiEvent_ev (M := 0x440000010000000) .cqi rfl rfl rfl (Sub.of (.refl _) rfl) (.refl _ (fun _ => True) _)).log rfl).1]
  rfl

theorem faultRecorded_event (h : s.pw.accFault.getLsbD core.val = false) :
    ((faultRecorded core addr s).events.head?.map fun x => (x.code, x.args)) = some (.accessFault, [core.val, addr.toNat]) := by
  unfold faultRecorded
  rw [if_neg (Bool.eq_false_iff.mp h), State.logEvent_head]

end

theorem reqId_lt (hid : reqId rq = some id) : id < 16 := by
  cases rq <;> simp only [reqId, Option.some.injEq, reduceCtorEq] at hid <;> omega

/-- A fault outside U mode is recorded and ends no call. -/
theorem accessFault_not_inUMode (hid : reqId rq = some id) (hu : inUMode s rq = false) (w : Bool) :
    accessFault (Fin.ofNat 16 id) addr w s = faultRecorded (Fin.ofNat 16 id) addr s := by
  rw [accessFault_eq, if_neg]
  rintro ⟨hlt, huser⟩
  have hv : (Fin.ofNat 16 id).val = id := Nat.mod_eq_of_lt (reqId_lt hid)
  cases rq with
  | plc c =>
    obtain rfl : c.val = id := Option.some.inj hid
    have hc : c.val % 4 = c.val := Nat.mod_eq_of_lt c.isLt
    simp only [faultRecorded_arm, hv, hc] at huser
    exact Bool.eq_false_iff.mp hu huser
  | hst c => cases hid; omega
  | sup => cases hid; omega
  | sec => cases hid; omega
  | esq e => cases hid; omega
  | anv e => cases hid
  | host => cases hid

theorem registerWriteOp_fault (hid : reqId rq = some id) (hal : storeMisaligned addr.toNat be = false)
    (h : coreMay s rq addr.toNat = false ∨ pmpMay s rq addr.toNat (popcount 4 be.toNat) true = false) :
    registerWriteOp rq addr be v hw same s = accessFault (Fin.ofNat 16 id) addr true s := by
  rw [registerWriteOp_core hid, hal, if_neg Bool.false_ne_true, if_pos]
  obtain h | h := h <;> simp [h]

/-- A store that its core may not make. -/
theorem runs_store_fault (hn : s.notes = []) (hid : reqId rq = some id) (hal : storeMisaligned addr.toNat be = false)
    (hmay : coreMay s rq addr.toNat = false) (hu : inUMode s rq = false) :
    runs (.registerWrite rq addr be v hw same) s fun t => t.pw.accFault.getLsbD id = true ∧ (∀ r, r.blk ≠ .cqi → t.rd r = s.rd r) ∧
      t.eng = s.eng ∧ t.arm = s.arm ∧
      (s.pw.accFault.getLsbD id = false → (t.events.head?.map fun x => (x.code, x.args)) = some (EvCode.accessFault, [id, addr.toNat])) := by
  have hv : (Fin.ofNat 16 id).val = id := Nat.mod_eq_of_lt (reqId_lt hid)
  have hbit := faultRecorded_accFault (s := s) (addr := addr) (Fin.ofNat 16 id)
  have hev := faultRecorded_event (s := s) (addr := addr) (Fin.ofNat 16 id)
  rw [hv] at hbit hev
  refine runs_of_settled (t := faultRecorded (Fin.ofNat 16 id) addr s) ?_ ((faultRecorded_notes _).trans hn)
    ⟨hbit, fun r hr => faultRecorded_rd _ hr, faultRecorded_eng _, faultRecorded_arm _, hev⟩
  rw [exec_registerWrite, registerWriteOp_fault hid hal (.inl hmay), accessFault_not_inUMode hid hu]

/-- In a policy call a store that the core may not make, or that its PMP does not let U mode make, ends the call (R18, R258). -/
theorem runs_store_fault_call (c : Fin 4) (huser : s.arm.plc[c].user = true) (hcall : s.arm.plc[c].call ≠ none)
    (hal : storeMisaligned addr.toNat be = false)
    (h : coreMay s (.plc c) addr.toNat = false ∨ pmpOk s c addr.toNat (popcount 4 be.toNat) true = false) :
    runs (.registerWrite (.plc c) addr be v hw same) s fun t => t.arm.plc[c].call = none ∧ t.arm.plc[c].user = false ∧
      t.pw.accFault.getLsbD c.val = true := by
  have hc := c.isLt
  have hv : (Fin.ofNat 16 c.val).val = c.val := Nat.mod_eq_of_lt (by omega)
  have hm : c.val % 4 = c.val := by omega
  have h4 : Fin.ofNat 4 c.val = c := Fin.ext hm
  have hpmp : pmpMay s (.plc c) addr.toNat (popcount 4 be.toNat) true = pmpOk s c addr.toNat (popcount 4 be.toNat) true := by
    simp only [pmpMay, huser, Bool.not_true, Bool.false_or]
  let f := faultRecorded (Fin.ofNat 16 c.val) addr s
  have hf : f.arm.plc[c].call ≠ none := by simpa only [f, faultRecorded_arm] using hcall
  have hop : registerWriteOp (.plc c) addr be v hw same s = callFault c pfAccess f := by
    rw [registerWriteOp_fault rfl hal (h.imp_right hpmp.trans), accessFault_eq, if_pos, hv, h4]
    refine ⟨by omega, ?_⟩
    simp only [faultRecorded_arm, hv, hm]
    exact huser
  obtain ⟨hnone, hleft⟩ := callFault_ends f c pfAccess hf
  refine ⟨armDrain (callFault c pfAccess f), by rw [exec_registerWrite, hop]; rfl, ?_, ?_, ?_⟩
  · rw [armDrain_plc, hnone]
  · rw [armDrain_plc, hleft]
  · rw [(armDrain_ev (.refl _) (.refl _ (fun _ => True) _)).power rfl,
      (callFault_ev c pfAccess (.refl _) (fun _ => trivial) (.refl _ (fun _ => True) f)).power rfl, ← hv]
    exact faultRecorded_accFault _

end Sys2Proof.Machine
end

section
/-! Register writes, settled. -/
open Sys2Proof Sys2Proof.Machine

/-- Settles O54: the decoding of the address gives the register, memory or queue that a write reaches, and the rule of that part what it does
there; a core's store that may not be made leaves the record of its fault and, in a policy call, the end of the call. -/
theorem registerWrites : Obligations.RegisterWrites := by
  unfold Obligations.RegisterWrites
  intro s v hn
  refine ⟨?fault, ?misaligned, ?call, ?part, ?memory, ?ddr, ?message, ?events, ?motion, ?windows, ?notSup, ?seed, ?cachePart, ?prefetch, ?pools,
    ?claims, ?brake, ?adc, ?ramp, ?anvil, ?doorbell, ?queueCfg, ?runBounds, ?wrCfg, ?ratio, ?busMaster, ?msix, ?reset, ?mask⟩
  case fault => exact fun rq id addr be hw same hid hal hmay hu => runs_store_fault hn hid hal hmay hu
  case misaligned => exact fun rq id addr be hw same hid hal => runs_misaligned hn hid hal
  case call => exact fun c addr be hw same huser hcall hal h => runs_store_fault_call c huser hcall hal h
  case part =>
    -- The statement's last `∃ a` binds all that follows it; `runs_partial` says the same of each of the five kinds of destination.
    intro rq addr be hw same hrq hu d
    exact .inr (.inr (.inr (.inr ⟨0, fun hd h => runs_partial hn hrq hu (.inr (.inr (.inr (.inr ⟨0, hd⟩)))) h⟩)))
  case memory =>
    intro rq addr be hw same k a hsome hmay hu hal hd hk
    obtain ⟨id, hid⟩ := Option.isSome_iff_exists.mp hsome
    exact runs_store_mem hn hid hmay hu hal hd hk
  case ddr =>
    intro rq addr hw same a hsome hmay hu h4 h8 ha
    obtain ⟨id, hid⟩ := Option.isSome_iff_exists.mp hsome
    exact runs_store_ddr hn hid hmay hu h4 h8 ha
  case message =>
    intro rq addr hw same q hsome hmay hu hd h4 hfull
    obtain ⟨id, hid⟩ := Option.isSome_iff_exists.mp hsome
    exact runs_store_message hn hid hmay hu hd h4 hfull
  case events =>
    intro e off h
    obtain ⟨-, ho, -, -⟩ := eventOffsets_exist off h
    exact ⟨fun rq hrq => writesPlain_event e hn hrq h, fun hdbg => writesPlain_event_host e hn hdbg h,
      fun hdbg => writesNothing_eng_host e hn hdbg (by omega)⟩
  case motion => exact fun off h => writesPlain_motion hn h
  case windows =>
    exact fun c => ⟨fun hc hv same => runs_window_base c hn hc hv, fun hv same => runs_window_beyond c hn hv,
      writesNothing_window_fixed c hn, fun rq id hid hrq hu => writesNothing_window_not_sup c hn hid hrq hu⟩
  case notSup => exact fun rq id a hid hrq hu h4 h => writesNothing_not_sup hn hid hrq hu h4 h
  case seed => exact writesAs_arbSeed hn
  case cachePart => exact writesAs_strcPart hn
  case prefetch => exact writesAs_strcPrefetch hn
  case pools =>
    intro p
    have h4 : 0x40005004 + 16 * p.val = 0x40005000 + 16 * p.val + 4 := by omega
    exact ⟨writesAs_poolConfig hn p false, h4 ▸ writesAs_poolConfig hn p true⟩
  case claims => exact fun rq id r hid hu => writesAs_claim hid hu r
  case brake => exact writesAs_brkThreshold hn
  case adc => exact writesAs_adcMap hn
  case ramp => exact writesAs_rampCfg hn
  case anvil => exact fun e b a => ⟨writesAs_anvPm e hn b a, writesAs_anvDm e hn a⟩
  case doorbell => exact fun q h1 h2 hv => writesAs_doorSq q hn h1 h2 hv
  case queueCfg => exact fun q off ho h4 hq => writesNothing_queueCfg hn q ho h4 hq
  case runBounds => exact fun e off h hs => writesNothing_runBounds e hn h hs
  case wrCfg => exact fun e hs => writesNothing_wrCfg e hn hs
  case ratio => exact fun a hg => writesNothing_ratio hn a hg
  case busMaster => exact fun be hw same hb => runs_busMaster hn hb
  case msix => exact fun be hw same hb => runs_msixControl hn hb
  case reset => exact fun be hw same hb hv hl => runs_functionReset hn hb hv hl
  case mask => exact fun vec hw same => runs_msixMask hn vec

end

section
/-! The frame of every command: what the lemma of each command's meaning says of the parts and engines it needs, held against `touches` and
`engineOf`. -/
namespace Sys2Proof.Machine

/-! ### Lists of parts as sets -/

/-- The set of a list's parts, as `Evolves` takes it: the bit at each part's place. -/
def partSet : List Part → Nat
  | [] => 0
  | p :: l => 2 ^ p.idx ||| partSet l

/-- Every part, at its place. -/
def partsInOrder : List Part := nearlyAll.insertIdx 49 .encOffs

theorem partsInOrder_idx (p : Part) : partsInOrder[p.idx]? = some p := by
  cases p with
  | regs g => cases g <;> rfl
  | unit u => cases u <;> rfl
  | _ => rfl

theorem Part.idx_injective {p q : Part} (h : p.idx = q.idx) : p = q :=
  Option.some.inj ((partsInOrder_idx p).symm.trans (h ▸ partsInOrder_idx q))

/-- A part that the list does not name is not in its set. -/
theorem partSet_testBit_of_notMem {p : Part} {l : List Part} (h : p ∉ l) : (partSet l).testBit p.idx = false := by
  induction l with
  | nil => exact Nat.zero_testBit _
  | cons q l ih =>
    obtain ⟨hq, hl⟩ := List.ne_and_not_mem_of_not_mem_cons h
    have hidx : q.idx ≠ p.idx := fun e => hq (Part.idx_injective e.symm)
    simp [partSet, ih hl, hidx]

/-! ### The frame -/

/-- The engines a command may reach: its own, where it is a command of one engine. -/
def enginesOf (c : Instr) (n : Nat) : Prop := (engineOf c).elim True (n = ·.val)

theorem eq_of_enginesOf {c : Instr} {e : Eng} {n : Nat} (he : engineOf c = some e) (h : enginesOf c n) : n = e.val := by
  simpa [enginesOf, he] using h

/-- Every command answers a next state that comes from the present one by operations on the parts `touches` names and, where it is a
command of one engine, on that engine. The alternatives follow those of `exec`: each cites the lemma of its
command's meaning, whose parts are among those named (`hm`) and whose engine is the command's own (`e1`), or any (`hall`). -/
theorem exec_evolves (s : State) (c : Instr) : ∃ t, exec c s = .next t ∧ Evolves (partSet (touches c)) (enginesOf c) s t := by
  cases c with dsimp only [touches]
  -- registers, fabric, arbiter (01, 15)
  | registerWrite => exact execRegisterWrite_next (hm := rfl) (hall := fun _ => trivial) ..
  | coreAccessFault => exact execCoreAccessFault_next (hm := rfl) (hall := fun _ => trivial) ..
  | arbiterContest => exact execArbiterContest_next (hm := rfl) ..
  -- head link (02)
  | laneFrameReceived => exact execLaneFrameReceived_next (hm := rfl) (e1 := rfl) ..
  | servoSetReceived => exact execServoSetReceived_next (hm := rfl) (e1 := rfl) ..
  | f5StatusBlock => exact execF5StatusBlock_next (hm := rfl) (e1 := rfl) ..
  | f5Silent => exact execF5Silent_next (hm := rfl) (e1 := rfl) ..
  | laneLockLost => exact execLaneLockLost_next (hm := rfl) (e1 := rfl) ..
  | trainingFrameReceived => exact execTrainingFrameReceived_next (hm := rfl) (e1 := rfl) ..
  | trainTimeout => exact execTrainTimeout_next (hm := rfl) (e1 := rfl) ..
  | hlEnable => exact execHlEnable_next (hm := rfl) (e1 := rfl) ..
  | hlDisable => exact execHlDisable_next (hm := rfl) (e1 := rfl) ..
  | hlRetrain => exact execHlRetrain_next (hm := rfl) (e1 := rfl) ..
  | hlCntClr => exact execHlCntClr_next (hm := rfl) (e1 := rfl) ..
  | downstreamFrameSend => exact execDownstreamFrameSend_next (hm := rfl) (e1 := rfl) ..
  | lpwRepeat => exact execLpwRepeat_next (hm := rfl) (e1 := rfl) ..
  -- read channel (03)
  | syncMarkDetected => exact execSyncMarkDetected_next (hm := rfl) (e1 := rfl) ..
  | syncWindowClose => exact execSyncWindowClose_next (hm := rfl) (e1 := rfl) ..
  | clusterDecoded => exact execClusterDecoded_next (hm := rfl) (e1 := rfl) ..
  | chainEnable => exact execChainEnable_next (hm := rfl) (e1 := rfl) ..
  | chainDisable => exact execChainDisable_next (hm := rfl) (e1 := rfl) ..
  | chCntClr => exact execChCntClr_next (hm := rfl) (e1 := rfl) ..
  | rplCapArm => exact execRplCapArm_next (hm := rfl) (e1 := rfl) ..
  | rplPlay => exact execRplPlay_next (hm := rfl) (e1 := rfl) ..
  | replayPassDone => exact execReplayPassDone_next (hm := rfl) (e1 := rfl) ..
  | rplAbort => exact execRplAbort_next (hm := rfl) (e1 := rfl) ..
  | wpllLock => exact execWpllLock_next (hm := rfl) (e1 := rfl) ..
  | wpllLockLost => exact execWpllLockLost_next (hm := rfl) (e1 := rfl) ..
  | wpllResume => exact execWpllResume_next (hm := rfl) (e1 := rfl) ..
  | adipWordDecoded => exact execAdipWordDecoded_next (hm := rfl) (e1 := rfl) ..
  | capCtrlWrite => exact execCapCtrlWrite_next (hm := rfl) (e1 := rfl) ..
  | capTrigger => exact execCapTrigger_next (hm := rfl) (e1 := rfl) ..
  | capDone => exact execCapDone_next (hm := rfl) (e1 := rfl) ..
  -- seam and reassembly (04)
  | seamCrossing => exact execSeamCrossing_next (hm := rfl) (e1 := rfl) ..
  | seamWindowClose => exact execSeamWindowClose_next (hm := rfl) (e1 := rfl) ..
  | seamSettled => exact execSeamSettled_next (hm := rfl) (e1 := rfl) ..
  | seamLate => exact execSeamLate_next (hm := rfl) (e1 := rfl) ..
  | stitchDecoded => exact execStitchDecoded_next (hm := rfl) (e1 := rfl) ..
  | seamRun => exact execSeamRun_next (hm := rfl) (e1 := rfl) ..
  | seamClose => exact execSeamClose_next (hm := rfl) (e1 := rfl) ..
  | seamCntClr => exact execSeamCntClr_next (hm := rfl) (e1 := rfl) ..
  | rasFree => exact execRasFree_next (hm := rfl) (e1 := rfl) ..
  -- write path (05)
  | wrGo => exact execWrGo_next (hm := rfl) (e1 := rfl) ..
  | wrStop => exact execWrStop_next (hm := rfl) (e1 := rfl) ..
  | wrOpcGo => exact execWrOpcGo_next (hm := rfl) (e1 := rfl) ..
  | wrCntClr => exact execWrCntClr_next (hm := rfl) (e1 := rfl) ..
  | laserEnWrite => exact execLaserEnWrite_next (hm := rfl) (e1 := rfl) ..
  | wrProdWrite => exact execWrProdWrite_next (hm := rfl) (e1 := rfl) ..
  | wrDecisionPoint => exact execWrDecisionPoint_next (hm := rfl) (e1 := rfl) ..
  | ilkOpening => exact execIlkOpening_next (hm := rfl) (e1 := rfl) ..
  | ilkHoldExpire => exact execIlkHoldExpire_next (hm := rfl) (e1 := rfl) ..
  | ilkOpeningEnd => exact execIlkOpeningEnd_next (hm := rfl) (e1 := rfl) ..
  | opcDone => exact execOpcDone_next (hm := rfl) (e1 := rfl) ..
  -- retry ladder and Temper (06)
  | ladderAttempt => exact execLadderAttempt_next (hm := rfl) (e1 := rfl) ..
  | ladderSkip => exact execLadderSkip_next (hm := rfl) (e1 := rfl) ..
  | temperPeriod => exact execTemperPeriod_next (hm := rfl) (e1 := rfl) ..
  | tmpStart => exact execTmpStart_next (hm := rfl) (e1 := rfl) ..
  | tmpAbort => exact execTmpAbort_next (hm := rfl) (e1 := rfl) ..
  | tmpCntClr => exact execTmpCntClr_next (hm := rfl) (e1 := rfl) ..
  | temperRetryDelay => exact execTemperRetryDelay_next (hm := rfl) (e1 := rfl) ..
  | temperMatch => exact execTemperMatch_next (hm := rfl) (e1 := rfl) ..
  | spotHandover => exact execSpotHandover_next (hm := rfl) (e1 := rfl) ..
  | temperConvLimit => exact execTemperConvLimit_next (hm := rfl) (e1 := rfl) ..
  | temperWindowDone => exact execTemperWindowDone_next (hm := rfl) (e1 := rfl) ..
  | temperFreqMeasure => exact execTemperFreqMeasure_next (hm := rfl) (e1 := rfl) ..
  | tmpAdcmapWrite => exact execTmpAdcmapWrite_next (hm := rfl) (e1 := rfl) ..
  | tmpAdctrimWrite => exact execTmpAdctrimWrite_next (hm := rfl) (e1 := rfl) ..
  -- Anvil (07)
  | anvTickStale => exact execAnvTickStale_next (hm := rfl) (e1 := rfl) ..
  | anvOverrun => exact execAnvOverrun_next (hm := rfl) (e1 := rfl) ..
  | anvNop => exact execAnvNop_next (hm := rfl) (e1 := rfl) ..
  | anvMpy => exact execAnvMpy_next (hm := rfl) (e1 := rfl) ..
  | anvMac => exact execAnvMac_next (hm := rfl) (e1 := rfl) ..
  | anvMsu => exact execAnvMsu_next (hm := rfl) (e1 := rfl) ..
  | anvLda => exact execAnvLda_next (hm := rfl) (e1 := rfl) ..
  | anvAdd => exact execAnvAdd_next (hm := rfl) (e1 := rfl) ..
  | anvSub => exact execAnvSub_next (hm := rfl) (e1 := rfl) ..
  | anvSt => exact execAnvSt_next (hm := rfl) (e1 := rfl) ..
  | anvInt => exact execAnvInt_next (hm := rfl) (e1 := rfl) ..
  | anvOut => exact execAnvOut_next (hm := rfl) (e1 := rfl) ..
  | anvExa => exact execAnvExa_next (hm := rfl) (e1 := rfl) ..
  | anvShf => exact execAnvShf_next (hm := rfl) (e1 := rfl) ..
  | anvAcc => exact execAnvAcc_next (hm := rfl) (e1 := rfl) ..
  | anvMova => exact execAnvMova_next (hm := rfl) (e1 := rfl) ..
  | anvClr => exact execAnvClr_next (hm := rfl) (e1 := rfl) ..
  | anvLdk => exact execAnvLdk_next (hm := rfl) (e1 := rfl) ..
  | anvLdx => exact execAnvLdx_next (hm := rfl) (e1 := rfl) ..
  | anvAdx => exact execAnvAdx_next (hm := rfl) (e1 := rfl) ..
  | anvLdi => exact execAnvLdi_next (hm := rfl) (e1 := rfl) ..
  | anvAdi => exact execAnvAdi_next (hm := rfl) (e1 := rfl) ..
  | anvLdim => exact execAnvLdim_next (hm := rfl) (e1 := rfl) ..
  | anvMov => exact execAnvMov_next (hm := rfl) (e1 := rfl) ..
  | anvRsc => exact execAnvRsc_next (hm := rfl) (e1 := rfl) ..
  | anvRpt => exact execAnvRpt_next (hm := rfl) (e1 := rfl) ..
  | anvBr => exact execAnvBr_next (hm := rfl) (e1 := rfl) ..
  | anvBrn => exact execAnvBrn_next (hm := rfl) (e1 := rfl) ..
  | anvWait => exact execAnvWait_next (hm := rfl) (e1 := rfl) ..
  | anvRinit => exact execAnvRinit_next (hm := rfl) (e1 := rfl) ..
  | illegalInstruction => exact execIllegalInstruction_next (hm := rfl) (e1 := rfl) ..
  | anvSatTrip => exact execAnvSatTrip_next (hm := rfl) (e1 := rfl) ..
  | anvRun => exact execAnvRun_next (hm := rfl) (e1 := rfl) ..
  | anvStop => exact execAnvStop_next (hm := rfl) (e1 := rfl) ..
  | anvBankWrite => exact execAnvBankWrite_next (hm := rfl) (e1 := rfl) ..
  | anvTripClr => exact execAnvTripClr_next (hm := rfl) (e1 := rfl) ..
  | anvCntClr => exact execAnvCntClr_next (hm := rfl) (e1 := rfl) ..
  | anvRampInit => exact execAnvRampInit_next (hm := rfl) (e1 := rfl) ..
  | anvPmWrite => exact execAnvPmWrite_next (hm := rfl) (e1 := rfl) ..
  | anvDmWrite => exact execAnvDmWrite_next (hm := rfl) (e1 := rfl) ..
  -- loop commands, seeks, gearing (08)
  | loopNop => exact execLoopNop_next (hm := rfl) (e1 := rfl) ..
  | focusSearch => exact execFocusSearch_next (hm := rfl) (e1 := rfl) ..
  | trackOn => exact execTrackOn_next (hm := rfl) (e1 := rfl) ..
  | trackOff => exact execTrackOff_next (hm := rfl) (e1 := rfl) ..
  | jump => exact execJump_next (hm := rfl) (e1 := rfl) ..
  | layerJump => exact execLayerJump_next (hm := rfl) (e1 := rfl) ..
  | retract => exact execRetract_next (hm := rfl) (e1 := rfl) ..
  | loopCmdTimeout => exact execLoopCmdTimeout_next (hm := rfl) (e1 := rfl) ..
  | focusLost => exact execFocusLost_next (hm := rfl) (e1 := rfl) ..
  | trackLost => exact execTrackLost_next (hm := rfl) (e1 := rfl) ..
  | staleTicksFault => exact execStaleTicksFault_next (hm := rfl) (e1 := rfl) ..
  | longSeek => exact execLongSeek_next (hm := rfl) (e1 := rfl) ..
  | sledPositionRecover => exact execSledPositionRecover_next (hm := rfl) (e1 := rfl) ..
  | slgAngleStep => exact execSlgAngleStep_next (hm := rfl) (e1 := rfl) ..
  | slgLoad => exact execSlgLoad_next (hm := rfl) (e1 := rfl) ..
  | slgEnWrite => exact execSlgEnWrite_next (hm := rfl) (e1 := rfl) ..
  -- spindle, buses, sled, axes (09)
  | spnPwmPeriod => exact execSpnPwmPeriod_next (hm := rfl) (e1 := rfl) ..
  | spnStart => exact execSpnStart_next (hm := rfl) (e1 := rfl) ..
  | spnCoast => exact execSpnCoast_next (hm := rfl) (e1 := rfl) ..
  | spnDirWrite => exact execSpnDirWrite_next (hm := rfl) (e1 := rfl) ..
  | spnTargetWrite => exact execSpnTargetWrite_next (hm := rfl) (e1 := rfl) ..
  | spnCatchDecide => exact execSpnCatchDecide_next (hm := rfl) (e1 := rfl) ..
  | spnAlignDone => exact execSpnAlignDone_next (hm := rfl) (e1 := rfl) ..
  | spnOpenHandover => exact execSpnOpenHandover_next (hm := rfl) (e1 := rfl) ..
  | spnBrakeDone => exact execSpnBrakeDone_next (hm := rfl) (e1 := rfl) ..
  | spnAtSpeed => exact execSpnAtSpeed_next (hm := rfl) (e1 := rfl) ..
  | spnLossOfSync => exact execSpnLossOfSync_next (hm := rfl) (e1 := rfl) ..
  | spnDriverFault => exact execSpnDriverFault_next (hm := rfl) (e1 := rfl) ..
  | brkSample => exact execBrkSample_next (hm := rfl) (hall := fun _ => trivial) ..
  | busThresholdRelease => exact execBusThresholdRelease_next (hm := rfl) (hall := fun _ => trivial) ..
  | chopFault => exact execChopFault_next (hm := rfl) ..
  | brkFaultClr => exact execBrkFaultClr_next (hm := rfl) ..
  | brkThresholdWrite => exact execBrkThresholdWrite_next (hm := rfl) ..
  | sldPwmPeriod => exact execSldPwmPeriod_next (hm := rfl) (e1 := rfl) ..
  | sldHoldCurrent => exact execSldHoldCurrent_next (hm := rfl) (e1 := rfl) ..
  | sldMove => exact execSldMove_next (hm := rfl) (e1 := rfl) ..
  | sldHome => exact execSldHome_next (hm := rfl) (e1 := rfl) ..
  | sldStop => exact execSldStop_next (hm := rfl) (e1 := rfl) ..
  | sldPark => exact execSldPark_next (hm := rfl) (e1 := rfl) ..
  | sldParkDone => exact execSldParkDone_next (hm := rfl) (e1 := rfl) ..
  | sldPowerOn => exact execSldPowerOn_next (hm := rfl) (e1 := rfl) ..
  | sldFault => exact execSldFault_next (hm := rfl) (e1 := rfl) ..
  | sldEncBad => exact execSldEncBad_next (hm := rfl) (e1 := rfl) ..
  | encIndex => exact execEncIndex_next (hm := rfl) (hall := fun _ => trivial) ..
  | encIllegalTransition => exact execEncIllegalTransition_next (hm := rfl) (hall := fun _ => trivial) ..
  | axMove => exact execAxMove_next (hm := rfl) ..
  | axStop => exact execAxStop_next (hm := rfl) ..
  | axEstop => exact execAxEstop_next (hm := rfl) ..
  | axGearSet => exact execAxGearSet_next (hm := rfl) ..
  | axGearClear => exact execAxGearClear_next (hm := rfl) ..
  | axMasterCount => exact execAxMasterCount_next (hm := rfl) ..
  | axStepPulse => exact execAxStepPulse_next (hm := rfl) ..
  -- placement and policy (10)
  | policyCall => exact execPolicyCall_next (hm := rfl) (hall := fun _ => trivial) ..
  | chooseWriteGroup => exact execChooseWriteGroup_next (hm := rfl) (hall := fun _ => trivial) ..
  | chooseReadSource => exact execChooseReadSource_next (hm := rfl) (hall := fun _ => trivial) ..
  | chooseLoad => exact execChooseLoad_next (hm := rfl) (hall := fun _ => trivial) ..
  | chooseSpeed => exact execChooseSpeed_next (hm := rfl) (hall := fun _ => trivial) ..
  | policyEcall => exact execPolicyEcall_next (hm := rfl) (hall := fun _ => trivial) ..
  | policyBudgetExpire => exact execPolicyBudgetExpire_next (hm := rfl) (hall := fun _ => trivial) ..
  | bpalloc => exact execBpalloc_next (hm := rfl) (hall := fun _ => trivial) ..
  | bpfree => exact execBpfree_next (hm := rfl) (hall := fun _ => trivial) ..
  | bpshare => exact execBpshare_next (hm := rfl) (hall := fun _ => trivial) ..
  | gfmac8 => exact execGfmac8_next (hm := rfl) ..
  | plquery => exact execPlquery_next (hm := rfl) ..
  | plcommit => exact execPlcommit_next (hm := rfl) (hall := fun _ => trivial) ..
  | qput => exact execQput_next (hm := rfl) (hall := fun _ => trivial) ..
  | qget => exact execQget_next (hm := rfl) (hall := fun _ => trivial) ..
  | measurementSnapshot => exact execMeasurementSnapshot_next (hm := rfl) ..
  | poweredHour => exact execPoweredHour_next (hm := rfl) ..
  | agingMark => exact execAgingMark_next (hm := rfl) ..
  | discRecovery => exact execDiscRecovery_next (hm := rfl) ..
  -- redundancy (11)
  | gatherTimeout => exact execGatherTimeout_next (hm := rfl) (hall := fun _ => trivial) ..
  | groupCommit => exact execGroupCommit_next (hm := rfl) ..
  | runInitZero => exact execRunInitZero_next (hm := rfl) ..
  | destage => exact execDestage_next (hm := rfl) ..
  | rowLockGrant => exact execRowLockGrant_next (hm := rfl) ..
  | resync => exact execResync_next (hm := rfl) ..
  | headerBatchWrite => exact execHeaderBatchWrite_next (hm := rfl) ..
  | mapRebuild => exact execMapRebuild_next (hm := rfl) ..
  | clusterRepair => exact execClusterRepair_next (hm := rfl) ..
  | engGraceExpire => exact execEngGraceExpire_next (hm := rfl) ..
  | rebuildTargetChoose => exact execRebuildTargetChoose_next (hm := rfl) ..
  | rebuildBatchDone => exact execRebuildBatchDone_next (hm := rfl) ..
  | reshapeUnitCopy => exact execReshapeUnitCopy_next (hm := rfl) (hall := fun _ => trivial) ..
  | scrub => exact execScrub_next (hm := rfl) ..
  -- journal, Plinth, boot (12)
  | recordSeal => exact execRecordSeal_next (hm := rfl) ..
  | recordWriteDone => exact execRecordWriteDone_next (hm := rfl) ..
  | mirrorFail => exact execMirrorFail_next (hm := rfl) ..
  | mapCheckpoint => exact execMapCheckpoint_next (hm := rfl) ..
  | journalResize => exact execJournalResize_next (hm := rfl) ..
  | plinthFallbackWrite => exact execPlinthFallbackWrite_next (hm := rfl) ..
  | pfailLatch => exact execPfailLatch_next (hm := rfl) (hall := fun _ => trivial) ..
  | brownoutReturn => exact execBrownoutReturn_next (hm := rfl) (hall := fun _ => trivial) ..
  | por => exact execPor_next (hm := rfl) (hall := fun _ => trivial) ..
  | pgFall => exact execPgFall_next (hm := rfl) (hall := fun _ => trivial) ..
  | porRelease => exact execPorRelease_next (hm := rfl) ..
  -- queues (13)
  | doorbellSq => exact execDoorbellSq_next (hm := rfl) ..
  | doorbellCq => exact execDoorbellCq_next (hm := rfl) ..
  | indexReadDone => exact execIndexReadDone_next (hm := rfl) ..
  | slotFetchDone => exact execSlotFetchDone_next (hm := rfl) ..
  | msixUnmask => exact execMsixUnmask_next (hm := rfl) ..
  | cqFullPoll => exact execCqFullPoll_next (hm := rfl) ..
  | hostMemoryError => exact execHostMemoryError_next (hm := rfl) ..
  | interimDue => exact execInterimDue_next (hm := rfl) ..
  | deadlinePass => exact execDeadlinePass_next (hm := rfl) ..
  | queueDisable => exact execQueueDisable_next (hm := rfl) ..
  | queueEnable => exact execQueueEnable_next (hm := rfl) ..
  | busMasterEnable => exact execBusMasterEnable_next (hm := rfl) ..
  | cqiFrst => exact execCqiFrst_next (hm := rfl) ..
  | functionReset => exact execFunctionReset_next (hm := rfl) ..
  -- admin and I/O commands (14)
  | queueCreate => exact execQueueCreate_next (hm := rfl) ..
  | queueDelete => exact execQueueDelete_next (hm := rfl) ..
  | abort => exact execAbort_next (hm := rfl) ..
  | getLog => exact execGetLog_next (hm := rfl) ..
  | setSettings => exact execSetSettings_next (hm := rfl) (hall := fun _ => trivial) ..
  | getSettings => exact execGetSettings_next (hm := rfl) ..
  | volCreate => exact execVolCreate_next (hm := rfl) ..
  | volDelete => exact execVolDelete_next (hm := rfl) ..
  | volSeal => exact execVolSeal_next (hm := rfl) (hall := fun _ => trivial) ..
  | volReshape => exact execVolReshape_next (hm := rfl) ..
  | mediaLoad => exact execMediaLoad_next (hm := rfl) (hall := fun _ => trivial) ..
  | mediaEject => exact execMediaEject_next (hm := rfl) ..
  | discFail => exact execDiscFail_next (hm := rfl) ..
  | discMigrate => exact execDiscMigrate_next (hm := rfl) ..
  | keyLoad => exact execKeyLoad_next (hm := rfl) ..
  | keyClear => exact execKeyClear_next (hm := rfl) ..
  | programLoad => exact execProgramLoad_next (hm := rfl) (hall := fun _ => trivial) ..
  | calRestore => exact execCalRestore_next (hm := rfl) (hall := fun _ => trivial) ..
  | fwStage => exact execFwStage_next (hm := rfl) ..
  | fwActivate => exact execFwActivate_next (hm := rfl) ..
  | fwHandover => exact execFwHandover_next (hm := rfl) ..
  | activationTimeout => exact execActivationTimeout_next (hm := rfl) (hall := fun _ => trivial) ..
  | read => exact execRead_next (hm := rfl) ..
  | write => exact execWrite_next (hm := rfl) (hall := fun _ => trivial) ..
  | verify => exact execVerify_next (hm := rfl) ..
  | flush => exact execFlush_next (hm := rfl) (hall := fun _ => trivial) ..
  -- DDR4, pools, stripe cache, arbiter, cipher (15, 16)
  | ddrRefresh => exact execDdrRefresh_next (hm := rfl) ..
  | ddrPatrolScrub => exact execDdrPatrolScrub_next (hm := rfl) (hall := fun _ => trivial) ..
  | poolConfigWrite => exact execPoolConfigWrite_next (hm := rfl) ..
  | poolMinReset => exact execPoolMinReset_next (hm := rfl) ..
  | strcAccess => exact execStrcAccess_next (hm := rfl) (hall := fun _ => trivial) ..
  | strcFillDone => exact execStrcFillDone_next (hm := rfl) (hall := fun _ => trivial) ..
  | strcWriteback => exact execStrcWriteback_next (hm := rfl) ..
  | strcPrefetch => exact execStrcPrefetch_next (hm := rfl) ..
  | strcInval => exact execStrcInval_next (hm := rfl) ..
  | strcClean => exact execStrcClean_next (hm := rfl) ..
  | strcCleanInval => exact execStrcCleanInval_next (hm := rfl) ..
  | strcLockfill => exact execStrcLockfill_next (hm := rfl) ..
  | strcOpDone => exact execStrcOpDone_next (hm := rfl) ..
  | strcEnable => exact execStrcEnable_next (hm := rfl) ..
  | strcDisable => exact execStrcDisable_next (hm := rfl) ..
  | strcDrainDone => exact execStrcDrainDone_next (hm := rfl) ..
  | strcInitDone => exact execStrcInitDone_next (hm := rfl) ..
  | strcWindowWrite => exact execStrcWindowWrite_next (hm := rfl) ..
  | strcPartWrite => exact execStrcPartWrite_next (hm := rfl) ..
  | strcCntClr => exact execStrcCntClr_next (hm := rfl) ..
  | arbSeedWrite => exact execArbSeedWrite_next (hm := rfl) ..
  | cipherJobReady => exact execCipherJobReady_next (hm := rfl) ..
  | cipherJobDone => exact execCipherJobDone_next (hm := rfl) ..
  -- debug, test, power, claims, timers, temperature (16, 17, 18)
  | dbgChallenge => exact execDbgChallenge_next (hm := rfl) ..
  | dbgUnlock => exact execDbgUnlock_next (hm := rfl) ..
  | fuseProg => exact execFuseProg_next (hm := rfl) ..
  | jtagExtest => exact execJtagExtest_next (hm := rfl) (hall := fun _ => trivial) ..
  | jtagHighz => exact execJtagHighz_next (hm := rfl) (hall := fun _ => trivial) ..
  | jtagClamp => exact execJtagClamp_next (hm := rfl) (hall := fun _ => trivial) ..
  | tapReset => exact execTapReset_next (hm := rfl) ..
  | pwrEngSleep => exact execPwrEngSleep_next (hm := rfl) (e1 := rfl) ..
  | esqWfi => exact execEsqWfi_next (hm := rfl) (e1 := rfl) ..
  | pwrEngWake => exact execPwrEngWake_next (hm := rfl) ..
  | engineWakeDone => exact execEngineWakeDone_next (hm := rfl) (hall := fun _ => trivial) ..
  | standbyEntry => exact execStandbyEntry_next (hm := rfl) ..
  | standbyWake => exact execStandbyWake_next (hm := rfl) ..
  | wakeTimer => exact execWakeTimer_next (hm := rfl) ..
  | clockFailure => exact execClockFailure_next (hm := rfl) (hall := fun _ => trivial) ..
  | vddAonPowerUp => exact execVddAonPowerUp_next (hm := rfl) (hall := fun _ => trivial) ..
  | warmReset => exact execWarmReset_next (hm := rfl) (hall := fun _ => trivial) ..
  | watchdogExpire => exact execWatchdogExpire_next (hm := rfl) (hall := fun _ => trivial) ..
  | wdtKick => exact execWdtKick_next (hm := rfl) ..
  | xtal32Fail => exact execXtal32Fail_next (hm := rfl) ..
  | claimWrite => exact execClaimWrite_next (hm := rfl) (hall := fun _ => trivial) ..
  | timCapture => exact execTimCapture_next (hm := rfl) ..
  | timMatch => exact execTimMatch_next (hm := rfl) ..
  | thermWarn => exact execThermWarn_next (hm := rfl) ..
  | thermTrip => exact execThermTrip_next (hm := rfl) (hall := fun _ => trivial) ..
  | thermRecover => exact execThermRecover_next (hm := rfl) ..
  | pfailHoldRelease => exact execPfailHoldRelease_next (hm := rfl) ..

end Sys2Proof.Machine

open Sys2Proof Sys2Proof.Machine

/-- Settles O3: a command's operations stay within the parts `touches` names and the engine it is of (`exec_evolves`), and whatever such
operations do not reach is the same after them. -/
theorem everyCommandCompletesWithinItsParts : Obligations.EveryCommandCompletesWithinItsParts := by
  unfold Obligations.EveryCommandCompletesWithinItsParts
  intro s c
  obtain ⟨t, hexec, hev⟩ := exec_evolves s c
  refine ⟨t, hexec, hev.pending, ?parts, ?engines⟩
  case parts => exact fun p hp => hev.part p (partSet_testBit_of_notMem hp)
  case engines => exact fun e he f hf => hev.engine f fun hreach => hf (Fin.ext (eq_of_enginesOf he hreach))

end

section
/-! What the operations of a Temper session leave in the registers of the Temper block and the claim of the spare chain: one rule per operation
of Machine/Temper.lean (R156 to R170). -/
namespace Sys2Proof.Machine

variable {M : Nat} {P : Nat → Prop} {s t : State} {f : Fld}

/-! ### Fields and counters -/

theorem State.get_lt (s : State) (f : Fld) : s.get f < 2 ^ f.w := Nat.mod_lt _ (Nat.two_pow_pos _)

theorem satInc_lt {top n : Nat} (h : n ≤ top) : satInc top n ≤ top := by unfold satInc; split <;> omega

@[simp] theorem State.get_inc_mk (s : State) (r : Reg) (lo w : Nat) (h : lo + w ≤ 32) :
    (s.inc ⟨r, lo, w⟩).get ⟨r, lo, w⟩ = satInc (2 ^ w - 1) (s.get ⟨r, lo, w⟩) := by
  have hg : s.get ⟨r, lo, w⟩ < 2 ^ w := s.get_lt _
  have hi := satInc_lt (Nat.le_sub_one_of_lt hg)
  rw [State.inc_eq, s.get_put_mk r lo w _ h]
  exact Nat.mod_eq_of_lt (Nat.lt_of_le_pred (Nat.two_pow_pos w) hi)

@[simp] theorem State.get_inc_mk_reg (s : State) (r q : Reg) (lo w lo' w' : Nat) (h : r ≠ q) :
    (s.inc ⟨r, lo, w⟩).get ⟨q, lo', w'⟩ = s.get ⟨q, lo', w'⟩ := s.get_put_mk_reg r q lo w lo' w' _ h

/-- A two's-complement field reads the number put into it, where the field can hold it. -/
theorem State.getInt_putInt (s : State) (h : f.lo + f.w ≤ 32) {x : Int} (hlo : -2 ^ (f.w - 1) ≤ x) (hhi : x < 2 ^ (f.w - 1))
    (hw : 0 < f.w) : (s.putInt f x).getInt f = x := by
  have hmod : unsigned f.w x < 2 ^ f.w := (BitVec.ofInt f.w x).isLt
  unfold State.getInt State.putInt signed
  rw [s.get_put f _ h, Nat.mod_eq_of_lt hmod, unsigned, BitVec.ofNat_toNat, BitVec.setWidth_eq]
  exact BitVec.toInt_ofInt_eq_self hw hlo hhi

theorem clampInt_bounds {lo hi : Int} (h : lo ≤ hi) (x : Int) : lo ≤ clampInt lo hi x ∧ clampInt lo hi x ≤ hi := by
  unfold clampInt
  split
  · omega
  · split <;> omega

theorem Reg.ne_of_off {r q : Reg} (h : r.off ≠ q.off) : r ≠ q := fun he => h (congrArg Reg.off he)

/-! ### What operations on a chain leave alone -/

theorem Evolves.get_eq (h : Evolves M P s t) (hf : M.testBit f.reg.group.idx = false) : t.get f = s.get f := congrArg f.of (h.regs _ hf)

theorem Reg.group_ne_chain {r : Reg} (h : r.blk ≠ .ch) : r.group ≠ .chain := by
  have hite {c : Prop} [Decidable c] {x y : RegGroup} (hx : x ≠ .chain) (hy : y ≠ .chain) : (if c then x else y) ≠ .chain := by
    split <;> assumption
  obtain ⟨blk, i, j, off⟩ := r
  cases blk
  case ch => exact absurd rfl h
  all_goals
    unfold Reg.group
    dsimp only
    repeat refine hite (by decide) ?_
    decide

/-- The parts of the chain operations: the chain registers, the head link's line and the chains. -/
def chainParts : Nat := 0xC0000200

theorem testBit_chainParts {g : RegGroup} (h : g ≠ .chain) : chainParts.testBit g.idx = false := by
  revert h
  cases g <;> decide

theorem Evolves.get_of_chain (h : Evolves chainParts P s t) (hf : f.reg.blk ≠ .ch) : t.get f = s.get f :=
  h.get_eq (testBit_chainParts (Reg.group_ne_chain hf))

theorem Evolves.tmp_of_chain (h : Evolves chainParts P s t) (e : Eng) : t.eng[e].tmp = s.eng[e].tmp := h.units .tmp rfl e

theorem copyToSpare_evolves (e : Eng) (c : Nat) (s : State) : Evolves chainParts (fun _ => True) s (copyToSpare e c s) :=
  copyToSpare_ev e c rfl trivial (.refl _ _ s)
theorem trialOn_evolves (e : Eng) (n : Nat) (s : State) : Evolves chainParts (fun _ => True) s (trialOn e n s) :=
  trialOn_ev e n rfl trivial (.refl _ _ s)
theorem trialOff_evolves (e : Eng) (n : Nat) (s : State) : Evolves chainParts (fun _ => True) s (trialOff e n s) :=
  trialOff_ev e n rfl trivial (.refl _ _ s)
theorem holdMove_evolves (e : Eng) (a b : Chn) (s : State) : Evolves chainParts (fun _ => True) s (holdMove e a b s) :=
  holdMove_ev e a b rfl trivial (.refl _ _ s)

section
variable (e : Eng) (s : State)

@[simp] theorem copyToSpare_get (c : Nat) (hf : f.reg.blk ≠ .ch) : (copyToSpare e c s).get f = s.get f :=
  (copyToSpare_evolves e c s).get_of_chain hf
@[simp] theorem copyToSpare_tmp (c : Nat) {n : Nat} (hn : n < 8) : (copyToSpare e c s).eng[n].tmp = s.eng[n].tmp :=
  (copyToSpare_evolves e c s).tmp_of_chain ⟨n, hn⟩
@[simp] theorem trialOn_get (n : Nat) (hf : f.reg.blk ≠ .ch) : (trialOn e n s).get f = s.get f := (trialOn_evolves e n s).get_of_chain hf
@[simp] theorem trialOn_tmp (w : Nat) {n : Nat} (hn : n < 8) : (trialOn e w s).eng[n].tmp = s.eng[n].tmp :=
  (trialOn_evolves e w s).tmp_of_chain ⟨n, hn⟩
@[simp] theorem trialOff_get (n : Nat) (hf : f.reg.blk ≠ .ch) : (trialOff e n s).get f = s.get f := (trialOff_evolves e n s).get_of_chain hf
@[simp] theorem trialOff_tmp (w : Nat) {n : Nat} (hn : n < 8) : (trialOff e w s).eng[n].tmp = s.eng[n].tmp :=
  (trialOff_evolves e w s).tmp_of_chain ⟨n, hn⟩

/-! ### The TRIM entries -/

@[simp] theorem sendTrim_rd (a i v : Nat) (r : Reg) : (sendTrim e a i v s).rd r = s.rd r := by unfold sendTrim; split <;> rfl
@[simp] theorem sendTrim_get (a i v : Nat) : (sendTrim e a i v s).get f = s.get f := congrArg f.of (sendTrim_rd ..)
@[simp] theorem sendSpare_get (v : Nat) : (sendSpare e v s).get f = s.get f := sendTrim_get ..
@[simp] theorem sendSpare_tmp (v : Nat) {n : Nat} (hn : n < 8) : (sendSpare e v s).eng[n].tmp = s.eng[n].tmp :=
  (sendSpare_ev (M := chainParts) (P := fun _ => True) e v rfl trivial (.refl _ _ s)).tmp_of_chain ⟨n, hn⟩
@[simp] theorem sendAdc_get (a : Nat) : (sendAdc e a s).get f = s.get f := by
  unfold sendAdc
  extract_lets t
  refine (foldl_keeps (fun u : State => u.get f) (fun u i => ?_) _ t).trans (sendTrim_get ..)
  simp only [sendTrim_get]

/-! ### The values of the session's start, put back -/

theorem savable_eq_false {r : Reg} (hb : r.blk ≠ .ch) (ho : r.blk = .eng → r.off < 0x6100) : savable e r = false := by
  by_cases he : r.blk = .eng
  · have := ho he
    simp [savable, he, Nat.not_le_of_lt this]
  · simp [savable, hb, he]

@[simp] theorem tmpPutBack_get (hb : f.reg.blk ≠ .ch) (ho : f.reg.blk = .eng → f.reg.off < 0x6100) : (tmpPutBack e s).get f = s.get f := by
  unfold tmpPutBack
  extract_lets t
  rw [sendAdc_get]
  refine foldl_keeps (fun u : State => u.get f) (fun u x => ?_) _ s
  split
  · next hx =>
    have hne : x.1 ≠ f.reg := fun h => by
      rw [h, savable_eq_false e hb ho] at hx
      cases hx
    exact congrArg f.of (u.rd_wr_other x.2 hne)
  · rfl

theorem tmpPutBack_evolves : Evolves 0x40000208 (fun _ => True) s (tmpPutBack e s) := tmpPutBack_ev e (.refl _) trivial (.refl _ _ s)
@[simp] theorem tmpPutBack_ch {n : Nat} (hn : n < 8) : (tmpPutBack e s).eng[n].ch = s.eng[n].ch :=
  (tmpPutBack_evolves e s).units .chains rfl ⟨n, hn⟩

/-! ### Delivery, the claim, and the end of a session (R158, R165, R473) -/

/-- Apart from the chains' registers, naming a spot changes DELIV alone. -/
@[simp] theorem delivSet_get (v : Nat) (hb : f.reg.blk ≠ .ch) : (delivSet e v s).get f = (s.put (TMP_STAT.DELIV e) v).get f := by
  have hput {t : State} (ht : Evolves chainParts (fun _ => True) s t) :
      (t.put (TMP_STAT.DELIV e) v).get f = (s.put (TMP_STAT.DELIV e) v).get f := by
    have hrd {r : Reg} (hr : r.blk ≠ .ch) : t.rd r = s.rd r := ht.regs r (testBit_chainParts (Reg.group_ne_chain hr))
    unfold State.get State.put
    by_cases h : (TMP_STAT.DELIV e).reg = f.reg
    · rw [← h, State.rd_wr, State.rd_wr, hrd (by simp)]
    · rw [State.rd_wr_other _ _ h, State.rd_wr_other _ _ h, hrd hb]
  unfold delivSet
  extract_lets d t u
  refine hput (Evolves.ite (holdMove_ev _ _ _ rfl trivial ?_) ?_) <;>
    exact Evolves.ite (holdMove_evolves ..) (.refl ..)

theorem idEsq_lt : idEsq e < 64 := by unfold idEsq; omega
theorem idTemper_lt : idTemper e < 64 := by unfold idTemper; omega

theorem spareRelease_owner : (spareRelease e s).get (CLAIM_RES.OWNER (spareRes e)) =
    if s.isSet (CLAIM_RES.PEND (spareRes e)) then idEsq e else 0x3F := by
  have hid := idEsq_lt e
  simp only [spareRelease, State.get_put_mk_apart, State.get_put_mk, Nat.reduceAdd, Nat.reduceLeDiff, or_true]
  split <;> omega

@[simp] theorem spareRelease_get (h : f.reg ≠ CLAIM_RES.reg (spareRes e)) : (spareRelease e s).get f = s.get f := by
  simp [spareRelease, State.get_put_reg, Ne.symm h]

@[simp] theorem tmpFinish_state : (tmpFinish e s).get (TMP_STAT.STATE e) = tmpIdle := by simp [tmpFinish, tmpIdle]
@[simp] theorem tmpFinish_deliv : (tmpFinish e s).get (TMP_STAT.DELIV e) = 4 := by simp [tmpFinish]
@[simp] theorem tmpFinish_lastRes : (tmpFinish e s).get (TMP_STAT.LAST_RES e) = s.get (TMP_STAT.LAST_RES e) := by simp [tmpFinish]
@[simp] theorem tmpFinish_spot : (tmpFinish e s).get (CH_CTRL.SPOT e 4) = 4 := by simp [tmpFinish]
@[simp] theorem tmpFinish_owner : (tmpFinish e s).get (CLAIM_RES.OWNER (spareRes e)) =
    if s.isSet (CLAIM_RES.PEND (spareRes e)) then idEsq e else 0x3F := by
  simp [tmpFinish, spareRelease_owner, State.isSet_eq]
@[simp] theorem tmpFinish_get (hb : f.reg.blk ≠ .ch) (hs : f.reg ≠ TMP_STAT.reg e) (hc : f.reg ≠ CLAIM_RES.reg (spareRes e)) :
    (tmpFinish e s).get f = s.get f := by
  have hspot : (CH_CTRL.SPOT e 4).reg ≠ f.reg := fun h => hb (h ▸ rfl)
  simp [tmpFinish, hc, hb, State.get_put_reg, Ne.symm hs, hspot]

end
end Sys2Proof.Machine
end

section
/-! Each operation of a Temper session by the case it is in: start, abort, match, hand-over, limit, window and decision (R156 to R167). -/
namespace Sys2Proof.Machine

variable (e : Eng) {s : State} {k : Nat} {p : Bool}

/-! ### The start of a session (R156, R164, R165) -/

theorem tmpBegin_state : (tmpBegin e k s).get (TMP_STAT.STATE e) = tmpShadow := by simp [tmpBegin, tmpShadow]
theorem tmpBegin_target : (tmpBegin e k s).get (TMP_STAT.TARGET e) = k % 8 := by simp [tmpBegin]
theorem tmpBegin_owner : (tmpBegin e k s).get (CLAIM_RES.OWNER (spareRes e)) = idTemper e := by
  simp [tmpBegin, Nat.mod_eq_of_lt (idTemper_lt e)]
theorem tmpBegin_spot : (tmpBegin e k s).get (CH_CTRL.SPOT e 4) = if k < 4 then k else 0 := by
  have hk : (if k < 4 then k else 0) < 8 := by split <;> omega
  simp [tmpBegin, Nat.mod_eq_of_lt hk]
theorem tmpBegin_rotation : (tmpBegin e k s).eng[e].tmp.rotation = s.eng[e].tmp.rotation := by simp [tmpBegin]

theorem tmpTry_active (h : tmpActive s e = true) : tmpTry e k p s = s := if_pos h

theorem tmpTry_begins (hidle : tmpActive s e = false) (hok : tmpStartOk s e k = true) (hfree : spareFree s e = true) :
    tmpTry e k p s = tmpBegin e k (if p then s.modTmp e fun x => { x with rotation := (k + 1) % 5 } else s) := by
  simp [tmpTry, hidle, hok, hfree]

theorem tmpStartOk_startRej : tmpStartOk (s.raise (TMP_EVT.START_REJ e)) e k = tmpStartOk s e k := by simp [tmpStartOk, State.isSet_eq]

theorem tmpStartOk_claimDeny (r : Fin 37) (id : Nat) : tmpStartOk (claimDeny r id s) e k = tmpStartOk s e k := by
  simp [tmpStartOk, claimDeny, State.isSet_eq]

theorem tmpTry_refused (hidle : tmpActive s e = false) (hok : tmpStartOk s e k = false) :
    tmpTry e k false s = s.raise (TMP_EVT.START_REJ e) := by
  simp [tmpTry, hidle, hok, tmpStartOk_startRej]

theorem tmpTry_denied (hidle : tmpActive s e = false) (hok : tmpStartOk s e k = true) (hfree : spareFree s e = false) :
    tmpTry e k p s = ((claimDeny (spareRes e) (idTemper e) s).raise (TMP_EVT.START_REJ e)).modTmp e
      fun x => { x with retry := true, retryTarget := k } := by
  simp [tmpTry, hidle, hok, hfree, tmpStartOk_startRej, tmpStartOk_claimDeny]

theorem tmpTarget_lt : tmpTarget s e < 8 := by unfold tmpTarget; omega

theorem get_state_of_idle (h : tmpActive s e = false) : s.get (TMP_STAT.STATE e) = tmpIdle := by simpa [tmpActive] using h

theorem tmpStart_begins (hidle : tmpActive s e = false) (hok : tmpStartOk s e (tmpTarget s e) = true) (hfree : spareFree s e = true) :
    runs (.tmpStart e) s fun t => t.get (TMP_STAT.STATE e) = tmpShadow ∧ t.get (TMP_STAT.TARGET e) = tmpTarget s e ∧
      t.get (CLAIM_RES.OWNER (spareRes e)) = idTemper e ∧
      t.get (CH_CTRL.SPOT e 4) = if tmpTarget s e < 4 then tmpTarget s e else 0 := by
  refine ⟨_, rfl, ?_⟩
  rw [tmpTry_begins e hidle hok hfree]
  exact ⟨tmpBegin_state e, (tmpBegin_target e).trans (Nat.mod_eq_of_lt (tmpTarget_lt e)), tmpBegin_owner e, tmpBegin_spot e⟩

theorem tmpStart_refused (hidle : tmpActive s e = false) (hok : tmpStartOk s e (tmpTarget s e) = false) :
    runs (.tmpStart e) s fun t => t.get (TMP_EVT.START_REJ e) = 1 ∧ t.get (TMP_STAT.STATE e) = tmpIdle ∧ t.eng = s.eng := by
  refine ⟨_, rfl, ?_⟩
  rw [tmpTry_refused e hidle hok]
  simp [get_state_of_idle e hidle]

theorem tmpStart_denied (hidle : tmpActive s e = false) (hok : tmpStartOk s e (tmpTarget s e) = true) (hfree : spareFree s e = false) :
    runs (.tmpStart e) s fun t => t.get (TMP_EVT.START_REJ e) = 1 ∧ t.eng[e].tmp.retry = true ∧
      t.get (CLAIM_RES.LAST_REQ (spareRes e)) = idTemper e := by
  refine ⟨_, rfl, ?_⟩
  rw [tmpTry_denied e hidle hok hfree]
  simp [claimDeny, Nat.mod_eq_of_lt (idTemper_lt e)]

theorem temperPeriod_begins (hen : s.isSet (TMP_CTRL.EN e) = true) (hidle : tmpActive s e = false)
    (hok : tmpStartOk s e s.eng[e].tmp.rotation = true) (hfree : spareFree s e = true) :
    runs (.temperPeriod e) s fun t => t.get (TMP_STAT.STATE e) = tmpShadow ∧
      t.eng[e].tmp.rotation = (s.eng[e].tmp.rotation + 1) % 5 ∧ t.get (TMP_STAT.TARGET e) = s.eng[e].tmp.rotation % 8 := by
  refine ⟨_, rfl, ?_⟩
  rw [if_pos hen, tmpTry_begins e hidle hok hfree]
  refine ⟨tmpBegin_state e, (tmpBegin_rotation e).trans ?_, tmpBegin_target e⟩
  simp

theorem temperRetryDelay_begins (hretry : s.eng[e].tmp.retry = true) (hidle : tmpActive s e = false)
    (hok : tmpStartOk s e s.eng[e].tmp.retryTarget = true) (hfree : spareFree s e = true) :
    runs (.temperRetryDelay e) s fun t => t.get (TMP_STAT.STATE e) = tmpShadow ∧ t.get (TMP_STAT.TARGET e) = s.eng[e].tmp.retryTarget % 8 := by
  refine ⟨_, rfl, ?_⟩
  rw [if_pos hretry, tmpTry_begins (s := s.modTmp e fun x => { x with retry := false }) e hidle hok hfree]
  exact ⟨tmpBegin_state e, tmpBegin_target e⟩

/-! ### The end of a session in ABANDON (R156, R160, R165) -/

/-- The session's values are put back, its end counted and its result code left (R165). -/
def tmpEnded (e : Eng) (res : Nat) (s : State) : State := tmpPutBack e ((s.inc (TMP_CNT.ENDED e)).put (TMP_STAT.LAST_RES e) res)

theorem tmpEnded_deliv (res : Nat) : (tmpEnded e res s).get (TMP_STAT.DELIV e) = s.get (TMP_STAT.DELIV e) := by simp [tmpEnded]
theorem tmpEnded_lastRes (res : Nat) : (tmpEnded e res s).get (TMP_STAT.LAST_RES e) = res % 16 := by simp [tmpEnded]
theorem tmpEnded_ended (res : Nat) : (tmpEnded e res s).get (TMP_CNT.ENDED e) = satInc 255 (s.get (TMP_CNT.ENDED e)) := by simp [tmpEnded]
theorem tmpEnded_pend (res : Nat) : (tmpEnded e res s).isSet (CLAIM_RES.PEND (spareRes e)) = s.isSet (CLAIM_RES.PEND (spareRes e)) := by
  simp [tmpEnded, State.isSet_eq, State.inc_eq]
theorem tmpEnded_ch (res : Nat) {n : Nat} (hn : n < 8) : (tmpEnded e res s).eng[n].ch = s.eng[n].ch := by simp [tmpEnded]

theorem tmpAbandonWith_again (res : Nat) (h : s.get (TMP_STAT.STATE e) = tmpAbandon) : tmpAbandonWith e res false s = s := by
  simp [tmpAbandonWith, h]

theorem tmpAbandonWith_finishes (res : Nat) (hact : tmpActive s e = true) (hst : s.get (TMP_STAT.STATE e) ≠ tmpAbandon)
    (hd : s.get (TMP_STAT.DELIV e) = 4) : tmpAbandonWith e res false s = tmpFinish e (tmpEnded e res s) := by
  simp only [tmpAbandonWith, hact, if_neg hst, if_true]
  exact if_pos (.inl ((tmpEnded_deliv e res).trans hd))

theorem tmpAbandonWith_waits (res : Nat) (hact : tmpActive s e = true) (hst : s.get (TMP_STAT.STATE e) ≠ tmpAbandon)
    (hd : s.get (TMP_STAT.DELIV e) ≠ 4) (hhold : s.eng[e].ch[(4 : Chn)].seamHold = false) : tmpAbandonWith e res false s =
      ((tmpEnded e res s).put (TMP_STAT.STATE e) tmpAbandon).modTmp e fun t => { t with forced := true } := by
  have hd' : (tmpEnded e res s).get (TMP_STAT.DELIV e) ≠ 4 := by rwa [tmpEnded_deliv]
  have hhold' : (tmpEnded e res s).eng[e].ch[(4 : Chn)].seamHold = false := by
    rw [← hhold]
    exact congrArg (fun v : Vector ChInt 5 => v[(4 : Chn)].seamHold) (tmpEnded_ch e res e.isLt)
  simp only [tmpAbandonWith, hact, if_neg hst, if_true]
  refine if_neg ?_
  rintro (h | h | h)
  · exact hd' h
  · cases h
  · exact Bool.noConfusion (hhold'.symm.trans h)

theorem tmpActive_of_state {n : Nat} (h : s.get (TMP_STAT.STATE e) = n) (hn : n ≠ tmpIdle) : tmpActive s e = true := by
  simpa [tmpActive, h] using hn

theorem tmpAbort_finishes (hact : tmpActive s e = true) (hst : s.get (TMP_STAT.STATE e) ≠ tmpAbandon) (hd : s.get (TMP_STAT.DELIV e) = 4) :
    runs (.tmpAbort e) s fun t => t.get (TMP_STAT.STATE e) = tmpIdle ∧ t.get (TMP_STAT.LAST_RES e) = 7 ∧
      t.get (TMP_CNT.ENDED e) = satInc 255 (s.get (TMP_CNT.ENDED e)) ∧
      t.get (CLAIM_RES.OWNER (spareRes e)) = if s.isSet (CLAIM_RES.PEND (spareRes e)) then idEsq e else 0x3F := by
  refine ⟨_, rfl, ?_⟩
  rw [tmpAbortOp, tmpAbandonWith_finishes e 7 hact hst hd]
  refine ⟨tmpFinish_state .., (tmpFinish_lastRes ..).trans (tmpEnded_lastRes e 7), ?_, ?_⟩
  · rw [tmpFinish_get _ _ (by simp) (by simp) (by simp), tmpEnded_ended]
  · rw [tmpFinish_owner, tmpEnded_pend]

theorem tmpAbort_waits (hact : tmpActive s e = true) (hst : s.get (TMP_STAT.STATE e) ≠ tmpAbandon) (hd : s.get (TMP_STAT.DELIV e) ≠ 4)
    (hhold : s.eng[e].ch[(4 : Chn)].seamHold = false) :
    runs (.tmpAbort e) s fun t => t.get (TMP_STAT.STATE e) = tmpAbandon ∧ t.get (TMP_STAT.LAST_RES e) = 7 ∧ t.eng[e].tmp.forced = true := by
  refine ⟨_, rfl, ?_⟩
  rw [tmpAbortOp, tmpAbandonWith_waits e 7 hact hst hd hhold]
  simp [tmpEnded_lastRes, tmpAbandon]

theorem tmpCntClr_keeps (same : BitVec 3) :
    runs (.tmpCntClr e same) s fun t => t.get (TMP_CNT.ACCEPTED e) = bits same 0 1 ∧ t.get (TMP_CNT.REJECTED e) = bits same 1 1 ∧
      t.get (TMP_CNT.ENDED e) = bits same 2 1 := by
  refine ⟨_, rfl, ?_⟩
  have hlt (i : Nat) : bits same i 1 < 2 := Nat.mod_lt _ (by decide)
  have hmod (i n : Nat) (hn : 2 ≤ n) : bits same i 1 % n = bits same i 1 := Nat.mod_eq_of_lt (Nat.lt_of_lt_of_le (hlt i) hn)
  simp [tmpCntClear, hmod]

/-! ### Frames without a difference, and too many with one (R165) -/

@[simp] theorem calibStart_get_state : (calibStart e s).get (TMP_STAT.STATE e) = tmpCalib := by simp [calibStart, tmpCalib]

theorem temperMatch_shadow (h : s.get (TMP_STAT.STATE e) = tmpShadow) :
    runs (.temperMatch e) s fun t => t.get (TMP_STAT.STATE e) = if s.get (TMP_STAT.TARGET e) < 4 then tmpTakeover else tmpCalib := by
  refine ⟨_, rfl, ?_⟩
  unfold tmpMatch
  rw [if_pos h]
  split
  · simp [tmpTakeover]
  · exact calibStart_get_state e

theorem temperMatch_ends (h : s.get (TMP_STAT.STATE e) = tmpVerify ∨ s.get (TMP_STAT.STATE e) = tmpRestore) :
    runs (.temperMatch e) s fun t => (s.get (TMP_STAT.TARGET e) < 4 → t.get (TMP_STAT.STATE e) = tmpHandback) ∧
      (4 ≤ s.get (TMP_STAT.TARGET e) → t.get (TMP_STAT.STATE e) = tmpIdle ∧ t.get (TMP_EVT.DONE e) = 1) := by
  refine ⟨_, rfl, ?_⟩
  have hne : s.get (TMP_STAT.STATE e) ≠ tmpShadow := by obtain h | h := h <;> rw [h] <;> decide
  unfold tmpMatch
  rw [if_neg hne, if_pos h]
  by_cases ht : s.get (TMP_STAT.TARGET e) < 4
  · simp [ht, tmpHandback, Nat.not_le_of_lt]
  · simp [ht]

theorem temperConvLimit_verify (h : s.get (TMP_STAT.STATE e) = tmpVerify) :
    runs (.temperConvLimit e) s fun t => t.get (TMP_STAT.STATE e) = tmpRestore := by
  refine ⟨_, rfl, ?_⟩
  simp [tmpConvLimit, h, tmpVerify, tmpShadow, tmpRestore]

theorem State.logEvent_get (c : EvCode) (l : List Nat) {f : Fld} (hf : f.reg.blk ≠ .cqi) : (s.logEvent c l).get f = s.get f :=
  (State.logEvent_ev c l (.refl _) (.refl _ (fun _ => True) s)).get_eq (testBit_logEvent_group (Reg.group_ne_cqi hf))

theorem temperConvLimit_restore (h : s.get (TMP_STAT.STATE e) = tmpRestore) :
    runs (.temperConvLimit e) s fun t => t.get (TMP_STAT.STATE e) = tmpStuck ∧ t.get (TMP_STAT.LAST_RES e) = 8 ∧
      t.get (TMP_EVT.STUCK e) = 1 := by
  refine ⟨_, rfl, ?_⟩
  simp [tmpConvLimit, h, tmpVerify, tmpShadow, tmpRestore, tmpStuck, State.logEvent_get]

theorem temperConvLimit_shadow (h : s.get (TMP_STAT.STATE e) = tmpShadow) (hd : s.get (TMP_STAT.DELIV e) = 4) :
    runs (.temperConvLimit e) s fun t => t.get (TMP_STAT.STATE e) = tmpIdle ∧ t.get (TMP_STAT.LAST_RES e) = 5 := by
  refine ⟨_, rfl, ?_⟩
  have hne : s.get (TMP_STAT.STATE e) ≠ tmpAbandon := by rw [h]; decide
  unfold tmpConvLimit
  rw [if_pos h, tmpAbandonWith_finishes e 5 (tmpActive_of_state e h (by decide)) hne hd]
  exact ⟨tmpFinish_state .., (tmpFinish_lastRes ..).trans (tmpEnded_lastRes e 5)⟩

end Sys2Proof.Machine
end

section
/-! Hand-over of the delivery, the trial windows and their decision, the frequency measurement and the ADC writes (R158 to R166). -/
namespace Sys2Proof.Machine

variable (e : Eng) {s : State}

/-! ### Hand-over at a sync boundary (R157 to R160) -/

/-- What a hand-over does not change of a chain: what it reads and the frame it is in. -/
def ChInt.reading (c : ChInt) : ClObs × Nat := (c.obs, c.frame)

theorem straddle_evolves (a b : Chn) (j : Nat) (s : State) : Evolves 0x1080000000 (fun _ => True) s (straddle e a b j s) :=
  straddle_ev e a b j (.refl _) trivial (.refl _ _ s)

@[simp] theorem straddle_get (a b : Chn) (j : Nat) (f : Fld) : (straddle e a b j s).get f = s.get f :=
  (straddle_evolves e a b j s).get_eq (by cases f.reg.group <;> rfl)

theorem straddle_tmp_of_not_whole {a : Chn} (b : Chn) (j : Nat) (h : s.eng[e].ch[a].obs ≠ .whole ∨ s.eng[e].ch[a].frame = 0) :
    (straddle e a b j s).eng[e].tmp = s.eng[e].tmp := by
  have hw : ¬ (s.eng[e].ch[a].obs = .whole ∧ s.eng[e].ch[a].frame ≠ 0) :=
    fun hc => h.elim (fun hobs => hobs hc.1) (fun hframe => hc.2 hframe)
  simp only [straddle, hw, decide_false]
  simp [State.modCh]

theorem handoverClaim_false : handoverClaim e false s = tmpHandover e false s := rfl

theorem spotHandover_no_boundary (h : syncBoundary s e (targetChain (s.get (TMP_STAT.TARGET e))) 4 = false) :
    runs (.spotHandover e false) s fun t => t = s := ⟨_, rfl, by rw [handoverClaim_false]; exact if_pos h⟩

theorem State.modCh_reading (k j : Chn) {g : ChInt → ChInt} (hg : ∀ c, (g c).reading = c.reading) :
    (s.modCh e k g).eng[e].ch[j].reading = s.eng[e].ch[j].reading := by
  by_cases h : k = j
  · subst h
    simpa [State.modCh] using hg _
  · have hne : k.val ≠ j.val := fun he => h (Fin.ext he)
    simp [State.modCh, hne]

theorem altNow_eng (k : Chn) : (altNow e k s).eng = s.eng := by unfold altNow; split <;> rfl

theorem chainHold_reading (k j : Chn) (on : Bool) : (chainHold e k on s).eng[e].ch[j].reading = s.eng[e].ch[j].reading := by
  unfold chainHold
  extract_lets t
  have ht : t.eng[e].ch[j].reading = s.eng[e].ch[j].reading := State.modCh_reading e k j fun _ => rfl
  clear_value t
  split
  · exact ht
  · simpa only [altNow_eng, State.put_eng] using ht

theorem holdMove_reading (a b j : Chn) : (holdMove e a b s).eng[e].ch[j].reading = s.eng[e].ch[j].reading := by
  unfold holdMove
  split
  · rw [chainHold_reading, chainHold_reading]
  · rfl

theorem delivSet_reading (v : Nat) (j : Chn) : (delivSet e v s).eng[e].ch[j].reading = s.eng[e].ch[j].reading := by
  unfold delivSet
  dsimp only
  rw [State.put_eng]
  split <;> split <;> simp only [holdMove_reading]

theorem delivSet_tmp (v : Nat) : (delivSet e v s).eng[e].tmp = s.eng[e].tmp :=
  (delivSet_ev (M := 0x80000208) (P := fun _ => True) e v rfl trivial (.refl _ _ s)).units .tmp rfl e

/-- CH4 has taken over the delivery of spot `j` from chain `k` at a sync boundary (R159). -/
def takenOver (e : Eng) (k : Chn) (j : Nat) (s : State) : State := straddle e k 4 j ((delivSet e j s).raise (TMP_EVT.TAKEOVER e))

theorem takenOver_tmp {k : Chn} (j : Nat) (h : s.eng[e].ch[k].obs ≠ .whole ∨ s.eng[e].ch[k].frame = 0) :
    (takenOver e k j s).eng[e].tmp = s.eng[e].tmp := by
  have hr : ((delivSet e j s).raise (TMP_EVT.TAKEOVER e)).eng[e].ch[k].reading = s.eng[e].ch[k].reading := by
    rw [State.raise_eng, delivSet_reading]
  unfold takenOver
  rw [straddle_tmp_of_not_whole, State.raise_eng, delivSet_tmp]
  rwa [← (Prod.mk.inj hr).1, ← (Prod.mk.inj hr).2] at h

theorem tmpHandover_takeover {claim : Bool} (hst : s.get (TMP_STAT.STATE e) = tmpTakeover) (hd : s.get (TMP_STAT.DELIV e) = 4)
    (hb : syncBoundary s e (targetChain (s.get (TMP_STAT.TARGET e))) 4 = true) :
    tmpHandover e claim s =
      let t := takenOver e (targetChain (s.get (TMP_STAT.TARGET e))) (s.get (TMP_STAT.TARGET e)) s
      if t.eng[e].tmp.outgoing.isSome then t.modTmp e fun x => { x with straddle := true } else calibStart e t := by
  unfold tmpHandover
  dsimp only
  rw [hb, if_neg (by decide), if_pos ⟨hst, hd⟩]
  rfl

theorem spotHandover_takeover (hst : s.get (TMP_STAT.STATE e) = tmpTakeover) (hd : s.get (TMP_STAT.DELIV e) = 4)
    (hb : syncBoundary s e (targetChain (s.get (TMP_STAT.TARGET e))) 4 = true) :
    runs (.spotHandover e false) s fun t =>
      let c := s.eng[e].ch[targetChain (s.get (TMP_STAT.TARGET e))]
      t.get (TMP_STAT.DELIV e) = s.get (TMP_STAT.TARGET e) ∧ t.get (TMP_EVT.TAKEOVER e) = 1 ∧
      (s.eng[e].tmp.outgoing = none → c.obs ≠ .whole ∨ c.frame = 0 → t.get (TMP_STAT.STATE e) = tmpCalib) := by
  refine ⟨_, rfl, ?_⟩
  rw [handoverClaim_false, tmpHandover_takeover e hst hd hb]
  have hlt : s.get (TMP_STAT.TARGET e) < 8 := s.get_lt _
  refine ⟨?_, ?_, fun hnone hwhole => ?_⟩
  · dsimp only
    split <;> simp [calibStart, takenOver, Nat.mod_eq_of_lt hlt]
  · dsimp only
    split <;> simp [calibStart, takenOver]
  · dsimp only
    rw [takenOver_tmp e _ hwhole, hnone, if_neg (by simp)]
    exact calibStart_get_state e

/-- The hand-back ends the session; a claim of the same cycle waits for the spare chain by then (R157). -/
theorem tmpHandover_handback (claim : Bool) (hst : s.get (TMP_STAT.STATE e) = tmpHandback)
    (hb : syncBoundary s e (targetChain (s.get (TMP_STAT.TARGET e))) 4 = true) :
    tmpHandover e claim s = tmpFinish e (straddle e 4 (targetChain (s.get (TMP_STAT.TARGET e))) (s.get (TMP_STAT.TARGET e))
      ((if claim then s.put (CLAIM_RES.PEND (spareRes e)) 1 else s).raise (TMP_EVT.DONE e))) := by
  have hne : ¬ (s.get (TMP_STAT.STATE e) = tmpTakeover ∧ s.get (TMP_STAT.DELIV e) = 4) :=
    fun h => absurd (hst.symm.trans h.1) (by decide)
  unfold tmpHandover
  dsimp only
  rw [hb, if_neg (by decide), if_neg hne, if_pos hst]

theorem handoverClaim_finished (claim : Bool) (hst : s.get (TMP_STAT.STATE e) = tmpHandback)
    (hidle : (tmpHandover e claim s).get (TMP_STAT.STATE e) = tmpIdle) : handoverClaim e claim s = tmpHandover e claim s := by
  simp [handoverClaim, hst, hidle]

theorem spotHandover_handback (claim : Bool) (hst : s.get (TMP_STAT.STATE e) = tmpHandback)
    (hb : syncBoundary s e (targetChain (s.get (TMP_STAT.TARGET e))) 4 = true) :
    runs (.spotHandover e claim) s fun t => t.get (TMP_STAT.STATE e) = tmpIdle ∧ t.get (TMP_STAT.DELIV e) = 4 ∧
      t.get (TMP_EVT.DONE e) = 1 ∧ t.get (CH_CTRL.SPOT e 4) = 4 ∧
      t.get (CLAIM_RES.OWNER (spareRes e)) = if claim || s.isSet (CLAIM_RES.PEND (spareRes e)) then idEsq e else 0x3F := by
  have hback := tmpHandover_handback e claim hst hb
  refine ⟨_, rfl, ?_⟩
  rw [handoverClaim_finished e claim hst (by rw [hback]; exact tmpFinish_state ..), hback]
  cases claim <;> simp [State.isSet_eq]

/-! ### Trial windows and the decision (R165, R166) -/

theorem temperWindowDone_run1 (w : WindowResult) (hst : s.get (TMP_STAT.STATE e) = tmpCalib) :
    runs (.temperWindowDone e w) s fun t => t.eng[e].tmp.run1 = s.eng[e].tmp.run1 ++ [w] ∧
      t.get (TMP_STAT.STATE e) = if 10 ≤ s.eng[e].tmp.run1.length then tmpRepeat else tmpCalib := by
  refine ⟨_, rfl, ?_⟩
  unfold tmpWindow
  dsimp only
  rw [if_pos hst]
  by_cases h : 10 ≤ s.eng[e].tmp.run1.length
  · rw [if_pos (by omega), if_pos h]
    simp [tmpRepeat]
  · rw [if_neg (by omega), if_neg h]
    simp [hst]

/-- A window of run 2 is over: the working set is back and the window's result is kept (R165). -/
def run2Done (e : Eng) (w : WindowResult) (s : State) : State :=
  (trialOff e s.eng[e].tmp.run2.length s).modTmp e fun x => { x with run2 := x.run2 ++ [w] }

theorem run2Done_get {f : Fld} (w : WindowResult) (hf : f.reg.blk ≠ .ch) : (run2Done e w s).get f = s.get f := by simp [run2Done, hf]
theorem run2Done_run1 (w : WindowResult) : (run2Done e w s).eng[e].tmp.run1 = s.eng[e].tmp.run1 := by simp [run2Done]
theorem run2Done_run2 (w : WindowResult) : (run2Done e w s).eng[e].tmp.run2 = s.eng[e].tmp.run2 ++ [w] := by simp [run2Done]

theorem runsAgree_run2Done (w : WindowResult) (a : Nat) (r1 r2 : List WindowResult) :
    runsAgree (run2Done e w s) e a r1 r2 = runsAgree s e a r1 r2 := by
  simp [runsAgree, run2Done_get]

theorem notWorse_run2Done (w v : WindowResult) : notWorse (run2Done e w s) e v = notWorse s e v := by simp [notWorse, run2Done_get]

theorem tmpWindow_decides (w : WindowResult) (hst : s.get (TMP_STAT.STATE e) = tmpRepeat) (h : 10 ≤ s.eng[e].tmp.run2.length) :
    tmpWindow e w s = tmpAccept e w (run2Done e w s) := by
  have hne : s.get (TMP_STAT.STATE e) ≠ tmpCalib := by rw [hst]; decide
  unfold tmpWindow
  dsimp only
  rw [if_neg hne, if_pos hst, if_pos (by omega)]
  rfl

/-- The trims of an accepted result: the mean of the two runs' measurements, for each slice in use (R166). -/
def trimsApplied (e : Eng) (a : Chn) (map : BitVec 10) (r1 r2 : Option WindowResult) (s : State) : State :=
  match r1, r2 with
  | some w1, some w2 => (List.finRange 10).foldl (fun (s : State) (i : Fin 10) =>
      if map.getLsbD i.val then
        (s.putInt (TMP_ADCTRIM.OFFS e a i) (divFree ((sliceOffs w1 i).toInt + (sliceOffs w2 i).toInt) 2)).putInt (TMP_ADCTRIM.GAIN e a i)
          (divFree ((sliceGain map w1 i).toInt + (sliceGain map w2 i).toInt) 2)
      else s) s
  | _, _ => s

theorem trimsApplied_get {f : Fld} (a : Chn) (map : BitVec 10) (r1 r2 : Option WindowResult) (hf : f.reg.off < 0x6200) :
    (trimsApplied e a map r1 r2 s).get f = s.get f := by
  have hput (u : State) (i : Fin 10) (lo w : Nat) (x : Int) : (u.putInt ⟨TMP_ADCTRIM.reg e a i, lo, w⟩ x).get f = u.get f := by
    refine u.get_put_reg _ (Reg.ne_of_off ?_)
    dsimp only
    omega
  unfold trimsApplied
  split
  · refine foldl_keeps (fun u : State => u.get f) (fun u i => ?_) _ s
    split
    · rw [hput, hput]
    · rfl
  · rfl

/-- The state in which an accepted result is counted: maps, trims, selections and error are those of the new set (R166). -/
def resultApplied (e : Eng) (a : Chn) (r1 r2 : List WindowResult) (last : WindowResult) (s : State) : State :=
  let c := runChoice r1
  let map := trialMap (BitVec.ofNat 10 (s.get (TMP_ADCMAP.MAP e a))) c.1
  let s := trimsApplied e a map r1[c.1]? r2[c.1]? (s.put (TMP_ADCMAP.MAP e a) map.toNat)
  ((s.put (RED.IPH_SET e a) c.2.1).put (RED.EQM_SET e a) c.2.2).put (TMP_MSE.MSE e a) last.newMse.toNat

theorem resultApplied_get {f : Fld} (a : Chn) (r1 r2 : List WindowResult) (w : WindowResult) (hb : f.reg.blk ≠ .ch)
    (hf : f.reg.off < 0x6020) : (resultApplied e a r1 r2 w s).get f = s.get f := by
  have hoff {r : Reg} (h : 0x6020 ≤ r.off) : r ≠ f.reg := Reg.ne_of_off (by omega)
  have hch {r : Reg} (h : r.blk = .ch) : r ≠ f.reg := fun he => hb (he ▸ h)
  unfold resultApplied
  dsimp only
  rw [State.get_put_reg _ _ (hoff (Nat.le_add_right ..)), State.get_put_reg _ _ (hch rfl), State.get_put_reg _ _ (hch rfl),
    trimsApplied_get e _ _ _ _ (by omega), State.get_put_reg _ _ (hoff (by dsimp only; omega))]

theorem tmpApply_eq (a : Chn) (r1 r2 : List WindowResult) (w : WindowResult) : tmpApply e a r1 r2 w s =
    sendAdc e a ((((resultApplied e a r1 r2 w s).incWrap (TMP_STAT.GEN e)).inc (TMP_CNT.ACCEPTED e)).put (TMP_STAT.LAST_RES e) 1) := rfl

theorem tmpAccept_accepts (w : WindowResult)
    (h : (runsAgree s e (targetChain (s.get (TMP_STAT.TARGET e))) s.eng[e].tmp.run1 s.eng[e].tmp.run2 && notWorse s e w) = true) :
    let t := tmpAccept e w s
    t.get (TMP_STAT.STATE e) = tmpVerify ∧ t.get (TMP_STAT.LAST_RES e) = 1 ∧
      t.get (TMP_CNT.ACCEPTED e) = satInc 65535 (s.get (TMP_CNT.ACCEPTED e)) ∧ t.get (TMP_STAT.GEN e) = (s.get (TMP_STAT.GEN e) + 1) % 256 := by
  unfold tmpAccept
  dsimp only
  rw [if_pos h, tmpApply_eq]
  simp [State.incWrap_eq, resultApplied_get, tmpVerify]

theorem tmpAccept_rejects (w : WindowResult)
    (h : (runsAgree s e (targetChain (s.get (TMP_STAT.TARGET e))) s.eng[e].tmp.run1 s.eng[e].tmp.run2 && notWorse s e w) = false) :
    let t := tmpAccept e w s
    t.get (TMP_STAT.STATE e) = tmpRestore ∧
      t.get (TMP_STAT.LAST_RES e) =
        (if runsAgree s e (targetChain (s.get (TMP_STAT.TARGET e))) s.eng[e].tmp.run1 s.eng[e].tmp.run2 then 3 else 2) ∧
      t.get (TMP_CNT.REJECTED e) = satInc 255 (s.get (TMP_CNT.REJECTED e)) := by
  unfold tmpAccept
  dsimp only
  rw [h, if_neg (by decide)]
  refine ⟨by simp [tmpRestore], ?_, by simp⟩
  split <;> simp

theorem temperWindowDone_run2 (w : WindowResult) (hst : s.get (TMP_STAT.STATE e) = tmpRepeat) (hlen : 10 ≤ s.eng[e].tmp.run2.length) :
    runs (.temperWindowDone e w) s fun t =>
      let a := targetChain (s.get (TMP_STAT.TARGET e))
      let agree := runsAgree s e a s.eng[e].tmp.run1 (s.eng[e].tmp.run2 ++ [w])
      ((agree && notWorse s e w) = true → t.get (TMP_STAT.STATE e) = tmpVerify ∧ t.get (TMP_STAT.LAST_RES e) = 1 ∧
        t.get (TMP_CNT.ACCEPTED e) = satInc 65535 (s.get (TMP_CNT.ACCEPTED e)) ∧ t.get (TMP_STAT.GEN e) = (s.get (TMP_STAT.GEN e) + 1) % 256) ∧
      ((agree && notWorse s e w) = false → t.get (TMP_STAT.STATE e) = tmpRestore ∧ t.get (TMP_STAT.LAST_RES e) = (if agree then 3 else 2) ∧
        t.get (TMP_CNT.REJECTED e) = satInc 255 (s.get (TMP_CNT.REJECTED e))) := by
  have haccepts := tmpAccept_accepts e (s := run2Done e w s) w
  have hrejects := tmpAccept_rejects e (s := run2Done e w s) w
  rw [run2Done_run1, run2Done_run2, runsAgree_run2Done, notWorse_run2Done] at haccepts hrejects
  simp only [run2Done_get, ne_eq, reduceCtorEq, not_false_eq_true] at haccepts hrejects
  refine ⟨_, rfl, ?_⟩
  rw [tmpWindow_decides e w hst hlen]
  exact ⟨haccepts, hrejects⟩

/-! ### The frequency measurement (R163) -/

theorem temperFreqMeasure_reports (n : Nat) :
    let v := divFree (((n : Int) * 400 - s.get (HL_RATE.FW e) * 1728) * 16000000) (s.get (HL_RATE.FW e) * 1728)
    runs (.temperFreqMeasure e n) s fun t => t.get (TMP_FREQ.VALID e) = 1 ∧ t.getInt (TMP_FREQ.PPM e) = clampInt (-32768) 32767 v ∧
      (1600 < v.natAbs → t.get (TMP_EVT.FREQ_ERR e) = 1) := by
  intro v
  refine ⟨_, rfl, ?_⟩
  obtain ⟨hlo, hhi⟩ := clampInt_bounds (lo := -32768) (hi := 32767) (by decide) v
  have hppm : (s.putInt (TMP_FREQ.PPM e) (clampInt (-32768) 32767 v)).getInt (TMP_FREQ.PPM e) = clampInt (-32768) 32767 v :=
    s.getInt_putInt (by simp) hlo (Int.lt_add_one_of_le hhi) (by simp)
  rw [State.getInt] at hppm
  unfold tmpFreq
  dsimp only
  by_cases h : 1600 < v.natAbs
  · rw [if_pos h]
    refine ⟨by simp, ?_, fun _ => by simp⟩
    simpa [State.getInt] using hppm
  · rw [if_neg h]
    refine ⟨by simp, ?_, fun hv => absurd hv h⟩
    simpa [State.getInt] using hppm

/-! ### Writes of the ADC maps and trims (R161, R162) -/

theorem tmpAdcmapWrite_taken (a : Chn) (v : Word) (hidle : tmpActive s e = false) (hv : popcount 10 v.toNat = 8) :
    runs (.tmpAdcmapWrite e a v) s fun t => t.get (TMP_ADCMAP.MAP e a) = v.toNat % 1024 := by
  refine ⟨_, rfl, ?_⟩
  simp [adcMapWrite, hidle, hv]

theorem tmpAdcmapWrite_refused (a : Chn) (v : Word) (hidle : tmpActive s e = false) (hv : popcount 10 v.toNat ≠ 8) :
    runs (.tmpAdcmapWrite e a v) s fun t => t.get (TMP_EVT.BAD_WRITE e) = 1 ∧ t.get (TMP_ADCMAP.MAP e a) = s.get (TMP_ADCMAP.MAP e a) := by
  have hne : TMP_EVT.reg e ≠ TMP_ADCMAP.reg e a := Reg.ne_of_off (by dsimp only; omega)
  refine ⟨_, rfl, ?_⟩
  simp [adcMapWrite, hidle, hv, hne]

theorem tmpAdctrimWrite_taken (a : Chn) (i : Fin 10) (v : Word) (hidle : tmpActive s e = false) :
    runs (.tmpAdctrimWrite e a i v) s fun t => t.rd (TMP_ADCTRIM.reg e a i) = v := by
  refine ⟨_, rfl, ?_⟩
  simp [adcTrimWrite, hidle]

end Sys2Proof.Machine

open Sys2Proof Sys2Proof.Machine

/-- Settles O25: each row of a Temper session runs one operation, whose cases are the clauses; what it leaves in the block's registers follows
from the rule of each operation it is made of. -/
theorem temperSessions : Obligations.TemperSessions := by
  unfold Obligations.TemperSessions
  refine ⟨fun s e => ⟨?starts, ?refused, ?denied, ?inSession, ?period, ?notEnabled, ?retry, ?aborted, ?again, ?waits, ?cleared⟩,
    fun s e => ⟨?shadow, ?ends, ?takeover, ?handback, ?noBoundary, ?verify, ?stuck, ?abandoned, ?run1, ?run2, ?freq, ?map, ?badMap, ?trim⟩⟩
  case starts => exact tmpStart_begins e
  case refused => exact tmpStart_refused e
  case denied => exact tmpStart_denied e
  case inSession => exact fun h => ⟨_, rfl, tmpTry_active e h⟩
  case period => exact temperPeriod_begins e
  case notEnabled => exact fun h => ⟨_, rfl, if_neg (by simp [h])⟩
  case retry => exact temperRetryDelay_begins e
  case aborted => exact tmpAbort_finishes e
  case again => exact fun h => ⟨_, rfl, tmpAbandonWith_again e 7 h⟩
  case waits => exact tmpAbort_waits e
  case cleared => exact tmpCntClr_keeps e
  case shadow => exact temperMatch_shadow e
  case ends => exact temperMatch_ends e
  case takeover => exact spotHandover_takeover e
  case handback => exact spotHandover_handback e
  case noBoundary => exact spotHandover_no_boundary e
  case verify => exact temperConvLimit_verify e
  case stuck => exact temperConvLimit_restore e
  case abandoned => exact temperConvLimit_shadow e
  case run1 => exact temperWindowDone_run1 e
  case run2 => exact temperWindowDone_run2 e
  case freq => exact temperFreqMeasure_reports e
  case map => exact tmpAdcmapWrite_taken e
  case badMap => exact tmpAdcmapWrite_refused e
  case trim => exact tmpAdctrimWrite_taken e

end
